-- ==== Sys2Proof/Word.lean ====
section
/-! DEFINITION. The word types of the model: what the manual treats as bits. -/

namespace Sys2Proof

/-- One byte of memory (R8). -/
abbrev Byte := BitVec 8

/-- One register word (R543): 32 bits. -/
abbrev Word := BitVec 32

end Sys2Proof
end

