-- ==== Sys2Proof/Syntax.lean ====
section
/-! DEFINITION. The commands: everything that the outside world or the passing of time does to the block, one
constructor per row of spec/opcode_table.json, with its operands. -/

namespace Sys2Proof

/-- Where a write to a parameter came from (Table 20-7a): the host port, an SDO download, firmware, FoE. -/
inductive Src where
  | host | sdo | fw | foe
  deriving DecidableEq, Repr

/-- A segment of a recipe's programs: engine, core, QoS, entry wait, code (Table 22-3). -/
structure ProgSeg where
  engine : Nat
  core : Nat
  qos : Nat
  hasWait : Bool
  waitStatic : Bool
  waitCtr : Nat
  waitVal : Nat
  codeAddr : Nat
  codeLen : Nat
  deriving DecidableEq, Repr

/-- A recipe descriptor (Table 11-2), as the fields that the packed recipe spells. -/
structure RecipeDesc where
  owner : Nat
  peers : List Nat
  pipes : Nat
  posCh : Nat
  stepRing : Nat
  partRing : Nat
  maxParts : Nat
  slotBase : Nat
  slotStride : Nat
  kvBytes : Nat
  evBytes : Nat
  tokStrip : Nat
  maxTokens : Nat
  ctxMax : Nat
  ctxChunk : Nat
  ctxBudget : Nat
  ctxRequired : Bool
  ctxRing : Nat
  ctxWin : Nat
  actOut : Option Nat
  holdOut : Option Nat
  trailing : Bool
  actOfs : Nat
  widthPart : Bool
  actWidth : Nat
  margin : Nat
  defaultEject : Bool
  tolLines : Nat
  tolStrips : Nat
  stepDlPct : Nat
  stepWaitUs : Nat
  markWaitUs : Nat
  evCore : Nat
  evCtr : Nat
  /-- The static counters it reserves: core and counter (R171). -/
  statics : List (Nat × Nat)
  win16 : Nat
  demandDetect : Nat
  demandInfer : Nat
  detect : List ProgSeg
  infer : List ProgSeg
  evidence : List ProgSeg
  decide : List ProgSeg
  deriving DecidableEq, Repr

/-- A forwarded open mark (R273): handle, ordinal, line, address word of the peer's evidence area. -/
structure MarkOpen where
  handle : Nat
  ordinal : Nat
  line : Nat
  evAddr : Nat
  deriving DecidableEq, Repr

/-- One applied mark as it is forwarded: an open, or a close of a handle at a line. -/
inductive MarkFwd where
  | opened (m : MarkOpen)
  | closed (handle line : Nat)
  deriving DecidableEq, Repr

/-- The mark batch of a step (R273). -/
structure MarkBatch where
  step : Nat
  marks : List MarkFwd
  deriving DecidableEq, Repr


/-- What a CoaXPress stream packet carries, in order (R116, R119). -/
inductive CxpItem where
  /-- A rectangular line-scan image header of a supported format (coded as PP_CTL.fmt): width in pixels, lines. -/
  | header (fmt width height : Nat)
  /-- An area-scan or otherwise unsupported header (R138). -/
  | unsupported
  /-- A line marker. -/
  | marker
  /-- Line data. -/
  | data (bytes : List Byte)
  deriving DecidableEq, Repr

/-- What a packet of the control side is (R129, R138). -/
inductive CxpCtrl where
  | ack | event | heartbeat | trigger | gpio
  deriving DecidableEq, Repr

/-- The registers whose writes R134 judges. -/
inductive CamReg where
  | camCtl | ppCtl | stamp | ring | ringCfg
  deriving DecidableEq, Repr

/-- The registers whose writes R158 judges; `work` is the _HI word of the pair (R544). -/
inductive DecReg where
  | ctl | src | work
  deriving DecidableEq, Repr

/-- The registers whose writes R557 judges; `cqBase` and `evqBase` are the _HI words of their pairs (R544). -/
inductive RingReg where
  | sqBase | sqCfg | cqBase | cqCfg | evqBase | evqCfg
  deriving DecidableEq, Repr

/-- A stored dictionary entry (R477): index, subindex and value. -/
structure Param where
  index : Nat
  sub : Nat
  value : Nat
  deriving DecidableEq, Repr

/-- The files of Table 20-5; any other name is unknown. -/
inductive FoeFile where
  | fw | params | journal | unknown
  deriving DecidableEq, Repr

/-- One step of an FoE transfer (R500): an open, a data packet of a write, an acknowledgement of a read's packet. For the
last packet of a parameter store, `params` is what the store spells, none where its CRC fails. -/
inductive FoeStep where
  | opened (file : FoeFile)
  | data (bytes : List Byte) (last : Bool) (params : Option (List Param))
  | ack
  deriving DecidableEq, Repr

/-- What an EtherCAT frame does to the slave controller (R492, R493). -/
inductive EcatAccess where
  /-- A write to SM0: a mailbox request. -/
  | mailOut (bytes : List Byte)
  /-- A read of SM1: the response is taken. -/
  | mailIn
  /-- A write of the output image to SM2; a read of the input image from SM3. -/
  | outputs (bytes : List Byte)
  | inputs
  /-- A SyncManager's configured length; an FMMU's settings. -/
  | syncManager (n len : Nat)
  | fmmu (n : Nat) (settings : List Byte)
  deriving DecidableEq, Repr

/-- An SDO Information request (Table 20-2). -/
inductive InfoReq where
  | list
  | object (index : Nat)
  | entry (index sub : Nat)
  deriving DecidableEq, Repr

/-- What a channel's synchronisers show: bit i of `levels` is the level of input i (A, B, Z or U, V, W), for `cycles` position
cycles (R88). -/
structure HeldLevels where
  levels : Nat
  cycles : Nat
  deriving DecidableEq, Repr

/-- What the watchdog of a segment finds (R175, R211). `hung`: an access or code fetch is unanswered. `done`: the elements of a
copy or fill, or the tiles of an mma, that the instruction in progress has completed. -/
structure WatchFound where
  hung : Bool
  done : Nat
  deriving DecidableEq, Repr

/-- A load of engine `eng` (R236). `back`: 0 the load of the bundle at the pc, n the n-th last load that has issued. -/
structure IssuedLoad where
  eng : Nat
  back : Nat
  deriving DecidableEq, Repr

/-- The commands of the block: one constructor per row of the table of operations and events. -/
inductive Instr where
  /-- POR_ASSERT (R47): Assertion of POR_N starts a power-on reset of the whole device and overrides any warm reset. -/
  | porAssert
  /-- POR_RELEASE (R53): Release of POR_N starts cold bring-up in ROM, with TT at 0 and every block in its reset state. The islands whose clock is not there. -/
  | porRelease (absent : List Nat)
  /-- WARM_RST_ASSERT (R478): Assertion of WARM_RST_N, or an equivalent request, starts a warm reset; it is ignored while POR_N is asserted or during ROM. -/
  | warmRstAssert
  /-- WARM_RST_RELEASE (R490): Release of warm reset starts warm bring-up from ROM with the differences of Table 19-6. -/
  | warmRstRelease
  /-- POWER_LOSS (R481): Sudden loss of power leaves the outputs and bypasses safe and the boot flash consistent. -/
  | powerLoss
  /-- ISLAND_CLOCK_LOSS (R49): An island clock that is absent or stops holds the island in reset, with its units reporting OFF. -/
  | islandClockLoss (island : Nat)
  /-- ISLAND_CLOCK_RETURN (R49): A held island whose clock is seen again leaves reset in its POR-release state. -/
  | islandClockReturn (island : Nat)
  /-- LANE_SERDES_RESET (R48): A SerDes lane reset abandons any PHY tuning access in flight; the loop restarts from stored settings. -/
  | laneSerdesReset (lane : Nat)
  /-- PHY_TUNE_ACK (R54): A PHY tuning access is acknowledged by the licensee SerDes, and the tuning loop continues. -/
  | phyTuneAck (lane data : Nat)
  /-- PHY_TUNE_TIMEOUT (R50): A PHY tuning access without acknowledgement for 1,024 link cycles is abandoned and retried after 1 ms; the loop stops after three timeouts. -/
  | phyTuneTimeout (lane : Nat)
  /-- CLOCK_GEN_ACK (R56): A core clock generator acknowledges a new frequency, which then holds for the island. -/
  | clockGenAck (core : Nat)
  /-- CLOCK_GEN_TIMEOUT (R51): A frequency request unacknowledged within 50 µs leaves the island at its last frequency and caps it until warm reset. -/
  | clockGenTimeout (core : Nat)
  /-- REGISTER_WRITE (R543): A host or management write to a register that has no row of its own is applied, ignored or refused as that register's table gives. Offset in register space, value, and whether the byte enables cover the word. -/
  | registerWrite (src : Src) (off v : Nat) (full : Bool)
  /-- JOURNALLED_PARAMETER_APPLY (R21): At a management-cycle boundary, writes to journalled parameters are applied and journalled; a dictionary write wins over a host write to the same parameter. The read-back of the entry from the primary and from the mirror met an uncorrectable error. -/
  | journalledParameterApply (badPrimary badMirror : Bool)
  /-- PAIR_LO_READ (R59): A read of a latched _LO register returns the low half and latches the upper half into _HI. The offset in register space. -/
  | pairLoRead (src : Src) (off : Nat)
  /-- PAIR_HI_WRITE (R544): A write to a _HI register applies both words of the pair together with the held _LO value. -/
  | pairHiWrite (src : Src) (off v : Nat)
  /-- RC_REGISTER_READ (R10): A register read of an rc field returns its value and clears it, keeping any update made in the same cycle. -/
  | rcRegisterRead (src : Src) (off : Nat)
  /-- W1C_REGISTER_WRITE (R10): Writing 1 to a w1c bit clears it, unless hardware sets the bit in the same cycle. -/
  | w1cRegisterWrite (src : Src) (off v : Nat)
  /-- TT_LOAD (R68): A write to TB_TT_LOAD_HI loads TT only in FREE_RUN with no part slot open and no TT-compare event pending. `hi` is the word written to TB_TT_LOAD_HI. -/
  | ttLoad (hi : Nat)
  /-- REF_TICK (R60): A rack reference tick gives a phase measurement and is checked against the clock-period count. -/
  | refTick (n periods : Nat)
  /-- REF_STOP_TIMEOUT (R62): A reference with no edges for 4 periods, no tick for 4 ms or 4 missing frame starts is disqualified with cause stop. -/
  | refStopTimeout (n : Nat)
  /-- REF_RATE_CHECK (R62): At the end of a 10 ms measurement, a reference beyond ±200 ppm of LOCAL_OSC is disqualified with cause rate. `offset` in units of 10^-12. -/
  | refRateCheck (n : Nat) (offset : Int)
  /-- REF_QUALIFY_TIMEOUT (R63): A reference that has passed every check for TB_QUAL ms qualifies again and posts REF_QUALIFIED. -/
  | refQualifyTimeout (n : Nat)
  /-- TB_STATE_EVALUATION (R64): Once per management cycle the timebase evaluates disqualifications, selection, lock, pull and steps, and moves state under Table 3-5. -/
  | tbStateEvaluation
  /-- TB_HOLD_LIMIT_EXCEEDED (R69): The holdover error estimate passes TB_HOLD_LIMIT, so the timebase enters LOST and posts TB_LOST. -/
  | tbHoldLimitExceeded
  /-- ALIGN_FILTER_OUTPUT (R70): After 16 two-way exchanges the filter outputs θ, and a rack lead may reset its tick phase and broadcast it. -/
  | alignFilterOutput (port : Nat)
  /-- ALIGN_EXCHANGES_DISCARDED (R81): When align_port exchanges have been discarded for 16 ms, the rack lead keeps its tick phase and posts ALIGN_FAULT. -/
  | alignExchangesDiscarded
  /-- TICK_PHASE_ADOPT (R71): At the broadcast tick, a receiving chip adopts the new tick phase and corrects TT or posts ALIGN_FAULT. -/
  | tickPhaseAdopt
  /-- OSC_FAIL (R80): Four missing LOCAL_OSC periods set osc_fail, stop qualification and move FREE_RUN or HOLDOVER to LOST. -/
  | oscFail
  /-- OSC_RECOVERED (R598): LOCAL_OSC running 100 ms without a missing period clears osc_fail. -/
  | oscRecovered
  /-- TDC_CALIBRATION (R589): Every 1 s the time-to-digital converter is calibrated against LOCAL_OSC. -/
  | tdcCalibration (ps : Nat)
  /-- ENCODER_EDGE_ACCEPTED (R88): An encoder input level that held for filt + 1 cycles is accepted, counted under the channel mode, latched, passed through and stamped. -/
  | encoderEdgeAccepted (ch : Nat) (shown : HeldLevels)
  /-- SSI_FRAME_START (R92): Every ssi_period µs an SSI channel issues a frame of ssi_bits clocks. -/
  | ssiFrameStart (ch : Nat)
  /-- SSI_FRAME_COMPLETE (R93): A finished SSI frame is decoded, checked and adds its difference to the count, or is counted as a frame error. `ready`: the data line is high before the first clock. Bit c of `clocked` is its level c position cycles after the frame began, until the last clock is over; bit c of `recovery` its level c cycles after that. -/
  | ssiFrameComplete (ch : Nat) (ready : Bool) (clocked recovery : Nat)
  /-- SPEED_ESTIMATE_UPDATE (R97): Every 10 µs the speed estimate is recomputed and filtered. -/
  | speedEstimateUpdate (ch : Nat)
  /-- STANDSTILL_TIMEOUT (R99): A channel that has counted no edge for PU_STILL ms sets standstill and posts STANDSTILL. -/
  | standstillTimeout (ch : Nat)
  /-- COUNT_LOAD (R103): A write to PU_LOAD_HI relabels the channel's count and kept positions, or is refused with CNT_LOAD_REFUSED. -/
  | countLoad (ch hi : Nat)
  /-- PU_CH_CTL_WRITE (R104): A write to PU_CH_CTL or PU_SSI is accepted or refused with PU_CFG_REFUSED under the mode rule. With `ssi` the register is PU_SSI. -/
  | puChCtlWrite (src : Src) (ch : Nat) (ssi : Bool) (v : Nat)
  /-- PU_IDX_LO_READ (R95): A read of PU_IDX_LO latches the upper half and clears idx_new. -/
  | puIdxLoRead (ch : Nat)
  /-- PU_STATUS_READ (R95): A read of PU_STATUS clears idx_new. -/
  | puStatusRead (ch : Nat)
  /-- THRESHOLD_SCAN_COMPLETE (R108): After a 6.4 ms scan, the input threshold moves one code toward mid-swing, and los is set or cleared. Bit c of `low` says that the monitor toggled at code c, bit c of `high` at code 32 + c. -/
  | thresholdScanComplete (ch input low high : Nat)
  /-- CXP_STREAM_PACKET (R118): A CoaXPress stream packet is deskewed, merged in tag order and taken into line intake. -/
  | cxpStreamPacket (lane tag stream : Nat) (crcOk : Bool) (items : List CxpItem)
  /-- CXP_LANE_LOCK_LOSS (R136): Loss of lock on a member lane, or excess skew, takes the group down and damages lines in transit. -/
  | cxpLaneLockLoss (lane : Nat)
  /-- CXP_CONTROL_PACKET_RX (R129): A received control-channel packet is copied uninterpreted into the control receive ring, or dropped when the ring is full. `ptype` is the packet type as received, `bytes` the packet without its delimiters. -/
  | cxpControlPacketRx (lane : Nat) (kind : CxpCtrl) (ptype : Nat) (crcOk : Bool) (bytes : List Byte)
  /-- CX_CTRL_TX_SEND (R129): The next control transmit ring entry is sent on the uplink once the previous packet has gone. -/
  | cxCtrlTxSend (cam : Nat)
  /-- STRIP_WRITES_ACKNOWLEDGED (R127): Once every tile and header write of a strip is acknowledged, PP_PROD advances and the batch builder is notified. -/
  | stripWritesAcknowledged (pipe : Nat)
  /-- PIPELINE_STALL_TIMEOUT (R137): With no line accepted for stall_us, the partial strip is completed with replaced lines and the pipeline stalls. -/
  | pipelineStallTimeout (pipe : Nat)
  /-- CAL_BANK_SWAP (R128): A write to PP_CAL_SWAP.swap checks the shadow bank and makes it active from the next strip, or posts PP_TABLE_REFUSED. -/
  | calBankSwap (src : Src) (pipe v : Nat)
  /-- CAMERA_CONFIG_WRITE (R134): A write to CX_CAM_CTL or the PP_ configuration registers is accepted or refused under the en rule; clearing en stops the pipeline. -/
  | cameraConfigWrite (src : Src) (pipe : Nat) (reg : CamReg) (v : Nat)
  /-- DEC_CONFIG_WRITE (R158): A write to PP_DEC_CTL, PP_DEC_SRC or PP_DEC_WORK is accepted or refused; setting en binds the channel to its pipeline. -/
  | decConfigWrite (src : Src) (ch : Nat) (reg : DecReg) (v : Nat)
  /-- DEC_SUBST_WRITE (R156): A PP_DEC_SUBST write is accepted only for address 0 or a line block that passes every check. `hi` is the word written to PP_DEC_SUBST_HI. -/
  | decSubstWrite (src : Src) (ch hi : Nat)
  /-- DEC_DESCRIPTOR_FETCH (R151): The decoder reads the next published source descriptor, or skips it with cause bad_address. -/
  | decDescriptorFetch (ch : Nat)
  /-- DEC_FILE_HEADER (R154): A sett file header is checked, and the whole stream is refused if it fails. -/
  | decFileHeader (ch : Nat)
  /-- DEC_RECORD (R154): A sett record is checked in order and fed to the pipeline, skipped and replaced, or ends the stream. -/
  | decRecord (ch : Nat)
  /-- DEC_PACED_LINE_ENTRY (R149): In paced mode, a line enters the pipeline once TT reaches its stamp. -/
  | decPacedLineEntry (ch : Nat)
  /-- DEC_RING_SPACE_RESUME (R149): In free mode, a channel that waited on a full strip ring resumes when a buffer is released. -/
  | decRingSpaceResume (ch : Nat)
  /-- SEGMENT_START (R166): A free engine starts the ready queue entry with the lowest rank and begins fetching its code. `eng`: 0 TE, 1 LE, 2 SE, 3 VE, 4 RE. -/
  | segmentStart (core eng : Nat)
  /-- SEGMENT_END (R167): A segment ends at an end instruction or at code_addr + code_len, freeing the engine. -/
  | segmentEnd (core eng : Nat)
  /-- SEGMENT_COMPLETE (R167): Once every write of an ended segment is acknowledged, the segment is reported complete to the dispatcher. -/
  | segmentComplete (core eng : Nat)
  /-- SYNC_SIGNAL_APPLY (R169): A signal adds n to its counter modulo 2^32, up to 4 per core cycle, or is dropped as stray. `k` counts the signals on their way, from the oldest. -/
  | syncSignalApply (k : Nat)
  /-- WAIT_SATISFIED (R181): A waiting engine or held entry whose counter condition now holds proceeds in the next cycle. -/
  | waitSatisfied (core eng : Nat)
  /-- SEGMENT_WATCHDOG_EXPIRY (R175): A segment reaching 20 µs is stopped with SEG_WATCHDOG and its job is faulted. -/
  | segmentWatchdogExpiry (core eng : Nat) (found : WatchFound)
  /-- STALL_WATCH_EXPIRY (R176): A job that cannot proceed for 65,536 fabric cycles is frozen and JOB_DEADLOCK is posted. -/
  | stallWatchExpiry (job : Nat)
  /-- ENGINE_FABRIC_ERROR (R338): An error response to an LE read or SE write raises FABRIC_ERROR in the issuing engine. -/
  | engineFabricError (core eng : Nat)
  /-- NOP (R190): The nest-form nop does nothing. The engine issues the instruction at its pc. -/
  | nop (core eng : Nat)
  /-- END (R189): The nest-form end instruction ends its segment when it retires. -/
  | endInstr (core eng : Nat)
  /-- BASE (R194): base loads 1 to 7 base slots from its value words. -/
  | base (core eng : Nat)
  /-- SIGNAL (R205): The nest-form signal adds n to a local, cross-core or remote counter after earlier writes are acknowledged. -/
  | signal (core eng : Nat)
  /-- WAIT (R205): The nest-form wait holds the engine until its counter reaches the value. -/
  | wait (core eng : Nat)
  /-- MMA (R201): mma performs a tiled matrix multiply-accumulate over the loop nest, with an epilogue per tile. -/
  | mma (core eng : Nat)
  /-- COPY (R200): copy copies elements with type conversion over the loop nest. -/
  | copy (core eng : Nat)
  /-- FILL (R200): fill writes a constant to D over the loop nest. -/
  | fill (core eng : Nat)
  /-- EMPTY_BUNDLE (R214): A bundle with no slot set costs one idle issue cycle. `eng` is 3 (VE) or 4 (RE): the engine issues the bundle at its pc. -/
  | emptyBundle (core eng : Nat)
  /-- VLD (R219): vld loads 256 bytes into a vector register. -/
  | vld (core eng : Nat)
  /-- VST (R219): vst stores the lanes of a vector register selected by a mask. -/
  | vst (core eng : Nat)
  /-- VLDB (R219): vldb broadcasts one 32-bit word into every lane. -/
  | vldb (core eng : Nat)
  /-- SLD (R219): sld loads 8 bytes into a scalar register. -/
  | sld (core eng : Nat)
  /-- SST (R219): sst stores a scalar register. -/
  | sst (core eng : Nat)
  /-- RLD (R219): rld loads 128 bytes into a ring register. -/
  | rld (core eng : Nat)
  /-- RST (R219): rst stores a ring register. -/
  | rst (core eng : Nat)
  /-- LDMOD (R220): ldmod loads a modulus and Barrett constant into a slot after checking them, or raises MODULUS. -/
  | ldmod (core eng : Nat)
  /-- VADD (R223): vadd adds lane-wise under a mask. -/
  | vadd (core eng : Nat)
  /-- VSUB (R223): vsub subtracts lane-wise. -/
  | vsub (core eng : Nat)
  /-- VMUL (R223): vmul multiplies lane-wise. -/
  | vmul (core eng : Nat)
  /-- VFMA (R223): vfma performs a fused multiply-add with one rounding. -/
  | vfma (core eng : Nat)
  /-- VMAX (R223): vmax takes the larger value lane-wise. -/
  | vmax (core eng : Nat)
  /-- VMIN (R223): vmin takes the smaller value lane-wise. -/
  | vmin (core eng : Nat)
  /-- VAND (R223): vand computes bitwise AND. -/
  | vand (core eng : Nat)
  /-- VOR (R223): vor computes bitwise OR. -/
  | vor (core eng : Nat)
  /-- VXOR (R223): vxor computes bitwise XOR. -/
  | vxor (core eng : Nat)
  /-- VSHL (R223): vshl shifts each lane left. -/
  | vshl (core eng : Nat)
  /-- VSHR (R223): vshr shifts each lane right, arithmetically for i32. -/
  | vshr (core eng : Nat)
  /-- VCMPLT (R223): vcmplt writes a less-than comparison into a mask. -/
  | vcmplt (core eng : Nat)
  /-- VCMPLE (R223): vcmple writes a less-or-equal comparison into a mask. -/
  | vcmple (core eng : Nat)
  /-- VCMPEQ (R223): vcmpeq writes an equality comparison into a mask. -/
  | vcmpeq (core eng : Nat)
  /-- VSEL (R223): vsel selects a or b per lane by a mask. -/
  | vsel (core eng : Nat)
  /-- VCVT (R223): vcvt converts lanes between f32, i32, u32 and bf16 under a rounding mode. -/
  | vcvt (core eng : Nat)
  /-- VEXP (R224): vexp computes e^a within 2 ulp. -/
  | vexp (core eng : Nat)
  /-- VRCP (R224): vrcp computes the reciprocal within 2 ulp. -/
  | vrcp (core eng : Nat)
  /-- VRSQRT (R224): vrsqrt computes the reciprocal square root within 2 ulp. -/
  | vrsqrt (core eng : Nat)
  /-- VRED (R224): vred reduces masked lanes by sum, max or min in a fixed tree into lane 0. -/
  | vred (core eng : Nat)
  /-- VPERM (R223): vperm permutes lanes by indices. -/
  | vperm (core eng : Nat)
  /-- VBCAST (R223): vbcast broadcasts one lane to every lane. -/
  | vbcast (core eng : Nat)
  /-- VMOV (R223): vmov copies a vector register. -/
  | vmov (core eng : Nat)
  /-- RADD (R226): radd adds modulo q. -/
  | radd (core eng : Nat)
  /-- RSUB (R226): rsub subtracts modulo q. -/
  | rsub (core eng : Nat)
  /-- RMUL (R400): rmul multiplies modulo q by Barrett reduction. -/
  | rmul (core eng : Nat)
  /-- RMAC (R400): rmac multiply-accumulates modulo q. -/
  | rmac (core eng : Nat)
  /-- RNEG (R226): rneg negates modulo q. -/
  | rneg (core eng : Nat)
  /-- RBFLY (R226): rbfly performs a forward NTT butterfly. -/
  | rbfly (core eng : Nat)
  /-- RBFLYI (R226): rbflyi performs an inverse NTT butterfly. -/
  | rbflyi (core eng : Nat)
  /-- RXCH (R226): rxch exchanges lanes between two ring registers at a stride. -/
  | rxch (core eng : Nat)
  /-- RADDW (R226): raddw adds modulo 2^64. -/
  | raddw (core eng : Nat)
  /-- RSUBW (R226): rsubw subtracts modulo 2^64. -/
  | rsubw (core eng : Nat)
  /-- RMULW (R226): rmulw multiplies modulo 2^64. -/
  | rmulw (core eng : Nat)
  /-- RMOV (R226): rmov copies a ring register. -/
  | rmov (core eng : Nat)
  /-- RBCAST (R226): rbcast broadcasts one lane of a ring register. -/
  | rbcast (core eng : Nat)
  /-- RMOD (R400): rmod reduces any 64-bit lane modulo q. -/
  | rmod (core eng : Nat)
  /-- SMOV (R228): smov loads a sign-extended immediate into a scalar register. -/
  | smov (core eng : Nat)
  /-- SSHL (R228): sshl shifts a scalar left. -/
  | sshl (core eng : Nat)
  /-- SADD (R228): sadd adds two scalars. -/
  | sadd (core eng : Nat)
  /-- SADDI (R228): saddi adds an immediate to a scalar. -/
  | saddi (core eng : Nat)
  /-- SMUL (R228): smul multiplies two scalars. -/
  | smul (core eng : Nat)
  /-- SGET (R228): sget reads one register lane into a scalar. -/
  | sget (core eng : Nat)
  /-- SPUT (R228): sput writes a scalar into one register lane. -/
  | sput (core eng : Nat)
  /-- MSET (R228): mset sets a lane mask from a scalar. -/
  | mset (core eng : Nat)
  /-- MGET (R228): mget reads a lane mask into a scalar. -/
  | mget (core eng : Nat)
  /-- MAND (R228): mand ANDs two masks. -/
  | mand (core eng : Nat)
  /-- MOR (R228): mor ORs two masks. -/
  | mor (core eng : Nat)
  /-- MANDN (R228): mandn ANDs a mask with the complement of another. -/
  | mandn (core eng : Nat)
  /-- JMP (R230): jmp branches relative to the bundle. -/
  | jmp (core eng : Nat)
  /-- BRZ (R230): brz branches if a scalar is zero. -/
  | brz (core eng : Nat)
  /-- BRNZ (R230): brnz branches if a scalar is non-zero. -/
  | brnz (core eng : Nat)
  /-- LOOP (R228): loop decrements a scalar and branches while it is non-zero. -/
  | loopInstr (core eng : Nat)
  /-- BUNDLE_SIGNAL (R229): The C-slot signal adds imm16 to a local, cross-core or remote counter. -/
  | bundleSignal (core eng : Nat)
  /-- BUNDLE_WAIT (R229): The C-slot wait holds the whole bundle until its counter reaches the value. -/
  | bundleWait (core eng : Nat)
  /-- LOAD_DATA_UNCORRECTABLE (R236): Uncorrectable data arriving for a bundle-form load stops issue and faults the job. -/
  | loadDataUncorrectable (core : Nat) (load : IssuedLoad)
  /-- DOORBELL (R545): A write to HP_SQ_DB publishes submission entries, or is refused with HP_DOORBELL_REFUSED. -/
  | doorbell (ring v : Nat)
  /-- GROUP_ADMISSION (R243): The dispatcher takes the head entry of a ring and admits it once a tag and windows are free, or refuses it on a failed check. `readErr`: the entry cannot be read without error (R262). -/
  | groupAdmission (ring : Nat) (readErr : Bool)
  /-- EXEC (R547): An exec submission entry runs its segments as a job. -/
  | exec (ring : Nat) (readErr : Bool)
  /-- IMAGE_LOAD (R549): An image load checks the CMAC and configuration tag, then places the matching variant's sections. The load that the ring has taken up. -/
  | imageLoad (ring : Nat)
  /-- RECIPE_LOAD (R265): A recipe load places the packed recipe and takes its recipe slot, or is refused. `desc` is the descriptor that the packed recipe's descriptor section spells. -/
  | recipeLoad (ring : Nat) (desc : RecipeDesc)
  /-- RECIPE_UNLOAD (R547): A recipe unload frees the recipe slot and its static counters. -/
  | recipeUnload (ring : Nat)
  /-- DESCRIPTOR_POST (R250): The dispatcher posts a job's next segment descriptor when its engine queue has room within seg_ahead and lc_reserve. -/
  | descriptorPost (job : Nat)
  /-- RANK_REFRESH (R247): Every 1 µs, and on admission and completion, the ranks of queued descriptors are recomputed. -/
  | rankRefresh
  /-- DEADLINE_RECOMPUTE (R245): Every 10 µs, encoder deadlines are converted again to TT through the speed estimate. -/
  | deadlineRecompute
  /-- DEADLINE_EXPIRY (R246): A group's TT, count or backstop deadline expires and the ring's miss policy applies. -/
  | deadlineExpiry (job : Nat)
  /-- BE_STARVE_TIMEOUT (R249): A BE ring whose admitted job has started no segment for starve_ms posts BE_STARVED. -/
  | beStarveTimeout (ring : Nat)
  /-- GROUP_COMPLETION (R255): A group completes with one status and one completion record. -/
  | groupCompletion
  /-- DS_CANCEL (R253): A write to DS_CANCEL cancels a ring entry or every group of a ring. -/
  | dsCancel (src : Src) (ring index : Nat) (all : Bool)
  /-- DS_CANCEL_JOB (R253): A write to DS_CANCEL_JOB cancels the group of a job tag. -/
  | dsCancelJob (src : Src) (job : Nat)
  /-- FROZEN_CANCEL_TIMEOUT (R254): Firmware cancels a frozen job once frozen_cancel_ms has passed since JOB_DEADLOCK. -/
  | frozenCancelTimeout (job : Nat)
  /-- DS_RING_CTL_WRITE (R256): A DS_RING_CTL write is applied, or refused with DS_CFG_REFUSED while the ring has admitted groups or is a step ring. -/
  | dsRingCtlWrite (src : Src) (ring v : Nat)
  /-- RCP_RUN_WRITE (R267): A write to DS_RCP_CTL.run starts or stops a loaded recipe, or is refused if none is loaded. -/
  | rcpRunWrite (src : Src) (slot v : Nat)
  /-- STEP_TRIGGER (R269): A step triggers when every pipeline of the recipe has a strip, or step_wait_us after the first, and posts the detect or awaits marks. -/
  | stepTrigger (slot : Nat)
  /-- MARKS_APPLY (R270): When the detect group ends, the owner reads, forwards and applies its marks, builds the infer table and posts the infer group. `ctx`: the 32-byte records newly published on the context ring. -/
  | marksApply (slot : Nat) (ctx : List Nat)
  /-- MARK_BATCH_RECEIVED (R273): A peer receives the owner's mark batch for a step and builds and posts its infer group. -/
  | markBatchReceived (slot : Nat) (batch : MarkBatch) (ctx : List Nat)
  /-- MARK_WAIT_TIMEOUT (R270): A peer without the mark batch mark_wait_us after t_k posts its infer group and later reports MARKS_LATE. -/
  | markWaitTimeout (slot : Nat) (ctx : List Nat)
  /-- INFER_GROUP_END (R271): When a step's infer group completes or is dropped, its strips are released and the next step may trigger. -/
  | inferGroupEnd (slot : Nat)
  /-- VERDICT_WORD_WRITE (R281): A write landing in a verdict cell is accepted or ignored, then the part's code is found, its event posted and its record written. `part`: the part slot whose verdict cell the word lands in. -/
  | verdictWordWrite (slot part word : Nat)
  /-- PART_DEADLINE_EXPIRY (R283): A part's verdict deadline or backstop expires without an accepted word, so the part ends with DEFAULT_DEADLINE. -/
  | partDeadlineExpiry (slot ordinal : Nat)
  /-- AU_POST_SUBMIT (R296): A write to AU_POST[7] submits a host post, which is checked and given a status. `w7` is the word written to AU_POST[7]. -/
  | auPostSubmit (w7 : Nat)
  /-- AU_MPOST_SUBMIT (R296): A write to AU_MPOST[7] submits a firmware post. `w7` is the word written to AU_MPOST[7]. -/
  | auMpostSubmit (w7 : Nat)
  /-- COUNT_TRIGGER_FIRE (R298): A count-trigger entry fires in the position cycle after the edge that brings Δ to 0 or below. -/
  | countTriggerFire (entry : Nat)
  /-- PREDICTION_TRIGGER_FIRE (R301): A disagreeing entry fires when the prediction reaches the trigger first, posting POSITION_DISAGREE with source estimate. -/
  | predictionTriggerFire (entry : Nat)
  /-- TT_TRIGGER_FIRE (R298): A TT-trigger entry fires in the first position cycle in which TT reaches trig. -/
  | ttTriggerFire (entry : Nat)
  /-- PULSE_END (R300): A pulse ends at its width, in µs or counts, and its entry is freed, the output bridging or going idle. -/
  | pulseEnd (entry : Nat)
  /-- PULSE_TRUNCATED (R300): A pulse reaching max_on × 10 ms is cut and PULSE_TRUNCATED is posted. -/
  | pulseTruncated (entry : Nat)
  /-- MIN_GAP_EXPIRY (R304): A bridged output whose awaited entry has not fired within min_gap_us goes idle. -/
  | minGapExpiry (out : Nat)
  /-- AU_CANCEL (R306): A write to AU_CANCEL frees one entry or every entry. -/
  | auCancel (entry : Nat) (all : Bool)
  /-- AU_CANCEL_OUT (R306): A write to AU_CANCEL_OUT frees every entry of one output. -/
  | auCancelOut (out : Nat)
  /-- ENTRY_EXPIRE (R311): A pending entry older than expire_s is discarded with cause expired. -/
  | entryExpire (entry : Nat)
  /-- AU_CTL_WRITE (R307): A write to AU_CTL applies en; clearing it drops ACT_OE, ends pulses and discards pending entries. -/
  | auCtlWrite (src : Src) (v : Nat)
  /-- AU_OUT_CFG_WRITE (R307): A write to AU_OUT_CFG applies; clearing en idles the output and discards its pending entries. -/
  | auOutCfgWrite (src : Src) (out v : Nat)
  /-- FABRIC_TRANSACTION (R320): A master presents a transaction, which is decoded, arbitrated and sent to its target, the null target or Quill outbound. Master, direction, address word, bytes of a read, the engine of a core's access, bytes of a write with none where the byte enable is off. -/
  | fabricTransaction (mst : Nat) (write : Bool) (word len eng : Nat) (data : List (Option Byte))
  /-- WRITE_ACKNOWLEDGEMENT (R321): A target commits a write and returns its acknowledgement to the master port. The target that grants; words (0 to 7) of the block whose merging read meets an uncorrectable error. -/
  | writeAcknowledgement (target : Nat) (bad : List Nat)
  /-- READ_RESPONSE (R321): A target returns the beats of a read in address order, with an error response where ECC fails. The target that grants; words of the block found correctable and newly uncorrectable. -/
  | readResponse (target : Nat) (fixed bad : List Nat)
  /-- HOARD_ECC_WRITEBACK (R326): A corrected Hoard word is written back in the bank's next free cycle unless a master write cancelled it. -/
  | hoardEccWriteback (bank : Nat)
  /-- BURROW_READ_DATA (R327): The licensee memory returns read data for a tag with its resp code. -/
  | burrowReadData (port tag resp : Nat)
  /-- BURROW_WRITE_ACK (R327): The licensee memory acknowledges a write tag with its resp code. -/
  | burrowWriteAck (port tag resp : Nat)
  /-- BURROW_CORRECTED_REWRITE (R328): A Burrow block read with resp 1 is rewritten in the port's next free cycle. -/
  | burrowCorrectedRewrite (port : Nat)
  /-- BURROW_PHY_READY (R333): A change of a Burrow port's phy_ready status input. -/
  | burrowPhyReady (port : Nat) (ready : Bool) (size : Nat)
  /-- FB_BRW_CFG_WRITE (R329): A write to FB_BRW_CFG sets size, starts the fill or opens the window, or is refused whole. -/
  | fbBrwCfgWrite (src : Src) (port val : Nat)
  /-- BURROW_FILL_DONE (R329): The fill engine finishes writing zeros over the port and clears init_busy. -/
  | burrowFillDone (port : Nat)
  /-- SCRUB_READ (R330): The scrubber reads the next block on its schedule and writes back corrected data unless a master wrote it. Pass 0 is the Hoard's, 1 + p that of Burrow port p; words of the block found correctable and uncorrectable, or the resp of the port. -/
  | scrubRead (pass : Nat) (fixed bad : List Nat) (resp : Nat)
  /-- SCRUB_BEHIND (R330): A scrub pass not finished within twice its period posts SCRUB_BEHIND and continues. -/
  | scrubBehind (pass : Nat)
  /-- PORT_RESET (R332): A write to FB_PORT_RST over the management path isolates and drains a master or target port. -/
  | portReset (src : Src) (val : Nat)
  /-- PORT_RESET_DONE (R332): A port in reset leaves reset once no access is outstanding, and posts PORT_RESET. -/
  | portResetDone (target : Bool) (id : Nat)
  /-- BURROW_STALL_TIMEOUT (R337): A Burrow tag unanswered for 65,536 fabric cycles sets stalled and posts BURROW_STALL. -/
  | burrowStallTimeout (port : Nat)
  /-- BURROW_RECOVERY_TIMEOUT (R333): A reset Burrow port without phy_ready for 100 ms stays in reset and posts BURROW_DOWN. -/
  | burrowRecoveryTimeout (port : Nat)
  /-- REMAP_WRITE (R318): A management write to FB_REMAP swaps boot ROM and working SRAM once outstanding boot-memory accesses complete. -/
  | remapWrite (src : Src) (val : Nat)
  /-- HOARD_ZERO_DONE (R339): The fabric finishes writing zeros with valid ECC into the Hoard and begins granting Hoard access. -/
  | hoardZeroDone
  /-- QUILL_FRAME_RECEIVED (R343): A received frame is searched, descrambled and checked, and its overhead, GC, ACK and slot frames are taken. The 3,000 bytes at the position where the search expects or finds a frame, and the receive stamp. -/
  | quillFrameReceived (port stamp : Nat) (frame : List Byte)
  /-- QUILL_FRAME_TRANSMIT (R343): Every 375 words a port starts a new frame with overhead, relayed slots and sourced slot frames or stuffing. -/
  | quillFrameTransmit (port : Nat)
  /-- QP_DEFECT_TIMER (R350): A defect entry or exit time or window expires, and the defect is declared or cleared. The defect (0 LOS, 2 LOF) and whether it is declared or cleared. -/
  | qpDefectTimer (port defect : Nat) (on : Bool)
  /-- MEMBER_CONTROL_TIMEOUT (R356): A member with no valid GC word for 96 µs fails with cause no_control. -/
  | memberControlTimeout (dim sq : Nat)
  /-- MEMBER_RESTORE (R356): A failed member meeting every condition for restore_ms becomes healthy again. -/
  | memberRestore (dim sq : Nat)
  /-- MAP_CHANGE_START (R357): When no change is in progress and the desired map differs, the source announces it with eff on every member. -/
  | mapChangeStart (dim : Nat)
  /-- MAP_APPLY (R357): At group frame eff, the sink applies the pending map and toggles rs_ack. -/
  | mapApply (dim : Nat)
  /-- MAP_CHANGE_LATE (R357): With no rs_ack toggle by gfn eff + lead, the source ends the change and posts QP_MAP_LATE. -/
  | mapChangeLate (dim : Nat)
  /-- GROUP_FRAME_RELEASE (R359): Once every member in the map has stored slot frame n, the group frame is released to delivery in order. Members whose share met an uncorrectable error. -/
  | groupFrameRelease (dim : Nat) (bad : List Nat)
  /-- DESKEW_DELAY_EXPIRY (R359): dd_max after a group frame's first share arrives, it is released with missing shares lost and those members failed. -/
  | deskewDelayExpiry (dim : Nat) (bad : List Nat)
  /-- QP_CONFIG_WRITE (R361): A write to QP_CTL or QP_DESKEW is applied or refused with QP_CFG_REFUSED. -/
  | qpConfigWrite (src : Src) (port : Nat) (deskew : Bool) (val : Nat)
  /-- ACK (R378): A kind-1 ACK word advances the sender's acknowledged offset and buffer credit. -/
  | ack (dim : Nat)
  /-- RESEND (R379): A RESEND word makes the sender send again from seq. -/
  | resend (dim : Nat)
  /-- RESEND_TIMEOUT (R379): No acknowledgement advance for rto_us makes the sender resend from the acknowledged offset. -/
  | resendTimeout (dim : Nat)
  /-- REMOTE_ACCESS_SEND (R384): A remote access at the Quill outbound target takes a free tid and is sent as a message. -/
  | remoteAccessSend
  /-- TID_WAIT_TIMEOUT (R384): An access waiting e2e_ms for a tid completes with an error response and QM_REMOTE_TIMEOUT. -/
  | tidWaitTimeout
  /-- REMOTE_TIMEOUT (R383): A remote write, read or post without response after e2e_ms completes with an error response. -/
  | remoteTimeout (tid : Nat)
  /-- WRITE (R382): A WRITE message is forwarded or checked and written by the inbound master, answered by WRITE_ACK. -/
  | write (dim : Nat) (err : Bool)
  /-- WRITE_ACK (R381): A WRITE_ACK completes the matching remote write at its master. -/
  | writeAck (dim : Nat)
  /-- READ_REQ (R382): A READ_REQ is forwarded or checked and read at the target, answered by READ_RESP. -/
  | readReq (dim : Nat) (err : Bool)
  /-- READ_RESP (R381): A READ_RESP completes the matching remote read. -/
  | readResp (dim : Nat)
  /-- QUILL_SIGNAL (R382): A SIGNAL message is forwarded or applied to a static counter at the target. -/
  | quillSignal (dim : Nat)
  /-- ACT_POST (R382): An ACT_POST is checked as an actuation post and its status returned in ACT_STATUS. -/
  | actPost (dim : Nat)
  /-- ACT_STATUS (R381): An ACT_STATUS completes the matching remote actuation post. -/
  | actStatus (dim : Nat)
  /-- BCAST (R389): A BCAST message is written once at its destination and forwarded down the binomial tree. The distribution's length. -/
  | bcast (dim len : Nat)
  /-- UNDELIVERABLE (R385): An UNDELIVERABLE ends the source's access with an error or SIGNAL_NO_ROUTE. -/
  | undeliverable (dim : Nat)
  /-- DETOUR_REQ (R386): A DETOUR REQ is forwarded or answered with REFUSE at each chip of the path. -/
  | detourReq (dim : Nat)
  /-- DETOUR_GRANT (R387): A DETOUR GRANT commits each chip it passes and sets up the detour legs. -/
  | detourGrant (dim : Nat)
  /-- DETOUR_REFUSE (R386): A DETOUR REFUSE makes the initiator try the next dimension. -/
  | detourRefuse (dim : Nat)
  /-- DETOUR_END (R388): A DETOUR END removes the detour and re-adds the direct members and lender members. -/
  | detourEnd (dim : Nat)
  /-- TIME (R71): A TIME message carries a rack-lead broadcast of tick phase and TT. -/
  | time (dim : Nat) (phase : Int) (tick : Nat)
  /-- DIST_DONE (R390): A DIST_DONE report is counted by the distribution root. -/
  | distDone (dim id status : Nat)
  /-- RESERVED_MESSAGE (R380): A message of a reserved kind is dropped and counted. -/
  | reservedMessage (dim : Nat)
  /-- DETOUR_PLAN_HOLD_EXPIRY (R386): A direct group down for plan_hold_ms makes the initiator attempt a detour. -/
  | detourPlanHoldExpiry (dim : Nat)
  /-- DIRECT_RESTORE_HOLD_EXPIRY (R388): Direct members healthy for plan_hold_ms make the initiator end the detour. -/
  | directRestoreHoldExpiry (dim : Nat)
  /-- QM_DIST_CMD (R390): A write to QM_DIST_CMD starts, queues or refuses a distribution. -/
  | qmDistCmd (source dest len id : Nat) (rack : Bool)
  /-- DIST_TIMEOUT (R390): A distribution missing reports after dist_s posts QM_DIST. -/
  | distTimeout
  /-- QM_MEMBER_CMD (R365): A write to QM_MEMBER_CMD starts, queues or refuses BUSY a planned member add or remove. -/
  | qmMemberCmd (val : Nat)
  /-- QM_ID_WRITE (R374): A write to QM_ID or QM_PRESENT is accepted only while QM_CTL.en is 0. -/
  | qmIdWrite (src : Src) (word : Option Nat) (val : Nat)
  /-- AUDIT_OPEN (R408): An open command checks the package and starts copying and authenticating it into the region. -/
  | auditOpen (src : Src) (ctx : Nat)
  /-- AUDIT_OPEN_COMPLETE (R408): The tag check ends the open: OPEN on success, or the region zeroed and IDLE with AUTH. `err`: a read or write of the operation received an error response. -/
  | auditOpenComplete (ctx : Nat) (err : Bool)
  /-- AUDIT_SEAL (R411): A seal command advances the seal counter and starts sealing the output window. `flashOk`: the seal counter was written to boot flash. -/
  | auditSeal (src : Src) (ctx : Nat) (flashOk : Bool)
  /-- AUDIT_SEAL_COMPLETE (R411): The result record is written and the context becomes SEALED. -/
  | auditSealComplete (ctx : Nat) (err : Bool)
  /-- AUDIT_CLOSE (R412): A close command starts zeroing the region. -/
  | auditClose (src : Src) (ctx : Nat)
  /-- AUDIT_CLOSE_COMPLETE (R412): When zeroing ends, the context returns to IDLE and posts AUDIT_CLOSED. -/
  | auditCloseComplete (ctx : Nat)
  /-- GCM_ENCRYPT (R422): CU op 1 starts a GCM encryption after the start checks. The fields of the CU_OP_CTL write; `rsvd` is what it holds in [30:9]. -/
  | gcmEncrypt (src : Src) (slot : Nat) (wrap fwkey : Bool) (rsvd : Nat)
  /-- GCM_DECRYPT (R422): CU op 2 starts a GCM decryption, zeroing the output on tag failure. -/
  | gcmDecrypt (src : Src) (slot : Nat) (wrap fwkey : Bool) (rsvd : Nat)
  /-- CMAC_GENERATE (R423): CU op 3 starts a CMAC generation. -/
  | cmacGenerate (src : Src) (slot : Nat) (wrap fwkey : Bool) (rsvd : Nat)
  /-- CMAC_VERIFY (R423): CU op 4 starts a CMAC verification, with the firmware key if fwkey is set. -/
  | cmacVerify (src : Src) (slot : Nat) (wrap fwkey : Bool) (rsvd : Nat)
  /-- CONTEXT_SAVE (R428): CU op 5 writes the suspended firmware operation's chaining context and frees the port. -/
  | contextSave (src : Src) (slot : Nat) (wrap fwkey : Bool) (rsvd : Nat)
  /-- CONTEXT_RESTORE (R429): CU op 6 reads a chaining context and makes it the suspended operation, or refuses it with CONTEXT. -/
  | contextRestore (src : Src) (slot : Nat) (wrap fwkey : Bool) (rsvd : Nat)
  /-- CIPHER_OP_COMPLETE (R421): A cipher operation finishes with its status, and the next waiting port is served. `err`: a read or write of the operation received an error response. -/
  | cipherOpComplete (err : Bool)
  /-- CIPHER_QUANTUM_EXPIRY (R427): After a 1 ms quantum with another port waiting, the running operation is suspended at a block boundary. `block`: AAD and payload blocks processed at the boundary. -/
  | cipherQuantumExpiry (block : Nat)
  /-- CIPHER_SUSPEND (R428): A write of 1 to CU_CTL.suspend suspends the firmware operation. -/
  | cipherSuspend (block : Nat)
  /-- CIPHER_RESUME (R428): A write of 1 to CU_CTL.resume continues the suspended firmware operation. -/
  | cipherResume
  /-- KEY_LOAD (R425): A key load fills a slot, raises gen, computes the KCV and is journalled, or is refused. `v` is the word written to CU_KEY_LOAD. -/
  | keyLoad (src : Src) (v : Nat)
  /-- KEY_CLEAR (R425): A key load with clear set empties a slot. -/
  | keyClear (src : Src) (v : Nat)
  /-- CIPHER_SELFTEST_DONE (R436): The known-answer tests end, making the unit ready or refusing every request with FAULT. The number of the test that failed: 1 AES-128, 2 AES-256, 3 GCM, 4 CMAC. -/
  | cipherSelftestDone (fail : Option Nat)
  /-- DVFS_EVALUATION (R444): Every 10 µs the voltage loop raises, lowers or holds the island voltage from its slack samples. -/
  | dvfsEvaluation (core : Nat)
  /-- FREQUENCY_STEP (R445): At least 100 µs after the last step, the loop starts a one-code move toward the target. -/
  | frequencyStep (core : Nat)
  /-- FREQUENCY_REQUEST (R445): After v_settle_us, the new frequency code is requested from the generator. -/
  | frequencyRequest (core : Nat)
  /-- CPM_SAMPLE (R446): A slack sample below emerg raises the voltage 4 codes and blocks decreases for 10 ms. -/
  | cpmSample (core : Nat) (readings : List Nat)
  /-- CPM_CALIBRATION (R447): Every 10 s each CPM is calibrated against its reference delay line. -/
  | cpmCalibration (core : Nat) (readings : List Int)
  /-- TUNING_TRIAL (R449): Every eq_period_ms a lane starts a trial of its equaliser or threshold code. CoaXPress lane l is l, Quill port p is 128 + p. -/
  | tuningTrial (lane : Nat)
  /-- TRIAL_DWELL_END (R449): At the end of a dwell the eye metric is averaged, and the trial moves on or keeps the best code. The lane showed an error or lock loss under the trial code. -/
  | trialDwellEnd (lane : Nat) (spoiled : Bool)
  /-- THERMAL_READ (R451): Every 1 ms each thermal site is read and checked against its limits. The reading in 1/16 °C, none from a site that does not update. -/
  | thermalRead (site : Nat) (temp : Option Int)
  /-- CEILING_STEP (R452): The thermal ceiling drops by 4 codes per 10 ms when hot, or rises by 4 per 100 ms when cool. -/
  | ceilingStep (core : Nat)
  /-- VMON_SAMPLE (R453): Every 1 µs the voltage monitors sample and count warn and fault excursions. -/
  | vmonSample (monitor val : Nat)
  /-- SUPPLY_FAULT_CLEAR (R463): After 1 s inside the warn window, firmware clears the latched fault and posts SUPPLY_OK. -/
  | supplyFaultClear (monitor : Nat)
  /-- FAN_KICK_TIMEOUT (R455): A kicked fan not at tach_min within 3 s is retried, and after three retries enters fault. -/
  | fanKickTimeout (fan : Nat)
  /-- FAN_RPM_UPDATE (R454): Every 100 ms a fan's rpm is recomputed, and a starting fan that reaches tach_min enters running. The last tach period in ns, 0 with no edge. -/
  | fanRpmUpdate (fan period : Nat)
  /-- FAN_TACH_TIMEOUT (R456): A running fan with no tach edge for 2 s sets tach_lost and drives every fan to 100%. -/
  | fanTachTimeout (fan : Nat)
  /-- FAN_TACH_RESTORED (R456): After 10 s of tach edges at or above tach_min, tach_lost clears and FAN_OK is posted. -/
  | fanTachRestored (fan : Nat)
  /-- BRINGUP_PHASE_DONE (R469): When a bring-up phase's condition holds, the next phase starts and BRINGUP_PHASE is posted. -/
  | bringupPhaseDone
  /-- BRINGUP_WAIT_EXPIRED (R469): A phase wait limit expires, and the phase is done. -/
  | bringupWaitExpired
  /-- LIFECYCLE_WARM_RESET (R478): A write of the warm reset code to HP_LIFECYCLE or 0x2000:05 starts a warm reset. -/
  | lifecycleWarmReset (src : Src)
  /-- LIFECYCLE_SHUTDOWN (R479): A write of the shutdown code starts an orderly shutdown in STOPPING. -/
  | lifecycleShutdown (src : Src)
  /-- DRAIN_COMPLETE (R479): When no part is open and no output is active, shutdown continues to disabling and checkpointing. The read-backs of a checkpoint's first and second attempt were good. -/
  | drainComplete (ok1 ok2 : Bool)
  /-- DRAIN_TIMEOUT (R479): After drain_s, remaining parts end with reason reset and armed entries are cancelled. -/
  | drainTimeout
  /-- ECAT_FRAME (R493): An EtherCAT frame is forwarded in hardware and its SyncManager and FMMU accesses served. -/
  | ecatFrame (accesses : List EcatAccess)
  /-- AL_CONTROL_REQUEST (R494): A requested ESM transition is made or refused with an AL status code. The AL control word: requested state in [3:0], error acknowledgement in [4]. -/
  | alControlRequest (v : Nat)
  /-- SDO_UPLOAD (R518): An SDO upload returns entry values sampled in one management cycle, or is aborted. The mailbox counter; `ca` is complete access. -/
  | sdoUpload (cnt index sub : Nat) (ca : Bool)
  /-- SDO_DOWNLOAD (R496): An SDO download is checked in full, then applied one subindex per management cycle, or aborted. `size` is announced by a segmented initiate. -/
  | sdoDownload (cnt index sub : Nat) (ca : Bool) (size : Option Nat) (data : List Byte)
  /-- SDO_SEGMENT (R495): A segment of a segmented transfer is taken, with the transfer applied after its last segment. -/
  | sdoSegment (cnt : Nat) (toggle last : Bool) (data : List Byte)
  /-- SDO_INFORMATION (R492): An SDO Information request returns the object list or an object or entry description. -/
  | sdoInformation (cnt : Nat) (req : InfoReq)
  /-- SDO_SEGMENT_TIMEOUT (R495): A segmented transfer with no segment within 1 s is abandoned with abort 0x0504_0000. -/
  | sdoSegmentTimeout
  /-- MAILBOX_REPEAT (R497): A repeated cnt or an SM1 repeat request places the stored response again without execution. -/
  | mailboxRepeat
  /-- FOE_WRITE (R500): An FoE write of fw or params is checked and stored, or refused with an FoE error. `flashOk`: boot flash reads back good. -/
  | foeWrite (cnt : Nat) (step : FoeStep) (flashOk : Bool)
  /-- FOE_READ (R500): An FoE read returns the params store or the journal. -/
  | foeRead (cnt : Nat) (step : FoeStep)
  /-- RXPDO_RECEIVED (R498): At an SM2 event the output image is read, taking mhb and tlm_sel. -/
  | rxpdoReceived
  /-- PDO_ASSEMBLY (R594): Every 1 ms firmware assembles the input image and object 0x2800, or resends the previous image. -/
  | pdoAssembly
  /-- SM2_WATCHDOG_EXPIRY (R499): The 100 ms SM2 watchdog expires in OP, so the ESC enters SAFEOP and posts PDO_WATCHDOG. -/
  | sm2WatchdogExpiry
  /-- UNIT_MISMATCH_TIMEOUT (R505): A unit mismatch lasting 1,000 ms posts UNIT_STATE_MISMATCH. -/
  | unitMismatchTimeout (unit : Nat)
  /-- MGMT_WATCHDOG_SERVICE (R510): Firmware services the management watchdog, clearing an expired state. -/
  | mgmtWatchdogService
  /-- MGMT_WATCHDOG_EXPIRY (R510): 100 ms without service halt the management plane, freeze parameters and post MGMT_HALTED. -/
  | mgmtWatchdogExpiry
  /-- ECAT_LINK_CHANGE (R511): Link loss or return on an EtherCAT port closes or reopens it and posts ECAT_LINK. -/
  | ecatLinkChange (port : Nat) (up : Bool)
  /-- HP_JRN_READ_WRITE (R506): A write to HP_JRN_READ selects the journal entry shown in HP_JRN_DATA and HP_JRN_VALID. -/
  | hpJrnReadWrite (v : Nat)
  /-- HELD_RECORD_FLUSH (R554): When a completion ring has space and en, its held records are written in order before newer ones. -/
  | heldRecordFlush (ring : Nat)
  /-- HOST_EVENT_WRITE (R555): A posted event is written to the host event ring, or dropped and counted when the ring is full. -/
  | hostEventWrite
  /-- IRQ_MODERATION_TIMEOUT (R556): A vector's oldest pending item reaching time_us sets its status bit. -/
  | irqModerationTimeout (vec : Nat)
  /-- HOST_WRITE_RESPONSE (R563): Host memory answers a master write; an error response clears the ring's en. The answer of host memory to the oldest write. -/
  | hostWriteResponse (err : Bool)
  /-- HOST_WRITE_TIMEOUT (R563): A host memory write unanswered for 1 ms is a master error, and the ring's en is cleared. -/
  | hostWriteTimeout
  /-- HP_RING_CONFIG_WRITE (R557): A write to a submission, completion or event ring configuration register is applied or refused with HP_CFG_REFUSED. -/
  | hpRingConfigWrite (src : Src) (reg : RingReg) (ring v : Nat)
  /-- SNAPSHOT_INSTANT (R569): At a snapshot instant every bank latches its counters, or the instant is skipped. -/
  | snapshotInstant
  /-- SNAPSHOT_RECORD_WRITTEN (R570): The collector finishes writing a snapshot record and advances PC_SNAP_PROD. `err`: a write of the record received an error response. -/
  | snapshotRecordWritten (err : Bool)
  /-- TAG_SAMPLE_WRITE (R574): When a tagged instruction retires or its segment ends, the collector writes its sample record. -/
  | tagSampleWrite (core eng : Nat) (err : Bool)
  /-- OVERFLOW_CAPTURE (R575): After a counter overflows, the engine position is captured at the next retirement within the skid. -/
  | overflowCapture (core eng : Nat)
  /-- PC_SEL_WRITE (R568): A selector write applies from the next cycle, or is refused with PC_CFG_REFUSED. The offset of the selector in register space. -/
  | pcSelWrite (src : Src) (off v : Nat)
  /-- PC_CLEAR (R576): A write of 1 to PC_CTL.clear zeroes every counter and overflow bit. -/
  | pcClear (src : Src)
  /-- JOURNAL_CHECKPOINT (R591): Firmware writes a journal checkpoint at 4,096 unsaved entries, after 60 s, or at shutdown. The read-backs of the first and the second attempt were good. -/
  | journalCheckpoint (ok1 ok2 : Bool)
  /-- WEAR_CHECKPOINT (R592): Every 600 s with changes, and at shutdown, firmware writes a wear checkpoint. -/
  | wearCheckpoint (ok1 ok2 : Bool)
  /-- SRAM_SWEEP (R587): Every 1 s firmware sweeps Shrew working SRAM, correcting errors or halting on an uncorrectable one. Addresses found correctable and uncorrectable. -/
  | sramSweep (fixed bad : List Nat)
  /-- JOURNAL_SWEEP_READ (R588): In a management cycle without a journal write, the sweep reads one entry of each copy. The entry read from the primary, from the mirror, holds an uncorrectable error. -/
  | journalSweepRead (badP badM : Bool)
  /-- QUILL_RECEIVE_LOCK_LOSS (R350): The licensee SerDes drops receive lock on a Quill port, so LOS is declared at once, masking the other defects and failing the port's members. -/
  | quillReceiveLockLoss (port : Nat)
  /-- REF_CLOCK_PERIOD_GLITCH (R62): A REF0 or REF1 clock period measured outside ±0.5% of nominal disqualifies the reference with cause glitch in that faulty period. -/
  | refClockPeriodGlitch (n : Nat)
  deriving DecidableEq, Repr

end Sys2Proof
end

