-- ==== Sys2Proof/Decode.lean ====
section
/-! DEFINITION. Commands from table words: the table gives none of its rows any bits, so no word spells a command. -/

namespace Sys2Proof

/-- The command that a word of `nbits` bits spells by the table's bits. -/
def decodeTableWord (_nbits _w : Nat) : Option Instr := none

end Sys2Proof
end

