-- ==== Sys2Proof/Machine/EventCode.lean ====
section
/-! DEFINITION. The event codes of the catalogue (R584, Table 24-3), named as the chapters name them. -/

namespace Sys2Proof.Machine.E

/-- Detail: Reference and cause. -/
def REF_DISQUALIFIED : Nat := 0x1001
/-- Detail: Reference. -/
def REF_QUALIFIED : Nat := 0x1002
/-- Detail: Old and new state, active source. -/
def TB_STATE : Nat := 0x1003
/-- Detail: e(t) at entry. -/
def TB_LOST : Nat := 0x1004
/-- Detail: Port or chip number, reason. -/
def ALIGN_FAULT : Nat := 0x1005
/-- Detail: State, open-slot flag. -/
def TT_LOAD_REFUSED : Nat := 0x1006
/-- Detail: —. -/
def OSC_FAIL : Nat := 0x1007
/-- Detail: Signed step, ns. -/
def TT_STEPPED : Nat := 0x1008
/-- Detail: Count at error. -/
def QUAD_ERROR : Nat := 0x2001
/-- Detail: Code (000 or 111). -/
def HALL_INVALID : Nat := 0x2002
/-- Detail: Old and new code. -/
def HALL_SKIP : Nat := 0x2003
/-- Detail: New direction, count. -/
def DIR_CHANGE : Nat := 0x2004
/-- Detail: Signed excess. -/
def IDX_DRIFT : Nat := 0x2005
/-- Detail: Count. -/
def STANDSTILL : Nat := 0x2006
/-- Detail: Count. -/
def MOTION : Nat := 0x2007
/-- Detail: Input, swing in codes. -/
def INPUT_LOS : Nat := 0x2008
/-- Detail: Cause: not_ready, stuck_high, step. -/
def SSI_FRAME_ERROR : Nat := 0x2009
/-- Detail: Discarded step. -/
def SSI_RESYNC : Nat := 0x200a
/-- Detail: Input. -/
def OVERRATE : Nat := 0x200b
/-- Detail: Open-slot and pending-event flags. -/
def CNT_LOAD_REFUSED : Nat := 0x200c
/-- Detail: Open or closed, failing condition. -/
def BYPASS_STATE : Nat := 0x200d
/-- Detail: Register. -/
def PU_CFG_REFUSED : Nat := 0x200e
/-- Detail: Output, lateness. -/
def EVENT_LATE : Nat := 0x3001
/-- Detail: Output, cause: late, output_off, expired, reset, unit_off. -/
def EVENT_DISCARDED : Nat := 0x3002
/-- Detail: Channel, e, source. -/
def POSITION_DISAGREE : Nat := 0x3003
/-- Detail: Source. -/
def ACT_TABLE_FULL : Nat := 0x3004
/-- Detail: Source, source chip, status. -/
def POST_REFUSED : Nat := 0x3005
/-- Detail: Output, on-time. -/
def PULSE_TRUNCATED : Nat := 0x3006
/-- Detail: Output, count. -/
def VALVE_WEAR : Nat := 0x3007
/-- Detail: Register. -/
def AU_CFG_REFUSED : Nat := 0x3008
/-- Detail: Lane. -/
def CX_LANE_DOWN : Nat := 0x4001
/-- Detail: Members. -/
def CX_GROUP_UP : Nat := 0x4002
/-- Detail: Lane, skew. -/
def CX_SKEW_EXCEEDED : Nat := 0x4003
/-- Detail: Lane, packet kind. -/
def CX_CRC_ERROR : Nat := 0x4004
/-- Detail: Header format and width. -/
def CX_FORMAT_MISMATCH : Nat := 0x4005
/-- Detail: Packet kind or stream id. -/
def CX_PACKET_DISCARDED : Nat := 0x4006
/-- Detail: —. -/
def CX_CTRL_RX_FULL : Nat := 0x4007
/-- Detail: seq, slot mask. -/
def PP_LINE_REPLACED : Nat := 0x4008
/-- Detail: seq, cause: ring full or overrate. -/
def PP_STRIP_LOST : Nat := 0x4009
/-- Detail: seq of last strip. -/
def PP_STALL : Nat := 0x400a
/-- Detail: Stall length, µs. -/
def PP_RESUMED : Nat := 0x400b
/-- Detail: Register. -/
def PP_CFG_REFUSED : Nat := 0x400c
/-- Detail: Item and index. -/
def PP_TABLE_REFUSED : Nat := 0x400d
/-- Detail: New bank, CRC-32. -/
def PP_BANK_SWAPPED : Nat := 0x400e
/-- Detail: Cause of Table 6-7, lines replaced. -/
def DEC_RECORD_SKIPPED : Nat := 0x400f
/-- Detail: Bytes skipped, lines inferred. -/
def DEC_RESYNC : Nat := 0x4010
/-- Detail: Failing field. -/
def DEC_FILE_REFUSED : Nat := 0x4011
/-- Detail: Register. -/
def DEC_CFG_REFUSED : Nat := 0x4012
/-- Detail: Records, strips. -/
def DEC_END : Nat := 0x4013
/-- Detail: Defect, declared or cleared. -/
def QP_DEFECT : Nat := 0x5001
/-- Detail: Accepted chip, port and tag. -/
def QP_TRACE : Nat := 0x5002
/-- Detail: Slot, sq, cause: port_defect, path_ais, no_control, gfn, delay. -/
def QP_MEMBER_FAILED : Nat := 0x5003
/-- Detail: Slot, sq. -/
def QP_MEMBER_HEALTHY : Nat := 0x5004
/-- Detail: Old map, new map, eff. -/
def QP_MAP_CHANGED : Nat := 0x5005
/-- Detail: Map, eff. -/
def QP_MAP_LATE : Nat := 0x5006
/-- Detail: Cause: empty map, all failed. -/
def QP_GROUP_DOWN : Nat := 0x5007
/-- Detail: Map. -/
def QP_GROUP_UP : Nat := 0x5008
/-- Detail: Register. -/
def QP_CFG_REFUSED : Nat := 0x5009
/-- Detail: Received MFI. -/
def QP_MFI_SLIP : Nat := 0x500a
/-- Detail: Port, expected and accepted trace. -/
def QM_MISCABLE : Nat := 0x5010
/-- Detail: i, j, state: set up, ended, refused. -/
def QM_DETOUR : Nat := 0x5011
/-- Detail: src, dst, kind, reason. -/
def QM_UNDELIVERABLE : Nat := 0x5012
/-- Detail: dst, kind, tid, cause: no_response, no_tid. -/
def QM_REMOTE_TIMEOUT : Nat := 0x5013
/-- Detail: src, address. -/
def QM_INBOUND_REFUSED : Nat := 0x5014
/-- Detail: id, state, ok, missing. -/
def QM_DIST : Nat := 0x5015
/-- Detail: Register. -/
def QM_CFG_REFUSED : Nat := 0x5016
/-- Detail: Dimension, offset. -/
def QM_RESEND : Nat := 0x5017
/-- Detail: Ring, index, job, policy. -/
def DEADLINE_MISSED : Nat := 0x6001
/-- Detail: Ring, index, status. -/
def GROUP_REFUSED : Nat := 0x6002
/-- Detail: Ring, wait in ms. -/
def BE_STARVED : Nat := 0x6003
/-- Detail: Ring, index, channel, cause: standstill, off, reverse, zero_speed. -/
def DEADLINE_UNCONVERTIBLE : Nat := 0x6004
/-- Detail: Register. -/
def DS_CFG_REFUSED : Nat := 0x6005
/-- Detail: Ring, index, job, origin, result. -/
def GROUP_CANCELLED : Nat := 0x6006
/-- Detail: Ordinal, code, reason. -/
def PART_DEFAULT : Nat := 0x6007
/-- Detail: Slot, cause: gen, code, repeat, evidence. -/
def VERDICT_WORD_IGNORED : Nat := 0x6008
/-- Detail: Step, chip. -/
def MARKS_LATE : Nat := 0x6009
/-- Detail: Step, handle, cause. -/
def MARK_REFUSED : Nat := 0x600a
/-- Detail: Key. -/
def CTX_EXPIRED : Nat := 0x600b
/-- Detail: Key, cause: size, address. -/
def CTX_REFUSED : Nat := 0x600c
/-- Detail: Step, pipeline, cause: missing, lost, misaligned. -/
def STEP_INPUT : Nat := 0x600d
/-- Detail: Master, address, direction. -/
def UNMAPPED_ACCESS : Nat := 0x7001
/-- Detail: Id, master or target, accesses abandoned. -/
def PORT_RESET : Nat := 0x7002
/-- Detail: Offset, source: read, partial write, scrub. -/
def HOARD_ECC : Nat := 0x7003
/-- Detail: Port, block, resp. -/
def BURROW_ECC : Nat := 0x7004
/-- Detail: Port, block, resp. -/
def BURROW_ERROR : Nat := 0x7005
/-- Detail: Port, oldest tag. -/
def BURROW_STALL : Nat := 0x7006
/-- Detail: Port. -/
def BURROW_DOWN : Nat := 0x7007
/-- Detail: Register. -/
def FB_CFG_REFUSED : Nat := 0x7008
/-- Detail: Hoard or port, pass time. -/
def SCRUB_BEHIND : Nat := 0x7009
/-- Detail: Ring, records dropped. -/
def HP_CQ_OVERFLOW : Nat := 0x700a
/-- Detail: Ring or event ring, host address, cause: error, timeout. -/
def HP_MASTER_ERROR : Nat := 0x700b
/-- Detail: Register. -/
def HP_CFG_REFUSED : Nat := 0x700c
/-- Detail: Ring, value, cause: range, internal. -/
def HP_DOORBELL_REFUSED : Nat := 0x700d
/-- Detail: Accesses returned as errors. -/
def HP_ACCESS_ABANDONED : Nat := 0x700e
/-- Detail: seg_id, cause: overrun, below_floor, hung_access. -/
def SEG_WATCHDOG : Nat := 0x8001
/-- Detail: Counters waited on. -/
def JOB_DEADLOCK : Nat := 0x8002
/-- Detail: Exception code, pc. -/
def ENGINE_EXCEPTION : Nat := 0x8003
/-- Detail: Index, win_size. -/
def SYNC_RANGE : Nat := 0x8004
/-- Detail: Target counter, cause: no window, not reserved, offline. -/
def SYNC_STRAY : Nat := 0x8005
/-- Detail: Address, corrected or not. -/
def SCRATCH_ECC : Nat := 0x8006
/-- Detail: Target chip. -/
def SIGNAL_NO_ROUTE : Nat := 0x8007
/-- Detail: audit_id, mode. -/
def AUDIT_OPENED : Nat := 0x9001
/-- Detail: Command, result. -/
def AUDIT_REFUSED : Nat := 0x9002
/-- Detail: audit_id. -/
def AUDIT_AUTH_FAIL : Nat := 0x9003
/-- Detail: audit_id, seal counter. -/
def AUDIT_SEALED : Nat := 0x9004
/-- Detail: audit_id, cause: command, reset. -/
def AUDIT_CLOSED : Nat := 0x9005
/-- Detail: Master, address (at most once per context per millisecond). -/
def AUDIT_ACCESS_REFUSED : Nat := 0x9006
/-- Detail: Port, op, status. -/
def CU_OP_FAILED : Nat := 0x9010
/-- Detail: Image address, slot, cause. -/
def IMAGE_AUTH_FAIL : Nat := 0x9011
/-- Detail: Slot, uses, KCV, or cleared. -/
def CU_KEY_CHANGED : Nat := 0x9012
/-- Detail: Slot, cause: in use, not ready. -/
def CU_KEY_REFUSED : Nat := 0x9013
/-- Detail: Failing test. -/
def CU_SELFTEST_FAIL : Nat := 0x9014
/-- Detail: —. -/
def DEVICE_KEY_FAIL : Nat := 0x9015
/-- Detail: Old, new, AL status code. -/
def ECAT_STATE : Nat := 0xa001
/-- Detail: Port, up or down. -/
def ECAT_LINK : Nat := 0xa002
/-- Detail: —. -/
def PDO_WATCHDOG : Nat := 0xa003
/-- Detail: Copy, seq. -/
def JOURNAL_FAULT : Nat := 0xa004
/-- Detail: seq. -/
def JOURNAL_UNJOURNALLED : Nat := 0xa005
/-- Detail: Unit, cmd, obs. -/
def UNIT_STATE_MISMATCH : Nat := 0xa006
/-- Detail: Unit. -/
def UNIT_STATE_AGREE : Nat := 0xa007
/-- Detail: Dropped count. -/
def EMCY_OVERFLOW : Nat := 0xa008
/-- Detail: File, result. -/
def FOE_DONE : Nat := 0xa009
/-- Detail: —. -/
def MGMT_HALTED : Nat := 0xa00a
/-- Detail: Phase, warm. -/
def BRINGUP_PHASE : Nat := 0xa010
/-- Detail: Image, cause. -/
def FW_IMAGE_REJECTED : Nat := 0xa011
/-- Detail: Phase. -/
def BRINGUP_WAIT_EXPIRED : Nat := 0xa012
/-- Detail: Record, cause: crc, absent. -/
def PARAM_STORE_FAULT : Nat := 0xa013
/-- Detail: —. -/
def DEVICE_KEY_ENROLLED : Nat := 0xa014
/-- Detail: Phase, parts ended at the limit. -/
def SHUTDOWN_STATE : Nat := 0xa015
/-- Detail: Offset, operation. -/
def FLASH_FAULT : Nat := 0xa016
/-- Detail: Instant, cause: busy, stepped. -/
def PC_SNAP_SKIPPED : Nat := 0xa020
/-- Detail: Ring: snapshot or sample. -/
def PC_RING_FULL : Nat := 0xa021
/-- Detail: Hoard offset. -/
def PC_WRITE_ERROR : Nat := 0xa022
/-- Detail: Register. -/
def PC_CFG_REFUSED : Nat := 0xa023
/-- Detail: Sector, erase count, sectors retired. -/
def FLASH_WEAR : Nat := 0xa030
/-- Detail: Kind: journal, wear; age of the oldest unsaved change, s. -/
def CHECKPOINT_LATE : Nat := 0xa031
/-- Detail: Address, corrected or not. -/
def MGMT_SRAM_ECC : Nat := 0xa032
/-- Detail: Island (R49). -/
def ISLAND_CLOCK_ABSENT : Nat := 0xb001
/-- Detail: Island, requested code (R51). -/
def CLOCK_GEN_TIMEOUT : Nat := 0xb002
/-- Detail: Lane, consecutive count (R50). -/
def PHY_TUNE_TIMEOUT : Nat := 0xb003
/-- Detail: Island, slack. -/
def CPM_EMERGENCY : Nat := 0xb004
/-- Detail: Site, temperature. -/
def THERMAL_WARN : Nat := 0xb005
/-- Detail: Site, ceiling. -/
def THERMAL_THROTTLE : Nat := 0xb006
/-- Detail: Site, temperature. -/
def THERMAL_CRITICAL : Nat := 0xb007
/-- Detail: Fan, cause: blocked. -/
def FAN_FAULT : Nat := 0xb008
/-- Detail: Fan. -/
def FAN_TACH_LOST : Nat := 0xb009
/-- Detail: Fan, rpm. -/
def FAN_OK : Nat := 0xb00a
/-- Detail: Monitor, value. -/
def SUPPLY_WARN : Nat := 0xb00b
/-- Detail: Monitor, value. -/
def SUPPLY_FAULT : Nat := 0xb00c
/-- Detail: Monitor. -/
def SUPPLY_OK : Nat := 0xb00d
/-- Detail: Register. -/
def EM_CFG_REFUSED : Nat := 0xb00e
/-- Detail: Site or CPM. -/
def SENSOR_FAIL : Nat := 0xb00f

/-- Every code of the catalogue. -/
def all : List Nat :=
  [REF_DISQUALIFIED, REF_QUALIFIED, TB_STATE, TB_LOST, ALIGN_FAULT, TT_LOAD_REFUSED,
   OSC_FAIL, TT_STEPPED, QUAD_ERROR, HALL_INVALID, HALL_SKIP, DIR_CHANGE,
   IDX_DRIFT, STANDSTILL, MOTION, INPUT_LOS, SSI_FRAME_ERROR, SSI_RESYNC,
   OVERRATE, CNT_LOAD_REFUSED, BYPASS_STATE, PU_CFG_REFUSED, EVENT_LATE, EVENT_DISCARDED,
   POSITION_DISAGREE, ACT_TABLE_FULL, POST_REFUSED, PULSE_TRUNCATED, VALVE_WEAR, AU_CFG_REFUSED,
   CX_LANE_DOWN, CX_GROUP_UP, CX_SKEW_EXCEEDED, CX_CRC_ERROR, CX_FORMAT_MISMATCH, CX_PACKET_DISCARDED,
   CX_CTRL_RX_FULL, PP_LINE_REPLACED, PP_STRIP_LOST, PP_STALL, PP_RESUMED, PP_CFG_REFUSED,
   PP_TABLE_REFUSED, PP_BANK_SWAPPED, DEC_RECORD_SKIPPED, DEC_RESYNC, DEC_FILE_REFUSED, DEC_CFG_REFUSED,
   DEC_END, QP_DEFECT, QP_TRACE, QP_MEMBER_FAILED, QP_MEMBER_HEALTHY, QP_MAP_CHANGED,
   QP_MAP_LATE, QP_GROUP_DOWN, QP_GROUP_UP, QP_CFG_REFUSED, QP_MFI_SLIP, QM_MISCABLE,
   QM_DETOUR, QM_UNDELIVERABLE, QM_REMOTE_TIMEOUT, QM_INBOUND_REFUSED, QM_DIST, QM_CFG_REFUSED,
   QM_RESEND, DEADLINE_MISSED, GROUP_REFUSED, BE_STARVED, DEADLINE_UNCONVERTIBLE, DS_CFG_REFUSED,
   GROUP_CANCELLED, PART_DEFAULT, VERDICT_WORD_IGNORED, MARKS_LATE, MARK_REFUSED, CTX_EXPIRED,
   CTX_REFUSED, STEP_INPUT, UNMAPPED_ACCESS, PORT_RESET, HOARD_ECC, BURROW_ECC,
   BURROW_ERROR, BURROW_STALL, BURROW_DOWN, FB_CFG_REFUSED, SCRUB_BEHIND, HP_CQ_OVERFLOW,
   HP_MASTER_ERROR, HP_CFG_REFUSED, HP_DOORBELL_REFUSED, HP_ACCESS_ABANDONED, SEG_WATCHDOG, JOB_DEADLOCK,
   ENGINE_EXCEPTION, SYNC_RANGE, SYNC_STRAY, SCRATCH_ECC, SIGNAL_NO_ROUTE, AUDIT_OPENED,
   AUDIT_REFUSED, AUDIT_AUTH_FAIL, AUDIT_SEALED, AUDIT_CLOSED, AUDIT_ACCESS_REFUSED, CU_OP_FAILED,
   IMAGE_AUTH_FAIL, CU_KEY_CHANGED, CU_KEY_REFUSED, CU_SELFTEST_FAIL, DEVICE_KEY_FAIL, ECAT_STATE,
   ECAT_LINK, PDO_WATCHDOG, JOURNAL_FAULT, JOURNAL_UNJOURNALLED, UNIT_STATE_MISMATCH, UNIT_STATE_AGREE,
   EMCY_OVERFLOW, FOE_DONE, MGMT_HALTED, BRINGUP_PHASE, FW_IMAGE_REJECTED, BRINGUP_WAIT_EXPIRED,
   PARAM_STORE_FAULT, DEVICE_KEY_ENROLLED, SHUTDOWN_STATE, FLASH_FAULT, PC_SNAP_SKIPPED, PC_RING_FULL,
   PC_WRITE_ERROR, PC_CFG_REFUSED, FLASH_WEAR, CHECKPOINT_LATE, MGMT_SRAM_ECC, ISLAND_CLOCK_ABSENT,
   CLOCK_GEN_TIMEOUT, PHY_TUNE_TIMEOUT, CPM_EMERGENCY, THERMAL_WARN, THERMAL_THROTTLE, THERMAL_CRITICAL,
   FAN_FAULT, FAN_TACH_LOST, FAN_OK, SUPPLY_WARN, SUPPLY_FAULT, SUPPLY_OK,
   EM_CFG_REFUSED, SENSOR_FAIL]

end Sys2Proof.Machine.E
end

