-- ==== Sys2Proof/Config.lean ====
section
/-! DEFINITION. What an implementation fixes: the WX_ parameters of Table 2-2 and the values the manual leaves
open, as constants without a body. -/

namespace Sys2Proof

/-- One configuration: a value for every WX_ parameter of Table 2-2 (R38) and the RTL release of HP_CFG3 (R41). -/
structure Cfg where
  cores : Nat
  macDim : Nat
  scratchKib : Nat
  hoardMib : Nat
  camPipes : Nat
  cxpLanes : Nat
  quillPorts : Nat
  burrowPorts : Nat
  posChannels : Nat
  actOutputs : Nat
  ringLanes : Nat
  submitRings : Nat
  partSlots : Nat
  eventTable : Nat
  rtlRelease : Nat
  deriving DecidableEq, Repr

/-- Tetia-R32, the reference configuration (R1, Table 2-2), of RTL release 1.3 (the example of R41). -/
def Cfg.r32 : Cfg :=
  { cores := 32, macDim := 32, scratchKib := 1024, hoardMib := 96, camPipes := 32, cxpLanes := 64,
    quillPorts := 12, burrowPorts := 8, posChannels := 8, actOutputs := 64, ringLanes := 16,
    submitRings := 256, partSlots := 2048, eventTable := 4096, rtlRelease := 0x0103 }

/-- A value lies in lo..hi on a step counted from lo. -/
def Cfg.onStep (lo hi step v : Nat) : Bool := decide (lo ≤ v ∧ v ≤ hi ∧ (v - lo) % step = 0)

/-- R38: the configurations that the generator delivers. -/
def Cfg.valid (c : Cfg) : Bool :=
  Cfg.onStep 4 32 4 c.cores && (c.macDim == 16 || c.macDim == 32) && (c.scratchKib == 512 || c.scratchKib == 1024)
  && Cfg.onStep 16 96 16 c.hoardMib && Cfg.onStep 4 32 1 c.camPipes && Cfg.onStep 4 64 1 c.cxpLanes
  && Cfg.onStep 0 12 1 c.quillPorts && Cfg.onStep 0 8 1 c.burrowPorts && Cfg.onStep 2 8 1 c.posChannels
  && Cfg.onStep 16 64 16 c.actOutputs && (c.ringLanes == 0 || c.ringLanes == 8 || c.ringLanes == 16)
  && Cfg.onStep 64 256 64 c.submitRings && Cfg.onStep 256 2048 256 c.partSlots
  && Cfg.onStep 1024 4096 1024 c.eventTable && decide (c.camPipes ≤ c.cxpLanes)

/-- The number of pixel islands (R23, R39): ⌈WX_CAM_PIPES / 4⌉. -/
def Cfg.pixelIslands (c : Cfg) : Nat := (c.camPipes + 3) / 4

/-- Engines per core (R180): the ring engine is absent without ring lanes (R46). -/
def Cfg.engines (c : Cfg) : Nat := if c.ringLanes = 0 then 4 else 5

/-- The bytes of the Hoard (R40). -/
def Cfg.hoardBytes (c : Cfg) : Nat := c.hoardMib * 2 ^ 20

/-- Free value: a word the manual leaves open, drawn fresh with each number (log 1). -/
opaque Config.freeWord : Nat → BitVec 64

/-- Free value: how far the first-order filter of R97 has moved from its old value toward the raw speed, for a time
since the last update in ns and a time constant in ms (log 13). -/
opaque Config.speedFilter : (old raw : Int) → (dt tau : Nat) → Int

/-- Free value: sample `k` (row-major, before the level shift) of the 8 × 8 block that the inverse transform makes of 64
dequantised coefficients in zigzag order; ITU-T T.81 leaves its rounding open (log 28). -/
opaque Config.idct : (coefs : List Int) → (k : Nat) → Int

/-- Free value: byte `i` of the work area after a still was decoded in it (log 28). -/
opaque Config.jpegWork : (payload : List Byte) → (i : Nat) → Byte

/-- Free value: which of two equal operands a maximum or minimum answers (log 34). -/
opaque Config.zeroPick : (a b : Nat) → Bool

/-- Free value: how many steps the result of vexp, vrcp or vrsqrt lies from the nearest f32 (log 35). -/
opaque Config.ulpStep : (op x : Nat) → Nat

/-- Free value: vrsqrt of −0 (log 35). -/
opaque Config.rsqrtNegZero : BitVec 32

/-- Free value: the firmware key, and whether it is a 256-bit key (R431, log 45). -/
opaque Config.fwKey : BitVec 256
opaque Config.fwKey256 : Bool

/-- Free value: the device key (R426). -/
opaque Config.deviceKey : BitVec 256

/-- Free value: the second half of the per-boot context key, of which the manual derives 128 bits of 256 (log 45). -/
opaque Config.contextKeyTail : (boot : Nat) → BitVec 128

/-- Free value: byte `i` of the header of a sealed result, from its fields mode, party, chip, audit_id, out_len, result IV
and seal counter; the manual does not give its layout (R411, log 47). -/
opaque Config.sealHeader : (fields : List Nat) → (i : Nat) → Byte

/-- Free values: the address of batch table buffer `b` of a recipe slot, the offset of its area `k` (0 marks, 1 KV list,
2 context list, 3 verdict list, 4 evidence list), and byte `i` of a slot record, whose layout the manual does not give
(R274, R276, log 50). -/
opaque Config.batchBuf : (slot b : Nat) → BitVec 40
opaque Config.tableOfs : (slot b k : Nat) → BitVec 32
opaque Config.slotRecord : (fields : List Nat) → (i : Nat) → Byte

/-- Free values: byte `i` of the 16 bytes of a TIME message, from the tick phase, the tick's TT and the chip; and the 16
bits of a DIST_DONE that spell distribution id and status (R71, R380, log 58). -/
opaque Config.timeBytes : (phase : Int) → (tick chip : Nat) → (i : Nat) → Byte
opaque Config.distDone : (id status : Nat) → BitVec 16

/-- Free values: the licensee's EtherCAT vendor ID and product code (R513). -/
opaque Config.vendorId : BitVec 32
opaque Config.productCode : BitVec 32

/-- Free values: the result that FOE_DONE shows for the way a transfer ended (0 well, an FoE error code, 1 abandoned), and
the `where` of the entry that journals an FoE params write (R500, R502, log 65). -/
opaque Config.foeResult : (ending : Nat) → BitVec 8
opaque Config.foeWhere : BitVec 32

/-- Free value: whether a temperature that is no whole number of °C is shown as the next higher one (log 66). -/
opaque Config.degreeUp : (sixteenths : Int) → Bool

/-- Free value: whether a time that is no whole number of µs counts as the next higher one, by its remainder in ns
(log 54). -/
opaque Config.microUp : (rest : Nat) → Bool

/-- Free value: the hottest site's temperature in the input image while no site is valid (log 66). -/
opaque Config.noTemp : BitVec 8

end Sys2Proof
end

