-- ==== Sys2Proof/Machine/Bits.lean ====
section
/-! DEFINITION. Bit-field, sign-extension and byte-order helpers over natural numbers, as the tables of the
manual use them: [hi:lo] fields, two's complement, little-endian bytes (R7, R8). -/

namespace Sys2Proof.Machine

/-- The field [hi:lo] of `x` (R7). -/
def bits (x hi lo : Nat) : Nat := (x >>> lo) % 2 ^ (hi + 1 - lo)

/-- Bit `n` of `x` as a Bool (R7). -/
def bit (x n : Nat) : Bool := x.testBit n

/-- `x` with its field [hi:lo] replaced by the low bits of `v`. -/
def setBits (x hi lo v : Nat) : Nat :=
  x % 2 ^ lo + (v % 2 ^ (hi + 1 - lo)) * 2 ^ lo + (x >>> (hi + 1)) * 2 ^ (hi + 1)

/-- 1 for true, 0 for false. -/
def b2n (b : Bool) : Nat := if b then 1 else 0

/-- The two's complement value of the low `w` bits of `x`. -/
def signedOf (w x : Nat) : Int :=
  if x % 2 ^ w < 2 ^ (w - 1) then ((x % 2 ^ w : Nat) : Int) else ((x % 2 ^ w : Nat) : Int) - (2 ^ w : Nat)

/-- The low `w` bits of the two's complement form of `i`. -/
def wrapInt (w : Nat) (i : Int) : Nat := (i % (2 ^ w : Nat)).toNat

/-- The `w`-bit two's complement form of `i`, saturating. -/
def satInt (w : Nat) (i : Int) : Nat := wrapInt w (max (-(2 ^ (w - 1) : Nat)) (min ((2 ^ (w - 1) : Nat) - 1) i))

/-- `a` limited to at most `max` (a saturating counter). -/
def satTo (max a : Nat) : Nat := if a ≤ max then a else max

/-- The little-endian value of a list of bytes (R8). -/
def leVal : List Byte → Nat
  | [] => 0
  | b :: t => b.toNat + 256 * leVal t

/-- `n` bytes of `v`, little-endian (R8). -/
def leBytes : Nat → Nat → List Byte
  | 0, _ => []
  | n + 1, v => BitVec.ofNat 8 v :: leBytes n (v / 256)

/-- The big-endian value of a list of bytes, for the wire formats that a chapter says are big-endian. -/
def beVal (l : List Byte) : Nat := l.foldl (fun a b => a * 256 + b.toNat) 0

/-- `n` bytes of `v`, big-endian. -/
def beBytes (n v : Nat) : List Byte := (leBytes n v).reverse

/-- The number of 1 bits among the low `n` bits of `x`. -/
def popCount : Nat → Nat → Nat
  | 0, _ => 0
  | n + 1, x => x % 2 + popCount n (x / 2)

/-- The numbers of the 1 bits of `x` below `n`, ascending. -/
def bitIndices (n x : Nat) : List Nat := (List.range n).filter (fun i => x.testBit i)

/-- ⌊a / b⌋ rounded to nearest, ties away from zero, for a positive divisor. -/
def roundDivInt (a : Int) (b : Nat) : Int :=
  if 0 ≤ a then (2 * a + b) / (2 * (b : Int)) else -((2 * (-a) + b) / (2 * (b : Int)))

end Sys2Proof.Machine
end

