-- ==== Sys2Proof/Machine/Tbl.lean ====
section
/-! DEFINITION. A sparse table from numbers to values: how the model holds per-instance state (one row per
channel, port, core, ring ...). What an unlisted number holds is given by the reader. -/

namespace Sys2Proof.Machine

/-- A sparse table; `cells` is ascending in its first component. -/
structure Tbl (α : Type) where
  cells : List (Nat × α)
  deriving DecidableEq, Repr

/-- Look a number up in a list of cells. -/
def lookupCells {α : Type} : List (Nat × α) → Nat → Option α
  | [], _ => none
  | (a, b) :: t, k => if a = k then some b else lookupCells t k

/-- Put a cell into an ascending list of cells. -/
def insertCell {α : Type} : List (Nat × α) → Nat → α → List (Nat × α)
  | [], k, v => [(k, v)]
  | (a, b) :: t, k, v =>
    if a = k then (k, v) :: t
    else if k < a then (k, v) :: (a, b) :: t
    else (a, b) :: insertCell t k v

/-- The empty table. -/
def Tbl.empty {α : Type} : Tbl α := ⟨[]⟩

/-- What the table holds for `k`, if anything. -/
def Tbl.get? {α : Type} (t : Tbl α) (k : Nat) : Option α := lookupCells t.cells k

/-- What the table holds for `k`, or `d`. -/
def Tbl.get {α : Type} (t : Tbl α) (k : Nat) (d : α) : α := (t.get? k).getD d

/-- The table with `v` for `k`. -/
def Tbl.set {α : Type} (t : Tbl α) (k : Nat) (v : α) : Tbl α := ⟨insertCell t.cells k v⟩

/-- The table without `k`. -/
def Tbl.del {α : Type} (t : Tbl α) (k : Nat) : Tbl α := ⟨t.cells.filter (fun c => c.1 ≠ k)⟩

/-- The numbers the table lists, ascending. -/
def Tbl.keys {α : Type} (t : Tbl α) : List Nat := t.cells.map (·.1)

/-- The values the table lists, in the order of their numbers. -/
def Tbl.vals {α : Type} (t : Tbl α) : List α := t.cells.map (·.2)

/-- Change every listed value. -/
def Tbl.mapVals {α : Type} (t : Tbl α) (f : Nat → α → α) : Tbl α := ⟨t.cells.map (fun c => (c.1, f c.1 c.2))⟩

/-- Keep the rows that pass. -/
def Tbl.filterRows {α : Type} (t : Tbl α) (p : Nat → α → Bool) : Tbl α := ⟨t.cells.filter (fun c => p c.1 c.2)⟩

/-- The lowest number from `lo` below `n` that the table does not list. -/
def Tbl.lowestFree {α : Type} (t : Tbl α) (n : Nat) : Option Nat :=
  (List.range n).find? (fun i => (t.get? i).isNone)

end Sys2Proof.Machine
end

