-- ==== Sys2Proof/Machine/Reg.lean ====
section
/-! DEFINITION. What a register is: its place in register space, its instances and its fields (R9, R10, R543, R558). -/

namespace Sys2Proof.Machine

/-- The access codes of Table 0-5 (R10). -/
inductive Access where
  | ro | rw | wo | w1c | rc
  deriving DecidableEq, Repr

/-- How many instances a register dimension has: a number, or the configuration's count of a block (R24, R558). -/
inductive Count where
  | lit (n : Nat)
  | rings | quill | pos | outs | events | pipes | lanes | cores | burrow
  deriving DecidableEq, Repr

/-- One field of a register word: bits [hi:lo], access, reset value and the range a write must keep. -/
structure FieldSpec where
  hi : Nat
  lo : Nat
  acc : Access
  reset : Nat
  min : Nat
  max : Nat
  deriving DecidableEq, Repr

/-- One register of the map: offset of its first instance, dimensions (count, stride), and fields. -/
structure RegSpec where
  off : Nat
  dims : List (Count × Nat)
  journalled : Bool
  kept : Bool
  fields : List FieldSpec
  deriving DecidableEq, Repr

/-- A named field of a register. -/
structure Fld where
  reg : RegSpec
  hi : Nat
  lo : Nat
  deriving DecidableEq, Repr

/-- The number of instances in a dimension under a configuration. -/
def Count.eval (c : Cfg) : Count → Nat
  | .lit n => n
  | .rings => c.submitRings
  | .quill => c.quillPorts
  | .pos => c.posChannels
  | .outs => c.actOutputs
  | .events => c.eventTable
  | .pipes => c.camPipes
  | .lanes => c.cxpLanes
  | .cores => c.cores
  | .burrow => c.burrowPorts

/-- The offset of instance `ix` from dimensions `dims` (Table 22-10: base + n × stride). -/
def dimOff : List (Count × Nat) → List Nat → Nat
  | (_, st) :: ds, i :: is => i * st + dimOff ds is
  | _, _ => 0

/-- The offset in register space of instance `ix` of a register. -/
def RegSpec.addr (r : RegSpec) (ix : List Nat) : Nat := r.off + dimOff r.dims ix

/-- The instance that an offset from the register's base names, if it names one that the configuration has. -/
def dimIndex (c : Cfg) : List (Count × Nat) → Nat → Option (List Nat)
  | [], rel => if rel = 0 then some [] else none
  | (n, st) :: ds, rel =>
    if rel / st < n.eval c then (dimIndex c ds (rel % st)).map (rel / st :: ·) else none

/-- The instance of register `r` at register-space offset `off`, if there is one. -/
def RegSpec.match? (r : RegSpec) (c : Cfg) (off : Nat) : Option (List Nat) :=
  if r.off ≤ off then dimIndex c r.dims (off - r.off) else none

/-- The reset word that the fields give. -/
def fieldsReset : List FieldSpec → Nat
  | [] => 0
  | f :: fs => f.reset * 2 ^ f.lo + fieldsReset fs

/-- The reset value of a field of a register, by its low bit. -/
def Fld.resetVal (f : Fld) : Nat := ((f.reg.fields.find? (fun x => x.lo = f.lo)).map (·.reset)).getD 0

/-- The smallest value of a field's range. -/
def Fld.minVal (f : Fld) : Nat := ((f.reg.fields.find? (fun x => x.lo = f.lo)).map (·.min)).getD 0

/-- The largest value of a field's range. -/
def Fld.maxVal (f : Fld) : Nat := ((f.reg.fields.find? (fun x => x.lo = f.lo)).map (·.max)).getD 0

/-- A field value lies in the field's range. -/
def FieldSpec.inRange (f : FieldSpec) (v : Nat) : Bool := decide (f.min ≤ v ∧ v ≤ f.max)

end Sys2Proof.Machine
end

