-- ==== Sys2Proof/Machine/RegTable.lean ====
section
/-! DEFINITION. The register map: every register of register space with its offset (Tables 22-10, 22-11 and R576),
its instances, whether it is a journalled parameter, whether warm reset keeps it, and its fields with their access,
reset value and range (the register table of each chapter; Table 22-12 for the rest). A register the manual writes
`NAME[i]` has one row here, with its instance count and stride. -/

namespace Sys2Proof.Machine.R

/-- HP_CFG0. -/
def HP_CFG0 : RegSpec :=
  { off := 0x000000, dims := [], journalled := false, kept := true,
    fields := [⟨5, 0, .ro, 0x0, 0x0, 0x3f⟩, ⟨6, 6, .ro, 0x0, 0x0, 0x1⟩, ⟨7, 7, .ro, 0x0, 0x0, 0x1⟩,
      ⟨14, 8, .ro, 0x0, 0x0, 0x7f⟩, ⟨21, 16, .ro, 0x0, 0x0, 0x3f⟩, ⟨28, 22, .ro, 0x0, 0x0, 0x7f⟩] }
/-- HP_CFG0.cores. -/
def HP_CFG0_cores : Fld := ⟨HP_CFG0, 5, 0⟩
/-- HP_CFG0.mac_dim_32. -/
def HP_CFG0_mac_dim_32 : Fld := ⟨HP_CFG0, 6, 6⟩
/-- HP_CFG0.scratch_1m. -/
def HP_CFG0_scratch_1m : Fld := ⟨HP_CFG0, 7, 7⟩
/-- HP_CFG0.hoard_mib. -/
def HP_CFG0_hoard_mib : Fld := ⟨HP_CFG0, 14, 8⟩
/-- HP_CFG0.cam_pipes. -/
def HP_CFG0_cam_pipes : Fld := ⟨HP_CFG0, 21, 16⟩
/-- HP_CFG0.cxp_lanes. -/
def HP_CFG0_cxp_lanes : Fld := ⟨HP_CFG0, 28, 22⟩

/-- HP_CFG1. -/
def HP_CFG1 : RegSpec :=
  { off := 0x000004, dims := [], journalled := false, kept := true,
    fields := [⟨3, 0, .ro, 0x0, 0x0, 0xf⟩, ⟨7, 4, .ro, 0x0, 0x0, 0xf⟩, ⟨11, 8, .ro, 0x0, 0x0, 0xf⟩,
      ⟨18, 12, .ro, 0x0, 0x0, 0x7f⟩, ⟨23, 19, .ro, 0x0, 0x0, 0x1f⟩] }
/-- HP_CFG1.quill_ports. -/
def HP_CFG1_quill_ports : Fld := ⟨HP_CFG1, 3, 0⟩
/-- HP_CFG1.burrow_ports. -/
def HP_CFG1_burrow_ports : Fld := ⟨HP_CFG1, 7, 4⟩
/-- HP_CFG1.pos_channels. -/
def HP_CFG1_pos_channels : Fld := ⟨HP_CFG1, 11, 8⟩
/-- HP_CFG1.act_outputs. -/
def HP_CFG1_act_outputs : Fld := ⟨HP_CFG1, 18, 12⟩
/-- HP_CFG1.ring_lanes. -/
def HP_CFG1_ring_lanes : Fld := ⟨HP_CFG1, 23, 19⟩

/-- HP_CFG2. -/
def HP_CFG2 : RegSpec :=
  { off := 0x000008, dims := [], journalled := false, kept := true,
    fields := [⟨8, 0, .ro, 0x0, 0x0, 0x1ff⟩, ⟨20, 9, .ro, 0x0, 0x0, 0xfff⟩] }
/-- HP_CFG2.submit_rings. -/
def HP_CFG2_submit_rings : Fld := ⟨HP_CFG2, 8, 0⟩
/-- HP_CFG2.part_slots. -/
def HP_CFG2_part_slots : Fld := ⟨HP_CFG2, 20, 9⟩

/-- HP_CFG3. -/
def HP_CFG3 : RegSpec :=
  { off := 0x00000c, dims := [], journalled := false, kept := true,
    fields := [⟨12, 0, .ro, 0x0, 0x0, 0x1fff⟩, ⟨31, 16, .ro, 0x0, 0x0, 0xffff⟩] }
/-- HP_CFG3.event_table. -/
def HP_CFG3_event_table : Fld := ⟨HP_CFG3, 12, 0⟩
/-- HP_CFG3.rtl_release. -/
def HP_CFG3_rtl_release : Fld := ⟨HP_CFG3, 31, 16⟩

/-- HP_BOOT_STATUS. -/
def HP_BOOT_STATUS : RegSpec :=
  { off := 0x000010, dims := [], journalled := false, kept := true,
    fields := [⟨3, 0, .ro, 0x1, 0x0, 0xf⟩, ⟨4, 4, .ro, 0x0, 0x0, 0x1⟩, ⟨5, 5, .ro, 0x0, 0x0, 0x1⟩,
      ⟨6, 6, .ro, 0x0, 0x0, 0x1⟩, ⟨7, 7, .ro, 0x0, 0x0, 0x1⟩, ⟨11, 8, .ro, 0x0, 0x0, 0xf⟩,
      ⟨15, 12, .ro, 0x0, 0x0, 0xf⟩, ⟨23, 16, .ro, 0x0, 0x0, 0xff⟩, ⟨26, 24, .ro, 0x0, 0x0, 0x7⟩] }
/-- HP_BOOT_STATUS.phase. -/
def HP_BOOT_STATUS_phase : Fld := ⟨HP_BOOT_STATUS, 3, 0⟩
/-- HP_BOOT_STATUS.warm. -/
def HP_BOOT_STATUS_warm : Fld := ⟨HP_BOOT_STATUS, 4, 4⟩
/-- HP_BOOT_STATUS.image. -/
def HP_BOOT_STATUS_image : Fld := ⟨HP_BOOT_STATUS, 5, 5⟩
/-- HP_BOOT_STATUS.fallback. -/
def HP_BOOT_STATUS_fallback : Fld := ⟨HP_BOOT_STATUS, 6, 6⟩
/-- HP_BOOT_STATUS.key_ok. -/
def HP_BOOT_STATUS_key_ok : Fld := ⟨HP_BOOT_STATUS, 7, 7⟩
/-- HP_BOOT_STATUS.cause_a. -/
def HP_BOOT_STATUS_cause_a : Fld := ⟨HP_BOOT_STATUS, 11, 8⟩
/-- HP_BOOT_STATUS.cause_b. -/
def HP_BOOT_STATUS_cause_b : Fld := ⟨HP_BOOT_STATUS, 15, 12⟩
/-- HP_BOOT_STATUS.held. -/
def HP_BOOT_STATUS_held : Fld := ⟨HP_BOOT_STATUS, 23, 16⟩
/-- HP_BOOT_STATUS.lc_result. -/
def HP_BOOT_STATUS_lc_result : Fld := ⟨HP_BOOT_STATUS, 26, 24⟩

/-- HP_LIFECYCLE. -/
def HP_LIFECYCLE : RegSpec :=
  { off := 0x000014, dims := [], journalled := false, kept := false,
    fields := [⟨31, 0, .wo, 0x0, 0x0, 0xffffffff⟩] }
/-- HP_LIFECYCLE.code. -/
def HP_LIFECYCLE_code : Fld := ⟨HP_LIFECYCLE, 31, 0⟩

/-- HP_ERR. -/
def HP_ERR : RegSpec :=
  { off := 0x000028, dims := [], journalled := false, kept := true,
    fields := [⟨15, 0, .rc, 0x0, 0x0, 0xffff⟩, ⟨31, 16, .rc, 0x0, 0x0, 0xffff⟩] }
/-- HP_ERR.abandoned. -/
def HP_ERR_abandoned : Fld := ⟨HP_ERR, 15, 0⟩
/-- HP_ERR.master_err. -/
def HP_ERR_master_err : Fld := ⟨HP_ERR, 31, 16⟩

/-- HP_ERR_ADDR_LO. -/
def HP_ERR_ADDR_LO : RegSpec :=
  { off := 0x00002c, dims := [], journalled := false, kept := true,
    fields := [⟨31, 0, .ro, 0x0, 0x0, 0xffffffff⟩] }
/-- HP_ERR_ADDR_LO.addr. -/
def HP_ERR_ADDR_LO_addr : Fld := ⟨HP_ERR_ADDR_LO, 31, 0⟩

/-- HP_ERR_ADDR_HI. -/
def HP_ERR_ADDR_HI : RegSpec :=
  { off := 0x000030, dims := [], journalled := false, kept := true,
    fields := [⟨31, 0, .ro, 0x0, 0x0, 0xffffffff⟩] }
/-- HP_ERR_ADDR_HI.addr. -/
def HP_ERR_ADDR_HI_addr : Fld := ⟨HP_ERR_ADDR_HI, 31, 0⟩

/-- HP_DB_ERR. -/
def HP_DB_ERR : RegSpec :=
  { off := 0x000034, dims := [], journalled := false, kept := true,
    fields := [⟨15, 0, .rc, 0x0, 0x0, 0xffff⟩] }
/-- HP_DB_ERR.refused. -/
def HP_DB_ERR_refused : Fld := ⟨HP_DB_ERR, 15, 0⟩

/-- HP_EVQ_BASE_LO. -/
def HP_EVQ_BASE_LO : RegSpec :=
  { off := 0x000040, dims := [], journalled := false, kept := true,
    fields := [⟨31, 0, .rw, 0x0, 0x0, 0xffffffff⟩] }
/-- HP_EVQ_BASE_LO.addr. -/
def HP_EVQ_BASE_LO_addr : Fld := ⟨HP_EVQ_BASE_LO, 31, 0⟩

/-- HP_EVQ_BASE_HI. -/
def HP_EVQ_BASE_HI : RegSpec :=
  { off := 0x000044, dims := [], journalled := false, kept := true,
    fields := [⟨31, 0, .rw, 0x0, 0x0, 0xffffffff⟩] }
/-- HP_EVQ_BASE_HI.addr. -/
def HP_EVQ_BASE_HI_addr : Fld := ⟨HP_EVQ_BASE_HI, 31, 0⟩

/-- HP_EVQ_CFG. -/
def HP_EVQ_CFG : RegSpec :=
  { off := 0x000048, dims := [], journalled := false, kept := true,
    fields := [⟨4, 0, .rw, 0x4, 0x4, 0x10⟩, ⟨10, 10, .rw, 0x0, 0x0, 0x1⟩, ⟨11, 11, .rw, 0x0, 0x0, 0x1⟩] }
/-- HP_EVQ_CFG.log2_len. -/
def HP_EVQ_CFG_log2_len : Fld := ⟨HP_EVQ_CFG, 4, 0⟩
/-- HP_EVQ_CFG.en. -/
def HP_EVQ_CFG_en : Fld := ⟨HP_EVQ_CFG, 10, 10⟩
/-- HP_EVQ_CFG.irq_en. -/
def HP_EVQ_CFG_irq_en : Fld := ⟨HP_EVQ_CFG, 11, 11⟩

/-- HP_EVQ_TAIL. -/
def HP_EVQ_TAIL : RegSpec :=
  { off := 0x00004c, dims := [], journalled := false, kept := true,
    fields := [⟨15, 0, .ro, 0x0, 0x0, 0xffff⟩, ⟨16, 16, .ro, 0x1, 0x0, 0x1⟩] }
/-- HP_EVQ_TAIL.tail. -/
def HP_EVQ_TAIL_tail : Fld := ⟨HP_EVQ_TAIL, 15, 0⟩
/-- HP_EVQ_TAIL.phase. -/
def HP_EVQ_TAIL_phase : Fld := ⟨HP_EVQ_TAIL, 16, 16⟩

/-- HP_EVQ_HEAD. -/
def HP_EVQ_HEAD : RegSpec :=
  { off := 0x000050, dims := [], journalled := false, kept := true,
    fields := [⟨15, 0, .rw, 0x0, 0x0, 0xffff⟩] }
/-- HP_EVQ_HEAD.head. -/
def HP_EVQ_HEAD_head : Fld := ⟨HP_EVQ_HEAD, 15, 0⟩

/-- HP_EVQ_LOST. -/
def HP_EVQ_LOST : RegSpec :=
  { off := 0x000054, dims := [], journalled := false, kept := true,
    fields := [⟨31, 0, .rc, 0x0, 0x0, 0xffffffff⟩] }
/-- HP_EVQ_LOST.count. -/
def HP_EVQ_LOST_count : Fld := ⟨HP_EVQ_LOST, 31, 0⟩

/-- HP_IRQ_STATUS. -/
def HP_IRQ_STATUS : RegSpec :=
  { off := 0x000080, dims := [], journalled := false, kept := false,
    fields := [⟨31, 0, .w1c, 0x0, 0x0, 0xffffffff⟩] }
/-- HP_IRQ_STATUS.status. -/
def HP_IRQ_STATUS_status : Fld := ⟨HP_IRQ_STATUS, 31, 0⟩

/-- HP_IRQ_MASK. -/
def HP_IRQ_MASK : RegSpec :=
  { off := 0x000084, dims := [], journalled := false, kept := true,
    fields := [⟨31, 0, .rw, 0xffffffff, 0x0, 0xffffffff⟩] }
/-- HP_IRQ_MASK.mask. -/
def HP_IRQ_MASK_mask : Fld := ⟨HP_IRQ_MASK, 31, 0⟩

/-- HP_IRQ_RAW. -/
def HP_IRQ_RAW : RegSpec :=
  { off := 0x000088, dims := [], journalled := false, kept := true,
    fields := [⟨31, 0, .ro, 0x0, 0x0, 0xffffffff⟩] }
/-- HP_IRQ_RAW.pending. -/
def HP_IRQ_RAW_pending : Fld := ⟨HP_IRQ_RAW, 31, 0⟩

/-- HP_IRQ_MAP. -/
def HP_IRQ_MAP : RegSpec :=
  { off := 0x00008c, dims := [], journalled := false, kept := true,
    fields := [⟨4, 0, .rw, 0x0, 0x0, 0x1f⟩, ⟨9, 5, .rw, 0x0, 0x0, 0x1f⟩, ⟨14, 10, .rw, 0x0, 0x0, 0x1f⟩] }
/-- HP_IRQ_MAP.evq_vec. -/
def HP_IRQ_MAP_evq_vec : Fld := ⟨HP_IRQ_MAP, 4, 0⟩
/-- HP_IRQ_MAP.pu_vec. -/
def HP_IRQ_MAP_pu_vec : Fld := ⟨HP_IRQ_MAP, 9, 5⟩
/-- HP_IRQ_MAP.pc_vec. -/
def HP_IRQ_MAP_pc_vec : Fld := ⟨HP_IRQ_MAP, 14, 10⟩

/-- HP_IRQ_MOD. -/
def HP_IRQ_MOD : RegSpec :=
  { off := 0x000100, dims := [(.lit 32, 0x4)], journalled := false, kept := true,
    fields := [⟨7, 0, .rw, 0x1, 0x1, 0xff⟩, ⟨23, 8, .rw, 0x0, 0x0, 0xffff⟩] }
/-- HP_IRQ_MOD.count. -/
def HP_IRQ_MOD_count : Fld := ⟨HP_IRQ_MOD, 7, 0⟩
/-- HP_IRQ_MOD.time_us. -/
def HP_IRQ_MOD_time_us : Fld := ⟨HP_IRQ_MOD, 23, 8⟩

/-- HP_HOLD. -/
def HP_HOLD : RegSpec :=
  { off := 0x000200, dims := [], journalled := false, kept := true,
    fields := [⟨9, 0, .ro, 0x0, 0x0, 0x3ff⟩] }
/-- HP_HOLD.used. -/
def HP_HOLD_used : Fld := ⟨HP_HOLD, 9, 0⟩

/-- HP_JRN_HEAD. -/
def HP_JRN_HEAD : RegSpec :=
  { off := 0x000400, dims := [], journalled := false, kept := true,
    fields := [⟨31, 0, .ro, 0x0, 0x0, 0xffffffff⟩] }
/-- HP_JRN_HEAD.seq. -/
def HP_JRN_HEAD_seq : Fld := ⟨HP_JRN_HEAD, 31, 0⟩

/-- HP_JRN_STATUS. -/
def HP_JRN_STATUS : RegSpec :=
  { off := 0x000404, dims := [], journalled := false, kept := true,
    fields := [⟨1, 0, .ro, 0x0, 0x0, 0x3⟩, ⟨2, 2, .ro, 0x0, 0x0, 0x1⟩, ⟨31, 16, .rc, 0x0, 0x0, 0xffff⟩] }
/-- HP_JRN_STATUS.copy. -/
def HP_JRN_STATUS_copy : Fld := ⟨HP_JRN_STATUS, 1, 0⟩
/-- HP_JRN_STATUS.fault_valid. -/
def HP_JRN_STATUS_fault_valid : Fld := ⟨HP_JRN_STATUS, 2, 2⟩
/-- HP_JRN_STATUS.halted_refused. -/
def HP_JRN_STATUS_halted_refused : Fld := ⟨HP_JRN_STATUS, 31, 16⟩

/-- HP_JRN_UNJ. -/
def HP_JRN_UNJ : RegSpec :=
  { off := 0x000408, dims := [], journalled := false, kept := true,
    fields := [⟨31, 0, .ro, 0x0, 0x0, 0xffffffff⟩] }
/-- HP_JRN_UNJ.count. -/
def HP_JRN_UNJ_count : Fld := ⟨HP_JRN_UNJ, 31, 0⟩

/-- HP_JRN_READ. -/
def HP_JRN_READ : RegSpec :=
  { off := 0x00040c, dims := [], journalled := false, kept := false,
    fields := [⟨31, 0, .rw, 0x0, 0x0, 0xffffffff⟩] }
/-- HP_JRN_READ.seq. -/
def HP_JRN_READ_seq : Fld := ⟨HP_JRN_READ, 31, 0⟩

/-- HP_JRN_VALID. -/
def HP_JRN_VALID : RegSpec :=
  { off := 0x000410, dims := [], journalled := false, kept := false,
    fields := [⟨0, 0, .ro, 0x0, 0x0, 0x1⟩] }
/-- HP_JRN_VALID.valid. -/
def HP_JRN_VALID_valid : Fld := ⟨HP_JRN_VALID, 0, 0⟩

/-- HP_JRN_DATA. -/
def HP_JRN_DATA : RegSpec :=
  { off := 0x000420, dims := [(.lit 8, 0x4)], journalled := false, kept := false,
    fields := [⟨31, 0, .ro, 0x0, 0x0, 0xffffffff⟩] }
/-- HP_JRN_DATA.word. -/
def HP_JRN_DATA_word : Fld := ⟨HP_JRN_DATA, 31, 0⟩

/-- HP_JRN_FAULT. -/
def HP_JRN_FAULT : RegSpec :=
  { off := 0x000440, dims := [(.lit 8, 0x4)], journalled := false, kept := true,
    fields := [⟨31, 0, .ro, 0x0, 0x0, 0xffffffff⟩] }
/-- HP_JRN_FAULT.word. -/
def HP_JRN_FAULT_word : Fld := ⟨HP_JRN_FAULT, 31, 0⟩

/-- HP_UNIT_STATE. -/
def HP_UNIT_STATE : RegSpec :=
  { off := 0x000800, dims := [(.lit 116, 0x4)], journalled := false, kept := false,
    fields := [⟨2, 0, .ro, 0x0, 0x0, 0x7⟩, ⟨5, 3, .ro, 0x0, 0x0, 0x7⟩, ⟨6, 6, .ro, 0x0, 0x0, 0x1⟩,
      ⟨31, 16, .ro, 0x0, 0x0, 0xffff⟩] }
/-- HP_UNIT_STATE.cmd. -/
def HP_UNIT_STATE_cmd : Fld := ⟨HP_UNIT_STATE, 2, 0⟩
/-- HP_UNIT_STATE.obs. -/
def HP_UNIT_STATE_obs : Fld := ⟨HP_UNIT_STATE, 5, 3⟩
/-- HP_UNIT_STATE.mismatch. -/
def HP_UNIT_STATE_mismatch : Fld := ⟨HP_UNIT_STATE, 6, 6⟩
/-- HP_UNIT_STATE.ms. -/
def HP_UNIT_STATE_ms : Fld := ⟨HP_UNIT_STATE, 31, 16⟩

/-- HP_SQ_BASE. -/
def HP_SQ_BASE : RegSpec :=
  { off := 0x010000, dims := [(.rings, 0x40)], journalled := false, kept := true,
    fields := [⟨31, 0, .rw, 0x0, 0x0, 0xffffffff⟩] }
/-- HP_SQ_BASE.base. -/
def HP_SQ_BASE_base : Fld := ⟨HP_SQ_BASE, 31, 0⟩

/-- HP_SQ_CFG. -/
def HP_SQ_CFG : RegSpec :=
  { off := 0x010004, dims := [(.rings, 0x40)], journalled := false, kept := true,
    fields := [⟨4, 0, .rw, 0x4, 0x4, 0x10⟩] }
/-- HP_SQ_CFG.log2_len. -/
def HP_SQ_CFG_log2_len : Fld := ⟨HP_SQ_CFG, 4, 0⟩

/-- HP_SQ_DB. -/
def HP_SQ_DB : RegSpec :=
  { off := 0x010008, dims := [(.rings, 0x40)], journalled := false, kept := true,
    fields := [⟨15, 0, .rw, 0x0, 0x0, 0xffff⟩] }
/-- HP_SQ_DB.prod. -/
def HP_SQ_DB_prod : Fld := ⟨HP_SQ_DB, 15, 0⟩

/-- HP_SQ_HEAD. -/
def HP_SQ_HEAD : RegSpec :=
  { off := 0x01000c, dims := [(.rings, 0x40)], journalled := false, kept := true,
    fields := [⟨15, 0, .ro, 0x0, 0x0, 0xffff⟩] }
/-- HP_SQ_HEAD.head. -/
def HP_SQ_HEAD_head : Fld := ⟨HP_SQ_HEAD, 15, 0⟩

/-- HP_CQ_BASE_LO. -/
def HP_CQ_BASE_LO : RegSpec :=
  { off := 0x010010, dims := [(.rings, 0x40)], journalled := false, kept := true,
    fields := [⟨31, 0, .rw, 0x0, 0x0, 0xffffffff⟩] }
/-- HP_CQ_BASE_LO.addr. -/
def HP_CQ_BASE_LO_addr : Fld := ⟨HP_CQ_BASE_LO, 31, 0⟩

/-- HP_CQ_BASE_HI. -/
def HP_CQ_BASE_HI : RegSpec :=
  { off := 0x010014, dims := [(.rings, 0x40)], journalled := false, kept := true,
    fields := [⟨31, 0, .rw, 0x0, 0x0, 0xffffffff⟩] }
/-- HP_CQ_BASE_HI.addr. -/
def HP_CQ_BASE_HI_addr : Fld := ⟨HP_CQ_BASE_HI, 31, 0⟩

/-- HP_CQ_CFG. -/
def HP_CQ_CFG : RegSpec :=
  { off := 0x010018, dims := [(.rings, 0x40)], journalled := false, kept := true,
    fields := [⟨4, 0, .rw, 0x4, 0x4, 0x10⟩, ⟨9, 5, .rw, 0x0, 0x0, 0x1f⟩, ⟨10, 10, .rw, 0x0, 0x0, 0x1⟩,
      ⟨11, 11, .rw, 0x0, 0x0, 0x1⟩] }
/-- HP_CQ_CFG.log2_len. -/
def HP_CQ_CFG_log2_len : Fld := ⟨HP_CQ_CFG, 4, 0⟩
/-- HP_CQ_CFG.vector. -/
def HP_CQ_CFG_vector : Fld := ⟨HP_CQ_CFG, 9, 5⟩
/-- HP_CQ_CFG.en. -/
def HP_CQ_CFG_en : Fld := ⟨HP_CQ_CFG, 10, 10⟩
/-- HP_CQ_CFG.irq_en. -/
def HP_CQ_CFG_irq_en : Fld := ⟨HP_CQ_CFG, 11, 11⟩

/-- HP_CQ_TAIL. -/
def HP_CQ_TAIL : RegSpec :=
  { off := 0x01001c, dims := [(.rings, 0x40)], journalled := false, kept := true,
    fields := [⟨15, 0, .ro, 0x0, 0x0, 0xffff⟩, ⟨16, 16, .ro, 0x1, 0x0, 0x1⟩] }
/-- HP_CQ_TAIL.tail. -/
def HP_CQ_TAIL_tail : Fld := ⟨HP_CQ_TAIL, 15, 0⟩
/-- HP_CQ_TAIL.phase. -/
def HP_CQ_TAIL_phase : Fld := ⟨HP_CQ_TAIL, 16, 16⟩

/-- HP_CQ_HEAD. -/
def HP_CQ_HEAD : RegSpec :=
  { off := 0x010020, dims := [(.rings, 0x40)], journalled := false, kept := true,
    fields := [⟨15, 0, .rw, 0x0, 0x0, 0xffff⟩] }
/-- HP_CQ_HEAD.head. -/
def HP_CQ_HEAD_head : Fld := ⟨HP_CQ_HEAD, 15, 0⟩

/-- HP_CQ_LOST. -/
def HP_CQ_LOST : RegSpec :=
  { off := 0x010024, dims := [(.rings, 0x40)], journalled := false, kept := true,
    fields := [⟨31, 0, .rc, 0x0, 0x0, 0xffffffff⟩] }
/-- HP_CQ_LOST.count. -/
def HP_CQ_LOST_count : Fld := ⟨HP_CQ_LOST, 31, 0⟩

/-- TB_CTL. -/
def TB_CTL : RegSpec :=
  { off := 0x020000, dims := [], journalled := true, kept := true,
    fields := [⟨1, 0, .rw, 0x0, 0x0, 0x2⟩, ⟨3, 2, .rw, 0x0, 0x0, 0x2⟩, ⟨4, 4, .rw, 0x0, 0x0, 0x1⟩,
      ⟨5, 5, .rw, 0x0, 0x0, 0x1⟩, ⟨6, 6, .rw, 0x0, 0x0, 0x1⟩, ⟨11, 8, .rw, 0x0, 0x0, 0xf⟩,
      ⟨15, 12, .rw, 0x0, 0x0, 0xf⟩, ⟨16, 16, .rw, 0x0, 0x0, 0x1⟩, ⟨17, 17, .rw, 0x0, 0x0, 0x1⟩,
      ⟨25, 20, .rw, 0x24, 0x0, 0x3f⟩] }
/-- TB_CTL.mode. -/
def TB_CTL_mode : Fld := ⟨TB_CTL, 1, 0⟩
/-- TB_CTL.manual_ref. -/
def TB_CTL_manual_ref : Fld := ⟨TB_CTL, 3, 2⟩
/-- TB_CTL.revertive. -/
def TB_CTL_revertive : Fld := ⟨TB_CTL, 4, 4⟩
/-- TB_CTL.ref0_25m. -/
def TB_CTL_ref0_25m : Fld := ⟨TB_CTL, 5, 5⟩
/-- TB_CTL.ref1_25m. -/
def TB_CTL_ref1_25m : Fld := ⟨TB_CTL, 6, 6⟩
/-- TB_CTL.ref2_port. -/
def TB_CTL_ref2_port : Fld := ⟨TB_CTL, 11, 8⟩
/-- TB_CTL.align_port. -/
def TB_CTL_align_port : Fld := ⟨TB_CTL, 15, 12⟩
/-- TB_CTL.rack_lead. -/
def TB_CTL_rack_lead : Fld := ⟨TB_CTL, 16, 16⟩
/-- TB_CTL.align_en. -/
def TB_CTL_align_en : Fld := ⟨TB_CTL, 17, 17⟩
/-- TB_CTL.priority. -/
def TB_CTL_priority : Fld := ⟨TB_CTL, 25, 20⟩

/-- TB_STATUS. -/
def TB_STATUS : RegSpec :=
  { off := 0x020004, dims := [], journalled := false, kept := true,
    fields := [⟨2, 0, .ro, 0x0, 0x0, 0x7⟩, ⟨4, 3, .ro, 0x3, 0x0, 0x3⟩, ⟨7, 5, .ro, 0x0, 0x0, 0x7⟩,
      ⟨8, 8, .ro, 0x0, 0x0, 0x1⟩, ⟨9, 9, .ro, 0x0, 0x0, 0x1⟩, ⟨10, 10, .ro, 0x0, 0x0, 0x1⟩] }
/-- TB_STATUS.state. -/
def TB_STATUS_state : Fld := ⟨TB_STATUS, 2, 0⟩
/-- TB_STATUS.active. -/
def TB_STATUS_active : Fld := ⟨TB_STATUS, 4, 3⟩
/-- TB_STATUS.qualified. -/
def TB_STATUS_qualified : Fld := ⟨TB_STATUS, 7, 5⟩
/-- TB_STATUS.pulling. -/
def TB_STATUS_pulling : Fld := ⟨TB_STATUS, 8, 8⟩
/-- TB_STATUS.osc_fail. -/
def TB_STATUS_osc_fail : Fld := ⟨TB_STATUS, 9, 9⟩
/-- TB_STATUS.stepped. -/
def TB_STATUS_stepped : Fld := ⟨TB_STATUS, 10, 10⟩

/-- TB_REF_CAUSE. -/
def TB_REF_CAUSE : RegSpec :=
  { off := 0x020008, dims := [], journalled := false, kept := true,
    fields := [⟨11, 0, .ro, 0x0, 0x0, 0xfff⟩] }
/-- TB_REF_CAUSE.cause. -/
def TB_REF_CAUSE_cause : Fld := ⟨TB_REF_CAUSE, 11, 0⟩

/-- TB_TT_LO. -/
def TB_TT_LO : RegSpec :=
  { off := 0x020010, dims := [], journalled := false, kept := true,
    fields := [⟨31, 0, .ro, 0x0, 0x0, 0xffffffff⟩] }
/-- TB_TT_LO.tt. -/
def TB_TT_LO_tt : Fld := ⟨TB_TT_LO, 31, 0⟩

/-- TB_TT_HI. -/
def TB_TT_HI : RegSpec :=
  { off := 0x020014, dims := [], journalled := false, kept := true,
    fields := [⟨31, 0, .ro, 0x0, 0x0, 0xffffffff⟩] }
/-- TB_TT_HI.tt. -/
def TB_TT_HI_tt : Fld := ⟨TB_TT_HI, 31, 0⟩

/-- TB_TT_LOAD_LO. -/
def TB_TT_LOAD_LO : RegSpec :=
  { off := 0x020018, dims := [], journalled := false, kept := true,
    fields := [⟨31, 0, .rw, 0x0, 0x0, 0xffffffff⟩] }
/-- TB_TT_LOAD_LO.load. -/
def TB_TT_LOAD_LO_load : Fld := ⟨TB_TT_LOAD_LO, 31, 0⟩

/-- TB_TT_LOAD_HI. -/
def TB_TT_LOAD_HI : RegSpec :=
  { off := 0x02001c, dims := [], journalled := false, kept := true,
    fields := [⟨31, 0, .rw, 0x0, 0x0, 0xffffffff⟩] }
/-- TB_TT_LOAD_HI.load. -/
def TB_TT_LOAD_HI_load : Fld := ⟨TB_TT_LOAD_HI, 31, 0⟩

/-- TB_SLOPE. -/
def TB_SLOPE : RegSpec :=
  { off := 0x020020, dims := [], journalled := true, kept := true,
    fields := [⟨9, 0, .rw, 0x32, 0x1, 0x3e8⟩] }
/-- TB_SLOPE.slope. -/
def TB_SLOPE_slope : Fld := ⟨TB_SLOPE, 9, 0⟩

/-- TB_QUAL. -/
def TB_QUAL : RegSpec :=
  { off := 0x020024, dims := [], journalled := true, kept := true,
    fields := [⟨13, 0, .rw, 0x64, 0xa, 0x2710⟩] }
/-- TB_QUAL.qual. -/
def TB_QUAL_qual : Fld := ⟨TB_QUAL, 13, 0⟩

/-- TB_LOCK_WIN. -/
def TB_LOCK_WIN : RegSpec :=
  { off := 0x020028, dims := [], journalled := true, kept := true,
    fields := [⟨15, 0, .rw, 0x64, 0xa, 0xffff⟩] }
/-- TB_LOCK_WIN.win. -/
def TB_LOCK_WIN_win : Fld := ⟨TB_LOCK_WIN, 15, 0⟩

/-- TB_HOLD_LIMIT. -/
def TB_HOLD_LIMIT : RegSpec :=
  { off := 0x02002c, dims := [], journalled := true, kept := true,
    fields := [⟨23, 0, .rw, 0x3e8, 0x64, 0x989680⟩] }
/-- TB_HOLD_LIMIT.limit. -/
def TB_HOLD_LIMIT_limit : Fld := ⟨TB_HOLD_LIMIT, 23, 0⟩

/-- TB_HOLD_DRIFT. -/
def TB_HOLD_DRIFT : RegSpec :=
  { off := 0x020030, dims := [], journalled := true, kept := true,
    fields := [⟨15, 0, .rw, 0xa, 0x1, 0xffff⟩] }
/-- TB_HOLD_DRIFT.drift. -/
def TB_HOLD_DRIFT_drift : Fld := ⟨TB_HOLD_DRIFT, 15, 0⟩

/-- TB_HOLD_EST. -/
def TB_HOLD_EST : RegSpec :=
  { off := 0x020034, dims := [], journalled := false, kept := true,
    fields := [⟨31, 0, .ro, 0x0, 0x0, 0xffffffff⟩] }
/-- TB_HOLD_EST.est. -/
def TB_HOLD_EST_est : Fld := ⟨TB_HOLD_EST, 31, 0⟩

/-- TB_PHASE_ERR. -/
def TB_PHASE_ERR : RegSpec :=
  { off := 0x020038, dims := [], journalled := false, kept := true,
    fields := [⟨31, 0, .ro, 0x0, 0x0, 0xffffffff⟩] }
/-- TB_PHASE_ERR.err. -/
def TB_PHASE_ERR_err : Fld := ⟨TB_PHASE_ERR, 31, 0⟩

/-- TB_RATE. -/
def TB_RATE : RegSpec :=
  { off := 0x02003c, dims := [], journalled := false, kept := true,
    fields := [⟨31, 0, .ro, 0x0, 0x0, 0xffffffff⟩] }
/-- TB_RATE.rate. -/
def TB_RATE_rate : Fld := ⟨TB_RATE, 31, 0⟩

/-- TB_TICK_PHASE. -/
def TB_TICK_PHASE : RegSpec :=
  { off := 0x020040, dims := [], journalled := true, kept := true,
    fields := [⟨31, 0, .rw, 0x0, 0x0, 0xffffffff⟩] }
/-- TB_TICK_PHASE.phase. -/
def TB_TICK_PHASE_phase : Fld := ⟨TB_TICK_PHASE, 31, 0⟩

/-- TB_ALIGN_OFFSET. -/
def TB_ALIGN_OFFSET : RegSpec :=
  { off := 0x020044, dims := [], journalled := false, kept := true,
    fields := [⟨31, 0, .ro, 0x0, 0x0, 0xffffffff⟩] }
/-- TB_ALIGN_OFFSET.theta. -/
def TB_ALIGN_OFFSET_theta : Fld := ⟨TB_ALIGN_OFFSET, 31, 0⟩

/-- TB_ASYM. -/
def TB_ASYM : RegSpec :=
  { off := 0x020080, dims := [(.quill, 0x4)], journalled := true, kept := true,
    fields := [⟨15, 0, .rw, 0x0, 0x0, 0xffff⟩] }
/-- TB_ASYM.asym. -/
def TB_ASYM_asym : Fld := ⟨TB_ASYM, 15, 0⟩

/-- PU_CH_CTL. -/
def PU_CH_CTL : RegSpec :=
  { off := 0x030000, dims := [(.pos, 0x100)], journalled := true, kept := true,
    fields := [⟨1, 0, .rw, 0x0, 0x0, 0x3⟩, ⟨2, 2, .rw, 0x0, 0x0, 0x1⟩, ⟨5, 3, .rw, 0x2, 0x0, 0x4⟩,
      ⟨6, 6, .rw, 0x0, 0x0, 0x1⟩, ⟨7, 7, .rw, 0x0, 0x0, 0x1⟩, ⟨8, 8, .rw, 0x0, 0x0, 0x1⟩,
      ⟨9, 9, .rw, 0x0, 0x0, 0x1⟩, ⟨15, 10, .rw, 0x19, 0x8, 0x20⟩, ⟨23, 16, .rw, 0x13, 0x13, 0xff⟩,
      ⟨31, 24, .rw, 0x0, 0x0, 0xff⟩] }
/-- PU_CH_CTL.mode. -/
def PU_CH_CTL_mode : Fld := ⟨PU_CH_CTL, 1, 0⟩
/-- PU_CH_CTL.pt_en. -/
def PU_CH_CTL_pt_en : Fld := ⟨PU_CH_CTL, 2, 2⟩
/-- PU_CH_CTL.filt. -/
def PU_CH_CTL_filt : Fld := ⟨PU_CH_CTL, 5, 3⟩
/-- PU_CH_CTL.invert_dir. -/
def PU_CH_CTL_invert_dir : Fld := ⟨PU_CH_CTL, 6, 6⟩
/-- PU_CH_CTL.idx_en. -/
def PU_CH_CTL_idx_en : Fld := ⟨PU_CH_CTL, 7, 7⟩
/-- PU_CH_CTL.idx_gate. -/
def PU_CH_CTL_idx_gate : Fld := ⟨PU_CH_CTL, 8, 8⟩
/-- PU_CH_CTL.ssi_gray. -/
def PU_CH_CTL_ssi_gray : Fld := ⟨PU_CH_CTL, 9, 9⟩
/-- PU_CH_CTL.ssi_bits. -/
def PU_CH_CTL_ssi_bits : Fld := ⟨PU_CH_CTL, 15, 10⟩
/-- PU_CH_CTL.ssi_div. -/
def PU_CH_CTL_ssi_div : Fld := ⟨PU_CH_CTL, 23, 16⟩
/-- PU_CH_CTL.ssi_delay. -/
def PU_CH_CTL_ssi_delay : Fld := ⟨PU_CH_CTL, 31, 24⟩

/-- PU_SSI. -/
def PU_SSI : RegSpec :=
  { off := 0x030004, dims := [(.pos, 0x100)], journalled := true, kept := true,
    fields := [⟨9, 0, .rw, 0x32, 0x5, 0x3e8⟩, ⟨15, 10, .rw, 0x14, 0x1, 0x3f⟩,
      ⟨31, 16, .rw, 0x1000, 0x1, 0xffff⟩] }
/-- PU_SSI.ssi_period. -/
def PU_SSI_ssi_period : Fld := ⟨PU_SSI, 9, 0⟩
/-- PU_SSI.ssi_recovery. -/
def PU_SSI_ssi_recovery : Fld := ⟨PU_SSI, 15, 10⟩
/-- PU_SSI.ssi_maxstep. -/
def PU_SSI_ssi_maxstep : Fld := ⟨PU_SSI, 31, 16⟩

/-- PU_HYST. -/
def PU_HYST : RegSpec :=
  { off := 0x030008, dims := [(.pos, 0x100)], journalled := true, kept := true,
    fields := [⟨15, 0, .rw, 0x10, 0x1, 0xffff⟩, ⟨23, 16, .rw, 0x2, 0x1, 0xff⟩] }
/-- PU_HYST.hyst. -/
def PU_HYST_hyst : Fld := ⟨PU_HYST, 15, 0⟩
/-- PU_HYST.speed_tau. -/
def PU_HYST_speed_tau : Fld := ⟨PU_HYST, 23, 16⟩

/-- PU_IDX_CHK. -/
def PU_IDX_CHK : RegSpec :=
  { off := 0x03000c, dims := [(.pos, 0x100)], journalled := true, kept := true,
    fields := [⟨23, 0, .rw, 0x0, 0x0, 0xffffff⟩, ⟨31, 24, .rw, 0x1, 0x0, 0xff⟩] }
/-- PU_IDX_CHK.idx_period. -/
def PU_IDX_CHK_idx_period : Fld := ⟨PU_IDX_CHK, 23, 0⟩
/-- PU_IDX_CHK.idx_tol. -/
def PU_IDX_CHK_idx_tol : Fld := ⟨PU_IDX_CHK, 31, 24⟩

/-- PU_STILL. -/
def PU_STILL : RegSpec :=
  { off := 0x030010, dims := [(.pos, 0x100)], journalled := true, kept := true,
    fields := [⟨15, 0, .rw, 0x64, 0x1, 0xffff⟩] }
/-- PU_STILL.still. -/
def PU_STILL_still : Fld := ⟨PU_STILL, 15, 0⟩

/-- PU_CNT_LO. -/
def PU_CNT_LO : RegSpec :=
  { off := 0x030020, dims := [(.pos, 0x100)], journalled := false, kept := true,
    fields := [⟨31, 0, .ro, 0x0, 0x0, 0xffffffff⟩] }
/-- PU_CNT_LO.cnt. -/
def PU_CNT_LO_cnt : Fld := ⟨PU_CNT_LO, 31, 0⟩

/-- PU_CNT_HI. -/
def PU_CNT_HI : RegSpec :=
  { off := 0x030024, dims := [(.pos, 0x100)], journalled := false, kept := true,
    fields := [⟨15, 0, .ro, 0x0, 0x0, 0xffff⟩] }
/-- PU_CNT_HI.cnt. -/
def PU_CNT_HI_cnt : Fld := ⟨PU_CNT_HI, 15, 0⟩

/-- PU_LOAD_LO. -/
def PU_LOAD_LO : RegSpec :=
  { off := 0x030028, dims := [(.pos, 0x100)], journalled := false, kept := true,
    fields := [⟨31, 0, .rw, 0x0, 0x0, 0xffffffff⟩] }
/-- PU_LOAD_LO.load. -/
def PU_LOAD_LO_load : Fld := ⟨PU_LOAD_LO, 31, 0⟩

/-- PU_LOAD_HI. -/
def PU_LOAD_HI : RegSpec :=
  { off := 0x03002c, dims := [(.pos, 0x100)], journalled := false, kept := true,
    fields := [⟨15, 0, .rw, 0x0, 0x0, 0xffff⟩] }
/-- PU_LOAD_HI.load. -/
def PU_LOAD_HI_load : Fld := ⟨PU_LOAD_HI, 15, 0⟩

/-- PU_IDX_LO. -/
def PU_IDX_LO : RegSpec :=
  { off := 0x030030, dims := [(.pos, 0x100)], journalled := false, kept := true,
    fields := [⟨31, 0, .ro, 0x0, 0x0, 0xffffffff⟩] }
/-- PU_IDX_LO.idx. -/
def PU_IDX_LO_idx : Fld := ⟨PU_IDX_LO, 31, 0⟩

/-- PU_IDX_HI. -/
def PU_IDX_HI : RegSpec :=
  { off := 0x030034, dims := [(.pos, 0x100)], journalled := false, kept := true,
    fields := [⟨15, 0, .ro, 0x0, 0x0, 0xffff⟩] }
/-- PU_IDX_HI.idx. -/
def PU_IDX_HI_idx : Fld := ⟨PU_IDX_HI, 15, 0⟩

/-- PU_SPEED. -/
def PU_SPEED : RegSpec :=
  { off := 0x030038, dims := [(.pos, 0x100)], journalled := false, kept := true,
    fields := [⟨31, 0, .ro, 0x0, 0x0, 0xffffffff⟩] }
/-- PU_SPEED.speed. -/
def PU_SPEED_speed : Fld := ⟨PU_SPEED, 31, 0⟩

/-- PU_STATUS. -/
def PU_STATUS : RegSpec :=
  { off := 0x03003c, dims := [(.pos, 0x100)], journalled := false, kept := true,
    fields := [⟨0, 0, .ro, 0x0, 0x0, 0x1⟩, ⟨1, 1, .ro, 0x0, 0x0, 0x1⟩, ⟨2, 2, .ro, 0x1, 0x0, 0x1⟩,
      ⟨3, 3, .rc, 0x0, 0x0, 0x1⟩, ⟨6, 4, .ro, 0x0, 0x0, 0x7⟩, ⟨7, 7, .ro, 0x0, 0x0, 0x1⟩] }
/-- PU_STATUS.dir. -/
def PU_STATUS_dir : Fld := ⟨PU_STATUS, 0, 0⟩
/-- PU_STATUS.dir_valid. -/
def PU_STATUS_dir_valid : Fld := ⟨PU_STATUS, 1, 1⟩
/-- PU_STATUS.standstill. -/
def PU_STATUS_standstill : Fld := ⟨PU_STATUS, 2, 2⟩
/-- PU_STATUS.idx_new. -/
def PU_STATUS_idx_new : Fld := ⟨PU_STATUS, 3, 3⟩
/-- PU_STATUS.hall. -/
def PU_STATUS_hall : Fld := ⟨PU_STATUS, 6, 4⟩
/-- PU_STATUS.los. -/
def PU_STATUS_los : Fld := ⟨PU_STATUS, 7, 7⟩

/-- PU_ERR. -/
def PU_ERR : RegSpec :=
  { off := 0x030040, dims := [(.pos, 0x100)], journalled := false, kept := true,
    fields := [⟨7, 0, .rc, 0x0, 0x0, 0xff⟩, ⟨15, 8, .rc, 0x0, 0x0, 0xff⟩, ⟨31, 16, .rc, 0x0, 0x0, 0xffff⟩] }
/-- PU_ERR.quad_hall. -/
def PU_ERR_quad_hall : Fld := ⟨PU_ERR, 7, 0⟩
/-- PU_ERR.ssi. -/
def PU_ERR_ssi : Fld := ⟨PU_ERR, 15, 8⟩
/-- PU_ERR.overrate. -/
def PU_ERR_overrate : Fld := ⟨PU_ERR, 31, 16⟩

/-- PU_THR. -/
def PU_THR : RegSpec :=
  { off := 0x030044, dims := [(.pos, 0x100)], journalled := false, kept := true,
    fields := [⟨5, 0, .ro, 0x20, 0x0, 0x3f⟩, ⟨13, 8, .ro, 0x20, 0x0, 0x3f⟩, ⟨21, 16, .ro, 0x20, 0x0, 0x3f⟩] }
/-- PU_THR.thr_a. -/
def PU_THR_thr_a : Fld := ⟨PU_THR, 5, 0⟩
/-- PU_THR.thr_b. -/
def PU_THR_thr_b : Fld := ⟨PU_THR, 13, 8⟩
/-- PU_THR.thr_z. -/
def PU_THR_thr_z : Fld := ⟨PU_THR, 21, 16⟩

/-- PU_IRQ. -/
def PU_IRQ : RegSpec :=
  { off := 0x030f00, dims := [], journalled := false, kept := true,
    fields := [⟨7, 0, .w1c, 0x0, 0x0, 0xff⟩] }
/-- PU_IRQ.dir_chg. -/
def PU_IRQ_dir_chg : Fld := ⟨PU_IRQ, 7, 0⟩

/-- PU_IRQ_EN. -/
def PU_IRQ_EN : RegSpec :=
  { off := 0x030f04, dims := [], journalled := false, kept := true,
    fields := [⟨7, 0, .rw, 0x0, 0x0, 0xff⟩] }
/-- PU_IRQ_EN.en. -/
def PU_IRQ_EN_en : Fld := ⟨PU_IRQ_EN, 7, 0⟩

/-- PU_GLOBAL. -/
def PU_GLOBAL : RegSpec :=
  { off := 0x030f08, dims := [], journalled := true, kept := true,
    fields := [⟨0, 0, .rw, 0x0, 0x0, 0x1⟩, ⟨1, 1, .rw, 0x1, 0x0, 0x1⟩] }
/-- PU_GLOBAL.bypass_open. -/
def PU_GLOBAL_bypass_open : Fld := ⟨PU_GLOBAL, 0, 0⟩
/-- PU_GLOBAL.thr_loop. -/
def PU_GLOBAL_thr_loop : Fld := ⟨PU_GLOBAL, 1, 1⟩

/-- AU_CTL. -/
def AU_CTL : RegSpec :=
  { off := 0x040000, dims := [], journalled := true, kept := true,
    fields := [⟨0, 0, .rw, 0x0, 0x0, 0x1⟩, ⟨31, 16, .rw, 0x0, 0x0, 0xffff⟩] }
/-- AU_CTL.en. -/
def AU_CTL_en : Fld := ⟨AU_CTL, 0, 0⟩
/-- AU_CTL.expire_s. -/
def AU_CTL_expire_s : Fld := ⟨AU_CTL, 31, 16⟩

/-- AU_STATUS. -/
def AU_STATUS : RegSpec :=
  { off := 0x040004, dims := [], journalled := false, kept := true,
    fields := [⟨12, 0, .ro, 0x0, 0x0, 0x1fff⟩] }
/-- AU_STATUS.used. -/
def AU_STATUS_used : Fld := ⟨AU_STATUS, 12, 0⟩

/-- AU_ERR. -/
def AU_ERR : RegSpec :=
  { off := 0x040008, dims := [], journalled := false, kept := true,
    fields := [⟨7, 0, .rc, 0x0, 0x0, 0xff⟩, ⟨15, 8, .rc, 0x0, 0x0, 0xff⟩, ⟨23, 16, .rc, 0x0, 0x0, 0xff⟩,
      ⟨31, 24, .rc, 0x0, 0x0, 0xff⟩] }
/-- AU_ERR.late. -/
def AU_ERR_late : Fld := ⟨AU_ERR, 7, 0⟩
/-- AU_ERR.discarded. -/
def AU_ERR_discarded : Fld := ⟨AU_ERR, 15, 8⟩
/-- AU_ERR.disagree. -/
def AU_ERR_disagree : Fld := ⟨AU_ERR, 23, 16⟩
/-- AU_ERR.merged. -/
def AU_ERR_merged : Fld := ⟨AU_ERR, 31, 24⟩

/-- AU_CANCEL. -/
def AU_CANCEL : RegSpec :=
  { off := 0x040010, dims := [], journalled := false, kept := true,
    fields := [⟨11, 0, .wo, 0x0, 0x0, 0xfff⟩, ⟨31, 31, .wo, 0x0, 0x0, 0x1⟩] }
/-- AU_CANCEL.entry. -/
def AU_CANCEL_entry : Fld := ⟨AU_CANCEL, 11, 0⟩
/-- AU_CANCEL.all. -/
def AU_CANCEL_all : Fld := ⟨AU_CANCEL, 31, 31⟩

/-- AU_CANCEL_OUT. -/
def AU_CANCEL_OUT : RegSpec :=
  { off := 0x040014, dims := [], journalled := false, kept := true,
    fields := [⟨6, 0, .wo, 0x0, 0x0, 0x7f⟩] }
/-- AU_CANCEL_OUT.out. -/
def AU_CANCEL_OUT_out : Fld := ⟨AU_CANCEL_OUT, 6, 0⟩

/-- AU_CANCEL_RESULT. -/
def AU_CANCEL_RESULT : RegSpec :=
  { off := 0x040018, dims := [], journalled := false, kept := true,
    fields := [⟨1, 0, .ro, 0x0, 0x0, 0x3⟩] }
/-- AU_CANCEL_RESULT.result. -/
def AU_CANCEL_RESULT_result : Fld := ⟨AU_CANCEL_RESULT, 1, 0⟩

/-- AU_OUT_STATE_LO. -/
def AU_OUT_STATE_LO : RegSpec :=
  { off := 0x040020, dims := [], journalled := false, kept := true,
    fields := [⟨31, 0, .ro, 0x0, 0x0, 0xffffffff⟩] }
/-- AU_OUT_STATE_LO.active. -/
def AU_OUT_STATE_LO_active : Fld := ⟨AU_OUT_STATE_LO, 31, 0⟩

/-- AU_OUT_STATE_HI. -/
def AU_OUT_STATE_HI : RegSpec :=
  { off := 0x040024, dims := [], journalled := false, kept := true,
    fields := [⟨31, 0, .ro, 0x0, 0x0, 0xffffffff⟩] }
/-- AU_OUT_STATE_HI.active. -/
def AU_OUT_STATE_HI_active : Fld := ⟨AU_OUT_STATE_HI, 31, 0⟩

/-- AU_POST. -/
def AU_POST : RegSpec :=
  { off := 0x040040, dims := [(.lit 8, 0x4)], journalled := false, kept := true,
    fields := [⟨31, 0, .wo, 0x0, 0x0, 0xffffffff⟩] }
/-- AU_POST.word. -/
def AU_POST_word : Fld := ⟨AU_POST, 31, 0⟩

/-- AU_POST_STATUS. -/
def AU_POST_STATUS : RegSpec :=
  { off := 0x040060, dims := [], journalled := false, kept := true,
    fields := [⟨3, 0, .ro, 0x0, 0x0, 0xf⟩, ⟨15, 4, .ro, 0x0, 0x0, 0xfff⟩] }
/-- AU_POST_STATUS.status. -/
def AU_POST_STATUS_status : Fld := ⟨AU_POST_STATUS, 3, 0⟩
/-- AU_POST_STATUS.entry. -/
def AU_POST_STATUS_entry : Fld := ⟨AU_POST_STATUS, 15, 4⟩

/-- AU_MPOST. -/
def AU_MPOST : RegSpec :=
  { off := 0x040080, dims := [(.lit 8, 0x4)], journalled := false, kept := true,
    fields := [⟨31, 0, .wo, 0x0, 0x0, 0xffffffff⟩] }
/-- AU_MPOST.word. -/
def AU_MPOST_word : Fld := ⟨AU_MPOST, 31, 0⟩

/-- AU_MPOST_STATUS. -/
def AU_MPOST_STATUS : RegSpec :=
  { off := 0x0400a0, dims := [], journalled := false, kept := true,
    fields := [⟨3, 0, .ro, 0x0, 0x0, 0xf⟩, ⟨15, 4, .ro, 0x0, 0x0, 0xfff⟩] }
/-- AU_MPOST_STATUS.status. -/
def AU_MPOST_STATUS_status : Fld := ⟨AU_MPOST_STATUS, 3, 0⟩
/-- AU_MPOST_STATUS.entry. -/
def AU_MPOST_STATUS_entry : Fld := ⟨AU_MPOST_STATUS, 15, 4⟩

/-- AU_OUT_CFG. -/
def AU_OUT_CFG : RegSpec :=
  { off := 0x041000, dims := [(.outs, 0x20)], journalled := true, kept := true,
    fields := [⟨0, 0, .rw, 0x0, 0x0, 0x1⟩, ⟨1, 1, .rw, 0x1, 0x0, 0x1⟩, ⟨12, 2, .rw, 0x64, 0x1, 0x7ff⟩,
      ⟨23, 13, .rw, 0x64, 0x0, 0x7ff⟩, ⟨31, 24, .rw, 0x64, 0x1, 0xff⟩] }
/-- AU_OUT_CFG.en. -/
def AU_OUT_CFG_en : Fld := ⟨AU_OUT_CFG, 0, 0⟩
/-- AU_OUT_CFG.active_high. -/
def AU_OUT_CFG_active_high : Fld := ⟨AU_OUT_CFG, 1, 1⟩
/-- AU_OUT_CFG.min_on_us. -/
def AU_OUT_CFG_min_on_us : Fld := ⟨AU_OUT_CFG, 12, 2⟩
/-- AU_OUT_CFG.min_gap_us. -/
def AU_OUT_CFG_min_gap_us : Fld := ⟨AU_OUT_CFG, 23, 13⟩
/-- AU_OUT_CFG.max_on. -/
def AU_OUT_CFG_max_on : Fld := ⟨AU_OUT_CFG, 31, 24⟩

/-- AU_OUT_LATE. -/
def AU_OUT_LATE : RegSpec :=
  { off := 0x041004, dims := [(.outs, 0x20)], journalled := true, kept := true,
    fields := [⟨15, 0, .rw, 0x3e8, 0x0, 0xffff⟩, ⟨31, 16, .rw, 0x10, 0x0, 0xffff⟩] }
/-- AU_OUT_LATE.late_us. -/
def AU_OUT_LATE_late_us : Fld := ⟨AU_OUT_LATE, 15, 0⟩
/-- AU_OUT_LATE.late_cnt. -/
def AU_OUT_LATE_late_cnt : Fld := ⟨AU_OUT_LATE, 31, 16⟩

/-- AU_WEAR_LO. -/
def AU_WEAR_LO : RegSpec :=
  { off := 0x041008, dims := [(.outs, 0x20)], journalled := false, kept := true,
    fields := [⟨31, 0, .rw, 0x0, 0x0, 0xffffffff⟩] }
/-- AU_WEAR_LO.count. -/
def AU_WEAR_LO_count : Fld := ⟨AU_WEAR_LO, 31, 0⟩

/-- AU_WEAR_HI. -/
def AU_WEAR_HI : RegSpec :=
  { off := 0x04100c, dims := [(.outs, 0x20)], journalled := false, kept := true,
    fields := [⟨15, 0, .rw, 0x0, 0x0, 0xffff⟩] }
/-- AU_WEAR_HI.count. -/
def AU_WEAR_HI_count : Fld := ⟨AU_WEAR_HI, 15, 0⟩

/-- AU_ONTIME. -/
def AU_ONTIME : RegSpec :=
  { off := 0x041010, dims := [(.outs, 0x20)], journalled := false, kept := true,
    fields := [⟨31, 0, .rw, 0x0, 0x0, 0xffffffff⟩] }
/-- AU_ONTIME.ms. -/
def AU_ONTIME_ms : Fld := ⟨AU_ONTIME, 31, 0⟩

/-- AU_WEAR_WARN. -/
def AU_WEAR_WARN : RegSpec :=
  { off := 0x041014, dims := [(.outs, 0x20)], journalled := true, kept := true,
    fields := [⟨31, 0, .rw, 0x0, 0x0, 0xffffffff⟩] }
/-- AU_WEAR_WARN.warn. -/
def AU_WEAR_WARN_warn : Fld := ⟨AU_WEAR_WARN, 31, 0⟩

/-- AU_GUARD. -/
def AU_GUARD : RegSpec :=
  { off := 0x041800, dims := [(.pos, 0x4)], journalled := true, kept := true,
    fields := [⟨0, 0, .rw, 0x0, 0x0, 0x1⟩, ⟨7, 1, .rw, 0x19, 0x5, 0x64⟩, ⟨15, 8, .rw, 0x2, 0x1, 0xff⟩,
      ⟨31, 16, .rw, 0x40, 0x1, 0xffff⟩] }
/-- AU_GUARD.en. -/
def AU_GUARD_en : Fld := ⟨AU_GUARD, 0, 0⟩
/-- AU_GUARD.spd_pct. -/
def AU_GUARD_spd_pct : Fld := ⟨AU_GUARD, 7, 1⟩
/-- AU_GUARD.tol. -/
def AU_GUARD_tol : Fld := ⟨AU_GUARD, 15, 8⟩
/-- AU_GUARD.guard_cnt. -/
def AU_GUARD_guard_cnt : Fld := ⟨AU_GUARD, 31, 16⟩

/-- AU_ENTRY. -/
def AU_ENTRY : RegSpec :=
  { off := 0x060000, dims := [(.events, 0x20), (.lit 8, 0x4)], journalled := false, kept := true,
    fields := [⟨31, 0, .ro, 0x0, 0x0, 0xffffffff⟩] }
/-- AU_ENTRY.view. -/
def AU_ENTRY_view : Fld := ⟨AU_ENTRY, 31, 0⟩

/-- CX_CAM_CTL. -/
def CX_CAM_CTL : RegSpec :=
  { off := 0x080000, dims := [(.pipes, 0x4000)], journalled := true, kept := true,
    fields := [⟨0, 0, .rw, 0x0, 0x0, 0x1⟩, ⟨2, 1, .rw, 0x0, 0x0, 0x3⟩, ⟨8, 3, .rw, 0x0, 0x0, 0x3f⟩,
      ⟨11, 9, .rw, 0x0, 0x0, 0x6⟩, ⟨19, 12, .rw, 0x0, 0x0, 0xff⟩] }
/-- CX_CAM_CTL.en. -/
def CX_CAM_CTL_en : Fld := ⟨CX_CAM_CTL, 0, 0⟩
/-- CX_CAM_CTL.conns. -/
def CX_CAM_CTL_conns : Fld := ⟨CX_CAM_CTL, 2, 1⟩
/-- CX_CAM_CTL.base_lane. -/
def CX_CAM_CTL_base_lane : Fld := ⟨CX_CAM_CTL, 8, 3⟩
/-- CX_CAM_CTL.speed. -/
def CX_CAM_CTL_speed : Fld := ⟨CX_CAM_CTL, 11, 9⟩
/-- CX_CAM_CTL.stream_id. -/
def CX_CAM_CTL_stream_id : Fld := ⟨CX_CAM_CTL, 19, 12⟩

/-- CX_CAM_STATUS. -/
def CX_CAM_STATUS : RegSpec :=
  { off := 0x080004, dims := [(.pipes, 0x4000)], journalled := false, kept := true,
    fields := [⟨7, 0, .ro, 0x0, 0x0, 0xff⟩, ⟨8, 8, .ro, 0x0, 0x0, 0x1⟩, ⟨9, 9, .ro, 0x0, 0x0, 0x1⟩,
      ⟨31, 16, .ro, 0x0, 0x0, 0xffff⟩] }
/-- CX_CAM_STATUS.lock. -/
def CX_CAM_STATUS_lock : Fld := ⟨CX_CAM_STATUS, 7, 0⟩
/-- CX_CAM_STATUS.group_up. -/
def CX_CAM_STATUS_group_up : Fld := ⟨CX_CAM_STATUS, 8, 8⟩
/-- CX_CAM_STATUS.stalled. -/
def CX_CAM_STATUS_stalled : Fld := ⟨CX_CAM_STATUS, 9, 9⟩
/-- CX_CAM_STATUS.skew. -/
def CX_CAM_STATUS_skew : Fld := ⟨CX_CAM_STATUS, 31, 16⟩

/-- CX_CTRL_TX. -/
def CX_CTRL_TX : RegSpec :=
  { off := 0x080008, dims := [(.pipes, 0x4000)], journalled := false, kept := true,
    fields := [⟨31, 0, .rw, 0x0, 0x0, 0xffffffff⟩] }
/-- CX_CTRL_TX.base. -/
def CX_CTRL_TX_base : Fld := ⟨CX_CTRL_TX, 31, 0⟩

/-- CX_CTRL_RX. -/
def CX_CTRL_RX : RegSpec :=
  { off := 0x08000c, dims := [(.pipes, 0x4000)], journalled := false, kept := true,
    fields := [⟨31, 0, .rw, 0x0, 0x0, 0xffffffff⟩] }
/-- CX_CTRL_RX.base. -/
def CX_CTRL_RX_base : Fld := ⟨CX_CTRL_RX, 31, 0⟩

/-- CX_CTRL_IDX. -/
def CX_CTRL_IDX : RegSpec :=
  { off := 0x080010, dims := [(.pipes, 0x4000)], journalled := false, kept := true,
    fields := [⟨7, 0, .rw, 0x0, 0x0, 0xff⟩, ⟨15, 8, .ro, 0x0, 0x0, 0xff⟩, ⟨23, 16, .ro, 0x0, 0x0, 0xff⟩,
      ⟨31, 24, .rw, 0x0, 0x0, 0xff⟩] }
/-- CX_CTRL_IDX.tx_prod. -/
def CX_CTRL_IDX_tx_prod : Fld := ⟨CX_CTRL_IDX, 7, 0⟩
/-- CX_CTRL_IDX.tx_cons. -/
def CX_CTRL_IDX_tx_cons : Fld := ⟨CX_CTRL_IDX, 15, 8⟩
/-- CX_CTRL_IDX.rx_prod. -/
def CX_CTRL_IDX_rx_prod : Fld := ⟨CX_CTRL_IDX, 23, 16⟩
/-- CX_CTRL_IDX.rx_cons. -/
def CX_CTRL_IDX_rx_cons : Fld := ⟨CX_CTRL_IDX, 31, 24⟩

/-- PP_CTL. -/
def PP_CTL : RegSpec :=
  { off := 0x080020, dims := [(.pipes, 0x4000)], journalled := true, kept := true,
    fields := [⟨1, 0, .rw, 0x0, 0x0, 0x3⟩, ⟨17, 2, .rw, 0x2000, 0x20, 0x8000⟩, ⟨18, 18, .rw, 0x0, 0x0, 0x1⟩,
      ⟨23, 19, .rw, 0x1f, 0x0, 0x1f⟩, ⟨25, 24, .rw, 0x0, 0x0, 0x2⟩, ⟨29, 26, .rw, 0xf, 0x0, 0xf⟩,
      ⟨30, 30, .rw, 0x1, 0x0, 0x1⟩] }
/-- PP_CTL.fmt. -/
def PP_CTL_fmt : Fld := ⟨PP_CTL, 1, 0⟩
/-- PP_CTL.width. -/
def PP_CTL_width : Fld := ⟨PP_CTL, 17, 2⟩
/-- PP_CTL.rs_en. -/
def PP_CTL_rs_en : Fld := ⟨PP_CTL, 18, 18⟩
/-- PP_CTL.levels. -/
def PP_CTL_levels : Fld := ⟨PP_CTL, 23, 19⟩
/-- PP_CTL.out_fmt. -/
def PP_CTL_out_fmt : Fld := ⟨PP_CTL, 25, 24⟩
/-- PP_CTL.pos_ch. -/
def PP_CTL_pos_ch : Fld := ⟨PP_CTL, 29, 26⟩
/-- PP_CTL.fill_prev. -/
def PP_CTL_fill_prev : Fld := ⟨PP_CTL, 30, 30⟩

/-- PP_STAMP. -/
def PP_STAMP : RegSpec :=
  { off := 0x080024, dims := [(.pipes, 0x4000)], journalled := true, kept := true,
    fields := [⟨15, 0, .rw, 0x2000, 0x20, 0x8000⟩, ⟨31, 16, .rw, 0x0, 0x0, 0xffff⟩] }
/-- PP_STAMP.out_width. -/
def PP_STAMP_out_width : Fld := ⟨PP_STAMP, 15, 0⟩
/-- PP_STAMP.stamp_ofs_ns. -/
def PP_STAMP_stamp_ofs_ns : Fld := ⟨PP_STAMP, 31, 16⟩

/-- PP_RING. -/
def PP_RING : RegSpec :=
  { off := 0x080028, dims := [(.pipes, 0x4000)], journalled := true, kept := true,
    fields := [⟨31, 0, .rw, 0x0, 0x0, 0xffffffff⟩] }
/-- PP_RING.ring_base. -/
def PP_RING_ring_base : Fld := ⟨PP_RING, 31, 0⟩

/-- PP_RING_CFG. -/
def PP_RING_CFG : RegSpec :=
  { off := 0x08002c, dims := [(.pipes, 0x4000)], journalled := false, kept := true,
    fields := [⟨8, 0, .rw, 0x2, 0x2, 0x100⟩, ⟨31, 9, .rw, 0x0, 0x0, 0x7fffff⟩] }
/-- PP_RING_CFG.ring_len. -/
def PP_RING_CFG_ring_len : Fld := ⟨PP_RING_CFG, 8, 0⟩
/-- PP_RING_CFG.ring_stride. -/
def PP_RING_CFG_ring_stride : Fld := ⟨PP_RING_CFG, 31, 9⟩

/-- PP_STALL. -/
def PP_STALL : RegSpec :=
  { off := 0x080030, dims := [(.pipes, 0x4000)], journalled := false, kept := true,
    fields := [⟨15, 0, .rw, 0x3e8, 0x1, 0xffff⟩] }
/-- PP_STALL.stall_us. -/
def PP_STALL_stall_us : Fld := ⟨PP_STALL, 15, 0⟩

/-- PP_PROD. -/
def PP_PROD : RegSpec :=
  { off := 0x080034, dims := [(.pipes, 0x4000)], journalled := false, kept := true,
    fields := [⟨31, 0, .ro, 0x0, 0x0, 0xffffffff⟩] }
/-- PP_PROD.seq. -/
def PP_PROD_seq : Fld := ⟨PP_PROD, 31, 0⟩

/-- PP_CONS. -/
def PP_CONS : RegSpec :=
  { off := 0x080038, dims := [(.pipes, 0x4000)], journalled := false, kept := true,
    fields := [⟨31, 0, .rw, 0x0, 0x0, 0xffffffff⟩] }
/-- PP_CONS.seq. -/
def PP_CONS_seq : Fld := ⟨PP_CONS, 31, 0⟩

/-- PP_CAL_SWAP. -/
def PP_CAL_SWAP : RegSpec :=
  { off := 0x08003c, dims := [(.pipes, 0x4000)], journalled := false, kept := true,
    fields := [⟨0, 0, .wo, 0x0, 0x0, 0x1⟩, ⟨1, 1, .ro, 0x0, 0x0, 0x1⟩] }
/-- PP_CAL_SWAP.swap. -/
def PP_CAL_SWAP_swap : Fld := ⟨PP_CAL_SWAP, 0, 0⟩
/-- PP_CAL_SWAP.active. -/
def PP_CAL_SWAP_active : Fld := ⟨PP_CAL_SWAP, 1, 1⟩

/-- PP_ERR. -/
def PP_ERR : RegSpec :=
  { off := 0x080040, dims := [(.pipes, 0x4000)], journalled := false, kept := true,
    fields := [⟨15, 0, .rc, 0x0, 0x0, 0xffff⟩, ⟨31, 16, .rc, 0x0, 0x0, 0xffff⟩] }
/-- PP_ERR.replaced. -/
def PP_ERR_replaced : Fld := ⟨PP_ERR, 15, 0⟩
/-- PP_ERR.lost. -/
def PP_ERR_lost : Fld := ⟨PP_ERR, 31, 16⟩

/-- PP_DEF_COUNT. -/
def PP_DEF_COUNT : RegSpec :=
  { off := 0x080044, dims := [(.pipes, 0x4000)], journalled := false, kept := true,
    fields := [⟨10, 0, .rw, 0x0, 0x0, 0x400⟩] }
/-- PP_DEF_COUNT.count. -/
def PP_DEF_COUNT_count : Fld := ⟨PP_DEF_COUNT, 10, 0⟩

/-- PP_RS_COUNT. -/
def PP_RS_COUNT : RegSpec :=
  { off := 0x080048, dims := [(.pipes, 0x4000)], journalled := false, kept := true,
    fields := [⟨6, 0, .rw, 0x2, 0x2, 0x40⟩] }
/-- PP_RS_COUNT.count. -/
def PP_RS_COUNT_count : Fld := ⟨PP_RS_COUNT, 6, 0⟩

/-- PP_RS. -/
def PP_RS : RegSpec :=
  { off := 0x080800, dims := [(.pipes, 0x4000), (.lit 128, 0x4)], journalled := false, kept := true,
    fields := [⟨31, 0, .rw, 0x0, 0x0, 0xffffffff⟩] }
/-- PP_RS.word. -/
def PP_RS_word : Fld := ⟨PP_RS, 31, 0⟩

/-- PP_DEF. -/
def PP_DEF : RegSpec :=
  { off := 0x081000, dims := [(.pipes, 0x4000), (.lit 1024, 0x4)], journalled := false, kept := true,
    fields := [⟨31, 0, .rw, 0x0, 0x0, 0xffffffff⟩] }
/-- PP_DEF.word. -/
def PP_DEF_word : Fld := ⟨PP_DEF, 31, 0⟩

/-- PP_CAL. -/
def PP_CAL : RegSpec :=
  { off := 0x400000, dims := [(.pipes, 0x20000), (.lit 32768, 0x4)], journalled := false, kept := true,
    fields := [⟨31, 0, .rw, 0x40000000, 0x0, 0xffffffff⟩] }
/-- PP_CAL.word. -/
def PP_CAL_word : Fld := ⟨PP_CAL, 31, 0⟩

/-- CX_TUNE_MAP. -/
def CX_TUNE_MAP : RegSpec :=
  { off := 0x100000, dims := [(.lanes, 0x8)], journalled := true, kept := true,
    fields := [⟨7, 0, .rw, 0xff, 0x0, 0xff⟩, ⟨15, 8, .rw, 0xff, 0x0, 0xff⟩, ⟨23, 16, .rw, 0xff, 0x0, 0xff⟩,
      ⟨31, 24, .rw, 0xff, 0x0, 0xff⟩] }
/-- CX_TUNE_MAP.eq_addr. -/
def CX_TUNE_MAP_eq_addr : Fld := ⟨CX_TUNE_MAP, 7, 0⟩
/-- CX_TUNE_MAP.eye_addr. -/
def CX_TUNE_MAP_eye_addr : Fld := ⟨CX_TUNE_MAP, 15, 8⟩
/-- CX_TUNE_MAP.rate_addr. -/
def CX_TUNE_MAP_rate_addr : Fld := ⟨CX_TUNE_MAP, 23, 16⟩
/-- CX_TUNE_MAP.thr_addr. -/
def CX_TUNE_MAP_thr_addr : Fld := ⟨CX_TUNE_MAP, 31, 24⟩

/-- CX_TUNE_LIM. -/
def CX_TUNE_LIM : RegSpec :=
  { off := 0x100004, dims := [(.lanes, 0x8)], journalled := true, kept := true,
    fields := [⟨15, 0, .rw, 0x0, 0x0, 0xffff⟩, ⟨31, 16, .rw, 0xffff, 0x0, 0xffff⟩] }
/-- CX_TUNE_LIM.eq_lo. -/
def CX_TUNE_LIM_eq_lo : Fld := ⟨CX_TUNE_LIM, 15, 0⟩
/-- CX_TUNE_LIM.eq_hi. -/
def CX_TUNE_LIM_eq_hi : Fld := ⟨CX_TUNE_LIM, 31, 16⟩

/-- PP_GLOBAL. -/
def PP_GLOBAL : RegSpec :=
  { off := 0x100800, dims := [], journalled := false, kept := true,
    fields := [⟨3, 0, .rw, 0xc, 0x0, 0xf⟩] }
/-- PP_GLOBAL.qos. -/
def PP_GLOBAL_qos : Fld := ⟨PP_GLOBAL, 3, 0⟩

/-- PP_DEC_CTL. -/
def PP_DEC_CTL : RegSpec :=
  { off := 0x101000, dims := [(.lit 4, 0x40)], journalled := true, kept := true,
    fields := [⟨0, 0, .rw, 0x0, 0x0, 0x1⟩, ⟨5, 1, .rw, 0x0, 0x0, 0x1f⟩, ⟨6, 6, .rw, 0x0, 0x0, 0x1⟩,
      ⟨7, 7, .rw, 0x0, 0x0, 0x1⟩, ⟨8, 8, .rw, 0x0, 0x0, 0x1⟩, ⟨27, 12, .rw, 0x100, 0x10, 0xffff⟩] }
/-- PP_DEC_CTL.en. -/
def PP_DEC_CTL_en : Fld := ⟨PP_DEC_CTL, 0, 0⟩
/-- PP_DEC_CTL.pipe. -/
def PP_DEC_CTL_pipe : Fld := ⟨PP_DEC_CTL, 5, 1⟩
/-- PP_DEC_CTL.pace. -/
def PP_DEC_CTL_pace : Fld := ⟨PP_DEC_CTL, 6, 6⟩
/-- PP_DEC_CTL.stamp_rec. -/
def PP_DEC_CTL_stamp_rec : Fld := ⟨PP_DEC_CTL, 7, 7⟩
/-- PP_DEC_CTL.subst. -/
def PP_DEC_CTL_subst : Fld := ⟨PP_DEC_CTL, 8, 8⟩
/-- PP_DEC_CTL.gap_max. -/
def PP_DEC_CTL_gap_max : Fld := ⟨PP_DEC_CTL, 27, 12⟩

/-- PP_DEC_SRC. -/
def PP_DEC_SRC : RegSpec :=
  { off := 0x101004, dims := [(.lit 4, 0x40)], journalled := false, kept := true,
    fields := [⟨31, 0, .rw, 0x0, 0x0, 0xffffffff⟩] }
/-- PP_DEC_SRC.base. -/
def PP_DEC_SRC_base : Fld := ⟨PP_DEC_SRC, 31, 0⟩

/-- PP_DEC_IDX. -/
def PP_DEC_IDX : RegSpec :=
  { off := 0x101008, dims := [(.lit 4, 0x40)], journalled := false, kept := true,
    fields := [⟨11, 0, .rw, 0x0, 0x0, 0xfff⟩, ⟨27, 16, .ro, 0x0, 0x0, 0xfff⟩] }
/-- PP_DEC_IDX.src_prod. -/
def PP_DEC_IDX_src_prod : Fld := ⟨PP_DEC_IDX, 11, 0⟩
/-- PP_DEC_IDX.src_cons. -/
def PP_DEC_IDX_src_cons : Fld := ⟨PP_DEC_IDX, 27, 16⟩

/-- PP_DEC_SUBST_LO. -/
def PP_DEC_SUBST_LO : RegSpec :=
  { off := 0x10100c, dims := [(.lit 4, 0x40)], journalled := true, kept := true,
    fields := [⟨31, 0, .rw, 0x0, 0x0, 0xffffffff⟩] }
/-- PP_DEC_SUBST_LO.addr. -/
def PP_DEC_SUBST_LO_addr : Fld := ⟨PP_DEC_SUBST_LO, 31, 0⟩

/-- PP_DEC_SUBST_HI. -/
def PP_DEC_SUBST_HI : RegSpec :=
  { off := 0x101010, dims := [(.lit 4, 0x40)], journalled := true, kept := true,
    fields := [⟨7, 0, .rw, 0x0, 0x0, 0xff⟩] }
/-- PP_DEC_SUBST_HI.addr. -/
def PP_DEC_SUBST_HI_addr : Fld := ⟨PP_DEC_SUBST_HI, 7, 0⟩

/-- PP_DEC_WORK_LO. -/
def PP_DEC_WORK_LO : RegSpec :=
  { off := 0x101014, dims := [(.lit 4, 0x40)], journalled := true, kept := true,
    fields := [⟨31, 0, .rw, 0x0, 0x0, 0xffffffff⟩] }
/-- PP_DEC_WORK_LO.addr. -/
def PP_DEC_WORK_LO_addr : Fld := ⟨PP_DEC_WORK_LO, 31, 0⟩

/-- PP_DEC_WORK_HI. -/
def PP_DEC_WORK_HI : RegSpec :=
  { off := 0x101018, dims := [(.lit 4, 0x40)], journalled := true, kept := true,
    fields := [⟨7, 0, .rw, 0x0, 0x0, 0xff⟩, ⟨31, 8, .rw, 0x0, 0x0, 0xffffff⟩] }
/-- PP_DEC_WORK_HI.addr. -/
def PP_DEC_WORK_HI_addr : Fld := ⟨PP_DEC_WORK_HI, 7, 0⟩
/-- PP_DEC_WORK_HI.size. -/
def PP_DEC_WORK_HI_size : Fld := ⟨PP_DEC_WORK_HI, 31, 8⟩

/-- PP_DEC_STATUS. -/
def PP_DEC_STATUS : RegSpec :=
  { off := 0x10101c, dims := [(.lit 4, 0x40)], journalled := false, kept := true,
    fields := [⟨3, 0, .ro, 0x0, 0x0, 0xf⟩, ⟨31, 16, .ro, 0x0, 0x0, 0xffff⟩] }
/-- PP_DEC_STATUS.state. -/
def PP_DEC_STATUS_state : Fld := ⟨PP_DEC_STATUS, 3, 0⟩
/-- PP_DEC_STATUS.last_seq. -/
def PP_DEC_STATUS_last_seq : Fld := ⟨PP_DEC_STATUS, 31, 16⟩

/-- PP_DEC_ERR. -/
def PP_DEC_ERR : RegSpec :=
  { off := 0x101020, dims := [(.lit 4, 0x40)], journalled := false, kept := true,
    fields := [⟨15, 0, .rc, 0x0, 0x0, 0xffff⟩, ⟨31, 16, .rc, 0x0, 0x0, 0xffff⟩] }
/-- PP_DEC_ERR.skipped. -/
def PP_DEC_ERR_skipped : Fld := ⟨PP_DEC_ERR, 15, 0⟩
/-- PP_DEC_ERR.replaced. -/
def PP_DEC_ERR_replaced : Fld := ⟨PP_DEC_ERR, 31, 16⟩

/-- PP_DEC_QOS. -/
def PP_DEC_QOS : RegSpec :=
  { off := 0x101100, dims := [], journalled := false, kept := true,
    fields := [⟨3, 0, .rw, 0x4, 0x0, 0xf⟩] }
/-- PP_DEC_QOS.qos. -/
def PP_DEC_QOS_qos : Fld := ⟨PP_DEC_QOS, 3, 0⟩

/-- CR_CORE_CTL. -/
def CR_CORE_CTL : RegSpec :=
  { off := 0x200000, dims := [(.cores, 0x1000)], journalled := true, kept := false,
    fields := [⟨0, 0, .rw, 0x0, 0x0, 0x1⟩, ⟨1, 1, .rw, 0x0, 0x0, 0x1⟩] }
/-- CR_CORE_CTL.en. -/
def CR_CORE_CTL_en : Fld := ⟨CR_CORE_CTL, 0, 0⟩
/-- CR_CORE_CTL.drain. -/
def CR_CORE_CTL_drain : Fld := ⟨CR_CORE_CTL, 1, 1⟩

/-- CR_CORE_STATUS. -/
def CR_CORE_STATUS : RegSpec :=
  { off := 0x200004, dims := [(.cores, 0x1000)], journalled := false, kept := false,
    fields := [⟨1, 0, .ro, 0x0, 0x0, 0x3⟩, ⟨2, 2, .ro, 0x0, 0x0, 0x1⟩, ⟨31, 16, .ro, 0x0, 0x0, 0xffff⟩] }
/-- CR_CORE_STATUS.state. -/
def CR_CORE_STATUS_state : Fld := ⟨CR_CORE_STATUS, 1, 0⟩
/-- CR_CORE_STATUS.no_clock. -/
def CR_CORE_STATUS_no_clock : Fld := ⟨CR_CORE_STATUS, 2, 2⟩
/-- CR_CORE_STATUS.freq_mhz. -/
def CR_CORE_STATUS_freq_mhz : Fld := ⟨CR_CORE_STATUS, 31, 16⟩

/-- CR_ENG_STATUS. -/
def CR_ENG_STATUS : RegSpec :=
  { off := 0x200010, dims := [(.cores, 0x1000), (.lit 5, 0x4)], journalled := false, kept := false,
    fields := [⟨1, 0, .ro, 0x0, 0x0, 0x3⟩, ⟨8, 2, .ro, 0x0, 0x0, 0x7f⟩, ⟨20, 9, .ro, 0x0, 0x0, 0xfff⟩] }
/-- CR_ENG_STATUS.state. -/
def CR_ENG_STATUS_state : Fld := ⟨CR_ENG_STATUS, 1, 0⟩
/-- CR_ENG_STATUS.queued. -/
def CR_ENG_STATUS_queued : Fld := ⟨CR_ENG_STATUS, 8, 2⟩
/-- CR_ENG_STATUS.job. -/
def CR_ENG_STATUS_job : Fld := ⟨CR_ENG_STATUS, 20, 9⟩

/-- CR_ENG_PC. -/
def CR_ENG_PC : RegSpec :=
  { off := 0x200030, dims := [(.cores, 0x1000), (.lit 5, 0x4)], journalled := false, kept := false,
    fields := [⟨31, 0, .ro, 0x0, 0x0, 0xffffffff⟩] }
/-- CR_ENG_PC.pc. -/
def CR_ENG_PC_pc : Fld := ⟨CR_ENG_PC, 31, 0⟩

/-- CR_ERR. -/
def CR_ERR : RegSpec :=
  { off := 0x200050, dims := [(.cores, 0x1000)], journalled := false, kept := false,
    fields := [⟨15, 0, .rc, 0x0, 0x0, 0xffff⟩, ⟨31, 16, .rc, 0x0, 0x0, 0xffff⟩] }
/-- CR_ERR.watchdog. -/
def CR_ERR_watchdog : Fld := ⟨CR_ERR, 15, 0⟩
/-- CR_ERR.stray. -/
def CR_ERR_stray : Fld := ⟨CR_ERR, 31, 16⟩

/-- CR_ECC. -/
def CR_ECC : RegSpec :=
  { off := 0x200054, dims := [(.cores, 0x1000)], journalled := false, kept := false,
    fields := [⟨15, 0, .rc, 0x0, 0x0, 0xffff⟩, ⟨31, 16, .rc, 0x0, 0x0, 0xffff⟩] }
/-- CR_ECC.corrected. -/
def CR_ECC_corrected : Fld := ⟨CR_ECC, 15, 0⟩
/-- CR_ECC.uncorrected. -/
def CR_ECC_uncorrected : Fld := ⟨CR_ECC, 31, 16⟩

/-- CR_WIN. -/
def CR_WIN : RegSpec :=
  { off := 0x200080, dims := [(.cores, 0x1000), (.lit 12, 0x4)], journalled := false, kept := false,
    fields := [⟨11, 0, .ro, 0x0, 0x0, 0xfff⟩, ⟨19, 12, .ro, 0x0, 0x0, 0xff⟩, ⟨27, 20, .ro, 0x0, 0x0, 0xff⟩,
      ⟨31, 31, .ro, 0x0, 0x0, 0x1⟩] }
/-- CR_WIN.job. -/
def CR_WIN_job : Fld := ⟨CR_WIN, 11, 0⟩
/-- CR_WIN.base. -/
def CR_WIN_base : Fld := ⟨CR_WIN, 19, 12⟩
/-- CR_WIN.size. -/
def CR_WIN_size : Fld := ⟨CR_WIN, 27, 20⟩
/-- CR_WIN.valid. -/
def CR_WIN_valid : Fld := ⟨CR_WIN, 31, 31⟩

/-- CR_SYNC. -/
def CR_SYNC : RegSpec :=
  { off := 0x200400, dims := [(.cores, 0x1000), (.lit 256, 0x4)], journalled := false, kept := false,
    fields := [⟨31, 0, .rw, 0x0, 0x0, 0xffffffff⟩] }
/-- CR_SYNC.value. -/
def CR_SYNC_value : Fld := ⟨CR_SYNC, 31, 0⟩

/-- DS_SCHED_CTL. -/
def DS_SCHED_CTL : RegSpec :=
  { off := 0x220000, dims := [], journalled := true, kept := true,
    fields := [⟨0, 0, .rw, 0x0, 0x0, 0x1⟩, ⟨7, 1, .rw, 0x5a, 0x0, 0x64⟩, ⟨11, 8, .rw, 0x4, 0x1, 0x8⟩,
      ⟨17, 12, .rw, 0x10, 0x0, 0x20⟩] }
/-- DS_SCHED_CTL.en. -/
def DS_SCHED_CTL_en : Fld := ⟨DS_SCHED_CTL, 0, 0⟩
/-- DS_SCHED_CTL.admit_pct. -/
def DS_SCHED_CTL_admit_pct : Fld := ⟨DS_SCHED_CTL, 7, 1⟩
/-- DS_SCHED_CTL.seg_ahead. -/
def DS_SCHED_CTL_seg_ahead : Fld := ⟨DS_SCHED_CTL, 11, 8⟩
/-- DS_SCHED_CTL.lc_reserve. -/
def DS_SCHED_CTL_lc_reserve : Fld := ⟨DS_SCHED_CTL, 17, 12⟩

/-- DS_HORIZON. -/
def DS_HORIZON : RegSpec :=
  { off := 0x220004, dims := [], journalled := true, kept := true,
    fields := [⟨15, 0, .rw, 0x3e8, 0x1, 0xffff⟩] }
/-- DS_HORIZON.horizon_ms. -/
def DS_HORIZON_horizon_ms : Fld := ⟨DS_HORIZON, 15, 0⟩

/-- DS_BACKSTOP. -/
def DS_BACKSTOP : RegSpec :=
  { off := 0x220008, dims := [], journalled := true, kept := true,
    fields := [⟨15, 0, .rw, 0x2710, 0x64, 0xffff⟩] }
/-- DS_BACKSTOP.backstop_ms. -/
def DS_BACKSTOP_backstop_ms : Fld := ⟨DS_BACKSTOP, 15, 0⟩

/-- DS_STARVE. -/
def DS_STARVE : RegSpec :=
  { off := 0x22000c, dims := [], journalled := true, kept := true,
    fields := [⟨15, 0, .rw, 0x64, 0x1, 0xffff⟩] }
/-- DS_STARVE.starve_ms. -/
def DS_STARVE_starve_ms : Fld := ⟨DS_STARVE, 15, 0⟩

/-- DS_CANCEL. -/
def DS_CANCEL : RegSpec :=
  { off := 0x220010, dims := [], journalled := false, kept := true,
    fields := [⟨7, 0, .wo, 0x0, 0x0, 0xff⟩, ⟨23, 8, .wo, 0x0, 0x0, 0xffff⟩, ⟨31, 31, .wo, 0x0, 0x0, 0x1⟩] }
/-- DS_CANCEL.ring. -/
def DS_CANCEL_ring : Fld := ⟨DS_CANCEL, 7, 0⟩
/-- DS_CANCEL.index. -/
def DS_CANCEL_index : Fld := ⟨DS_CANCEL, 23, 8⟩
/-- DS_CANCEL.all. -/
def DS_CANCEL_all : Fld := ⟨DS_CANCEL, 31, 31⟩

/-- DS_CANCEL_JOB. -/
def DS_CANCEL_JOB : RegSpec :=
  { off := 0x220014, dims := [], journalled := false, kept := true,
    fields := [⟨11, 0, .wo, 0x0, 0x0, 0xfff⟩] }
/-- DS_CANCEL_JOB.job. -/
def DS_CANCEL_JOB_job : Fld := ⟨DS_CANCEL_JOB, 11, 0⟩

/-- DS_CANCEL_RESULT. -/
def DS_CANCEL_RESULT : RegSpec :=
  { off := 0x220018, dims := [], journalled := false, kept := false,
    fields := [⟨1, 0, .ro, 0x0, 0x0, 0x3⟩] }
/-- DS_CANCEL_RESULT.result. -/
def DS_CANCEL_RESULT_result : Fld := ⟨DS_CANCEL_RESULT, 1, 0⟩

/-- DS_STATUS. -/
def DS_STATUS : RegSpec :=
  { off := 0x22001c, dims := [], journalled := false, kept := false,
    fields := [⟨12, 0, .ro, 0x0, 0x0, 0x1fff⟩, ⟨25, 13, .ro, 0x0, 0x0, 0x1fff⟩] }
/-- DS_STATUS.lc_jobs. -/
def DS_STATUS_lc_jobs : Fld := ⟨DS_STATUS, 12, 0⟩
/-- DS_STATUS.be_jobs. -/
def DS_STATUS_be_jobs : Fld := ⟨DS_STATUS, 25, 13⟩

/-- DS_ERR. -/
def DS_ERR : RegSpec :=
  { off := 0x220020, dims := [], journalled := false, kept := false,
    fields := [⟨15, 0, .rc, 0x0, 0x0, 0xffff⟩, ⟨31, 16, .rc, 0x0, 0x0, 0xffff⟩] }
/-- DS_ERR.missed. -/
def DS_ERR_missed : Fld := ⟨DS_ERR, 15, 0⟩
/-- DS_ERR.refused. -/
def DS_ERR_refused : Fld := ⟨DS_ERR, 31, 16⟩

/-- DS_RING_CTL. -/
def DS_RING_CTL : RegSpec :=
  { off := 0x220400, dims := [(.rings, 0x4)], journalled := true, kept := true,
    fields := [⟨0, 0, .rw, 0x0, 0x0, 0x1⟩, ⟨2, 1, .rw, 0x0, 0x0, 0x2⟩, ⟨3, 3, .rw, 0x0, 0x0, 0x1⟩,
      ⟨11, 4, .rw, 0x1, 0x1, 0xff⟩, ⟨31, 12, .rw, 0x3e8, 0x1, 0xf4240⟩] }
/-- DS_RING_CTL.en. -/
def DS_RING_CTL_en : Fld := ⟨DS_RING_CTL, 0, 0⟩
/-- DS_RING_CTL.mode. -/
def DS_RING_CTL_mode : Fld := ⟨DS_RING_CTL, 2, 1⟩
/-- DS_RING_CTL.miss_policy. -/
def DS_RING_CTL_miss_policy : Fld := ⟨DS_RING_CTL, 3, 3⟩
/-- DS_RING_CTL.weight. -/
def DS_RING_CTL_weight : Fld := ⟨DS_RING_CTL, 11, 4⟩
/-- DS_RING_CTL.rel_deadline_us. -/
def DS_RING_CTL_rel_deadline_us : Fld := ⟨DS_RING_CTL, 31, 12⟩

/-- DS_RCP_CTL. -/
def DS_RCP_CTL : RegSpec :=
  { off := 0x220800, dims := [(.lit 16, 0x10)], journalled := true, kept := false,
    fields := [⟨0, 0, .rw, 0x0, 0x0, 0x1⟩] }
/-- DS_RCP_CTL.run. -/
def DS_RCP_CTL_run : Fld := ⟨DS_RCP_CTL, 0, 0⟩

/-- DS_RCP_STATUS. -/
def DS_RCP_STATUS : RegSpec :=
  { off := 0x220804, dims := [(.lit 16, 0x10)], journalled := false, kept := false,
    fields := [⟨0, 0, .ro, 0x0, 0x0, 0x1⟩, ⟨1, 1, .ro, 0x0, 0x0, 0x1⟩, ⟨13, 2, .ro, 0x0, 0x0, 0xfff⟩,
      ⟨22, 14, .ro, 0x0, 0x0, 0x1ff⟩] }
/-- DS_RCP_STATUS.loaded. -/
def DS_RCP_STATUS_loaded : Fld := ⟨DS_RCP_STATUS, 0, 0⟩
/-- DS_RCP_STATUS.owner. -/
def DS_RCP_STATUS_owner : Fld := ⟨DS_RCP_STATUS, 1, 1⟩
/-- DS_RCP_STATUS.parts. -/
def DS_RCP_STATUS_parts : Fld := ⟨DS_RCP_STATUS, 13, 2⟩
/-- DS_RCP_STATUS.shadow. -/
def DS_RCP_STATUS_shadow : Fld := ⟨DS_RCP_STATUS, 22, 14⟩

/-- DS_RCP_STEP. -/
def DS_RCP_STEP : RegSpec :=
  { off := 0x220808, dims := [(.lit 16, 0x10)], journalled := false, kept := false,
    fields := [⟨31, 0, .ro, 0x0, 0x0, 0xffffffff⟩] }
/-- DS_RCP_STEP.step. -/
def DS_RCP_STEP_step : Fld := ⟨DS_RCP_STEP, 31, 0⟩

/-- DS_RCP_ERR. -/
def DS_RCP_ERR : RegSpec :=
  { off := 0x22080c, dims := [(.lit 16, 0x10)], journalled := false, kept := false,
    fields := [⟨7, 0, .rc, 0x0, 0x0, 0xff⟩, ⟨15, 8, .rc, 0x0, 0x0, 0xff⟩, ⟨23, 16, .rc, 0x0, 0x0, 0xff⟩,
      ⟨31, 24, .rc, 0x0, 0x0, 0xff⟩] }
/-- DS_RCP_ERR.deadline. -/
def DS_RCP_ERR_deadline : Fld := ⟨DS_RCP_ERR, 7, 0⟩
/-- DS_RCP_ERR.refused. -/
def DS_RCP_ERR_refused : Fld := ⟨DS_RCP_ERR, 15, 8⟩
/-- DS_RCP_ERR.input. -/
def DS_RCP_ERR_input : Fld := ⟨DS_RCP_ERR, 23, 16⟩
/-- DS_RCP_ERR.marks_late. -/
def DS_RCP_ERR_marks_late : Fld := ⟨DS_RCP_ERR, 31, 24⟩

/-- FB_REMAP. -/
def FB_REMAP : RegSpec :=
  { off := 0x230000, dims := [], journalled := false, kept := false,
    fields := [⟨0, 0, .rw, 0x0, 0x0, 0x1⟩] }
/-- FB_REMAP.remap. -/
def FB_REMAP_remap : Fld := ⟨FB_REMAP, 0, 0⟩

/-- FB_ARB. -/
def FB_ARB : RegSpec :=
  { off := 0x230004, dims := [], journalled := true, kept := true,
    fields := [⟨7, 0, .rw, 0x40, 0x10, 0xff⟩] }
/-- FB_ARB.age_step. -/
def FB_ARB_age_step : Fld := ⟨FB_ARB, 7, 0⟩

/-- FB_SCRUB. -/
def FB_SCRUB : RegSpec :=
  { off := 0x230008, dims := [], journalled := true, kept := true,
    fields := [⟨15, 0, .rw, 0xa, 0x1, 0xe10⟩, ⟨31, 16, .rw, 0xe10, 0x3c, 0xffff⟩] }
/-- FB_SCRUB.hoard_s. -/
def FB_SCRUB_hoard_s : Fld := ⟨FB_SCRUB, 15, 0⟩
/-- FB_SCRUB.burrow_s. -/
def FB_SCRUB_burrow_s : Fld := ⟨FB_SCRUB, 31, 16⟩

/-- FB_SCRUB_STATUS. -/
def FB_SCRUB_STATUS : RegSpec :=
  { off := 0x23000c, dims := [], journalled := false, kept := true,
    fields := [⟨15, 0, .ro, 0x0, 0x0, 0xffff⟩, ⟨31, 16, .ro, 0x0, 0x0, 0xffff⟩] }
/-- FB_SCRUB_STATUS.hoard_passes. -/
def FB_SCRUB_STATUS_hoard_passes : Fld := ⟨FB_SCRUB_STATUS, 15, 0⟩
/-- FB_SCRUB_STATUS.burrow_passes. -/
def FB_SCRUB_STATUS_burrow_passes : Fld := ⟨FB_SCRUB_STATUS, 31, 16⟩

/-- FB_HOARD_ECC. -/
def FB_HOARD_ECC : RegSpec :=
  { off := 0x230010, dims := [], journalled := false, kept := true,
    fields := [⟨15, 0, .rc, 0x0, 0x0, 0xffff⟩, ⟨31, 16, .rc, 0x0, 0x0, 0xffff⟩] }
/-- FB_HOARD_ECC.corrected. -/
def FB_HOARD_ECC_corrected : Fld := ⟨FB_HOARD_ECC, 15, 0⟩
/-- FB_HOARD_ECC.uncorrected. -/
def FB_HOARD_ECC_uncorrected : Fld := ⟨FB_HOARD_ECC, 31, 16⟩

/-- FB_HOARD_ECC_ADDR. -/
def FB_HOARD_ECC_ADDR : RegSpec :=
  { off := 0x230014, dims := [], journalled := false, kept := true,
    fields := [⟨31, 0, .ro, 0x0, 0x0, 0xffffffff⟩] }
/-- FB_HOARD_ECC_ADDR.offset. -/
def FB_HOARD_ECC_ADDR_offset : Fld := ⟨FB_HOARD_ECC_ADDR, 31, 0⟩

/-- FB_UNMAPPED_ADDR_LO. -/
def FB_UNMAPPED_ADDR_LO : RegSpec :=
  { off := 0x230018, dims := [], journalled := false, kept := true,
    fields := [⟨31, 0, .ro, 0x0, 0x0, 0xffffffff⟩] }
/-- FB_UNMAPPED_ADDR_LO.addr. -/
def FB_UNMAPPED_ADDR_LO_addr : Fld := ⟨FB_UNMAPPED_ADDR_LO, 31, 0⟩

/-- FB_UNMAPPED_ADDR_HI. -/
def FB_UNMAPPED_ADDR_HI : RegSpec :=
  { off := 0x23001c, dims := [], journalled := false, kept := true,
    fields := [⟨7, 0, .ro, 0x0, 0x0, 0xff⟩] }
/-- FB_UNMAPPED_ADDR_HI.addr. -/
def FB_UNMAPPED_ADDR_HI_addr : Fld := ⟨FB_UNMAPPED_ADDR_HI, 7, 0⟩

/-- FB_UNMAPPED_INFO. -/
def FB_UNMAPPED_INFO : RegSpec :=
  { off := 0x230020, dims := [], journalled := false, kept := true,
    fields := [⟨6, 0, .ro, 0x0, 0x0, 0x7f⟩, ⟨7, 7, .ro, 0x0, 0x0, 0x1⟩, ⟨15, 8, .rc, 0x0, 0x0, 0xff⟩,
      ⟨31, 31, .w1c, 0x0, 0x0, 0x1⟩] }
/-- FB_UNMAPPED_INFO.master. -/
def FB_UNMAPPED_INFO_master : Fld := ⟨FB_UNMAPPED_INFO, 6, 0⟩
/-- FB_UNMAPPED_INFO.write. -/
def FB_UNMAPPED_INFO_write : Fld := ⟨FB_UNMAPPED_INFO, 7, 7⟩
/-- FB_UNMAPPED_INFO.count. -/
def FB_UNMAPPED_INFO_count : Fld := ⟨FB_UNMAPPED_INFO, 15, 8⟩
/-- FB_UNMAPPED_INFO.valid. -/
def FB_UNMAPPED_INFO_valid : Fld := ⟨FB_UNMAPPED_INFO, 31, 31⟩

/-- FB_PORT_RST. -/
def FB_PORT_RST : RegSpec :=
  { off := 0x230024, dims := [], journalled := false, kept := true,
    fields := [⟨6, 0, .wo, 0x0, 0x0, 0x7f⟩, ⟨7, 7, .wo, 0x0, 0x0, 0x1⟩, ⟨31, 31, .wo, 0x0, 0x0, 0x1⟩] }
/-- FB_PORT_RST.id. -/
def FB_PORT_RST_id : Fld := ⟨FB_PORT_RST, 6, 0⟩
/-- FB_PORT_RST.target. -/
def FB_PORT_RST_target : Fld := ⟨FB_PORT_RST, 7, 7⟩
/-- FB_PORT_RST.go. -/
def FB_PORT_RST_go : Fld := ⟨FB_PORT_RST, 31, 31⟩

/-- FB_MST_QOS. -/
def FB_MST_QOS : RegSpec :=
  { off := 0x230100, dims := [(.lit 48, 0x4)], journalled := true, kept := true,
    fields := [⟨3, 0, .rw, 0x0, 0x0, 0xf⟩] }
/-- FB_MST_QOS.qos. -/
def FB_MST_QOS_qos : Fld := ⟨FB_MST_QOS, 3, 0⟩

/-- FB_TGT_PARK. -/
def FB_TGT_PARK : RegSpec :=
  { off := 0x230200, dims := [(.lit 107, 0x4)], journalled := true, kept := true,
    fields := [⟨6, 0, .rw, 0x7f, 0x0, 0x7f⟩] }
/-- FB_TGT_PARK.master. -/
def FB_TGT_PARK_master : Fld := ⟨FB_TGT_PARK, 6, 0⟩

/-- FB_PORT_STATUS. -/
def FB_PORT_STATUS : RegSpec :=
  { off := 0x230400, dims := [(.lit 48, 0x4)], journalled := false, kept := true,
    fields := [⟨6, 0, .ro, 0x0, 0x0, 0x7f⟩, ⟨7, 7, .ro, 0x0, 0x0, 0x1⟩, ⟨8, 8, .ro, 0x0, 0x0, 0x1⟩] }
/-- FB_PORT_STATUS.outstanding. -/
def FB_PORT_STATUS_outstanding : Fld := ⟨FB_PORT_STATUS, 6, 0⟩
/-- FB_PORT_STATUS.hung. -/
def FB_PORT_STATUS_hung : Fld := ⟨FB_PORT_STATUS, 7, 7⟩
/-- FB_PORT_STATUS.in_reset. -/
def FB_PORT_STATUS_in_reset : Fld := ⟨FB_PORT_STATUS, 8, 8⟩

/-- FB_BRW_CFG. -/
def FB_BRW_CFG : RegSpec :=
  { off := 0x230800, dims := [(.burrow, 0x20)], journalled := true, kept := true,
    fields := [⟨6, 0, .rw, 0x0, 0x1, 0x40⟩, ⟨8, 8, .rw, 0x0, 0x0, 0x1⟩, ⟨9, 9, .wo, 0x0, 0x0, 0x1⟩] }
/-- FB_BRW_CFG.size. -/
def FB_BRW_CFG_size : Fld := ⟨FB_BRW_CFG, 6, 0⟩
/-- FB_BRW_CFG.open. -/
def FB_BRW_CFG_open : Fld := ⟨FB_BRW_CFG, 8, 8⟩
/-- FB_BRW_CFG.init. -/
def FB_BRW_CFG_init : Fld := ⟨FB_BRW_CFG, 9, 9⟩

/-- FB_BRW_STATUS. -/
def FB_BRW_STATUS : RegSpec :=
  { off := 0x230804, dims := [(.burrow, 0x20)], journalled := false, kept := true,
    fields := [⟨0, 0, .ro, 0x0, 0x0, 0x1⟩, ⟨7, 1, .ro, 0x0, 0x0, 0x7f⟩, ⟨8, 8, .ro, 0x0, 0x0, 0x1⟩,
      ⟨9, 9, .ro, 0x0, 0x0, 0x1⟩, ⟨10, 10, .ro, 0x0, 0x0, 0x1⟩, ⟨24, 16, .ro, 0x0, 0x0, 0x1ff⟩] }
/-- FB_BRW_STATUS.phy_ready. -/
def FB_BRW_STATUS_phy_ready : Fld := ⟨FB_BRW_STATUS, 0, 0⟩
/-- FB_BRW_STATUS.size_in. -/
def FB_BRW_STATUS_size_in : Fld := ⟨FB_BRW_STATUS, 7, 1⟩
/-- FB_BRW_STATUS.init_busy. -/
def FB_BRW_STATUS_init_busy : Fld := ⟨FB_BRW_STATUS, 8, 8⟩
/-- FB_BRW_STATUS.stalled. -/
def FB_BRW_STATUS_stalled : Fld := ⟨FB_BRW_STATUS, 9, 9⟩
/-- FB_BRW_STATUS.in_reset. -/
def FB_BRW_STATUS_in_reset : Fld := ⟨FB_BRW_STATUS, 10, 10⟩
/-- FB_BRW_STATUS.outstanding. -/
def FB_BRW_STATUS_outstanding : Fld := ⟨FB_BRW_STATUS, 24, 16⟩

/-- FB_BRW_ERR. -/
def FB_BRW_ERR : RegSpec :=
  { off := 0x230808, dims := [(.burrow, 0x20)], journalled := false, kept := true,
    fields := [⟨15, 0, .rc, 0x0, 0x0, 0xffff⟩, ⟨31, 16, .rc, 0x0, 0x0, 0xffff⟩] }
/-- FB_BRW_ERR.corrected. -/
def FB_BRW_ERR_corrected : Fld := ⟨FB_BRW_ERR, 15, 0⟩
/-- FB_BRW_ERR.uncorrected. -/
def FB_BRW_ERR_uncorrected : Fld := ⟨FB_BRW_ERR, 31, 16⟩

/-- FB_BRW_ECC_ADDR_LO. -/
def FB_BRW_ECC_ADDR_LO : RegSpec :=
  { off := 0x23080c, dims := [(.burrow, 0x20)], journalled := false, kept := true,
    fields := [⟨31, 0, .ro, 0x0, 0x0, 0xffffffff⟩] }
/-- FB_BRW_ECC_ADDR_LO.block. -/
def FB_BRW_ECC_ADDR_LO_block : Fld := ⟨FB_BRW_ECC_ADDR_LO, 31, 0⟩

/-- FB_BRW_ECC_ADDR_HI. -/
def FB_BRW_ECC_ADDR_HI : RegSpec :=
  { off := 0x230810, dims := [(.burrow, 0x20)], journalled := false, kept := true,
    fields := [⟨3, 0, .ro, 0x0, 0x0, 0xf⟩] }
/-- FB_BRW_ECC_ADDR_HI.block. -/
def FB_BRW_ECC_ADDR_HI_block : Fld := ⟨FB_BRW_ECC_ADDR_HI, 3, 0⟩

/-- QP_CTL. -/
def QP_CTL : RegSpec :=
  { off := 0x240000, dims := [(.quill, 0x400)], journalled := true, kept := true,
    fields := [⟨0, 0, .rw, 0x0, 0x0, 0x1⟩, ⟨1, 1, .rw, 0x0, 0x0, 0x1⟩, ⟨2, 2, .rw, 0x0, 0x0, 0x1⟩] }
/-- QP_CTL.en. -/
def QP_CTL_en : Fld := ⟨QP_CTL, 0, 0⟩
/-- QP_CTL.ais_force. -/
def QP_CTL_ais_force : Fld := ⟨QP_CTL, 1, 1⟩
/-- QP_CTL.tim_en. -/
def QP_CTL_tim_en : Fld := ⟨QP_CTL, 2, 2⟩

/-- QP_BER. -/
def QP_BER : RegSpec :=
  { off := 0x240004, dims := [(.quill, 0x400)], journalled := true, kept := true,
    fields := [⟨15, 0, .rw, 0xf0, 0x1, 0xffff⟩, ⟨31, 16, .rw, 0xf0, 0xa, 0xffff⟩] }
/-- QP_BER.sd_thr. -/
def QP_BER_sd_thr : Fld := ⟨QP_BER, 15, 0⟩
/-- QP_BER.sf_thr. -/
def QP_BER_sf_thr : Fld := ⟨QP_BER, 31, 16⟩

/-- QP_TRACE_EXP_LO. -/
def QP_TRACE_EXP_LO : RegSpec :=
  { off := 0x240008, dims := [(.quill, 0x400)], journalled := true, kept := true,
    fields := [⟨11, 0, .rw, 0x0, 0x0, 0xfff⟩, ⟨15, 12, .rw, 0x0, 0x0, 0xf⟩] }
/-- QP_TRACE_EXP_LO.chip. -/
def QP_TRACE_EXP_LO_chip : Fld := ⟨QP_TRACE_EXP_LO, 11, 0⟩
/-- QP_TRACE_EXP_LO.port. -/
def QP_TRACE_EXP_LO_port : Fld := ⟨QP_TRACE_EXP_LO, 15, 12⟩

/-- QP_TRACE_EXP_HI. -/
def QP_TRACE_EXP_HI : RegSpec :=
  { off := 0x24000c, dims := [(.quill, 0x400)], journalled := true, kept := true,
    fields := [⟨31, 0, .rw, 0x0, 0x0, 0xffffffff⟩] }
/-- QP_TRACE_EXP_HI.tag. -/
def QP_TRACE_EXP_HI_tag : Fld := ⟨QP_TRACE_EXP_HI, 31, 0⟩

/-- QP_TRACE_RX_LO. -/
def QP_TRACE_RX_LO : RegSpec :=
  { off := 0x240010, dims := [(.quill, 0x400)], journalled := false, kept := true,
    fields := [⟨11, 0, .ro, 0x0, 0x0, 0xfff⟩, ⟨15, 12, .ro, 0x0, 0x0, 0xf⟩, ⟨16, 16, .ro, 0x0, 0x0, 0x1⟩] }
/-- QP_TRACE_RX_LO.chip. -/
def QP_TRACE_RX_LO_chip : Fld := ⟨QP_TRACE_RX_LO, 11, 0⟩
/-- QP_TRACE_RX_LO.port. -/
def QP_TRACE_RX_LO_port : Fld := ⟨QP_TRACE_RX_LO, 15, 12⟩
/-- QP_TRACE_RX_LO.valid. -/
def QP_TRACE_RX_LO_valid : Fld := ⟨QP_TRACE_RX_LO, 16, 16⟩

/-- QP_TRACE_RX_HI. -/
def QP_TRACE_RX_HI : RegSpec :=
  { off := 0x240014, dims := [(.quill, 0x400)], journalled := false, kept := true,
    fields := [⟨31, 0, .ro, 0x0, 0x0, 0xffffffff⟩] }
/-- QP_TRACE_RX_HI.tag. -/
def QP_TRACE_RX_HI_tag : Fld := ⟨QP_TRACE_RX_HI, 31, 0⟩

/-- QP_DESKEW. -/
def QP_DESKEW : RegSpec :=
  { off := 0x240018, dims := [(.quill, 0x400)], journalled := true, kept := true,
    fields := [⟨31, 0, .rw, 0x0, 0x0, 0xffffffff⟩] }
/-- QP_DESKEW.base. -/
def QP_DESKEW_base : Fld := ⟨QP_DESKEW, 31, 0⟩

/-- QP_STATUS. -/
def QP_STATUS : RegSpec :=
  { off := 0x24001c, dims := [(.quill, 0x400)], journalled := false, kept := true,
    fields := [⟨1, 0, .ro, 0x0, 0x0, 0x3⟩, ⟨9, 2, .ro, 0x0, 0x0, 0xff⟩, ⟨10, 10, .ro, 0x0, 0x0, 0x1⟩,
      ⟨11, 11, .ro, 0x0, 0x0, 0x1⟩] }
/-- QP_STATUS.fsm. -/
def QP_STATUS_fsm : Fld := ⟨QP_STATUS, 1, 0⟩
/-- QP_STATUS.defects. -/
def QP_STATUS_defects : Fld := ⟨QP_STATUS, 9, 2⟩
/-- QP_STATUS.rdi_tx. -/
def QP_STATUS_rdi_tx : Fld := ⟨QP_STATUS, 10, 10⟩
/-- QP_STATUS.ais_tx. -/
def QP_STATUS_ais_tx : Fld := ⟨QP_STATUS, 11, 11⟩

/-- QP_DEFECT_HIST. -/
def QP_DEFECT_HIST : RegSpec :=
  { off := 0x240020, dims := [(.quill, 0x400)], journalled := false, kept := true,
    fields := [⟨9, 2, .w1c, 0x0, 0x0, 0xff⟩] }
/-- QP_DEFECT_HIST.defects. -/
def QP_DEFECT_HIST_defects : Fld := ⟨QP_DEFECT_HIST, 9, 2⟩

/-- QP_BIP. -/
def QP_BIP : RegSpec :=
  { off := 0x240024, dims := [(.quill, 0x400)], journalled := false, kept := true,
    fields := [⟨31, 0, .rc, 0x0, 0x0, 0xffffffff⟩] }
/-- QP_BIP.count. -/
def QP_BIP_count : Fld := ⟨QP_BIP, 31, 0⟩

/-- QP_REI. -/
def QP_REI : RegSpec :=
  { off := 0x240028, dims := [(.quill, 0x400)], journalled := false, kept := true,
    fields := [⟨31, 0, .rc, 0x0, 0x0, 0xffffffff⟩] }
/-- QP_REI.count. -/
def QP_REI_count : Fld := ⟨QP_REI, 31, 0⟩

/-- QP_ERR. -/
def QP_ERR : RegSpec :=
  { off := 0x24002c, dims := [(.quill, 0x400)], journalled := false, kept := true,
    fields := [⟨7, 0, .rc, 0x0, 0x0, 0xff⟩, ⟨15, 8, .rc, 0x0, 0x0, 0xff⟩, ⟨31, 16, .rc, 0x0, 0x0, 0xffff⟩] }
/-- QP_ERR.faw_err. -/
def QP_ERR_faw_err : Fld := ⟨QP_ERR, 7, 0⟩
/-- QP_ERR.mfi_slip. -/
def QP_ERR_mfi_slip : Fld := ⟨QP_ERR, 15, 8⟩
/-- QP_ERR.crc. -/
def QP_ERR_crc : Fld := ⟨QP_ERR, 31, 16⟩

/-- QP_TUNE_MAP; rate_addr and thr_addr are reserved for a Quill port and so read 0 (R11, log 76). -/
def QP_TUNE_MAP : RegSpec :=
  { off := 0x240080, dims := [(.quill, 0x400)], journalled := true, kept := true,
    fields := [⟨7, 0, .rw, 0xff, 0x0, 0xff⟩, ⟨15, 8, .rw, 0xff, 0x0, 0xff⟩] }
/-- QP_TUNE_MAP.eq_addr. -/
def QP_TUNE_MAP_eq_addr : Fld := ⟨QP_TUNE_MAP, 7, 0⟩
/-- QP_TUNE_MAP.eye_addr. -/
def QP_TUNE_MAP_eye_addr : Fld := ⟨QP_TUNE_MAP, 15, 8⟩

/-- QP_TUNE_LIM. -/
def QP_TUNE_LIM : RegSpec :=
  { off := 0x240084, dims := [(.quill, 0x400)], journalled := true, kept := true,
    fields := [⟨15, 0, .rw, 0x0, 0x0, 0xffff⟩, ⟨31, 16, .rw, 0xffff, 0x0, 0xffff⟩] }
/-- QP_TUNE_LIM.eq_lo. -/
def QP_TUNE_LIM_eq_lo : Fld := ⟨QP_TUNE_LIM, 15, 0⟩
/-- QP_TUNE_LIM.eq_hi. -/
def QP_TUNE_LIM_eq_hi : Fld := ⟨QP_TUNE_LIM, 31, 16⟩

/-- QP_SLOT. -/
def QP_SLOT : RegSpec :=
  { off := 0x240100, dims := [(.quill, 0x400), (.lit 24, 0x4)], journalled := false, kept := true,
    fields := [⟨1, 0, .ro, 0x0, 0x0, 0x3⟩, ⟨2, 2, .ro, 0x0, 0x0, 0x1⟩, ⟨3, 3, .ro, 0x0, 0x0, 0x1⟩,
      ⟨4, 4, .ro, 0x0, 0x0, 0x1⟩, ⟨9, 5, .ro, 0x0, 0x0, 0x1f⟩, ⟨31, 16, .ro, 0x0, 0x0, 0xffff⟩] }
/-- QP_SLOT.role. -/
def QP_SLOT_role : Fld := ⟨QP_SLOT, 1, 0⟩
/-- QP_SLOT.healthy. -/
def QP_SLOT_healthy : Fld := ⟨QP_SLOT, 2, 2⟩
/-- QP_SLOT.far_ok. -/
def QP_SLOT_far_ok : Fld := ⟨QP_SLOT, 3, 3⟩
/-- QP_SLOT.in_map. -/
def QP_SLOT_in_map : Fld := ⟨QP_SLOT, 4, 4⟩
/-- QP_SLOT.sq. -/
def QP_SLOT_sq : Fld := ⟨QP_SLOT, 9, 5⟩
/-- QP_SLOT.delay. -/
def QP_SLOT_delay : Fld := ⟨QP_SLOT, 31, 16⟩

/-- QP_GRP_CFG. -/
def QP_GRP_CFG : RegSpec :=
  { off := 0x243000, dims := [], journalled := true, kept := true,
    fields := [⟨10, 0, .rw, 0x100, 0x40, 0x7ff⟩, ⟨18, 11, .rw, 0x80, 0x8, 0x80⟩,
      ⟨31, 19, .rw, 0x64, 0x1, 0x1fff⟩] }
/-- QP_GRP_CFG.lead. -/
def QP_GRP_CFG_lead : Fld := ⟨QP_GRP_CFG, 10, 0⟩
/-- QP_GRP_CFG.dd_max. -/
def QP_GRP_CFG_dd_max : Fld := ⟨QP_GRP_CFG, 18, 11⟩
/-- QP_GRP_CFG.restore_ms. -/
def QP_GRP_CFG_restore_ms : Fld := ⟨QP_GRP_CFG, 31, 19⟩

/-- QP_MACHINE_TAG. -/
def QP_MACHINE_TAG : RegSpec :=
  { off := 0x243004, dims := [], journalled := true, kept := true,
    fields := [⟨31, 0, .rw, 0x0, 0x0, 0xffffffff⟩] }
/-- QP_MACHINE_TAG.tag. -/
def QP_MACHINE_TAG_tag : Fld := ⟨QP_MACHINE_TAG, 31, 0⟩

/-- QM_ID. -/
def QM_ID : RegSpec :=
  { off := 0x250000, dims := [], journalled := true, kept := true,
    fields := [⟨11, 0, .rw, 0x0, 0x0, 0xfff⟩, ⟨15, 12, .rw, 0x0, 0x0, 0xf⟩] }
/-- QM_ID.chip. -/
def QM_ID_chip : Fld := ⟨QM_ID, 11, 0⟩
/-- QM_ID.dim. -/
def QM_ID_dim : Fld := ⟨QM_ID, 15, 12⟩

/-- QM_CTL. -/
def QM_CTL : RegSpec :=
  { off := 0x250004, dims := [], journalled := true, kept := true,
    fields := [⟨0, 0, .rw, 0x0, 0x0, 0x1⟩] }
/-- QM_CTL.en. -/
def QM_CTL_en : Fld := ⟨QM_CTL, 0, 0⟩

/-- QM_TIMERS. -/
def QM_TIMERS : RegSpec :=
  { off := 0x250008, dims := [], journalled := true, kept := true,
    fields := [⟨15, 0, .rw, 0x1f4, 0xa, 0xffff⟩, ⟨23, 16, .rw, 0x5, 0x1, 0xff⟩,
      ⟨31, 24, .rw, 0x14, 0x1, 0xff⟩] }
/-- QM_TIMERS.rto_us. -/
def QM_TIMERS_rto_us : Fld := ⟨QM_TIMERS, 15, 0⟩
/-- QM_TIMERS.e2e_ms. -/
def QM_TIMERS_e2e_ms : Fld := ⟨QM_TIMERS, 23, 16⟩
/-- QM_TIMERS.plan_hold_ms. -/
def QM_TIMERS_plan_hold_ms : Fld := ⟨QM_TIMERS, 31, 24⟩

/-- QM_BUF. -/
def QM_BUF : RegSpec :=
  { off := 0x25000c, dims := [], journalled := true, kept := true,
    fields := [⟨31, 0, .rw, 0x0, 0x0, 0xffffffff⟩] }
/-- QM_BUF.base. -/
def QM_BUF_base : Fld := ⟨QM_BUF, 31, 0⟩

/-- QM_MEMBER_CMD. -/
def QM_MEMBER_CMD : RegSpec :=
  { off := 0x250010, dims := [], journalled := false, kept := true,
    fields := [⟨3, 0, .wo, 0x0, 0x0, 0xf⟩, ⟨8, 4, .wo, 0x0, 0x0, 0x1f⟩, ⟨9, 9, .wo, 0x0, 0x0, 0x1⟩,
      ⟨31, 31, .wo, 0x0, 0x0, 0x1⟩] }
/-- QM_MEMBER_CMD.dim. -/
def QM_MEMBER_CMD_dim : Fld := ⟨QM_MEMBER_CMD, 3, 0⟩
/-- QM_MEMBER_CMD.sq. -/
def QM_MEMBER_CMD_sq : Fld := ⟨QM_MEMBER_CMD, 8, 4⟩
/-- QM_MEMBER_CMD.add. -/
def QM_MEMBER_CMD_add : Fld := ⟨QM_MEMBER_CMD, 9, 9⟩
/-- QM_MEMBER_CMD.go. -/
def QM_MEMBER_CMD_go : Fld := ⟨QM_MEMBER_CMD, 31, 31⟩

/-- QM_MEMBER_RESULT. -/
def QM_MEMBER_RESULT : RegSpec :=
  { off := 0x250014, dims := [], journalled := false, kept := true,
    fields := [⟨1, 0, .ro, 0x0, 0x0, 0x3⟩] }
/-- QM_MEMBER_RESULT.result. -/
def QM_MEMBER_RESULT_result : Fld := ⟨QM_MEMBER_RESULT, 1, 0⟩

/-- QM_DIST_CMD. -/
def QM_DIST_CMD : RegSpec :=
  { off := 0x250020, dims := [(.lit 5, 0x4)], journalled := false, kept := true,
    fields := [⟨31, 0, .wo, 0x0, 0x0, 0xffffffff⟩] }
/-- QM_DIST_CMD.word. -/
def QM_DIST_CMD_word : Fld := ⟨QM_DIST_CMD, 31, 0⟩

/-- QM_DIST_RESULT. -/
def QM_DIST_RESULT : RegSpec :=
  { off := 0x250034, dims := [], journalled := false, kept := true,
    fields := [⟨2, 0, .ro, 0x0, 0x0, 0x7⟩] }
/-- QM_DIST_RESULT.result. -/
def QM_DIST_RESULT_result : Fld := ⟨QM_DIST_RESULT, 2, 0⟩

/-- QM_DIST_STATUS. -/
def QM_DIST_STATUS : RegSpec :=
  { off := 0x250038, dims := [], journalled := false, kept := true,
    fields := [⟨12, 0, .ro, 0x0, 0x0, 0x1fff⟩, ⟨25, 13, .ro, 0x0, 0x0, 0x1fff⟩] }
/-- QM_DIST_STATUS.ok. -/
def QM_DIST_STATUS_ok : Fld := ⟨QM_DIST_STATUS, 12, 0⟩
/-- QM_DIST_STATUS.failed. -/
def QM_DIST_STATUS_failed : Fld := ⟨QM_DIST_STATUS, 25, 13⟩

/-- QM_DIST_TIME. -/
def QM_DIST_TIME : RegSpec :=
  { off := 0x25003c, dims := [], journalled := false, kept := true,
    fields := [⟨15, 0, .rw, 0xa, 0x1, 0xffff⟩] }
/-- QM_DIST_TIME.dist_s. -/
def QM_DIST_TIME_dist_s : Fld := ⟨QM_DIST_TIME, 15, 0⟩

/-- QM_ERR. -/
def QM_ERR : RegSpec :=
  { off := 0x250040, dims := [], journalled := false, kept := true,
    fields := [⟨15, 0, .rc, 0x0, 0x0, 0xffff⟩, ⟨31, 16, .rc, 0x0, 0x0, 0xffff⟩] }
/-- QM_ERR.undeliverable. -/
def QM_ERR_undeliverable : Fld := ⟨QM_ERR, 15, 0⟩
/-- QM_ERR.timeout. -/
def QM_ERR_timeout : Fld := ⟨QM_ERR, 31, 16⟩

/-- QM_DIM_STATUS. -/
def QM_DIM_STATUS : RegSpec :=
  { off := 0x250100, dims := [(.quill, 0x4)], journalled := false, kept := true,
    fields := [⟨0, 0, .ro, 0x0, 0x0, 0x1⟩, ⟨1, 1, .ro, 0x0, 0x0, 0x1⟩, ⟨2, 2, .ro, 0x0, 0x0, 0x1⟩,
      ⟨6, 3, .ro, 0x0, 0x0, 0xf⟩, ⟨31, 8, .ro, 0x0, 0x0, 0xffffff⟩] }
/-- QM_DIM_STATUS.up. -/
def QM_DIM_STATUS_up : Fld := ⟨QM_DIM_STATUS, 0, 0⟩
/-- QM_DIM_STATUS.lending. -/
def QM_DIM_STATUS_lending : Fld := ⟨QM_DIM_STATUS, 1, 1⟩
/-- QM_DIM_STATUS.detoured. -/
def QM_DIM_STATUS_detoured : Fld := ⟨QM_DIM_STATUS, 2, 2⟩
/-- QM_DIM_STATUS.j. -/
def QM_DIM_STATUS_j : Fld := ⟨QM_DIM_STATUS, 6, 3⟩
/-- QM_DIM_STATUS.map. -/
def QM_DIM_STATUS_map : Fld := ⟨QM_DIM_STATUS, 31, 8⟩

/-- QM_RESENDS. -/
def QM_RESENDS : RegSpec :=
  { off := 0x250140, dims := [(.quill, 0x4)], journalled := false, kept := true,
    fields := [⟨31, 0, .rc, 0x0, 0x0, 0xffffffff⟩] }
/-- QM_RESENDS.count. -/
def QM_RESENDS_count : Fld := ⟨QM_RESENDS, 31, 0⟩

/-- QM_PRESENT. -/
def QM_PRESENT : RegSpec :=
  { off := 0x250200, dims := [(.lit 128, 0x4)], journalled := true, kept := true,
    fields := [⟨31, 0, .rw, 0x0, 0x0, 0xffffffff⟩] }
/-- QM_PRESENT.present. -/
def QM_PRESENT_present : Fld := ⟨QM_PRESENT, 31, 0⟩

/-- RG_AUD_PKG_LO. -/
def RG_AUD_PKG_LO : RegSpec :=
  { off := 0x260000, dims := [(.lit 4, 0x40)], journalled := false, kept := false,
    fields := [⟨31, 0, .rw, 0x0, 0x0, 0xffffffff⟩] }
/-- RG_AUD_PKG_LO.addr. -/
def RG_AUD_PKG_LO_addr : Fld := ⟨RG_AUD_PKG_LO, 31, 0⟩

/-- RG_AUD_PKG_HI. -/
def RG_AUD_PKG_HI : RegSpec :=
  { off := 0x260004, dims := [(.lit 4, 0x40)], journalled := false, kept := false,
    fields := [⟨7, 0, .rw, 0x0, 0x0, 0xff⟩] }
/-- RG_AUD_PKG_HI.addr. -/
def RG_AUD_PKG_HI_addr : Fld := ⟨RG_AUD_PKG_HI, 7, 0⟩

/-- RG_AUD_REGION_LO. -/
def RG_AUD_REGION_LO : RegSpec :=
  { off := 0x260008, dims := [(.lit 4, 0x40)], journalled := false, kept := false,
    fields := [⟨31, 0, .rw, 0x0, 0x0, 0xffffffff⟩] }
/-- RG_AUD_REGION_LO.addr. -/
def RG_AUD_REGION_LO_addr : Fld := ⟨RG_AUD_REGION_LO, 31, 0⟩

/-- RG_AUD_REGION_HI. -/
def RG_AUD_REGION_HI : RegSpec :=
  { off := 0x26000c, dims := [(.lit 4, 0x40)], journalled := false, kept := false,
    fields := [⟨7, 0, .rw, 0x0, 0x0, 0xff⟩] }
/-- RG_AUD_REGION_HI.addr. -/
def RG_AUD_REGION_HI_addr : Fld := ⟨RG_AUD_REGION_HI, 7, 0⟩

/-- RG_AUD_OUT_LO. -/
def RG_AUD_OUT_LO : RegSpec :=
  { off := 0x260010, dims := [(.lit 4, 0x40)], journalled := false, kept := false,
    fields := [⟨31, 0, .rw, 0x0, 0x0, 0xffffffff⟩] }
/-- RG_AUD_OUT_LO.addr. -/
def RG_AUD_OUT_LO_addr : Fld := ⟨RG_AUD_OUT_LO, 31, 0⟩

/-- RG_AUD_OUT_HI. -/
def RG_AUD_OUT_HI : RegSpec :=
  { off := 0x260014, dims := [(.lit 4, 0x40)], journalled := false, kept := false,
    fields := [⟨7, 0, .rw, 0x0, 0x0, 0xff⟩] }
/-- RG_AUD_OUT_HI.addr. -/
def RG_AUD_OUT_HI_addr : Fld := ⟨RG_AUD_OUT_HI, 7, 0⟩

/-- RG_AUD_CMD. -/
def RG_AUD_CMD : RegSpec :=
  { off := 0x260018, dims := [(.lit 4, 0x40)], journalled := false, kept := false,
    fields := [⟨1, 0, .wo, 0x0, 0x0, 0x3⟩, ⟨31, 31, .wo, 0x0, 0x0, 0x1⟩] }
/-- RG_AUD_CMD.cmd. -/
def RG_AUD_CMD_cmd : Fld := ⟨RG_AUD_CMD, 1, 0⟩
/-- RG_AUD_CMD.go. -/
def RG_AUD_CMD_go : Fld := ⟨RG_AUD_CMD, 31, 31⟩

/-- RG_AUD_STATUS. -/
def RG_AUD_STATUS : RegSpec :=
  { off := 0x26001c, dims := [(.lit 4, 0x40)], journalled := false, kept := false,
    fields := [⟨2, 0, .ro, 0x0, 0x0, 0x7⟩, ⟨7, 4, .ro, 0x0, 0x0, 0xf⟩] }
/-- RG_AUD_STATUS.state. -/
def RG_AUD_STATUS_state : Fld := ⟨RG_AUD_STATUS, 2, 0⟩
/-- RG_AUD_STATUS.result. -/
def RG_AUD_STATUS_result : Fld := ⟨RG_AUD_STATUS, 7, 4⟩

/-- RG_AUD_ID_LO. -/
def RG_AUD_ID_LO : RegSpec :=
  { off := 0x260020, dims := [(.lit 4, 0x40)], journalled := false, kept := false,
    fields := [⟨31, 0, .ro, 0x0, 0x0, 0xffffffff⟩] }
/-- RG_AUD_ID_LO.id. -/
def RG_AUD_ID_LO_id : Fld := ⟨RG_AUD_ID_LO, 31, 0⟩

/-- RG_AUD_ID_HI. -/
def RG_AUD_ID_HI : RegSpec :=
  { off := 0x260024, dims := [(.lit 4, 0x40)], journalled := false, kept := false,
    fields := [⟨31, 0, .ro, 0x0, 0x0, 0xffffffff⟩] }
/-- RG_AUD_ID_HI.id. -/
def RG_AUD_ID_HI_id : Fld := ⟨RG_AUD_ID_HI, 31, 0⟩

/-- RG_ERR. -/
def RG_ERR : RegSpec :=
  { off := 0x260100, dims := [], journalled := false, kept := false,
    fields := [⟨15, 0, .rc, 0x0, 0x0, 0xffff⟩, ⟨31, 16, .rc, 0x0, 0x0, 0xffff⟩] }
/-- RG_ERR.auth. -/
def RG_ERR_auth : Fld := ⟨RG_ERR, 15, 0⟩
/-- RG_ERR.refused. -/
def RG_ERR_refused : Fld := ⟨RG_ERR, 31, 16⟩

/-- CU_OP_CTL. -/
def CU_OP_CTL : RegSpec :=
  { off := 0x270000, dims := [], journalled := false, kept := false,
    fields := [⟨2, 0, .rw, 0x0, 0x0, 0x7⟩, ⟨6, 3, .rw, 0x0, 0x0, 0xf⟩, ⟨7, 7, .rw, 0x0, 0x0, 0x1⟩,
      ⟨8, 8, .rw, 0x0, 0x0, 0x1⟩, ⟨31, 31, .wo, 0x0, 0x0, 0x1⟩] }
/-- CU_OP_CTL.op. -/
def CU_OP_CTL_op : Fld := ⟨CU_OP_CTL, 2, 0⟩
/-- CU_OP_CTL.slot. -/
def CU_OP_CTL_slot : Fld := ⟨CU_OP_CTL, 6, 3⟩
/-- CU_OP_CTL.wrap. -/
def CU_OP_CTL_wrap : Fld := ⟨CU_OP_CTL, 7, 7⟩
/-- CU_OP_CTL.fwkey. -/
def CU_OP_CTL_fwkey : Fld := ⟨CU_OP_CTL, 8, 8⟩
/-- CU_OP_CTL.go. -/
def CU_OP_CTL_go : Fld := ⟨CU_OP_CTL, 31, 31⟩

/-- CU_OP_SRC_LO. -/
def CU_OP_SRC_LO : RegSpec :=
  { off := 0x270004, dims := [], journalled := false, kept := false,
    fields := [⟨31, 0, .rw, 0x0, 0x0, 0xffffffff⟩] }
/-- CU_OP_SRC_LO.addr. -/
def CU_OP_SRC_LO_addr : Fld := ⟨CU_OP_SRC_LO, 31, 0⟩

/-- CU_OP_SRC_HI. -/
def CU_OP_SRC_HI : RegSpec :=
  { off := 0x270008, dims := [], journalled := false, kept := false,
    fields := [⟨7, 0, .rw, 0x0, 0x0, 0xff⟩] }
/-- CU_OP_SRC_HI.addr. -/
def CU_OP_SRC_HI_addr : Fld := ⟨CU_OP_SRC_HI, 7, 0⟩

/-- CU_OP_DST_LO. -/
def CU_OP_DST_LO : RegSpec :=
  { off := 0x27000c, dims := [], journalled := false, kept := false,
    fields := [⟨31, 0, .rw, 0x0, 0x0, 0xffffffff⟩] }
/-- CU_OP_DST_LO.addr. -/
def CU_OP_DST_LO_addr : Fld := ⟨CU_OP_DST_LO, 31, 0⟩

/-- CU_OP_DST_HI. -/
def CU_OP_DST_HI : RegSpec :=
  { off := 0x270010, dims := [], journalled := false, kept := false,
    fields := [⟨7, 0, .rw, 0x0, 0x0, 0xff⟩] }
/-- CU_OP_DST_HI.addr. -/
def CU_OP_DST_HI_addr : Fld := ⟨CU_OP_DST_HI, 7, 0⟩

/-- CU_OP_AAD_LO. -/
def CU_OP_AAD_LO : RegSpec :=
  { off := 0x270014, dims := [], journalled := false, kept := false,
    fields := [⟨31, 0, .rw, 0x0, 0x0, 0xffffffff⟩] }
/-- CU_OP_AAD_LO.addr. -/
def CU_OP_AAD_LO_addr : Fld := ⟨CU_OP_AAD_LO, 31, 0⟩

/-- CU_OP_AAD_HI. -/
def CU_OP_AAD_HI : RegSpec :=
  { off := 0x270018, dims := [], journalled := false, kept := false,
    fields := [⟨7, 0, .rw, 0x0, 0x0, 0xff⟩] }
/-- CU_OP_AAD_HI.addr. -/
def CU_OP_AAD_HI_addr : Fld := ⟨CU_OP_AAD_HI, 7, 0⟩

/-- CU_OP_TAG_LO. -/
def CU_OP_TAG_LO : RegSpec :=
  { off := 0x27001c, dims := [], journalled := false, kept := false,
    fields := [⟨31, 0, .rw, 0x0, 0x0, 0xffffffff⟩] }
/-- CU_OP_TAG_LO.addr. -/
def CU_OP_TAG_LO_addr : Fld := ⟨CU_OP_TAG_LO, 31, 0⟩

/-- CU_OP_TAG_HI. -/
def CU_OP_TAG_HI : RegSpec :=
  { off := 0x270020, dims := [], journalled := false, kept := false,
    fields := [⟨7, 0, .rw, 0x0, 0x0, 0xff⟩] }
/-- CU_OP_TAG_HI.addr. -/
def CU_OP_TAG_HI_addr : Fld := ⟨CU_OP_TAG_HI, 7, 0⟩

/-- CU_OP_LEN. -/
def CU_OP_LEN : RegSpec :=
  { off := 0x270024, dims := [], journalled := false, kept := false,
    fields := [⟨31, 0, .rw, 0x0, 0x0, 0xffffffff⟩] }
/-- CU_OP_LEN.len. -/
def CU_OP_LEN_len : Fld := ⟨CU_OP_LEN, 31, 0⟩

/-- CU_OP_AAD_LEN. -/
def CU_OP_AAD_LEN : RegSpec :=
  { off := 0x270028, dims := [], journalled := false, kept := false,
    fields := [⟨31, 0, .rw, 0x0, 0x0, 0xffffffff⟩] }
/-- CU_OP_AAD_LEN.aad_len. -/
def CU_OP_AAD_LEN_aad_len : Fld := ⟨CU_OP_AAD_LEN, 31, 0⟩

/-- CU_OP_IV. -/
def CU_OP_IV : RegSpec :=
  { off := 0x27002c, dims := [(.lit 3, 0x4)], journalled := false, kept := false,
    fields := [⟨31, 0, .rw, 0x0, 0x0, 0xffffffff⟩] }
/-- CU_OP_IV.iv. -/
def CU_OP_IV_iv : Fld := ⟨CU_OP_IV, 31, 0⟩

/-- CU_OP_STATUS. -/
def CU_OP_STATUS : RegSpec :=
  { off := 0x270038, dims := [], journalled := false, kept := false,
    fields := [⟨3, 0, .ro, 0x0, 0x0, 0xf⟩, ⟨4, 4, .ro, 0x0, 0x0, 0x1⟩, ⟨5, 5, .ro, 0x0, 0x0, 0x1⟩] }
/-- CU_OP_STATUS.status. -/
def CU_OP_STATUS_status : Fld := ⟨CU_OP_STATUS, 3, 0⟩
/-- CU_OP_STATUS.busy. -/
def CU_OP_STATUS_busy : Fld := ⟨CU_OP_STATUS, 4, 4⟩
/-- CU_OP_STATUS.suspended. -/
def CU_OP_STATUS_suspended : Fld := ⟨CU_OP_STATUS, 5, 5⟩

/-- CU_CTL. -/
def CU_CTL : RegSpec :=
  { off := 0x27003c, dims := [], journalled := false, kept := false,
    fields := [⟨0, 0, .wo, 0x0, 0x0, 0x1⟩, ⟨1, 1, .wo, 0x0, 0x0, 0x1⟩] }
/-- CU_CTL.suspend. -/
def CU_CTL_suspend : Fld := ⟨CU_CTL, 0, 0⟩
/-- CU_CTL.resume. -/
def CU_CTL_resume : Fld := ⟨CU_CTL, 1, 1⟩

/-- CU_ERR. -/
def CU_ERR : RegSpec :=
  { off := 0x270040, dims := [], journalled := false, kept := false,
    fields := [⟨15, 0, .rc, 0x0, 0x0, 0xffff⟩, ⟨31, 16, .rc, 0x0, 0x0, 0xffff⟩] }
/-- CU_ERR.auth. -/
def CU_ERR_auth : Fld := ⟨CU_ERR, 15, 0⟩
/-- CU_ERR.refused. -/
def CU_ERR_refused : Fld := ⟨CU_ERR, 31, 16⟩

/-- CU_KEY_DATA. -/
def CU_KEY_DATA : RegSpec :=
  { off := 0x270080, dims := [(.lit 8, 0x4)], journalled := false, kept := false,
    fields := [⟨31, 0, .wo, 0x0, 0x0, 0xffffffff⟩] }
/-- CU_KEY_DATA.key. -/
def CU_KEY_DATA_key : Fld := ⟨CU_KEY_DATA, 31, 0⟩

/-- CU_KEY_LOAD. -/
def CU_KEY_LOAD : RegSpec :=
  { off := 0x2700a0, dims := [], journalled := true, kept := false,
    fields := [⟨3, 0, .wo, 0x0, 0x0, 0xf⟩, ⟨4, 4, .wo, 0x0, 0x0, 0x1⟩, ⟨7, 5, .wo, 0x0, 0x0, 0x7⟩,
      ⟨8, 8, .wo, 0x0, 0x0, 0x1⟩, ⟨31, 31, .wo, 0x0, 0x0, 0x1⟩] }
/-- CU_KEY_LOAD.slot. -/
def CU_KEY_LOAD_slot : Fld := ⟨CU_KEY_LOAD, 3, 0⟩
/-- CU_KEY_LOAD.k256. -/
def CU_KEY_LOAD_k256 : Fld := ⟨CU_KEY_LOAD, 4, 4⟩
/-- CU_KEY_LOAD.use. -/
def CU_KEY_LOAD_use : Fld := ⟨CU_KEY_LOAD, 7, 5⟩
/-- CU_KEY_LOAD.clear. -/
def CU_KEY_LOAD_clear : Fld := ⟨CU_KEY_LOAD, 8, 8⟩
/-- CU_KEY_LOAD.go. -/
def CU_KEY_LOAD_go : Fld := ⟨CU_KEY_LOAD, 31, 31⟩

/-- CU_KEY_INFO. -/
def CU_KEY_INFO : RegSpec :=
  { off := 0x270100, dims := [(.lit 16, 0x4)], journalled := false, kept := true,
    fields := [⟨0, 0, .ro, 0x0, 0x0, 0x1⟩, ⟨1, 1, .ro, 0x0, 0x0, 0x1⟩, ⟨4, 2, .ro, 0x0, 0x0, 0x7⟩,
      ⟨15, 8, .ro, 0x0, 0x0, 0xff⟩] }
/-- CU_KEY_INFO.valid. -/
def CU_KEY_INFO_valid : Fld := ⟨CU_KEY_INFO, 0, 0⟩
/-- CU_KEY_INFO.k256. -/
def CU_KEY_INFO_k256 : Fld := ⟨CU_KEY_INFO, 1, 1⟩
/-- CU_KEY_INFO.use. -/
def CU_KEY_INFO_use : Fld := ⟨CU_KEY_INFO, 4, 2⟩
/-- CU_KEY_INFO.gen. -/
def CU_KEY_INFO_gen : Fld := ⟨CU_KEY_INFO, 15, 8⟩

/-- CU_KEY_KCV. -/
def CU_KEY_KCV : RegSpec :=
  { off := 0x270140, dims := [(.lit 16, 0x4)], journalled := false, kept := true,
    fields := [⟨23, 0, .ro, 0x0, 0x0, 0xffffff⟩] }
/-- CU_KEY_KCV.kcv. -/
def CU_KEY_KCV_kcv : Fld := ⟨CU_KEY_KCV, 23, 0⟩

/-- EM_CTL. -/
def EM_CTL : RegSpec :=
  { off := 0x280000, dims := [], journalled := true, kept := true,
    fields := [⟨0, 0, .rw, 0x1, 0x0, 0x1⟩, ⟨1, 1, .rw, 0x1, 0x0, 0x1⟩, ⟨2, 2, .rw, 0x1, 0x0, 0x1⟩] }
/-- EM_CTL.dvfs_en. -/
def EM_CTL_dvfs_en : Fld := ⟨EM_CTL, 0, 0⟩
/-- EM_CTL.tune_en. -/
def EM_CTL_tune_en : Fld := ⟨EM_CTL, 1, 1⟩
/-- EM_CTL.fan_auto. -/
def EM_CTL_fan_auto : Fld := ⟨EM_CTL, 2, 2⟩

/-- EM_CPM_CFG. -/
def EM_CPM_CFG : RegSpec :=
  { off := 0x280004, dims := [], journalled := true, kept := true,
    fields := [⟨7, 0, .rw, 0x8, 0x1, 0xff⟩, ⟨15, 8, .rw, 0x4, 0x1, 0xff⟩, ⟨23, 16, .rw, 0x2, 0x1, 0xff⟩,
      ⟨31, 24, .rw, 0x14, 0x1, 0xff⟩] }
/-- EM_CPM_CFG.margin. -/
def EM_CPM_CFG_margin : Fld := ⟨EM_CPM_CFG, 7, 0⟩
/-- EM_CPM_CFG.hyst. -/
def EM_CPM_CFG_hyst : Fld := ⟨EM_CPM_CFG, 15, 8⟩
/-- EM_CPM_CFG.emerg. -/
def EM_CPM_CFG_emerg : Fld := ⟨EM_CPM_CFG, 23, 16⟩
/-- EM_CPM_CFG.v_settle_us. -/
def EM_CPM_CFG_v_settle_us : Fld := ⟨EM_CPM_CFG, 31, 24⟩

/-- EM_VRANGE. -/
def EM_VRANGE : RegSpec :=
  { off := 0x280008, dims := [], journalled := true, kept := true,
    fields := [⟨7, 0, .rw, 0x78, 0x64, 0xc8⟩, ⟨15, 8, .rw, 0xb4, 0x64, 0xc8⟩, ⟨23, 16, .rw, 0x5, 0x1, 0x14⟩] }
/-- EM_VRANGE.v_min_code. -/
def EM_VRANGE_v_min_code : Fld := ⟨EM_VRANGE, 7, 0⟩
/-- EM_VRANGE.v_max_code. -/
def EM_VRANGE_v_max_code : Fld := ⟨EM_VRANGE, 15, 8⟩
/-- EM_VRANGE.v_step_up. -/
def EM_VRANGE_v_step_up : Fld := ⟨EM_VRANGE, 23, 16⟩

/-- EM_THERM_CFG. -/
def EM_THERM_CFG : RegSpec :=
  { off := 0x28000c, dims := [], journalled := true, kept := true,
    fields := [⟨7, 0, .rw, 0x5f, 0x3c, 0x7d⟩, ⟨15, 8, .rw, 0x69, 0x3c, 0x7d⟩, ⟨23, 16, .rw, 0x73, 0x3c, 0x7d⟩] }
/-- EM_THERM_CFG.t_warn. -/
def EM_THERM_CFG_t_warn : Fld := ⟨EM_THERM_CFG, 7, 0⟩
/-- EM_THERM_CFG.t_throttle. -/
def EM_THERM_CFG_t_throttle : Fld := ⟨EM_THERM_CFG, 15, 8⟩
/-- EM_THERM_CFG.t_crit. -/
def EM_THERM_CFG_t_crit : Fld := ⟨EM_THERM_CFG, 23, 16⟩

/-- EM_TUNE_CTL. -/
def EM_TUNE_CTL : RegSpec :=
  { off := 0x280010, dims := [], journalled := true, kept := true,
    fields := [⟨15, 0, .rw, 0x64, 0xa, 0xffff⟩, ⟨23, 16, .rw, 0x1, 0x1, 0x32⟩] }
/-- EM_TUNE_CTL.eq_period_ms. -/
def EM_TUNE_CTL_eq_period_ms : Fld := ⟨EM_TUNE_CTL, 15, 0⟩
/-- EM_TUNE_CTL.dwell_ms. -/
def EM_TUNE_CTL_dwell_ms : Fld := ⟨EM_TUNE_CTL, 23, 16⟩

/-- EM_VMON_STATUS. -/
def EM_VMON_STATUS : RegSpec :=
  { off := 0x280014, dims := [], journalled := false, kept := true,
    fields := [⟨7, 0, .ro, 0x0, 0x0, 0xff⟩, ⟨15, 8, .w1c, 0x0, 0x0, 0xff⟩] }
/-- EM_VMON_STATUS.warn. -/
def EM_VMON_STATUS_warn : Fld := ⟨EM_VMON_STATUS, 7, 0⟩
/-- EM_VMON_STATUS.fault. -/
def EM_VMON_STATUS_fault : Fld := ⟨EM_VMON_STATUS, 15, 8⟩

/-- EM_ERR. -/
def EM_ERR : RegSpec :=
  { off := 0x280018, dims := [], journalled := false, kept := true,
    fields := [⟨7, 0, .rc, 0x0, 0x0, 0xff⟩, ⟨15, 8, .rc, 0x0, 0x0, 0xff⟩, ⟨23, 16, .rc, 0x0, 0x0, 0xff⟩,
      ⟨31, 24, .rc, 0x0, 0x0, 0xff⟩] }
/-- EM_ERR.tune_timeout. -/
def EM_ERR_tune_timeout : Fld := ⟨EM_ERR, 7, 0⟩
/-- EM_ERR.emergency. -/
def EM_ERR_emergency : Fld := ⟨EM_ERR, 15, 8⟩
/-- EM_ERR.clock_timeout. -/
def EM_ERR_clock_timeout : Fld := ⟨EM_ERR, 23, 16⟩
/-- EM_ERR.supply. -/
def EM_ERR_supply : Fld := ⟨EM_ERR, 31, 24⟩

/-- EM_CORE_TGT. -/
def EM_CORE_TGT : RegSpec :=
  { off := 0x280100, dims := [(.cores, 0x8)], journalled := true, kept := true,
    fields := [⟨6, 0, .rw, 0x3c, 0x18, 0x44⟩, ⟨14, 8, .ro, 0x18, 0x0, 0x7f⟩, ⟨22, 16, .ro, 0x44, 0x0, 0x7f⟩,
      ⟨30, 24, .ro, 0x44, 0x0, 0x7f⟩] }
/-- EM_CORE_TGT.tgt_code. -/
def EM_CORE_TGT_tgt_code : Fld := ⟨EM_CORE_TGT, 6, 0⟩
/-- EM_CORE_TGT.floor_code. -/
def EM_CORE_TGT_floor_code : Fld := ⟨EM_CORE_TGT, 14, 8⟩
/-- EM_CORE_TGT.ceil_code. -/
def EM_CORE_TGT_ceil_code : Fld := ⟨EM_CORE_TGT, 22, 16⟩
/-- EM_CORE_TGT.lim_code. -/
def EM_CORE_TGT_lim_code : Fld := ⟨EM_CORE_TGT, 30, 24⟩

/-- EM_CORE_STATE. -/
def EM_CORE_STATE : RegSpec :=
  { off := 0x280104, dims := [(.cores, 0x8)], journalled := false, kept := true,
    fields := [⟨6, 0, .ro, 0x18, 0x0, 0x7f⟩, ⟨15, 8, .ro, 0x96, 0x0, 0xff⟩, ⟨16, 16, .ro, 0x0, 0x0, 0x1⟩,
      ⟨17, 17, .ro, 0x0, 0x0, 0x1⟩, ⟨31, 24, .ro, 0x0, 0x0, 0xff⟩] }
/-- EM_CORE_STATE.f_code. -/
def EM_CORE_STATE_f_code : Fld := ⟨EM_CORE_STATE, 6, 0⟩
/-- EM_CORE_STATE.v_code. -/
def EM_CORE_STATE_v_code : Fld := ⟨EM_CORE_STATE, 15, 8⟩
/-- EM_CORE_STATE.vlimited. -/
def EM_CORE_STATE_vlimited : Fld := ⟨EM_CORE_STATE, 16, 16⟩
/-- EM_CORE_STATE.emergency. -/
def EM_CORE_STATE_emergency : Fld := ⟨EM_CORE_STATE, 17, 17⟩
/-- EM_CORE_STATE.slack. -/
def EM_CORE_STATE_slack : Fld := ⟨EM_CORE_STATE, 31, 24⟩

/-- EM_THERM. -/
def EM_THERM : RegSpec :=
  { off := 0x280200, dims := [(.lit 16, 0x4)], journalled := false, kept := true,
    fields := [⟨15, 0, .ro, 0x0, 0x0, 0xffff⟩, ⟨16, 16, .ro, 0x0, 0x0, 0x1⟩, ⟨17, 17, .ro, 0x0, 0x0, 0x1⟩] }
/-- EM_THERM.temp. -/
def EM_THERM_temp : Fld := ⟨EM_THERM, 15, 0⟩
/-- EM_THERM.valid. -/
def EM_THERM_valid : Fld := ⟨EM_THERM, 16, 16⟩
/-- EM_THERM.failed. -/
def EM_THERM_failed : Fld := ⟨EM_THERM, 17, 17⟩

/-- EM_FAN_CFG. -/
def EM_FAN_CFG : RegSpec :=
  { off := 0x280240, dims := [(.lit 4, 0x10)], journalled := true, kept := true,
    fields := [⟨0, 0, .rw, 0x0, 0x0, 0x1⟩, ⟨1, 1, .rw, 0x0, 0x0, 0x1⟩, ⟨9, 2, .rw, 0x4d, 0x0, 0xff⟩,
      ⟨17, 10, .rw, 0x32, 0x0, 0xff⟩, ⟨25, 18, .rw, 0x5a, 0x0, 0xff⟩] }
/-- EM_FAN_CFG.en. -/
def EM_FAN_CFG_en : Fld := ⟨EM_FAN_CFG, 0, 0⟩
/-- EM_FAN_CFG.ppr4. -/
def EM_FAN_CFG_ppr4 : Fld := ⟨EM_FAN_CFG, 1, 1⟩
/-- EM_FAN_CFG.duty_min. -/
def EM_FAN_CFG_duty_min : Fld := ⟨EM_FAN_CFG, 9, 2⟩
/-- EM_FAN_CFG.t_fan_lo. -/
def EM_FAN_CFG_t_fan_lo : Fld := ⟨EM_FAN_CFG, 17, 10⟩
/-- EM_FAN_CFG.t_fan_hi. -/
def EM_FAN_CFG_t_fan_hi : Fld := ⟨EM_FAN_CFG, 25, 18⟩

/-- EM_FAN_TACH. -/
def EM_FAN_TACH : RegSpec :=
  { off := 0x280244, dims := [(.lit 4, 0x10)], journalled := true, kept := true,
    fields := [⟨15, 0, .rw, 0x3e8, 0x64, 0x4e20⟩, ⟨31, 16, .ro, 0x0, 0x0, 0xffff⟩] }
/-- EM_FAN_TACH.tach_min. -/
def EM_FAN_TACH_tach_min : Fld := ⟨EM_FAN_TACH, 15, 0⟩
/-- EM_FAN_TACH.rpm. -/
def EM_FAN_TACH_rpm : Fld := ⟨EM_FAN_TACH, 31, 16⟩

/-- EM_FAN_STATUS. -/
def EM_FAN_STATUS : RegSpec :=
  { off := 0x280248, dims := [(.lit 4, 0x10)], journalled := false, kept := true,
    fields := [⟨1, 0, .ro, 0x0, 0x0, 0x3⟩, ⟨2, 2, .ro, 0x0, 0x0, 0x1⟩, ⟨10, 3, .ro, 0x0, 0x0, 0xff⟩,
      ⟨12, 11, .ro, 0x0, 0x0, 0x3⟩] }
/-- EM_FAN_STATUS.state. -/
def EM_FAN_STATUS_state : Fld := ⟨EM_FAN_STATUS, 1, 0⟩
/-- EM_FAN_STATUS.tach_lost. -/
def EM_FAN_STATUS_tach_lost : Fld := ⟨EM_FAN_STATUS, 2, 2⟩
/-- EM_FAN_STATUS.duty. -/
def EM_FAN_STATUS_duty : Fld := ⟨EM_FAN_STATUS, 10, 3⟩
/-- EM_FAN_STATUS.retries. -/
def EM_FAN_STATUS_retries : Fld := ⟨EM_FAN_STATUS, 12, 11⟩

/-- EM_VMON_CFG. -/
def EM_VMON_CFG : RegSpec :=
  { off := 0x280280, dims := [(.lit 8, 0x8)], journalled := true, kept := true,
    fields := [⟨9, 0, .rw, 0x96, 0x0, 0x3ff⟩, ⟨10, 10, .rw, 0x1, 0x0, 0x1⟩] }
/-- EM_VMON_CFG.nominal. -/
def EM_VMON_CFG_nominal : Fld := ⟨EM_VMON_CFG, 9, 0⟩
/-- EM_VMON_CFG.en. -/
def EM_VMON_CFG_en : Fld := ⟨EM_VMON_CFG, 10, 10⟩

/-- EM_VMON_VAL. -/
def EM_VMON_VAL : RegSpec :=
  { off := 0x280284, dims := [(.lit 8, 0x8)], journalled := false, kept := true,
    fields := [⟨9, 0, .ro, 0x0, 0x0, 0x3ff⟩] }
/-- EM_VMON_VAL.value. -/
def EM_VMON_VAL_value : Fld := ⟨EM_VMON_VAL, 9, 0⟩

/-- PC_CTL. -/
def PC_CTL : RegSpec :=
  { off := 0x3f0000, dims := [], journalled := false, kept := false,
    fields := [⟨0, 0, .rw, 0x0, 0x0, 0x1⟩, ⟨1, 1, .wo, 0x0, 0x0, 0x1⟩] }
/-- PC_CTL.en. -/
def PC_CTL_en : Fld := ⟨PC_CTL, 0, 0⟩
/-- PC_CTL.clear. -/
def PC_CTL_clear : Fld := ⟨PC_CTL, 1, 1⟩

/-- PC_SNAP_CTL. -/
def PC_SNAP_CTL : RegSpec :=
  { off := 0x3f0004, dims := [], journalled := false, kept := false,
    fields := [⟨15, 0, .rw, 0x0, 0x0, 0xffff⟩, ⟨16, 16, .rw, 0x0, 0x0, 0x1⟩] }
/-- PC_SNAP_CTL.period_ms. -/
def PC_SNAP_CTL_period_ms : Fld := ⟨PC_SNAP_CTL, 15, 0⟩
/-- PC_SNAP_CTL.at_arm. -/
def PC_SNAP_CTL_at_arm : Fld := ⟨PC_SNAP_CTL, 16, 16⟩

/-- PC_SNAP_AT_LO. -/
def PC_SNAP_AT_LO : RegSpec :=
  { off := 0x3f0008, dims := [], journalled := false, kept := false,
    fields := [⟨31, 0, .rw, 0x0, 0x0, 0xffffffff⟩] }
/-- PC_SNAP_AT_LO.tt. -/
def PC_SNAP_AT_LO_tt : Fld := ⟨PC_SNAP_AT_LO, 31, 0⟩

/-- PC_SNAP_AT_HI. -/
def PC_SNAP_AT_HI : RegSpec :=
  { off := 0x3f000c, dims := [], journalled := false, kept := false,
    fields := [⟨31, 0, .rw, 0x0, 0x0, 0xffffffff⟩] }
/-- PC_SNAP_AT_HI.tt. -/
def PC_SNAP_AT_HI_tt : Fld := ⟨PC_SNAP_AT_HI, 31, 0⟩

/-- PC_SNAP_BASE. -/
def PC_SNAP_BASE : RegSpec :=
  { off := 0x3f0010, dims := [], journalled := false, kept := false,
    fields := [⟨31, 0, .rw, 0x0, 0x0, 0xffffffff⟩] }
/-- PC_SNAP_BASE.base. -/
def PC_SNAP_BASE_base : Fld := ⟨PC_SNAP_BASE, 31, 0⟩

/-- PC_SNAP_CFG. -/
def PC_SNAP_CFG : RegSpec :=
  { off := 0x3f0014, dims := [], journalled := false, kept := false,
    fields := [⟨3, 0, .rw, 0x1, 0x0, 0xf⟩, ⟨4, 4, .rw, 0x0, 0x0, 0x1⟩, ⟨5, 5, .rw, 0x0, 0x0, 0x1⟩] }
/-- PC_SNAP_CFG.log2_len. -/
def PC_SNAP_CFG_log2_len : Fld := ⟨PC_SNAP_CFG, 3, 0⟩
/-- PC_SNAP_CFG.en. -/
def PC_SNAP_CFG_en : Fld := ⟨PC_SNAP_CFG, 4, 4⟩
/-- PC_SNAP_CFG.overwrite. -/
def PC_SNAP_CFG_overwrite : Fld := ⟨PC_SNAP_CFG, 5, 5⟩

/-- PC_SNAP_PROD. -/
def PC_SNAP_PROD : RegSpec :=
  { off := 0x3f0018, dims := [], journalled := false, kept := false,
    fields := [⟨15, 0, .ro, 0x0, 0x0, 0xffff⟩] }
/-- PC_SNAP_PROD.prod. -/
def PC_SNAP_PROD_prod : Fld := ⟨PC_SNAP_PROD, 15, 0⟩

/-- PC_SNAP_CONS. -/
def PC_SNAP_CONS : RegSpec :=
  { off := 0x3f001c, dims := [], journalled := false, kept := false,
    fields := [⟨15, 0, .rw, 0x0, 0x0, 0xffff⟩] }
/-- PC_SNAP_CONS.cons. -/
def PC_SNAP_CONS_cons : Fld := ⟨PC_SNAP_CONS, 15, 0⟩

/-- PC_SMP_BASE. -/
def PC_SMP_BASE : RegSpec :=
  { off := 0x3f0020, dims := [], journalled := false, kept := false,
    fields := [⟨31, 0, .rw, 0x0, 0x0, 0xffffffff⟩] }
/-- PC_SMP_BASE.base. -/
def PC_SMP_BASE_base : Fld := ⟨PC_SMP_BASE, 31, 0⟩

/-- PC_SMP_CFG. -/
def PC_SMP_CFG : RegSpec :=
  { off := 0x3f0024, dims := [], journalled := false, kept := false,
    fields := [⟨3, 0, .rw, 0x4, 0x0, 0xf⟩, ⟨4, 4, .rw, 0x0, 0x0, 0x1⟩] }
/-- PC_SMP_CFG.log2_len. -/
def PC_SMP_CFG_log2_len : Fld := ⟨PC_SMP_CFG, 3, 0⟩
/-- PC_SMP_CFG.en. -/
def PC_SMP_CFG_en : Fld := ⟨PC_SMP_CFG, 4, 4⟩

/-- PC_SMP_PROD. -/
def PC_SMP_PROD : RegSpec :=
  { off := 0x3f0028, dims := [], journalled := false, kept := false,
    fields := [⟨15, 0, .ro, 0x0, 0x0, 0xffff⟩] }
/-- PC_SMP_PROD.prod. -/
def PC_SMP_PROD_prod : Fld := ⟨PC_SMP_PROD, 15, 0⟩

/-- PC_SMP_CONS. -/
def PC_SMP_CONS : RegSpec :=
  { off := 0x3f002c, dims := [], journalled := false, kept := false,
    fields := [⟨15, 0, .rw, 0x0, 0x0, 0xffff⟩] }
/-- PC_SMP_CONS.cons. -/
def PC_SMP_CONS_cons : Fld := ⟨PC_SMP_CONS, 15, 0⟩

/-- PC_OVF_PEND. -/
def PC_OVF_PEND : RegSpec :=
  { off := 0x3f0030, dims := [], journalled := false, kept := false,
    fields := [⟨8, 0, .ro, 0x0, 0x0, 0x1ff⟩] }
/-- PC_OVF_PEND.banks. -/
def PC_OVF_PEND_banks : Fld := ⟨PC_OVF_PEND, 8, 0⟩

/-- PC_ERR. -/
def PC_ERR : RegSpec :=
  { off := 0x3f0034, dims := [], journalled := false, kept := false,
    fields := [⟨7, 0, .rc, 0x0, 0x0, 0xff⟩, ⟨15, 8, .rc, 0x0, 0x0, 0xff⟩, ⟨23, 16, .rc, 0x0, 0x0, 0xff⟩,
      ⟨31, 24, .rc, 0x0, 0x0, 0xff⟩] }
/-- PC_ERR.snap_skipped. -/
def PC_ERR_snap_skipped : Fld := ⟨PC_ERR, 7, 0⟩
/-- PC_ERR.snap_dropped. -/
def PC_ERR_snap_dropped : Fld := ⟨PC_ERR, 15, 8⟩
/-- PC_ERR.smp_dropped. -/
def PC_ERR_smp_dropped : Fld := ⟨PC_ERR, 23, 16⟩
/-- PC_ERR.write_err. -/
def PC_ERR_write_err : Fld := ⟨PC_ERR, 31, 24⟩

/-- PC_TAG_CTL. -/
def PC_TAG_CTL : RegSpec :=
  { off := 0x340000, dims := [(.cores, 0x100)], journalled := false, kept := false,
    fields := [⟨4, 0, .rw, 0x0, 0x0, 0x1f⟩, ⟨9, 5, .rw, 0xc, 0x4, 0x14⟩] }
/-- PC_TAG_CTL.eng_mask. -/
def PC_TAG_CTL_eng_mask : Fld := ⟨PC_TAG_CTL, 4, 0⟩
/-- PC_TAG_CTL.k. -/
def PC_TAG_CTL_k : Fld := ⟨PC_TAG_CTL, 9, 5⟩

/-- PC_TAG_SEED. -/
def PC_TAG_SEED : RegSpec :=
  { off := 0x340004, dims := [(.cores, 0x100)], journalled := false, kept := false,
    fields := [⟨23, 0, .rw, 0x1, 0x0, 0xffffff⟩] }
/-- PC_TAG_SEED.seed. -/
def PC_TAG_SEED_seed : Fld := ⟨PC_TAG_SEED, 23, 0⟩

/-- PC_TAG_DROP. -/
def PC_TAG_DROP : RegSpec :=
  { off := 0x340008, dims := [(.cores, 0x100)], journalled := false, kept := false,
    fields := [⟨15, 0, .rc, 0x0, 0x0, 0xffff⟩] }
/-- PC_TAG_DROP.count. -/
def PC_TAG_DROP_count : Fld := ⟨PC_TAG_DROP, 15, 0⟩

/-- PC_BANK_CTL_E. -/
def PC_BANK_CTL_E : RegSpec :=
  { off := 0x300000, dims := [(.cores, 0x800), (.lit 5, 0x100)], journalled := false, kept := false,
    fields := [⟨7, 0, .w1c, 0x0, 0x0, 0xff⟩, ⟨8, 8, .w1c, 0x0, 0x0, 0x1⟩, ⟨9, 9, .ro, 0x0, 0x0, 0x1⟩] }
/-- PC_BANK_CTL_E.ovf. -/
def PC_BANK_CTL_E_ovf : Fld := ⟨PC_BANK_CTL_E, 7, 0⟩
/-- PC_BANK_CTL_E.frozen. -/
def PC_BANK_CTL_E_frozen : Fld := ⟨PC_BANK_CTL_E, 8, 8⟩
/-- PC_BANK_CTL_E.held. -/
def PC_BANK_CTL_E_held : Fld := ⟨PC_BANK_CTL_E, 9, 9⟩

/-- PC_SEL_E. -/
def PC_SEL_E : RegSpec :=
  { off := 0x300010, dims := [(.cores, 0x800), (.lit 5, 0x100), (.lit 8, 0x10)], journalled := false, kept := false,
    fields := [⟨7, 0, .rw, 0x0, 0x0, 0xff⟩, ⟨9, 8, .rw, 0x0, 0x0, 0x3⟩, ⟨10, 10, .rw, 0x0, 0x0, 0x1⟩,
      ⟨11, 11, .rw, 0x0, 0x0, 0x1⟩, ⟨12, 12, .rw, 0x0, 0x0, 0x1⟩, ⟨27, 16, .rw, 0x0, 0x0, 0xfff⟩] }
/-- PC_SEL_E.event. -/
def PC_SEL_E_event : Fld := ⟨PC_SEL_E, 7, 0⟩
/-- PC_SEL_E.mode. -/
def PC_SEL_E_mode : Fld := ⟨PC_SEL_E, 9, 8⟩
/-- PC_SEL_E.en. -/
def PC_SEL_E_en : Fld := ⟨PC_SEL_E, 10, 10⟩
/-- PC_SEL_E.ovf_irq. -/
def PC_SEL_E_ovf_irq : Fld := ⟨PC_SEL_E, 11, 11⟩
/-- PC_SEL_E.ovf_freeze. -/
def PC_SEL_E_ovf_freeze : Fld := ⟨PC_SEL_E, 12, 12⟩
/-- PC_SEL_E.thr. -/
def PC_SEL_E_thr : Fld := ⟨PC_SEL_E, 27, 16⟩

/-- PC_CNT_LO_E. -/
def PC_CNT_LO_E : RegSpec :=
  { off := 0x300014, dims := [(.cores, 0x800), (.lit 5, 0x100), (.lit 8, 0x10)], journalled := false, kept := false,
    fields := [⟨31, 0, .rw, 0x0, 0x0, 0xffffffff⟩] }
/-- PC_CNT_LO_E.count. -/
def PC_CNT_LO_E_count : Fld := ⟨PC_CNT_LO_E, 31, 0⟩

/-- PC_CNT_HI_E. -/
def PC_CNT_HI_E : RegSpec :=
  { off := 0x300018, dims := [(.cores, 0x800), (.lit 5, 0x100), (.lit 8, 0x10)], journalled := false, kept := false,
    fields := [⟨15, 0, .rw, 0x0, 0x0, 0xffff⟩] }
/-- PC_CNT_HI_E.count. -/
def PC_CNT_HI_E_count : Fld := ⟨PC_CNT_HI_E, 15, 0⟩

/-- PC_OVF_PC. -/
def PC_OVF_PC : RegSpec :=
  { off := 0x300090, dims := [(.cores, 0x800), (.lit 5, 0x100)], journalled := false, kept := false,
    fields := [⟨31, 0, .ro, 0x0, 0x0, 0xffffffff⟩] }
/-- PC_OVF_PC.pc. -/
def PC_OVF_PC_pc : Fld := ⟨PC_OVF_PC, 31, 0⟩

/-- PC_OVF_JOB. -/
def PC_OVF_JOB : RegSpec :=
  { off := 0x300094, dims := [(.cores, 0x800), (.lit 5, 0x100)], journalled := false, kept := false,
    fields := [⟨11, 0, .ro, 0x0, 0x0, 0xfff⟩, ⟨31, 12, .ro, 0x0, 0x0, 0xfffff⟩] }
/-- PC_OVF_JOB.job. -/
def PC_OVF_JOB_job : Fld := ⟨PC_OVF_JOB, 11, 0⟩
/-- PC_OVF_JOB.seg_id. -/
def PC_OVF_JOB_seg_id : Fld := ⟨PC_OVF_JOB, 31, 12⟩

/-- PC_BANK_CTL_P. -/
def PC_BANK_CTL_P : RegSpec :=
  { off := 0x310000, dims := [(.pipes, 0x100)], journalled := false, kept := false,
    fields := [⟨7, 0, .w1c, 0x0, 0x0, 0xff⟩, ⟨8, 8, .w1c, 0x0, 0x0, 0x1⟩, ⟨9, 9, .ro, 0x0, 0x0, 0x1⟩] }
/-- PC_BANK_CTL_P.ovf. -/
def PC_BANK_CTL_P_ovf : Fld := ⟨PC_BANK_CTL_P, 7, 0⟩
/-- PC_BANK_CTL_P.frozen. -/
def PC_BANK_CTL_P_frozen : Fld := ⟨PC_BANK_CTL_P, 8, 8⟩
/-- PC_BANK_CTL_P.held. -/
def PC_BANK_CTL_P_held : Fld := ⟨PC_BANK_CTL_P, 9, 9⟩

/-- PC_SEL_P. -/
def PC_SEL_P : RegSpec :=
  { off := 0x310010, dims := [(.pipes, 0x100), (.lit 4, 0x10)], journalled := false, kept := false,
    fields := [⟨7, 0, .rw, 0x0, 0x0, 0xff⟩, ⟨9, 8, .rw, 0x0, 0x0, 0x3⟩, ⟨10, 10, .rw, 0x0, 0x0, 0x1⟩,
      ⟨11, 11, .rw, 0x0, 0x0, 0x1⟩, ⟨12, 12, .rw, 0x0, 0x0, 0x1⟩, ⟨27, 16, .rw, 0x0, 0x0, 0xfff⟩] }
/-- PC_SEL_P.event. -/
def PC_SEL_P_event : Fld := ⟨PC_SEL_P, 7, 0⟩
/-- PC_SEL_P.mode. -/
def PC_SEL_P_mode : Fld := ⟨PC_SEL_P, 9, 8⟩
/-- PC_SEL_P.en. -/
def PC_SEL_P_en : Fld := ⟨PC_SEL_P, 10, 10⟩
/-- PC_SEL_P.ovf_irq. -/
def PC_SEL_P_ovf_irq : Fld := ⟨PC_SEL_P, 11, 11⟩
/-- PC_SEL_P.ovf_freeze. -/
def PC_SEL_P_ovf_freeze : Fld := ⟨PC_SEL_P, 12, 12⟩
/-- PC_SEL_P.thr. -/
def PC_SEL_P_thr : Fld := ⟨PC_SEL_P, 27, 16⟩

/-- PC_CNT_LO_P. -/
def PC_CNT_LO_P : RegSpec :=
  { off := 0x310014, dims := [(.pipes, 0x100), (.lit 4, 0x10)], journalled := false, kept := false,
    fields := [⟨31, 0, .rw, 0x0, 0x0, 0xffffffff⟩] }
/-- PC_CNT_LO_P.count. -/
def PC_CNT_LO_P_count : Fld := ⟨PC_CNT_LO_P, 31, 0⟩

/-- PC_CNT_HI_P. -/
def PC_CNT_HI_P : RegSpec :=
  { off := 0x310018, dims := [(.pipes, 0x100), (.lit 4, 0x10)], journalled := false, kept := false,
    fields := [⟨15, 0, .rw, 0x0, 0x0, 0xffff⟩] }
/-- PC_CNT_HI_P.count. -/
def PC_CNT_HI_P_count : Fld := ⟨PC_CNT_HI_P, 15, 0⟩

/-- PC_BANK_CTL_Q. -/
def PC_BANK_CTL_Q : RegSpec :=
  { off := 0x314000, dims := [(.quill, 0x100)], journalled := false, kept := false,
    fields := [⟨7, 0, .w1c, 0x0, 0x0, 0xff⟩, ⟨8, 8, .w1c, 0x0, 0x0, 0x1⟩, ⟨9, 9, .ro, 0x0, 0x0, 0x1⟩] }
/-- PC_BANK_CTL_Q.ovf. -/
def PC_BANK_CTL_Q_ovf : Fld := ⟨PC_BANK_CTL_Q, 7, 0⟩
/-- PC_BANK_CTL_Q.frozen. -/
def PC_BANK_CTL_Q_frozen : Fld := ⟨PC_BANK_CTL_Q, 8, 8⟩
/-- PC_BANK_CTL_Q.held. -/
def PC_BANK_CTL_Q_held : Fld := ⟨PC_BANK_CTL_Q, 9, 9⟩

/-- PC_SEL_Q. -/
def PC_SEL_Q : RegSpec :=
  { off := 0x314010, dims := [(.quill, 0x100), (.lit 8, 0x10)], journalled := false, kept := false,
    fields := [⟨7, 0, .rw, 0x0, 0x0, 0xff⟩, ⟨9, 8, .rw, 0x0, 0x0, 0x3⟩, ⟨10, 10, .rw, 0x0, 0x0, 0x1⟩,
      ⟨11, 11, .rw, 0x0, 0x0, 0x1⟩, ⟨12, 12, .rw, 0x0, 0x0, 0x1⟩, ⟨27, 16, .rw, 0x0, 0x0, 0xfff⟩] }
/-- PC_SEL_Q.event. -/
def PC_SEL_Q_event : Fld := ⟨PC_SEL_Q, 7, 0⟩
/-- PC_SEL_Q.mode. -/
def PC_SEL_Q_mode : Fld := ⟨PC_SEL_Q, 9, 8⟩
/-- PC_SEL_Q.en. -/
def PC_SEL_Q_en : Fld := ⟨PC_SEL_Q, 10, 10⟩
/-- PC_SEL_Q.ovf_irq. -/
def PC_SEL_Q_ovf_irq : Fld := ⟨PC_SEL_Q, 11, 11⟩
/-- PC_SEL_Q.ovf_freeze. -/
def PC_SEL_Q_ovf_freeze : Fld := ⟨PC_SEL_Q, 12, 12⟩
/-- PC_SEL_Q.thr. -/
def PC_SEL_Q_thr : Fld := ⟨PC_SEL_Q, 27, 16⟩

/-- PC_CNT_LO_Q. -/
def PC_CNT_LO_Q : RegSpec :=
  { off := 0x314014, dims := [(.quill, 0x100), (.lit 8, 0x10)], journalled := false, kept := false,
    fields := [⟨31, 0, .rw, 0x0, 0x0, 0xffffffff⟩] }
/-- PC_CNT_LO_Q.count. -/
def PC_CNT_LO_Q_count : Fld := ⟨PC_CNT_LO_Q, 31, 0⟩

/-- PC_CNT_HI_Q. -/
def PC_CNT_HI_Q : RegSpec :=
  { off := 0x314018, dims := [(.quill, 0x100), (.lit 8, 0x10)], journalled := false, kept := false,
    fields := [⟨15, 0, .rw, 0x0, 0x0, 0xffff⟩] }
/-- PC_CNT_HI_Q.count. -/
def PC_CNT_HI_Q_count : Fld := ⟨PC_CNT_HI_Q, 15, 0⟩

/-- PC_BANK_CTL_F. -/
def PC_BANK_CTL_F : RegSpec :=
  { off := 0x320000, dims := [(.lit 107, 0x100)], journalled := false, kept := false,
    fields := [⟨7, 0, .w1c, 0x0, 0x0, 0xff⟩, ⟨8, 8, .w1c, 0x0, 0x0, 0x1⟩, ⟨9, 9, .ro, 0x0, 0x0, 0x1⟩] }
/-- PC_BANK_CTL_F.ovf. -/
def PC_BANK_CTL_F_ovf : Fld := ⟨PC_BANK_CTL_F, 7, 0⟩
/-- PC_BANK_CTL_F.frozen. -/
def PC_BANK_CTL_F_frozen : Fld := ⟨PC_BANK_CTL_F, 8, 8⟩
/-- PC_BANK_CTL_F.held. -/
def PC_BANK_CTL_F_held : Fld := ⟨PC_BANK_CTL_F, 9, 9⟩

/-- PC_SEL_F. -/
def PC_SEL_F : RegSpec :=
  { off := 0x320010, dims := [(.lit 107, 0x100), (.lit 4, 0x10)], journalled := false, kept := false,
    fields := [⟨7, 0, .rw, 0x0, 0x0, 0xff⟩, ⟨9, 8, .rw, 0x0, 0x0, 0x3⟩, ⟨10, 10, .rw, 0x0, 0x0, 0x1⟩,
      ⟨11, 11, .rw, 0x0, 0x0, 0x1⟩, ⟨12, 12, .rw, 0x0, 0x0, 0x1⟩, ⟨27, 16, .rw, 0x0, 0x0, 0xfff⟩] }
/-- PC_SEL_F.event. -/
def PC_SEL_F_event : Fld := ⟨PC_SEL_F, 7, 0⟩
/-- PC_SEL_F.mode. -/
def PC_SEL_F_mode : Fld := ⟨PC_SEL_F, 9, 8⟩
/-- PC_SEL_F.en. -/
def PC_SEL_F_en : Fld := ⟨PC_SEL_F, 10, 10⟩
/-- PC_SEL_F.ovf_irq. -/
def PC_SEL_F_ovf_irq : Fld := ⟨PC_SEL_F, 11, 11⟩
/-- PC_SEL_F.ovf_freeze. -/
def PC_SEL_F_ovf_freeze : Fld := ⟨PC_SEL_F, 12, 12⟩
/-- PC_SEL_F.thr. -/
def PC_SEL_F_thr : Fld := ⟨PC_SEL_F, 27, 16⟩

/-- PC_CNT_LO_F. -/
def PC_CNT_LO_F : RegSpec :=
  { off := 0x320014, dims := [(.lit 107, 0x100), (.lit 4, 0x10)], journalled := false, kept := false,
    fields := [⟨31, 0, .rw, 0x0, 0x0, 0xffffffff⟩] }
/-- PC_CNT_LO_F.count. -/
def PC_CNT_LO_F_count : Fld := ⟨PC_CNT_LO_F, 31, 0⟩

/-- PC_CNT_HI_F. -/
def PC_CNT_HI_F : RegSpec :=
  { off := 0x320018, dims := [(.lit 107, 0x100), (.lit 4, 0x10)], journalled := false, kept := false,
    fields := [⟨15, 0, .rw, 0x0, 0x0, 0xffff⟩] }
/-- PC_CNT_HI_F.count. -/
def PC_CNT_HI_F_count : Fld := ⟨PC_CNT_HI_F, 15, 0⟩

/-- PC_BANK_CTL_D. -/
def PC_BANK_CTL_D : RegSpec :=
  { off := 0x330000, dims := [], journalled := false, kept := false,
    fields := [⟨7, 0, .w1c, 0x0, 0x0, 0xff⟩, ⟨8, 8, .w1c, 0x0, 0x0, 0x1⟩, ⟨9, 9, .ro, 0x0, 0x0, 0x1⟩] }
/-- PC_BANK_CTL_D.ovf. -/
def PC_BANK_CTL_D_ovf : Fld := ⟨PC_BANK_CTL_D, 7, 0⟩
/-- PC_BANK_CTL_D.frozen. -/
def PC_BANK_CTL_D_frozen : Fld := ⟨PC_BANK_CTL_D, 8, 8⟩
/-- PC_BANK_CTL_D.held. -/
def PC_BANK_CTL_D_held : Fld := ⟨PC_BANK_CTL_D, 9, 9⟩

/-- PC_SEL_D. -/
def PC_SEL_D : RegSpec :=
  { off := 0x330010, dims := [(.lit 8, 0x10)], journalled := false, kept := false,
    fields := [⟨7, 0, .rw, 0x0, 0x0, 0xff⟩, ⟨9, 8, .rw, 0x0, 0x0, 0x3⟩, ⟨10, 10, .rw, 0x0, 0x0, 0x1⟩,
      ⟨11, 11, .rw, 0x0, 0x0, 0x1⟩, ⟨12, 12, .rw, 0x0, 0x0, 0x1⟩, ⟨27, 16, .rw, 0x0, 0x0, 0xfff⟩] }
/-- PC_SEL_D.event. -/
def PC_SEL_D_event : Fld := ⟨PC_SEL_D, 7, 0⟩
/-- PC_SEL_D.mode. -/
def PC_SEL_D_mode : Fld := ⟨PC_SEL_D, 9, 8⟩
/-- PC_SEL_D.en. -/
def PC_SEL_D_en : Fld := ⟨PC_SEL_D, 10, 10⟩
/-- PC_SEL_D.ovf_irq. -/
def PC_SEL_D_ovf_irq : Fld := ⟨PC_SEL_D, 11, 11⟩
/-- PC_SEL_D.ovf_freeze. -/
def PC_SEL_D_ovf_freeze : Fld := ⟨PC_SEL_D, 12, 12⟩
/-- PC_SEL_D.thr. -/
def PC_SEL_D_thr : Fld := ⟨PC_SEL_D, 27, 16⟩

/-- PC_CNT_LO_D. -/
def PC_CNT_LO_D : RegSpec :=
  { off := 0x330014, dims := [(.lit 8, 0x10)], journalled := false, kept := false,
    fields := [⟨31, 0, .rw, 0x0, 0x0, 0xffffffff⟩] }
/-- PC_CNT_LO_D.count. -/
def PC_CNT_LO_D_count : Fld := ⟨PC_CNT_LO_D, 31, 0⟩

/-- PC_CNT_HI_D. -/
def PC_CNT_HI_D : RegSpec :=
  { off := 0x330018, dims := [(.lit 8, 0x10)], journalled := false, kept := false,
    fields := [⟨15, 0, .rw, 0x0, 0x0, 0xffff⟩] }
/-- PC_CNT_HI_D.count. -/
def PC_CNT_HI_D_count : Fld := ⟨PC_CNT_HI_D, 15, 0⟩

/-- PC_BANK_CTL_H. -/
def PC_BANK_CTL_H : RegSpec :=
  { off := 0x330100, dims := [], journalled := false, kept := false,
    fields := [⟨7, 0, .w1c, 0x0, 0x0, 0xff⟩, ⟨8, 8, .w1c, 0x0, 0x0, 0x1⟩, ⟨9, 9, .ro, 0x0, 0x0, 0x1⟩] }
/-- PC_BANK_CTL_H.ovf. -/
def PC_BANK_CTL_H_ovf : Fld := ⟨PC_BANK_CTL_H, 7, 0⟩
/-- PC_BANK_CTL_H.frozen. -/
def PC_BANK_CTL_H_frozen : Fld := ⟨PC_BANK_CTL_H, 8, 8⟩
/-- PC_BANK_CTL_H.held. -/
def PC_BANK_CTL_H_held : Fld := ⟨PC_BANK_CTL_H, 9, 9⟩

/-- PC_SEL_H. -/
def PC_SEL_H : RegSpec :=
  { off := 0x330110, dims := [(.lit 4, 0x10)], journalled := false, kept := false,
    fields := [⟨7, 0, .rw, 0x0, 0x0, 0xff⟩, ⟨9, 8, .rw, 0x0, 0x0, 0x3⟩, ⟨10, 10, .rw, 0x0, 0x0, 0x1⟩,
      ⟨11, 11, .rw, 0x0, 0x0, 0x1⟩, ⟨12, 12, .rw, 0x0, 0x0, 0x1⟩, ⟨27, 16, .rw, 0x0, 0x0, 0xfff⟩] }
/-- PC_SEL_H.event. -/
def PC_SEL_H_event : Fld := ⟨PC_SEL_H, 7, 0⟩
/-- PC_SEL_H.mode. -/
def PC_SEL_H_mode : Fld := ⟨PC_SEL_H, 9, 8⟩
/-- PC_SEL_H.en. -/
def PC_SEL_H_en : Fld := ⟨PC_SEL_H, 10, 10⟩
/-- PC_SEL_H.ovf_irq. -/
def PC_SEL_H_ovf_irq : Fld := ⟨PC_SEL_H, 11, 11⟩
/-- PC_SEL_H.ovf_freeze. -/
def PC_SEL_H_ovf_freeze : Fld := ⟨PC_SEL_H, 12, 12⟩
/-- PC_SEL_H.thr. -/
def PC_SEL_H_thr : Fld := ⟨PC_SEL_H, 27, 16⟩

/-- PC_CNT_LO_H. -/
def PC_CNT_LO_H : RegSpec :=
  { off := 0x330114, dims := [(.lit 4, 0x10)], journalled := false, kept := false,
    fields := [⟨31, 0, .rw, 0x0, 0x0, 0xffffffff⟩] }
/-- PC_CNT_LO_H.count. -/
def PC_CNT_LO_H_count : Fld := ⟨PC_CNT_LO_H, 31, 0⟩

/-- PC_CNT_HI_H. -/
def PC_CNT_HI_H : RegSpec :=
  { off := 0x330118, dims := [(.lit 4, 0x10)], journalled := false, kept := false,
    fields := [⟨15, 0, .rw, 0x0, 0x0, 0xffff⟩] }
/-- PC_CNT_HI_H.count. -/
def PC_CNT_HI_H_count : Fld := ⟨PC_CNT_HI_H, 15, 0⟩

/-- The register map, part 0. -/
def part0 : List RegSpec :=
  [HP_CFG0, HP_CFG1, HP_CFG2, HP_CFG3, HP_BOOT_STATUS, HP_LIFECYCLE,
   HP_ERR, HP_ERR_ADDR_LO, HP_ERR_ADDR_HI, HP_DB_ERR, HP_EVQ_BASE_LO, HP_EVQ_BASE_HI,
   HP_EVQ_CFG, HP_EVQ_TAIL, HP_EVQ_HEAD, HP_EVQ_LOST, HP_IRQ_STATUS, HP_IRQ_MASK,
   HP_IRQ_RAW, HP_IRQ_MAP, HP_IRQ_MOD, HP_HOLD, HP_JRN_HEAD, HP_JRN_STATUS,
   HP_JRN_UNJ, HP_JRN_READ, HP_JRN_VALID, HP_JRN_DATA, HP_JRN_FAULT, HP_UNIT_STATE,
   HP_SQ_BASE, HP_SQ_CFG, HP_SQ_DB, HP_SQ_HEAD, HP_CQ_BASE_LO, HP_CQ_BASE_HI,
   HP_CQ_CFG, HP_CQ_TAIL, HP_CQ_HEAD, HP_CQ_LOST]

/-- The register map, part 1. -/
def part1 : List RegSpec :=
  [TB_CTL, TB_STATUS, TB_REF_CAUSE, TB_TT_LO, TB_TT_HI, TB_TT_LOAD_LO,
   TB_TT_LOAD_HI, TB_SLOPE, TB_QUAL, TB_LOCK_WIN, TB_HOLD_LIMIT, TB_HOLD_DRIFT,
   TB_HOLD_EST, TB_PHASE_ERR, TB_RATE, TB_TICK_PHASE, TB_ALIGN_OFFSET, TB_ASYM,
   PU_CH_CTL, PU_SSI, PU_HYST, PU_IDX_CHK, PU_STILL, PU_CNT_LO,
   PU_CNT_HI, PU_LOAD_LO, PU_LOAD_HI, PU_IDX_LO, PU_IDX_HI, PU_SPEED,
   PU_STATUS, PU_ERR, PU_THR, PU_IRQ, PU_IRQ_EN, PU_GLOBAL,
   AU_CTL, AU_STATUS, AU_ERR, AU_CANCEL]

/-- The register map, part 2. -/
def part2 : List RegSpec :=
  [AU_CANCEL_OUT, AU_CANCEL_RESULT, AU_OUT_STATE_LO, AU_OUT_STATE_HI, AU_POST, AU_POST_STATUS,
   AU_MPOST, AU_MPOST_STATUS, AU_OUT_CFG, AU_OUT_LATE, AU_WEAR_LO, AU_WEAR_HI,
   AU_ONTIME, AU_WEAR_WARN, AU_GUARD, AU_ENTRY, CX_CAM_CTL, CX_CAM_STATUS,
   CX_CTRL_TX, CX_CTRL_RX, CX_CTRL_IDX, PP_CTL, PP_STAMP, PP_RING,
   PP_RING_CFG, PP_STALL, PP_PROD, PP_CONS, PP_CAL_SWAP, PP_ERR,
   PP_DEF_COUNT, PP_RS_COUNT, PP_RS, PP_DEF, PP_CAL, CX_TUNE_MAP,
   CX_TUNE_LIM, PP_GLOBAL, PP_DEC_CTL, PP_DEC_SRC]

/-- The register map, part 3. -/
def part3 : List RegSpec :=
  [PP_DEC_IDX, PP_DEC_SUBST_LO, PP_DEC_SUBST_HI, PP_DEC_WORK_LO, PP_DEC_WORK_HI, PP_DEC_STATUS,
   PP_DEC_ERR, PP_DEC_QOS, CR_CORE_CTL, CR_CORE_STATUS, CR_ENG_STATUS, CR_ENG_PC,
   CR_ERR, CR_ECC, CR_WIN, CR_SYNC, DS_SCHED_CTL, DS_HORIZON,
   DS_BACKSTOP, DS_STARVE, DS_CANCEL, DS_CANCEL_JOB, DS_CANCEL_RESULT, DS_STATUS,
   DS_ERR, DS_RING_CTL, DS_RCP_CTL, DS_RCP_STATUS, DS_RCP_STEP, DS_RCP_ERR,
   FB_REMAP, FB_ARB, FB_SCRUB, FB_SCRUB_STATUS, FB_HOARD_ECC, FB_HOARD_ECC_ADDR,
   FB_UNMAPPED_ADDR_LO, FB_UNMAPPED_ADDR_HI, FB_UNMAPPED_INFO, FB_PORT_RST]

/-- The register map, part 4. -/
def part4 : List RegSpec :=
  [FB_MST_QOS, FB_TGT_PARK, FB_PORT_STATUS, FB_BRW_CFG, FB_BRW_STATUS, FB_BRW_ERR,
   FB_BRW_ECC_ADDR_LO, FB_BRW_ECC_ADDR_HI, QP_CTL, QP_BER, QP_TRACE_EXP_LO, QP_TRACE_EXP_HI,
   QP_TRACE_RX_LO, QP_TRACE_RX_HI, QP_DESKEW, QP_STATUS, QP_DEFECT_HIST, QP_BIP,
   QP_REI, QP_ERR, QP_TUNE_MAP, QP_TUNE_LIM, QP_SLOT, QP_GRP_CFG,
   QP_MACHINE_TAG, QM_ID, QM_CTL, QM_TIMERS, QM_BUF, QM_MEMBER_CMD,
   QM_MEMBER_RESULT, QM_DIST_CMD, QM_DIST_RESULT, QM_DIST_STATUS, QM_DIST_TIME, QM_ERR,
   QM_DIM_STATUS, QM_RESENDS, QM_PRESENT, RG_AUD_PKG_LO]

/-- The register map, part 5. -/
def part5 : List RegSpec :=
  [RG_AUD_PKG_HI, RG_AUD_REGION_LO, RG_AUD_REGION_HI, RG_AUD_OUT_LO, RG_AUD_OUT_HI, RG_AUD_CMD,
   RG_AUD_STATUS, RG_AUD_ID_LO, RG_AUD_ID_HI, RG_ERR, CU_OP_CTL, CU_OP_SRC_LO,
   CU_OP_SRC_HI, CU_OP_DST_LO, CU_OP_DST_HI, CU_OP_AAD_LO, CU_OP_AAD_HI, CU_OP_TAG_LO,
   CU_OP_TAG_HI, CU_OP_LEN, CU_OP_AAD_LEN, CU_OP_IV, CU_OP_STATUS, CU_CTL,
   CU_ERR, CU_KEY_DATA, CU_KEY_LOAD, CU_KEY_INFO, CU_KEY_KCV, EM_CTL,
   EM_CPM_CFG, EM_VRANGE, EM_THERM_CFG, EM_TUNE_CTL, EM_VMON_STATUS, EM_ERR,
   EM_CORE_TGT, EM_CORE_STATE, EM_THERM, EM_FAN_CFG]

/-- The register map, part 6. -/
def part6 : List RegSpec :=
  [EM_FAN_TACH, EM_FAN_STATUS, EM_VMON_CFG, EM_VMON_VAL, PC_CTL, PC_SNAP_CTL,
   PC_SNAP_AT_LO, PC_SNAP_AT_HI, PC_SNAP_BASE, PC_SNAP_CFG, PC_SNAP_PROD, PC_SNAP_CONS,
   PC_SMP_BASE, PC_SMP_CFG, PC_SMP_PROD, PC_SMP_CONS, PC_OVF_PEND, PC_ERR,
   PC_TAG_CTL, PC_TAG_SEED, PC_TAG_DROP, PC_BANK_CTL_E, PC_SEL_E, PC_CNT_LO_E,
   PC_CNT_HI_E, PC_OVF_PC, PC_OVF_JOB, PC_BANK_CTL_P, PC_SEL_P, PC_CNT_LO_P,
   PC_CNT_HI_P, PC_BANK_CTL_Q, PC_SEL_Q, PC_CNT_LO_Q, PC_CNT_HI_Q, PC_BANK_CTL_F,
   PC_SEL_F, PC_CNT_LO_F, PC_CNT_HI_F, PC_BANK_CTL_D]

/-- The register map, part 7. -/
def part7 : List RegSpec :=
  [PC_SEL_D, PC_CNT_LO_D, PC_CNT_HI_D, PC_BANK_CTL_H, PC_SEL_H, PC_CNT_LO_H,
   PC_CNT_HI_H]

/-- Every register. -/
def all : List RegSpec := part0 ++ part1 ++ part2 ++ part3 ++ part4 ++ part5 ++ part6 ++ part7

end Sys2Proof.Machine.R
end

