-- ==== Sys2Proof/Machine/StateBase.lean ====
section
/-! DEFINITION. The pieces of state that every block shares: memory, events, the change journal, completion
records, the timebase, the position unit and the actuation unit. -/

namespace Sys2Proof.Machine

/-- Memory: a list of byte cells. `Memory.wf` (Machine/Ops.lean) is its canonical form. -/
structure Memory where
  cells : List Host.Cell
  deriving DecidableEq, Repr

/-- A posted event: code, TT of posting and the 128-bit detail (R15, R582). -/
structure Event where
  code : Nat
  tt : Nat
  detail : Nat
  deriving DecidableEq, Repr

/-- The event posting path (R555, R472, R501). -/
structure EvState where
  /-- Posted and not yet written to the host event ring, oldest first (R472, R555). -/
  hostq : List Event
  /-- The management event ring, oldest first; firmware takes it at each telemetry cycle (R594). -/
  mgmt : List Event
  /-- The last posting of an event whose chapter limits it to one per cause and instance per ms: (code, cause, instance) and
  the position clock's ns (State.up). -/
  last : List ((Nat × Nat × Nat) × Nat)
  /-- How often each of those has occurred, posted or held back, by `limKey` (R131, R138). -/
  occ : Tbl Nat
  /-- The next entry written to the host event ring carries lost (R555). -/
  lost : Bool
  /-- Emergencies waiting to be sent, oldest first, at most 16 (R501). -/
  emcyQ : List Event
  /-- The position clock's ns at which an emergency of an event code was last queued (R501). -/
  emcyLast : Tbl Nat
  /-- Emergencies dropped since EMCY_OVERFLOW was last sent (R501). -/
  emcyDropped : Nat
  /-- Events posted since power-on, modulo 2^32 (R498), and by class (R534). -/
  posted : Nat
  classes : Tbl Nat
  /-- Emergencies sent and dropped since power-on, modulo 2^32 (R524, R534). -/
  sent : Nat
  dropped : Nat
  deriving DecidableEq, Repr

/-- One entry of the change journal (Table 20-7a). -/
structure JEntry where
  seq : Nat
  tt : Nat
  source : Nat
  status : Nat
  cause : Nat
  long : Bool
  command : Bool
  loc : Nat
  old : Nat
  new : Nat
  detail : Nat
  deriving DecidableEq, Repr

/-- A write to a journalled parameter that waits for the management-cycle boundary (R21). -/
structure ParamWrite where
  off : Nat
  val : Nat
  src : Src
  deriving DecidableEq, Repr

/-- The change journal (R502, R503, R588). -/
structure Journal where
  /-- The primary copy, by seq modulo 16,384. -/
  primary : Tbl JEntry
  /-- The mirror copy, by seq modulo 16,384. -/
  mirror : Tbl JEntry
  /-- Writes waiting for the boundary, oldest first. -/
  pend : List ParamWrite
  /-- The entry the sweep reads next (R588). -/
  sweep : Nat
  /-- First seq not yet in a checkpoint (R591). -/
  saved : Nat
  deriving DecidableEq, Repr

/-- A completion record before its phase is known: its ring and its 64 bytes with phase 0 (R550). -/
structure CRec where
  ring : Nat
  bytes : List Byte
  deriving DecidableEq, Repr

/-- What a write to host memory carries (R556, R563). -/
inductive HostItem where
  /-- A record of completion ring r. -/
  | record (ring : Nat)
  /-- An entry of the host event ring. -/
  | event
  deriving DecidableEq, Repr

/-- A write to host memory that has not been answered (R563). -/
structure HostWrite where
  item : HostItem
  addr : Nat
  bytes : List Byte
  tt : Nat
  deriving DecidableEq, Repr

/-- The host port's own state beside its registers (R550 to R556). -/
structure HostPort where
  /-- The hold store: records waiting for their ring, oldest first (R554). -/
  held : List CRec
  /-- Writes to host memory not yet answered, oldest first. -/
  writes : List HostWrite
  /-- Per vector: TT of each pending item since the status bit was last cleared, oldest first (R556). -/
  vec : Tbl (List Nat)
  deriving DecidableEq, Repr

/-- One timebase reference (R62, R63). -/
structure RefSt where
  /-- Since when, on the position clock, the reference has passed every check without a break; none while one fails. -/
  clean : Option Nat
  /-- TT of its last tick or frame start; none where no interval is measured from it. -/
  lastTick : Option Nat
  /-- Its last measured frequency offset, units of 10^-12 (R62, R66). -/
  rate : Int
  deriving DecidableEq, Repr

/-- A rack-lead broadcast waiting for its tick (R71). -/
structure TickAdopt where
  phase : Int
  /-- The TT of the tick at which it takes effect. -/
  tick : Nat
  /-- The chip that sent it. -/
  lead : Nat
  deriving DecidableEq, Repr

/-- The timebase beside its registers (chapter 3). -/
structure TbState where
  /-- Position cycles since the release of POR_N (R57): the clock by which lengths of time are counted that a TT load or a
  step does not change (log 77). -/
  cycles : Nat
  /-- The rate by which QREF_OUT differs from 125 MHz, in 10^-12 (R72, R83, R87). -/
  qref : Int
  refs : Tbl RefSt
  /-- Consecutive measurements inside the lock window, at most 64 (R65). -/
  lockStreak : Nat
  /-- Consecutive measurements outside the lock window (Table 3-5). -/
  outStreak : Nat
  /-- TT spent LOCKED since FREE_RUN was last entered (R65). -/
  lockedNs : Nat
  /-- The last state evaluation, on the position clock. -/
  lastEval : Nat
  /-- Hold history, newest first: rate correction (10^-12) and when it was learned, on the position clock (R69). -/
  hist : List (Int × Nat)
  /-- Entry to HOLDOVER (or LOST) on the position clock, and e0 in ns (R69). -/
  hold : Option (Nat × Nat)
  /-- LOST was entered from FREE_RUN under R80 (Table 3-5). -/
  lostFromFree : Bool
  /-- The last measured phase error, ns (R60). -/
  err : Int
  /-- The slope in force in the present millisecond of TT, and that millisecond (R66). -/
  slope : Nat
  slopeMs : Nat
  /-- Twice the offsets of completed exchanges not yet filtered, per port, newest first (R70). -/
  exch : Tbl (List Int)
  /-- The last exchange taken on the position clock, per port (R81). -/
  exchTt : Tbl Nat
  /-- The last tick-phase update this lead made, on the position clock (R71). -/
  lastUpdate : Option Nat
  /-- The broadcast a receiver waits to adopt (R71). -/
  adopt : Option TickAdopt
  /-- The lowest-numbered rack lead seen (R79). -/
  lead : Option Nat
  /-- Broadcasts of this chip's tick phase handed to Quill, newest first: phase and tick (R71). -/
  bcast : List (Int × Nat)
  /-- The time-to-digital converter's calibration, ps per step (R62, R589). -/
  tdc : Nat
  deriving DecidableEq, Repr

/-- One position channel beside its registers (chapter 4). -/
structure PuCh where
  /-- Accepted levels of the three inputs; none before the synchroniser has delivered one (R88). -/
  lvl : Vector (Option Bool) 3
  /-- The filter of each input: the level that its synchroniser delivered last, and for how many position cycles it has
  been sampled unchanged, counted to 8 (R88). -/
  seen : Vector Bool 3
  run : Vector Nat 3
  /-- Position cycle of the last accepted edge of each input (R89). -/
  edge : Vector (Option Nat) 3
  /-- The count, 48 bits (R90). -/
  cnt : Nat
  /-- Counted edges kept: count after the edge and stamp, newest first (R97, R98). -/
  hist : List (Nat × Nat)
  /-- Edges counted since the channel started. -/
  edges : Nat
  /-- The count at which the channel started, and the furthest count in the flag's direction (R96). -/
  start : Nat
  far : Nat
  /-- Speed estimate in 2^-32 counts per ms, and when it was updated last and last at the 10 µs mark, in ns of the
  position clock (R97). -/
  speed : Int
  speedAt : Nat
  speedTick : Nat
  /-- The time from which standstill is timed: the last counted edge, in ns of the position clock (R99). -/
  still : Nat
  /-- The previous index latch (R95). -/
  idxPrev : Option Nat
  /-- The Hall reference state (R607). -/
  hallRef : Option Nat
  /-- SSI: a frame is in progress; the reference word; consecutive errors; the position cycle in which the last frame
  started (R92, R93). -/
  ssiBusy : Bool
  ssiRef : Option Nat
  ssiErr : Nat
  ssiStart : Option Nat
  /-- The last toggle of each input and the start of its threshold scan, in ns of the position clock; the inputs that have
  lost their swing, one bit each (R108). -/
  toggle : Vector (Option Nat) 3
  scan : Vector Nat 3
  lost : Nat
  deriving DecidableEq, Repr

/-- The state of an actuation entry (Table 12-5, AU_ENTRY). -/
inductive EntState where
  | armed | guard | disagreeing | firing
  deriving DecidableEq, Repr

/-- The anchor of a prediction: count, TT and speed of guard entry (R301), and the advance made before `t`, in
2^-32 counts × ns per ms, which a standstill holds (R303). -/
structure Anchor where
  c : Nat
  t : Nat
  v : Int
  adv : Int
  /-- tol and spd_pct in force at guard entry (R307). -/
  tol : Nat
  spd : Nat
  deriving DecidableEq, Repr

/-- One occupied place of the event table (R295 to R303). -/
structure AuEntry where
  /-- The post record, 256 bits (Table 12-2). -/
  post : Nat
  state : EntState
  /-- 0 batch builder; 1 host; 2 firmware; 3 remote. -/
  source : Nat
  chip : Nat
  /-- TT of acceptance. -/
  acc : Nat
  /-- Direction of approach is forward. -/
  fwd : Bool
  anchor : Option Anchor
  /-- While firing: TT of the pulse's start, the trigger time from which its width, least and greatest length count (R299,
  R300), and the end it has in TT (for a width in µs, or set by a cancel). -/
  start : Nat
  base : Nat
  stop : Nat
  /-- While firing: the least and greatest on-time and the merge gap in force at its start, ns (R300, R307). -/
  minOn : Nat
  maxOn : Nat
  gap : Nat
  /-- A cancel has set the end in TT (R306). -/
  cut : Bool
  deriving DecidableEq, Repr

/-- One actuation output (R304, R305). -/
structure AuOut where
  active : Bool
  /-- Level driven while the running pulse lasts: its active level at its start (R307). -/
  level : Bool
  /-- TT of the last pulse end. -/
  lastEnd : Option Nat
  /-- The output bridges a gap that began at this TT. -/
  bridge : Option Nat
  /-- The merge gap of the last pulse, ns. -/
  gap : Nat
  /-- TT up to which on-time has been added, and ns not yet a whole ms. -/
  onTt : Nat
  onNs : Nat
  /-- VALVE_WEAR has been posted since AU_WEAR was written (R305). -/
  warned : Bool
  deriving DecidableEq, Repr

/-- The actuation unit beside its registers (chapter 12). -/
structure AuState where
  table : Tbl AuEntry
  outs : Tbl AuOut
  /-- ACT_OE is high (R314). -/
  oe : Bool
  /-- Entries discarded with cause reset and not yet reported (R315). -/
  resetDiscards : Nat
  deriving DecidableEq, Repr

/-- The performance-counter collector beside its registers (chapter 23). -/
structure PcState where
  /-- Engine banks whose overflow waits for its capture; true when the bank then freezes (R575), by bank base. -/
  capture : Tbl Bool
  /-- The latches of the last instant, in bank order: 64-bit words (R571). -/
  latch : List Nat
  /-- The instant of a record that the collector is writing, with the held map and skipped count it carries. -/
  busy : Option (Nat × Nat × Nat)
  /-- Records written since reset; instants skipped since the previous record (R569, R571). -/
  seq : Nat
  skipped : Nat
  /-- TT of the last instant taken or skipped. -/
  lastInst : Nat
  /-- Per engine (core × 8 + engine): the LFSR of R573. -/
  lfsr : Tbl Nat
  /-- Per engine: the sample held, as (job, seg_id, pc, op, TT of issue, fetch to issue, held). -/
  tag : Tbl (List Nat)
  deriving DecidableEq, Repr

end Sys2Proof.Machine
end

