-- ==== Sys2Proof/Machine/StateBoot.lean ====
section
/-! DEFINITION. The state of boot flash, start-up and the management plane (chapters 19 to 21 and 24). -/

namespace Sys2Proof.Machine

/-- The installation record: machine tag, d, chip number, and the presence map's words (R375, Table 15-1). -/
structure Install where
  tag : Nat
  d : Nat
  chip : Nat
  present : List Nat
  deriving DecidableEq, Repr

/-- A key slot as the key store keeps it: uses, 256-bit flag and bytes (R426). -/
structure StoredKey where
  use : Nat
  k256 : Bool
  key : List Byte
  deriving DecidableEq, Repr

/-- A record of the checkpoint log (R590): kind 1 journal or 2 wear, record seq, TT of writing, first journal seq, entry
count, payload, and the sectors that it lies in. -/
structure CkRec where
  kind : Nat
  seq : Nat
  tt : Nat
  first : Nat
  count : Nat
  payload : List Byte
  sectors : List Nat
  deriving DecidableEq, Repr

/-- The checkpoint log (R590 to R593). -/
structure CkLog where
  /-- The sector being written and the bytes used in it; 0 bytes before any sector is open. -/
  cur : Nat
  used : Nat
  /-- Erase counts by sector, and retired sectors. -/
  erases : Tbl Nat
  retired : List Nat
  /-- The next sector sequence and record seq. -/
  secSeq : Nat
  recSeq : Nat
  recs : List CkRec
  deriving DecidableEq, Repr

/-- Boot flash (R467): what a reader finds in each record; a copy whose CRC fails is none. -/
structure Flash where
  /-- It answers and its SFDP tables are valid (Table 19-4); its bytes. -/
  ok : Bool
  size : Nat
  /-- Directory copies: sequence number and active image (0 A, 1 B). -/
  dir0 : Option (Nat × Nat)
  dir1 : Option (Nat × Nat)
  /-- Device key helper data: 0 all 0xFF, 1 rebuilds the key, 2 does not. -/
  helper : Nat
  install : Option Install
  /-- The boot count and the seal counters by key slot. -/
  boots : Nat
  seals : Tbl Nat
  /-- Key store copies and parameter store copies: sequence number and content. -/
  key0 : Option (Nat × Tbl StoredKey)
  key1 : Option (Nat × Tbl StoredKey)
  par0 : Option (Nat × List Param)
  par1 : Option (Nat × List Param)
  /-- The bytes of the parameter store in force, as FoE reads them. -/
  parBytes : List Byte
  imgA : List Byte
  imgB : List Byte
  log : CkLog
  deriving DecidableEq, Repr

/-- Bring-up, shutdown and background work beside their registers (chapters 19 and 24). -/
structure BootState where
  flash : Flash
  /-- The release of the firmware image running, and TT at which the present phase began. -/
  release : Nat
  phaseTt : Nat
  /-- The wait limit of the present phase has expired (R469); firmware has read the installation record (R374). -/
  expired : Bool
  installed : Bool
  /-- Shutdown: 0 none, 1 requested during bring-up, 2 draining, 3 waiting for jobs; TT of its start; parts ended at the
  limit. -/
  stop : Nat
  stopTt : Nat
  ended : Nat
  /-- Wear counters as last checkpointed, and TT of the last wear and journal checkpoints and of the last SRAM sweep. -/
  wear : List Byte
  wearTt : Nat
  jrnTt : Option Nat
  sramTt : Nat
  /-- An uncorrectable error in working SRAM was found (R599). -/
  sramBad : Bool
  /-- Part records of a warm reset that wait for the host port (R293), oldest first. -/
  late : List CRec
  /-- drain_s of object 0x2000. -/
  drain : Nat
  deriving DecidableEq, Repr

/-- What a mailbox response carries (R492, R495, R500). -/
inductive Resp where
  /-- SDO upload: index, subindex, data; with `more` bytes to follow in segments. -/
  | upload (index sub : Nat) (data : List Byte) (more : Nat)
  /-- SDO download done, or its initiate taken. -/
  | download (index sub : Nat)
  /-- A segment: toggle, data, no more segments. -/
  | segment (toggle : Bool) (data : List Byte) (last : Bool)
  | abort (index sub code : Nat)
  /-- SDO Information: the numbers of the answer. -/
  | info (l : List Nat) (name : String)
  /-- FoE: acknowledgement, data packet, error. -/
  | foeAck (packet : Nat)
  | foeData (packet : Nat) (data : List Byte)
  | foeError (code : Nat)
  /-- A mailbox error reply. -/
  | mailError (code : Nat)
  /-- An emergency message's 8 bytes. -/
  | emergency (data : List Byte)
  deriving DecidableEq, Repr

/-- A segmented SDO transfer (R495): TT of its last step. -/
structure SegXfer where
  upload : Bool
  index : Nat
  sub : Nat
  ca : Bool
  toggle : Bool
  size : Nat
  data : List Byte
  tt : Nat
  deriving DecidableEq, Repr

/-- An FoE transfer (R500): file, direction, data still to send or received so far, the packet number, and whether the
packet sent last ends the file. -/
structure FoeXfer where
  file : FoeFile
  read : Bool
  data : List Byte
  packet : Nat
  final : Bool
  deriving DecidableEq, Repr

/-- The EtherCAT port and the management plane beside their registers (chapters 20 and 21). -/
structure EcatState where
  /-- The AL state (1 INIT, 2 PREOP, 3 BOOT, 4 SAFEOP, 8 OP), its error bit and the AL status code. -/
  al : Nat
  alErr : Bool
  alCode : Nat
  /-- The configured lengths of SM2 and SM3, and FMMU settings as written. -/
  sm2 : Nat
  sm3 : Nat
  fmmu : Tbl (List Byte)
  /-- Links of ports 0 and 1. -/
  link0 : Bool
  link1 : Bool
  /-- SM0: a request not yet taken; SM1: a response not yet read, with its cnt; responses that wait for SM1, oldest
  first; the repeat acknowledgement toggle. -/
  sm0 : Option (List Byte)
  sm1 : Option (Resp × Nat)
  replies : List (Resp × Nat)
  rep : Bool
  /-- The cnt of the last executed request, its stored response with its cnt, and the cnt of the next response. -/
  lastCnt : Nat
  stored : Option (Resp × Nat)
  nextCnt : Nat
  /-- What the last frame read from SM1 and from SM3. -/
  lastRead : Option (Resp × Nat)
  lastIn : List Byte
  seg : Option SegXfer
  foe : Option FoeXfer
  /-- The output image in SM2, and mhb and tlm_sel as taken from it; TT of the last SM2 event. -/
  out : List Byte
  mhb : Nat
  tlmSel : Nat
  sm2Tt : Nat
  /-- The input image, and the millisecond of TT it was assembled in. -/
  image : List Byte
  imageMs : Option Nat
  /-- TT of the last service of the management watchdog. -/
  wdTt : Nat
  /-- Units in mismatch: TT of its start, and whether it was reported (R505). -/
  units : Tbl (Nat × Bool)
  /-- The cursor 0x2F00:05, key_data (0x2900:01), and 0x2600:08. -/
  cursor : Nat
  keyData : List Byte
  cancelResult : Nat
  /-- Part records by code, since power-on (object 0x2800). -/
  records : Tbl Nat
  deriving DecidableEq, Repr

end Sys2Proof.Machine
end

