-- ==== Sys2Proof/Machine/StateCore.lean ====
section
/-! DEFINITION. The state of the cores, the dispatcher and the batch builder (chapters 7 to 11). -/

namespace Sys2Proof.Machine

/-- A segment descriptor (Table 7-4), with the order in which it was posted to its engine. -/
structure Desc where
  job : Nat
  qos : Nat
  lc : Bool
  last : Bool
  hasWait : Bool
  waitStatic : Bool
  waitCtr : Nat
  waitVal : Nat
  codeAddr : Nat
  codeLen : Nat
  winBase : Nat
  winSize : Nat
  batchAddr : Nat
  segId : Nat
  rank : Nat
  order : Nat
  deriving DecidableEq, Repr

/-- The segment that an engine runs (R167, R175). -/
structure Running where
  desc : Desc
  /-- TT at which the engine started the entry, and TT of its first issue (R175). -/
  start : Nat
  issue : Option Nat
  /-- Byte offset of the next instruction from code_addr. -/
  pc : Nat
  /-- The in-segment wait in progress: counter and value. -/
  wait : Option (Nat × Nat)
  /-- It has executed an end, or its pc has reached code_len (R167). -/
  ended : Bool
  /-- The core has run below the image's floor during the segment (R175). -/
  below : Bool
  /-- An access or code fetch is unanswered (R175, R184). -/
  hung : Bool
  /-- A compute instruction in progress whose remote writes are not all acknowledged: its word, and the number of its first
  write (R206, R210). -/
  sent : Option (Nat × Nat)
  deriving DecidableEq, Repr

/-- One engine (R161): its queue, its segment and its registers. Unlisted registers hold 0 (R212, R238). -/
structure Engine where
  queue : List Desc
  run : Option Running
  /-- Stopped with a hung access (R184). -/
  stopped : Bool
  /-- Nest form: base slots bs0 to bs15. Bundle form: scalars s0 to s15 (64 bits). -/
  sreg : Tbl Nat
  /-- VE: v0 to v63, 64 lanes of 32 bits. RE: r0 to r31, 16 lanes of 64 bits. -/
  vreg : Tbl (List Nat)
  /-- VE: masks m0 to m7, 64 bits. -/
  mask : Tbl Nat
  /-- RE: modulus slots: q and the Barrett constant. -/
  modq : Tbl (Nat × Nat)
  /-- Ended segments whose writes are not all acknowledged (R167): the descriptor and the first write number that
  is not its own. -/
  ending : List (Desc × Nat)
  /-- Numbers of the remote writes outstanding, oldest first, and the number of the next (R162, R381). -/
  outW : List Nat
  nextW : Nat
  /-- Remote data of the instruction in progress: requests outstanding (chip, address, length), and what has arrived
  (chip, address, bytes). -/
  asked : List (Nat × Nat × Nat)
  fetched : List (Nat × Nat × List Byte)
  /-- Gather list words that the instruction in progress has read, in order (R204, R209). -/
  listed : List Nat
  /-- TE: the accumulator tiles 0 and 1 by rows; an unlisted tile holds 0 (R212). -/
  acc : Tbl (List (List Nat))
  /-- VE, RE: the last loads of the segment that have issued, newest first: the pc of the bundle and the address (R236). -/
  loads : List (Nat × Nat)
  deriving DecidableEq, Repr

/-- A remote access at the Quill outbound target, not yet sent (R381). -/
structure RemoteReq where
  /-- 0 write; 1 read; 2 signal; 3 actuation post. -/
  kind : Nat
  chip : Nat
  addr : Nat
  len : Nat
  bytes : List Byte
  /-- The master port that issued it (Table 13-3), and for a core its engine and write number. -/
  mst : Nat
  eng : Nat
  id : Nat
  /-- Signal: target core, counter, increment. -/
  core : Nat
  ctr : Nat
  n : Nat
  /-- TT of issue. -/
  tt : Nat
  /-- Signal: the sending job (R179). -/
  job : Option Nat := none
  deriving DecidableEq, Repr

/-- A signal on its way (R169, R172): target core and counter, increment; the job window it was meant for. -/
structure Signal where
  core : Nat
  ctr : Nat
  n : Nat
  /-- The window that held the counter when the signal was issued: its job; none for a static counter. -/
  job : Option Nat
  /-- The sending core and engine, 0xFF for none. -/
  fromCore : Nat
  fromEng : Nat
  /-- The sending engine's write numbers below this one must be acknowledged first (R162). -/
  after : Nat
  /-- A remote signal: the target chip. -/
  chip : Option Nat
  /-- The sending job (R179); none for a signal that no segment sent. -/
  owner : Option Nat := none
  deriving DecidableEq, Repr

/-- One job window (R170): its job, its counters; `closing` once its job has ended. -/
structure Window where
  job : Nat
  base : Nat
  size : Nat
  closing : Bool
  deriving DecidableEq, Repr

/-- One core (chapter 7). -/
structure Core where
  eng : Tbl Engine
  /-- Sync counters 0 to 255. -/
  sync : Tbl Nat
  /-- Window slots 0 to 11. -/
  win : Tbl Window
  /-- Static counters held by a recipe slot (R171). -/
  statics : Tbl Nat
  /-- TT of the last CR_SYNC write of each counter (R181). -/
  wrote : Tbl Nat
  deriving DecidableEq, Repr

/-- A command group as its ring entry gives it (Tables 10-3 and 22-2). -/
structure Group where
  ring : Nat
  index : Nat
  op : Nat
  dlKind : Nat
  ringWork : Bool
  dlCh : Nat
  win16 : Nat
  demand : Nat
  dlTt : Nat
  dlCnt : Nat
  cores : Nat
  segTable : Nat
  segCount : Nat
  userTag : Nat
  batchAddr : Nat
  src : Nat
  len : Nat
  keySlot : Nat
  rcpSlot : Nat
  /-- The entry breaks its layout, or could not be read (R546, R262). -/
  bad : Bool
  /-- Posted by the batch builder: recipe slot, and 2 × step number + 0 for a detect or 1 for an infer group (R270). -/
  step : Option (Nat × Nat)
  /-- Its segment records, in table order. -/
  segs : List ProgSeg
  deriving DecidableEq, Repr

/-- An admitted job (R243 to R255). -/
structure Job where
  group : Group
  lc : Bool
  /-- Admission order, and TT of admission. -/
  seq : Nat
  adm : Nat
  /-- TT deadline used for ordering (R242, R245). -/
  deadline : Option Nat
  /-- Direction of approach of an encoder deadline (R245). -/
  fwd : Bool
  /-- The deadline has expired (R246). -/
  expired : Bool
  started : Bool
  /-- Segments not yet posted, with their numbers, in table order. -/
  todo : List (Nat × ProgSeg)
  /-- Segments posted and not yet complete. -/
  inFlight : Nat
  /-- Segments that were posted to a core that has since been held in reset: the group waits for them until its deadline, a
  cancel or a fault (R49, R260, log 97). -/
  lost : Nat := 0
  /-- Core-ns used by its segments (R248). -/
  busy : Nat
  /-- Event code of its fault (R177); 0 none. -/
  fault : Nat
  frozen : Bool
  /-- TT of JOB_DEADLOCK (R254). -/
  frozenTt : Nat
  /-- Cancelled, and running segments remain (R253). -/
  cancelled : Bool
  /-- TT of the cancel (R181). -/
  cancelTt : Nat := 0
  /-- Dropped at its deadline, and running segments remain (R252). -/
  dropped : Bool
  /-- Causes of DEADLINE_UNCONVERTIBLE already posted (R246). -/
  unconv : List Nat
  /-- TT since when the stall watch's conditions have all held (R176). -/
  stall : Option Nat
  deriving DecidableEq, Repr

/-- A completed group whose record waits for GROUP_COMPLETION: its status, cause, and the job's figures (R255). -/
structure Done where
  group : Group
  job : Nat
  admitted : Bool
  adm : Nat
  deadline : Option Nat
  busy : Nat
  status : Nat
  cause : Nat
  /-- TT of completion. -/
  tt : Nat
  deriving DecidableEq, Repr

/-- The dispatcher beside its registers (chapter 10). -/
structure DsState where
  /-- Jobs by tag. -/
  jobs : Tbl Job
  /-- Internal groups that wait on a step ring, oldest first (R268, R270). -/
  steps : List Group
  /-- Admissions made. -/
  seq : Nat
  /-- Descriptors posted. -/
  order : Nat
  /-- BE rings: credit left in the round; the ring number at which the rotation begins; TT since when starved, and whether it was posted (R249). -/
  credit : Tbl Nat
  rotation : Nat
  starve : Tbl (Nat × Bool)
  /-- Completed groups whose record is not yet made, oldest first (R255). -/
  dones : List Done
  /-- Jobs that ended with RESET and whose records wait for the host port (R187). -/
  resets : List Done
  /-- A load runs on a ring (R253): the group, and TT at which it was taken up. -/
  loads : Tbl (Group × Nat)
  /-- Rings whose head group waits for a tag or a window (R243): whether LC, its deadline, its cores, its window blocks. -/
  waiting : Tbl (Bool × Nat × Nat × Nat)
  /-- Entries cancelled before admission that the head has not passed: ring and index (R253). -/
  skips : List (Nat × Nat)
  /-- Floor frequencies of loaded images and recipes, MHz (R443): by recipe slot, and models under 16 upward. -/
  floors : Tbl Nat
  /-- Admissions of internal groups so far (their index, R255), and the frozen-cancel delay of object 0x2600, ms (R254). -/
  stepIx : Nat
  frozenMs : Nat
  deriving DecidableEq, Repr

/-- Where a part stands (R274, R279). -/
inductive Stage where
  | active | closing | deciding
  deriving DecidableEq, Repr

/-- A context record taken or waiting (R278): key, tokens, data address, bytes per token. -/
structure CtxRec where
  key : Nat
  tokens : Nat
  addr : Nat
  bytes : Nat
  deriving DecidableEq, Repr

/-- One open part (R274 to R285). -/
structure Part where
  /-- Part slot; none for a shadow entry (R275). -/
  slot : Option Nat
  gen : Nat
  ordinal : Nat
  handle : Nat
  openTt : Nat
  openCnt : Nat
  close : Option (Nat × Nat)
  pipeLo : Nat
  pipeHi : Nat
  colLo : Nat
  colHi : Nat
  /-- Opened in the step being built (flag opened). -/
  fresh : Bool
  stage : Stage
  /-- Tokens in the KV region; strip and context tokens taken in all; those of the present step. -/
  tokPos : Nat
  stripTok : Nat
  ctxTok : Nat
  stepStrip : Nat
  stepCtx : Nat
  ctx : Option CtxRec
  replaced : Nat
  missing : Nat
  overlength : Bool
  inputFailed : Bool
  /-- The accepted verdict word (R281). -/
  word : Option Nat
  ignored : Bool
  late : Bool
  /-- Its first and last line slot in the present step's strips (R290). -/
  spanLo : Nat
  spanHi : Nat
  /-- Direction of approach of its verdict deadline (R245, R283). -/
  fwd : Bool
  /-- Peer: the address word of its evidence area in the owner's slot (R273). -/
  evAddr : Nat
  forced : Bool
  /-- Its decide segments are in the present infer group. -/
  inDecide : Bool
  /-- It has ended with this reason of DEFAULT_DEADLINE, its event posted or not; the record waits for the end of the group
  that decides it (R32, R283). -/
  owed : Option (Nat × Bool)
  deriving DecidableEq, Repr

/-- The phase of a running recipe's step (R270, R271). -/
inductive StepPhase where
  | idle | detect | marks | infer
  deriving DecidableEq, Repr

/-- A strip that a pipeline has produced and the recipe has not consumed (R269): pipeline, seq, buffer address,
tt_first, tt_last, cnt_first, cnt_last, replaced-line mask, strips lost just before it, and its resumed flag. -/
structure StripIn where
  pipe : Nat
  seq : Nat
  addr : Nat
  ttFirst : Nat
  ttLast : Nat
  cntFirst : Nat
  cntLast : Nat
  replaced : Nat
  lost : Nat
  resumed : Bool
  /-- TT at which it was produced (R269). -/
  prodTt : Nat
  deriving DecidableEq, Repr

/-- One recipe slot (chapter 11). -/
structure RcpSlot where
  recipe : Option RecipeDesc
  /-- Sections placed by its load: address and length (R549). -/
  sections : List (Nat × Nat)
  loading : Bool
  /-- Steps triggered since the run started; the present step's phase and trigger TT. -/
  k : Nat
  phase : StepPhase
  tk : Nat
  /-- Strips waiting for a step, oldest first, and those of the present step. -/
  strips : List StripIn
  taken : List StripIn
  /-- tt_first of the last steps, newest first, at most 9. -/
  starts : List Nat
  /-- Mark batches received from the owner and not yet applied: step, opens and closes (R273). -/
  batches : List MarkBatch
  /-- Steps built without their batch (R273), and the strips of each, until its batch is applied (R274). -/
  lateSteps : List Nat
  lateTaken : List (Nat × List StripIn)
  nextOrdinal : Nat
  gens : Tbl Nat
  parts : List Part
  /-- Context records published and not taken, oldest first. -/
  ctxq : List CtxRec
  /-- The open stamp, TT and count, of the part opened last (R278). -/
  lastOpen : Option (Nat × Nat)
  /-- The step group that has ended and has not been acted on: detect (0) or infer (1) (R270, R271). -/
  ended : Option Nat
  /-- The present step was dropped (R290). -/
  dropped : Bool
  /-- The pipelines missing or with lost strips in the present step. -/
  missed : List Nat
  /-- The parts of the last infer table (R276), and tt_first of each pipeline's last strip (R290). -/
  table : List Part
  lastTt : Tbl Nat
  /-- Slots freed since the last build whose part had an accepted word, with their gen (Table 11-13). -/
  spent : List (Nat × Nat)
  deriving DecidableEq, Repr

end Sys2Proof.Machine
end

