-- ==== Sys2Proof/Machine/StateEnv.lean ====
section
/-! DEFINITION. The state of the environment monitor and of the loops of each core island (chapter 18). -/

namespace Sys2Proof.Machine

/-- The loops of one core island (R443 to R447, R452). -/
structure EnvCore where
  /-- Slack samples of the present period; TT of the last evaluation. -/
  samples : List Nat
  evalTt : Nat
  /-- Periods in a row with surplus slack; TT since when slack has stayed above margin + hyst. -/
  surplus : Nat
  above : Option Nat
  /-- Decreases are blocked until this TT (R446). -/
  block : Nat
  /-- TT of the last frequency step; end of the settling before a raise; the code requested and when. -/
  stepTt : Option Nat
  settle : Option Nat
  req : Option (Nat × Nat)
  /-- CPMs excluded, one bit each (R461). -/
  excl : Nat
  /-- TT of the last change of the voltage code, and of the ceiling. -/
  vTt : Nat
  ceilTt : Option Nat
  /-- THERMAL_THROTTLE was posted for this excursion. -/
  hot : Bool
  deriving DecidableEq, Repr

/-- One voltage monitor (R453, R463): samples in a row outside the warn and fault windows, TT since when it reads inside
the warn window, and the island that a core monitor scans next. -/
structure EnvMon where
  warnN : Nat
  faultN : Nat
  inTt : Option Nat
  scan : Nat
  deriving DecidableEq, Repr

/-- One fan (R454 to R456, R464): end of the kick or of the pause before the next one, TT of the last tach edge, TT since
when its edges are at or above tach_min, and whether its configuration has not been written since POR_N. -/
structure EnvFan where
  kick : Option Nat
  pause : Option Nat
  edge : Nat
  good : Option Nat
  boot : Bool
  deriving DecidableEq, Repr

/-- The environment monitor beside its registers. -/
structure EnvState where
  cores : Tbl EnvCore
  /-- TT of the last update of each thermal site. -/
  sites : Tbl Nat
  /-- A site has exceeded t_crit and not every site has cooled (R452). -/
  crit : Bool
  mons : Tbl EnvMon
  fans : Tbl EnvFan
  deriving DecidableEq, Repr

end Sys2Proof.Machine
end

