-- ==== Sys2Proof/Machine/StateFab.lean ====
section
/-! DEFINITION. The state of the fabric (chapter 13). -/

namespace Sys2Proof.Machine

/-- A transaction that a master port has presented and that is not yet answered (R320, R331, R332). -/
structure FabTxn where
  /-- Its number, in order of presentation. -/
  n : Nat
  /-- Master id; for a core, whether the write port carries it (R319). -/
  mst : Nat
  write : Bool
  /-- Local byte address and length; for another chip, its number. -/
  addr : Nat
  len : Nat
  chip : Option Nat
  /-- A write's bytes; none where the byte enable is off. -/
  data : List (Option Byte)
  qos : Nat
  /-- TT at which it was presented. -/
  tt : Nat
  /-- 64-byte blocks that its targets have not served, ascending; the bytes read so far by block. -/
  left : List Nat
  got : Tbl (List Byte)
  /-- Some beat met an error. -/
  err : Bool
  /-- Burrow: its tag and the TT at which it was sent. -/
  tag : Option Nat
  sent : Nat
  /-- Held by the null target; waiting behind an access that is (R331). -/
  hung : Bool
  waits : Bool
  /-- Its master port is in reset: it is completed with every byte enable off and its data is discarded (R332). -/
  dead : Bool
  /-- It waits for a REMAP write to apply (Table 13-10). -/
  remap : Bool
  deriving DecidableEq, Repr

/-- The last response of a master port: transaction, direction, error, bytes read. -/
structure FabAns where
  n : Nat
  write : Bool
  err : Bool
  bytes : List Byte
  deriving DecidableEq, Repr

/-- A scrub pass (R330): the block it reads next, the TT at which it began, and whether SCRUB_BEHIND was posted. -/
structure Scrub where
  pos : Nat
  start : Nat
  behind : Bool
  deriving DecidableEq, Repr

/-- A port in reset (R332): accesses abandoned so far, ordered through FB_PORT_RST, and TT of the order. -/
structure PortRst where
  count : Nat
  ordered : Bool
  tt : Nat
  /-- Burrow: BURROW_DOWN has been posted (R333). -/
  down : Bool
  deriving DecidableEq, Repr

/-- The fabric beside its registers. -/
structure FabState where
  txns : List FabTxn
  next : Nat
  /-- Last response by master id. -/
  answers : Tbl FabAns
  /-- Master ports and targets in reset, by id. -/
  mrst : Tbl PortRst
  trst : Tbl PortRst
  /-- Hoard write-backs pending: the word (address / 8) by bank (R326). -/
  wback : Tbl Nat
  /-- Burrow rewrites pending: block addresses by port, oldest first (R328). -/
  rewrites : Tbl (List Nat)
  /-- The Hoard has been zeroed (R339). -/
  ready : Bool
  /-- A REMAP write that waits (Table 13-10). -/
  remap : Option Nat
  /-- Scrub passes: 0 the Hoard, 1 + p Burrow port p. -/
  scrub : Tbl Scrub
  /-- Fills running: TT of their start, by port (R329). -/
  fill : Tbl Nat
  /-- Words of scratch or Hoard (address / 8) that hold a correctable error, with their value; a word rewritten with another
  value holds none any more (R185, R326, log 93). -/
  soft : List (Nat × Nat)
  deriving DecidableEq, Repr

end Sys2Proof.Machine
end

