-- ==== Sys2Proof/Machine/StateInput.lean ====
section
/-! DEFINITION. The state of camera ingress, the pixel pipelines and the decoder (chapters 5 and 6), and of the
per-lane PHY tuning loops (chapter 18). -/

namespace Sys2Proof.Machine

/-- One calibration bank (R122 to R124, R128). Unlisted words hold their value of R139. -/
structure CalBank where
  words : Tbl Nat
  defCount : Nat
  defs : Tbl Nat
  rsCount : Nat
  rs : Tbl Nat
  deriving DecidableEq, Repr

/-- A stream packet in a deskew buffer (R118). -/
structure Deskewed where
  lane : Nat
  tag : Nat
  /-- Its arrival, in ns of the position clock. -/
  came : Nat
  items : List CxpItem
  deriving DecidableEq, Repr

/-- The image header in force and the lines it has delivered. -/
structure ImgHdr where
  fmt : Nat
  width : Nat
  height : Nat
  seen : Nat
  deriving DecidableEq, Repr

/-- The line being received: its bytes, stamp and count, and whether it is damaged already (R119, R120). -/
structure LineIn where
  bytes : List Byte
  tt : Nat
  cnt : Option Nat
  damaged : Bool
  deriving DecidableEq, Repr

/-- One filled line slot of the strip being built. -/
structure Slot where
  bytes : List Byte
  tt : Nat
  cnt : Option Nat
  replaced : Bool
  deriving DecidableEq, Repr

/-- A strip whose writes are not yet acknowledged (R127). -/
structure StripOut where
  bytes : List Byte
  strip : StripIn
  deriving DecidableEq, Repr

/-- One camera and its pipeline beside its registers (chapter 5). -/
structure Pipe where
  bank0 : CalBank
  bank1 : CalBank
  /-- A checked swap waits for the next strip (R128). -/
  swap : Bool
  /-- Members that have delivered a stream packet since the group went down (R118). -/
  delivered : Nat
  /-- The group has been up since the camera was enabled (Table 20-7). -/
  wasUp : Bool
  buf : List Deskewed
  nextTag : Option Nat
  /-- Skews measured, with when in ns of the position clock, newest first (CX_CAM_STATUS.skew). -/
  skews : List (Nat × Nat)
  img : Option ImgHdr
  cur : Option LineIn
  /-- A tag gap has passed and no line marker has followed. -/
  gap : Bool
  slots : List Slot
  /-- The strip being filled is lost (R132); the next strip carries resumed (R137). -/
  lost : Bool
  resumed : Bool
  /-- The previous accepted line. -/
  prev : Option (List Byte)
  /-- The sequence number of the strip being filled. -/
  seq : Nat
  out : List StripOut
  /-- In ns of the position clock: the last accepted line or the setting of en, and when the stall was declared (R137). -/
  lastAcc : Option Nat
  stallAt : Nat
  /-- TT and count between the outermost accepted lines of the last strip that had two, and their distance in lines. -/
  period : Option (Int × Int × Nat)
  /-- Until when the line before occupies the pipeline, in ns of the position clock (R132). -/
  busy : Nat
  /-- The strips written and not known to be released, newest first (R132). -/
  used : List Nat
  /-- The last strip that the batch builder was told of. -/
  told : Option Nat
  /-- The uplink: its driver is enabled, its bit rate in kbit/s, and the last packet sent on it; the line is low while no
  packet goes out (R116, R129, R139, R140). -/
  upOn : Bool
  upRate : Nat
  uplink : List Byte
  deriving DecidableEq, Repr

/-- What a decoder channel feeds to its pipeline, in order (R147 to R155). -/
inductive DecItem where
  /-- A line: bytes, recorded TT, recorded count. -/
  | line (bytes : List Byte) (tt : Nat) (cnt : Option Nat)
  /-- A replaced line: substitute bytes, or none for a fill line. -/
  | fill (bytes : Option (List Byte))
  /-- Complete the partial strip with replaced lines, and let the next strip carry resumed (R150); the gap in µs. -/
  | breakStrip (us : Nat)
  /-- Complete the partial strip with copies of the last row (R146). -/
  | pad
  /-- Complete the partial strip at an end record (R149). -/
  | close
  deriving DecidableEq, Repr

/-- One decoder channel beside its registers (chapter 6). -/
structure DecCh where
  /-- Stream bytes read and not yet used, and the bytes left unused of each descriptor read, oldest first. -/
  buf : List Byte
  ends : List Nat
  /-- Bytes of a skipped record that have not arrived yet. -/
  skip : Nat
  /-- Bytes passed over by the search of R154. -/
  searched : Nat
  searching : Bool
  /-- The stream was refused; nothing more of it is read. -/
  refused : Bool
  /-- Format and width of the file header, and its line_period_ns. -/
  fmt : Nat
  width : Nat
  period : Nat
  /-- rec_seq expected next; TT expected for the next line. -/
  nextSeq : Nat
  expTt : Option Nat
  queue : List DecItem
  /-- Δ of R148, once the first line has entered. -/
  delta : Option Int
  /-- A long gap closed the strip: its length in µs, until the next line enters (R150). -/
  resume : Option Nat
  records : Nat
  strips : Nat
  /-- The substitute record's lines (R155, R156), taken when it was accepted. -/
  subst : List (List Byte)
  deriving DecidableEq, Repr

/-- What an access on the PHY tuning interface is for (R448). -/
inductive PhyFn where
  | eye | eq | thr | rate
  deriving DecidableEq, Repr

/-- A PHY tuning access (Table 2-7). -/
structure PhyReq where
  fn : PhyFn
  write : Bool
  addr : Nat
  data : Nat
  deriving DecidableEq, Repr

/-- A tuning trial in progress (R449): which code, the code it started from, the stage (0 at c, 1 at c + 1, 2 at
c − 1), the readings of the stage, the averages so far (none: scores lowest), and the end of the dwell. -/
structure Trial where
  thr : Bool
  c : Nat
  stage : Nat
  reads : List Nat
  avg : List (Option Nat)
  dwell : Option Nat
  spoiled : Bool
  deriving DecidableEq, Repr

/-- The tuning loop of one lane: CoaXPress lane l is l, Quill port p is 128 + p. -/
structure TuneLane where
  /-- Accesses waiting, the first on the interface. -/
  reqs : List PhyReq
  /-- Consecutive timeouts; the loop has stopped; TT of the retry (R50). -/
  fails : Nat
  stopped : Bool
  retry : Option Nat
  /-- The last acknowledged equaliser code and threshold code: the stored settings (R48, R50). -/
  code : Nat
  thr : Nat
  /-- The lane's SerDes was reset and has not been seen ready since (R48, log 87). -/
  down : Bool
  thrTurn : Bool
  trial : Option Trial
  next : Nat
  deriving DecidableEq, Repr

end Sys2Proof.Machine
end

