-- ==== Sys2Proof/Machine/StateMgmt.lean ====
section
/-! DEFINITION. The state of the fabric, Quill, the audit contexts, the cipher unit, the environment, start-up and the
management plane (chapters 13 to 24). -/

namespace Sys2Proof.Machine

/-- The operation that the cipher unit's firmware port holds (R424, R427, R428). -/
structure CuOp where
  op : Nat
  slot : Nat
  fwkey : Bool
  /-- gen of the slot when the operation started. -/
  gen : Nat
  src : Nat
  dst : Nat
  aad : Nat
  tag : Nat
  len : Nat
  aadLen : Nat
  /-- GHASH accumulator or CMAC chaining value; current counter block; E(K, J0) (Table 17-4). -/
  acc : Nat
  ctr : Nat
  ek : Nat
  /-- AAD bytes and payload bytes processed, and input bytes of a partial block not yet processed. -/
  aadDone : Nat
  done : Nat
  part : List Byte
  suspended : Bool
  /-- Restored from memory: its addresses are taken from the registers when it resumes (log 45). -/
  restored : Bool
  /-- A read or write met an uncorrectable error. -/
  bad : Bool
  deriving DecidableEq, Repr

/-- The cipher unit beside its registers (chapter 17). -/
structure CuState where
  /-- Self-tests: 0 running, 1 passed, 2 failed (R436). -/
  test : Nat
  /-- The device key could not be rebuilt (R436). -/
  devBad : Bool
  /-- The boot count and the save counter (R428). -/
  boot : Nat
  saves : Nat
  /-- Key bytes by slot; CU_KEY_DATA as written. -/
  keys : Tbl (List Byte)
  data : Tbl Nat
  fw : Option CuOp
  /-- Audit contexts whose operation the audit port holds (first) or queues (R427). -/
  audit : List Nat
  /-- The port that the datapath serves: 0 firmware, 1 audit. -/
  turn : Option Nat
  deriving DecidableEq, Repr

/-- An audit context beside its registers (chapter 16). -/
structure AudCtx where
  /-- The 64 bytes of the package header, its address, and the region's base. -/
  hdr : List Byte
  pkg : Nat
  region : Nat
  /-- The command in progress: its source, and for a seal the record's address, the counter and the state before. -/
  src : Src
  out : Nat
  ctr : Nat
  was : Nat
  deriving DecidableEq, Repr

/-- The audit contexts' shared state. -/
structure AudState where
  ctx : Tbl AudCtx
  /-- Seal counters by key slot, and whether firmware has restored them from boot flash (R411, R418). -/
  sealCtr : Tbl Nat
  restored : Bool
  deriving DecidableEq, Repr

end Sys2Proof.Machine
end

