-- ==== Sys2Proof/Machine/StateQuill.lean ====
section
/-! DEFINITION. The state of Quill link framing and of the Quill machine (chapters 14 and 15). -/

namespace Sys2Proof.Machine

/-- The receive side of a port beside its registers (R344 to R352). -/
structure QRx where
  /-- PRESYNC: FAWs found; SYNC: errored FAWs in a row. -/
  cnt : Nat
  /-- The MFI expected next; frames in a row with another. -/
  mfi : Nat
  mfiBad : Nat
  /-- The TS and GC words of this multiframe are discarded (R349). -/
  skip : Bool
  /-- Parity of the previous frame as received. -/
  parity : Option Nat
  /-- Mismatched bits of the last frame, for the REM that this chip sends. -/
  rei : Nat
  /-- Defects before masking: LOS, OOF, LOF, TIM, AIS, RDI, SF, SD from bit 0. -/
  raw : Nat
  /-- Frames in a row with SIG = 7, with SIG ≠ 7, with rdi 1, with rdi 0 (Table 14-5). -/
  aisOn : Nat
  aisOff : Nat
  rdiOn : Nat
  rdiOff : Nat
  /-- SF and SD windows: frames and errors so far; good SF windows in a row. -/
  sfN : Nat
  sfErr : Nat
  sfGood : Nat
  sdN : Nat
  sdErr : Nat
  /-- TT since when OOF, or no OOF. -/
  oofTt : Option Nat
  syncTt : Option Nat
  /-- Trace bytes of this multiframe (newest first), the previous trace, and identical ones in a row. -/
  trace : List Byte
  last : List Byte
  same : Nat
  /-- TS words 0 to 2 of this multiframe, whether one is unusable, and the receive stamp of its MFI-0 frame. -/
  ts : Tbl Nat
  tsBad : Bool
  t4 : Nat
  /-- The last MFI-0 frame: its receive stamp and the TS word it carried (Table 14-3). -/
  mf0 : Option (Nat × Nat)
  deriving DecidableEq, Repr

/-- The transmit side of a port (R343 to R353). -/
structure QTx where
  mfi : Nat
  /-- Multiframes sent since en was set. -/
  mf : Nat
  /-- Parity of the previous frame as sent. -/
  parity : Nat
  /-- The words 1 and 2 of Table 14-3 for this multiframe. -/
  ts1 : Nat
  ts2 : Nat
  /-- The last frame sent. -/
  frame : List Byte
  deriving DecidableEq, Repr

/-- A slot that a relay switches onward (R354): where it goes, up to 4 slot frames with their numbers, oldest first, and
the last GC and ACK words. -/
structure QRelay where
  port : Nat
  slot : Nat
  store : List (Nat × List Byte)
  next : Nat
  gc : Option Nat
  ack : Nat
  deriving DecidableEq, Repr

/-- One member of a group pair (R355, R356). -/
structure QMember where
  port : Nat
  slot : Nat
  healthy : Bool
  /-- TT since when it has met every condition. -/
  okTt : Option Nat
  /-- TT of the last valid GC word; its path_ais. -/
  gcTt : Option Nat
  ais : Bool
  /-- The slot frame expected next, in the sink's own count; the last gfn agreed; its last delay, ns. -/
  cnt : Option Nat
  gfnOk : Bool
  delay : Nat
  /-- Slot frames formed and not yet sent, oldest first. -/
  txq : List (Nat × List Byte)
  deriving DecidableEq, Repr

/-- A map change that this source has announced (R357): D, eff, the rs_ack value at its start, and the group frames
formed since. -/
structure QChange where
  d : Nat
  eff : Nat
  rs : Bool
  age : Nat
  deriving DecidableEq, Repr

/-- The group pair of a dimension, with its stream and its detour (chapters 14 and 15). -/
structure QGroup where
  members : Tbl QMember
  /-- Source: the group frame formed next, the map in force, the change in progress, the announcement. -/
  txNext : Nat
  txMap : Nat
  change : Option QChange
  ann : Nat × Nat
  /-- okmap of the opposite sink and its rs_ack, from the most recent accepted word. -/
  farOk : Nat
  rsIn : Bool
  /-- Members taken out of the desired map: a planned remove, and those that a detour lends. -/
  drop : Nat
  /-- A member request in progress and one waiting: sq and add (R365). -/
  req : Option (Nat × Bool)
  reqWait : Option (Nat × Bool)
  /-- What the end of the change that drops members brings: 0 nothing, 1 the legs of a detour, 2 the direct members
  again (R387, R388). -/
  after : Nat
  /-- Sink: the map in force, a pending one with its eff, the last announcement taken, the group frame released next,
  and the rs_ack that it sends. -/
  rxMap : Nat
  rxPend : Option (Nat × Nat)
  rxAnn : Option (Nat × Nat)
  rxNext : Nat
  rsOut : Bool
  /-- The deskew store: by group frame number mod 256, the number and the shares by sq with the TT of their arrival (R359). -/
  arr : Tbl (Nat × Tbl (Nat × List Byte))
  up : Bool
  /-- The last ACK word received: kind, seq, aux (R360). -/
  ackIn : Option (Nat × Nat × Nat)
  /-- Sender: acknowledged offset; stream bytes from there; message ends among them; how many were sent; KiB of
  credit; TT of the last advance; messages waiting for the send buffer. -/
  acked : Nat
  buf : List Byte
  ends : List Nat
  sent : Nat
  credit : Nat
  advTt : Nat
  msgs : List (List Byte)
  /-- Receiver: E, a resend is outstanding, bytes of an incomplete message, messages received whole. -/
  e : Nat
  resend : Bool
  part : List Byte
  inbox : List (List Byte)
  /-- TT since when the direct group is down, and since when direct members 0 to 11 are healthy (R386, R388). -/
  downTt : Option Nat
  directTt : Option Nat
  deriving DecidableEq, Repr

/-- A detour at a chip of its path (R386, R387): the failed dimension, j, the initiator, the chip's place (0 initiator,
1 r1, 2 r2, 3 b), and its stage (0 requested, 1 committed, 2 legs set up). -/
structure QDetour where
  i : Nat
  j : Nat
  chip : Nat
  place : Nat
  stage : Nat
  deriving DecidableEq, Repr

/-- A remote access that was sent under a tid (R383). -/
structure QOut where
  req : RemoteReq
  tt : Nat
  deriving DecidableEq, Repr

/-- A distribution at its root (R390). -/
structure QDist where
  id : Nat
  src : Nat
  dst : Nat
  len : Nat
  rack : Bool
  /-- The index sent next, the chips that have reported, TT of its start. -/
  next : Nat
  reports : List Nat
  tt : Nat
  deriving DecidableEq, Repr

/-- A distribution arriving at this chip: root, id, destination, length, the indices held, and whether it was refused. -/
structure QRecv where
  root : Nat
  id : Nat
  dst : Nat
  len : Nat
  held : List Nat
  refused : Bool
  deriving DecidableEq, Repr

/-- Quill beside its registers. -/
structure QState where
  rx : Tbl QRx
  tx : Tbl QTx
  /-- Relayed slots, by port × 24 + slot of arrival. -/
  relays : Tbl QRelay
  groups : Tbl QGroup
  detours : List QDetour
  /-- Outstanding accesses by tid; TT at which a freed tid's last access ended; the tid tried next. -/
  tids : Tbl QOut
  freed : Tbl Nat
  tidNext : Nat
  /-- Slots of groups that end here carry stuffing (R370). -/
  stuff : Bool
  running : Option QDist
  waiting : Option QDist
  recv : List QRecv
  /-- Messages of a reserved kind dropped (R380). -/
  reserved : Nat
  deriving DecidableEq, Repr

end Sys2Proof.Machine
end

