-- ==== Sys2Proof/Machine/State.lean ====
section
/-! DEFINITION. The state of the block: every register, table, queue and mode that the manual gives it, as plain
data, with the machine right after the release of POR_N. -/

namespace Sys2Proof.Machine

/-- No command stops the block: every rule of the manual ends in a state. -/
inductive Fault where
  deriving DecidableEq, Repr

/-- Why a command has no meaning. -/
inductive Refusal where
  /-- Raised by the dispatch arm of a command that the model does not give a meaning to; safe. -/
  | notModelled (mnemonic : String)
  deriving DecidableEq, Repr

/-- The state. -/
structure State where
  /-- The delivered configuration (R38), which no command changes. -/
  cfg : Cfg
  /-- Register words by register-space offset; an unlisted word holds its reset value. -/
  regs : Tbl Word
  /-- The latches of R59, by the offset of the _HI register. -/
  hiLatch : Tbl Nat
  /-- Values written to a _LO register and held for the write of its _HI (R544), by the offset of _LO. -/
  loHeld : Tbl Nat
  /-- The word that the last register read returned. -/
  rdata : Nat
  /-- TT, 64 bits (R57). -/
  tt : Nat
  /-- The fraction of TT, in 2^-32 ns (R57). -/
  ttFrac : Nat
  /-- The model's own count of free values drawn (log 1). -/
  free : Nat
  /-- Memory by local address, with REMAP 0 numbering for boot memory (R317). -/
  mem : Memory
  /-- 64-bit words, by local address / 8, known to hold an uncorrectable error (R185, R326). -/
  badWords : List Nat
  /-- POR_N is asserted; WARM_RST_N is asserted; the device is powered (R47, R481). -/
  por : Bool
  warm : Bool
  powered : Bool
  /-- Islands held in reset (R49): core n is n, pixel group g is 32 + g, link p is 40 + p (the order of R571), fabric
  52, position 53, management 54. -/
  heldIsl : List Nat
  /-- The last bring-up phase that is done (R469); 0 before ROM is done. -/
  phaseDone : Nat
  /-- BYPASS_HOLD and ECAT_BYPASS_HOLD toggle (R55, R101, R493). -/
  bypassHold : Bool
  ecatHold : Bool
  /-- The management watchdog has expired (R510). -/
  mgmtHalted : Bool
  ev : EvState
  jrn : Journal
  host : HostPort
  tb : TbState
  pu : Tbl PuCh
  au : AuState
  pc : PcState
  pipes : Tbl Pipe
  decs : Tbl DecCh
  tune : Tbl TuneLane
  cores : Tbl Core
  /-- Signals on their way, in order of issue (R169). -/
  signals : List Signal
  /-- Remote accesses at the Quill outbound target, in order of issue (R381). -/
  remote : List RemoteReq
  ds : DsState
  rcp : Tbl RcpSlot
  cu : CuState
  aud : AudState
  fab : FabState
  quill : QState
  env : EnvState
  boot : BootState
  ecat : EcatState
  /-- The emergency mask of object 0x2000 (R501, R524). -/
  emcyMask : Nat
  /-- The commands that wait, first in first out. -/
  pending : List Instr
  deriving DecidableEq, Repr

/-- Boot flash as it is delivered to the model's reset: it answers, it is 16 MiB and nothing is programmed (log 6). -/
def Flash.blank : Flash :=
  { ok := true, size := 16777216, dir0 := none, dir1 := none, helper := 0, install := none, boots := 0, seals := Tbl.empty,
    key0 := none, key1 := none, par0 := none, par1 := none, parBytes := [], imgA := [], imgB := [],
    log := { cur := 0, used := 0, erases := Tbl.empty, retired := [], secSeq := 0, recSeq := 0, recs := [] } }

/-- The machine at the release of POR_N with a configuration, a boot flash, a count of free values and waiting commands
(R12, R490): every register at its reset value, every queue empty. -/
def State.cold (c : Cfg) (f : Flash) (free : Nat) (pending : List Instr) : State :=
  { cfg := c, regs := Tbl.empty, hiLatch := Tbl.empty, loHeld := Tbl.empty, rdata := 0, tt := 0, ttFrac := 0, free := free,
    mem := ⟨[]⟩, badWords := [], por := false, warm := false, powered := true, heldIsl := [], phaseDone := 0,
    bypassHold := false, ecatHold := false, mgmtHalted := false,
    ev := { hostq := [], mgmt := [], last := [], occ := Tbl.empty, lost := false, emcyQ := [], emcyLast := Tbl.empty, emcyDropped := 0,
            posted := 0, classes := Tbl.empty, sent := 0, dropped := 0 },
    jrn := { primary := Tbl.empty, mirror := Tbl.empty, pend := [], sweep := 0, saved := 0 },
    host := { held := [], writes := [], vec := Tbl.empty },
    tb := { cycles := 0, qref := 0, refs := Tbl.empty, lockStreak := 0, outStreak := 0, lockedNs := 0, lastEval := 0, hist := [], hold := none,
            lostFromFree := false, err := 0, slope := 0, slopeMs := 0, exch := Tbl.empty, exchTt := Tbl.empty,
            lastUpdate := none, adopt := none, lead := none, bcast := [], tdc := 39 },
    pu := Tbl.empty, au := { table := Tbl.empty, outs := Tbl.empty, oe := false, resetDiscards := 0 },
    pc := { capture := Tbl.empty, latch := [], busy := none, seq := 0, skipped := 0, lastInst := 0, lfsr := Tbl.empty,
            tag := Tbl.empty },
    pipes := Tbl.empty, decs := Tbl.empty, tune := Tbl.empty, cores := Tbl.empty, signals := [], remote := [],
    ds := { jobs := Tbl.empty, steps := [], seq := 0, order := 0, credit := Tbl.empty, rotation := 0, starve := Tbl.empty,
            dones := [], resets := [], loads := Tbl.empty, waiting := Tbl.empty, skips := [], floors := Tbl.empty,
            stepIx := 0, frozenMs := 0 },
    rcp := Tbl.empty,
    cu := { test := 0, devBad := false, boot := 0, saves := 0, keys := Tbl.empty, data := Tbl.empty, fw := none,
            audit := [], turn := none },
    aud := { ctx := Tbl.empty, sealCtr := Tbl.empty, restored := false },
    fab := { txns := [], next := 0, answers := Tbl.empty, mrst := Tbl.empty, trst := Tbl.empty, wback := Tbl.empty,
             rewrites := Tbl.empty, ready := false, remap := none, scrub := Tbl.empty, fill := Tbl.empty, soft := [] },
    quill := { rx := Tbl.empty, tx := Tbl.empty, relays := Tbl.empty, groups := Tbl.empty, detours := [],
               tids := Tbl.empty, freed := Tbl.empty, tidNext := 0, stuff := false, running := none, waiting := none,
               recv := [], reserved := 0 },
    env := { cores := Tbl.empty, sites := Tbl.empty, crit := false, mons := Tbl.empty, fans := Tbl.empty },
    boot := { flash := f, release := 0, phaseTt := 0, expired := false, installed := false, stop := 0, stopTt := 0, ended := 0, wear := [],
              wearTt := 0, jrnTt := none, sramTt := 0, sramBad := false, late := [], drain := 30 },
    ecat := { al := 1, alErr := false, alCode := 0, sm2 := 0, sm3 := 0, fmmu := Tbl.empty, link0 := false, link1 := false,
              sm0 := none, sm1 := none, replies := [], rep := false, lastCnt := 0, stored := none, nextCnt := 1,
              lastRead := none, lastIn := [], seg := none, foe := none, out := [], mhb := 0, tlmSel := 0, sm2Tt := 0, image := [], imageMs := none, wdTt := 0,
              units := Tbl.empty, cursor := 0, keyData := List.replicate 32 0#8, cancelResult := 0, records := Tbl.empty },
    emcyMask := 0x0FFE, pending := pending }

/-- The machine right after reset: the reference configuration (log 2) with a blank boot flash (log 6). -/
def State.reset : State := State.cold Cfg.r32 Flash.blank 0 []

end Sys2Proof.Machine
end

