-- ==== Sys2Proof/Machine/Ops.lean ====
section
/-! DEFINITION. The shared operations: registers, memory, events, the journal, completion records, interrupts and
performance counters. -/

namespace Sys2Proof.Machine

/-! ### Registers -/

/-- Apply a function to a state for each element of a list, in order. -/
def foldS {α : Type} (l : List α) (f : α → State → State) (s : State) : State := l.foldl (fun s a => f a s) s

/-- The default QoS of the masters 0x29 to 0x2F (Table 13-3). -/
def qosReset (m : Nat) : Nat :=
  match m with
  | 0x29 => 14 | 0x2A => 8 | 0x2B => 10 | 0x2C => 15 | 0x2D => 6 | 0x2E => 1 | 0x2F => 5
  | _ => 0

/-- The reset word of a register instance: its fields' reset values, and the words that the configuration
(Table 2-5), Table 13-3, Table 18-6 and R139 give. -/
def resetWord (c : Cfg) (r : RegSpec) (ix : List Nat) : Nat :=
  if r.off = R.HP_CFG0.off then
    c.cores + (b2n (c.macDim == 32)) * 2 ^ 6 + (b2n (c.scratchKib == 1024)) * 2 ^ 7 + c.hoardMib * 2 ^ 8
      + c.camPipes * 2 ^ 16 + c.cxpLanes * 2 ^ 22
  else if r.off = R.HP_CFG1.off then
    c.quillPorts + c.burrowPorts * 2 ^ 4 + c.posChannels * 2 ^ 8 + c.actOutputs * 2 ^ 12 + c.ringLanes * 2 ^ 19
  else if r.off = R.HP_CFG2.off then c.submitRings + c.partSlots * 2 ^ 9
  else if r.off = R.HP_CFG3.off then c.eventTable + c.rtlRelease * 2 ^ 16
  else if r.off = R.FB_MST_QOS.off then qosReset (ix.headD 0)
  else if r.off = R.EM_VMON_CFG.off ∧ ix.headD 0 = 6 then 160 + 2 ^ 10
  else if r.off = R.PP_RS.off ∧ ix.getD 1 0 = 2 then 8191
  else if r.off = R.PP_RS.off ∧ ix.getD 1 0 = 3 then 8191 * 256
  else fieldsReset r.fields

/-- The word a register instance holds. -/
def State.regWord (s : State) (r : RegSpec) (ix : List Nat := []) : Nat :=
  match s.regs.get? (r.addr ix) with
  | some w => w.toNat
  | none => resetWord s.cfg r ix

/-- Give a register instance a word. -/
def State.setRegWord (s : State) (r : RegSpec) (ix : List Nat) (v : Nat) : State :=
  { s with regs := s.regs.set (r.addr ix) (BitVec.ofNat 32 v) }

/-- The value of a field. -/
def State.get (s : State) (f : Fld) (ix : List Nat := []) : Nat := bits (s.regWord f.reg ix) f.hi f.lo

/-- A one-bit field as a Bool. -/
def State.flag (s : State) (f : Fld) (ix : List Nat := []) : Bool := s.get f ix == 1

/-- Give a field a value. -/
def State.put (s : State) (f : Fld) (ix : List Nat) (v : Nat) : State :=
  s.setRegWord f.reg ix (setBits (s.regWord f.reg ix) f.hi f.lo v)

/-- Add to a saturating counter field. -/
def State.bump (s : State) (f : Fld) (ix : List Nat := []) (n : Nat := 1) : State :=
  s.put f ix (satTo (2 ^ (f.hi + 1 - f.lo) - 1) (s.get f ix + n))

/-- A word by its offset, for the registers whose reset value is 0 (the counter banks of R576). -/
def State.raw (s : State) (off : Nat) : Nat := ((s.regs.get? off).map (·.toNat)).getD 0

/-- A reset keeps the registers at some offsets, with the latch of a _HI word and the word held for a _LO (R12, R59, R544). -/
def State.keepRegs (s : State) (keep : Nat → Bool) : State :=
  { s with regs := s.regs.filterRows (fun off _ => keep off), hiLatch := s.hiLatch.filterRows (fun off _ => keep off),
           loHeld := s.loHeld.filterRows (fun off _ => keep off) }

/-- Give a word by its offset. -/
def State.setRaw (s : State) (off v : Nat) : State := { s with regs := s.regs.set off (BitVec.ofNat 32 v) }

/-- A 64-bit value from its _LO and _HI registers. -/
def State.pair (s : State) (lo hi : RegSpec) (ix : List Nat := []) : Nat :=
  s.regWord lo ix + s.regWord hi ix * 2 ^ 32

/-- Give a _LO and _HI pair a value. -/
def State.setPair (s : State) (lo hi : RegSpec) (ix : List Nat) (v : Nat) : State :=
  (s.setRegWord lo ix (v % 2 ^ 32)).setRegWord hi ix (v / 2 ^ 32)

/-- The configuration has a master id (R319, Table 13-3). -/
def hasMaster (c : Cfg) (m : Nat) : Bool :=
  decide (m < c.cores) || decide (0x20 ≤ m ∧ m < 0x20 + c.pixelIslands)
  || (decide (0x28 ≤ m ∧ m ≤ 0x2F) && (m != 0x2B || c.quillPorts != 0))

/-- The configuration has a target id (R319). -/
def hasTarget (c : Cfg) (t : Nat) : Bool :=
  decide (t < 2) || decide (0x02 ≤ t ∧ t < 0x02 + c.cores) || decide (0x22 ≤ t ∧ t < 0x62)
  || decide (0x62 ≤ t ∧ t < 0x62 + c.burrowPorts) || (t == 0x6A && c.quillPorts != 0)

/-- The configuration has the instance of a register whose dimensions do not say so: the Quill blocks go with the last
port (R45), a row of a fabric master or target with that port (R319), and the ring engine with the ring lanes (R46). -/
def hasInstance (c : Cfg) (r : RegSpec) (ix : List Nat) : Bool :=
  if 0x240000 ≤ r.off ∧ r.off < 0x260000 then c.quillPorts != 0
  else if r.off = R.FB_TGT_PARK.off ∨ (0x320000 ≤ r.off ∧ r.off < 0x330000) then hasTarget c (ix.headD 0)
  else if r.off = R.FB_MST_QOS.off ∨ r.off = R.FB_PORT_STATUS.off then hasMaster c (ix.headD 0)
  else if r.off = R.CR_ENG_STATUS.off ∨ r.off = R.CR_ENG_PC.off ∨ (0x300000 ≤ r.off ∧ r.off < 0x310000) then
    decide (ix.getD 1 0 < c.engines)
  else true

/-- The register instance at an offset, if the configuration has one there (R18, R45, R558). -/
def findReg (c : Cfg) (off : Nat) : Option (RegSpec × List Nat) :=
  (R.all.filterMap (fun r => ((r.match? c off).filter (hasInstance c r)).map (fun ix => (r, ix)))).head?

/-! ### Held islands (R49) -/

/-- The HP_ registers that show the configuration, bring-up, the journal and the unit states, which the management plane
keeps; the others are the host port's. -/
def hpMgmt (off : Nat) : Bool :=
  decide (off ≤ R.HP_LIFECYCLE.off) || (decide (R.HP_JRN_HEAD.off ≤ off) && decide (off < 0x010000))

/-- The island whose reset holds a register, numbered as State.heldIsl; management's registers are never held. Tables 1-3, 2-7
and 22-10 place the blocks; that CX_TUNE lies in management, and the decoder, DS_, QM_, RG_ and the host port in the fabric
island, is the model's choice (DESIGN CHOICE, log 86). -/
def regIsland (c : Cfg) (off : Nat) : Nat :=
  if off < 0x020000 then (if hpMgmt off then 54 else 52)
  else if off < 0x080000 then 53
  else if off < 0x100000 then 32 + (off - 0x080000) / 0x4000 / 4
  else if off < 0x101000 then 54
  else if off < 0x200000 then 52
  else if off < 0x220000 then (off - 0x200000) / 0x1000
  else if off < 0x240000 then 52
  else if off < 0x243000 then 40 + (off - 0x240000) / 0x400
  else if off < 0x270000 then 52
  else if off < 0x300000 then 54
  else if off < 0x310000 then (off - 0x300000) / 0x800
  else if off < 0x314000 then 32 + (off - 0x310000) / 0x100 / 4
  else if off < 0x320000 then 40 + (off - 0x314000) / 0x100
  else if off < 0x330000 then
    (let t := (off - 0x320000) / 0x100
     if 2 ≤ t ∧ t < 2 + c.cores then t - 2 else 52)
  else if off < 0x340000 then 52
  else if off < 0x3F0000 then (off - 0x340000) / 0x100
  else if off < 0x400000 then 54
  else 32 + (off - 0x400000) / 0x20000 / 4

/-- A register of a held island. -/
def State.regHeld (s : State) (off : Nat) : Bool := s.heldIsl.contains (regIsland s.cfg off)

/-- Island `i` is held in reset. -/
def State.islandHeld (s : State) (i : Nat) : Bool := s.heldIsl.contains i

/-! ### Words and fields -/

/-- What one field keeps of a written word, by its access code and its range (R10, R11; a write outside a field's
range leaves that field unchanged: R73, R102, R334 and the like). -/
def fieldWrite (old new : Nat) (f : FieldSpec) : Nat :=
  let o := bits old f.hi f.lo
  let n := bits new f.hi f.lo
  match f.acc with
  | .ro => o
  | .rc => o
  | .wo => 0
  | .w1c => o - (o &&& n)
  | .rw => if f.inRange n then n else o

/-- The word a register holds after a plain write. -/
def fieldsWrite (old new : Nat) : List FieldSpec → Nat
  | [] => 0
  | f :: fs => fieldWrite old new f * 2 ^ f.lo + fieldsWrite old new fs

/-- Some writable field of the word lies outside its range. -/
def anyOutOfRange (new : Nat) (fs : List FieldSpec) : Bool :=
  fs.any (fun f => f.acc == .rw && !f.inRange (bits new f.hi f.lo))

/-- The word a read returns: a write-only field reads 0 (R10). -/
def readableWord (w : Nat) : List FieldSpec → Nat
  | [] => 0
  | f :: fs => (if f.acc = .wo then 0 else bits w f.hi f.lo * 2 ^ f.lo) + readableWord w fs

/-- The word after a read: every rc field is cleared (R10). -/
def clearedWord (w : Nat) : List FieldSpec → Nat
  | [] => 0
  | f :: fs => (if f.acc = .rc then 0 else bits w f.hi f.lo * 2 ^ f.lo) + clearedWord w fs

/-! ### Memory -/

/-- What a byte that nothing has written reads as (log 4). -/
def Memory.unlisted : Byte := 0#8

/-- Cells in strictly rising addresses, none below `lo`, none equal to the unlisted byte. -/
def cellsWf : Nat → List Host.Cell → Bool
  | _, [] => true
  | lo, (a, b) :: t => decide (lo ≤ a) && (b != Memory.unlisted) && cellsWf (a + 1) t

/-- The canonical form of memory. -/
def Memory.wf (m : Memory) : Bool := cellsWf 0 m.cells

/-- Read one byte. -/
def Memory.read (m : Memory) (a : Nat) : Byte := (lookupCells m.cells a).getD Memory.unlisted

/-- Put a byte into ascending cells; the unlisted byte removes the cell. -/
def putCell : List Host.Cell → Nat → Byte → List Host.Cell
  | [], a, b => if b = Memory.unlisted then [] else [(a, b)]
  | (k, c) :: t, a, b =>
    if a < k then (if b = Memory.unlisted then (k, c) :: t else (a, b) :: (k, c) :: t)
    else if a = k then (if b = Memory.unlisted then t else (a, b) :: t)
    else (k, c) :: putCell t a b

/-- Write one byte. -/
def Memory.write (m : Memory) (a : Nat) (b : Byte) : Memory := ⟨putCell m.cells a b⟩

/-- Write consecutive bytes. -/
def Memory.writeList (m : Memory) (a : Nat) : List Byte → Memory
  | [] => m
  | b :: t => (m.write a b).writeList (a + 1) t

/-- Read consecutive bytes. -/
def Memory.readList (m : Memory) (a : Nat) : Nat → List Byte
  | 0 => []
  | n + 1 => m.read a :: m.readList (a + 1) n

/-- Write zeros over a range. -/
def Memory.zero (m : Memory) (a n : Nat) : Memory := ⟨m.cells.filter (fun c => !(decide (a ≤ c.1 ∧ c.1 < a + n)))⟩

/-- The start of the Hoard, of scratch and of register space in the local map (Table 13-2). -/
def hoardBase : Nat := 0x0200000000
def scratchBase : Nat := 0x0100000000
def burrowBase : Nat := 0x1000000000
def regBase : Nat := 0x10000000

/-- The target of a local address (R317, Table 13-2). -/
inductive Region where
  | bootRom | sram | regSpace | scratch (core : Nat) | hoard | burrow (port : Nat) | unmapped
  deriving DecidableEq, Repr

/-- A Burrow window is mapped (R329). -/
def State.burrowOpen (s : State) (p : Nat) : Bool :=
  decide (p < s.cfg.burrowPorts) && s.flag R.FB_BRW_CFG_open [p]

/-- The bytes of a mapped Burrow window (R40). -/
def State.burrowBytes (s : State) (p : Nat) : Nat :=
  if s.burrowOpen p then s.get R.FB_BRW_CFG_size [p] * 2 ^ 30 else 0

/-- Which target holds a local address. -/
def State.region (s : State) (a : Nat) : Region :=
  if a < 0x40000 then (if s.flag R.FB_REMAP_remap then .sram else .bootRom)
  else if a < 0x80000 then (if s.flag R.FB_REMAP_remap then .bootRom else .sram)
  else if regBase ≤ a ∧ a < regBase + 0x1000000 then .regSpace
  else if scratchBase ≤ a ∧ a < scratchBase + s.cfg.cores * 0x100000 then
    (if (a - scratchBase) % 0x100000 < s.cfg.scratchKib * 1024 then .scratch ((a - scratchBase) / 0x100000)
      else .unmapped)
  else if hoardBase ≤ a ∧ a < hoardBase + s.cfg.hoardBytes then .hoard
  else if burrowBase ≤ a ∧ a < burrowBase * 9 then
    (let p := a / burrowBase - 1
     if a % burrowBase < s.burrowBytes p then .burrow p else .unmapped)
  else .unmapped

/-- The key of a local address in memory: boot memory is kept under its REMAP 0 address (R318). -/
def State.memKey (s : State) (a : Nat) : Nat :=
  if a < 0x80000 ∧ s.flag R.FB_REMAP_remap then (if a < 0x40000 then a + 0x40000 else a - 0x40000) else a

/-- Read consecutive bytes at a local address. -/
def State.readMem (s : State) (a n : Nat) : List Byte := s.mem.readList (s.memKey a) n

/-- A little-endian value of `n` bytes at a local address (R8). -/
def State.readLe (s : State) (a n : Nat) : Nat := leVal (s.readMem a n)

/-- Write consecutive bytes at a local address; the boot ROM is read-only (R318). A write that covers a whole 64-bit
word ends its uncorrectable error (R185). -/
def State.writeMem (s : State) (a : Nat) (l : List Byte) : State :=
  if s.region a = .bootRom then s
  else { s with mem := s.mem.writeList (s.memKey a) l,
                badWords := s.badWords.filter (fun w => !(decide (a ≤ 8 * w ∧ 8 * w + 8 ≤ a + l.length))) }

/-- Some word of a range holds an uncorrectable error. -/
def State.badIn (s : State) (a n : Nat) : Bool := s.badWords.any (fun w => decide (8 * w < a + n ∧ a < 8 * w + 8))

/-- A write would merge into a word that holds an uncorrectable error (R185). -/
def State.badMerge (s : State) (a n : Nat) : Bool :=
  s.badWords.any (fun w => decide (8 * w < a + n ∧ a < 8 * w + 8) && !(decide (a ≤ 8 * w ∧ 8 * w + 8 ≤ a + n)))

/-- Write a little-endian value of `n` bytes (R8). -/
def State.writeLe (s : State) (a n v : Nat) : State := s.writeMem a (leBytes n v)

/-- Zero a range at a local address. -/
def State.zeroMem (s : State) (a n : Nat) : State :=
  if s.region a = .bootRom then s
  else { s with mem := s.mem.zero (s.memKey a) n,
                badWords := s.badWords.filter (fun w => !(decide (a ≤ 8 * w ∧ 8 * w + 8 ≤ a + n))) }

/-- A range lies wholly in the Hoard or in one populated Burrow extent (R547, R549). -/
def State.inHoardOrBurrow (s : State) (a n : Nat) : Bool :=
  decide (hoardBase ≤ a ∧ a + n ≤ hoardBase + s.cfg.hoardBytes)
  || (decide (burrowBase ≤ a) && decide (a % burrowBase + n ≤ s.burrowBytes (a / burrowBase - 1)))

/-- A range lies wholly in the Hoard. -/
def State.inHoard (s : State) (a n : Nat) : Bool := decide (hoardBase ≤ a ∧ a + n ≤ hoardBase + s.cfg.hoardBytes)

/-- A Hoard offset range lies in the Hoard. -/
def State.hoardRange (s : State) (o n : Nat) : Bool := decide (o + n ≤ s.cfg.hoardBytes)

/-! ### Event detail (R582, R583) -/

/-- The field kinds of Table 24-2. -/
inductive FK where
  | en | ix | num | val | wide
  deriving DecidableEq, Repr

/-- The width of a field kind (Table 24-2). -/
def FK.width : FK → Nat
  | .en => 8
  | .ix => 16
  | .num => 16
  | .val => 32
  | .wide => 64

/-- Place fields from bit `at` upward, each at the next multiple of its width; a field that would pass bit 127 is
omitted (R582). -/
def packFields (pos : Nat) : List (FK × Nat) → Nat
  | [] => 0
  | (k, v) :: t =>
    let p := ((pos + k.width - 1) / k.width) * k.width
    if p + k.width ≤ 128 then (v % 2 ^ k.width) * 2 ^ p + packFields (p + k.width) t
    else packFields pos t

/-- The detail of an event (R582): an instance the chapter names, or the first field when it is an index, or
0xFFFF, in [15:0]; the other fields follow. -/
def mkDetail (inst : Option Nat) (fs : List (FK × Nat)) : Nat :=
  match inst, fs with
  | some i, fs => i % 2 ^ 16 + packFields 16 fs
  | none, (.ix, v) :: t => v % 2 ^ 16 + packFields 16 t
  | none, fs => 0xFFFF + packFields 16 fs

/-- The two's complement form of a signed detail field of 32 bits. -/
def sval (i : Int) : FK × Nat := (.val, wrapInt 32 i)

/-! ### Events -/

/-- The bring-up phase that HP_BOOT_STATUS shows (R469). -/
def State.phase (s : State) : Nat := s.get R.HP_BOOT_STATUS_phase

/-- CONTROL is done (R471). -/
def State.controlDone (s : State) : Bool := decide (4 ≤ s.phaseDone)

/-- Events that are sent as emergencies whatever the mask and the rate limit (R501). -/
def emcyAlways (code : Nat) : Bool :=
  code == E.JOURNAL_FAULT || code == E.JOURNAL_UNJOURNALLED || code == E.UNIT_STATE_MISMATCH

/-- The ns that the position clock has counted since the release of POR_N: 2.5 a cycle, whatever TT is set to (log 77). -/
def State.up (s : State) : Nat := s.tb.cycles * 5 / 2

/-- Queue the emergency of an event at `now` on the position clock (R501): mask, one per code per 100 ms, 16 places of
which 4 are kept. -/
def EvState.emergency (v : EvState) (mask now : Nat) (e : Event) : EvState :=
  let always := emcyAlways e.code
  let due := match v.emcyLast.get? e.code with
    | some t => decide (t + 100000000 ≤ now)
    | none => true
  if always || (mask.testBit (e.code / 4096) && due) then
    let ordinary := (v.emcyQ.filter (fun x => !emcyAlways x.code)).length
    if decide (v.emcyQ.length < 16) && (always || decide (ordinary < 12)) then
      { v with emcyQ := v.emcyQ ++ [e], emcyLast := v.emcyLast.set e.code now }
    else { v with emcyDropped := v.emcyDropped + 1, dropped := (v.dropped + 1) % 2 ^ 32 }
  else v

/-- Post an event (R15, R472, R501, R555): onto the management event ring, toward the host event ring, and as an
emergency. Until CONTROL is done, or while the ring's en is clear, 64 events are held for the host. -/
def State.post (s : State) (code : Nat) (inst : Option Nat) (fs : List (FK × Nat)) : State :=
  let e : Event := { code := code, tt := s.tt, detail := mkDetail inst fs }
  let room := (s.controlDone && s.flag R.HP_EVQ_CFG_en) || decide (s.ev.hostq.length < 64)
  let v := (s.ev.emergency s.emcyMask s.up e)
  let v := { v with mgmt := v.mgmt ++ [e], posted := (v.posted + 1) % 2 ^ 32,
                    classes := v.classes.set (code / 4096) ((v.classes.get (code / 4096) 0 + 1) % 2 ^ 32),
                    hostq := if room then v.hostq ++ [e] else v.hostq }
  let s := { s with ev := v }
  if room then s else s.bump R.HP_BOOT_STATUS_held

/-- The place of an event code, cause and instance in EvState.occ. -/
def limKey (key : Nat × Nat × Nat) : Nat := (key.1 * 2 ^ 32 + key.2.1) * 2 ^ 16 + key.2.2

/-- Post an event that its chapter limits to one per cause and instance per millisecond (R105, R131, R308, R335,
R560, R577); every occurrence is counted (R131, R138). -/
def State.postLim (s : State) (code cause : Nat) (inst : Option Nat) (fs : List (FK × Nat)) : State :=
  let key := (code, cause, inst.getD 0xFFFF)
  let s := { s with ev := { s.ev with occ := s.ev.occ.set (limKey key) (s.ev.occ.get (limKey key) 0 + 1) } }
  match s.ev.last.find? (fun x => x.1 = key) with
  | some x =>
    if s.up < x.2 + 1000000 then s
    else { s with ev := { s.ev with last := (key, s.up) :: s.ev.last.filter (fun y => y.1 ≠ key) } }.post code inst fs
  | none => { s with ev := { s.ev with last := (key, s.up) :: s.ev.last } }.post code inst fs

/-! ### Interrupts (R556) -/

/-- A pending item of vector `v`: the status bit sets when count is reached or time_us is 0. -/
def State.irqItem (s : State) (v : Nat) : State :=
  let items := s.host.vec.get v [] ++ [s.tt]
  let s := { s with host := { s.host with vec := s.host.vec.set v items } }
  let s := s.put R.HP_IRQ_RAW_pending [] (s.get R.HP_IRQ_RAW_pending ||| 2 ^ v)
  if s.get R.HP_IRQ_MOD_count [v] ≤ items.length ∨ s.get R.HP_IRQ_MOD_time_us [v] = 0 then
    s.put R.HP_IRQ_STATUS_status [] (s.get R.HP_IRQ_STATUS_status ||| 2 ^ v)
  else s

/-! ### Performance counters (R567, R575) -/

/-- The bases of the counter banks (R576). -/
def pcEngBank (c e : Nat) : Nat := 0x300000 + 0x800 * c + 0x100 * e
def pcPipeBank (p : Nat) : Nat := 0x310000 + 0x100 * p
def pcQuillBank (p : Nat) : Nat := 0x314000 + 0x100 * p
def pcFabBank (t : Nat) : Nat := 0x320000 + 0x100 * t
def pcDsBank : Nat := 0x330000
def pcHostBank : Nat := 0x330100

/-- Add `n` to counter `k` of a bank; a wrap sets its overflow bit, and with it the interrupt cause and the freeze
that its selector asks for (R575). -/
def State.pcAdd (s : State) (bank k n : Nat) : State :=
  let sel := s.raw (bank + 0x10 + 0x10 * k)
  let cnt := s.raw (bank + 0x14 + 0x10 * k) + 2 ^ 32 * (s.raw (bank + 0x18 + 0x10 * k) % 2 ^ 16)
  let sum := cnt + n
  let s := (s.setRaw (bank + 0x14 + 0x10 * k) (sum % 2 ^ 32)).setRaw (bank + 0x18 + 0x10 * k) (sum / 2 ^ 32 % 2 ^ 16)
  if sum < 2 ^ 48 then s else
    let ctl := s.raw bank
    let s := if bits ctl 7 0 = 0 then s.put R.PC_OVF_PEND_banks [] (s.get R.PC_OVF_PEND_banks + 1) else s
    let ctl := ctl ||| 2 ^ k
    let engine := decide (bank < 0x310000)
    let ctl := if bit sel 12 && !engine then ctl ||| 2 ^ 8 else ctl
    let s := s.setRaw bank ctl
    let s := if engine then { s with pc := { s.pc with capture := s.pc.capture.set bank (bit sel 12) } } else s
    if bit sel 11 then s.irqItem (s.get R.HP_IRQ_MAP_pc_vec) else s

/-- A counter of a bank runs: PC_CTL.en, its selector's en, and the bank not frozen. -/
def State.pcRuns (s : State) (bank k : Nat) : Bool :=
  s.flag R.PC_CTL_en && bit (s.raw (bank + 0x10 + 0x10 * k)) 10 && !bit (s.raw bank) 8

/-- Event `code` happened `n` times in a bank of `nctr` counters: every counter in mode 0 that names it counts. -/
def State.pcCount (s : State) (bank nctr code : Nat) (n : Nat := 1) : State :=
  foldS (List.range nctr) (fun k s =>
    let sel := s.raw (bank + 0x10 + 0x10 * k)
    if s.pcRuns bank k && bits sel 9 8 == 0 && bits sel 7 0 == code then s.pcAdd bank k n else s) s

/-! ### The change journal (R502, R503) -/

/-- The number of a source in a journal entry (Table 20-7a). -/
def srcNum : Src → Nat
  | .host => 0
  | .sdo => 1
  | .fw => 2
  | .foe => 3

/-- A journal entry as its 256 bits (Table 20-7a). -/
def JEntry.encode (e : JEntry) : Nat :=
  e.seq % 2 ^ 32 + (e.tt % 2 ^ 64) * 2 ^ 32 + (e.source % 16) * 2 ^ 96 + (e.status % 16) * 2 ^ 100
    + (e.cause % 256) * 2 ^ 104 + b2n e.long * 2 ^ 112 + b2n e.command * 2 ^ 113 + (e.loc % 2 ^ 32) * 2 ^ 128
    + (e.old % 2 ^ 32) * 2 ^ 160 + (e.new % 2 ^ 32) * 2 ^ 192 + (e.detail % 2 ^ 32) * 2 ^ 224

/-- Place an entry in the fault registers (R503). -/
def State.jrnFaultRegs (s : State) (e : JEntry) : State :=
  (foldS (List.range 8) (fun k s => s.setRegWord R.HP_JRN_FAULT [k] (e.encode / 2 ^ (32 * k) % 2 ^ 32)) s).put
    R.HP_JRN_STATUS_fault_valid [] 1

/-- A copy of the journal failed for entry `e` (R503, R509): copy 0 is the primary, 1 the mirror. -/
def State.jrnCopyFault (s : State) (copy : Nat) (e : JEntry) : State :=
  let st := s.get R.HP_JRN_STATUS_copy
  let inUse := st == 0 || st == 1 + copy
  if inUse then
    let s := s.jrnFaultRegs e
    let s := s.post E.JOURNAL_FAULT none [(.en, copy + 1), (.val, e.seq)]
    if st = 0 then s.put R.HP_JRN_STATUS_copy [] (2 - copy)
    else
      ((s.put R.HP_JRN_STATUS_copy [] 3).put R.HP_JRN_UNJ_count [] ((s.get R.HP_JRN_UNJ_count + 1) % 2 ^ 32)).post
        E.JOURNAL_UNJOURNALLED none [(.val, e.seq)]
  else s

/-- Write one entry (R502, R503): into each copy in use, whose read-back may fail (`badP`, `badM`); while the
journal is unjournalled, into the fault registers. -/
def State.jrnEntry (s : State) (source status cause : Nat) (loc old new : Nat) (command : Bool := false)
    (detail : Nat := 0) (long : Bool := false) (badP : Bool := false) (badM : Bool := false) : State :=
  let e : JEntry := { seq := s.get R.HP_JRN_HEAD_seq, tt := s.tt, source := source, status := status, cause := cause,
                      long := long, command := command, loc := loc, old := old, new := new, detail := detail }
  let st := s.get R.HP_JRN_STATUS_copy
  let k := e.seq % 16384
  let j := s.jrn
  let s := { s with jrn := { j with
    primary := if st = 0 ∨ st = 1 then j.primary.set k e else j.primary
    mirror := if st = 0 ∨ st = 2 then j.mirror.set k e else j.mirror } }
  let s := s.put R.HP_JRN_HEAD_seq [] ((e.seq + 1) % 2 ^ 32)
  if st = 3 then (s.jrnFaultRegs e).put R.HP_JRN_UNJ_count [] ((s.get R.HP_JRN_UNJ_count + 1) % 2 ^ 32)
  else
    let s := if badP then s.jrnCopyFault 0 e else s
    if badM then s.jrnCopyFault 1 e else s

/-- The journal causes of Table 20-7a. -/
def causeRange : Nat := 1
def causeBringup : Nat := 2
def causeStopped : Nat := 3
def causeBlock : Nat := 4
def causeNoRoute : Nat := 5
def causeInUse : Nat := 6
def causeHalted : Nat := 7
def causeRwStopped : Nat := 8

/-- Journal a parameter write that was applied (status 0). -/
def State.jrnApplied (s : State) (src : Src) (cause off old new : Nat) : State :=
  s.jrnEntry (srcNum src) 0 cause off old new

/-- Journal a parameter write that was refused (status 2). -/
def State.jrnRefused (s : State) (src : Src) (cause off old new : Nat) : State :=
  s.jrnEntry (srcNum src) 2 cause off old new

/-- The `where` of a dictionary entry (Table 20-7a). -/
def dictLoc (index sub : Nat) : Nat := 2 ^ 31 + index * 2 ^ 8 + sub

/-! ### Completion rings (R550 to R554) -/

/-- Put the phase bit into a record (Table 22-4, byte 0 [7]). -/
def withPhase (ph : Nat) : List Byte → List Byte
  | [] => []
  | b :: t => (b ||| BitVec.ofNat 8 (ph * 128)) :: t

/-- A completion ring is full: its tail would reach its head. -/
def State.cqFull (s : State) (r : Nat) : Bool :=
  let len := 2 ^ s.get R.HP_CQ_CFG_log2_len [r]
  (s.get R.HP_CQ_TAIL_tail [r] + 1) % len == s.get R.HP_CQ_HEAD_head [r] % len

/-- Send one record to completion ring `r` in host memory and advance its tail; the phase flips at a wrap. -/
def State.cqSend (s : State) (c : CRec) : State :=
  let r := c.ring
  let len := 2 ^ s.get R.HP_CQ_CFG_log2_len [r]
  let tail := s.get R.HP_CQ_TAIL_tail [r]
  let ph := s.get R.HP_CQ_TAIL_phase [r]
  let addr := s.pair R.HP_CQ_BASE_LO R.HP_CQ_BASE_HI [r] + 64 * (tail % len)
  let w : HostWrite := { item := .record r, addr := addr, bytes := withPhase ph c.bytes, tt := s.tt }
  let s := { s with host := { s.host with writes := s.host.writes ++ [w] } }
  let s := s.pcCount pcHostBank 4 0x01
  if len ≤ tail + 1 then (s.put R.HP_CQ_TAIL_tail [r] 0).put R.HP_CQ_TAIL_phase [r] (1 - ph)
  else s.put R.HP_CQ_TAIL_tail [r] (tail + 1)

/-- Write a completion record (R550, R554): to its ring when that has space and en and no record is held for it;
else to the hold store; else it is dropped, counted and HP_CQ_OVERFLOW is posted. -/
def State.completion (s : State) (c : CRec) : State :=
  let waits := s.host.held.any (fun h => h.ring = c.ring)
  if s.flag R.HP_CQ_CFG_en [c.ring] && !s.cqFull c.ring && !waits then s.cqSend c
  else if s.host.held.length < 512 then
    (({ s with host := { s.host with held := s.host.held ++ [c] } }).put R.HP_HOLD_used [] (s.host.held.length + 1)).pcCount
      pcHostBank 4 0x02
  else
    let s := s.put R.HP_CQ_LOST_count [c.ring] (satTo (2 ^ 32 - 1) (s.get R.HP_CQ_LOST_count [c.ring] + 1))
    s.postLim E.HP_CQ_OVERFLOW c.ring none [(.ix, c.ring), (.val, s.get R.HP_CQ_LOST_count [c.ring])]

/-! ### PHY tuning lanes -/

/-- Something has come in on a lane: its SerDes is ready (R48; taken from lock and reception, log 87). -/
def State.laneReady (s : State) (lane : Nat) : State :=
  match s.tune.get? lane with
  | some t => if t.down then { s with tune := s.tune.set lane { t with down := false } } else s
  | none => s

/-! ### Free values -/

/-- Draw a fresh free value of `w` bits (log 1). -/
def State.draw (s : State) (w : Nat) : Nat × State :=
  ((Config.freeWord s.free).toNat % 2 ^ w, { s with free := s.free + 1 })

end Sys2Proof.Machine
end

