-- ==== Sys2Proof/Machine/Param.lean ====
section
/-! DEFINITION. Writes to journalled parameters: when one is refused before its block sees it, and how one is
applied and journalled (R21, R471, R480, R502, R510). -/

namespace Sys2Proof.Machine

/-! ### The host's access (R471, R564) -/

/-- A host access is answered with an error: counted, and reported at most once per millisecond (R560, R564). -/
def State.hostAbandon (s : State) : State :=
  let s := s.bump R.HP_ERR_abandoned
  s.postLim E.HP_ACCESS_ABANDONED 0 none [(.val, s.get R.HP_ERR_abandoned)]

/-- The host port refuses an access of this source until CONTROL is done (R471). -/
def State.hostShut (s : State) (src : Src) : Bool := src == .host && !s.controlDone

/-! ### Parameters -/

/-- The bring-up phase that a write of `new` at a register offset waits for: its block's, and READY for a run that is set
(Table 19-3, R471). -/
def blockPhase (off new : Nat) : Nat :=
  if off < 0x020000 then 4
  else if off < 0x030000 then 5
  else if off < 0x040000 then 7
  else if off < 0x080000 then 11
  else if off < 0x200000 then 10
  else if off < 0x220000 then 8
  else if 0x220800 ≤ off ∧ off < 0x220900 ∧ off % 0x10 = 0 ∧ bit new 0 then 12
  else if off < 0x230000 then 9
  else if off < 0x240000 then 3
  else if off < 0x260000 then 6
  else if off < 0x280000 then 2
  else if off < 0x300000 then 2
  else 10

/-- The register offset holds, in bit 0, the en of a data-plane block or a recipe's run (R480). -/
def isEnable (off : Nat) : Bool :=
  off == 0x040000 || (decide (0x041000 ≤ off ∧ off < 0x041800) && off % 0x20 == 0)
  || decide (0x041800 ≤ off ∧ off < 0x041900)
  || (decide (0x080000 ≤ off ∧ off < 0x100000) && off % 0x4000 == 0)
  || (decide (0x101000 ≤ off ∧ off < 0x101100) && off % 0x40 == 0)
  || (decide (0x200000 ≤ off ∧ off < 0x220000) && off % 0x1000 == 0)
  || off == 0x220000 || decide (0x220400 ≤ off ∧ off < 0x220800)
  || (decide (0x220800 ≤ off ∧ off < 0x220900) && off % 0x10 == 0)
  || (decide (0x240000 ≤ off ∧ off < 0x243000) && off % 0x400 == 0) || off == 0x250004

/-- Why a parameter write is refused before its block sees it: the management plane is halted (R510), the block's
phase is not done (R471), or it would set an enable in STOPPED (R480). -/
def State.gate (s : State) (src : Src) (off old new : Nat) : Option Nat :=
  if src = .host ∧ s.mgmtHalted then some causeHalted
  else if src = .host ∧ s.phaseDone < blockPhase off new then some causeBringup
  else if src ≠ .fw ∧ s.phase = 14 ∧ isEnable off ∧ bit old 0 = false ∧ bit new 0 then some causeStopped
  else none

/-- Journal a refusal by the gate; HP_JRN_STATUS counts those of R510. -/
def State.gateRefuse (s : State) (src : Src) (cause off old v : Nat) : State :=
  let s := if cause = causeHalted then s.bump R.HP_JRN_STATUS_halted_refused else s
  s.jrnRefused src cause off old v

/-- A write to a journalled parameter of which the block takes `eff`, `range` saying that a field lies outside its
range. `check` answers a journal cause when the block refuses it, `onRefuse` is the block's answer to that, `after`
is what an applied write brings about beside the new word. A write to a held island changes nothing (R49). -/
def State.paramWriteEff (s : State) (src : Src) (r : RegSpec) (ix : List Nat) (v eff : Nat) (range : Bool)
    (check : State → Nat → Nat → Option Nat) (onRefuse : State → State) (after : State → Nat → Nat → State) : State :=
  let off := r.addr ix
  let old := s.regWord r ix
  let new := fieldsWrite old eff r.fields
  if s.hostShut src then s.hostAbandon else if s.regHeld off then s else
  match s.gate src off old new with
  | some c => s.gateRefuse src c off old v
  | none =>
    match check s old new with
    | some c => onRefuse (s.jrnRefused src c off old v)
    | none => (after (s.setRegWord r ix new) old new).jrnApplied src (if range then causeRange else 0) off old v

/-- A write to a journalled parameter whose ranges are those of its fields. -/
def State.paramWrite (s : State) (src : Src) (r : RegSpec) (ix : List Nat) (v : Nat)
    (check : State → Nat → Nat → Option Nat) (onRefuse : State → State) (after : State → Nat → Nat → State) : State :=
  s.paramWriteEff src r ix v v (anyOutOfRange v r.fields) check onRefuse after

/-- A write of the _HI word of a journalled pair (R544): both words apply together, each with its own journal entry
(log 29). `check`, `onRefuse` and `after` see 64-bit values. -/
def State.pairWrite (s : State) (src : Src) (lo hi : RegSpec) (ix : List Nat) (vh : Nat)
    (check : State → Nat → Nat → Option Nat) (onRefuse : State → State) (after : State → Nat → Nat → State) : State :=
  let ol := s.regWord lo ix
  let oh := s.regWord hi ix
  let vl := s.loHeld.get (lo.addr ix) ol
  let nl := fieldsWrite ol vl lo.fields
  let nh := fieldsWrite oh vh hi.fields
  let old := ol + oh * 2 ^ 32
  let new := nl + nh * 2 ^ 32
  if s.hostShut src then s.hostAbandon else if s.regHeld (hi.addr ix) then s else
  match s.gate src (hi.addr ix) oh nh with
  | some c => s.gateRefuse src c (hi.addr ix) oh vh
  | none =>
    match check s old new with
    | some c => onRefuse ((s.jrnRefused src c (lo.addr ix) ol vl).jrnRefused src c (hi.addr ix) oh vh)
    | none =>
      ((after ((s.setRegWord lo ix nl).setRegWord hi ix nh) old new).jrnApplied src 0 (lo.addr ix) ol vl).jrnApplied src 0
        (hi.addr ix) oh vh

end Sys2Proof.Machine
end

