-- ==== Sys2Proof/Machine/PosCalc.lean ====
section
/-! DEFINITION. Positions as other blocks read them: 48-bit differences, the estimated position and its inverse
(R90, R98). -/

namespace Sys2Proof.Machine

/-- The modulus of a count (R90). -/
def cntMod : Nat := 2 ^ 48

/-- The signed 48-bit difference `a` − `b` (R90). -/
def cntDiff (a b : Nat) : Int := signedOf 48 (a % cntMod + cntMod - b % cntMod)

/-- A count moved by a signed number of counts, modulo 2^48 (R90). -/
def cntAdd (a : Nat) (d : Int) : Nat := wrapInt 48 ((a : Int) + d)

/-- A channel at the release of POR_N (R112). -/
def PuCh.init : PuCh :=
  { lvl := #v[none, none, none], seen := #v[false, false, false], run := #v[0, 0, 0], edge := #v[none, none, none], cnt := 0, hist := [], edges := 0, start := 0, far := 0,
    speed := 0, speedAt := 0, speedTick := 0, still := 0, idxPrev := none, hallRef := none, ssiBusy := false, ssiRef := none,
    ssiErr := 0, ssiStart := none, toggle := #v[none, none, none], scan := #v[0, 0, 0], lost := 0 }

/-- Channel `c`. -/
def State.ch (s : State) (c : Nat) : PuCh := s.pu.get c PuCh.init

/-- Give channel `c`. -/
def State.setCh (s : State) (c : Nat) (p : PuCh) : State := { s with pu := s.pu.set c p }

/-- A channel exists and its mode is not off. -/
def State.chOn (s : State) (c : Nat) : Bool := decide (c < s.cfg.posChannels) && s.get R.PU_CH_CTL_mode [c] != 0

/-- Speeds are held in 2^-32 counts per ms; this many of them times ns make one count (log 11). -/
def speedScale : Int := (2 ^ 32 * 1000000 : Nat)

/-- The latest counted edge whose stamp is at or before `t`; for an older `t` the oldest edge kept (R98). -/
def edgeAt (t : Nat) : List (Nat × Nat) → Option (Nat × Nat)
  | [] => none
  | (c, st) :: l => if st ≤ t then some (c, st) else match l with
    | [] => some (c, st)
    | _ :: _ => edgeAt t l

/-- The estimated position at `t` as a base count and a signed offset in 1/speedScale counts (R98). -/
def PuCh.est (p : PuCh) (t : Nat) : Nat × Int :=
  match edgeAt t p.hist with
  | none => (p.cnt, 0)
  | some (c, st) => (c, p.speed * ((t : Int) - (st : Int)))

/-- The estimated position as a whole count: nearest, a half toward +∞ (R98). -/
def PuCh.estWhole (p : PuCh) (t : Nat) : Nat :=
  cntAdd (p.est t).1 ((2 * (p.est t).2 + speedScale) / (2 * speedScale))

/-- The count that held at `t` (R91, R98). -/
def PuCh.cntAt (p : PuCh) (t : Nat) : Nat :=
  match edgeAt t p.hist with
  | none => p.cnt
  | some (c, _) => c

/-- The distance still to travel to `trig` from count `c`, positive ahead, in the direction of approach (R298). -/
def ahead (fwd : Bool) (trig c : Nat) : Int := if fwd then cntDiff trig c else -(cntDiff trig c)

/-- A speed taken in the direction of approach. -/
def speedToward (fwd : Bool) (v : Int) : Int := if fwd then v else -v

end Sys2Proof.Machine
end

