-- ==== Sys2Proof/Machine/Actuation.lean ====
section
/-! DEFINITION. The actuation unit (chapter 12): posts, triggers, guard windows, pulses, merging and cancels. -/

namespace Sys2Proof.Machine

/-! ### The post record (Table 12-2) -/

def postKind (p : Nat) : Nat := bits p 1 0
def postWCnt (p : Nat) : Bool := bit p 2
def postNoLate (p : Nat) : Bool := bit p 3
def postCh (p : Nat) : Nat := bits p 7 4
def postOut (p : Nat) : Nat := bits p 14 8
def postWidth (p : Nat) : Nat := bits p 47 16
def postTrig (p : Nat) : Nat := if bits p 1 0 = 1 then bits p 111 64 else bits p 127 64
def postTag (p : Nat) : Nat := bits p 191 128

/-- A post record from its fields. -/
def mkPost (kind : Nat) (wCnt noLate : Bool) (ch out width trig tag : Nat) : Nat :=
  kind + b2n wCnt * 4 + b2n noLate * 8 + ch * 2 ^ 4 + out * 2 ^ 8 + width * 2 ^ 16 + trig * 2 ^ 64 + tag * 2 ^ 128

/-- The BAD_POST checks of Table 12-3. -/
def postBad (s : State) (p : Nat) : Bool :=
  !(postKind p == 1 || postKind p == 2) || (postWCnt p && postKind p == 2) || postWidth p == 0
  || !decide (postOut p < s.cfg.actOutputs) || bit p 15 || bits p 63 48 != 0 || bits p 255 192 != 0
  || (postKind p == 1 && bits p 127 112 != 0)

/-! ### Outputs and entries -/

/-- An output at reset. -/
def AuOut.init : AuOut :=
  { active := false, level := true, lastEnd := none, bridge := none, gap := 0, onTt := 0, onNs := 0, warned := false }

def State.out (s : State) (o : Nat) : AuOut := s.au.outs.get o AuOut.init

def State.setOut (s : State) (o : Nat) (x : AuOut) : State :=
  { s with au := { s.au with outs := s.au.outs.set o x } }

/-- Give the event table, with AU_STATUS.used (Table 12-5). -/
def State.setTable (s : State) (t : Tbl AuEntry) : State :=
  ({ s with au := { s.au with table := t } }).put R.AU_STATUS_used [] t.cells.length

/-- Show an output's state in AU_OUT_STATE (Table 12-5). -/
def State.showOut (s : State) (o : Nat) (on : Bool) : State :=
  if o < 32 then s.put R.AU_OUT_STATE_LO_active [] (setBits (s.get R.AU_OUT_STATE_LO_active) o o (b2n on))
  else s.put R.AU_OUT_STATE_HI_active [] (setBits (s.get R.AU_OUT_STATE_HI_active) (o - 32) (o - 32) (b2n on))

/-- Bring an output's on-time up to the present (R304). -/
def State.onTime (s : State) (o : Nat) : State :=
  let x := s.out o
  if x.active then
    let ns := x.onNs + (s.tt - x.onTt)
    (s.setOut o { x with onTt := s.tt, onNs := ns % 1000000 }).put R.AU_ONTIME_ms [o]
      ((s.get R.AU_ONTIME_ms [o] + ns / 1000000) % 2 ^ 32)
  else s

/-- An output goes idle (R304). -/
def State.outIdle (s : State) (o : Nat) : State :=
  let s := s.onTime o
  let x := s.out o
  (s.setOut o { x with active := false, bridge := none }).showOut o false

/-- An entry is pending: armed, in its guard or disagreeing (R298). -/
def AuEntry.isPending (e : AuEntry) : Bool := e.state != .firing

/-- Δ of a count-trigger entry at the counted position (R298). -/
def entryAhead (s : State) (e : AuEntry) : Int := ahead e.fwd (postTrig e.post) (s.ch (postCh e.post)).cnt

/-- A wear warning is due once the count reaches wear_warn × 1,000 (R305). -/
def State.wearCheck (s : State) (o : Nat) : State :=
  let warn := s.get R.AU_WEAR_WARN_warn [o]
  let cnt := s.pair R.AU_WEAR_LO R.AU_WEAR_HI [o]
  let x := s.out o
  if warn ≠ 0 ∧ warn * 1000 ≤ cnt ∧ x.warned = false then
    (s.setOut o { x with warned := true }).postLim E.VALVE_WEAR 0 (some o) [(.wide, cnt)]
  else s

/-- An output becomes active for a starting pulse (R304): a merge when it is active already, or when its last end
lies within the gap; else one actuation more. -/
def State.outStart (s : State) (o : Nat) : State :=
  let x := s.out o
  let near := match x.lastEnd with
    | some t => decide (s.tt < t + x.gap)
    | none => false
  if x.active then (s.setOut o { x with bridge := none }).bump R.AU_ERR_merged
  else
    let s := (s.setOut o { x with active := true, bridge := none, onTt := s.tt,
                                  level := s.flag R.AU_OUT_CFG_active_high [o] }).showOut o true
    if near then s.bump R.AU_ERR_merged
    else
      let n := (s.pair R.AU_WEAR_LO R.AU_WEAR_HI [o] + 1) % cntMod
      (s.setPair R.AU_WEAR_LO R.AU_WEAR_HI [o] n).wearCheck o

/-- The least and greatest length of a pulse on output `o`, ns (R300). -/
def State.minOnNs (s : State) (o : Nat) : Nat := s.get R.AU_OUT_CFG_min_on_us [o] * 1000
def State.maxOnNs (s : State) (o : Nat) : Nat := s.get R.AU_OUT_CFG_max_on [o] * 10000000

/-- Start entry `i`'s pulse; `from_` is the TT that its width, least and greatest length count from: for a late pulse the
trigger time, so that it keeps the end it would have had (R299, R300). -/
def State.firePulse (s : State) (i : Nat) (e : AuEntry) (from_ : Nat) : State :=
  let o := postOut e.post
  let e := { e with state := .firing, anchor := none, start := s.tt, base := from_
                    stop := from_ + postWidth e.post * 1000, minOn := s.minOnNs o, maxOn := s.maxOnNs o
                    gap := s.get R.AU_OUT_CFG_min_gap_us [o] * 1000 }
  (s.setTable (s.au.table.set i e)).outStart o

/-- A discarded entry or post is reported and counted (R308). -/
def State.discardEvent (s : State) (o cause : Nat) (tag : Nat) : State :=
  (s.bump R.AU_ERR_discarded).postLim E.EVENT_DISCARDED cause (some o) [(.en, cause), (.wide, tag)]

/-- Causes of EVENT_DISCARDED, numbered from 1 in the order of Table 12-6. -/
def discLate : Nat := 1
def discOutputOff : Nat := 2
def discExpired : Nat := 3
def discReset : Nat := 4
def discUnitOff : Nat := 5

/-! ### Lateness (R299, R300) -/

/-- The stamp of the counted edge that first brought the count to the trigger, when the channel still keeps it:
the oldest kept edge at or past the trigger whose predecessor was short of it. -/
def crossing (fwd : Bool) (trig : Nat) : List (Nat × Nat) → Option Nat
  | [] => none
  | [_] => none
  | (c, t) :: (c', t') :: l =>
    match crossing fwd trig ((c', t') :: l) with
    | some x => some x
    | none => if ahead fwd trig c ≤ 0 ∧ 0 < ahead fwd trig c' then some t else none

/-- The TT that a late count trigger counts its width from (R300). -/
def lateCountTt (p : PuCh) (fwd : Bool) (trig now : Nat) : Nat :=
  match crossing fwd trig p.hist with
  | some t => t
  | none =>
    let v := speedToward fwd p.speed
    if v ≤ 0 then now
    else match p.hist with
      | [] => now
      | (c, t) :: _ =>
        let back := (-(ahead fwd trig c)) * speedScale / v
        min now ((t : Int) - back).toNat

/-- A pulse of output `o` that began at `from_` has ended by now: it has lasted its least length and `ended`, or its greatest
length (R300). -/
def State.endPassed (s : State) (o from_ : Nat) (ended : Bool) : Bool :=
  (decide (from_ + s.minOnNs o ≤ s.tt) && ended) || decide (from_ + s.maxOnNs o ≤ s.tt)

/-- What R299 decides about a post: `none` when it is ahead; else its lateness and whether its end has passed, and
the TT its width counts from. -/
def postLateness (s : State) (p : Nat) (fwd : Bool) : Option (Nat × Bool × Nat) :=
  if postKind p = 2 then
    if postTrig p ≤ s.tt then
      some (s.tt - postTrig p, s.endPassed (postOut p) (postTrig p) (decide (postTrig p + postWidth p * 1000 ≤ s.tt)), postTrig p)
    else none
  else
    let c := s.ch (postCh p)
    let d := ahead fwd (postTrig p) c.cnt
    if d ≤ 0 then
      let t := lateCountTt c fwd (postTrig p) s.tt
      let passed := if postWCnt p then decide ((postWidth p : Int) ≤ -d) else decide (t + postWidth p * 1000 ≤ s.tt)
      some ((-d).toNat, s.endPassed (postOut p) t passed, t)
    else none

/-- A refused post is reported (R296). -/
def State.refusePost (s : State) (src chip p st : Nat) : State :=
  let s := if st = 3 then s.postLim E.ACT_TABLE_FULL src (some (postOut p)) [(.en, src + 1)] else s
  let s := s.postLim E.POST_REFUSED (st * 4 + src) (some (postOut p)) [(.en, src + 1), (.num, chip), (.en, st)]
  if st = 2 then s.discardEvent (postOut p) discLate (postTag p) else s.bump R.AU_ERR_discarded

/-- The anchor of a guard entered now (R301). -/
def State.anchorNow (s : State) (ch : Nat) : Anchor := 
  { c := (s.ch ch).cnt, t := s.tt, v := (s.ch ch).speed, adv := 0,
    tol := s.get R.AU_GUARD_tol [ch], spd := s.get R.AU_GUARD_spd_pct [ch] }

/-- A post arrives (R296, R297, R299, R302): its status, the entry it takes, and the state. Sources: 0 batch
builder, 1 host, 2 firmware, 3 remote. -/
def State.submitPost (s : State) (src chip p : Nat) : Nat × Nat × State :=
  let refuse (st : Nat) : Nat × Nat × State := (st, 0, s.refusePost src chip p st)
  let o := postOut p
  let ch := postCh p
  if !s.flag R.AU_CTL_en || s.islandHeld 53 then refuse 7
  else if postBad s p then refuse 4
  else if !s.flag R.AU_OUT_CFG_en [o] then refuse 5
  else if postKind p = 1 && !s.chOn ch then refuse 6
  else
    let fwd := !s.flag R.PU_STATUS_dir_valid [ch] || s.flag R.PU_STATUS_dir [ch]
    let e : AuEntry := { post := p, state := .armed, source := src, chip := chip, acc := s.tt, fwd := fwd,
                         anchor := none, start := 0, base := 0, stop := 0, minOn := 0, maxOn := 0, gap := 0, cut := false }
    match postLateness s p fwd with
    | some (late, passed, t) =>
      let limit := if postKind p = 1 then s.get R.AU_OUT_LATE_late_cnt [o] else s.get R.AU_OUT_LATE_late_us [o] * 1000
      if postNoLate p || passed || decide (limit < late) then refuse 2
      else match s.au.table.lowestFree s.cfg.eventTable with
        | none => refuse 3
        | some i =>
          let s := (s.firePulse i e t).bump R.AU_ERR_late
          (1, i, s.postLim E.EVENT_LATE 0 (some o) [(.val, late), (.wide, postTag p)])
    | none =>
      match s.au.table.lowestFree s.cfg.eventTable with
      | none => refuse 3
      | some i =>
        let near := postKind p == 1 && s.flag R.AU_GUARD_en [ch]
          && decide (ahead fwd (postTrig p) (s.ch ch).cnt ≤ s.get R.AU_GUARD_guard_cnt [ch])
        let e := if near then { e with state := .guard, anchor := some (s.anchorNow ch) } else e
        (0, i, s.setTable (s.au.table.set i e))

/-! ### Guard windows (R301 to R303) -/

/-- How far the prediction has moved from its anchor's count at `t`, in 1/speedScale counts, upward (R301). -/
def predTravel (a : Anchor) (t : Nat) : Int := a.adv + a.v * ((t : Int) - (a.t : Int))

/-- The prediction's distance still to travel to the trigger, in 1/speedScale counts, in the direction of
approach. -/
def predAhead (e : AuEntry) (a : Anchor) (t : Nat) : Int :=
  ahead e.fwd (postTrig e.post) a.c * speedScale - speedToward e.fwd (predTravel a t)

/-- e = c − p̂ in the direction of approach, p̂ as a whole count (R301, R98; log 12). -/
def predError (e : AuEntry) (a : Anchor) (c t : Nat) : Int :=
  ahead e.fwd c a.c - speedToward e.fwd ((2 * predTravel a t + speedScale) / (2 * speedScale))

/-- The direction of approach still matches the channel's direction flag (R303). -/
def State.approachMatches (s : State) (e : AuEntry) : Bool :=
  !s.flag R.PU_STATUS_dir_valid [postCh e.post] || (s.flag R.PU_STATUS_dir [postCh e.post] == e.fwd)

/-- One look at the guards of a channel (R301, R303): entries whose Δ has come inside guard_cnt enter; a speed that
departs from v_g by more than spd_pct per cent re-anchors; |e| above tol makes an entry disagreeing. `reanchor`
re-anchors every guard of the channel. -/
def State.guardCycle (s : State) (ch : Nat) (reanchor : Bool) : State :=
  let on := s.flag R.AU_GUARD_en [ch]
  let still := s.flag R.PU_STATUS_standstill [ch]
  let now := s.anchorNow ch
  let step (e : AuEntry) : AuEntry :=
    if !(e.isPending && postKind e.post == 1 && postCh e.post == ch) then e
    else if !on then { e with state := .armed, anchor := none }
    else match e.anchor with
      | none =>
        if entryAhead s e ≤ s.get R.AU_GUARD_guard_cnt [ch] ∧ 0 < entryAhead s e
        then { e with state := .guard, anchor := some now } else e
      | some a =>
        let dv := (now.v - a.v).natAbs
        if reanchor || decide (a.v.natAbs * a.spd < dv * 100) then
          { e with anchor := some { now with tol := a.tol, spd := a.spd } }
        else if still then { e with anchor := some { a with t := s.tt } }
        else if decide (a.tol < (predError e a now.c s.tt).natAbs) then
          { e with state := .disagreeing }
        else e
  { s with au := { s.au with table := s.au.table.mapVals (fun _ e => step e) } }

/-- A channel enters standstill: every prediction on it is held at its value (R303). -/
def State.holdPredictions (s : State) (ch : Nat) : State :=
  { s with au := { s.au with table := s.au.table.mapVals (fun _ e =>
      if postKind e.post == 1 && postCh e.post == ch then
        { e with anchor := e.anchor.map (fun a => { a with adv := predTravel a s.tt, t := s.tt }) }
      else e) } }

/-- Fire a pending entry. A disagreeing one posts POSITION_DISAGREE (R301): source 1 count, 2 estimate. -/
def State.fireEntry (s : State) (i : Nat) (e : AuEntry) (source : Nat) : State :=
  let ch := postCh e.post
  let s := match e.state, e.anchor with
    | .disagreeing, some a =>
      (s.bump R.AU_ERR_disagree).postLim E.POSITION_DISAGREE source (some ch)
        [sval (predError e a (s.ch ch).cnt s.tt), (.en, source), (.wide, postTag e.post)]
    | _, _ => s
  s.firePulse i e s.tt

/-! ### Ends of pulses -/

/-- Some other entry fires on output `o`. -/
def State.outFiring (s : State) (o : Nat) : Bool :=
  s.au.table.vals.any (fun e => e.state == .firing && postOut e.post == o)

/-- A pending entry is due within `gap` ns (R304). -/
def entryDue (s : State) (gap : Nat) (e : AuEntry) : Bool :=
  if postKind e.post = 2 then decide (postTrig e.post ≤ s.tt + gap)
  else
    let c := s.ch (postCh e.post)
    let p := c.est (s.tt + gap)
    decide (ahead e.fwd (postTrig e.post) p.1 * speedScale - speedToward e.fwd p.2 ≤ 0)

/-- Entry `i`'s pulse ends (R300, R304): the entry is freed; with no other pulse on the output, it bridges to a
pending entry that is due within the gap, or goes idle. -/
def State.endPulse (s : State) (i : Nat) (e : AuEntry) : State :=
  let o := postOut e.post
  let s := s.setTable (s.au.table.del i)
  if s.outFiring o then s
  else
    let x := s.out o
    let s := s.setOut o { x with lastEnd := some s.tt, gap := e.gap }
    let due := s.au.table.vals.any (fun d => d.isPending && postOut d.post == o && entryDue s e.gap d)
    if due && e.gap != 0 then s.setOut o { s.out o with bridge := some s.tt } else s.outIdle o

/-- Entry `i`'s pulse is over: its TT end, or the travel of its width past the trigger (R300), its least length passed; or
the end that a cancel gave it, where that comes first (R306, log 103). -/
def State.pulseOver (s : State) (e : AuEntry) : Bool :=
  (decide (e.base + e.minOn ≤ s.tt) &&
    (if postWCnt e.post then decide ((postWidth e.post : Int) ≤ -(entryAhead s e))
     else decide (e.base + postWidth e.post * 1000 ≤ s.tt)))
  || (e.cut && decide (e.stop ≤ s.tt))

/-! ### Discards and stops -/

/-- Free every entry that passes, silently; the number freed. -/
def State.freeEntries (s : State) (p : AuEntry → Bool) : Nat × State :=
  let gone := (s.au.table.filterRows (fun _ e => p e)).cells.length
  (gone, s.setTable (s.au.table.filterRows (fun _ e => !p e)))

/-- Discard every pending entry that passes; one EVENT_DISCARDED carries the number (R307). -/
def State.discardPending (s : State) (p : AuEntry → Bool) (cause : Nat) (o : Option Nat) : State :=
  let r := s.freeEntries (fun e => e.isPending && p e)
  if r.1 = 0 then r.2
  else (r.2.bump R.AU_ERR_discarded [] r.1).postLim E.EVENT_DISCARDED cause o [(.en, cause), (.val, r.1)]

/-- Every running pulse ends at once and every output is idle (R307, R313). -/
def State.endAllPulses (s : State) : State :=
  let outs := (List.range s.cfg.actOutputs).filter (fun o => (s.out o).active)
  let s := (s.freeEntries (fun e => !e.isPending)).2
  foldS outs (fun o s => (s.setOut o { s.out o with lastEnd := some s.tt }).outIdle o) s

/-- A stop condition (R313, R315): ACT_OE falls, pulses end, pending entries are discarded with cause reset. With
the event path down (a reset), the discards are kept and reported later. -/
def State.actStop (s : State) (report : Bool) : State :=
  let s := s.endAllPulses
  let s := { s with au := { s.au with oe := false } }
  if report then s.discardPending (fun _ => true) discReset none
  else
    let r := s.freeEntries (fun e => e.isPending)
    let s := r.2.bump R.AU_ERR_discarded [] r.1
    { s with au := { s.au with resetDiscards := s.au.resetDiscards + r.1 } }

/-- Report the discards of a warm reset, once the event path is up again (R315). -/
def State.reportResetDiscards (s : State) : State :=
  if s.au.resetDiscards = 0 then s
  else ({ s with au := { s.au with resetDiscards := 0 } }).post E.EVENT_DISCARDED none
    [(.en, discReset), (.val, s.au.resetDiscards)]

/-- Some TT-trigger entry is pending (R67, R68). -/
def State.ttPending (s : State) : Bool :=
  s.au.table.vals.any (fun e => e.isPending && postKind e.post == 2)

/-- Some count-trigger entry of channel `ch` is pending (R103). -/
def State.cntPending (s : State) (ch : Nat) : Bool :=
  s.au.table.vals.any (fun e => e.isPending && postKind e.post == 1 && postCh e.post == ch)

/-! ### Cancels (R306) -/

/-- Cancel one entry: 3 already free, 1 pending freed, 2 running ended. A running pulse ends at the later of
min_on_us after its start and now. -/
def State.cancelEntry (s : State) (i : Nat) : Nat × State :=
  match s.au.table.get? i with
  | none => (3, s)
  | some e =>
    if e.isPending then (1, s.setTable (s.au.table.del i))
    else if e.start + e.minOn ≤ s.tt ∨ s.pulseOver e then (2, s.endPulse i e)
    else
      let e := { e with stop := e.start + e.minOn, cut := true }
      (2, s.setTable (s.au.table.set i e))

/-- The more severe of two cancel results (R306). -/
def worseCancel (a b : Nat) : Nat := if a = 2 ∨ b = 2 then 2 else if a = 1 ∨ b = 1 then 1 else 3

/-- Cancel several entries; the most severe outcome. -/
def State.cancelMany (s : State) (l : List Nat) : Nat × State :=
  l.foldl (fun r i => let q := r.2.cancelEntry i; (worseCancel r.1 q.1, q.2)) (3, s)

/-! ### Writes with a row of their own (R307) -/

/-- A write outside a field's range posts AU_CFG_REFUSED naming the register (R307). -/
def State.auRange (s : State) (r : RegSpec) (ix : List Nat) (v : Nat) : State :=
  if anyOutOfRange v r.fields then s.postLim E.AU_CFG_REFUSED (r.addr ix) none [(.val, r.addr ix)] else s

/-- AU_CTL (R307, R314): setting en drives every ACT_OE; clearing it drops ACT_OE, ends pulses and discards pending
entries with cause unit_off. -/
def State.auCtlWrite (s : State) (src : Src) (v : Nat) : State :=
  (s.paramWrite src R.AU_CTL [] v (fun _ _ _ => none) (fun s => s) (fun s old new =>
    if bit old 0 && !bit new 0 then
      let s := s.endAllPulses
      ({ s with au := { s.au with oe := false } }).discardPending (fun _ => true) discUnitOff none
    else if !bit old 0 && bit new 0 then { s with au := { s.au with oe := s.get R.EM_VMON_STATUS_fault == 0 } }
    else s)).auRange R.AU_CTL [] v

/-- AU_OUT_CFG (R307, R310): clearing en idles the output at once and discards its pending entries. -/
def State.auOutCfgWrite (s : State) (src : Src) (o v : Nat) : State :=
  if o < s.cfg.actOutputs then
    (s.paramWrite src R.AU_OUT_CFG [o] v (fun _ _ _ => none) (fun s => s) (fun s old new =>
      if bit old 0 && !bit new 0 then
        let s := (s.freeEntries (fun e => !e.isPending && postOut e.post == o)).2
        let s := if (s.out o).active then (s.setOut o { s.out o with lastEnd := some s.tt }).outIdle o else s
        s.discardPending (fun e => postOut e.post == o) discOutputOff (some o)
      else s)).auRange R.AU_OUT_CFG [o] v
  else s

/-! ### Commands -/

/-- The host completes a post in AU_POST (R296). -/
def State.auPost (s : State) (w7 : Nat) : State :=
  if s.hostShut .host then s.hostAbandon
  else if s.islandHeld 53 then s
  else
    let s := s.setRegWord R.AU_POST [7] w7
    let p := (List.range 8).foldl (fun a k => a + s.regWord R.AU_POST [k] * 2 ^ (32 * k)) 0
    let r := s.submitPost 1 0 p
    (r.2.2.put R.AU_POST_STATUS_status [] r.1).put R.AU_POST_STATUS_entry [] r.2.1

/-- Firmware completes a post in AU_MPOST (R296). -/
def State.auMpost (s : State) (w7 : Nat) : State :=
  if s.islandHeld 53 then s else
  let s := s.setRegWord R.AU_MPOST [7] w7
  let p := (List.range 8).foldl (fun a k => a + s.regWord R.AU_MPOST [k] * 2 ^ (32 * k)) 0
  let r := s.submitPost 2 0 p
  (r.2.2.put R.AU_MPOST_STATUS_status [] r.1).put R.AU_MPOST_STATUS_entry [] r.2.1

/-- AU_POST_SUBMIT. -/
def execAuPostSubmit (w7 : Nat) (s : State) : Host.Outcome State Fault Refusal := .next (s.auPost w7)

/-- AU_MPOST_SUBMIT. -/
def execAuMpostSubmit (w7 : Nat) (s : State) : Host.Outcome State Fault Refusal := .next (s.auMpost w7)

/-- COUNT_TRIGGER_FIRE: entry `i` fires once its Δ is at or below 0 (R298). -/
def execCountTriggerFire (i : Nat) (s : State) : Host.Outcome State Fault Refusal :=
  .next (match s.au.table.get? i with
    | some e => if e.isPending && postKind e.post == 1 && decide (entryAhead s e ≤ 0) then s.fireEntry i e 1 else s
    | none => s)

/-- PREDICTION_TRIGGER_FIRE: the guards of entry `i`'s channel are looked at; a disagreeing entry whose prediction
has reached the trigger fires, unless its channel stands still or its direction no longer matches (R301, R303). -/
def execPredictionTriggerFire (i : Nat) (s : State) : Host.Outcome State Fault Refusal :=
  .next (match s.au.table.get? i with
    | none => s
    | some e0 =>
      let s := s.guardCycle (postCh e0.post) false
      match s.au.table.get? i with
      | none => s
      | some e => match e.state, e.anchor with
        | .disagreeing, some a =>
          if s.approachMatches e && !s.flag R.PU_STATUS_standstill [postCh e.post] && decide (0 < entryAhead s e)
              && decide (predAhead e a s.tt ≤ 0)
          then s.fireEntry i e 2 else s
        | _, _ => s)

/-- TT_TRIGGER_FIRE: entry `i` fires once TT has reached its trigger (R298). -/
def execTtTriggerFire (i : Nat) (s : State) : Host.Outcome State Fault Refusal :=
  .next (match s.au.table.get? i with
    | some e => if e.isPending && postKind e.post == 2 && decide (postTrig e.post ≤ s.tt) then s.fireEntry i e 1 else s
    | none => s)

/-- PULSE_END: entry `i`'s pulse ends once its width has passed (R300). -/
def execPulseEnd (i : Nat) (s : State) : Host.Outcome State Fault Refusal :=
  .next (match s.au.table.get? i with
    | some e => if !e.isPending && s.pulseOver e then s.endPulse i e else s
    | none => s)

/-- PULSE_TRUNCATED: entry `i`'s pulse has lasted max_on × 10 ms and is cut (R300). -/
def execPulseTruncated (i : Nat) (s : State) : Host.Outcome State Fault Refusal :=
  .next (match s.au.table.get? i with
    | some e =>
      if !e.isPending && decide (e.base + e.maxOn ≤ s.tt) then
        (s.endPulse i e).postLim E.PULSE_TRUNCATED 0 (some (postOut e.post))
          [(.val, e.maxOn / 1000000), (.wide, postTag e.post)]
      else s
    | none => s)

/-- MIN_GAP_EXPIRY: output `o` has bridged for min_gap_us without its awaited entry and goes idle (R304). -/
def execMinGapExpiry (o : Nat) (s : State) : Host.Outcome State Fault Refusal :=
  .next (match (s.out o).bridge with
    | some t => if t + (s.out o).gap ≤ s.tt then s.outIdle o else s
    | none => s)

/-- A write to AU_CANCEL. -/
def State.auCancel (s : State) (entry : Nat) (all : Bool) : State :=
  if s.islandHeld 53 then s else
  let r := if all then s.cancelMany s.au.table.keys else s.cancelEntry entry
  r.2.put R.AU_CANCEL_RESULT_result [] r.1

/-- AU_CANCEL (R306). -/
def execAuCancel (entry : Nat) (all : Bool) (s : State) : Host.Outcome State Fault Refusal :=
  .next (s.auCancel entry all)

/-- A write to AU_CANCEL_OUT. -/
def State.auCancelOut (s : State) (o : Nat) : State :=
  if s.islandHeld 53 then s else
  let r := s.cancelMany ((s.au.table.filterRows (fun _ e => postOut e.post == o)).keys)
  r.2.put R.AU_CANCEL_RESULT_result [] r.1

/-- AU_CANCEL_OUT (R306). -/
def execAuCancelOut (o : Nat) (s : State) : Host.Outcome State Fault Refusal :=
  .next (s.auCancelOut o)

/-- ENTRY_EXPIRE: a pending entry `i` older than expire_s is discarded (R311). -/
def execEntryExpire (i : Nat) (s : State) : Host.Outcome State Fault Refusal :=
  let lim := s.get R.AU_CTL_expire_s
  .next (match s.au.table.get? i with
    | some e =>
      if e.isPending && lim != 0 && decide (e.acc + lim * 1000000000 < s.tt) then
        (s.setTable (s.au.table.del i)).discardEvent (postOut e.post) discExpired (postTag e.post)
      else s
    | none => s)

/-- AU_CTL_WRITE. -/
def execAuCtlWrite (src : Src) (v : Nat) (s : State) : Host.Outcome State Fault Refusal := .next (s.auCtlWrite src v)

/-- AU_OUT_CFG_WRITE. -/
def execAuOutCfgWrite (src : Src) (o v : Nat) (s : State) : Host.Outcome State Fault Refusal :=
  .next (s.auOutCfgWrite src o v)

end Sys2Proof.Machine
end

