-- ==== Sys2Proof/Machine/Aes.lean ====
section
/-! DEFINITION. The forward AES cipher, GHASH, GCM and CMAC (R420, R422, R423), over bytes as numbers and blocks of
16 bytes as big-endian numbers. -/

namespace Sys2Proof.Machine

/-! ### AES (R420) -/

/-- Doubling in GF(2^8). -/
def gfDouble (x : Nat) : Nat := if x < 128 then 2 * x else (2 * x) ^^^ 0x11B

/-- The product in GF(2^8), `n` bits of `b`. -/
def gfMulN : Nat → Nat → Nat → Nat
  | 0, _, _ => 0
  | n + 1, a, b => (if b % 2 = 1 then a else 0) ^^^ gfMulN n (gfDouble a) (b / 2)

/-- The product in GF(2^8). -/
def gfMul (a b : Nat) : Nat := gfMulN 8 a b

/-- a^(2 + 4 + … + 2^n), from its square. -/
def gfPow : Nat → Nat → Nat
  | 0, _ => 1
  | n + 1, s => gfMul s (gfPow n (gfMul s s))

/-- The inverse in GF(2^8), with 0 for 0: a^254. -/
def gfInv (a : Nat) : Nat := gfPow 7 (gfMul a a)

/-- An 8-bit rotation left. -/
def rotl8 (n x : Nat) : Nat := (x * 2 ^ n) % 256 + x / 2 ^ (8 - n)

/-- The S-box. -/
def sbox (x : Nat) : Nat :=
  let b := gfInv x
  b ^^^ rotl8 1 b ^^^ rotl8 2 b ^^^ rotl8 3 b ^^^ rotl8 4 b ^^^ 0x63

/-- Bytes added without carry. -/
def xorBytes (a b : List Nat) : List Nat := a.zipWith (· ^^^ ·) b

/-- The key schedule: words newest first; `i` is the number of the next word, `rc` the next round constant. -/
def expandKey (nk : Nat) : Nat → Nat → Nat → List (List Nat) → List (List Nat)
  | 0, _, _, ws => ws
  | n + 1, i, rc, ws =>
    let t := ws.headD []
    let u := if i % nk = 0 then
        let r := (t.drop 1 ++ t.take 1).map sbox
        xorBytes r [rc, 0, 0, 0]
      else if nk = 8 ∧ i % 8 = 4 then t.map sbox else t
    expandKey nk n (i + 1) (if i % nk = 0 then gfDouble rc else rc) (xorBytes u (ws.getD (nk - 1) []) :: ws)

/-- A list cut into pieces of `n`, at most `k` of them. -/
def chunks {α : Type} (n : Nat) : Nat → List α → List (List α)
  | 0, _ => []
  | k + 1, l => if l.isEmpty then [] else l.take n :: chunks n k (l.drop n)

/-- The round keys of a key of 16 or 32 bytes. -/
def roundKeys (key : List Nat) : List (List Nat) :=
  let nk := key.length / 4
  let first := chunks 4 nk key
  let total := 4 * (nk + 7)
  let ws := (expandKey nk (total - nk) nk 1 first.reverse).reverse
  (chunks 4 (nk + 7) ws).map (·.flatten)

/-- ShiftRows on 16 bytes in columns. -/
def shiftRows (b : List Nat) : List Nat := (List.range 16).map (fun i => b.getD ((i + 4 * (i % 4)) % 16) 0)

/-- MixColumns on one column. -/
def mixColumn (c : List Nat) : List Nat :=
  (List.range 4).map (fun i =>
    gfDouble (c.getD i 0) ^^^ (gfDouble (c.getD ((i + 1) % 4) 0) ^^^ c.getD ((i + 1) % 4) 0)
      ^^^ c.getD ((i + 2) % 4) 0 ^^^ c.getD ((i + 3) % 4) 0)

/-- The rounds after the first key addition: every round but the last mixes columns. -/
def aesRounds : List (List Nat) → List Nat → List Nat
  | [], b => b
  | [k], b => xorBytes (shiftRows (b.map sbox)) k
  | k :: t, b => aesRounds t (xorBytes ((chunks 4 4 (shiftRows (b.map sbox))).flatMap mixColumn) k)

/-- The bytes of a block, most significant first. -/
def blockBytes (x : Nat) : List Nat := (beBytes 16 x).map (·.toNat)

/-- A block from its bytes, the missing ones 0. -/
def blockOf (l : List Nat) : Nat := (l ++ List.replicate (16 - l.length) 0).foldl (fun a b => a * 256 + b) 0

/-- The forward cipher under an expanded key. -/
def aesWith (ks : List (List Nat)) (x : Nat) : Nat :=
  blockOf (aesRounds (ks.drop 1) (xorBytes (blockBytes x) (ks.headD [])))

/-- The forward cipher of one block. -/
def aes (key : List Byte) (x : Nat) : Nat := aesWith (roundKeys (key.map (·.toNat))) x

/-! ### GHASH and GCM (R422) -/

/-- The product of GHASH, `n` bits of `x` from the most significant. -/
def ghashMulN : Nat → Nat → Nat → Nat
  | 0, _, _ => 0
  | n + 1, x, v =>
    (if x.testBit 127 then v else 0) ^^^
      ghashMulN n (x * 2 % 2 ^ 128) (v / 2 ^^^ (if v % 2 = 1 then 0xE1 * 2 ^ 120 else 0))

/-- One block into the GHASH accumulator. -/
def ghashStep (h acc x : Nat) : Nat := ghashMulN 128 (acc ^^^ x) h

/-- The counter block after `c`. -/
def incr32 (c : Nat) : Nat := c / 2 ^ 32 * 2 ^ 32 + (c + 1) % 2 ^ 32

/-- A block value from memory bytes. -/
def blockOfBytes (l : List Byte) : Nat := blockOf (l.map (·.toNat))

/-- The top `n` bytes of a block. -/
def topBytes (n x : Nat) : List Byte := (beBytes 16 x).take n

/-- GHASH over bytes in blocks of 16, the last padded with zeros. -/
def ghashBytes (h acc : Nat) (l : List Byte) : Nat :=
  (chunks 16 l.length l).foldl (fun a b => ghashStep h a (blockOfBytes b)) acc

/-- The counter stream applied to bytes from counter block `c`. -/
def ctrStream (ks : List (List Nat)) : Nat → List (List Byte) → List Byte
  | _, [] => []
  | c, b :: t => topBytes b.length (blockOfBytes b ^^^ aesWith ks c) ++ ctrStream ks (incr32 c) t

/-- The length block. -/
def lenBlock (aad pay : Nat) : Nat := aad * 8 * 2 ^ 64 + pay * 8

/-- J0 of a 12-byte IV. -/
def j0 (iv : List Byte) : Nat := blockOfBytes (iv ++ [0, 0, 0, 1])

/-- GCM encryption: the ciphertext and the tag. -/
def gcmSeal (key iv aad pay : List Byte) : List Byte × List Byte :=
  let ks := roundKeys (key.map (·.toNat))
  let h := aesWith ks 0
  let c := ctrStream ks (incr32 (j0 iv)) (chunks 16 pay.length pay)
  let y := ghashStep h (ghashBytes h (ghashBytes h 0 aad) c) (lenBlock aad.length c.length)
  (c, topBytes 16 (y ^^^ aesWith ks (j0 iv)))

/-- GCM decryption: the plaintext, and whether the tag agrees. -/
def gcmOpen (key iv aad ct tag : List Byte) : List Byte × Bool :=
  let ks := roundKeys (key.map (·.toNat))
  let h := aesWith ks 0
  let p := ctrStream ks (incr32 (j0 iv)) (chunks 16 ct.length ct)
  let y := ghashStep h (ghashBytes h (ghashBytes h 0 aad) ct) (lenBlock aad.length ct.length)
  (p, topBytes 16 (y ^^^ aesWith ks (j0 iv)) == tag)

/-! ### CMAC (R423) -/

/-- Doubling in GF(2^128) as SP 800-38B has it. -/
def cmacDouble (x : Nat) : Nat := (x * 2 % 2 ^ 128) ^^^ (if x.testBit 127 then 0x87 else 0)

/-- The last block of a message under CMAC: complete with K1, or padded with K2. -/
def cmacLast (l last : Nat) (bytes : List Byte) : Nat :=
  if last = 16 then blockOfBytes bytes ^^^ cmacDouble l
  else blockOfBytes (bytes ++ [0x80]) ^^^ cmacDouble (cmacDouble l)

/-- The chaining value after the blocks of `bs`, all but the last. -/
def cmacChain (ks : List (List Nat)) : Nat → List (List Byte) → Nat
  | acc, [] => acc
  | acc, b :: t => cmacChain ks (aesWith ks (acc ^^^ blockOfBytes b)) t

/-- CMAC of a message. -/
def cmac (key msg : List Byte) : List Byte :=
  let ks := roundKeys (key.map (·.toNat))
  let l := aesWith ks 0
  let n := (msg.length - 1) / 16
  let head := msg.take (16 * n)
  let last := msg.drop (16 * n)
  let acc := cmacChain ks 0 (chunks 16 n head)
  topBytes 16 (aesWith ks (acc ^^^ cmacLast l last.length last))

end Sys2Proof.Machine
end

