-- ==== Sys2Proof/Machine/Crc.lean ====
section
/-! DEFINITION. The CRC-32 of IEEE 802.3 (R142): reflected, initial value 0xFFFF_FFFF, final value inverted. -/

namespace Sys2Proof.Machine

/-- `n` shifts of the reflected CRC-32 register. -/
def crcShift : Nat → Nat → Nat
  | 0, c => c
  | n + 1, c => crcShift n (if c % 2 = 1 then (c / 2) ^^^ 0xEDB88320 else c / 2)

/-- The CRC-32 of a list of bytes. -/
def crc32 (l : List Byte) : Nat :=
  l.foldl (fun c b => crcShift 8 (c ^^^ b.toNat)) 0xFFFFFFFF ^^^ 0xFFFFFFFF

end Sys2Proof.Machine
end

