-- ==== Sys2Proof/Machine/DsOps.lean ====
section
/-! DEFINITION. What the cores, the dispatcher and the batch builder share: cores and engines, windows and counters,
and the life of a job to its completion (chapters 7 and 10). -/

namespace Sys2Proof.Machine

/-! ### Cores and engines -/

/-- An engine with nothing queued (R186, R212, R238). -/
def Engine.init : Engine :=
  { queue := [], run := none, stopped := false, sreg := Tbl.empty, vreg := Tbl.empty, mask := Tbl.empty,
    modq := Tbl.empty, ending := [], outW := [], nextW := 0, asked := [], fetched := [], listed := [], acc := Tbl.empty,
    loads := [] }

/-- A core in reset (R186). -/
def Core.init : Core :=
  { eng := Tbl.empty, sync := Tbl.empty, win := Tbl.empty, statics := Tbl.empty, wrote := Tbl.empty }

/-- Core `c`. -/
def State.core (s : State) (c : Nat) : Core := s.cores.get c Core.init

/-- Give core `c`. -/
def State.setCore (s : State) (c : Nat) (x : Core) : State := { s with cores := s.cores.set c x }

/-- Engine `e` of core `c`: 0 TE, 1 LE, 2 SE, 3 VE, 4 RE (Table 22-3). -/
def State.eng (s : State) (c e : Nat) : Engine := (s.core c).eng.get e Engine.init

/-- Core `c` is held in reset for want of a clock (R49). -/
def State.coreHeld (s : State) (c : Nat) : Bool := s.heldIsl.contains c

/-- The core can receive descriptors (R260). -/
def State.coreRuns (s : State) (c : Nat) : Bool :=
  decide (c < s.cfg.cores) && s.flag R.CR_CORE_CTL_en [c] && !s.coreHeld c

/-- CR_ENG_STATUS.state of an engine. -/
def Engine.stateCode (x : Engine) : Nat :=
  if x.stopped then 3 else match x.run with
    | none => 0
    | some r => if r.wait.isSome then 2 else 1

/-- The engine has no segment and no entry in hand. -/
def Engine.quiet (x : Engine) : Bool := x.queue.isEmpty && x.run.isNone

/-- Show CR_CORE_STATUS.state: reset while the core is held, else idle, busy or drained, whatever en is (Table 7-7,
log 98). -/
def State.showCore (s : State) (c : Nat) : State :=
  let engs := (List.range s.cfg.engines).map (s.eng c)
  let st := if s.coreHeld c then 0
    else if engs.any (fun x => x.run.isSome) then 2
    else if s.flag R.CR_CORE_CTL_drain [c] then 3
    else if engs.all Engine.quiet then 1 else 2
  s.put R.CR_CORE_STATUS_state [c] st

/-- Show CR_ENG_STATUS and CR_ENG_PC; an engine without a segment keeps the last pc. -/
def State.showEng (s : State) (c e : Nat) : State :=
  let x := s.eng c e
  let s := (s.put R.CR_ENG_STATUS_state [c, e] x.stateCode).put R.CR_ENG_STATUS_queued [c, e] x.queue.length
  match x.run with
  | some r => (s.put R.CR_ENG_STATUS_job [c, e] r.desc.job).put R.CR_ENG_PC_pc [c, e] r.pc
  | none => s.put R.CR_ENG_STATUS_job [c, e] 0

/-- Give engine `e` of core `c`. -/
def State.setEng (s : State) (c e : Nat) (x : Engine) : State :=
  let k := s.core c
  ((s.setCore c { k with eng := k.eng.set e x }).showEng c e).showCore c

/-- The instance of an event that names a core and an engine (R582). -/
def engInst (c e : Nat) : Nat := c * 256 + e

/-- The floor frequency in MHz: the highest of the loaded images, 1,200 before any (R174, R443, log 32). -/
def State.floorMhz (s : State) : Nat :=
  match s.ds.floors.vals with
  | [] => 1200
  | l => l.foldl max 0

/-- The floor of the image that a job's segments belong to (R174, R175): that of the recipe for a step group, else log 32. -/
def State.floorOf (s : State) (t : Nat) : Nat :=
  match (s.ds.jobs.get? t).bind (·.group.step) with
  | some (slot, _) => s.ds.floors.get slot s.floorMhz
  | none => s.floorMhz

/-- Core `c` runs at CR_CORE_STATUS.freq_mhz from now on: every running segment whose image needs more has run below its floor
(R175). -/
def State.noteFreq (s : State) (c : Nat) : State :=
  let mhz := s.get R.CR_CORE_STATUS_freq_mhz [c]
  let k := s.core c
  s.setCore c { k with eng := k.eng.mapVals (fun _ x =>
    { x with run := x.run.map (fun r => { r with below := r.below || decide (mhz < s.floorOf r.desc.job) }) }) }

/-! ### Sync counters and windows (R169 to R171) -/

/-- Counter `n` of core `c`. -/
def State.sync (s : State) (c n : Nat) : Nat := (s.core c).sync.get n 0

/-- Give counter `n` of core `c`. -/
def State.setSync (s : State) (c n v : Nat) : State :=
  let k := s.core c
  s.setCore c { k with sync := k.sync.set n (v % 2 ^ 32) }

/-- Firmware writes counter `n` of core `c` (Table 7-7, R181). -/
def State.syncWrite (s : State) (c n v : Nat) : State :=
  let s := s.setSync c n v
  s.setCore c { s.core c with wrote := (s.core c).wrote.set n s.tt }

/-- A wait for `v` on a counter that reads `x` is satisfied (R169). -/
def waitMet (x v : Nat) : Bool := decide ((x + 2 ^ 32 - v % 2 ^ 32) % 2 ^ 32 < 2 ^ 31)

/-- The window of a job on a core. -/
def Core.winOf (k : Core) (job : Nat) : Option (Nat × Window) :=
  k.win.cells.find? (fun x => x.2.job = job ∧ !x.2.closing)

/-- Show CR_WIN of slot `k`. -/
def State.showWin (s : State) (c k : Nat) : State :=
  match (s.core c).win.get? k with
  | none => s.setRegWord R.CR_WIN [c, k] 0
  | some w => s.setRegWord R.CR_WIN [c, k] (w.job + w.base * 2 ^ 12 + w.size * 2 ^ 20 + 2 ^ 31)

/-- The counter blocks of 16 that a core's windows leave free, as bases at which `n` blocks are free (R170). -/
def Core.freeBases (k : Core) (n : Nat) : List Nat :=
  ((List.range 12).filter (fun b =>
    decide (b + n ≤ 12) && k.win.vals.all (fun w => decide (b * 16 + n * 16 ≤ w.base ∨ w.base + w.size ≤ b * 16)))).map
    (· * 16)

/-- The free window slots of a core. -/
def Core.freeSlots (k : Core) : List Nat := (List.range 12).filter (fun i => (k.win.get? i).isNone)

/-- A window of `n` blocks is free on a core; none is needed for n = 0. -/
def Core.hasWindow (k : Core) (n : Nat) : Bool := n == 0 || (!(k.freeBases n).isEmpty && !k.freeSlots.isEmpty)

/-- Windows of `a` and of `b` blocks are free together on a core. -/
def Core.hasBoth (k : Core) (a b : Nat) : Bool :=
  a == 0 || b == 0 || (decide (2 ≤ k.freeSlots.length) && (k.freeBases a).any (fun x => (k.freeBases b).any (fun y =>
    decide (x + a * 16 ≤ y ∨ y + b * 16 ≤ x))))

/-- Pick one of several equal choices that the manual leaves open: a free value (log 33). -/
def State.pick (s : State) (l : List Nat) : Nat × State :=
  let d := s.draw 32
  (l.getD (d.1 % l.length) (l.headD 0), d.2)

/-- Zero `n` counters from `base`. -/
def State.zeroSync (s : State) (c base n : Nat) : State :=
  let k := s.core c
  s.setCore c { k with sync := k.sync.filterRows (fun i _ => !(decide (base ≤ i ∧ i < base + n))) }

/-- Lend a job a window of `n` blocks on core `c`, its counters set to 0 (R170). -/
def State.lend (s : State) (c job n : Nat) : State :=
  if n = 0 then s
  else
    let b := s.pick ((s.core c).freeBases n)
    let k := b.2.pick (b.2.core c).freeSlots
    let s := k.2.zeroSync c b.1 (n * 16)
    let x := s.core c
    (s.setCore c { x with win := x.win.set k.1 { job := job, base := b.1, size := n * 16, closing := false } }).showWin c k.1

/-- Some signal toward a window of `job` on core `c` is on its way. -/
def State.signalToward (s : State) (c job : Nat) : Bool :=
  s.signals.any (fun g => g.core = c ∧ g.job = some job ∧ g.chip.isNone)

/-- Return closing windows that no signal is on its way to (R170). -/
def State.reclaim (s : State) (c : Nat) : State :=
  let k := s.core c
  let gone := (k.win.cells.filter (fun x => x.2.closing && !s.signalToward c x.2.job)).map (·.1)
  foldS gone (fun i s => s.showWin c i)
    (s.setCore c { k with win := k.win.filterRows (fun i _ => !gone.contains i) })

/-- The windows of a job close on every core (R170, R177, R252, R253). -/
def State.closeWindows (s : State) (job : Nat) : State :=
  foldS s.cores.keys (fun c s =>
    let k := s.core c
    (s.setCore c { k with win := k.win.mapVals (fun _ w => if w.job = job then { w with closing := true } else w) }).reclaim
      c) s

/-! ### Completion of groups (R255, R550, R551) -/

/-- Status codes (Table 22-5). -/
def stOk : Nat := 0
def stLate : Nat := 1
def stMissed : Nat := 2
def stCancelledBefore : Nat := 3
def stCancelled : Nat := 4
def stMalformed : Nat := 5
def stNoRoute : Nat := 6
def stNoRing : Nat := 7
def stAuditClass : Nat := 8
def stNoPosition : Nat := 9
def stPast : Nat := 10
def stInfeasible : Nat := 11
def stMismatch : Nat := 12
def stSyncInUse : Nat := 13
def stFault : Nat := 14
def stReset : Nat := 15

/-- The batch builder learns that a step group has ended (R270, R271, R290). -/
def State.stepEnded (s : State) (g : Group) (status : Nat) : State :=
  match g.step with
  | none => s
  | some (slot, code) =>
    match s.rcp.get? slot with
    | none => s
    | some r =>
      let kind := code % 2
      if r.k ≠ code / 2 ∨ r.phase ≠ (if kind = 0 then .detect else .infer) then s
      else
        let drop := (decide (status ≠ stOk ∧ status ≠ stLate) && decide (kind = 1)) ||
          decide (status = stCancelled ∨ status = stCancelledBefore)
        let r' := { r with ended := some kind, dropped := r.dropped || drop }
        { s with rcp := s.rcp.set slot r' }

/-- A group completes with a status; its record is made by GROUP_COMPLETION (R255). -/
def State.finishGroup (s : State) (g : Group) (job : Option (Nat × Job)) (status cause : Nat) : State :=
  let d : Done :=
    { group := g, job := (job.map (·.1)).getD 0, admitted := job.isSome, adm := (job.map (·.2.adm)).getD 0,
      deadline := job.bind (·.2.deadline), busy := (job.map (·.2.busy)).getD 0, status := status, cause := cause, tt := s.tt }
  { s with ds := { s.ds with dones := s.ds.dones ++ [d] } }.stepEnded g status

/-- A group is refused (R243, R257). -/
def State.refuseGroup (s : State) (g : Group) (status : Nat) : State :=
  let s := (s.bump R.DS_ERR_refused).pcCount pcDsBank 8 0x03
  let s := s.post E.GROUP_REFUSED none [(.ix, g.ring), (.num, g.index), (.en, status)]
  s.finishGroup g none status 0

/-- Show DS_STATUS. -/
def State.showDs (s : State) : State :=
  let lc := (s.ds.jobs.vals.filter (·.lc)).length
  (s.put R.DS_STATUS_lc_jobs [] lc).put R.DS_STATUS_be_jobs [] (s.ds.jobs.vals.length - lc)

/-- Change job `t`. -/
def State.modJob (s : State) (t : Nat) (f : Job → Job) : State :=
  match s.ds.jobs.get? t with
  | none => s
  | some j => { s with ds := { s.ds with jobs := s.ds.jobs.set t (f j) } }

/-- Core-ns that the job's running segments have used so far. -/
def State.runningNs (s : State) (t : Nat) : Nat :=
  (s.cores.vals.flatMap (fun k => k.eng.vals)).foldl (fun a x => match x.run with
    | some r => if r.desc.job = t then a + (s.tt - r.start) else a
    | none => a) 0

/-! ### Deadlines (R242, R245, R246) -/

/-- Mode of a ring (Table 10-7). -/
def State.ringMode (s : State) (r : Nat) : Nat := s.get R.DS_RING_CTL_mode [r]

/-- The group has an encoder deadline on its ring (R242). -/
def State.encDeadline (s : State) (g : Group) : Bool := s.ringMode g.ring == 2 && g.dlKind == 2

/-- Δ of R245 at `t`, in counts: from the estimated position as a whole count (R98). -/
def State.encDelta (s : State) (g : Group) (t : Nat) : Int := cntDiff g.dlCnt ((s.ch g.dlCh).estWhole t)

/-- The converted deadline D(t) of R245; a channel that is off or in standstill holds it at the horizon (R246, R261). It lies
before `t` once the estimate has passed the count. -/
def State.encConvert (s : State) (g : Group) (fwd : Bool) (t : Nat) : Nat :=
  let h := s.get R.DS_HORIZON_horizon_ms * 1000000
  let v := speedToward fwd (s.ch g.dlCh).speed
  let d := if fwd then s.encDelta g t else -(s.encDelta g t)
  if 0 < v ∧ s.chOn g.dlCh ∧ !s.flag R.PU_STATUS_standstill [g.dlCh] then
    ((t : Int) + min (d * speedScale / v) (h : Int)).toNat
  else t + h

/-- The counted position of `ch` has reached or passed `cnt` in the direction of approach (R246). -/
def State.countPassed (s : State) (ch cnt : Nat) (fwd : Bool) : Bool := decide (ahead fwd cnt (s.ch ch).cnt ≤ 0)

/-- The deadline of an admitted job has expired by now (R246). -/
def State.jobExpired (s : State) (j : Job) : Bool :=
  if s.encDeadline j.group then
    s.countPassed j.group.dlCh j.group.dlCnt j.fwd
      || decide (j.adm + s.get R.DS_BACKSTOP_backstop_ms * 1000000 ≤ s.tt)
  else match j.deadline with
    | some d => decide (d ≤ s.tt)
    | none => false

/-! ### Ranks (R247, R249) -/

/-- An entry is ready (R166). -/
def State.entryReady (s : State) (c e : Nat) (d : Desc) : Bool :=
  let x := s.eng c e
  let ctr := if d.waitStatic then d.waitCtr else d.winBase + d.waitCtr
  (!d.hasWait || waitMet (s.sync c ctr) d.waitVal)
  && !x.queue.any (fun q => q.job = d.job ∧ q.order < d.order)
  && (match x.run with
      | some r => r.desc.job != d.job
      | none => true)
  && (match s.ds.jobs.get? d.job with
      | some j => !j.frozen && j.fault == 0
      | none => false)

/-- Insert by (deadline, admission order). -/
def insertLc (x : Nat × Nat × Nat) : List (Nat × Nat × Nat) → List (Nat × Nat × Nat)
  | [] => [x]
  | y :: t => if x.1 < y.1 ∨ (x.1 = y.1 ∧ x.2.1 < y.2.1) then x :: y :: t else y :: insertLc x t

/-- The tags of the LC jobs in TT deadline order, ties in admission order. -/
def State.lcOrder (s : State) : List Nat :=
  ((s.ds.jobs.cells.filter (·.2.lc)).foldl (fun l x => insertLc (x.2.deadline.getD 0, x.2.seq, x.1) l) []).map (·.2.2)

/-- The BE rings with an admitted job. -/
def State.beRings (s : State) : List Nat :=
  ((s.ds.jobs.vals.filter (fun j => !j.lc)).map (fun j => j.group.ring)).eraseDups

/-- Ascending ring numbers, turned so that the first at or above `n` comes first. -/
def turnAt (n : Nat) (l : List Nat) : List Nat := l.filter (fun r => decide (n ≤ r)) ++ l.filter (fun r => decide (r < n))

/-- The BE rings in ascending number. -/
def sortNat (l : List Nat) : List Nat := (List.range 256).filter l.contains

/-- The BE rings with credit, in the rotation of the round. -/
def State.beOrder (s : State) : List Nat :=
  (turnAt s.ds.rotation (sortNat s.beRings)).filter (fun r => s.ds.credit.get r 0 != 0)

/-- The rank of a BE ring (R249). -/
def State.beRank (s : State) (r : Nat) : Nat :=
  match s.beOrder.findIdx? (· == r) with
  | some i => min (192 + i) 254
  | none => 255

/-- The rank of job `t` (R247). -/
def State.jobRank (s : State) (t : Nat) : Nat :=
  match s.ds.jobs.get? t with
  | none => 255
  | some j =>
    if j.lc then min ((s.lcOrder.findIdx? (· == t)).getD 191) 191 else s.beRank j.group.ring

/-- Some BE ring with credit has a ready entry (R249). -/
def State.beCreditReady (s : State) : Bool :=
  s.cores.cells.any (fun k => k.2.eng.cells.any (fun x => x.2.queue.any (fun d =>
    match s.ds.jobs.get? d.job with
    | some j => !j.lc && s.ds.credit.get j.group.ring 0 != 0 && s.entryReady k.1 x.1 d
    | none => false)))

/-- A round ends when no BE ring with ready entries has credit left; the next gives every BE ring with an admitted job
its weight, and the rotation advances by one ring (R249). -/
def State.beRound (s : State) : State :=
  if s.beRings.isEmpty || s.beCreditReady then s
  else
    { s with ds := { s.ds with rotation := (turnAt s.ds.rotation (sortNat s.beRings)).headD 0 + 1,
                               credit := s.beRings.foldl (fun t r => t.set r (s.get R.DS_RING_CTL_weight [r])) Tbl.empty } }

/-- The rank of a queued descriptor at a refresh: that of its job; a frozen job keeps its rank (R247). -/
def State.newRank (s : State) (d : Desc) : Nat :=
  if (s.ds.jobs.get? d.job).any (·.frozen) then d.rank else s.jobRank d.job

/-- RANK_REFRESH (R247): every queued descriptor takes the rank of its job, unless that is frozen. -/
def State.refreshRanks (s : State) : State :=
  let s := s.beRound
  { s with cores := s.cores.mapVals (fun _ k => { k with eng := k.eng.mapVals (fun _ x =>
      { x with queue := x.queue.map (fun d => { d with rank := s.newRank d }) }) }) }

/-! ### The end of a job -/

/-- Remove the queued entries of a job on every core (R177, R252, R253); what is left in flight is running or ended, and what
a held core has lost is waited for no more. -/
def State.purgeQueues (s : State) (t : Nat) : State :=
  let n := (s.cores.vals.flatMap (fun k => k.eng.vals)).foldl
    (fun a x => a + (x.queue.filter (fun d => d.job = t)).length) 0
  let s := foldS s.cores.keys (fun c s => foldS (s.core c).eng.keys (fun e s =>
    let x := s.eng c e
    s.setEng c e { x with queue := x.queue.filter (fun d => d.job ≠ t) }) s) s
  s.modJob t (fun j => { j with todo := [], inFlight := j.inFlight - n, lost := 0 })

/-- Free a job: its tag, its windows; its group completes (R255). -/
def State.endJob (s : State) (t : Nat) (j : Job) (status cause : Nat) : State :=
  let s := { s with ds := { s.ds with jobs := s.ds.jobs.del t } }
  ((s.finishGroup j.group (some (t, j)) status cause).closeWindows t).showDs.refreshRanks

/-- A job with nothing left to post or run completes with its status (R32, R252, R253, R255). -/
def State.jobCheck (s : State) (t : Nat) : State :=
  match s.ds.jobs.get? t with
  | none => s
  | some j =>
    if !j.todo.isEmpty || j.inFlight != 0 || j.lost != 0 then s
    else if j.cancelled then s.endJob t j stCancelled 0
    else if j.fault ≠ 0 then s.endJob t j stFault j.fault
    else if j.dropped then s.endJob t j stMissed 0
    else if j.expired then s.endJob t j stLate 0
    else s.endJob t j stOk 0

/-- A job faults (R177): its queued entries go, its running segments run to their end. -/
def State.faultJob (s : State) (t code : Nat) : State :=
  ((s.modJob t (fun j => if j.fault = 0 ∧ !j.cancelled then { j with fault := code } else j)).purgeQueues t).jobCheck t

/-- The deadline of job `t` expires (R252); a job that a held core keeps from finishing is dropped under either policy
(R260, log 97). -/
def State.expireJob (s : State) (t : Nat) : State :=
  match s.ds.jobs.get? t with
  | none => s
  | some j =>
    if j.expired || j.cancelled || !s.jobExpired j then s
    else
      let fin := s.flag R.DS_RING_CTL_miss_policy [j.group.ring] && j.lost == 0
      let s := (s.bump R.DS_ERR_missed).pcCount pcDsBank 8 0x04
      let s := s.post E.DEADLINE_MISSED none
        [(.ix, j.group.ring), (.num, j.group.index), (.num, t), (.en, 1 + b2n fin)]
      let s := s.modJob t (fun j => { j with expired := true, dropped := !fin })
      if fin then s else (s.purgeQueues t).jobCheck t

/-- A segment of job `t` is reported complete to the dispatcher (R167); a deadline that has come counts first
(R259). -/
def State.segmentDone (s : State) (t : Nat) : State :=
  ((s.modJob t (fun j => { j with inFlight := j.inFlight - 1 })).expireJob t).jobCheck t

end Sys2Proof.Machine
end

