-- ==== Sys2Proof/Machine/EngOps.lean ====
section
/-! DEFINITION. What every engine does around its instructions (chapters 7 to 9, 23): fetch, issue, retirement,
signals, waits, exceptions and tags. -/

namespace Sys2Proof.Machine

/-- The base of core `c`'s scratch (R40). -/
def coreScratch (c : Nat) : Nat := scratchBase + c * 0x100000

/-- This chip's number (R45: 0 without Quill). -/
def State.chipNo (s : State) : Nat := if s.cfg.quillPorts = 0 then 0 else s.get R.QM_ID_chip

/-! ### Exceptions (R177, R210, R235) -/

def exOpcode : Nat := 0x01
def exField : Nat := 0x02
def exType : Nat := 0x03
def exAlign : Nat := 0x04
def exAddr : Nat := 0x05
def exGather : Nat := 0x06
def exSync : Nat := 0x07
def exCode : Nat := 0x08
def exFetch : Nat := 0x09
def exFabric : Nat := 0x0A
def exRing : Nat := 0x10
def exModulus : Nat := 0x11
def exNoModulus : Nat := 0x12

/-- The segment in progress leaves its engine without reporting complete. -/
def State.dropRun (s : State) (c e : Nat) : State :=
  let x := s.eng c e
  s.setEng c e { x with run := none, asked := [], fetched := [], listed := [] }

/-- The running segment's job faults with an event code (R177); the segment has ended. -/
def State.faultRun (s : State) (c e code : Nat) : State :=
  match (s.eng c e).run with
  | none => s
  | some r =>
    let j := r.desc.job
    ((s.dropRun c e).modJob j (fun j => { j with inFlight := j.inFlight - 1 })).faultJob j code

/-- An exception of the instruction at the engine's pc: the event is posted, the job faults (R210, R235). SYNC_RANGE
is event 0x8004 with the index and the window's size. -/
def State.exception (s : State) (c e code : Nat) (ix : Nat := 0) : State :=
  match (s.eng c e).run with
  | none => s
  | some r =>
    if code = exSync then
      (s.post E.SYNC_RANGE (some (engInst c e)) [(.num, r.desc.job), (.val, ix), (.val, r.desc.winSize)]).faultRun c e
        E.SYNC_RANGE
    else
      (s.post E.ENGINE_EXCEPTION (some (engInst c e)) [(.num, r.desc.job), (.num, code), (.val, r.pc)]).faultRun c e
        E.ENGINE_EXCEPTION

/-- The event of a scratch error that a fabric access meets: it names the core, and no engine or job has part in it (R179,
log 93). -/
def State.scratchEcc (s : State) (c a cause : Nat) : State :=
  s.post E.SCRATCH_ECC (some (engInst c 0xFF)) [(.wide, a), (.en, cause)]

/-- An uncorrectable word of the Hoard or of a scratch (R185, R326): source 1 read, 2 partial write, 3 scrub. -/
def State.eccBad (s : State) (a source : Nat) : State :=
  let s := if s.badWords.contains (a / 8) then s else { s with badWords := s.badWords ++ [a / 8] }
  match s.region a with
  | .hoard =>
    let s := (s.bump R.FB_HOARD_ECC_uncorrected).put R.FB_HOARD_ECC_ADDR_offset [] (a - hoardBase)
    s.postLim E.HOARD_ECC source none [(.val, a - hoardBase), (.en, source)]
  | .scratch c => (s.bump R.CR_ECC_uncorrected [c]).scratchEcc c a 2
  | _ => s

/-- Word `w` (address / 8) still holds a correctable error. -/
def State.softWord (s : State) (w : Nat) : Bool := s.fab.soft.any (fun x => x.1 == w && s.readLe (8 * w) 8 == x.2)

/-- Word `w` is found to hold a correctable error that no read has met yet. -/
def State.markSoft (s : State) (w : Nat) : State :=
  { s with fab := { s.fab with soft := s.fab.soft.filter (fun x => x.1 ≠ w) ++ [(w, s.readLe (8 * w) 8)] } }

/-- A correctable word is corrected in the returned data and counted; a Hoard bank takes one write-back (R185, R326). `who`:
the engine and job that read it. -/
def State.eccFixed (s : State) (a : Nat) (who : Option (Nat × Nat) := none) : State :=
  let s := { s with fab := { s.fab with soft := s.fab.soft.filter (fun x => x.1 ≠ a / 8) } }
  match s.region a with
  | .hoard =>
    let b := (a - hoardBase) / 64 % 64
    let s := s.bump R.FB_HOARD_ECC_corrected
    if (s.fab.wback.get? b).isSome then s else { s with fab := { s.fab with wback := s.fab.wback.set b (a / 8) } }
  | .scratch c =>
    let s := s.bump R.CR_ECC_corrected [c]
    match who with
    | some (e, j) => s.post E.SCRATCH_ECC (some (engInst c e)) [(.num, j), (.wide, a), (.en, 1)]
    | none => s.scratchEcc c a 1
  | _ => s

/-- The words of a range that hold a correctable error; with `part`, those that the range does not cover whole. -/
def State.softIn (s : State) (a n : Nat) (part : Bool) : List Nat :=
  (s.fab.soft.map (·.1)).filter (fun w => decide (8 * w < a + n ∧ a < 8 * w + 8) && s.softWord w
    && !(part && decide (a ≤ 8 * w ∧ 8 * w + 8 ≤ a + n)))

/-- The job that an engine works for. -/
def Engine.job (x : Engine) : Nat := (x.run.map (fun r => r.desc.job)).getD 0

/-- Engine `e` of core `c` reads a range: its correctable words are corrected, written back and counted (R185). -/
def State.eccRead (s : State) (c e a n : Nat) : State :=
  foldS (s.softIn a n false) (fun w s => s.eccFixed (8 * w) (some (e, (s.eng c e).job))) s

/-- Engine `e` of core `c` is about to write a range: the words that it merges into are read, and whole words get new ECC
(R185). -/
def State.eccWrite (s : State) (c e a n : Nat) : State :=
  if s.fab.soft.isEmpty then s
  else
    let s := foldS (s.softIn a n true) (fun w s => s.eccFixed (8 * w) (some (e, (s.eng c e).job))) s
    { s with fab := { s.fab with soft := s.fab.soft.filter (fun x => !(decide (a ≤ 8 * x.1 ∧ 8 * x.1 + 8 ≤ a + n))) } }

/-- The first uncorrectable word of a range, as an address. -/
def State.firstBad (s : State) (a n : Nat) : Nat :=
  ((s.badWords.find? (fun w => decide (8 * w < a + n ∧ a < 8 * w + 8))).map (8 * ·)).getD a

/-- Code that holds an uncorrectable error is fetched: the word is counted and reported where it lies (R185, R326), and the
instruction raises FETCH_ECC. -/
def State.fetchBad (s : State) (c e a n : Nat) : State := (s.eccBad (s.firstBad a n) 1).exception c e exFetch

/-- An uncorrectable error in data the segment reads, or in a word it would merge into, at address `a` (R185). -/
def State.eccFault (s : State) (c e a : Nat) : State :=
  match (s.eng c e).run with
  | none => s
  | some r =>
    let s := s.bump R.CR_ECC_uncorrected [c]
    (s.post E.SCRATCH_ECC (some (engInst c e)) [(.num, r.desc.job), (.wide, a), (.en, 2)]).faultRun c e E.SCRATCH_ECC

/-! ### Signals and waits (R169 to R172, R182, R183, R205) -/

/-- Send a signal: to a chip over Quill, or to a counter of this chip. -/
def State.sendSignal (s : State) (g : Signal) : State := { s with signals := s.signals ++ [g] }

/-- The write number that a signal of the engine waits for: all writes issued so far (R162). -/
def State.writeMark (s : State) (c e : Nat) : Nat := (s.eng c e).nextW

/-- A signal instruction of engine `e` on core `c` by `n` (Table 7-5): `static` names an absolute counter, else an
index of the job's window on the target core. -/
def State.engSignal (s : State) (c e : Nat) (d : Desc) (static : Bool) (ctr n : Nat) (toCore : Option Nat)
    (toChip : Option Nat) : State :=
  let mark := s.writeMark c e
  let tc := toCore.getD c
  let g : Signal := { core := tc, ctr := ctr, n := n, job := none, fromCore := c, fromEng := e, after := mark, chip := none,
                      owner := some d.job }
  match toChip.filter (· ≠ s.chipNo) with
  | some h => s.sendSignal { g with chip := some h }
  | none =>
    if static then s.sendSignal g
    else if tc = c then s.sendSignal { g with ctr := d.winBase + ctr, job := some d.job }
    else match (s.core tc).winOf d.job with
      | some w =>
        if ctr < w.2.size then s.sendSignal { g with ctr := w.2.base + ctr, job := some d.job }
        else s.sendSignal { g with ctr := 256 + ctr, job := some d.job }
      | none => s.sendSignal { g with ctr := 256 + ctr, job := some d.job }

/-- The absolute counter that a wait of a segment names. -/
def Desc.waitCounter (d : Desc) (static : Bool) (ctr : Nat) : Nat := if static then ctr else d.winBase + ctr

/-! ### Issue and retirement -/

/-- The polynomial step of R573: x^24 + x^23 + x^22 + x^17 + 1. -/
def lfsrStep (x : Nat) : Nat :=
  let b := (b2n (x.testBit 23) + b2n (x.testBit 22) + b2n (x.testBit 21) + b2n (x.testBit 16)) % 2
  (x * 2 + b) % 2 ^ 24

/-- The seed of an engine's LFSR (R573). -/
def State.lfsrSeed (s : State) (c e : Nat) : Nat :=
  let v := (s.get R.PC_TAG_SEED_seed [c]) ^^^ e
  if v = 0 then 1 else v

/-- The issue of an instruction advances the engine's LFSR and may tag it (R573); stage times that the model does not
keep are free values (log 36). `op` is the nest opcode or the bundle's slot mask. -/
def State.tagIssue (s : State) (c e op : Nat) (held : Bool) : State :=
  match (s.eng c e).run with
  | none => s
  | some r =>
    if !bit (s.get R.PC_TAG_CTL_eng_mask [c]) e then s
    else
      let key := c * 8 + e
      let x := lfsrStep (s.pc.lfsr.get key (s.lfsrSeed c e))
      let s := { s with pc := { s.pc with lfsr := s.pc.lfsr.set key x } }
      if x % 2 ^ s.get R.PC_TAG_CTL_k [c] ≠ 0 then s
      else if (s.pc.tag.get? key).isSome then (s.bump R.PC_TAG_DROP_count [c]).bump R.PC_ERR_smp_dropped
      else
        let smp := [r.desc.job, r.desc.segId, r.pc, op, s.tt, 2 * b2n held]
        { s with pc := { s.pc with tag := s.pc.tag.set key smp } }

/-- The first instruction of the segment issues now (R175). -/
def State.noteIssue (s : State) (c e : Nat) : State :=
  let x := s.eng c e
  match x.run with
  | none => s
  | some r => if r.issue.isSome then s else s.setEng c e { x with run := some { r with issue := some s.tt } }

/-- An instruction or bundle retires: the pc moves to `next`, and the segment ends with `fin` or past its code (R167). -/
def State.retire (s : State) (c e next : Nat) (fin : Bool) : State :=
  let s := s.noteIssue c e
  let x := s.eng c e
  match x.run with
  | none => s
  | some r =>
    (s.setEng c e { x with run := some { r with pc := next, wait := none, ended := fin || decide (r.desc.codeLen ≤ next),
                                                sent := none },
                           asked := [], fetched := [], listed := [] }).pcCount (pcEngBank c e) 8 0x02

/-- The engine runs a segment that can issue: not ended, not stopped, not in a wait, and with no instruction whose remote
writes are still unacknowledged (R206, R210). -/
def State.canIssue (s : State) (c e : Nat) : Option Running :=
  let x := s.eng c e
  if x.stopped ∨ s.cfg.cores ≤ c ∨ s.cfg.engines ≤ e then none
  else match x.run with
    | some r => if r.ended ∨ r.wait.isSome ∨ r.sent.isSome ∨ r.desc.codeLen ≤ r.pc then none else some r
    | none => none

/-- `n` bytes of code at the pc, as a little-endian number. -/
def State.fetchCode (s : State) (r : Running) (n : Nat) : Nat := s.readLe (r.desc.codeAddr + r.pc) n

/-- Zero the registers at the start of a segment (R193, R217): slot 15 holds batch_addr. -/
def Engine.fresh (x : Engine) (batch : Nat) : Engine :=
  { x with sreg := (Tbl.empty : Tbl Nat).set 15 batch, vreg := Tbl.empty, mask := Tbl.empty, modq := Tbl.empty,
           asked := [], fetched := [], listed := [], loads := [] }

/-- The entry an engine starts: lowest rank, then the one posted earliest (R166). -/
def bestDesc : List Desc → Option Desc
  | [] => none
  | d :: t => match bestDesc t with
    | none => some d
    | some b => if d.rank < b.rank ∨ (d.rank = b.rank ∧ d.order < b.order) then some d else some b

end Sys2Proof.Machine
end

