-- ==== Sys2Proof/Machine/Cipher.lean ====
section
/-! DEFINITION. The cipher unit (chapter 17): start checks, the firmware port's operations, chaining contexts, keys. -/

namespace Sys2Proof.Machine

/-! ### Statuses (Table 17-5) -/

def cuOk : Nat := 1
def cuBusy : Nat := 2
def cuFormat : Nat := 3
def cuKey : Nat := 4
def cuLength : Nat := 5
def cuAuth : Nat := 6
def cuRange : Nat := 7
def cuMemory : Nat := 8
def cuContext : Nat := 9
def cuFault : Nat := 10
def cuNotReady : Nat := 11
def cuReset : Nat := 12

/-- An operation on a port (0 firmware, 1 audit, 2 image loader) ends without OK (R433). -/
def State.cuFailed (s : State) (port op status : Nat) : State :=
  let s := if status = cuAuth then s.bump R.CU_ERR_auth else s
  s.post E.CU_OP_FAILED none [(.ix, port), (.en, op), (.en, status)]

/-- A start check fails (R424). -/
def State.cuRefused (s : State) (port op status : Nat) : State := (s.bump R.CU_ERR_refused).cuFailed port op status

/-! ### Keys -/

/-- The key of a slot. -/
def State.slotKey (s : State) (k : Nat) : List Byte := s.cu.keys.get k []

/-- A slot holds a key with a use: 0 image, 1 audit, 2 general (CU_KEY_INFO.use). -/
def State.keyFor (s : State) (k use : Nat) : Bool :=
  decide (k < 16) && s.flag R.CU_KEY_INFO_valid [k] && bit (s.get R.CU_KEY_INFO_use [k]) use

/-- The firmware key (R431). -/
def fwKeyBytes : List Byte :=
  if Config.fwKey256 then beBytes 32 Config.fwKey.toNat else beBytes 16 Config.fwKey.toNat

/-- The per-boot context key (R426): the CMAC that the manual states gives its first half (log 45). -/
def State.contextKey (s : State) : List Byte :=
  cmac (beBytes 32 Config.deviceKey.toNat)
    ([0x43, 0x54, 0x58, 0x00] ++ beBytes 4 s.cu.boot ++ List.replicate 8 (0 : Byte))
    ++ beBytes 16 (Config.contextKeyTail s.cu.boot).toNat

/-- The key of the firmware port's operation. -/
def State.opKey (s : State) (o : CuOp) : List Byte := if o.fwkey then fwKeyBytes else s.slotKey o.slot

/-! ### Start checks (Table 17-3) -/

/-- A range lies wholly in the Hoard, a populated Burrow extent or, for firmware, working SRAM; an empty range does. -/
def State.cuRangeOk (s : State) (fw : Bool) (a n : Nat) : Bool :=
  n == 0 || s.inHoardOrBurrow a n || (fw && s.region a == .sram && s.region (a + n - 1) == .sram)

/-- The unit does not take requests: NOT_READY until the self-tests have passed, FAULT after one has failed (R436). -/
def State.cuUnready (s : State) : Option Nat :=
  if s.cu.test = 0 then some cuNotReady else if s.cu.test = 2 then some cuFault else none

/-- An address pair of the unit. -/
def State.cuAddr (s : State) (lo hi : RegSpec) : Nat := s.regWord lo [] + s.regWord hi [] % 256 * 2 ^ 32

/-- The operation that the CU_OP registers describe, with op and slot from `v`. -/
def State.cuOpOf (s : State) (v : Nat) : CuOp :=
  { op := v % 8, slot := bits v 6 3, fwkey := bit v 8, gen := s.get R.CU_KEY_INFO_gen [bits v 6 3],
    src := s.cuAddr R.CU_OP_SRC_LO R.CU_OP_SRC_HI, dst := s.cuAddr R.CU_OP_DST_LO R.CU_OP_DST_HI,
    aad := s.cuAddr R.CU_OP_AAD_LO R.CU_OP_AAD_HI, tag := s.cuAddr R.CU_OP_TAG_LO R.CU_OP_TAG_HI,
    len := s.get R.CU_OP_LEN_len, aadLen := s.get R.CU_OP_AAD_LEN_aad_len, acc := 0, ctr := 0, ek := 0, aadDone := 0,
    done := 0, part := [], suspended := false, restored := false, bad := false }

/-- The start checks of a GCM or CMAC operation on the firmware port, in order (Table 17-3, R431). -/
def State.cuCheck (s : State) (v : Nat) (o : CuOp) : Option Nat :=
  let gcm := o.op = 1 ∨ o.op = 2
  if s.cu.fw.isSome then some cuBusy
  else if o.op = 0 ∨ o.op = 7 ∨ bits v 30 9 ≠ 0 ∨ (!gcm ∧ o.aadLen ≠ 0) ∨ (o.fwkey ∧ o.op ≠ 4) then some cuFormat
  else if 65535 < o.aadLen then some cuLength
  else if !o.fwkey ∧ !s.keyFor o.slot 2 then some cuKey
  else if !s.cuRangeOk true o.src o.len ∨ (gcm ∧ (!s.cuRangeOk true o.dst o.len ∨ !s.cuRangeOk true o.aad o.aadLen))
      ∨ !s.cuRangeOk true o.tag 16 then some cuRange
  else none

/-! ### The datapath -/

/-- Show the firmware port's state in CU_OP_STATUS. -/
def State.cuShow (s : State) : State :=
  let b := match s.cu.fw with
    | some o => (b2n (!o.suspended), b2n o.suspended)
    | none => (0, 0)
  (s.put R.CU_OP_STATUS_busy [] b.1).put R.CU_OP_STATUS_suspended [] b.2

/-- The firmware operation wants the datapath. -/
def State.cuFwWaits (s : State) : Bool := s.cu.fw.any (fun o => !o.suspended)

/-- The free datapath serves the next waiting port: firmware, then audit (R427). -/
def State.cuServe (s : State) : State :=
  if s.cu.turn.isSome then s
  else if s.cuFwWaits then { s with cu := { s.cu with turn := some 0 } }
  else if !s.cu.audit.isEmpty then { s with cu := { s.cu with turn := some 1 } }
  else s

/-- The port leaves the datapath. -/
def State.cuYield (s : State) (port : Nat) : State :=
  (if s.cu.turn = some port then { s with cu := { s.cu with turn := none } } else s).cuServe

/-- Give the firmware port its operation. -/
def State.setFwOp (s : State) (o : Option CuOp) : State := { s with cu := { s.cu with fw := o } }.cuShow

/-- The firmware port's operation ends with a status. -/
def State.cuEnd (s : State) (op status : Nat) : State :=
  let s := ((s.setFwOp none).put R.CU_OP_STATUS_status [] status).cuYield 0
  if status = cuOk then s else s.cuFailed 0 op status

/-- Start an operation: H and E(K, J0) of GCM are made first. -/
def State.cuStartOp (s : State) (o : CuOp) : State :=
  let o := if o.op = 1 ∨ o.op = 2 then
      let iv := leBytes 12 (s.regWord R.CU_OP_IV [0] + s.regWord R.CU_OP_IV [1] * 2 ^ 32 + s.regWord R.CU_OP_IV [2] * 2 ^ 64)
      { o with ek := aes (s.opKey o) (j0 iv), ctr := incr32 (j0 iv) }
    else o
  ((s.setFwOp (some o)).put R.CU_OP_STATUS_status [] 0).cuServe

/-- The next input of an operation at `a`, `n` bytes, those held of a partial block first. -/
def State.cuInput (s : State) (o : CuOp) (a n : Nat) : List Byte :=
  o.part.take n ++ s.readMem (a + o.part.length) (n - o.part.length)

/-- One block of the operation: AAD, then payload; CMAC keeps its last block for the end. `ks`, `h`: round keys and H. -/
def State.cuBlock (s : State) (ks : List (List Nat)) (h : Nat) (o : CuOp) : State × CuOp :=
  let gcm := decide (o.op = 1 ∨ o.op = 2)
  if gcm && decide (o.aadDone < o.aadLen) then
    let n := min 16 (o.aadLen - o.aadDone)
    let l := s.cuInput o (o.aad + o.aadDone) n
    (s, { o with acc := ghashStep h o.acc (blockOfBytes l), aadDone := o.aadDone + n, part := [],
                 bad := o.bad || s.badIn (o.aad + o.aadDone) n })
  else if gcm && decide (o.done < o.len) then
    let n := min 16 (o.len - o.done)
    let l := s.cuInput o (o.src + o.done) n
    let out := topBytes n (blockOfBytes l ^^^ aesWith ks o.ctr)
    let c := if o.op = 1 then out else l
    let bad := o.bad || s.badIn (o.src + o.done) n || s.badMerge (o.dst + o.done) n
    (if bad then s else s.writeMem (o.dst + o.done) out,
     { o with acc := ghashStep h o.acc (blockOfBytes c), ctr := incr32 o.ctr,
              done := if bad then o.done else o.done + n, part := [], bad := bad })
  else if !gcm && decide (o.done + 16 < o.len) then
    let l := s.cuInput o (o.src + o.done) 16
    (s, { o with acc := aesWith ks (o.acc ^^^ blockOfBytes l), done := o.done + 16, part := [],
                 bad := o.bad || s.badIn (o.src + o.done) 16 })
  else (s, o)

/-- `n` blocks of the operation, or until it meets an error. -/
def State.cuBlocks (ks : List (List Nat)) (h : Nat) : Nat → State × CuOp → State × CuOp
  | 0, p => p
  | n + 1, p => if p.2.bad then p else cuBlocks ks h n (p.1.cuBlock ks h p.2)

/-- The blocks of AAD and payload that an operation has processed, and all that it has. -/
def CuOp.blocksDone (o : CuOp) : Nat := (o.aadDone + 15) / 16 + (o.done + 15) / 16
def CuOp.blocks (o : CuOp) : Nat := (o.aadLen + 15) / 16 + (o.len + 15) / 16

/-- Process the operation up to block `n`. -/
def State.cuAdvance (s : State) (o : CuOp) (n : Nat) : State × CuOp :=
  let ks := roundKeys ((s.opKey o).map (·.toNat))
  State.cuBlocks ks (aesWith ks 0) (min n o.blocks - o.blocksDone) (s, o)

/-- The tag of an operation whose blocks are all processed. -/
def State.cuTag (s : State) (o : CuOp) : List Byte :=
  let ks := roundKeys ((s.opKey o).map (·.toNat))
  if o.op = 1 ∨ o.op = 2 then
    topBytes 16 (ghashStep (aesWith ks 0) o.acc (lenBlock o.aadLen o.len) ^^^ o.ek)
  else
    let l := s.cuInput o (o.src + o.done) (o.len - o.done)
    topBytes 16 (aesWith ks (o.acc ^^^ cmacLast (aesWith ks 0) l.length l))

/-- The operation runs to its end (R421 to R423, R435). -/
def State.cuFinish (s : State) (o : CuOp) (err : Bool) : State :=
  let p := s.cuAdvance o o.blocks
  let o := p.2
  let s := p.1
  let reads := o.op = 2 ∨ o.op = 4
  let bad := err || o.bad || (decide reads && s.badIn o.tag 16) || (!decide reads && s.badMerge o.tag 16)
    || (decide (2 < o.op) && s.badIn (o.src + o.done) (o.len - o.done))
  if bad then
    (if o.op = 2 then s.zeroMem o.dst o.done else s).cuEnd o.op cuMemory
  else
    let tag := s.cuTag o
    if reads then
      if s.readMem o.tag 16 = tag then s.cuEnd o.op cuOk
      else (if o.op = 2 then s.zeroMem o.dst o.len else s).cuEnd o.op cuAuth
    else (s.writeMem o.tag tag).cuEnd o.op cuOk

/-! ### Chaining contexts (R428, R429) -/

/-- Bytes 0 to 91 of Table 17-4. -/
def CuOp.contextBody (o : CuOp) : List Byte :=
  let gcm := o.op = 1 ∨ o.op = 2
  beBytes 16 o.acc ++ (if gcm then beBytes 16 o.ctr else List.replicate 16 0)
    ++ (if gcm then beBytes 16 o.ek else List.replicate 16 0)
    ++ (o.part ++ List.replicate (16 - o.part.length) 0) ++ leBytes 8 o.aadDone ++ leBytes 8 o.done
    ++ leBytes 4 o.aadLen ++ leBytes 4 o.len ++ leBytes 1 o.op ++ leBytes 1 o.slot ++ leBytes 1 o.gen
    ++ leBytes 1 o.part.length

/-- The 96 bytes of a chaining context. -/
def CuOp.context (o : CuOp) : List Byte := o.contextBody ++ leBytes 4 (crc32 o.contextBody)

/-- The magic of a wrapped context. -/
def wrapMagic : List Byte := leBytes 4 0x2C7E0001

/-- A wrapped context: magic, IV, ciphertext, tag. -/
def State.wrapContext (s : State) (o : CuOp) : List Byte :=
  let iv := leBytes 4 s.cu.boot ++ leBytes 8 s.cu.saves
  let r := gcmSeal s.contextKey iv wrapMagic o.context
  wrapMagic ++ iv ++ r.1 ++ r.2

/-- The operation that 96 bytes describe. -/
def CuOp.ofContext (l : List Byte) : CuOp :=
  let f := fun a n => leVal ((l.drop a).take n)
  { op := f 88 1, slot := f 89 1, fwkey := false, gen := f 90 1, src := 0, dst := 0, aad := 0, tag := 0, len := f 84 4,
    aadLen := f 80 4, acc := beVal (l.take 16), ctr := beVal ((l.drop 16).take 16), ek := beVal ((l.drop 32).take 16),
    aadDone := f 64 8, done := f 72 8, part := (l.drop 48).take (min 16 (f 91 1)), suspended := true, restored := true,
    bad := false }

/-- The checks of R429 on 96 clear bytes; an op that is none of 1 to 4 is refused with them (log 45). -/
def State.contextOk (s : State) (l : List Byte) : Bool :=
  let o := CuOp.ofContext l
  leVal (l.drop 92) == crc32 (l.take 92) && decide (1 ≤ o.op ∧ o.op ≤ 4 ∧ o.slot < 16)
  && s.get R.CU_KEY_INFO_gen [o.slot] == o.gen && decide (o.aadDone ≤ o.aadLen ∧ o.done ≤ o.len)

/-- The 96 clear bytes of a context at `a`, if its wrapping opens. -/
def State.readContext (s : State) (wrap : Bool) (a : Nat) : Option (List Byte) :=
  if !wrap then some (s.readMem a 96)
  else
    let l := s.readMem a 128
    let r := gcmOpen s.contextKey ((l.drop 4).take 12) wrapMagic ((l.drop 16).take 96) (l.drop 112)
    if l.take 4 = wrapMagic ∧ r.2 then some r.1 else none

/-- Op 5: the suspended operation's context goes to memory and the port is free (R428). -/
def State.cuSave (s : State) (v : Nat) : State :=
  let wrap := bit v 7
  let dst := s.cuAddr R.CU_OP_DST_LO R.CU_OP_DST_HI
  let n := if wrap then 128 else 96
  let stop := fun q => (s.put R.CU_OP_STATUS_status [] q).cuRefused 0 5 q
  match s.cu.fw with
  | none => stop cuContext
  | some o =>
    if !o.suspended then stop cuBusy
    else if bits v 30 8 ≠ 0 then stop cuFormat
    else if !s.cuRangeOk true dst n then stop cuRange
    else if wrap ∧ s.cu.devBad then stop cuFault
    else if s.badMerge dst n then (s.put R.CU_OP_STATUS_status [] cuMemory).cuFailed 0 5 cuMemory
    else
      let l := if wrap then s.wrapContext o else o.context
      let s := if wrap then { s with cu := { s.cu with saves := (s.cu.saves + 1) % 2 ^ 64 } } else s
      (s.writeMem dst l).cuEnd 5 cuOk

/-- Op 6: a context becomes the port's suspended operation, or is refused (R428, R429). -/
def State.cuRestore (s : State) (v : Nat) : State :=
  let wrap := bit v 7
  let src := s.cuAddr R.CU_OP_SRC_LO R.CU_OP_SRC_HI
  let n := if wrap then 128 else 96
  let stop := fun q => (s.put R.CU_OP_STATUS_status [] q).cuRefused 0 6 q
  if s.cu.fw.isSome then stop cuBusy
  else if bits v 30 8 ≠ 0 then stop cuFormat
  else if !s.cuRangeOk true src n then stop cuRange
  else if wrap ∧ s.cu.devBad then stop cuFault
  else if s.badIn src n then (s.put R.CU_OP_STATUS_status [] cuMemory).cuFailed 0 6 cuMemory
  else match s.readContext wrap src with
    | none => stop cuContext
    | some l =>
      if s.contextOk l then (s.setFwOp (some (CuOp.ofContext l))).put R.CU_OP_STATUS_status [] cuOk
      else stop cuContext

/-- A write with go set to CU_OP_CTL over the management register path (R424, R432). -/
def State.cuStart (s : State) (src : Src) (v : Nat) : State :=
  if src = .host then s
  else
    let s := (((s.put R.CU_OP_CTL_op [] v).put R.CU_OP_CTL_slot [] (bits v 6 3)).put R.CU_OP_CTL_wrap [] (v / 128)).put
      R.CU_OP_CTL_fwkey [] (v / 256)
    let stop := fun q => (s.put R.CU_OP_STATUS_status [] q).cuRefused 0 (v % 8) q
    match s.cuUnready with
    | some q => stop q
    | none =>
      if v % 8 = 5 then s.cuSave v
      else if v % 8 = 6 then s.cuRestore v
      else
        let o := s.cuOpOf v
        match s.cuCheck v o with
        | some q => stop q
        | none => s.cuStartOp o

/-! ### Suspension (R427, R428) -/

/-- The firmware operation stops at block boundary `n`: it has processed its blocks up to there. -/
def State.cuPause (s : State) (n : Nat) (suspend : Bool) : State :=
  match s.cu.fw with
  | none => s
  | some o =>
    if o.suspended then s
    else
      let p := s.cuAdvance o n
      if p.2.bad then
        (if o.op = 2 then p.1.zeroMem o.dst p.2.done else p.1).cuEnd o.op cuMemory
      else (p.1.setFwOp (some { p.2 with suspended := suspend })).cuYield 0

/-- A quantum ends while another port waits: the next port in rotation is served (R427). -/
def State.cuQuantum (s : State) (n : Nat) : State :=
  match s.cu.turn with
  | some 0 =>
    if s.cu.audit.isEmpty then s
    else
      let s := s.cuPause n false
      if s.cuFwWaits then { s with cu := { s.cu with turn := some 1 } } else s
  | some _ => if s.cuFwWaits then { s with cu := { s.cu with turn := some 0 } } else s
  | none => s

/-- CU_CTL.resume: the suspended operation goes on; a restored one takes its addresses from the registers (log 45). -/
def State.cuResume (s : State) : State :=
  match s.cu.fw with
  | none => s
  | some o =>
    if !o.suspended then s
    else
      let a := s.cuOpOf 0
      let o := if o.restored then { o with src := a.src, dst := a.dst, aad := a.aad, tag := a.tag, restored := false } else o
      let o := { o with suspended := false }
      let gcm := o.op = 1 ∨ o.op = 2
      if !s.cuRangeOk true o.src o.len ∨ (gcm ∧ (!s.cuRangeOk true o.dst o.len ∨ !s.cuRangeOk true o.aad o.aadLen))
          ∨ !s.cuRangeOk true o.tag 16 then s.cuEnd o.op cuRange
      else (s.setFwOp (some o)).cuServe

/-! ### Key slots (R425, R434) -/

/-- A slot is used by a running or suspended operation. -/
def State.keyInUse (s : State) (k : Nat) : Bool :=
  s.cu.fw.any (fun o => !o.fwkey && o.slot == k)
  || (s.cu.audit.head?).any (fun c => ((s.aud.ctx.get? c).any (fun x => leVal ((x.hdr.drop 9).take 1) == k)))

/-- The KCV of a key: 24 bits, byte 0 in [23:16]. -/
def kcvOf (key : List Byte) : Nat := aes key 0 / 2 ^ 104

/-- The journal's detail of a key load: slot, uses, size and KCV (R502, log 44). -/
def keyDetail (slot use k256 kcv : Nat) : Nat := slot + use * 2 ^ 4 + k256 * 2 ^ 7 + kcv * 2 ^ 8

/-- The `where` of a key load: the register, or the dictionary entry of an SDO download. -/
def keyLoc (src : Src) : Nat := if src = .sdo then dictLoc 0x2900 2 else R.CU_KEY_LOAD.addr []

/-- The key slots as the key store keeps them (R426, R430). -/
def State.storedKeys (s : State) : Tbl StoredKey :=
  ⟨s.cu.keys.cells.map (fun c => (c.1, ⟨s.get R.CU_KEY_INFO_use [c.1], s.flag R.CU_KEY_INFO_k256 [c.1], c.2⟩))⟩

/-- The key store in boot flash is rewritten in its older copy (R468). -/
def State.saveKeys (s : State) : State :=
  let f := s.boot.flash
  let seq := fun (x : Option (Nat × Tbl StoredKey)) => (match x with
    | some c => c.1 + 1
    | none => 0 : Nat)
  let n := (max (seq f.key0) (seq f.key1), s.storedKeys)
  let f := if seq f.key0 ≤ seq f.key1 then { f with key0 := some n } else { f with key1 := some n }
  { s with boot := { s.boot with flash := f } }

/-- A refused key load or clear: cause 1 in use, 2 not ready (R425, R434). -/
def State.keyRefused (s : State) (src : Src) (slot cause v : Nat) : State :=
  (s.post E.CU_KEY_REFUSED none [(.ix, slot), (.en, cause)]).jrnEntry (srcNum src) 2
    (if cause = 1 then causeInUse else causeBlock) (keyLoc src) 0 v true (slot % 16)

/-- A slot is filled or emptied; `save` says that the key store is rewritten (R425). -/
def State.putKey (s : State) (src : Src) (slot use k256 : Nat) (key : Option (List Byte)) (v : Nat) (save : Bool) : State :=
  let kcv := match key with
    | some k => kcvOf k
    | none => 0
  let use := if key.isSome then use else 0
  let k256 := if key.isSome then k256 else 0
  let s := { s with cu := { s.cu with keys := match key with
                              | some k => s.cu.keys.set slot k
                              | none => s.cu.keys.del slot } }
  let s := (((s.put R.CU_KEY_INFO_valid [slot] (b2n key.isSome)).put R.CU_KEY_INFO_k256 [slot] k256).put
    R.CU_KEY_INFO_use [slot] use).put R.CU_KEY_INFO_gen [slot] (s.get R.CU_KEY_INFO_gen [slot] + 1)
  let s := s.put R.CU_KEY_KCV_kcv [slot] kcv
  let s := s.post E.CU_KEY_CHANGED none [(.ix, slot), (.en, use), (.val, kcv), (.en, if key.isSome then 1 else 2)]
  (if save then s.saveKeys else s).jrnEntry (srcNum src) 0 0 (keyLoc src) 0 v true (keyDetail slot use k256 kcv)

/-- Fill or empty a slot (R425). -/
def State.setKey (s : State) (src : Src) (slot use k256 : Nat) (key : Option (List Byte)) (v : Nat) : State :=
  if s.cu.test ≠ 1 then s.keyRefused src slot 2 v
  else if s.keyInUse slot then s.keyRefused src slot 1 v
  else s.putKey src slot use k256 key v true

/-- The bytes that CU_KEY_DATA holds. -/
def State.keyData (s : State) (k256 : Bool) : List Byte :=
  (List.range (if k256 then 8 else 4)).flatMap (fun i => leBytes 4 (s.cu.data.get i 0))

/-- A write to CU_KEY_LOAD over the management register path; without go nothing happens. -/
def State.keyLoadWrite (s : State) (src : Src) (v : Nat) : State :=
  if src = .host ∨ !bit v 31 then s
  else
    let k := bit v 4
    s.setKey src (v % 16) (bits v 7 5) (b2n k) (if bit v 8 then none else some (s.keyData k)) v

/-! ### The image loader's check (R430) -/

/-- The image loader verifies the CMAC after an image: none when it passes, else the status it fails with. -/
def State.imageCheck (s : State) (a len slot : Nat) : Option Nat :=
  match s.cuUnready with
  | some q => some q
  | none =>
    if len < 16 then some cuFormat
    else if !s.keyFor slot 0 then some cuKey
    else if !s.cuRangeOk false a len then some cuRange
    else if s.badIn a len then some cuMemory
    else if cmac (s.slotKey slot) (s.readMem a (len - 16)) = s.readMem (a + len - 16) 16 then none else some cuAuth

/-- IMAGE_AUTH_FAIL, with the loader port's operation failed (R430, R433). -/
def State.imageAuthFail (s : State) (a slot status : Nat) : State :=
  let s := if status = cuAuth ∨ status = cuMemory then s.cuFailed 2 4 status else s.cuRefused 2 4 status
  s.post E.IMAGE_AUTH_FAIL none [(.wide, a), (.ix, slot), (.en, status)]

/-! ### Commands -/

/-- The CU_OP_CTL word of a row: `rsvd` is what the write holds in [30:9]. -/
def opCtl (op slot : Nat) (wrap fwkey : Bool) (rsvd : Nat) : Nat :=
  op + slot % 16 * 2 ^ 3 + b2n wrap * 2 ^ 7 + b2n fwkey * 2 ^ 8 + rsvd % 2 ^ 22 * 2 ^ 9 + 2 ^ 31

/-- GCM_ENCRYPT. -/
def execGcmEncrypt (src : Src) (slot : Nat) (wrap fwkey : Bool) (rsvd : Nat) (s : State) : Host.Outcome State Fault Refusal :=
  .next (s.cuStart src (opCtl 1 slot wrap fwkey rsvd))

/-- GCM_DECRYPT. -/
def execGcmDecrypt (src : Src) (slot : Nat) (wrap fwkey : Bool) (rsvd : Nat) (s : State) : Host.Outcome State Fault Refusal :=
  .next (s.cuStart src (opCtl 2 slot wrap fwkey rsvd))

/-- CMAC_GENERATE. -/
def execCmacGenerate (src : Src) (slot : Nat) (wrap fwkey : Bool) (rsvd : Nat) (s : State) :
    Host.Outcome State Fault Refusal :=
  .next (s.cuStart src (opCtl 3 slot wrap fwkey rsvd))

/-- CMAC_VERIFY. -/
def execCmacVerify (src : Src) (slot : Nat) (wrap fwkey : Bool) (rsvd : Nat) (s : State) : Host.Outcome State Fault Refusal :=
  .next (s.cuStart src (opCtl 4 slot wrap fwkey rsvd))

/-- CONTEXT_SAVE. -/
def execContextSave (src : Src) (slot : Nat) (wrap fwkey : Bool) (rsvd : Nat) (s : State) :
    Host.Outcome State Fault Refusal :=
  .next (s.cuStart src (opCtl 5 slot wrap fwkey rsvd))

/-- CONTEXT_RESTORE. -/
def execContextRestore (src : Src) (slot : Nat) (wrap fwkey : Bool) (rsvd : Nat) (s : State) :
    Host.Outcome State Fault Refusal :=
  .next (s.cuStart src (opCtl 6 slot wrap fwkey rsvd))

/-- CIPHER_OP_COMPLETE: the firmware port's operation, which the datapath serves, ends. -/
def execCipherOpComplete (err : Bool) (s : State) : Host.Outcome State Fault Refusal :=
  .next (match s.cu.turn, s.cu.fw with
    | some 0, some o => s.cuFinish o err
    | _, _ => s)

/-- CIPHER_QUANTUM_EXPIRY. -/
def execCipherQuantumExpiry (n : Nat) (s : State) : Host.Outcome State Fault Refusal := .next (s.cuQuantum n)

/-- CIPHER_SUSPEND. -/
def execCipherSuspend (n : Nat) (s : State) : Host.Outcome State Fault Refusal := .next (s.cuPause n true)

/-- CIPHER_RESUME. -/
def execCipherResume (s : State) : Host.Outcome State Fault Refusal := .next s.cuResume

/-- KEY_LOAD: `v` as written to CU_KEY_LOAD, with clear 0. -/
def execKeyLoad (src : Src) (v : Nat) (s : State) : Host.Outcome State Fault Refusal :=
  .next (s.keyLoadWrite src (setBits v 8 8 0))

/-- KEY_CLEAR: `v` as written to CU_KEY_LOAD, with clear 1. -/
def execKeyClear (src : Src) (v : Nat) (s : State) : Host.Outcome State Fault Refusal :=
  .next (s.keyLoadWrite src (setBits v 8 8 1))

/-- CIPHER_SELFTEST_DONE: `fail` is the number of the test that failed, in the order of R436. -/
def execCipherSelftestDone (fail : Option Nat) (s : State) : Host.Outcome State Fault Refusal :=
  .next (
    if s.cu.test ≠ 0 ∨ s.por then s
    else match fail with
      | none => { s with cu := { s.cu with test := 1 }, ecatHold := s.ecatHold || s.get R.EM_VMON_STATUS_fault == 0 }
      | some n => { s with cu := { s.cu with test := 2 } }.post E.CU_SELFTEST_FAIL none [(.en, n)])

end Sys2Proof.Machine
end

