-- ==== Sys2Proof/Machine/Audit.lean ====
section
/-! DEFINITION. The audit contexts (chapter 16): open, seal and close of sealed packages, and the guard of their
regions. -/

namespace Sys2Proof.Machine

/-! ### States and results (Table 16-6) -/

def audIdle : Nat := 0
def audOpening : Nat := 1
def audOpen : Nat := 2
def audSealing : Nat := 3
def audSealed : Nat := 4
def audClosing : Nat := 5

def arOk : Nat := 1
def arBusy : Nat := 2
def arFormat : Nat := 3
def arKey : Nat := 4
def arRange : Nat := 5
def arAuth : Nat := 6
def arOverlap : Nat := 7
def arCounter : Nat := 8
def arMemory : Nat := 9

/-- A context that holds no package. -/
def AudCtx.empty : AudCtx := { hdr := [], pkg := 0, region := 0, src := .host, out := 0, ctr := 0, was := 0 }

/-- Context `k`, and its state. -/
def State.audCtx (s : State) (k : Nat) : AudCtx := s.aud.ctx.get k AudCtx.empty
def State.audState (s : State) (k : Nat) : Nat := s.get R.RG_AUD_STATUS_state [k]

/-- Give context `k`. -/
def State.setAud (s : State) (k : Nat) (x : AudCtx) : State := { s with aud := { s.aud with ctx := s.aud.ctx.set k x } }

/-- `n` bytes of a package header at `a` as a number (Table 16-4). -/
def hdrField (h : List Byte) (a n : Nat) : Nat := leVal ((h.drop a).take n)

/-- Fields of the package that a context holds. -/
def AudCtx.bodyLen (x : AudCtx) : Nat := hdrField x.hdr 12 4
def AudCtx.regionLen (x : AudCtx) : Nat := hdrField x.hdr 44 4
def AudCtx.auditId (x : AudCtx) : Nat := hdrField x.hdr 16 8
def AudCtx.keySlot (x : AudCtx) : Nat := hdrField x.hdr 9 1
def AudCtx.gcm (x : AudCtx) : Bool := hdrField x.hdr 8 1 == 1
def AudCtx.iv (x : AudCtx) : List Byte := (x.hdr.drop 24).take 12

/-- The command is journalled with its context, audit_id, key slot and result (R413, log 44). -/
def State.audJournal (s : State) (src : Src) (k cmd result : Nat) (x : AudCtx) : State :=
  s.jrnEntry (srcNum src) (if result = arOk then 0 else 2) (if result = arOk then 0 else causeBlock)
    (if src = .sdo then dictLoc 0x2900 (0x33 + 8 * k) else R.RG_AUD_CMD.addr [k]) (x.auditId % 2 ^ 32) (x.auditId / 2 ^ 32) true
    (k + x.keySlot * 2 ^ 8 + result * 2 ^ 16 + cmd * 2 ^ 24)

/-- A command is refused, with the context's state unchanged (R408, R414, R416). -/
def State.audRefuse (s : State) (src : Src) (k cmd result : Nat) (x : AudCtx) : State :=
  let s := s.put R.RG_AUD_STATUS_result [k] result
  (s.post E.AUDIT_REFUSED (some k) [(.en, cmd), (.en, result)]).audJournal src k cmd result x

/-- A command ends with a result and leaves a state. -/
def State.audEnd (s : State) (k cmd state result : Nat) : State :=
  let x := s.audCtx k
  let s := (s.put R.RG_AUD_STATUS_state [k] state).put R.RG_AUD_STATUS_result [k] result
  s.audJournal x.src k cmd result x

/-- The context holds nothing any more. -/
def State.audForget (s : State) (k : Nat) : State :=
  ({ s with aud := { s.aud with ctx := s.aud.ctx.del k } }).setPair R.RG_AUD_ID_LO R.RG_AUD_ID_HI [k] 0

/-- The audit port's operation of context `k` leaves the cipher unit (R427). -/
def State.audLeave (s : State) (k : Nat) : State :=
  { s with cu := { s.cu with audit := s.cu.audit.filter (· ≠ k),
                             turn := if s.cu.turn = some 1 then none else s.cu.turn } }.cuServe

/-- The datapath serves the audit operation of context `k`. -/
def State.audServed (s : State) (k : Nat) : Bool := s.cu.turn == some 1 && s.cu.audit.head? == some k

/-- An address pair of context `k`. -/
def State.ctxAddr (s : State) (lo hi : RegSpec) (k : Nat) : Nat := s.regWord lo [k] + s.regWord hi [k] % 256 * 2 ^ 32

/-! ### Open (R408) -/

/-- The FORMAT check of Table 16-5 on a header. -/
def hdrFormatOk (h : List Byte) : Bool :=
  let mode := hdrField h 5 1
  let parties := hdrField h 6 1
  let sealed := hdrField h 8 1
  hdrField h 0 4 == 0x7A5E11D0 && hdrField h 4 1 == 1 && hdrField h 10 2 == 0 && hdrField h 42 2 == 0
  && decide (1 ≤ mode ∧ mode ≤ 3) && (if mode = 1 then parties == 1 else (parties == 2 || parties == 3))
  && decide (hdrField h 7 1 < parties) && (sealed == 1 || (sealed == 0 && mode == 1))

/-- Two address ranges share a byte. -/
def overlaps (a n b m : Nat) : Bool := decide (a < b + m ∧ b < a + n)

/-- The RANGE check of Table 16-5. -/
def State.audRangeOk (s : State) (x : AudCtx) : Bool :=
  let n := x.regionLen
  s.inHoardOrBurrow x.pkg (80 + x.bodyLen) && x.region % 4096 == 0 && s.inHoardOrBurrow x.region n
  && decide (1 ≤ x.bodyLen ∧ x.bodyLen ≤ n ∧ hdrField x.hdr 48 4 + hdrField x.hdr 52 4 ≤ n
    ∧ 1 ≤ hdrField x.hdr 60 4 ∧ hdrField x.hdr 56 4 + hdrField x.hdr 60 4 ≤ n)

/-- A range overlaps the region of a context other than `k` that is not IDLE. -/
def State.audOverlap (s : State) (k a n : Nat) : Bool :=
  (List.range 4).any (fun j => decide (j ≠ k) && s.audState j != audIdle
    && overlaps a n (s.audCtx j).region (s.audCtx j).regionLen)

/-- The checks of Table 16-5, in order; the header must be readable before any of them (log 46). -/
def State.audOpenCheck (s : State) (k : Nat) (x : AudCtx) : Option Nat :=
  if !s.inHoardOrBurrow x.pkg 64 then some arRange
  else if s.badIn x.pkg 64 then some arMemory
  else if !hdrFormatOk x.hdr then some arFormat
  else if !s.keyFor x.keySlot 1 then some arKey
  else if !s.audRangeOk x then some arRange
  else if s.audOverlap k x.region x.regionLen then some arOverlap
  else none

/-- What an open command takes from the registers of context `k` and from the package's header. -/
def State.audOpenCtx (s : State) (src : Src) (k : Nat) : AudCtx :=
  let pkg := s.ctxAddr R.RG_AUD_PKG_LO R.RG_AUD_PKG_HI k
  { AudCtx.empty with hdr := s.readMem pkg 64, pkg := pkg, src := src,
                      region := s.ctxAddr R.RG_AUD_REGION_LO R.RG_AUD_REGION_HI k }

/-- An audit context queues for the cipher unit. -/
def State.audQueue (s : State) (k : Nat) : State := { s with cu := { s.cu with audit := s.cu.audit ++ [k] } }

/-- cmd 1: open. -/
def State.audOpenCmd (s : State) (src : Src) (k : Nat) : State :=
  if 4 ≤ k ∨ s.islandHeld 52 then s
  else if s.audState k ≠ audIdle then s.audRefuse src k 1 arBusy (s.audCtx k)
  else
    let x := s.audOpenCtx src k
    match s.audOpenCheck k x with
    | some q => s.audRefuse src k 1 q x
    | none =>
      (((s.setAud k x).put R.RG_AUD_STATUS_state [k] audOpening).audQueue k).cuServe

/-- An open ends without the package: the region is zeroed and the context is IDLE (R408, R417). -/
def State.audOpenFail (s : State) (k result : Nat) (zero : Bool) : State :=
  let x := s.audCtx k
  let s := if zero then s.zeroMem x.region x.regionLen else s
  let s := if result = arAuth then (s.bump R.RG_ERR_auth).post E.AUDIT_AUTH_FAIL (some k) [(.wide, x.auditId)]
    else s.post E.AUDIT_REFUSED (some k) [(.en, 1), (.en, result)]
  ((s.audEnd k 1 audIdle result).audForget k).audLeave k

/-- The copy and the tag check of an open (R407, R408, R417, R427). -/
def State.audOpenDone (s : State) (k : Nat) (err : Bool) : State :=
  let x := s.audCtx k
  let n := x.bodyLen
  let op := if x.gcm then 2 else 4
  if s.audState k ≠ audOpening ∨ !s.audServed k then s
  else match s.cuUnready with
    | some q => (s.cuRefused 1 op q).audOpenFail k arKey false
    | none =>
      if !s.keyFor x.keySlot 1 then (s.cuRefused 1 op cuKey).audOpenFail k arKey false
      else if err || s.badIn x.pkg (80 + n) || s.badMerge x.region n then
        (s.cuFailed 1 op cuMemory).audOpenFail k arMemory true
      else
        let key := s.slotKey x.keySlot
        let body := s.readMem (x.pkg + 64) n
        let tag := s.readMem (x.pkg + 64 + n) 16
        let r := if x.gcm then gcmOpen key x.iv x.hdr body tag else (body, cmac key (x.hdr ++ body) == tag)
        if !r.2 then (s.cuFailed 1 op cuAuth).audOpenFail k arAuth true
        else
          let s := (s.writeMem x.region r.1).setPair R.RG_AUD_ID_LO R.RG_AUD_ID_HI [k] x.auditId
          let s := s.post E.AUDIT_OPENED (some k) [(.wide, x.auditId), (.en, hdrField x.hdr 5 1)]
          (s.audEnd k 1 audOpen arOk).audLeave k

/-! ### Seal (R411) -/

/-- cmd 2: the checks, then the seal counter advances in boot flash. -/
def State.audSealCmd (s : State) (src : Src) (k : Nat) (flashOk : Bool) : State :=
  let x := s.audCtx k
  let st := s.audState k
  let out := s.ctxAddr R.RG_AUD_OUT_LO R.RG_AUD_OUT_HI k
  if 4 ≤ k ∨ s.islandHeld 52 then s
  else if st ≠ audOpen ∧ st ≠ audSealed then s.audRefuse src k 2 arBusy x
  else if !s.keyFor x.keySlot 1 then s.audRefuse src k 2 arKey x
  else if !s.inHoardOrBurrow out (80 + hdrField x.hdr 60 4) then s.audRefuse src k 2 arRange x
  else if !s.aud.restored ∨ !flashOk then s.audRefuse src k 2 arCounter x
  else
    let n := s.aud.sealCtr.get x.keySlot 0 + 1
    let s := { s with aud := { s.aud with sealCtr := s.aud.sealCtr.set x.keySlot n } }
    let f := s.boot.flash
    let s := { s with boot := { s.boot with flash := { f with seals := f.seals.set x.keySlot n } } }
    let s := (s.setAud k { x with src := src, out := out, ctr := n, was := st }).put R.RG_AUD_STATUS_state [k] audSealing
    { s with cu := { s.cu with audit := s.cu.audit ++ [k] } }.cuServe

/-- The result IV (R411): chip number, 0x52 0x45, the counter with its most significant byte first. -/
def resultIv (chip ctr : Nat) : List Byte := leBytes 2 chip ++ [0x52, 0x45] ++ beBytes 8 ctr

/-- The 64 header bytes of a result record (R411, log 47). -/
def State.resultHeader (s : State) (x : AudCtx) : List Byte :=
  (List.range 64).map (Config.sealHeader
    [hdrField x.hdr 5 1, hdrField x.hdr 7 1, s.chipNo, x.auditId, hdrField x.hdr 60 4,
     beVal (resultIv s.chipNo x.ctr), x.ctr])

/-- The result record of the output window as it stands (R411). -/
def State.resultRecord (s : State) (x : AudCtx) : List Byte :=
  let hdr := s.resultHeader x
  let win := s.readMem (x.region + hdrField x.hdr 56 4) (hdrField x.hdr 60 4)
  let key := s.slotKey x.keySlot
  if x.gcm then
    let r := gcmSeal key (resultIv s.chipNo x.ctr) hdr win
    hdr ++ r.1 ++ r.2
  else hdr ++ win ++ cmac key (hdr ++ win)

/-- The record is written and the context becomes SEALED; a memory error returns it to OPEN (R411, R417). -/
def State.audSealDone (s : State) (k : Nat) (err : Bool) : State :=
  let x := s.audCtx k
  let op := if x.gcm then 1 else 3
  if s.audState k ≠ audSealing ∨ !s.audServed k then s
  else
    let n := hdrField x.hdr 60 4
    let stop := fun (s : State) (q : Nat) =>
      ((s.post E.AUDIT_REFUSED (some k) [(.en, 2), (.en, q)]).audEnd k 2 audOpen q).audLeave k
    if !s.keyFor x.keySlot 1 then stop (s.cuRefused 1 op cuKey) arKey
    else if err || s.badIn (x.region + hdrField x.hdr 56 4) n || s.badMerge x.out (80 + n) then
      stop (s.cuFailed 1 op cuMemory) arMemory
    else
      let s := s.writeMem x.out (s.resultRecord x)
      let s := s.post E.AUDIT_SEALED (some k) [(.wide, x.auditId), (.wide, x.ctr)]
      (s.audEnd k 2 audSealed arOk).audLeave k

/-! ### Close (R412) -/

/-- cmd 3: zeroing starts. -/
def State.audCloseCmd (s : State) (src : Src) (k : Nat) : State :=
  let x := s.audCtx k
  let st := s.audState k
  if 4 ≤ k ∨ s.islandHeld 52 then s
  else if st ≠ audOpen ∧ st ≠ audSealed then s.audRefuse src k 3 arBusy x
  else (s.setAud k { x with src := src }).put R.RG_AUD_STATUS_state [k] audClosing

/-- The region is zeroed and the context is IDLE. -/
def State.audCloseDone (s : State) (k : Nat) : State :=
  let x := s.audCtx k
  if s.audState k ≠ audClosing then s
  else
    let s := (s.zeroMem x.region x.regionLen).post E.AUDIT_CLOSED (some k) [(.wide, x.auditId), (.en, 1)]
    (s.audEnd k 3 audIdle arOk).audForget k

/-- Warm reset closes every context with cause reset (R418). -/
def State.audReset (s : State) : State :=
  foldS (List.range 4) (fun k s =>
    let x := s.audCtx k
    if s.audState k = audIdle then s
    else
      ((s.zeroMem x.region x.regionLen).post E.AUDIT_CLOSED (some k) [(.wide, x.auditId), (.en, 2)]).audForget k) s

/-! ### The guard of R409 -/

/-- A context whose region an access touches, if a guard holds there. -/
def State.audGuard (s : State) (a n : Nat) : Option Nat :=
  (List.range 4).find? (fun k => s.audState k != audIdle && overlaps a n (s.audCtx k).region (s.audCtx k).regionLen)

/-- A master that R409 refuses: 0x20 to 0x28, 0x2A, 0x2B, 0x2D. -/
def guardedMaster (m : Nat) : Bool := decide (0x20 ≤ m ∧ m ≤ 0x28) || m == 0x2A || m == 0x2B || m == 0x2D

/-- The exception of R409: a Quill write into the exchange window of an OPEN context from a chip of party_chips. -/
def State.exchangeOk (s : State) (k chip a n : Nat) : Bool :=
  let x := s.audCtx k
  let ofs := x.region + hdrField x.hdr 48 4
  s.audState k == audOpen && decide (ofs ≤ a ∧ a + n ≤ ofs + hdrField x.hdr 52 4) && chip != s.chipNo
  && (List.range (hdrField x.hdr 6 1)).any (fun i => hdrField x.hdr (36 + 2 * i) 2 % 4096 == chip)

/-- A refused access is counted and posted (R409, R414). -/
def State.audDenied (s : State) (k m a : Nat) : State :=
  (s.bump R.RG_ERR_refused).postLim E.AUDIT_ACCESS_REFUSED 0 (some k) [(.num, m), (.wide, a)]

/-! ### Commands -/

/-- AUDIT_OPEN. -/
def execAuditOpen (src : Src) (k : Nat) (s : State) : Host.Outcome State Fault Refusal := .next (s.audOpenCmd src k)

/-- AUDIT_OPEN_COMPLETE. -/
def execAuditOpenComplete (k : Nat) (err : Bool) (s : State) : Host.Outcome State Fault Refusal :=
  .next (s.audOpenDone k err)

/-- AUDIT_SEAL. -/
def execAuditSeal (src : Src) (k : Nat) (flashOk : Bool) (s : State) : Host.Outcome State Fault Refusal :=
  .next (s.audSealCmd src k flashOk)

/-- AUDIT_SEAL_COMPLETE. -/
def execAuditSealComplete (k : Nat) (err : Bool) (s : State) : Host.Outcome State Fault Refusal :=
  .next (s.audSealDone k err)

/-- AUDIT_CLOSE. -/
def execAuditClose (src : Src) (k : Nat) (s : State) : Host.Outcome State Fault Refusal := .next (s.audCloseCmd src k)

/-- AUDIT_CLOSE_COMPLETE. -/
def execAuditCloseComplete (k : Nat) (s : State) : Host.Outcome State Fault Refusal := .next (s.audCloseDone k)

end Sys2Proof.Machine
end

