-- ==== Sys2Proof/Machine/Pixel.lean ====
section
/-! DEFINITION. The correction chain and the strip layout as functions of lines and a calibration bank (R121 to R126). -/

namespace Sys2Proof.Machine

/-- Both banks at the release of POR_N (R139): gains 0x4000, offsets 0, no defects, two end knots. -/
def CalBank.init : CalBank := { words := Tbl.empty, defCount := 0, defs := Tbl.empty, rsCount := 2, rs := Tbl.empty }

/-- Word `i` of the offset and gain table. -/
def CalBank.word (b : CalBank) (i : Nat) : Nat := b.words.get i 0x40000000

/-- Word `i` of the knots: the second of the two knots of R139 stands at words 2 and 3. -/
def CalBank.rsWord (b : CalBank) (i : Nat) : Nat :=
  b.rs.get i (if i = 2 then 8191 else if i = 3 then 8191 * 256 else 0)

/-- Knot `k`: output column and source position in 1/256 pixel (R124). -/
def CalBank.knot (b : CalBank) (k : Nat) : Nat × Nat := (b.rsWord (2 * k) % 2 ^ 16, b.rsWord (2 * k + 1) % 2 ^ 24)

/-- The knots of the bank. -/
def CalBank.knots (b : CalBank) : List (Nat × Nat) := (List.range b.rsCount).map b.knot

/-- The defect map: column and method (R123). -/
def CalBank.defects (b : CalBank) : List (Nat × Nat) :=
  (List.range b.defCount).map (fun k => (b.defs.get k 0 % 2 ^ 16, bits (b.defs.get k 0) 17 16))

/-- Bytes per pixel of a format on the wire (R119, R144). -/
def fmtBytes (fmt : Nat) : Nat := if fmt = 0 then 1 else if fmt = 3 then 3 else 2

/-- Components of a format. -/
def fmtComps (fmt : Nat) : Nat := if fmt = 3 then 3 else 1

/-- Stage 1: the samples of component `c` of a line (Table 5-3). -/
def unpackComp (fmt c : Nat) : List Byte → List Nat
  | a :: b :: d :: t =>
    if fmt = 0 then a.toNat * 256 :: unpackComp fmt c (b :: d :: t)
    else if fmt = 3 then ([a, b, d].getD c a).toNat * 256 :: unpackComp fmt c t
    else ((a.toNat + b.toNat * 256) * (if fmt = 1 then 64 else 16)) % 65536 :: unpackComp fmt c (d :: t)
  | [a, b] =>
    if fmt = 0 then [a.toNat * 256, b.toNat * 256]
    else if fmt = 3 then [] else [((a.toNat + b.toNat * 256) * (if fmt = 1 then 64 else 16)) % 65536]
  | [a] => if fmt = 0 then [a.toNat * 256] else []
  | [] => []

/-- The table word of column `col` of component `c` (R122). -/
def CalBank.tableWord (b : CalBank) (comps c col : Nat) : Nat := b.word (if comps = 3 then 3 * col + c else col)

/-- Stage 2. -/
def blackLevel (b : CalBank) (comps c : Nat) (l : List Nat) : List Nat :=
  l.mapIdx (fun col v => v - b.tableWord comps c col % 65536)

/-- The nearest unmapped column left of `col`. -/
def unmappedLeft (map : List Nat) : Nat → Option Nat
  | 0 => none
  | n + 1 => if map.contains n then unmappedLeft map n else some n

/-- The nearest unmapped column right of `col` among the `fuel` columns that follow. -/
def unmappedRight (map : List Nat) : Nat → Nat → Option Nat
  | 0, _ => none
  | n + 1, col => if map.contains (col + 1) then unmappedRight map n (col + 1) else some (col + 1)

/-- Stage 3 (R123). A mapped column with no unmapped column on either side keeps its value (log 21). -/
def replaceDefects (b : CalBank) (l : List Nat) : List Nat :=
  let map := b.defects.map (·.1)
  l.mapIdx (fun col v =>
    match b.defects.find? (fun d => d.1 = col) with
    | none => v
    | some d =>
      let lv := (unmappedLeft map col).map (l.getD · 0)
      let rv := (unmappedRight map (l.length - 1 - col) col).map (l.getD · 0)
      match d.2, lv, rv with
      | _, none, none => v
      | _, some a, none => a
      | _, none, some a => a
      | 0, some a, some a' => (a + a' + 1) / 2
      | 1, some a, some _ => a
      | _, some _, some a' => a')

/-- Stage 4. -/
def shading (b : CalBank) (comps c : Nat) (l : List Nat) : List Nat :=
  l.mapIdx (fun col v => min ((v * (b.tableWord comps c col / 65536) + 0x2000) / 2 ^ 14) 0xFFFF)

/-- The source position of output column `x` (R124); outside the knots' span the nearest segment goes on (log 21). -/
def sourcePos (x : Nat) : List (Nat × Nat) → Int
  | [] => 256 * (x : Int)
  | [(x0, s0)] => (s0 : Int) + 256 * ((x : Int) - (x0 : Int))
  | (x0, s0) :: (x1, s1) :: t =>
    if x ≤ x1 ∨ t.isEmpty then
      (((s0 : Int) * ((x1 : Int) - x0) + ((s1 : Int) - s0) * ((x : Int) - x0)) / ((x1 : Int) - x0))
    else sourcePos x ((x1, s1) :: t)

/-- A sample of a line, the nearest edge column outside it (R124). -/
def sampleAt (l : List Nat) (i : Int) : Nat :=
  if i < 0 then l.headD 0 else if (l.length : Int) ≤ i then l.getD (l.length - 1) 0 else l.getD i.toNat 0

/-- Stage 5 (R124); with rs_en 0 the output is the first out_width columns of the input (log 21). -/
def resample (b : CalBank) (rsEn : Bool) (outWidth : Nat) (l : List Nat) : List Nat :=
  if rsEn then
    (List.range outWidth).map (fun x =>
      let p := sourcePos x b.knots
      let i := p / 256
      let f := (p - 256 * i).toNat
      (sampleAt l i * (256 - f) + sampleAt l (i + 1) * f + 128) / 256)
  else l.take outWidth

/-- Stages 1 to 5 of one component of a line. -/
def correctLine (b : CalBank) (fmt : Nat) (rsEn : Bool) (outWidth c : Nat) (bytes : List Byte) : List Nat :=
  let n := fmtComps fmt
  resample b rsEn outWidth (shading b n c (replaceDefects b (blackLevel b n c (unpackComp fmt c bytes))))

/-- The mean of column pairs of two lines, rounded half up; the last column of an odd width averages the two samples
that exist (log 21). -/
def halveLines : List Nat → List Nat → List Nat
  | a :: b :: t, c :: d :: u => (a + b + c + d + 2) / 4 :: halveLines t u
  | [a], [c] => [(a + c + 1) / 2]
  | _, _ => []

/-- Stage 6: the next pyramid level (Table 5-3). -/
def halveLevel : List (List Nat) → List (List Nat)
  | a :: b :: t => halveLines a b :: halveLevel t
  | _ => []

/-- Level `n` of a pyramid. -/
def level : Nat → List (List Nat) → List (List Nat)
  | 0, l => l
  | n + 1, l => level n (halveLevel l)

/-- bf16 of v / 65,536, rounded to nearest even (R125). -/
def bf16Frac (v : Nat) : Nat :=
  if v = 0 then 0
  else
    let e := Nat.log2 v
    let m := if 7 ≤ e then
        (let r := e - 7
         let q := v >>> r
         let rem := v % 2 ^ r
         if 2 * rem > 2 ^ r ∨ (2 * rem = 2 ^ r ∧ r ≠ 0 ∧ q % 2 = 1) then q + 1 else q)
      else v <<< (7 - e)
    (e + 111) * 128 + (m - 128)

/-- One sample in out_fmt (R125). -/
def outSample (fmt v : Nat) : List Byte :=
  if fmt = 0 then [BitVec.ofNat 8 (min ((v + 0x80) / 256) 255)]
  else if fmt = 1 then leBytes 2 v else leBytes 2 (bf16Frac v)

/-- Bytes of one sample in out_fmt. -/
def outSampleBytes (fmt : Nat) : Nat := if fmt = 0 then 1 else 2

/-- Row `t` of a tile: 32 samples, 0 beyond the line. -/
def tileRow (fmt t : Nat) (l : List Nat) : List Byte :=
  (List.range 32).flatMap (fun k => outSample fmt (l.getD (32 * t + k) 0))

/-- All tiles of one level of one component, in order of column (R125). -/
def levelTiles (fmt w : Nat) (lines : List (List Nat)) : List Byte :=
  (List.range ((w + 31) / 32)).flatMap (fun t => lines.flatMap (tileRow fmt t))

/-- The width of level `lv` (R125). -/
def levelWidth (outWidth lv : Nat) : Nat := (outWidth + 2 ^ lv - 1) / 2 ^ lv

/-- The tiles of a strip: levels from 0 upward, each with its components in order (R125). -/
def stripTiles (outFmt outWidth levels : Nat) (comps : List (List (List Nat))) : List Byte :=
  ((List.range 5).filter (fun lv => levels.testBit lv)).flatMap (fun lv =>
    comps.flatMap (fun lines => levelTiles outFmt (levelWidth outWidth lv) (level lv lines)))

/-- The bytes of the tiles of a strip. -/
def tileBytes (outFmt outWidth levels comps : Nat) : Nat :=
  ((List.range 5).filter (fun lv => levels.testBit lv)).foldl (fun a lv =>
    a + comps * ((levelWidth outWidth lv + 31) / 32) * 32 * (16 / 2 ^ lv) * outSampleBytes outFmt) 0

/-- The smallest ring_stride, in units of 256 bytes (R127). -/
def minStride (outFmt outWidth levels comps : Nat) : Nat := (64 + tileBytes outFmt outWidth levels comps + 255) / 256

/-- A count sign-extended from 48 to 64 bits (Table 5-4). -/
def signExt48 (c : Nat) : Nat := wrapInt 64 (signedOf 48 c)

/-- The bytes of a bank in the order its CRC-32 covers them: words, defect count and entries, knot count and knots
(log 21). -/
def CalBank.bytes (b : CalBank) : List Byte :=
  (List.range 32768).flatMap (fun i => leBytes 4 (b.word i)) ++ leBytes 4 b.defCount
    ++ (List.range b.defCount).flatMap (fun i => leBytes 4 (b.defs.get i 0)) ++ leBytes 4 b.rsCount
    ++ (List.range (2 * b.rsCount)).flatMap (fun i => leBytes 4 (b.rsWord i))

/-- The place of the first defect entry that fails R128: out of order, or of method 3. -/
def badDefect : Nat → List (Nat × Nat) → Option Nat
  | _, [] => none
  | k, (c, m) :: t =>
    if m = 3 then some k
    else match t with
      | (c', _) :: _ => if c' ≤ c then some (k + 1) else badDefect (k + 1) t
      | [] => none

/-- The place of the first knot that does not rise. -/
def badKnot : Nat → List (Nat × Nat) → Option Nat
  | k, (c, _) :: (c', s') :: t => if c' ≤ c then some (k + 1) else badKnot (k + 1) ((c', s') :: t)
  | _, _ => none

/-- Why a bank fails the check of R128: item (1 defect map, 2 knots) and index. -/
def CalBank.check (b : CalBank) (outWidth : Nat) : Option (Nat × Nat) :=
  match badDefect 0 b.defects with
  | some k => some (1, k)
  | none =>
    if b.rsCount < 2 then some (2, b.rsCount)
    else match badKnot 0 b.knots with
      | some k => some (2, k)
      | none =>
        if (b.knot 0).1 ≠ 0 then some (2, 0)
        else if (b.knot (b.rsCount - 1)).1 + 1 ≠ outWidth then some (2, b.rsCount - 1) else none

end Sys2Proof.Machine
end

