-- ==== Sys2Proof/Machine/Camera.lean ====
section
/-! DEFINITION. Camera ingress and the pixel pipelines (chapter 5). -/

namespace Sys2Proof.Machine

/-- A pipeline at the release of POR_N (R139). -/
def Pipe.init : Pipe :=
  { bank0 := CalBank.init, bank1 := CalBank.init, swap := false, delivered := 0, wasUp := false, buf := [], nextTag := none, skews := [],
    img := none, cur := none, gap := false, slots := [], lost := false, resumed := false, prev := none, seq := 0,
    out := [], lastAcc := none, stallAt := 0, period := none, busy := 0, used := [], told := none, upOn := false, upRate := 20833,
    uplink := [] }

/-- Pipeline `p`. -/
def State.pipe (s : State) (p : Nat) : Pipe := s.pipes.get p Pipe.init

/-- Give pipeline `p`. -/
def State.setPipe (s : State) (p : Nat) (x : Pipe) : State := { s with pipes := s.pipes.set p x }

/-- A tuning lane before anything ran on it: the threshold starts at 32 (R450), the code at eq_lo's reset (log 22). -/
def TuneLane.init : TuneLane :=
  { reqs := [], fails := 0, stopped := false, retry := none, code := 0, thr := 32, down := false, thrTurn := false, trial := none,
    next := 0 }

/-- Put an access on a lane's PHY tuning interface (Table 2-7). -/
def State.phySend (s : State) (lane : Nat) (r : PhyReq) : State :=
  let t := s.tune.get lane TuneLane.init
  { s with tune := s.tune.set lane { t with reqs := t.reqs ++ [r] } }

/-- The number of connections that CX_CAM_CTL.conns codes. -/
def connCount (code : Nat) : Nat := 2 ^ code

/-- The lanes of camera `p` from a CX_CAM_CTL word: base and number (R117). -/
def camLanes (w : Nat) : Nat × Nat := (bits w 8 3, connCount (bits w 2 1))

/-- A decoder channel with en set drives pipeline `p` (R147). -/
def State.decBound (s : State) (p : Nat) : Option Nat :=
  (List.range 4).find? (fun c => s.flag R.PP_DEC_CTL_en [c] && s.get R.PP_DEC_CTL_pipe [c] == p)

/-- Pipeline `p` is enabled. -/
def State.pipeOn (s : State) (p : Nat) : Bool :=
  decide (p < s.cfg.camPipes) && s.flag R.CX_CAM_CTL_en [p] && !s.heldIsl.contains (32 + p / 4)

/-- The enabled camera that a lane belongs to, its lanes not being ignored nor its island held (R49, R117, R139, R147). -/
def State.laneCam (s : State) (lane : Nat) : Option Nat :=
  (List.range s.cfg.camPipes).find? (fun p =>
    let b := camLanes (s.regWord R.CX_CAM_CTL [p])
    s.pipeOn p && decide (b.1 ≤ lane ∧ lane < b.1 + b.2) && (s.decBound p).isNone)

/-- The control rings of camera `p` work: it exists, its island runs, and no decoder drives its pipeline. They work before
en is set (R139). -/
def State.ctrlOn (s : State) (p : Nat) : Bool :=
  decide (p < s.cfg.camPipes) && !s.heldIsl.contains (32 + p / 4) && (s.decBound p).isNone

/-- The camera that a control packet on a lane is for: the enabled one, or else the first one whose uplink is on and whose
master connection the lane is (R129, R139, log 91). -/
def State.ctrlCam (s : State) (lane : Nat) : Option Nat :=
  match s.laneCam lane with
  | some p => some p
  | none => (List.range s.cfg.camPipes).find? (fun p =>
      s.ctrlOn p && (s.pipe p).upOn && s.get R.CX_CAM_CTL_base_lane [p] == lane)

/-! ### Stamps (R120) -/

/-- The stamp TT of a line whose marker enters now. -/
def State.stampTt (s : State) (p : Nat) : Nat := (s.tt + 2 ^ 64 - s.get R.PP_STAMP_stamp_ofs_ns [p]) % 2 ^ 64

/-- The stamp count at `t`; none without a channel. -/
def State.stampCnt (s : State) (p t : Nat) : Option Nat :=
  let ch := s.get R.PP_CTL_pos_ch [p]
  if ch = 15 then none
  else some (if s.get R.PP_STAMP_stamp_ofs_ns [p] = 0 then (s.ch ch).cntAt t else (s.ch ch).estWhole t)

/-! ### Strips (R125 to R127, R132) -/

/-- The stamps of the accepted lines of a strip: slot, TT, count. -/
def acceptedSlots (l : List Slot) : List (Nat × Nat × Nat) :=
  ((l.mapIdx (fun i x => (i, x))).filter (fun x => !x.2.replaced)).map (fun x => (x.1, x.2.tt, x.2.cnt.getD 0))

/-- The distance in TT and count between the outermost accepted lines, and in slots, for a strip that has two. -/
def slotsPeriod (l : List Slot) : Option (Int × Int × Nat) :=
  match acceptedSlots l with
  | a :: b :: t =>
    let z := (b :: t).getLastD b
    some ((z.2.1 : Int) - a.2.1, cntDiff z.2.2 a.2.2, z.1 - a.1)
  | _ => none

/-- The stamp of slot `k`: its own, or extrapolated from the nearest accepted line at the mean line period (Table 5-4).
A strip with one accepted line takes the mean of the last strip that had two (log 23); with none to take, the period
is a free value. -/
def slotStamp (slots : List Slot) (per : Int × Int × Nat) (now : Nat × Nat) (k : Nat) : Nat × Nat :=
  let acc := acceptedSlots slots
  let near := if k = 0 then acc.head? else acc.getLast?
  match near with
  | none => now
  | some (i, t, c) =>
    let d : Int := (k : Int) - (i : Int)
    (wrapInt 64 ((t : Int) + roundDivInt (per.1 * d) per.2.2), cntAdd c (roundDivInt (per.2.1 * d) per.2.2))

/-- The replaced mask of a strip. -/
def replacedMask (l : List Slot) : Nat := (l.mapIdx (fun i x => b2n x.replaced * 2 ^ i)).foldl (· + ·) 0

/-- PP_PROD: the oldest strip whose writes are unacknowledged, or the strip being filled (log 24). -/
def State.showProd (s : State) (p : Nat) : State :=
  let x := s.pipe p
  s.put R.PP_PROD_seq [p] (match x.out with
    | o :: _ => o.strip.seq
    | [] => x.seq)

/-- The mean line period of a strip, or the free period of a pipeline that never had two accepted lines. -/
def State.stripPeriod (s : State) (x : Pipe) : (Int × Int × Nat) × State :=
  match slotsPeriod x.slots with
  | some q => (q, s)
  | none => match x.period with
    | some q => (q, s)
    | none =>
      let a := s.draw 32
      let b := a.2.draw 32
      (((a.1 : Int), signedOf 32 b.1, 1), b.2)

/-- The strip header (Table 5-4). -/
def stripHeader (seq pipe flags replaced : Nat) (first last : Nat × Nat) (outWidth levels outFmt posCh : Nat) : List Byte :=
  leBytes 4 seq ++ leBytes 1 pipe ++ leBytes 1 flags ++ leBytes 2 replaced ++ leBytes 8 first.1 ++ leBytes 8 first.2
    ++ leBytes 8 last.1 ++ leBytes 8 last.2 ++ leBytes 2 outWidth ++ leBytes 1 levels ++ leBytes 1 outFmt
    ++ leBytes 1 posCh ++ leBytes 19 0

/-- The batch builder has released strip `q` of pipeline `p`: PP_CONS has passed it (R127). -/
def State.released (s : State) (p q : Nat) : Bool :=
  decide ((s.get R.PP_CONS_seq [p] + 2 ^ 32 - q - 1) % 2 ^ 32 < 2 ^ 31)

/-- Complete a strip of 16 slots (R125 to R127): the corrected tiles and the header go to buffer seq mod ring_len. -/
def State.emitStrip (s : State) (p : Nat) : State :=
  let x := s.pipe p
  let nextSeq := (x.seq + 1) % 2 ^ 32
  if x.lost then
    let s := (s.setPipe p { x with slots := [], lost := false, resumed := false, seq := nextSeq }).showProd p
    let mask := replacedMask x.slots
    if mask = 0 then s else s.postLim E.PP_LINE_REPLACED 0 (some p) [(.val, x.seq), (.val, mask)]
  else
    let fmt := s.get R.PP_CTL_fmt [p]
    let outW := s.get R.PP_STAMP_out_width [p]
    let levels := s.get R.PP_CTL_levels [p]
    let outFmt := s.get R.PP_CTL_out_fmt [p]
    let posCh := s.get R.PP_CTL_pos_ch [p]
    let active := s.get R.PP_CAL_SWAP_active [p]
    let bank := if active = 0 then x.bank0 else x.bank1
    let comps := (List.range (fmtComps fmt)).map (fun c =>
      x.slots.map (fun sl => correctLine bank fmt (s.flag R.PP_CTL_rs_en [p]) outW c sl.bytes))
    let tiles := stripTiles outFmt outW levels comps
    -- some accepted line has no count; with every line replaced, no channel gives one (R126, R148)
    let noPos := x.slots.any (fun sl => !sl.replaced && sl.cnt.isNone) || (x.slots.all (·.replaced) && posCh == 15)
    let per := s.stripPeriod x
    let s := per.2
    let now := (s.tt, (s.ch posCh).cnt)
    let first := slotStamp x.slots per.1 now 0
    let last := slotStamp x.slots per.1 now 15
    -- where no count is taken, the header's counts are free values
    let fc := if noPos then s.draw 64 else (signExt48 first.2, s)
    let s := fc.2
    let lc := if noPos then s.draw 64 else (signExt48 last.2, s)
    let s := lc.2
    let mask := replacedMask x.slots
    let flags := b2n noPos + 2 * b2n x.resumed + 4 * b2n (fmt == 3) + 8 * active
    let head := stripHeader x.seq p flags mask (first.1, fc.1) (last.1, lc.1) outW levels outFmt posCh
    let addr := hoardBase + s.get R.PP_RING_ring_base [p]
      + (x.seq % s.get R.PP_RING_CFG_ring_len [p]) * (s.get R.PP_RING_CFG_ring_stride [p] * 256)
    let lost := match x.told with
      | some q => (x.seq + 2 ^ 32 - q - 1) % 2 ^ 32
      | none => 0
    let st : StripIn := { pipe := p, seq := x.seq, addr := addr, ttFirst := first.1, ttLast := last.1,
                          cntFirst := fc.1, cntLast := lc.1, replaced := mask, lost := lost, resumed := x.resumed,
                          prodTt := 0 }
    let s := s.setPipe p { x with slots := [], resumed := false, seq := nextSeq,
                                  period := match slotsPeriod x.slots with
                                    | some q => some q
                                    | none => x.period,
                                  used := x.seq :: x.used.filter (fun q => !s.released p q),
                                  out := x.out ++ [{ bytes := head ++ tiles, strip := st }], told := some x.seq }
    let s := s.showProd p
    if mask = 0 then s else s.postLim E.PP_LINE_REPLACED 0 (some p) [(.val, x.seq), (.val, mask)]

/-- The buffer of the strip about to start is unreleased (R132): a strip was written to it that PP_CONS has not passed. A lost
strip holds no buffer. -/
def State.ringFull (s : State) (p : Nat) : Bool :=
  let x := s.pipe p
  let len := s.get R.PP_RING_CFG_ring_len [p]
  x.used.any (fun q => q % len == x.seq % len && !s.released p q)

/-- Line slot 0 of a strip enters stage 7: a checked bank becomes active (R128), and an unreleased buffer loses the
strip (R132). -/
def State.startStrip (s : State) (p : Nat) : State :=
  let x := s.pipe p
  let s := if x.swap then
      (s.setPipe p { x with swap := false }).put R.PP_CAL_SWAP_active [p] (1 - s.get R.PP_CAL_SWAP_active [p])
    else s
  if s.ringFull p then
    let x := s.pipe p
    let s := (s.setPipe p { x with lost := true }).bump R.PP_ERR_lost [p]
    (s.pcCount (pcPipeBank p) 4 0x04).postLim E.PP_STRIP_LOST 1 (some p) [(.val, x.seq), (.en, 1)]
  else s

/-- Fill the next line slot. -/
def State.fillSlot (s : State) (p : Nat) (sl : Slot) : State :=
  let s := if (s.pipe p).slots.isEmpty then s.startStrip p else s
  let x := s.pipe p
  let s := s.setPipe p { x with slots := x.slots ++ [sl] }
  if x.slots.length + 1 = 16 then s.emitStrip p else s

/-- A missing or damaged line takes its slot (*Faults* of chapter 5): the bytes given, or the previous accepted line,
or zeros. A stalled pipeline emits no strips (R137). -/
def State.replaceLine (s : State) (p : Nat) (bytes : Option (List Byte) := none) : State :=
  if s.flag R.CX_CAM_STATUS_stalled [p] then s
  else
    let x := s.pipe p
    let zeros := List.replicate (s.get R.PP_CTL_width [p] * fmtBytes (s.get R.PP_CTL_fmt [p])) (0 : Byte)
    let fill := match bytes with
      | some b => b
      | none => if s.flag R.PP_CTL_fill_prev [p] then x.prev.getD zeros else zeros
    let s := (s.bump R.PP_ERR_replaced [p]).pcCount (pcPipeBank p) 4 0x02
    let hasCnt := s.get R.PP_CTL_pos_ch [p] != 15
    s.fillSlot p { bytes := fill, tt := 0, cnt := if hasCnt then some 0 else none, replaced := true }

/-- Several lines are replaced. -/
def State.replaceLines : Nat → Nat → State → State
  | 0, _, s => s
  | n + 1, p, s => State.replaceLines n p (s.replaceLine p)

/-- Complete the partial strip with replaced lines (R137, R150). -/
def State.closeStrip (s : State) (p : Nat) : State :=
  let n := (s.pipe p).slots.length
  if n = 0 then s else State.replaceLines (16 - n) p s

/-- A line passes every check (R119): it ends a stall, takes its slot, and occupies the pipeline (R132). -/
def State.acceptLine (s : State) (p : Nat) (bytes : List Byte) (tt : Nat) (cnt : Option Nat) : State :=
  let stalled := s.flag R.CX_CAM_STATUS_stalled [p]
  let x := s.pipe p
  let s := if stalled then
      ((s.put R.CX_CAM_STATUS_stalled [p] 0).setPipe p { x with resumed := true }).postLim E.PP_RESUMED 0 (some p)
        [(.val, (s.up - x.stallAt) / 1000)]
    else s
  let s := s.pcCount (pcPipeBank p) 4 0x01
  let x := s.pipe p
  let s := s.setPipe p { x with prev := some bytes, lastAcc := some s.up }
  s.fillSlot p { bytes := bytes, tt := tt, cnt := cnt, replaced := false }

/-! ### Line intake (R119, R132, R135) -/

/-- A line occupies the pipeline from now on, at 2.4 pixels or output columns per ns, whichever are more (R132, Table 5-7). -/
def State.occupy (s : State) (p : Nat) : State :=
  let px := max (s.get R.PP_CTL_width [p]) (s.get R.PP_STAMP_out_width [p])
  s.setPipe p { s.pipe p with busy := s.up + (px * 5 + 11) / 12 }

/-- A line beyond the pipeline rate is replaced (R132). PP_STRIP_LOST, the one event with a cause overrate, names the strip;
the strip is not lost (log 91). -/
def State.overrateLine (s : State) (p : Nat) : State :=
  (s.replaceLine p).postLim E.PP_STRIP_LOST 2 (some p) [(.val, (s.pipe p).seq), (.en, 2)]

/-- The width and format of the header in force are those of PP_CTL. -/
def State.headerFits (s : State) (p : Nat) (h : ImgHdr) : Bool :=
  h.fmt == s.get R.PP_CTL_fmt [p] && h.width == s.get R.PP_CTL_width [p]

/-- The line in progress ends: accepted, or replaced in its own slot. -/
def State.finishLine (s : State) (p : Nat) : State :=
  let x := s.pipe p
  match x.cur with
  | none => s
  | some l =>
    let s := s.setPipe p { x with cur := none }
    let ok := match x.img with
      | some h => s.headerFits p h && l.bytes.length == h.width * fmtBytes h.fmt && !l.damaged
      | none => false
    if !ok then s.replaceLine p
    else if s.up < x.busy then s.overrateLine p
    else (s.occupy p).acceptLine p l.bytes l.tt l.cnt

/-- One more line of the image has been seen. -/
def Pipe.sawLine (x : Pipe) : Pipe := { x with img := x.img.map (fun h => { h with seen := h.seen + 1 }) }

/-- One item of the merged stream. -/
def State.cxpItem (s : State) (p : Nat) (it : CxpItem) : State :=
  match it with
  | .header f w h =>
    let s := s.finishLine p
    let x := s.pipe p
    let s := match x.img with
      | some i => State.replaceLines (i.height - i.seen) p s
      | none => s
    let i : ImgHdr := { fmt := f, width := w, height := h, seen := 0 }
    let s := s.setPipe p { s.pipe p with img := some i, gap := false }
    if s.headerFits p i then s else s.postLim E.CX_FORMAT_MISMATCH 0 (some p) [(.en, f + 1), (.val, w)]
  | .unsupported =>
    let s := s.finishLine p
    let s := s.setPipe p { s.pipe p with img := none, gap := false }
    s.postLim E.CX_PACKET_DISCARDED 1 (some p) [(.en, 1)]
  | .marker =>
    let s := s.finishLine p
    let x := s.pipe p
    match x.img with
    | none => s
    | some _ =>
      let tt := s.stampTt p
      s.setPipe p { x.sawLine with cur := some { bytes := [], tt := tt, cnt := s.stampCnt p tt, damaged := false },
                                   gap := false }
  | .data b =>
    let x := s.pipe p
    match x.img, x.cur with
    | none, _ => s
    | some _, some l => s.setPipe p { x with cur := some { l with bytes := l.bytes ++ b } }
    | some _, none =>
      -- the tail of a line whose marker was lost; data beyond a complete line is cut off (R135)
      if x.gap then
        s.setPipe p { x.sawLine with cur := some { bytes := b, tt := s.stampTt p, cnt := none, damaged := true } }
      else s

/-- A line whose data is complete at the end of its packet ends there (log 25). -/
def State.packetEnd (s : State) (p : Nat) : State :=
  let x := s.pipe p
  match x.img, x.cur with
  | some h, some l => if !l.damaged && decide (h.width * fmtBytes h.fmt ≤ l.bytes.length) then s.finishLine p else s
  | _, _ => s

/-- A tag is missing: the line in progress is damaged (R119). -/
def Pipe.tagGap (x : Pipe) : Pipe := { x with cur := x.cur.map (fun l => { l with damaged := true }), gap := true }

/-- The distance from the expected tag, modulo 256 (R118). -/
def tagDist (want tag : Nat) : Nat := (tag + 256 - want) % 256

/-- Tag `b` follows tag `a` within half the range. -/
def tagAfter (a b : Nat) : Bool := decide (1 ≤ tagDist a b ∧ tagDist a b < 128)

/-- The buffered packet to take next: the one with the expected tag, or, once every member has a packet waiting, so
that the expected one was lost, the nearest after it. A group that has just come up begins with the lowest of the tags waiting
once every member has one (R118, log 26). -/
def nextPacket (want : Option Nat) (members : Nat) (buf : List Deskewed) : Option (Deskewed × Bool) :=
  match buf with
  | [] => none
  | b0 :: _ =>
    let all := decide (members ≤ (buf.map (·.lane)).eraseDups.length)
    match want with
    | some w => match buf.find? (fun d => d.tag = w) with
      | some d => some (d, false)
      | none => if all then some (buf.foldl (fun a d => if tagDist w d.tag < tagDist w a.tag then d else a) b0, true) else none
    | none => if all then some (buf.foldl (fun a d => if tagAfter d.tag a.tag then d else a) b0, false) else none

/-- Take every packet of the deskew buffers that is due, in tag order. -/
def State.drainDeskew : Nat → Nat → Nat → State → State
  | 0, _, _, s => s
  | n + 1, p, members, s =>
    let x := s.pipe p
    match nextPacket x.nextTag members x.buf with
    | none => s
    | some (d, gap) =>
      let x := { x with buf := x.buf.erase d, nextTag := some ((d.tag + 1) % 256) }
      let s := s.setPipe p (if gap then x.tagGap else x)
      State.drainDeskew n p members ((foldS d.items (fun it s => s.cxpItem p it) s).packetEnd p)

/-- The group goes down (R136): lines in transit are damaged, and intake waits for the next image header. -/
def State.groupDown (s : State) (p : Nat) : State :=
  let s := match (s.pipe p).cur with
    | some l => (s.setPipe p { s.pipe p with cur := some { l with damaged := true } }).finishLine p
    | none => s
  let x := s.pipe p
  (s.setPipe p { x with delivered := 0, buf := [], nextTag := none, img := none, cur := none, gap := false }).put
    R.CX_CAM_STATUS_group_up [p] 0

/-- The largest skew over the last millisecond. -/
def State.showSkew (s : State) (p : Nat) : State :=
  let x := s.pipe p
  let l := x.skews.filter (fun k => decide (s.up ≤ k.1 + 1000000))
  (s.setPipe p { x with skews := l }).put R.CX_CAM_STATUS_skew [p] (satTo 65535 (l.foldl (fun a k => max a k.2) 0))

/-- The skew that a packet shows: the longest that a later packet of another member has waited (R118, R136). -/
def arrivalSkew (now lane tag : Nat) (buf : List Deskewed) : Nat :=
  (buf.filter (fun d => d.lane != lane && tagAfter tag d.tag)).foldl (fun a d => max a (now - d.came)) 0

/-- A good stream packet of the accepted stream on a member lane (R118, R136). -/
def State.streamPacket (s : State) (p lane tag : Nat) (items : List CxpItem) : State :=
  let b := camLanes (s.regWord R.CX_CAM_CTL [p])
  let all := 2 ^ b.2 - 1
  let x := s.pipe p
  let skew := arrivalSkew s.up lane tag x.buf
  let s := (s.setPipe p { x with skews := (s.up, skew) :: x.skews,
                                 delivered := x.delivered ||| 2 ^ (lane - b.1) }).showSkew p
  if 10000 < skew ∧ s.flag R.CX_CAM_STATUS_group_up [p] then
    (s.groupDown p).postLim E.CX_SKEW_EXCEEDED 0 (some p) [(.ix, lane), (.val, skew)]
  else
    let x := s.pipe p
    let s := s.setPipe p { x with buf := x.buf ++ [{ lane := lane, tag := tag, came := s.up, items := items }] }
    let up := s.flag R.CX_CAM_STATUS_group_up [p]
    let whole := s.get R.CX_CAM_STATUS_lock [p] == all && (s.pipe p).delivered == all
    let s := if !up && whole then
        ((s.setPipe p { s.pipe p with wasUp := true }).put R.CX_CAM_STATUS_group_up [p] 1).postLim E.CX_GROUP_UP 0 (some p) [(.num, b.2)]
      else s
    if up || whole then State.drainDeskew ((s.pipe p).buf.length) p b.2 s else s

/-- CXP_STREAM_PACKET. -/
def execCxpStreamPacket (lane tag stream : Nat) (crcOk : Bool) (items : List CxpItem) (s : State) :
    Host.Outcome State Fault Refusal :=
  .next (match s.laneCam lane with
    | none => s
    | some p =>
      let base := (camLanes (s.regWord R.CX_CAM_CTL [p])).1
      let s := (s.laneReady lane).put R.CX_CAM_STATUS_lock [p] (s.get R.CX_CAM_STATUS_lock [p] ||| 2 ^ (lane - base))
      if !crcOk then s.postLim E.CX_CRC_ERROR 0 (some p) [(.ix, lane), (.en, 1)]
      else if stream ≠ s.get R.CX_CAM_CTL_stream_id [p] then
        s.postLim E.CX_PACKET_DISCARDED 2 (some p) [(.en, 2), (.num, stream)]
      else s.streamPacket p lane (tag % 256) items)

/-- CXP_LANE_LOCK_LOSS (R136). -/
def execCxpLaneLockLoss (lane : Nat) (s : State) : Host.Outcome State Fault Refusal :=
  .next (match s.laneCam lane with
    | none => s
    | some p =>
      let m := lane - (camLanes (s.regWord R.CX_CAM_CTL [p])).1
      if bit (s.get R.CX_CAM_STATUS_lock [p]) m then
        let s := s.put R.CX_CAM_STATUS_lock [p] (s.get R.CX_CAM_STATUS_lock [p] - 2 ^ m)
        let s := s.groupDown p
        s.postLim E.CX_LANE_DOWN 0 (some p) [(.ix, lane)]
      else s)

/-- How CX_PACKET_DISCARDED numbers the packets that are never taken in: unsupported header 1, other stream 2,
trigger 3, GPIO 4, over-long control packet 5 (log 27). -/
def discardKind : CxpCtrl → Nat
  | .trigger => 3
  | .gpio => 4
  | _ => 5

/-- CXP_CONTROL_PACKET_RX (R129, R138): a control packet of the master connection goes to the receive ring. -/
def execCxpControlPacketRx (lane : Nat) (kind : CxpCtrl) (ptype : Nat) (crcOk : Bool) (bytes : List Byte) (s : State) :
    Host.Outcome State Fault Refusal :=
  .next (match s.ctrlCam lane with
    | none => s
    | some p =>
      if !crcOk then s.postLim E.CX_CRC_ERROR 0 (some p) [(.ix, lane), (.en, 2)]
      else if kind = .trigger ∨ kind = .gpio ∨ 1020 < bytes.length ∨
          lane ≠ (camLanes (s.regWord R.CX_CAM_CTL [p])).1 then
        s.postLim E.CX_PACKET_DISCARDED (discardKind kind) (some p) [(.en, discardKind kind)]
      else
        let prod := s.get R.CX_CTRL_IDX_rx_prod [p]
        if (prod + 1) % 256 = s.get R.CX_CTRL_IDX_rx_cons [p] then s.postLim E.CX_CTRL_RX_FULL 0 (some p) []
        else
          let a := hoardBase + s.get R.CX_CTRL_RX_base [p] + 1024 * prod
          let s := s.writeMem a (leBytes 2 bytes.length ++ leBytes 1 p ++ leBytes 1 ptype ++ bytes)
          s.put R.CX_CTRL_IDX_rx_prod [p] ((prod + 1) % 256))

/-- CX_CTRL_TX_SEND (R129): the next transmit entry goes out on the uplink as given; the first one enables the uplink. -/
def execCxCtrlTxSend (cam : Nat) (s : State) : Host.Outcome State Fault Refusal :=
  let cons := s.get R.CX_CTRL_IDX_tx_cons [cam]
  .next (
    if s.ctrlOn cam && cons != s.get R.CX_CTRL_IDX_tx_prod [cam] then
      let a := hoardBase + s.get R.CX_CTRL_TX_base [cam] + 1024 * cons
      let n := min (s.readLe a 2) 1020
      (s.setPipe cam { s.pipe cam with upOn := true, uplink := s.readMem (a + 4) n }).put R.CX_CTRL_IDX_tx_cons [cam] ((cons + 1) % 256)
    else s)

/-! ### Strips produced (R127, R266, R269) -/

/-- A recipe slot is told of a produced strip: it waits for a step, or is released at once by a stopped recipe. -/
def State.tellSlot (s : State) (n : Nat) (st : StripIn) : State :=
  match s.rcp.get? n with
  | none => s
  | some r => match r.recipe with
    | none => s
    | some d =>
      if !bit d.pipes st.pipe then s
      else if s.flag R.DS_RCP_CTL_run [n] || !r.parts.isEmpty then
        { s with rcp := s.rcp.set n { r with strips := r.strips ++ [{ st with prodTt := s.tt }] } }
      else s.put R.PP_CONS_seq [st.pipe] ((st.seq + 1) % 2 ^ 32)

/-- STRIP_WRITES_ACKNOWLEDGED (R127): the oldest strip's bytes have landed; PP_PROD advances and the batch builder is
told. -/
def execStripWritesAcknowledged (p : Nat) (s : State) : Host.Outcome State Fault Refusal :=
  let x := s.pipe p
  .next (match x.out with
    | [] => s
    | o :: rest =>
      let s := s.writeMem o.strip.addr o.bytes
      let s := (s.setPipe p { x with out := rest }).showProd p
      let s := s.pcCount (pcPipeBank p) 4 0x03
      foldS (List.range 16) (fun n s => s.tellSlot n o.strip) s)

/-- PIPELINE_STALL_TIMEOUT (R137): no line has been accepted for stall_us, since the last one or since en was set. -/
def execPipelineStallTimeout (p : Nat) (s : State) : Host.Outcome State Fault Refusal :=
  let x := s.pipe p
  let free := match s.decBound p with
    | some c => !s.flag R.PP_DEC_CTL_pace [c]
    | none => false
  .next (match x.lastAcc with
    | none => s
    | some t =>
      if s.pipeOn p && !s.flag R.CX_CAM_STATUS_stalled [p] && !free
          && decide (t + s.get R.PP_STALL_stall_us [p] * 1000 ≤ s.up) then
        let s := s.closeStrip p
        let x := s.pipe p
        let s := (s.setPipe p { x with stallAt := s.up }).put R.CX_CAM_STATUS_stalled [p] 1
        s.postLim E.PP_STALL 0 (some p) [(.val, (x.seq + 2 ^ 32 - 1) % 2 ^ 32)]
      else s)

/-- A write to PP_CAL_SWAP (R128). -/
def State.calSwap (s : State) (src : Src) (p v : Nat) : State :=
  let x := s.pipe p
  let shadow := 1 - s.get R.PP_CAL_SWAP_active [p]
  let b := if shadow = 0 then x.bank0 else x.bank1
  let off := R.PP_CAL_SWAP.addr [p]
      if decide (s.cfg.camPipes ≤ p) then s
    else if s.hostShut src then s.hostAbandon
    else if s.regHeld off || !bit v 0 then s
    else match b.check (s.get R.PP_STAMP_out_width [p]) with
      | some (item, ix) =>
        (s.jrnEntry (srcNum src) 2 causeBlock off 0 v true).postLim E.PP_TABLE_REFUSED item (some p)
          [(.en, item), (.num, ix)]
      | none =>
        let crc := crc32 b.bytes
        let s := (s.setPipe p { x with swap := true }).jrnEntry (srcNum src) 0 0 off 0 v true crc
        s.postLim E.PP_BANK_SWAPPED 0 (some p) [(.en, shadow), (.val, crc)]

/-- CAL_BANK_SWAP (R128): a write of PP_CAL_SWAP. -/
def execCalBankSwap (src : Src) (p v : Nat) (s : State) : Host.Outcome State Fault Refusal :=
  .next (s.calSwap src p v)

/-! ### Configuration (R117, R130, R134) -/

/-- Lanes `a` and `b` (base and number) meet. -/
def lanesMeet (a b : Nat × Nat) : Bool := decide (a.1 < b.1 + b.2 ∧ b.1 < a.1 + a.2)

/-- R117 for camera `p` with CX_CAM_CTL word `w`. -/
def State.lanesOk (s : State) (p w : Nat) : Bool :=
  let b := camLanes w
  decide (b.1 % b.2 = 0 ∧ b.1 + b.2 ≤ s.cfg.cxpLanes) &&
    (List.range s.cfg.camPipes).all (fun q =>
      q == p || !s.flag R.CX_CAM_CTL_en [q] || !lanesMeet b (camLanes (s.regWord R.CX_CAM_CTL [q])))

/-- The strip ring fits in the Hoard: base, length, stride in units of 256 bytes. -/
def State.ringFits (s : State) (base len stride : Nat) : Bool := s.hoardRange base (len * stride * 256)

/-- The stride that the pipeline's parameters need (R127). -/
def State.strideNeeded (s : State) (p : Nat) : Nat :=
  minStride (s.get R.PP_CTL_out_fmt [p]) (s.get R.PP_STAMP_out_width [p]) (s.get R.PP_CTL_levels [p])
    (fmtComps (s.get R.PP_CTL_fmt [p]))

/-- The limits that an enabled camera must keep (R134). -/
def State.enableOk (s : State) (p w : Nat) : Bool :=
  s.lanesOk p w
  && (s.get R.PP_CTL_fmt [p] != 3 || decide (s.get R.PP_CTL_width [p] ≤ 10922))
  && (s.flag R.PP_CTL_rs_en [p] || decide (s.get R.PP_STAMP_out_width [p] ≤ s.get R.PP_CTL_width [p]))
  && decide (s.strideNeeded p ≤ s.get R.PP_RING_CFG_ring_stride [p])
  && s.ringFits (s.get R.PP_RING_ring_base [p]) (s.get R.PP_RING_CFG_ring_len [p]) (s.get R.PP_RING_CFG_ring_stride [p])

/-- What R134 refuses, by register: `old` and `new` are the words before and after. -/
def State.camCheck (s : State) (p : Nat) (r : CamReg) (old new : Nat) : Option Nat :=
  let en := s.flag R.CX_CAM_CTL_en [p]
  let bad := match r with
    | .camCtl => if en then old / 2 != new / 2 else bit new 0 && !s.enableOk p new
    | .ppCtl => en && old != new
    | .stamp => (en && old != new) || (!s.flag R.PP_CTL_rs_en [p] && decide (s.get R.PP_CTL_width [p] < new % 65536))
    | .ring => (en && old != new)
        || !s.ringFits new (s.get R.PP_RING_CFG_ring_len [p]) (s.get R.PP_RING_CFG_ring_stride [p])
    | .ringCfg => (en && old != new) || decide (new / 512 < s.strideNeeded p)
        || !s.ringFits (s.get R.PP_RING_ring_base [p]) (new % 512) (new / 512)
  if bad then some causeBlock else none

/-- Stop pipeline `p` (Table 5-8, R140): the partial strip is discarded without advancing seq. While its camera is enabled the
stall is timed from now (R137, log 91). -/
def State.pipeStop (s : State) (p : Nat) : State :=
  let x := s.pipe p
  (s.setPipe p { x with delivered := 0, wasUp := false, buf := [], nextTag := none, skews := [], img := none, cur := none,
                        gap := false, slots := [], lost := false, resumed := false,
                        lastAcc := if s.flag R.CX_CAM_CTL_en [p] then some s.up else none }).setRegWord R.CX_CAM_STATUS [p] 0

/-- The register that a CamReg names. -/
def camRegSpec : CamReg → RegSpec
  | .camCtl => R.CX_CAM_CTL
  | .ppCtl => R.PP_CTL
  | .stamp => R.PP_STAMP
  | .ring => R.PP_RING
  | .ringCfg => R.PP_RING_CFG

/-- What of a written word the register takes: PP_CTL.levels keeps bit 0 set, a colour width stays within 10,922, and
a ring base stays aligned, else the field is left unchanged (R130, Table 5-5). -/
def camEff (r : CamReg) (old v : Nat) : Nat :=
  match r with
  | .ppCtl =>
    let v := if bit v 19 then v else setBits v 23 19 (bits old 23 19)
    if bits v 1 0 = 3 ∧ 10922 < bits v 17 2 then setBits v 17 2 (bits old 17 2) else v
  | .ring => if v % 256 = 0 then v else old
  | _ => v

/-- CX_CAM_CTL.en changed: the pipeline stops, or starts from nothing received. -/
def State.camEnable (s : State) (p old new : Nat) : State :=
  if bit old 0 != bit new 0 then s.pipeStop p else s

/-- The bit rate of the uplink in kbit/s by CX_CAM_CTL.speed (Table 5-2). -/
def uplinkRate (speed : Nat) : Nat := if speed ≤ 4 then 20833 else 41667

/-- A write of a control ring's base: a place in the Hoard for its 256 entries, 1,024-byte aligned, else it stays (R130). -/
def State.ctrlBase (s : State) (r : RegSpec) (p v : Nat) : State :=
  if v % 1024 = 0 ∧ s.hoardRange v (256 * 1024) then s.setRegWord r [p] v else s

/-- The speed goes to each lane's PHY through the rate address of its tuning map (chapter 5, *What is supported*). -/
def State.sendSpeed (s : State) (w : Nat) : State :=
  let b := camLanes w
  foldS (List.range b.2) (fun i s =>
    let a := s.get R.CX_TUNE_MAP_rate_addr [b.1 + i]
    if b.1 + i < s.cfg.cxpLanes ∧ a ≠ 0xFF then
      s.phySend (b.1 + i) { fn := .rate, write := true, addr := a, data := bits w 11 9 } else s) s

/-- A write to a register that R134 judges. -/
def State.camWrite (s : State) (src : Src) (p : Nat) (r : CamReg) (v : Nat) : State :=
  let spec := camRegSpec r
  let off := spec.addr [p]
  let old := s.regWord spec [p]
  let eff := camEff r old v
  let range := anyOutOfRange v spec.fields || eff != v
  let refuse (s : State) : State := s.postLim E.PP_CFG_REFUSED off (some p) [(.val, off)]
      if s.cfg.camPipes ≤ p then s
    else if r = .ringCfg then
      -- PP_RING_CFG is no journalled parameter (R130); a refused write is journalled (R134)
      let new := fieldsWrite old eff spec.fields
      if s.hostShut src then s.hostAbandon else if s.regHeld off then s else
      match s.camCheck p r old new with
      | some c => refuse (s.jrnRefused src c off old v)
      | none => s.setRegWord spec [p] new
    else
      s.paramWriteEff src spec [p] v eff range (fun s old new => s.camCheck p r old new) refuse (fun s old new =>
        if r = .camCtl then
          (let s := s.camEnable p old new
           let s := s.setPipe p { s.pipe p with upRate := uplinkRate (bits new 11 9) }
           if bits old 11 3 != bits new 11 3 || (!bit old 0 && bit new 0) then s.sendSpeed new else s)
        else s)

/-- CAMERA_CONFIG_WRITE. -/
def execCameraConfigWrite (src : Src) (p : Nat) (r : CamReg) (v : Nat) (s : State) : Host.Outcome State Fault Refusal :=
  .next (s.camWrite src p r v)

end Sys2Proof.Machine
end

