-- ==== Sys2Proof/Machine/Jpeg.lean ====
section
/-! DEFINITION. JPEG baseline within the scope of Table 6-4 (R145): the marker segments up to the scan, and the count
of the entropy-coded blocks, its entropy-coded data, and its samples by an inverse transform whose rounding is free
(log 28). -/

namespace Sys2Proof.Machine

/-- A Huffman table as its codes: length, code, symbol. -/
abbrev Huff := List (Nat × Nat × Nat)

/-- A component of the frame: identifier, sampling factors, quantisation table. -/
structure JComp where
  id : Nat
  h : Nat
  v : Nat
  tq : Nat
  deriving DecidableEq, Repr

/-- What the marker segments have given so far. -/
structure JHead where
  height : Nat
  width : Nat
  comps : List JComp
  /-- A frame header of any kind was read (R155); it lies within Table 6-4. -/
  seen : Bool
  sof : Bool
  /-- Quantisation tables: number, 64 steps in zigzag order. -/
  quants : List (Nat × List Nat)
  dc : List (Nat × Huff)
  ac : List (Nat × Huff)
  restart : Nat
  /-- Scan components: identifier, DC and AC table. -/
  scan : List (Nat × Nat × Nat)
  deriving DecidableEq, Repr

/-- The lines of a still whose SOF was readable, else 0 (R155). -/
def JHead.lines (j : JHead) : Nat := if j.seen then j.height else 0

/-- Before the first segment. -/
def JHead.start : JHead :=
  { height := 0, width := 0, comps := [], seen := false, sof := false, quants := [], dc := [], ac := [], restart := 0, scan := [] }

/-- The canonical codes of one length, and the code after them. -/
def huffLen (len : Nat) : Nat → Nat → List Byte → Huff × Nat × List Byte
  | 0, code, syms => ([], code, syms)
  | _ + 1, code, [] => ([], code, [])
  | n + 1, code, b :: t =>
    let r := huffLen len n (code + 1) t
    ((len, code, b.toNat) :: r.1, r.2)

/-- The canonical codes of a table from its counts per length. -/
def huffCodes : Nat → Nat → List Byte → List Byte → Huff
  | _, _, [], _ => []
  | len, code, c :: cs, syms =>
    let r := huffLen len c.toNat code syms
    r.1 ++ huffCodes (len + 1) (2 * r.2.1) cs r.2.2

/-- The tables of a DHT segment: at most 2 of each class. -/
def readDht : Nat → List Byte → JHead → Option JHead
  | 0, _, _ => none
  | _ + 1, [], j => some j
  | n + 1, tc :: t, j =>
    let counts := t.take 16
    let total := (counts.map (·.toNat)).foldl (· + ·) 0
    let body := t.drop 16
    if t.length < 16 + total ∨ 1 < tc.toNat % 16 ∨ 1 < tc.toNat / 16 then none
    else
      let h := huffCodes 1 0 counts (body.take total)
      let j := if tc.toNat / 16 = 0 then { j with dc := (tc.toNat % 16, h) :: j.dc }
        else { j with ac := (tc.toNat % 16, h) :: j.ac }
      readDht n (body.drop total) j

/-- The tables of a DQT segment: 8-bit precision, at most 4. -/
def readDqt : Nat → List Byte → JHead → Option JHead
  | 0, _, _ => none
  | _ + 1, [], j => some j
  | n + 1, pq :: t, j =>
    if 3 < pq.toNat ∨ t.length < 64 then none
    else readDqt n (t.drop 64) { j with quants := (pq.toNat, (t.take 64).map (·.toNat)) :: j.quants }

/-- The components of a SOF0 segment. -/
def readComps : List Byte → List JComp
  | c :: hv :: tq :: t => { id := c.toNat, h := hv.toNat / 16, v := hv.toNat % 16, tq := tq.toNat } :: readComps t
  | _ => []

/-- The sampling of Table 6-4: the factors of the chroma components are those of component 0, or half of them across (4:2:2) or
both ways (4:2:0); an MCU holds at most 10 blocks (ITU-T T.81). -/
def samplingOk : List JComp → Bool
  | [_] => true
  | [a, b, c] => c.h == b.h && c.v == b.v && decide (1 ≤ b.h ∧ 1 ≤ b.v ∧ a.h ≤ 4 ∧ a.v ≤ 4)
      && ((a.h == b.h && a.v == b.v) || (a.h == 2 * b.h && a.v == b.v) || (a.h == 2 * b.h && a.v == 2 * b.v))
      && decide (a.h * a.v + 2 * (b.h * b.v) ≤ 10)
  | _ => false

/-- The scan components of an SOS segment. -/
def readScan : Nat → List Byte → List (Nat × Nat × Nat)
  | n + 1, c :: t :: l => (c.toNat, t.toNat / 16, t.toNat % 16) :: readScan n l
  | _, _ => []

/-- A scan lies within Table 6-4: one interleaved scan over all components, with tables that exist. -/
def JHead.scanOk (j : JHead) : Bool :=
  j.sof && samplingOk j.comps && j.scan.length == j.comps.length && j.scan.map (·.1) == j.comps.map (·.id)
  && j.comps.all (fun c => j.quants.any (fun q => q.1 == c.tq))
  && j.scan.all (fun x => (j.dc.any (fun d => d.1 == x.2.1)) && (j.ac.any (fun d => d.1 == x.2.2)))

/-- Read the marker segments up to the scan: what was read, and the entropy-coded bytes if the still lies within the
scope. -/
def readSegments : Nat → List Byte → JHead → JHead × Option (List Byte)
  | 0, _, j => (j, none)
  | n + 1, l, j =>
    match l with
    | f :: m :: t =>
      if f.toNat ≠ 0xFF then (j, none)
      else if m.toNat = 0xFF then readSegments n (m :: t) j
      else
        let len := beVal (t.take 2)
        let body := (t.drop 2).take (len - 2)
        let rest := t.drop len
        if len < 2 ∨ t.length < len then (j, none)
        else if (0xE0 ≤ m.toNat ∧ m.toNat ≤ 0xEF) ∨ m.toNat = 0xFE then readSegments n rest j
        else if m.toNat = 0xC4 then
          (match readDht body.length.succ body j with
            | some j' => readSegments n rest j'
            | none => (j, none))
        else if m.toNat = 0xDB then
          (match readDqt body.length.succ body j with
            | some j' => readSegments n rest j'
            | none => (j, none))
        else if m.toNat = 0xDD then readSegments n rest { j with restart := beVal (body.take 2) }
        else if 0xC0 ≤ m.toNat ∧ m.toNat ≤ 0xCF ∧ m.toNat ≠ 0xC8 ∧ m.toNat ≠ 0xCC then
          (let j := if body.length < 5 ∨ j.seen then j
             else { j with height := beVal ((body.drop 1).take 2), width := beVal ((body.drop 3).take 2),
                           comps := readComps (body.drop 6), seen := true }
           if m.toNat = 0xC0 ∧ (body.headD 0).toNat = 8 ∧ j.height ≠ 0 ∧ j.width ≠ 0 ∧ !j.sof ∧ samplingOk j.comps
             ∧ j.comps.length = ((body.drop 5).headD 0).toNat
           then readSegments n rest { j with sof := true } else (j, none))
        else if m.toNat = 0xDA then
          (let ns := (body.headD 0).toNat
           let j := { j with scan := readScan ns (body.drop 1) }
           if j.scanOk ∧ body.drop (1 + 2 * ns) = [0, 63, 0] then (j, some rest) else (j, none))
        else (j, none)
    | _ => (j, none)

/-- The head of a still: SOI, then its segments. -/
def readStill (l : List Byte) : JHead × Option (List Byte) :=
  match l with
  | a :: b :: t => if a.toNat = 0xFF ∧ b.toNat = 0xD8 then readSegments t.length t JHead.start else (JHead.start, none)
  | _ => (JHead.start, none)

/-- The entropy-coded bytes of each restart interval, up to EOI, which must end the payload. -/
def readIntervals : List Byte → List Byte → Option (List (List Byte))
  | [], _ => none
  | [_], _ => none
  | f :: m :: t, cur =>
    if f.toNat = 0xFF then
      if m.toNat = 0 then (match t with
        | [] => none
        | _ => readIntervals t (f :: cur))
      else if m.toNat = 0xFF then readIntervals (m :: t) cur
      else if 0xD0 ≤ m.toNat ∧ m.toNat ≤ 0xD7 then (readIntervals t []).map (cur.reverse :: ·)
      else if m.toNat = 0xD9 then (if t.isEmpty then some [cur.reverse] else none)
      else none
    else readIntervals (m :: t) (f :: cur)

/-- Bits of bytes, most significant first. -/
def toBits (l : List Byte) : List Bool := l.flatMap (fun b => ((List.range 8).map (fun i => b.toNat.testBit (7 - i))))

/-- Decode one symbol. -/
def huffSym (h : Huff) : Nat → Nat → Nat → List Bool → Option (Nat × List Bool)
  | 0, _, _, _ => none
  | _, _, _, [] => none
  | n + 1, len, code, b :: t =>
    let code := 2 * code + b2n b
    match h.find? (fun x => x.1 = len + 1 ∧ x.2.1 = code) with
    | some x => some (x.2.2, t)
    | none => huffSym h n (len + 1) code t

/-- Take `n` bits as a number, most significant first. -/
def takeBits : Nat → Nat → List Bool → Option (Nat × List Bool)
  | 0, a, l => some (a, l)
  | _ + 1, _, [] => none
  | n + 1, a, b :: t => takeBits n (2 * a + b2n b) t

/-- The signed value that `z` magnitude bits `v` spell (EXTEND of ITU-T T.81). -/
def extendBits (z v : Nat) : Int := if 2 * v < 2 ^ z then (v : Int) - (2 ^ z : Nat) + 1 else v

/-- A block as coded: the DC difference, and the AC coefficients that are not 0 with their zigzag places. -/
abbrev RawBlock := Int × List (Nat × Int)

/-- The AC coefficients of a block from place `k`. -/
def acBlock (h : Huff) : Nat → Nat → List Bool → Option (List (Nat × Int) × List Bool)
  | 0, _, _ => none
  | n + 1, k, l =>
    if k = 64 then some ([], l)
    else match huffSym h 16 0 0 l with
      | none => none
      | some (rs, t) =>
        let r := rs / 16
        let z := rs % 16
        if z = 0 then (if r = 15 then (if k + 16 ≤ 64 then acBlock h n (k + 16) t else none) else some ([], t))
        else if 64 < k + r + 1 then none
        else match takeBits z 0 t with
          | none => none
          | some (v, u) => (acBlock h n (k + r + 1) u).map (fun q => ((k + r, extendBits z v) :: q.1, q.2))

/-- One block. -/
def block (dc ac : Huff) (l : List Bool) : Option (RawBlock × List Bool) :=
  match huffSym dc 16 0 0 l with
  | none => none
  | some (z, t) =>
    if 11 < z then none
    else match takeBits z 0 t with
      | none => none
      | some (v, u) => (acBlock ac 64 1 u).map (fun q => ((extendBits z v, q.1), q.2))

/-- Several blocks of one component. -/
def blocks (dc ac : Huff) : Nat → List Bool → Option (List RawBlock × List Bool)
  | 0, l => some ([], l)
  | n + 1, l => (block dc ac l).bind (fun q => (blocks dc ac n q.2).map (fun r => (q.1 :: r.1, r.2)))

/-- The table of a number. -/
def pickTable (l : List (Nat × Huff)) (k : Nat) : Huff := ((l.find? (fun x => x.1 = k)).map (·.2)).getD []

/-- Blocks per MCU of each scan component, with its tables. -/
def JHead.mcuParts (j : JHead) : List (Nat × Huff × Huff) :=
  (j.scan.zip j.comps).map (fun x =>
    (if j.comps.length = 1 then 1 else x.2.h * x.2.v, pickTable j.dc x.1.2.1, pickTable j.ac x.1.2.2))

/-- One MCU: the blocks of each component. -/
def mcu : List (Nat × Huff × Huff) → List Bool → Option (List (List RawBlock) × List Bool)
  | [], l => some ([], l)
  | (n, dc, ac) :: t, l => (blocks dc ac n l).bind (fun q => (mcu t q.2).map (fun r => (q.1 :: r.1, r.2)))

/-- Several MCUs. -/
def mcus (parts : List (Nat × Huff × Huff)) : Nat → List Bool → Option (List (List (List RawBlock)) × List Bool)
  | 0, l => some ([], l)
  | n + 1, l => (mcu parts l).bind (fun q => (mcus parts n q.2).map (fun r => (q.1 :: r.1, r.2)))

/-- The MCUs of the frame in one row, and in all. -/
def JHead.mcuRow (j : JHead) : Nat :=
  match j.comps with
  | [_] => (j.width + 7) / 8
  | c :: _ => (j.width + 8 * c.h - 1) / (8 * c.h)
  | [] => 0
def JHead.mcuCount (j : JHead) : Nat :=
  match j.comps with
  | [_] => j.mcuRow * ((j.height + 7) / 8)
  | c :: _ => j.mcuRow * ((j.height + 8 * c.v - 1) / (8 * c.v))
  | [] => 0

/-- A block with its DC coefficient in place of the difference: the DC of the block before it in the interval is
`pred`. -/
def undoDiff (pred : Int) : List RawBlock → List RawBlock × Int
  | [] => ([], pred)
  | (d, ac) :: t =>
    let r := undoDiff (pred + d) t
    ((pred + d, ac) :: r.1, r.2)

/-- The components of one MCU, each with its own prediction. -/
def undoMcu : List Int → List (List RawBlock) → List (List RawBlock) × List Int
  | p :: ps, c :: cs =>
    let a := undoDiff p c
    let r := undoMcu ps cs
    (a.1 :: r.1, a.2 :: r.2)
  | ps, _ => ([], ps)

/-- The MCUs of one interval, from predictions of 0. -/
def undoInterval : List Int → List (List (List RawBlock)) → List (List (List RawBlock))
  | _, [] => []
  | ps, m :: ms =>
    let a := undoMcu ps m
    a.1 :: undoInterval a.2 ms

/-- Each interval decodes to its number of MCUs and leaves less than a byte; the MCUs of all. -/
def readMcus (parts : List (Nat × Huff × Huff)) (per : Nat) : Nat → List (List Byte) → Option (List (List (List RawBlock)))
  | total, [] => if total = 0 then some [] else none
  | total, x :: xs =>
    let n := if per = 0 then total else min per total
    if n = 0 then none
    else match mcus parts n (toBits x) with
      | none => none
      | some (m, r) =>
        if 8 ≤ r.length then none
        else (readMcus parts per (total - n) xs).map (fun q => undoInterval (parts.map (fun _ => 0)) m ++ q)

/-- The MCUs of a still, if its entropy data decodes to exactly the frame's count (Table 6-7). -/
def JHead.mcuList (j : JHead) (data : List Byte) : Option (List (List (List RawBlock))) :=
  (readIntervals data []).bind (readMcus j.mcuParts j.restart j.mcuCount)

/-- The entropy data decodes to exactly the frame's MCU count (Table 6-7). -/
def JHead.dataOk (j : JHead) (data : List Byte) : Bool := (j.mcuList data).isSome

/-! ### Samples (R145) -/

/-- The 64 dequantised coefficients of a block, in zigzag order. -/
def dequant (q : List Nat) (b : RawBlock) : List Int :=
  (List.range 64).map (fun k =>
    (if k = 0 then b.1 else ((b.2.find? (fun x => x.1 = k)).map (·.2)).getD 0) * (q.getD k 1))

/-- A value within a byte. -/
def clampByte (v : Int) : Nat := if v < 0 then 0 else if 255 < v then 255 else v.toNat

/-- The sample of component `c` at column `x` and row `y` of its own plane. -/
def JHead.planeAt (j : JHead) (m : List (List (List RawBlock))) (c x y : Nat) : Nat :=
  let comp := j.comps.getD c { id := 0, h := 1, v := 1, tq := 0 }
  let hv := if j.comps.length = 1 then (1, 1) else (comp.h, comp.v)
  let bx := x / 8
  let bY := y / 8
  let unit := m.getD (bY / hv.2 * j.mcuRow + bx / hv.1) []
  let b := (unit.getD c []).getD (bY % hv.2 * hv.1 + bx % hv.1) (0, [])
  let q := ((j.quants.find? (fun t => t.1 = comp.tq)).map (·.2)).getD []
  clampByte (128 + Config.idct (dequant q b) (8 * (y % 8) + x % 8))

/-- The sample of component `c` at column `x` and row `y` of the image: chroma by sample repetition (Table 6-4). -/
def JHead.sampleOf (j : JHead) (m : List (List (List RawBlock))) (c x y : Nat) : Nat :=
  match j.comps with
  | [a, b, _] => if c = 0 then j.planeAt m 0 x y else j.planeAt m c (x * b.h / a.h) (y * b.v / a.v)
  | _ => j.planeAt m c x y

/-- R, G and B of a YCbCr triple (ITU-T T.871), exact and rounded to the nearest whole number. -/
def rgbOf (y cb cr : Nat) : List Nat :=
  let u : Int := (cb : Int) - 128
  let v : Int := (cr : Int) - 128
  [clampByte ((2 * (1000 * (y : Int) + 1402 * v) + 1000) / 2000),
   clampByte ((2 * (587000 * (y : Int) - (202008 * u + 419198 * v)) + 587000) / 1174000),
   clampByte ((2 * (1000 * (y : Int) + 1772 * u) + 1000) / 2000)]

/-- The rows of a decoded still as line bytes: one component, or R, G, B. -/
def JHead.rows (j : JHead) (m : List (List (List RawBlock))) : List (List Byte) :=
  (List.range j.height).map (fun y => (List.range j.width).flatMap (fun x =>
    (if j.comps.length = 3 then rgbOf (j.sampleOf m 0 x y) (j.sampleOf m 1 x y) (j.sampleOf m 2 x y)
     else [j.sampleOf m 0 x y]).map (BitVec.ofNat 8)))

end Sys2Proof.Machine
end

