-- ==== Sys2Proof/Machine/Decoder.lean ====
section
/-! DEFINITION. The record and still-image decoder (chapter 6). -/

namespace Sys2Proof.Machine

/-- A channel with nothing in progress. -/
def DecCh.init : DecCh :=
  { buf := [], ends := [], skip := 0, searched := 0, searching := false, refused := false, fmt := 0, width := 0, period := 0, nextSeq := 0,
    expTt := none, queue := [], delta := none, resume := none, records := 0, strips := 0, subst := [] }

/-- Channel `c`. -/
def State.dec (s : State) (c : Nat) : DecCh := s.decs.get c DecCh.init

/-- Give channel `c`. -/
def State.setDec (s : State) (c : Nat) (d : DecCh) : State := { s with decs := s.decs.set c d }

/-- PP_DEC_STATUS.state. -/
def State.decState (s : State) (c : Nat) : Nat := s.get R.PP_DEC_STATUS_state [c]

/-- The channel is on and its pipeline enabled (R147). -/
def State.decOn (s : State) (c : Nat) : Bool :=
  decide (c < 4) && !s.islandHeld 52 && s.flag R.PP_DEC_CTL_en [c] && s.pipeOn (s.get R.PP_DEC_CTL_pipe [c])

/-- A decoder event names the channel and the rec_seq (R153). -/
def State.decEvent (s : State) (code cause c seq : Nat) (fs : List (FK × Nat)) : State :=
  s.postLim code cause (some c) ((.val, seq) :: fs)

/-! ### The stream (R151) -/

/-- Use `n` bytes of the descriptors read: what remains of each, and how many are used up. -/
def useEnds : Nat → List Nat → List Nat × Nat
  | _, [] => ([], 0)
  | n, e :: t =>
    if e ≤ n then (let r := useEnds (n - e) t
                   (r.1, r.2 + 1))
    else ((e - n) :: t, 0)

/-- Use `n` bytes of the stream; src_cons passes every descriptor whose bytes are all used. -/
def State.decUse (s : State) (c n : Nat) : State :=
  let d := s.dec c
  let r := useEnds n d.ends
  (s.setDec c { d with buf := d.buf.drop n, ends := r.1 }).put R.PP_DEC_IDX_src_cons [c]
    ((s.get R.PP_DEC_IDX_src_cons [c] + r.2) % 4096)

/-- The causes of Table 6-7, in its order; 9 is R151's bad_address. -/
def decBadKind : Nat := 1
def decSeq : Nat := 2
def decLength : Nat := 3
def decTtOrder : Nat := 4
def decCrc : Nat := 5
def decJpegScope : Nat := 6
def decWorkArea : Nat := 7
def decJpegData : Nat := 8
def decBadAddress : Nat := 9

/-- DEC_DESCRIPTOR_FETCH: the next source descriptor is read, with its bytes (R151). -/
def execDecDescriptorFetch (c : Nat) (s : State) : Host.Outcome State Fault Refusal :=
  let d := s.dec c
  let i := (s.get R.PP_DEC_IDX_src_cons [c] + d.ends.length) % 4096
  .next (
    if s.decOn c && i != s.get R.PP_DEC_IDX_src_prod [c] then
      let a := hoardBase + s.get R.PP_DEC_SRC_base [c] + 16 * i
      let addr := s.readLe a 8 % 2 ^ 40
      let n := s.readLe (a + 8) 4
      if s.inHoardOrBurrow addr n then
        (s.setDec c { d with buf := d.buf ++ s.readMem addr n, ends := d.ends ++ [n] }).decUse c 0
      else
        (((s.setDec c { d with ends := d.ends ++ [0] }).decUse c 0).bump R.PP_DEC_ERR_skipped [c]).decEvent E.DEC_RECORD_SKIPPED decBadAddress c d.nextSeq
          [(.en, decBadAddress), (.val, 0)]
    else s)

/-- Which field of a file header fails (R154, Table 6-2), numbered in the order R154 lists them. -/
def fileHeaderBad (h : List Byte) (fmt width : Nat) : Option Nat :=
  if leVal (h.take 4) ≠ 0x53455454 then some 1
  else if leVal ((h.drop 4).take 2) ≠ 1 then some 2
  else if leVal ((h.drop 6).take 2) ≠ 64 then some 3
  else if leVal ((h.drop 60).take 4) ≠ crc32 (h.take 60) then some 4
  else if leVal ((h.drop 12).take 1) ≠ fmt then some 5
  else if leVal ((h.drop 14).take 2) ≠ width then some 6
  else none

/-- DEC_FILE_HEADER (R142, R154): the next 64 bytes open a stream or refuse it. -/
def execDecFileHeader (c : Nat) (s : State) : Host.Outcome State Fault Refusal :=
  let d := s.dec c
  let p := s.get R.PP_DEC_CTL_pipe [c]
  let st := s.decState c
  .next (
    if s.decOn c && !d.refused && (st == 1 || st == 4) && decide (64 ≤ d.buf.length) then
      let h := d.buf.take 64
      match fileHeaderBad h (s.get R.PP_CTL_fmt [p]) (s.get R.PP_CTL_width [p]) with
      | some f =>
        ((s.setDec c { d with refused := true }).put R.PP_DEC_STATUS_state [c] 4).decEvent E.DEC_FILE_REFUSED f c 0 [(.en, f)]
      | none =>
        let s := (s.setDec c { d with fmt := s.get R.PP_CTL_fmt [p], width := s.get R.PP_CTL_width [p],
                                      period := leVal ((h.drop 16).take 4), nextSeq := 0, expTt := none, records := 0,
                                      strips := (s.pipe p).seq }).decUse c 64
        s.put R.PP_DEC_STATUS_state [c] 2
    else s)

/-! ### Records (R143, R144, R154) -/

/-- A record header (Table 6-3). -/
structure RecHdr where
  kind : Nat
  hasPos : Bool
  lines : Nat
  len : Nat
  seq : Nat
  tt : Nat
  cnt : Nat
  reserved : Bool
  crc : Nat

/-- The fields of a record header. -/
def recHdr (h : List Byte) : RecHdr :=
  { kind := leVal ((h.drop 4).take 1), hasPos := bit (leVal ((h.drop 5).take 1)) 0, lines := leVal ((h.drop 6).take 2),
    len := leVal ((h.drop 8).take 4), seq := leVal ((h.drop 12).take 4), tt := leVal ((h.drop 16).take 8),
    cnt := leVal ((h.drop 24).take 6), reserved := leVal ((h.drop 30).take 10) != 0, crc := leVal ((h.drop 40).take 4) }

/-- A valid sync word and header CRC at the front. -/
def hdrValid (l : List Byte) : Bool :=
  decide (48 ≤ l.length) && leVal (l.take 4) == 0x5E77A1C3 && leVal ((l.drop 44).take 4) == crc32 (l.take 44)

/-- The first offset, in 8-byte steps, at which a valid header stands. -/
def findHdr : Nat → Nat → List Byte → Option Nat
  | 0, _, _ => none
  | n + 1, o, l => if hdrValid l then some o else findHdr n (o + 8) (l.drop 8)

/-- The length of a record's payload with its padding (R143). -/
def RecHdr.padded (r : RecHdr) : Nat := (r.len + 7) / 8 * 8

/-- The checks on a header alone, in order (Table 6-7), the record sequence apart. -/
def RecHdr.early (r : RecHdr) (lineBytes : Nat) (exp : Option Nat) : Option Nat :=
  if !(r.kind == 1 || r.kind == 2 || r.kind == 3 || r.kind == 15) || r.reserved then some decBadKind
  else if r.kind = 1 ∧ !(decide (1 ≤ r.lines ∧ r.lines ≤ 16) && r.len == r.lines * lineBytes) then some decLength
  else if r.kind = 2 ∧ 16 * 2 ^ 20 < r.len then some decLength
  else if r.kind ≠ 15 ∧ r.tt < exp.getD 0 then some decTtOrder
  else none

/-- Split bytes into lines of `n` bytes. -/
def splitLines (n : Nat) : Nat → List Byte → List (List Byte)
  | 0, _ => []
  | k + 1, l => l.take n :: splitLines n k (l.drop n)

/-- The lines that replace `n` lines (R155). -/
def State.decFills (s : State) (c n : Nat) : List DecItem :=
  let sub := (s.dec c).subst
  (List.range n).map (fun i =>
    if s.flag R.PP_DEC_CTL_subst [c] && !sub.isEmpty then .fill (some (sub.getD (i % sub.length) [])) else .fill none)

/-- Append to the channel's queue. -/
def State.decPush (s : State) (c : Nat) (l : List DecItem) : State :=
  s.setDec c { s.dec c with queue := (s.dec c).queue ++ l }

/-- Count lines that the decoder replaces. -/
def State.decReplaced (s : State) (c n : Nat) : State := s.bump R.PP_DEC_ERR_replaced [c] n

/-! ### Feeding the pipeline (R147 to R150) -/

/-- Bytes are a whole line of the width and format of PP_CTL (R119, R147). -/
def State.lineFits (s : State) (p : Nat) (bytes : List Byte) : Bool :=
  bytes.length == s.get R.PP_CTL_width [p] * fmtBytes (s.get R.PP_CTL_fmt [p])

/-- One line enters the pipeline with its stamp (R148). It passes the checks of R119, and a paced line that enters on time those
of the pipeline rate (R132, log 92). -/
def State.decLine (s : State) (c p : Nat) (bytes : List Byte) (tt : Nat) (cnt : Option Nat) (onTime : Bool) : State :=
  let d := s.dec c
  if d.fmt ≠ s.get R.PP_CTL_fmt [p] ∨ d.width ≠ s.get R.PP_CTL_width [p] ∨ s.lineFits p bytes = false then s.replaceLine p
  else if onTime && decide (s.up < (s.pipe p).busy) then s.overrateLine p
  else
  let s := s.occupy p
  if s.flag R.PP_DEC_CTL_stamp_rec [c] then
    let d := s.dec c
    let delta := d.delta.getD ((s.tt : Int) - tt)
    let s := s.setDec c { d with delta := some delta }
    s.acceptLine p bytes (wrapInt 64 ((tt : Int) + delta)) cnt
  else
    let t := s.stampTt p
    s.acceptLine p bytes t (s.stampCnt p t)

/-- The TT that a paced line waits for: its stamp TT (R149). -/
def State.decDue (s : State) (c tt : Nat) : Nat :=
  match (s.dec c).delta with
  | none => s.tt
  | some d => wrapInt 64 ((tt : Int) + d)

/-- The first line of a run gives Δ; a paced channel without stamp_rec paces by the same Δ (log 30). -/
def State.decDelta (s : State) (c tt : Nat) : State :=
  let d := s.dec c
  if d.delta.isNone then s.setDec c { d with delta := some ((s.tt : Int) - tt) } else s

/-- Complete the partial strip of a still with copies of the last row (R146). -/
def State.padStrip : Nat → Nat → State → State
  | 0, _, s => s
  | n + 1, p, s =>
    if (s.pipe p).slots.isEmpty then s
    else State.padStrip n p (s.replaceLine p (some (((s.pipe p).slots.getLast?).map (·.bytes) |>.getD [])))

/-- The first line after a long gap starts a strip with the resumed flag, and PP_RESUMED is posted (R150). -/
def State.decResume (s : State) (c p : Nat) : State :=
  match (s.dec c).resume with
  | none => s
  | some us =>
    let s := s.setDec c { s.dec c with resume := none }
    if s.flag R.CX_CAM_STATUS_stalled [p] then s
    else (s.setPipe p { s.pipe p with resumed := true }).postLim E.PP_RESUMED 0 (some p) [(.val, us)]

/-- What the queue's head does to the pipeline. -/
def State.decItem (s : State) (c p : Nat) (it : DecItem) : State :=
  match it with
  | .line b tt cnt =>
    let onTime := s.flag R.PP_DEC_CTL_pace [c] && s.decDue c tt == s.tt
    ((s.decResume c p).decDelta c tt).decLine c p b tt cnt onTime
  | .fill b => (s.decResume c p).replaceLine p (b.filter (s.lineFits p))
  | .breakStrip us =>
    let s := s.closeStrip p
    s.setDec c { s.dec c with resume := some us }
  | .pad => State.padStrip 16 p s
  | .close =>
    let s := s.closeStrip p
    let d := s.dec c
    (s.put R.PP_DEC_STATUS_state [c] 4).decEvent E.DEC_END 0 c (d.nextSeq - 1)
      [(.val, d.records), (.val, ((s.pipe p).seq + 2 ^ 32 - d.strips) % 2 ^ 32)]

/-- A line would start a strip whose buffer is unreleased: a free channel waits (R149). -/
def State.decMustWait (s : State) (c p : Nat) (it : DecItem) : Bool :=
  match it with
  | .line _ _ _ | .fill _ =>
    !s.flag R.PP_DEC_CTL_pace [c] && (s.pipe p).slots.isEmpty && s.ringFull p
  | _ => false

/-- A paced line whose stamp TT has not come (R149). -/
def State.decEarly (s : State) (c : Nat) (it : DecItem) : Bool :=
  match it with
  | .line _ tt _ => s.flag R.PP_DEC_CTL_pace [c] && decide (s.tt < s.decDue c tt)
  | _ => false

/-- Feed what can enter now. -/
def State.decFeed : Nat → Nat → State → State
  | 0, _, s => s
  | n + 1, c, s =>
    let p := s.get R.PP_DEC_CTL_pipe [c]
    match (s.dec c).queue with
    | [] => if s.decState c = 3 then s.put R.PP_DEC_STATUS_state [c] 2 else s
    | it :: rest =>
      if s.decMustWait c p it then s.put R.PP_DEC_STATUS_state [c] 3
      else if s.decEarly c it then s
      else
        let s := if s.decState c = 3 then s.put R.PP_DEC_STATUS_state [c] 2 else s
        State.decFeed n c ((s.setDec c { s.dec c with queue := rest }).decItem c p it)

/-- Feed the whole queue as far as it goes. -/
def State.decRun (s : State) (c : Nat) : State := State.decFeed ((s.dec c).queue.length + 1) c s

/-! ### One record -/

/-- Skip a record for `cause`, replacing `n` lines (R154, R155). -/
def State.decSkip (s : State) (c cause seq n : Nat) : State :=
  let s := ((s.bump R.PP_DEC_ERR_skipped [c]).decReplaced c n).decPush c (s.decFills c n)
  s.decEvent E.DEC_RECORD_SKIPPED cause c seq [(.en, cause), (.val, n)]

/-- A count for each of `n` lines: the record gives that of the first; the others are free values (log 31). -/
def State.decCounts (r : RecHdr) : Nat → Nat → State → List (Option Nat) × State
  | _, 0, s => ([], s)
  | i, n + 1, s =>
    let a := if !r.hasPos then (none, s) else if i = 0 then (some r.cnt, s) else
      (let d := s.draw 48
       (some d.1, d.2))
    let t := State.decCounts r (i + 1) n a.2
    (a.1 :: t.1, t.2)

/-- Lines of a record enter the queue: line i has TT tt_first + i × line_period_ns (R144, R146). -/
def State.decLines (s : State) (c : Nat) (r : RecHdr) (rows : List (List Byte)) : State :=
  let q := State.decCounts r 0 rows.length s
  q.2.decPush c ((rows.zip q.1).mapIdx (fun i x => .line x.1 (r.tt + i * (s.dec c).period) x.2))

/-- The cause for which a still is skipped once its payload is there (Table 6-7), with its head. -/
def stillCause (j : JHead × Option (List Byte)) (fmt width work : Nat) : Option Nat :=
  match j.2 with
  | none => some decJpegScope
  | some data =>
    let comps := j.1.comps.length
    if !((comps = 1 ∧ fmt = 0) ∨ (comps = 3 ∧ fmt = 3)) ∨ j.1.width ≠ width then some decJpegScope
    else if work < 2 * ((j.1.width + 15) / 16) * 16 * 16 * comps + 4096 then some decWorkArea
    else if !j.1.dataOk data then some decJpegData
    else none

/-- A still is decoded in the channel's work area (R145, R146); what it leaves there is free (log 28). -/
def State.decStill (s : State) (c : Nat) (r : RecHdr) (payload : List Byte) (j : JHead) (data : List Byte) : State :=
  let addr := s.pair R.PP_DEC_WORK_LO R.PP_DEC_WORK_HI [c] % 2 ^ 40
  let n := 2 * ((j.width + 15) / 16) * 16 * 16 * j.comps.length + 4096
  let s := s.writeMem addr ((List.range n).map (fun i => Config.jpegWork payload i))
  (s.decLines c r (j.rows ((j.mcuList data).getD []))).decPush c (if j.height % 16 = 0 then [] else [.pad])

/-- The lines of a record, for the TT expected after it. -/
def nextExp (from_ n period : Nat) : Option Nat := some (from_ + n * period)

/-- Process the record at the front of the stream, whose header is valid. -/
def State.decRecord (s : State) (c p : Nat) : State :=
  let d := s.dec c
  let r := recHdr d.buf
  let fmt := s.get R.PP_CTL_fmt [p]
  let lineBytes := s.get R.PP_CTL_width [p] * fmtBytes fmt
  let early := r.early lineBytes d.expTt
  let total := 48 + r.padded
  let whole := decide (total ≤ d.buf.length)
  let seqBad := r.seq != d.nextSeq
  let seqEvent (s : State) : State :=
    if seqBad then s.decEvent E.DEC_RECORD_SKIPPED decSeq c r.seq [(.en, decSeq), (.val, 0)] else s
  let payload := (d.buf.drop 48).take r.len
  let base (d : DecCh) : DecCh := { d with nextSeq := (r.seq + 1) % 2 ^ 32, records := d.records + 1 }
  let good (s : State) : State := s.put R.PP_DEC_STATUS_last_seq [c] (r.seq % 65536)
  let drop (s : State) : State :=
    let n := min total d.buf.length
    let s := s.decUse c n
    s.setDec c { s.dec c with skip := total - n }
  match early with
  | some cause =>
    -- a still's SOF is read before the still is skipped; of one that is too long, as far as it has arrived (log 92)
    if r.kind = 2 ∧ r.len ≤ 16 * 2 ^ 20 ∧ !whole then s
    else
      let n := if r.kind = 1 then r.lines else if r.kind = 2 then (readStill payload).1.lines else 0
      let s := s.setDec c { base d with expTt := d.expTt.map (· + n * d.period) }
      let s := if cause = decBadKind then s else seqEvent s
      drop (s.decSkip c cause r.seq n)
  | none =>
    if !whole then s
    else
      let crcBad := crc32 payload != r.crc
      match r.kind with
      | 1 =>
        let s := drop (seqEvent (s.setDec c { base d with expTt := nextExp r.tt r.lines d.period }))
        if crcBad then s.decSkip c decCrc r.seq r.lines
        else good (s.decLines c r (splitLines lineBytes r.lines payload))
      | 2 =>
        let j := readStill payload
        let h := j.1.lines
        let work := s.pair R.PP_DEC_WORK_LO R.PP_DEC_WORK_HI [c] / 2 ^ 40
        let s := drop (seqEvent (s.setDec c { base d with expTt := nextExp r.tt h d.period }))
        if crcBad then s.decSkip c decCrc r.seq h
        else match stillCause j fmt (s.get R.PP_CTL_width [p]) work with
          | some cause => s.decSkip c cause r.seq h
          | none => good (s.decStill c r payload j.1 (j.2.getD []))
      | 3 =>
        let s := drop (seqEvent (s.setDec c { base d with expTt := nextExp r.tt r.lines d.period }))
        if crcBad then s.decSkip c decCrc r.seq 0
        else if 16 < r.lines then good (s.decPush c [.breakStrip (r.lines * d.period / 1000)])
        else good ((s.decReplaced c r.lines).decPush c (List.replicate r.lines (.fill none)))
      | _ =>
        let s := drop (seqEvent (s.setDec c (base d)))
        if crcBad then s.decSkip c decCrc r.seq 0 else good (s.decPush c [.close])

/-- The search of R154 has found a header: the lines lost in between are inferred and filled. -/
def State.decResync (s : State) (c at_ : Nat) : State :=
  let s := s.decUse c at_
  let d := s.dec c
  let r := recHdr d.buf
  let q := match d.expTt with
    | none => (0, s)
    | some e =>
      if d.period = 0 then s.draw 16
      else (((roundDivInt ((r.tt : Int) - (e : Int)) d.period).toNat), s)
  let lines := q.1
  let s := q.2
  let bytes := d.searched + at_
  let s := s.setDec c { d with searched := 0, searching := false, expTt := some (max r.tt (d.expTt.getD 0)) }
  let s := s.decEvent E.DEC_RESYNC 0 c r.seq [(.val, bytes), (.val, lines)]
  if s.get R.PP_DEC_CTL_gap_max [c] < lines then s.decPush c [.breakStrip (lines * d.period / 1000)]
  else (s.decReplaced c lines).decPush c (s.decFills c lines)

/-- DEC_RECORD: the next record of an open stream, or a step of the search for one. -/
def execDecRecord (c : Nat) (s : State) : Host.Outcome State Fault Refusal :=
  let d := s.dec c
  let p := s.get R.PP_DEC_CTL_pipe [c]
  .next (
    if !s.decOn c || s.decState c != 2 || !d.queue.isEmpty then s
    else if d.skip ≠ 0 then
      let n := min d.skip d.buf.length
      let s := s.decUse c n
      s.setDec c { s.dec c with skip := d.skip - n }
    else if d.buf.length < 48 then s
    else if hdrValid d.buf && !d.searching then (s.decRecord c p).decRun c
    else
      match findHdr ((d.buf.length - 48) / 8 + 1) 0 d.buf with
      | some o => (s.decResync c o).decRun c
      | none =>
        let n := (d.buf.length - 48) / 8 * 8 + 8
        let s := s.decUse c n
        s.setDec c { s.dec c with searched := d.searched + n, searching := true })

/-- DEC_PACED_LINE_ENTRY: the queued lines whose stamp TT has come enter (R149). -/
def execDecPacedLineEntry (c : Nat) (s : State) : Host.Outcome State Fault Refusal :=
  .next (if s.decOn c && s.flag R.PP_DEC_CTL_pace [c] then s.decRun c else s)

/-- DEC_RING_SPACE_RESUME: a waiting channel goes on once a buffer is released (R149). -/
def execDecRingSpaceResume (c : Nat) (s : State) : Host.Outcome State Fault Refusal :=
  .next (if s.decOn c && s.decState c == 3 then s.decRun c else s)

/-! ### Configuration (R152, R156, R158) -/

/-- DEC_CFG_REFUSED names the register. -/
def State.decRefused (s : State) (c off : Nat) : State :=
  s.decEvent E.DEC_CFG_REFUSED off c (s.get R.PP_DEC_STATUS_last_seq [c]) [(.val, off)]

/-- Stop channel `c` (R157, R159): the record in progress is discarded, src_cons stays. -/
def State.decStop (s : State) (c : Nat) : State :=
  let p := s.get R.PP_DEC_CTL_pipe [c]
  let s := s.setDec c { DecCh.init with subst := (s.dec c).subst }
  (if p < s.cfg.camPipes then s.pipeStop p else s).put R.PP_DEC_STATUS_state [c] 0

/-- A write of PP_DEC_CTL (R158). -/
def State.decCtlWrite (s : State) (src : Src) (c v : Nat) : State :=
  let off := R.PP_DEC_CTL.addr [c]
  s.paramWrite src R.PP_DEC_CTL [c] v
    (fun s old new =>
      let taken := (List.range 4).any (fun k => k != c && s.flag R.PP_DEC_CTL_en [k]
        && s.get R.PP_DEC_CTL_pipe [k] == bits new 5 1)
      let binds := bit new 0 || bits new 5 1 != bits old 5 1
      if (bit old 0 && old / 2 != new / 2) || (binds && taken) then some causeBlock else none)
    (fun s => s.decRefused c off)
    (fun s old new =>
      if bit old 0 && !bit new 0 then s.decStop c
      else if !bit old 0 && bit new 0 then (s.decStop c).put R.PP_DEC_STATUS_state [c] 1
      else s)

/-- A write to a decoder register that R158 judges. -/
def State.decWrite (s : State) (src : Src) (c : Nat) (r : DecReg) (v : Nat) : State :=
      if 4 ≤ c then s
    else match r with
      | .ctl => s.decCtlWrite src c v
      | .src =>
        if s.hostShut src then s.hostAbandon else if s.regHeld (R.PP_DEC_SRC.addr [c]) then s
        else if s.flag R.PP_DEC_CTL_en [c] && v != s.regWord R.PP_DEC_SRC [c] then s.decRefused c (R.PP_DEC_SRC.addr [c])
        else if v % 16 = 0 then s.setRegWord R.PP_DEC_SRC [c] v else s
      | .work =>
        s.pairWrite src R.PP_DEC_WORK_LO R.PP_DEC_WORK_HI [c] v
          (fun s old new => if s.flag R.PP_DEC_CTL_en [c] && old != new then some causeBlock else none)
          (fun s => s.decRefused c (R.PP_DEC_WORK_LO.addr [c])) (fun s _ _ => s)

/-- DEC_CONFIG_WRITE. -/
def execDecConfigWrite (src : Src) (c : Nat) (r : DecReg) (v : Nat) (s : State) : Host.Outcome State Fault Refusal :=
  .next (s.decWrite src c r v)

/-- The lines of a substitute record at an address, if it passes every check of Table 6-7 (R156). -/
def State.substLines (s : State) (c a : Nat) : Option (List (List Byte)) :=
  let p := s.get R.PP_DEC_CTL_pipe [c]
  let lineBytes := s.get R.PP_CTL_width [p] * fmtBytes (s.get R.PP_CTL_fmt [p])
  let h := s.readMem a 48
  let r := recHdr h
  if !s.inHoardOrBurrow a 48 || !hdrValid h || r.kind != 1 || (r.early lineBytes none).isSome
      || !s.inHoardOrBurrow a (48 + r.len) then none
  else
    let payload := s.readMem (a + 48) r.len
    if crc32 payload = r.crc then some (splitLines lineBytes r.lines payload) else none

/-- A write to PP_DEC_SUBST_HI. -/
def State.substWrite (s : State) (src : Src) (c hi : Nat) : State :=
      if 4 ≤ c then s
    else
      s.pairWrite src R.PP_DEC_SUBST_LO R.PP_DEC_SUBST_HI [c] hi
        (fun s _ new => if new = 0 ∨ (s.substLines c new).isSome then none else some causeBlock)
        (fun s => s.decRefused c (R.PP_DEC_SUBST_LO.addr [c]))
        (fun s _ new => s.setDec c { s.dec c with subst := if new = 0 then [] else (s.substLines c new).getD [] })

/-- DEC_SUBST_WRITE (R156): the substitute applies from the next record (R157). -/
def execDecSubstWrite (src : Src) (c hi : Nat) (s : State) : Host.Outcome State Fault Refusal :=
  .next (s.substWrite src c hi)

end Sys2Proof.Machine
end

