-- ==== Sys2Proof/Machine/HostRing.lean ====
section
/-! DEFINITION. The rings in host memory, their writes and the interrupts (chapter 22). -/

namespace Sys2Proof.Machine

/-! ### Held records (R554) -/

/-- The records held for ring `r` that it has space for are written in order; at most `n` of them. -/
def flushHeld (r : Nat) : Nat → State → State
  | 0, s => s
  | n + 1, s =>
    match s.host.held.find? (fun h => h.ring = r) with
    | none => s
    | some c =>
      if !s.flag R.HP_CQ_CFG_en [r] || s.cqFull r then s
      else
        let held := s.host.held.eraseP (fun h => h.ring = r)
        let s := (s.cqSend c)
        flushHeld r n ({ s with host := { s.host with held := held } }.put R.HP_HOLD_used [] held.length)

/-- HELD_RECORD_FLUSH (R554). -/
def State.flush (s : State) (r : Nat) : State :=
  if r < s.cfg.submitRings then flushHeld r s.host.held.length s else s

/-! ### The host event ring (R555) -/

/-- The 32 bytes of an event entry (Table 22-8). -/
def eventEntry (e : Event) (lost : Bool) (phase : Nat) : List Byte :=
  leBytes 2 e.code ++ leBytes 1 (b2n lost + 128 * phase) ++ leBytes 5 0 ++ leBytes 8 e.tt ++ leBytes 16 e.detail

/-- The host event ring is full. -/
def State.evqFull (s : State) : Bool :=
  let len := 2 ^ s.get R.HP_EVQ_CFG_log2_len
  (s.get R.HP_EVQ_TAIL_tail + 1) % len == s.get R.HP_EVQ_HEAD_head % len

/-- HOST_EVENT_WRITE: the oldest event for the host is written to the ring, or dropped and counted (R472, R555). -/
def State.hostEvent (s : State) : State :=
  match s.ev.hostq with
  | [] => s
  | e :: rest =>
    if !s.controlDone || !s.flag R.HP_EVQ_CFG_en || s.islandHeld 52 then s
    else if s.evqFull then
      { s with ev := { s.ev with hostq := rest, lost := true } }.bump R.HP_EVQ_LOST_count
    else
      let len := 2 ^ s.get R.HP_EVQ_CFG_log2_len
      let tail := s.get R.HP_EVQ_TAIL_tail
      let ph := s.get R.HP_EVQ_TAIL_phase
      let addr := s.pair R.HP_EVQ_BASE_LO R.HP_EVQ_BASE_HI + 32 * (tail % len)
      let w : HostWrite := { item := .event, addr := addr, bytes := eventEntry e s.ev.lost ph, tt := s.tt }
      let ev := { s.ev with hostq := rest, lost := false }
      let s := { s with ev := ev, host := { s.host with writes := s.host.writes ++ [w] } }
      if len ≤ tail + 1 then (s.put R.HP_EVQ_TAIL_tail [] 0).put R.HP_EVQ_TAIL_phase [] (1 - ph)
      else s.put R.HP_EVQ_TAIL_tail [] (tail + 1)

/-! ### The answers of host memory (R556, R563) -/

/-- A write is acknowledged: its ring counts toward its vector (R556). -/
def State.hostAcked (s : State) (w : HostWrite) : State :=
  match w.item with
  | .record r => if s.flag R.HP_CQ_CFG_irq_en [r] then s.irqItem (s.get R.HP_CQ_CFG_vector [r]) else s
  | .event => if s.flag R.HP_EVQ_CFG_irq_en then s.irqItem (s.get R.HP_IRQ_MAP_evq_vec) else s

/-- A master error: the item is dropped and counted, and its ring stops (R563); cause 1 error, 2 timeout. The event ring
is ring 0xFFFF in the event (log 61). -/
def State.masterError (s : State) (w : HostWrite) (cause : Nat) : State :=
  let s := (s.bump R.HP_ERR_master_err).setPair R.HP_ERR_ADDR_LO R.HP_ERR_ADDR_HI [] w.addr
  let r := match w.item with | .record r => r | .event => 0xFFFF
  let s := match w.item with
    | .record r => (s.bump R.HP_CQ_LOST_count [r]).put R.HP_CQ_CFG_en [r] 0
    | .event => ({ s with ev := { s.ev with lost := true } }.bump R.HP_EVQ_LOST_count).put R.HP_EVQ_CFG_en [] 0
  s.postLim E.HP_MASTER_ERROR (4 * r + cause) none [(.ix, r), (.wide, w.addr), (.en, cause)]

/-- HOST_WRITE_RESPONSE: host memory answers the oldest write. -/
def State.hostAnswer (s : State) (err : Bool) : State :=
  match s.host.writes with
  | [] => s
  | w :: rest =>
    let s := { s with host := { s.host with writes := rest } }
    if err then s.masterError w 1 else s.hostAcked w

/-- HOST_WRITE_TIMEOUT: the oldest write has had no answer for 1 ms (R563). -/
def State.hostTimeout (s : State) : State :=
  match s.host.writes with
  | [] => s
  | w :: rest =>
    if s.tt < w.tt + 1000000 then s
    else { s with host := { s.host with writes := rest } }.masterError w 2

/-- IRQ_MODERATION_TIMEOUT: the oldest pending item of a vector has waited time_us (R556). -/
def State.irqTimeout (s : State) (v : Nat) : State :=
  match s.host.vec.get v [] with
  | [] => s
  | t :: _ =>
    if v < 32 ∧ t + 1000 * s.get R.HP_IRQ_MOD_time_us [v] ≤ s.tt then
      s.put R.HP_IRQ_STATUS_status [] (s.get R.HP_IRQ_STATUS_status ||| 2 ^ v)
    else s

/-- Writing 1 to a status bit clears it and restarts the count from the items that follow (R556). -/
def State.irqClear (s : State) (v : Nat) : State :=
  let keep := fun w => s.get w - (s.get w &&& v)
  let vec := s.host.vec.filterRows (fun k _ => !v.testBit k)
  let st := keep R.HP_IRQ_STATUS_status
  let raw := keep R.HP_IRQ_RAW_pending
  ({ s with host := { s.host with vec := vec } }.put R.HP_IRQ_STATUS_status [] st).put R.HP_IRQ_RAW_pending [] raw

/-! ### Ring configuration (R557) -/

/-- A refused write changes nothing and posts HP_CFG_REFUSED. -/
def State.hpRefused (s : State) (off : Nat) : State := s.postLim E.HP_CFG_REFUSED off none [(.val, off)]

/-- A ring length field lies in its range, 4 to 16. -/
def lenOk (v : Nat) : Bool := decide (4 ≤ bits v 4 0 ∧ bits v 4 0 ≤ 16)

/-- A write to a submission ring's base or length. -/
def State.sqWrite (s : State) (r : RegSpec) (ring v : Nat) (ok : Bool) : State :=
  if s.flag R.DS_RING_CTL_en [ring] || !ok then s.hpRefused (r.addr [ring])
  else s.setRegWord r [ring] (fieldsWrite (s.regWord r [ring]) v r.fields)

/-- A write of the _HI word of a ring's base. -/
def State.ringBase (s : State) (lo hi : RegSpec) (ix : List Nat) (en : Bool) (v : Nat) : State :=
  let vl := s.loHeld.get (lo.addr ix) (s.regWord lo ix)
  let new := vl + (v % 2 ^ 32) * 2 ^ 32
  if en && new != s.pair lo hi ix then s.hpRefused (hi.addr ix) else s.setPair lo hi ix new

/-- A write to the configuration word of a completion ring or of the event ring. -/
def State.ringCfg (s : State) (r : RegSpec) (ix : List Nat) (v : Nat) : State :=
  let old := s.regWord r ix
  if !lenOk v || (bit old 10 && bits old 4 0 != bits v 4 0) then s.hpRefused (r.addr ix)
  else s.setRegWord r ix (fieldsWrite old v r.fields)

/-- HP_RING_CONFIG_WRITE. -/
def State.ringWrite (s : State) (src : Src) (reg : RingReg) (ring v : Nat) : State :=
  if s.hostShut src then s.hostAbandon else if s.islandHeld 52 then s else
  match reg with
  | .evqBase => s.ringBase R.HP_EVQ_BASE_LO R.HP_EVQ_BASE_HI [] (s.flag R.HP_EVQ_CFG_en) v
  | .evqCfg => s.ringCfg R.HP_EVQ_CFG [] v
  | .sqBase => if ring < s.cfg.submitRings then s.sqWrite R.HP_SQ_BASE ring v true else s
  | .sqCfg => if ring < s.cfg.submitRings then s.sqWrite R.HP_SQ_CFG ring v (lenOk v) else s
  | .cqBase =>
    if ring < s.cfg.submitRings then
      s.ringBase R.HP_CQ_BASE_LO R.HP_CQ_BASE_HI [ring] (s.flag R.HP_CQ_CFG_en [ring]) v
    else s
  | .cqCfg => if ring < s.cfg.submitRings then s.ringCfg R.HP_CQ_CFG [ring] v else s

/-! ### The commands -/

/-- HELD_RECORD_FLUSH. -/
def execHeldRecordFlush (ring : Nat) (s : State) : Host.Outcome State Fault Refusal := .next (s.flush ring)

/-- HOST_EVENT_WRITE. -/
def execHostEventWrite (s : State) : Host.Outcome State Fault Refusal := .next s.hostEvent

/-- IRQ_MODERATION_TIMEOUT. -/
def execIrqModerationTimeout (vec : Nat) (s : State) : Host.Outcome State Fault Refusal := .next (s.irqTimeout vec)

/-- HOST_WRITE_RESPONSE. -/
def execHostWriteResponse (err : Bool) (s : State) : Host.Outcome State Fault Refusal := .next (s.hostAnswer err)

/-- HOST_WRITE_TIMEOUT. -/
def execHostWriteTimeout (s : State) : Host.Outcome State Fault Refusal := .next s.hostTimeout

/-- HP_RING_CONFIG_WRITE. -/
def execHpRingConfigWrite (src : Src) (reg : RingReg) (ring v : Nat) (s : State) : Host.Outcome State Fault Refusal :=
  .next (s.ringWrite src reg ring v)

end Sys2Proof.Machine
end

