-- ==== Sys2Proof/Machine/Cores.lean ====
section
/-! DEFINITION. Segments, sync counters and the watches (chapter 7). -/

namespace Sys2Proof.Machine

/-! ### Segments (R166 to R168) -/

/-- The free engine starts its best ready entry (R166). -/
def State.startSegment (s : State) (c e : Nat) : State :=
  let x := s.eng c e
  if !s.coreRuns c || s.flag R.CR_CORE_CTL_drain [c] || decide (s.cfg.engines ≤ e) || x.stopped || x.run.isSome then s
  else match bestDesc (x.queue.filter (s.entryReady c e)) with
    | none => s
    | some d =>
      let run : Running := { desc := d, start := s.tt, issue := none, pc := 0, wait := none, ended := false,
                             below := decide (s.get R.CR_CORE_STATUS_freq_mhz [c] < s.floorOf d.job), hung := false,
                             sent := none }
      let s := s.setEng c e ({ x with queue := x.queue.filter (fun q => q.order ≠ d.order),
                                      run := some run }.fresh d.batchAddr)
      let s := s.modJob d.job (fun j => { j with started := true, stall := none })
      match s.ds.jobs.get? d.job with
      | none => s
      | some j =>
        if j.lc then s
        else
          let r := j.group.ring
          { s with ds := { s.ds with credit := s.ds.credit.set r (s.ds.credit.get r 0 - 1),
                                     starve := s.ds.starve.set r (s.tt, false) } }

/-- The running segment ends and frees its engine (R167). -/
def State.endSegment (s : State) (c e : Nat) : State :=
  let x := s.eng c e
  match x.run with
  | none => s
  | some r =>
    if r.ended || decide (r.desc.codeLen ≤ r.pc) then
      (s.setEng c e { x with run := none, ending := x.ending ++ [(r.desc, x.nextW)] }).modJob r.desc.job
        (fun j => { j with busy := j.busy + (s.tt - r.start), stall := none })
    else s

/-- The oldest ended segment whose writes are acknowledged is reported complete (R167). -/
def State.completeSegment (s : State) (c e : Nat) : State :=
  let x := s.eng c e
  match x.ending with
  | [] => s
  | (d, mark) :: rest =>
    if x.outW.all (fun w => decide (mark ≤ w)) then
      ((s.setEng c e { x with ending := rest }).pcCount (pcEngBank c e) 8 0x03).segmentDone d.job
    else s

/-! ### Signals (R169, R182, R183) -/

/-- The job in an event's detail, where there is one (R179). -/
def jobField (j : Option Nat) : List (FK × Nat) := j.toList.map (fun t => (FK.num, t))

/-- A stray signal is dropped, posted and counted (R182): causes no window, not reserved, offline. -/
def State.stray (s : State) (g : Signal) (cause : Nat) : State :=
  let gone := decide (s.cfg.cores ≤ g.core) || s.coreHeld g.core
  let at_ := if gone then g.fromCore else g.core
  let s := if at_ < s.cfg.cores then s.bump R.CR_ERR_stray [at_] else s
  s.post E.SYNC_STRAY (some (engInst g.core g.fromEng)) (jobField g.owner ++ [(.num, g.ctr), (.en, cause)])

/-- The window that a signal was meant for is lent, or its static counter reserved. -/
def State.signalHome (s : State) (g : Signal) : Option Nat :=
  let k := s.core g.core
  match g.job with
  | some j =>
    if k.win.vals.any (fun w => w.job = j ∧ w.base ≤ g.ctr ∧ g.ctr < w.base + w.size) then none else some 1
  | none => if (k.statics.get? g.ctr).isSome then none else some 2

/-- Every write that the sender issued before a signal is acknowledged (R162). -/
def State.signalDue (s : State) (g : Signal) : Bool :=
  decide (s.cfg.cores ≤ g.fromCore) || (s.eng g.fromCore g.fromEng).outW.all (fun w => decide (g.after ≤ w))

/-- Firmware has written the signal's counter at this TT, with en 0 on a core that is present and not held: the signal is
applied after the write (R181). -/
def State.wroteNow (s : State) (g : Signal) : Bool :=
  decide (g.core < s.cfg.cores) && !s.coreHeld g.core && !s.flag R.CR_CORE_CTL_en [g.core]
  && (s.core g.core).wrote.get? g.ctr == some s.tt

/-- A signal reaches its counter, leaves for its chip, or is dropped (R169, R182, R183). -/
def State.applySignal (s : State) (g : Signal) : State :=
  match g.chip with
  | some h =>
    if s.cfg.quillPorts = 0 then
      s.post E.SIGNAL_NO_ROUTE (some (engInst g.fromCore g.fromEng)) (jobField g.owner ++ [(.num, h)])
    else
      let q : RemoteReq := { kind := 2, chip := h, addr := 0, len := 0, bytes := [], mst := g.fromCore, eng := g.fromEng,
                             id := 0, core := g.core, ctr := g.ctr, n := g.n, tt := s.tt, job := g.owner }
      { s with remote := s.remote ++ [q] }
  | none =>
    if !s.coreRuns g.core && !s.wroteNow g then s.stray g 3
    else match s.signalHome g with
      | some cause => s.stray g cause
      | none =>
        let s := s.setSync g.core g.ctr (s.sync g.core g.ctr + g.n)
        match g.job with
        | some j => s.modJob j (fun j => { j with stall := none })
        | none => s

/-- The k-th signal on its way is taken (R169). -/
def State.takeSignal (s : State) (k : Nat) : State :=
  match s.signals[k]? with
  | none => s
  | some g =>
    if s.signalDue g then
      (({ s with signals := s.signals.eraseIdx k }).applySignal g).reclaim g.core
    else s

/-! ### The watches (R175, R176) -/

/-- A tag of the engine belongs to an abandoned instruction (Table 23-5, flags [0]). -/
def State.abandonTag (s : State) (c e : Nat) : State :=
  let key := c * 8 + e
  match s.pc.tag.get? key with
  | some [j, g, p, o, t, f] => { s with pc := { s.pc with tag := s.pc.tag.set key [j, g, p, o, t, f ||| 1] } }
  | _ => s

/-- The watchdog of a segment that has not ended reaches 20 µs (R175). -/
def State.watchDue (s : State) (r : Running) : Bool := !r.ended && decide (r.issue.getD r.start + 20000 ≤ s.tt)

/-- A segment of a cancelled job leaves its engine at its watchdog; its group keeps its status (R175). -/
def State.endCancelled (s : State) (c e t : Nat) : State :=
  ((s.dropRun c e).modJob t (fun j => { j with inFlight := j.inFlight - 1 })).jobCheck t

/-- SEG_WATCHDOG (R175): cause overrun 1, below_floor 2, hung_access 3. With a cancel at the same TT no event is posted
(R181). -/
def State.watchdog (s : State) (c e : Nat) (hung : Bool) : State :=
  let x := s.eng c e
  match x.run with
  | none => s
  | some r =>
    if !s.watchDue r then s
    else if (s.ds.jobs.get? r.desc.job).any (fun j => j.cancelled && j.cancelTt == s.tt) then s.endCancelled c e r.desc.job
    else
      let hung := hung || !x.asked.isEmpty || r.sent.isSome
      let cause := if r.below then 2 else if hung then 3 else 1
      let s := (s.bump R.CR_ERR_watchdog [c]).pcCount (pcEngBank c e) 8 0x07
      let s := s.post E.SEG_WATCHDOG (some (engInst c e)) [(.num, r.desc.job), (.val, r.desc.segId), (.en, cause)]
      let s := s.abandonTag c e
      let s := s.setEng c e { s.eng c e with stopped := hung }
      match s.ds.jobs.get? r.desc.job with
      | some j =>
        if j.cancelled then s.endCancelled c e r.desc.job
        else s.faultRun c e E.SEG_WATCHDOG
      | none => s.dropRun c e

/-- The queued entries of a job: core, engine and descriptor. -/
def State.queuedOf (s : State) (t : Nat) : List (Nat × Nat × Desc) :=
  s.cores.cells.flatMap (fun k => k.2.eng.cells.flatMap (fun x =>
    (x.2.queue.filter (fun d => d.job = t)).map (fun d => (k.1, x.1, d))))

/-- The job has a running segment. -/
def State.isRunning (s : State) (t : Nat) : Bool :=
  (s.cores.vals.flatMap (fun k => k.eng.vals)).any (fun x => match x.run with
    | some r => r.desc.job == t
    | none => false)

/-- An entry is held by an unsatisfied wait: its own, or that of an earlier entry of its job on its engine (log 37). -/
def State.heldByWait (s : State) (x : Nat × Nat × Desc) : Bool :=
  ((s.queuedOf x.2.2.job).filter (fun y => y.1 = x.1 ∧ y.2.1 = x.2.1 ∧ y.2.2.order ≤ x.2.2.order)).any (fun y =>
    y.2.2.hasWait && !waitMet (s.sync y.1 (y.2.2.waitCounter y.2.2.waitStatic y.2.2.waitCtr)) y.2.2.waitVal)

/-- The four conditions of the stall watch hold (R176). -/
def State.stalled (s : State) (t : Nat) : Bool :=
  let q := s.queuedOf t
  !q.isEmpty && !s.isRunning t && q.all s.heldByWait
  && !s.signals.any (fun g => g.job = some t)
  && !q.any (fun x => x.2.2.hasWait && x.2.2.waitStatic)

/-- Each tick the stall watch starts or resets its count of every job (R176). -/
def State.stallTick (s : State) : State :=
  { s with ds := { s.ds with jobs := s.ds.jobs.mapVals (fun t j =>
      { j with stall := if s.stalled t && !j.frozen then (match j.stall with
                  | some a => some a
                  | none => some s.tt) else none }) } }

/-- JOB_DEADLOCK (R176): the job freezes; the event gives the counters waited on, each as core and counter: those of the
entry waits that are not satisfied. -/
def State.freeze (s : State) (t : Nat) : State :=
  let ctrs := (s.queuedOf t).filterMap (fun x =>
    let ctr := x.2.2.waitCounter x.2.2.waitStatic x.2.2.waitCtr
    if x.2.2.hasWait && !waitMet (s.sync x.1 ctr) x.2.2.waitVal then some (FK.num, x.1 * 256 + ctr) else none)
  let s := match s.ds.jobs.get? t with
    | some j => s.stepEnded j.group stFault
    | none => s
  (s.modJob t (fun j => { j with frozen := true, frozenTt := s.tt })).post E.JOB_DEADLOCK none ((.num, t) :: ctrs)

/-! ### Commands -/

/-- SEGMENT_START. -/
def execSegmentStart (c e : Nat) (s : State) : Host.Outcome State Fault Refusal := .next (s.startSegment c e)

/-- SEGMENT_END. -/
def execSegmentEnd (c e : Nat) (s : State) : Host.Outcome State Fault Refusal := .next (s.endSegment c e)

/-- SEGMENT_COMPLETE. -/
def execSegmentComplete (c e : Nat) (s : State) : Host.Outcome State Fault Refusal := .next (s.completeSegment c e)

/-- SYNC_SIGNAL_APPLY. -/
def execSyncSignalApply (k : Nat) (s : State) : Host.Outcome State Fault Refusal := .next (s.takeSignal k)

/-- STALL_WATCH_EXPIRY: 65,536 fabric cycles of 1 ns have passed with every condition holding (R176). -/
def execStallWatchExpiry (t : Nat) (s : State) : Host.Outcome State Fault Refusal :=
  .next (match s.ds.jobs.get? t with
    | none => s
    | some j => match j.stall with
      | none => s
      | some a => if s.stalled t && !j.frozen && decide (a + 65536 ≤ s.tt) then s.freeze t else s)

/-- The ended segment that issued what an error answers: that of write `id`, or with no number, and no segment running, the
oldest. -/
def Engine.endedOf (x : Engine) (id : Option Nat) : Option (Desc × Nat) :=
  match id with
  | some w => x.ending.find? (fun d => decide (w < d.2))
  | none => if x.run.isSome then none else x.ending.head?

/-- An error response to an LE read or SE write (R338), `id` the number of a write: the instruction that issued it raises
FABRIC_ERROR at its own pc (R210); of a segment that has ended but is not yet complete, the job faults likewise. A write of
an instruction that was abandoned has no effect: its job is already faulted. -/
def State.fabricError (s : State) (c e : Nat) (id : Option Nat) : State :=
  let x := s.eng c e
  if e ≠ 1 ∧ e ≠ 2 then s
  else match x.endedOf id with
    | some d =>
      let s := s.setEng c e { x with ending := x.ending.erase d }
      let s := s.post E.ENGINE_EXCEPTION (some (engInst c e))
        [(.num, d.1.job), (.num, exFabric), (.val, s.get R.CR_ENG_PC_pc [c, e])]
      (s.modJob d.1.job (fun j => { j with inFlight := j.inFlight - 1 })).faultJob d.1.job E.ENGINE_EXCEPTION
    | none =>
      let mine := match id, x.run.bind (·.sent) with
        | none, _ => true
        | some w, some q => decide (q.2 ≤ w)
        | some _, none => false
      if mine then s.exception c e exFabric else s

/-- ENGINE_FABRIC_ERROR. -/
def execEngineFabricError (c e : Nat) (s : State) : Host.Outcome State Fault Refusal := .next (s.fabricError c e none)

end Sys2Proof.Machine
end

