-- ==== Sys2Proof/Machine/Fabric.lean ====
section
/-! DEFINITION. The fabric, the Hoard and the Burrow ports (chapter 13): transactions, arbitration, ECC, scrubbing, port
resets and start-up. A fabric cycle is 1 ns. -/

namespace Sys2Proof.Machine

/-! ### Ids (Table 13-3) -/

def tgtBoot : Nat := 0x00
def tgtReg : Nat := 0x01
def tgtScratch (n : Nat) : Nat := 0x02 + n
def tgtHoard (b : Nat) : Nat := 0x22 + b
def tgtBurrow (p : Nat) : Nat := 0x62 + p
def tgtQuill : Nat := 0x6A

/-- The configuration has a master id. -/
def State.masterExists (s : State) (m : Nat) : Bool := hasMaster s.cfg m

/-- The configuration has a target id that a port reset can name. -/
def State.targetExists (s : State) (t : Nat) : Bool := hasTarget s.cfg t

/-- The target of a 64-byte block (R317, R325). -/
def State.blockTarget (s : State) (b : Nat) : Nat :=
  match s.region (64 * b) with
  | .bootRom | .sram => tgtBoot
  | .regSpace => tgtReg
  | .scratch c => tgtScratch c
  | .hoard => tgtHoard ((64 * b - hoardBase) / 64 % 64)
  | .burrow p => tgtBurrow p
  | .unmapped => 0x7F

/-- A block lies in the scratch of a held core (R49). -/
def State.scratchHeld (s : State) (b : Nat) : Bool :=
  match s.region (64 * b) with
  | .scratch c => s.heldIsl.contains c
  | _ => false

/-- The QoS of engine `e` of core `c`: the qos field of the descriptor of the segment that it runs, or whose writes it has
still to see acknowledged (R163). -/
def State.engQos (s : State) (c e : Nat) : Nat :=
  match (s.eng c e).run, (s.eng c e).ending with
  | some r, _ => r.desc.qos % 16
  | none, x :: _ => x.1.qos % 16
  | none, [] => 0

/-- The QoS of a master (Table 13-3); `e` names the engine that a core's access comes from (R163). -/
def State.masterQos (s : State) (m e : Nat) : Nat :=
  if m < 0x20 then s.engQos m e
  else if m < 0x28 then s.get R.PP_GLOBAL_qos [m - 0x20]
  else if m = 0x28 then s.get R.PP_DEC_QOS_qos
  else s.get R.FB_MST_QOS_qos [m]

/-! ### Tables -/

def State.setTxns (s : State) (l : List FabTxn) : State := { s with fab := { s.fab with txns := l } }

/-- Transactions of one port: a core's read and write ports are two (R319). -/
def FabTxn.samePort (t : FabTxn) (m : Nat) (w : Bool) : Bool := t.mst == m && (decide (0x20 ≤ m) || t.write == w)

/-- FB_PORT_STATUS of a master, from its transactions. -/
def State.showPort (s : State) (m : Nat) : State :=
  let l := s.fab.txns.filter (fun t => t.mst = m)
  if !s.masterExists m then s
  else
    ((s.put R.FB_PORT_STATUS_outstanding [m] (min 64 (l.filter (fun t => !t.waits)).length)).put
      R.FB_PORT_STATUS_hung [m] (b2n (l.any (·.hung)))).put R.FB_PORT_STATUS_in_reset [m] (b2n (s.fab.mrst.get? m).isSome)

/-- FB_BRW_STATUS of a port, from its transactions. -/
def State.showBurrow (s : State) (p : Nat) : State :=
  if s.cfg.burrowPorts ≤ p then s
  else
    let n := (s.fab.txns.filter (fun t => t.tag.isSome && t.left.any (fun b => s.blockTarget b == tgtBurrow p))).length
    (s.put R.FB_BRW_STATUS_outstanding [p] n).put R.FB_BRW_STATUS_in_reset [p] (b2n (s.fab.trst.get? (tgtBurrow p)).isSome)

/-- A transaction is answered: it leaves its port, and the master's response stands. A response to a port in reset is
discarded (R332). -/
def State.answer (s : State) (t : FabTxn) (err : Bool) (bytes : List Byte) : State :=
  let s := s.setTxns (s.fab.txns.filter (fun x => x.n ≠ t.n))
  let a : FabAns := { n := t.n, write := t.write, err := err, bytes := bytes }
  let s := if t.dead then s else { s with fab := { s.fab with answers := s.fab.answers.set t.mst a } }
  s.showPort t.mst

/-- The bytes of a read, in address order. -/
def FabTxn.readBytes (t : FabTxn) : List Byte := (t.got.vals.flatMap id)

/-- A beat at block `b` is done: the transaction is answered once every beat is. -/
def State.beatDone (s : State) (t : FabTxn) (b : Nat) (bytes : List Byte) (err : Bool) : State :=
  let t := { t with left := t.left.filter (· ≠ b), got := if t.write then t.got else t.got.set b bytes, err := t.err || err }
  if t.left.isEmpty then s.answer t t.err (if t.err then [] else t.readBytes)
  else s.setTxns (s.fab.txns.map (fun x => if x.n = t.n then t else x))

/-! ### Presenting a transaction (R317 to R320, R331) -/

/-- Blocks of `n` bytes at `a`. -/
def blocksOf (a n : Nat) : List Nat := (List.range ((a + n - 1) / 64 - a / 64 + 1)).map (fun i => a / 64 + i)

/-- R320: 1 to 16 beats, inside 4 KiB. -/
def txnShape (a n : Nat) : Bool :=
  decide (0 < n ∧ (a + n - 1) / 64 - a / 64 < 16 ∧ a / 4096 = (a + n - 1) / 4096)

/-- The unmapped-access monitor (R331). -/
def State.unmapped (s : State) (m a : Nat) (wr : Bool) : State :=
  let s := (s.put R.FB_UNMAPPED_ADDR_LO_addr [] (a % 2 ^ 32)).put R.FB_UNMAPPED_ADDR_HI_addr [] (a / 2 ^ 32 % 256)
  let s := ((s.put R.FB_UNMAPPED_INFO_master [] m).put R.FB_UNMAPPED_INFO_write [] (b2n wr)).bump R.FB_UNMAPPED_INFO_count
  (s.put R.FB_UNMAPPED_INFO_valid [] 1).postLim E.UNMAPPED_ACCESS m none [(.ix, m), (.wide, a), (.en, b2n wr)]

/-- R322: the effective QoS of a waiting request. -/
def State.effQos (s : State) (t : FabTxn) : Nat := min 15 (t.qos + (s.tt - t.tt) / max 1 (s.get R.FB_ARB_age_step))

/-- R322: `a` goes before `b`. -/
def State.goesFirst (s : State) (a b : FabTxn) : Bool :=
  let x := s.effQos a
  let y := s.effQos b
  decide (y < x ∨ (x = y ∧ (a.tt < b.tt ∨ (a.tt = b.tt ∧ (a.mst < b.mst ∨ (a.mst = b.mst ∧ a.n < b.n))))))

/-- The first of a list under R322. -/
def State.bestTxn (s : State) : List FabTxn → Option FabTxn
  | [] => none
  | t :: l => match s.bestTxn l with
    | none => some t
    | some u => some (if s.goesFirst u t then u else t)

/-- Only the oldest of each port competes (R322): `p` picks the requests of one target. -/
def State.competing (s : State) (p : FabTxn → Bool) : List FabTxn :=
  let l := s.fab.txns.filter (fun t => p t && !t.hung && !t.waits)
  l.filter (fun t => !l.any (fun u => u.n < t.n && u.samePort t.mst t.write))

/-- Blocks of two transactions overlap where one is a write (R327). -/
def FabTxn.conflicts (t u : FabTxn) : Bool := (t.write || u.write) && t.left.any (fun b => u.left.contains b)

/-- Send to the memory of a Burrow port what its tags and R327 allow, in the order of R322. -/
def State.burrowPump (s : State) (p : Nat) : Nat → State
  | 0 => s
  | n + 1 =>
    let here := fun (t : FabTxn) => t.left.any (fun b => s.blockTarget b == tgtBurrow p)
    let live := s.fab.txns.filter (fun t => t.tag.isSome && here t)
    let wait := s.competing (fun t => t.tag.isNone && here t)
    match (s.bestTxn (wait.filter (fun t => !live.any (fun u => u.conflicts t)))),
        ((List.range 256).find? (fun g => !live.any (fun u => u.tag == some g))) with
    | some t, some g =>
      let s := s.pcCount (pcFabBank (tgtBurrow p)) 4 (if t.write then 0x02 else 0x01)
      (s.setTxns (s.fab.txns.map (fun x => if x.n = t.n then { x with tag := some g, sent := s.tt } else x))).burrowPump p n
    | _, _ => s

/-- A transaction enters its master port. -/
def State.enterTxn (s : State) (t : FabTxn) : State :=
  (({ s with fab := { s.fab with next := s.fab.next + 1 } }).setTxns (s.fab.txns ++ [t])).showPort t.mst

/-- FABRIC_TRANSACTION: a master presents an access; `word` is an address word (R45, R319), and `e` the engine of a
core's access (R163). -/
def State.present (s : State) (m : Nat) (wr : Bool) (word len e : Nat) (data : List (Option Byte)) : State :=
  let a := word % 2 ^ 40
  let len := if wr then data.length else len
  let chip := if bit word 63 && bits word 51 40 != s.chipNo then some (bits word 51 40) else none
  let mine := s.fab.txns.filter (fun t => t.samePort m wr)
  let t : FabTxn :=
    { n := s.fab.next, mst := m, write := wr, addr := a, len := len, chip := chip, data := data, qos := s.masterQos m e,
      tt := s.tt, left := blocksOf a len, got := Tbl.empty, err := false, tag := none, sent := 0, hung := false,
      waits := mine.any (fun x => x.hung || x.waits), dead := false, remap := false }
  if s.islandHeld 52 || !s.masterExists m || !txnShape a len || decide (64 ≤ (mine.filter (fun x => !x.waits)).length) && !t.waits then s
  else if (s.fab.mrst.get? m).isSome then
    if chip.isNone && s.region a == .unmapped then s.unmapped m a wr else s
  else if m == 0x2A && !s.controlDone && (wr || !(decide (regBase ≤ a) && decide (a + len ≤ regBase + 0x14))) then
    (s.hostAbandon.enterTxn t).answer t true []
  else if t.waits then s.enterTxn t
  else if chip.isSome then
    if s.cfg.quillPorts = 0 ∨ !s.flag R.QM_CTL_en ∨ (s.fab.trst.get? tgtQuill).isSome then (s.enterTxn t).answer t true []
    else
      let q : RemoteReq :=
        { kind := if wr then 0 else 1, chip := chip.getD 0, addr := a, len := len,
          bytes := data.map (fun b => b.getD 0#8), mst := m, eng := if m < 0x20 then 0xFF else 0, id := t.n, core := 0, ctr := 0, n := 0, tt := s.tt }
      let s := s.enterTxn t
      { s with remote := s.remote ++ [q] }
  else if t.left.any (fun b => s.blockTarget b == 0x7F) then
    (s.enterTxn { t with hung := true }).unmapped m a wr
  else match (if guardedMaster m then s.audGuard a len else none) with
    | some k => ((s.audDenied k m a).enterTxn t).answer t true []
    | none =>
      if t.left.any (fun b => (s.fab.trst.get? (s.blockTarget b)).isSome || s.scratchHeld b) then (s.enterTxn t).answer t true []
      else
        let boot := t.left.any (fun b => s.blockTarget b == tgtBoot)
        let s := s.enterTxn { t with remap := boot && s.fab.remap.isSome }
        match s.region a with
        | .burrow p => (s.burrowPump p 1).showBurrow p
        | _ => s

/-! ### Serving a target (R321, R322, R326) -/

/-- A REMAP write applies once no earlier boot-memory access is outstanding (Table 13-10). -/
def State.remapSettle (s : State) : State :=
  match s.fab.remap with
  | none => s
  | some v =>
    let boot := fun (t : FabTxn) => t.left.any (fun b => s.blockTarget b == tgtBoot)
    if s.fab.txns.any (fun t => boot t && !t.remap && !t.waits && !t.hung && t.chip.isNone) then s
    else
      let s := s.put R.FB_REMAP_remap [] v
      { s with fab := { s.fab with remap := none, txns := s.fab.txns.map (fun t => { t with remap := false }) } }

/-- What target `g` grants next: the transaction and the block of its beat. Hoard accesses wait for the zeros of R339. -/
def State.granted (s : State) (g : Nat) : Option (FabTxn × Nat) :=
  if decide (0x22 ≤ g ∧ g < 0x62) && !s.fab.ready || decide (0x62 ≤ g) then none
  else
    match s.bestTxn (s.competing (fun t => t.chip.isNone && !t.remap && t.left.any (fun b => s.blockTarget b == g))) with
    | none => none
    | some t => (t.left.find? (fun b => s.blockTarget b == g)).map (fun b => (t, b))

/-- The bytes of a write that fall into block `b`, from its first address. -/
def FabTxn.blockData (t : FabTxn) (b : Nat) : List (Option Byte) :=
  (List.range 64).map (fun i => if 64 * b + i < t.addr then none else (t.data[64 * b + i - t.addr]?).getD none)

/-- 64-bit words of a block whose byte enables are partly on. -/
def partialWords (l : List (Option Byte)) : List Nat :=
  (List.range 8).filter (fun k =>
    let w := (l.drop (8 * k)).take 8
    w.any Option.isSome && w.any Option.isNone)

/-- Write the enabled bytes of one 64-bit word. -/
def State.writeWord (s : State) (a : Nat) (l : List (Option Byte)) : State :=
  if l.all Option.isSome then s.writeMem a (l.map (fun b => b.getD 0#8))
  else foldS (List.range 8) (fun i s => match (l[i]?).getD none with
    | some v => s.writeMem (a + i) [v]
    | none => s) s

/-- A master write to block `b` cancels what waits to be written back there (R326, R330). -/
def State.cancelBack (s : State) (b : Nat) (words : List Nat) : State :=
  { s with fab := { s.fab with
      wback := s.fab.wback.filterRows (fun _ w => !(words.contains w))
      rewrites := s.fab.rewrites.mapVals (fun _ l => l.filter (· ≠ b)) } }

/-- Register space, as its accesses are served: a write of a word, and a read. -/
structure RegPort where
  wr : State → Nat → Nat → Nat → State
  rd : State → Nat → Nat → Nat × State

/-- WRITE_ACKNOWLEDGEMENT: target `g` commits the write beat that it grants; `bad` names words (0 to 7) of the block whose
merging read meets an uncorrectable error. -/
def State.commitBeat (s : State) (rp : RegPort) (g : Nat) (bad : List Nat) : State :=
  match s.granted g with
  | none => s
  | some (t, b) =>
    if !t.write then s
    else if t.dead then (s.beatDone t b [] false).remapSettle
    else
      let l := t.blockData b
      let word := fun k => (l.drop (8 * k)).take 8
      let touched := (List.range 8).filter (fun k => (word k).any Option.isSome)
      let broken := (partialWords l).filter (fun k => bad.contains k || s.badWords.contains (8 * b + k))
      let s := if g = tgtReg then
          foldS ((List.range 16).filter (fun k => ((l.drop (4 * k)).take 4).all Option.isSome)) (fun k s =>
            rp.wr s t.mst (64 * b + 4 * k - regBase) (leVal (((l.drop (4 * k)).take 4).map (fun x => x.getD 0#8)))) s
        else
          let s := foldS broken (fun k s => s.eccBad (64 * b + 8 * k) 2) s
          let ok := touched.filter (fun k => !broken.contains k)
          (foldS ok (fun k s => s.writeWord (64 * b + 8 * k) (word k)) s).cancelBack b (ok.map (8 * b + ·))
      ((s.beatDone t b [] (!broken.isEmpty)).pcCount (pcFabBank g) 4 0x02).remapSettle

/-- READ_RESPONSE: target `g` serves the read beat that it grants; `fixed` and `bad` name words of the block that are
correctable and newly uncorrectable; a word of `fixed` that the beat does not read is met by a later read (log 93). -/
def State.readBeat (s : State) (rp : RegPort) (g : Nat) (fixed bad : List Nat) : State :=
  match s.granted g with
  | none => s
  | some (t, b) =>
    let lo := max t.addr (64 * b)
    let hi := min (t.addr + t.len) (64 * b + 64)
    if t.write then s
    else if t.dead then (s.beatDone t b [] false).remapSettle
    else if g = tgtReg then
      let r := (List.range ((hi - lo + 3) / 4)).foldl (fun (a : List Byte × State) k =>
        let q := rp.rd a.2 t.mst (lo + 4 * k - regBase)
        (a.1 ++ leBytes 4 q.1, q.2)) (([] : List Byte), s)
      ((r.2.beatDone t b (r.1.take (hi - lo)) false).pcCount (pcFabBank g) 4 0x01).remapSettle
    else
      let words := (List.range 8).filter (fun k => decide (lo < 64 * b + 8 * k + 8 ∧ 64 * b + 8 * k < hi))
      let broken := words.filter (fun k => bad.contains k || s.badWords.contains (8 * b + k))
      let good := words.filter (fun k => (fixed.contains k || s.softWord (8 * b + k)) && !broken.contains k)
      let later := (List.range 8).filter (fun k => fixed.contains k && !words.contains k && !s.badWords.contains (8 * b + k))
      let bytes := s.readMem lo (hi - lo)
      let s := foldS good (fun k s => s.eccFixed (64 * b + 8 * k)) s
      let s := foldS later (fun k s => s.markSoft (8 * b + k)) s
      let s := foldS broken (fun k s => s.eccBad (64 * b + 8 * k) 1) s
      ((s.beatDone t b bytes (!broken.isEmpty)).pcCount (pcFabBank g) 4 0x01).remapSettle

/-- HOARD_ECC_WRITEBACK: the bank grants no beat, and the corrected word is written (R326). -/
def State.writeBack (s : State) (bank : Nat) : State :=
  if (s.granted (tgtHoard bank)).isSome then s
  else { s with fab := { s.fab with wback := s.fab.wback.del bank } }

/-! ### Burrow ports (R327 to R329, R333, R337) -/

/-- The transaction that holds a tag of a port. -/
def State.tagged (s : State) (p tag : Nat) (wr : Bool) : Option FabTxn :=
  s.fab.txns.find? (fun t => t.tag == some tag && t.write == wr && t.left.any (fun b => s.blockTarget b == tgtBurrow p))

/-- An answer with resp 2 or 3 (R328); a block number counts 64 bytes within the port. -/
def State.burrowErr (s : State) (p b resp : Nat) : State :=
  let blk := (64 * b) % burrowBase / 64
  let s := ((s.bump R.FB_BRW_ERR_uncorrected [p]).put R.FB_BRW_ECC_ADDR_LO_block [p] (blk % 2 ^ 32)).put
    R.FB_BRW_ECC_ADDR_HI_block [p] (blk / 2 ^ 32)
  s.postLim (if resp = 2 then E.BURROW_ECC else E.BURROW_ERROR) resp (some p) [(.wide, blk), (.en, resp)]

/-- Every beat of a Burrow transaction is done. -/
def State.burrowDone (s : State) (p : Nat) (t : FabTxn) (err : Bool) : State :=
  let bytes := if t.write ∨ err then [] else s.readMem t.addr t.len
  ((s.answer t err bytes).burrowPump p 256).showBurrow p

/-- BURROW_READ_DATA: the memory answers a read tag. -/
def State.burrowRead (s : State) (p tag resp : Nat) : State :=
  match s.tagged p tag false with
  | none => s
  | some t =>
    let b := t.addr / 64
    if t.dead then s.burrowDone p t false
    else if 2 ≤ resp then (s.burrowErr p b resp).burrowDone p t true
    else
      let s := if resp = 1 then
          let s := s.bump R.FB_BRW_ERR_corrected [p]
          { s with fab := { s.fab with rewrites := s.fab.rewrites.set p (s.fab.rewrites.get p [] ++ t.left) } }
        else s
      s.burrowDone p t false

/-- BURROW_WRITE_ACK: the memory acknowledges a write tag; its bytes are committed with resp 0 or 1. -/
def State.burrowAck (s : State) (p tag resp : Nat) : State :=
  match s.tagged p tag true with
  | none => s
  | some t =>
    if t.dead then s.burrowDone p t false
    else if 2 ≤ resp then (s.burrowErr p (t.addr / 64) resp).burrowDone p t true
    else
      let s := foldS t.left (fun b s =>
        (foldS (List.range 8) (fun k s => s.writeWord (64 * b + 8 * k) (((t.blockData b).drop (8 * k)).take 8)) s).cancelBack
          b []) s
      s.burrowDone p t false

/-- BURROW_CORRECTED_REWRITE: in a free cycle of the port the oldest pending block is rewritten with its data (R328). -/
def State.burrowRewrite (s : State) (p : Nat) : State :=
  { s with fab := { s.fab with rewrites := s.fab.rewrites.set p ((s.fab.rewrites.get p []).drop 1) } }

/-- BURROW_PHY_READY: the status signals of a port change. -/
def State.phyReady (s : State) (p : Nat) (ready : Bool) (size : Nat) : State :=
  if s.cfg.burrowPorts ≤ p then s
  else (s.put R.FB_BRW_STATUS_phy_ready [p] (b2n ready)).put R.FB_BRW_STATUS_size_in [p] size

/-- FB_BRW_CFG is refused whole (R329). -/
def State.brwCfgCheck (s : State) (p old new : Nat) (init : Bool) : Option Nat :=
  let ready := s.flag R.FB_BRW_STATUS_phy_ready [p]
  let busy := s.flag R.FB_BRW_STATUS_init_busy [p]
  let isOpen := bit old 8
  let size := bits new 6 0
  if !isOpen && bit new 8 && (!ready || size == 0 || decide (s.get R.FB_BRW_STATUS_size_in [p] < size) || busy || init) then
    some causeBlock
  else if isOpen && size != bits old 6 0 then some causeBlock
  else if init && (isOpen || bit new 8 || !ready || size == 0 || busy) then some causeBlock
  else none

/-- FB_CFG_REFUSED for a register. -/
def State.fabRefused (s : State) (off : Nat) : State := s.postLim E.FB_CFG_REFUSED off none [(.val, off)]

/-- A write to FB_BRW_CFG: size first, then the fill or the window; 0 to open is ignored. -/
def State.brwCfgWrite (s : State) (src : Src) (p v : Nat) : State :=
  if s.cfg.burrowPorts ≤ p then s
  else
    let old := s.regWord R.FB_BRW_CFG [p]
    let eff := if bit old 8 then v ||| 2 ^ 8 else v
    let init := bit v 9
    s.paramWriteEff src R.FB_BRW_CFG [p] v eff (anyOutOfRange v R.FB_BRW_CFG.fields)
      (fun s old new => s.brwCfgCheck p old new init) (fun s => s.fabRefused (R.FB_BRW_CFG.addr [p]))
      (fun s old new =>
        let s := if !bit old 8 ∧ bit new 8 then
            { s with fab := { s.fab with scrub := s.fab.scrub.set (1 + p) { pos := 0, start := s.tt, behind := false } } }
          else s
        if init then
          { s with fab := { s.fab with fill := s.fab.fill.set p s.tt } }.put R.FB_BRW_STATUS_init_busy [p] 1
        else s)

/-- BURROW_FILL_DONE: zeros stand over size GiB, at most 64 GB/s after the start (R329). -/
def State.fillDone (s : State) (p : Nat) : State :=
  match s.fab.fill.get? p with
  | none => s
  | some t =>
    let n := s.get R.FB_BRW_CFG_size [p] * 2 ^ 30
    if s.tt < t + n / 64 then s
    else
      let a := burrowBase * (1 + p)
      { s with mem := s.mem.zero a n, fab := { s.fab with fill := s.fab.fill.del p } }.put R.FB_BRW_STATUS_init_busy [p] 0

/-- BURROW_STALL_TIMEOUT: a tag unanswered for 65,536 cycles (R337). -/
def State.burrowStall (s : State) (p : Nat) : State :=
  let late := s.fab.txns.filter (fun t => t.tag.isSome && decide (t.sent + 65536 ≤ s.tt)
    && t.left.any (fun b => s.blockTarget b == tgtBurrow p))
  match late with
  | [] => s
  | t :: l =>
    let o := l.foldl (fun a u => if u.sent < a.sent then u else a) t
    if s.flag R.FB_BRW_STATUS_stalled [p] then s
    else (s.put R.FB_BRW_STATUS_stalled [p] 1).postLim E.BURROW_STALL 0 (some p) [(.num, o.tag.getD 0)]

/-- BURROW_RECOVERY_TIMEOUT: a reset port whose phy_ready has stayed away for 100 ms (R333). -/
def State.burrowDownPost (s : State) (p : Nat) : State :=
  match s.fab.trst.get? (tgtBurrow p) with
  | none => s
  | some r =>
    if r.down || s.flag R.FB_BRW_STATUS_phy_ready [p] || decide (s.tt < r.tt + 100000000) then s
    else { s with fab := { s.fab with trst := s.fab.trst.set (tgtBurrow p) { r with down := true } } }.postLim E.BURROW_DOWN 0
      (some p) []

/-! ### The scrubber (R330) -/

/-- Blocks and period (ns) of a pass: 0 the Hoard, 1 + p Burrow port p. -/
def State.scrubSpan (s : State) (k : Nat) : Nat × Nat :=
  if k = 0 then (s.cfg.hoardBytes / 64, s.get R.FB_SCRUB_hoard_s * 1000000000)
  else (s.burrowBytes (k - 1) / 64, s.get R.FB_SCRUB_burrow_s * 1000000000)

/-- The address of block `i` of a pass. -/
def scrubAddr (k i : Nat) : Nat := (if k = 0 then hoardBase else burrowBase * k) + 64 * i

/-- SCRUB_READ: the next block, once its time has come; `fixed` and `bad` as for a read, or the resp of a Burrow port. -/
def State.scrubRead (s : State) (k : Nat) (fixed bad : List Nat) (resp : Nat) : State :=
  let x := s.fab.scrub.get k { pos := 0, start := 0, behind := false }
  let n := (s.scrubSpan k).1
  if n = 0 ∨ s.islandHeld 52 ∨ (k = 0 ∧ !s.fab.ready) ∨ s.tt < x.start + x.pos * (s.scrubSpan k).2 / n then s
  else
    let a := scrubAddr k x.pos
    let s := if k = 0 then
        let broken := (List.range 8).filter (fun j => bad.contains j || s.badWords.contains (a / 8 + j))
        let good := (List.range 8).filter (fun j => (fixed.contains j || s.softWord (a / 8 + j)) && !broken.contains j)
        let s := foldS good (fun j s => s.eccFixed (a + 8 * j)) s
        foldS broken (fun j s => s.eccBad (a + 8 * j) 3) s
      else if resp = 1 then
        let s := s.bump R.FB_BRW_ERR_corrected [k - 1]
        { s with fab := { s.fab with rewrites := s.fab.rewrites.set (k - 1) (s.fab.rewrites.get (k - 1) [] ++ [a / 64]) } }
      else if 2 ≤ resp then s.burrowErr (k - 1) (a / 64) resp
      else s
    if x.pos + 1 < n then { s with fab := { s.fab with scrub := s.fab.scrub.set k { x with pos := x.pos + 1 } } }
    else
      let s := { s with fab := { s.fab with scrub := s.fab.scrub.set k { pos := 0, start := s.tt, behind := false } } }
      let f := if k = 0 then R.FB_SCRUB_STATUS_hoard_passes else R.FB_SCRUB_STATUS_burrow_passes
      s.put f [] ((s.get f + 1) % 2 ^ 16)

/-- SCRUB_BEHIND: a pass not finished within twice its period. -/
def State.scrubLate (s : State) (k : Nat) : State :=
  let x := s.fab.scrub.get k { pos := 0, start := 0, behind := false }
  if (s.scrubSpan k).1 = 0 ∨ s.islandHeld 52 ∨ x.behind ∨ s.tt < x.start + 2 * (s.scrubSpan k).2 then s
  else { s with fab := { s.fab with scrub := s.fab.scrub.set k { x with behind := true } } }.postLim E.SCRUB_BEHIND k (some k)
    [(.val, (s.tt - x.start) / 1000000000)]

/-! ### Port resets (R332, R333, R340) -/

/-- The accesses that a master port's reset abandons at once reach their requesters as errors: a host access is counted
(R564), an engine faults (R338). -/
def State.abandonFor (s : State) (m n : Nat) : State :=
  if m = 0x2A then foldS (List.range n) (fun _ s => s.hostAbandon) s
  else if m < 0x20 then
    foldS [1, 2] (fun e s =>
      let x := s.eng m e
      let lost := !x.asked.isEmpty || x.run.any (fun r => r.sent.isSome) || (x.run.isNone && !x.outW.isEmpty)
      let s := s.setEng m e { x with outW := [] }
      if lost then s.fabricError m e none else s) s
  else s

/-- A master port reset begins (steps 1 to 5 of R332). -/
def State.masterReset (s : State) (m : Nat) (ordered : Bool) : State :=
  if (s.fab.mrst.get? m).isSome then s
  else
    let mine := s.fab.txns.filter (fun t => t.mst = m)
    let gone := fun (t : FabTxn) => t.hung || t.waits || t.chip.isSome
    let reqs := (s.remote.filter (fun q => q.mst = m ∧ q.kind < 2)).length
    let fabReqs := (s.remote.filter (fun q => q.mst = m ∧ q.kind < 2 ∧ mine.any (fun t => t.n = q.id ∧ (0x20 ≤ m ∨ q.eng = 0xFF)))).length
    let n := mine.length + (reqs - fabReqs)
    let s := s.setTxns ((s.fab.txns.filter (fun t => !(t.mst == m && gone t))).map (fun t =>
      if t.mst = m then { t with dead := true } else t))
    let s := { s with remote := s.remote.filter (fun q => !(q.mst == m && decide (q.kind < 2))) }
    let r : PortRst := { count := n, ordered := ordered, tt := s.tt, down := false }
    let s := { s with fab := { s.fab with mrst := s.fab.mrst.set m r } }
    let s := match mine.getLast? with
      | some t =>
        let a : FabAns := { n := t.n, write := t.write, err := true, bytes := [] }
        { s with fab := { s.fab with answers := s.fab.answers.set m a } }
      | none => s
    (s.abandonFor m n).showPort m

/-- A target port reset begins: every transaction outstanding there is answered with an error (R332). -/
def State.targetReset (s : State) (g : Nat) : State :=
  if (s.fab.trst.get? g).isSome then s
  else
    let hit := s.fab.txns.filter (fun t => !t.waits && !t.hung &&
      (if g = tgtQuill then t.chip.isSome else t.chip.isNone && t.left.any (fun b => s.blockTarget b == g)))
    let r : PortRst := { count := hit.length, ordered := true, tt := s.tt, down := false }
    let s := { s with fab := { s.fab with trst := s.fab.trst.set g r } }
    let s := if g = tgtQuill then
        { s with remote := s.remote.filter (fun q => !(hit.any (fun t => t.mst == q.mst && t.n == q.id))) } else s
    (foldS hit (fun t s => s.answer t true []) s).showBurrow (g - 0x62)

/-- PORT_RESET: a write of `v` to FB_PORT_RST; a host write is ignored (R332). -/
def State.portReset (s : State) (src : Src) (v : Nat) : State :=
  let id := bits v 6 0
  if src = .host ∨ !bit v 31 ∨ s.islandHeld 52 then s
  else if bit v 7 then (if s.targetExists id then s.targetReset id else s)
  else if s.masterExists id then s.masterReset id true
  else s

/-- PORT_RESET_DONE: nothing is outstanding, and the port leaves reset (R332, R333); the stopped engines of a core return
(R184). -/
def State.portResetDone (s : State) (target : Bool) (id : Nat) : State :=
  if target then
    match s.fab.trst.get? id with
    | none => s
    | some r =>
      let burrow := decide (0x62 ≤ id ∧ id < 0x6A)
      if burrow && !s.flag R.FB_BRW_STATUS_phy_ready [id - 0x62] then s
      else
        let s := { s with fab := { s.fab with trst := s.fab.trst.del id } }
        let s := if burrow then (s.put R.FB_BRW_STATUS_stalled [id - 0x62] 0).showBurrow (id - 0x62) else s
        s.postLim E.PORT_RESET (2 ^ 8 + id) none [(.ix, id), (.en, 1), (.num, r.count)]
  else
    match s.fab.mrst.get? id with
    | none => s
    | some r =>
      if s.fab.txns.any (fun t => t.mst = id) then s
      else
        let s := ({ s with fab := { s.fab with mrst := s.fab.mrst.del id } }).showPort id
        let s := if id < 0x20 then
            foldS (List.range s.cfg.engines) (fun e s =>
              if (s.eng id e).stopped then s.setEng id e { s.eng id e with stopped := false } else s) s
          else s
        if r.ordered ∨ 0 < r.count then s.postLim E.PORT_RESET id none [(.ix, id), (.en, 0), (.num, r.count)] else s

/-- Warm reset resets every master port (R340) and clears REMAP. -/
def State.fabricWarm (s : State) : State :=
  let s := foldS ((List.range 0x30).filter s.masterExists) (fun m s => s.masterReset m false) s
  ({ s with fab := { s.fab with remap := none } }).put R.FB_REMAP_remap [] 0

/-! ### REMAP and start-up (R318, R339) -/

/-- REMAP_WRITE: only the management path can write it. -/
def State.remapWrite (s : State) (src : Src) (v : Nat) : State :=
  if src = .host ∨ s.islandHeld 52 then s else ({ s with fab := { s.fab with remap := some (v % 2) } }).remapSettle

/-- HOARD_ZERO_DONE: WX_HOARD_MIB × 256 cycles after the release of POR_N. -/
def State.hoardZeroed (s : State) : State :=
  if s.fab.ready ∨ s.por ∨ s.islandHeld 52 ∨ s.tt < s.cfg.hoardMib * 256 then s
  else
    { s with mem := s.mem.zero hoardBase s.cfg.hoardBytes
             badWords := s.badWords.filter (fun w => !(decide (hoardBase ≤ 8 * w ∧ 8 * w < hoardBase + s.cfg.hoardBytes)))
             fab := { s.fab with ready := true, scrub := s.fab.scrub.set 0 { pos := 0, start := s.tt, behind := false } } }

/-! ### Commands -/

/-- FABRIC_TRANSACTION. -/
def execFabricTransaction (mst : Nat) (write : Bool) (word len eng : Nat) (data : List (Option Byte)) (s : State) :
    Host.Outcome State Fault Refusal := .next (s.present mst write word len eng data)

/-- HOARD_ECC_WRITEBACK. -/
def execHoardEccWriteback (bank : Nat) (s : State) : Host.Outcome State Fault Refusal := .next (s.writeBack bank)

/-- BURROW_READ_DATA. -/
def execBurrowReadData (p tag resp : Nat) (s : State) : Host.Outcome State Fault Refusal := .next (s.burrowRead p tag resp)

/-- BURROW_WRITE_ACK. -/
def execBurrowWriteAck (p tag resp : Nat) (s : State) : Host.Outcome State Fault Refusal := .next (s.burrowAck p tag resp)

/-- BURROW_CORRECTED_REWRITE. -/
def execBurrowCorrectedRewrite (p : Nat) (s : State) : Host.Outcome State Fault Refusal := .next (s.burrowRewrite p)

/-- BURROW_PHY_READY. -/
def execBurrowPhyReady (p : Nat) (ready : Bool) (size : Nat) (s : State) : Host.Outcome State Fault Refusal :=
  .next (s.phyReady p ready size)

/-- FB_BRW_CFG_WRITE. -/
def execFbBrwCfgWrite (src : Src) (p v : Nat) (s : State) : Host.Outcome State Fault Refusal := .next (s.brwCfgWrite src p v)

/-- BURROW_FILL_DONE. -/
def execBurrowFillDone (p : Nat) (s : State) : Host.Outcome State Fault Refusal := .next (s.fillDone p)

/-- SCRUB_READ. -/
def execScrubRead (k : Nat) (fixed bad : List Nat) (resp : Nat) (s : State) : Host.Outcome State Fault Refusal :=
  .next (s.scrubRead k fixed bad resp)

/-- SCRUB_BEHIND. -/
def execScrubBehind (k : Nat) (s : State) : Host.Outcome State Fault Refusal := .next (s.scrubLate k)

/-- PORT_RESET. -/
def execPortReset (src : Src) (v : Nat) (s : State) : Host.Outcome State Fault Refusal := .next (s.portReset src v)

/-- PORT_RESET_DONE. -/
def execPortResetDone (target : Bool) (id : Nat) (s : State) : Host.Outcome State Fault Refusal :=
  .next (s.portResetDone target id)

/-- BURROW_STALL_TIMEOUT. -/
def execBurrowStallTimeout (p : Nat) (s : State) : Host.Outcome State Fault Refusal := .next (s.burrowStall p)

/-- BURROW_RECOVERY_TIMEOUT. -/
def execBurrowRecoveryTimeout (p : Nat) (s : State) : Host.Outcome State Fault Refusal := .next (s.burrowDownPost p)

/-- REMAP_WRITE. -/
def execRemapWrite (src : Src) (v : Nat) (s : State) : Host.Outcome State Fault Refusal := .next (s.remapWrite src v)

/-- HOARD_ZERO_DONE. -/
def execHoardZeroDone (s : State) : Host.Outcome State Fault Refusal := .next s.hoardZeroed

end Sys2Proof.Machine
end

