-- ==== Sys2Proof/Machine/Scheduler.lean ====
section
/-! DEFINITION. The dispatcher (chapters 10 and 22): doorbells, submission entries, admission, posting, ranks, deadlines,
cancels and completion records. -/

namespace Sys2Proof.Machine

/-! ### Doorbells (R545) -/

/-- A loaded recipe names ring `r` as its step_ring. -/
def State.isStepRing (s : State) (r : Nat) : Bool :=
  s.rcp.vals.any (fun x => x.recipe.any (fun d => d.stepRing == r))

/-- A doorbell is refused: cause range 1, internal 2. -/
def State.doorbellRefused (s : State) (r v cause : Nat) : State :=
  (s.bump R.HP_DB_ERR_refused).postLim E.HP_DOORBELL_REFUSED (cause + 4 * r) none [(.ix, r), (.val, v), (.en, cause)]

/-- A write to HP_SQ_DB. -/
def State.doorbell (s : State) (r v : Nat) : State :=
  if s.hostShut .host then s.hostAbandon
  else if s.cfg.submitRings ≤ r ∨ s.islandHeld 52 then s
  else
    let v := v % 2 ^ 16
    let head := s.get R.HP_SQ_HEAD_head [r]
    let len := 2 ^ s.get R.HP_SQ_CFG_log2_len [r]
    let ahead := fun x => (x + 2 ^ 16 - head) % 2 ^ 16
    let before := s.get R.HP_SQ_DB_prod [r]
    if s.isStepRing r then s.doorbellRefused r v 2
    else if len < ahead v ∨ ahead v < ahead before then s.doorbellRefused r v 1
    else (s.put R.HP_SQ_DB_prod [r] v).pcCount pcHostBank 4 0x03

/-! ### Submission entries (Tables 22-2, 22-3) -/

/-- A little-endian field of `n` bytes at byte `a`. -/
def fieldAt (l : List Byte) (a n : Nat) : Nat := leVal ((l.drop a).take n)

/-- A submission entry of ring `r`, with its own layout checked but not its segment records (R546). -/
def parseGroup (r index : Nat) (l : List Byte) : Group :=
  let f := fieldAt l
  let op := f 0 1
  let bad := op == 0 || decide (4 < op) || f 1 1 % 4 == 3 || decide (8 ≤ f 1 1) || decide (16 ≤ f 2 1) || decide (12 < f 3 1)
    || f 7 1 != 0 || f 22 2 != 0 || f 30 2 != 0 || (List.range 58).any (fun i => f (70 + i) 1 != 0)
    || (op == 1 && (f 28 2 == 0 || f 32 8 % 32 != 0)) || ((op == 3 || op == 4) && decide (15 < f 69 1))
  { ring := r, index := index, op := op, dlKind := f 1 1 % 4, ringWork := bit (f 1 1) 2, dlCh := f 2 1 % 16, win16 := f 3 1,
    demand := f 4 3, dlTt := f 8 8, dlCnt := f 16 6, cores := f 24 4, segTable := f 32 8, segCount := f 28 2,
    userTag := f 40 8, batchAddr := f 48 8, src := f 56 8, len := f 64 4, keySlot := f 68 1, rcpSlot := f 69 1,
    bad := bad, step := none, segs := [] }

/-- A segment record as a number (Table 22-3). -/
def parseSeg (v : Nat) : ProgSeg :=
  { engine := v % 8, core := bits v 7 3, qos := bits v 11 8, hasWait := bit v 12, waitStatic := bit v 13,
    waitCtr := bits v 23 16, waitVal := bits v 63 32, codeAddr := bits v 103 64, codeLen := bits v 127 104 }

/-- A segment that an entry naming `cores` with windows of `win16` blocks may hold (R548, Table 7-4). Of an entry with
ring_work set, an absent ring engine is left to NO_RING_ENGINE (R46, log 48). -/
def segOk (c : Cfg) (ringWork : Bool) (cores win16 : Nat) (g : ProgSeg) : Bool :=
  decide (g.engine < c.engines ∨ (g.engine = 4 ∧ ringWork)) && decide (g.core < c.cores) && bit cores g.core
  && (!g.hasWait || (if g.waitStatic then decide (192 ≤ g.waitCtr) else decide (g.waitCtr < win16 * 16)))
  && decide (4 ≤ g.codeLen) && g.codeAddr % (if g.engine ≤ 2 then 64 else 4) == 0

/-- A record's reserved bits are 0. -/
def segReservedOk (v : Nat) : Bool := bits v 15 14 == 0 && bits v 31 24 == 0 && v / 2 ^ 128 == 0

/-- An address word of another chip. -/
def State.isRemote (s : State) (a : Nat) : Bool := bit a 63 && bits a 51 40 != s.chipNo

/-- The entry at index `i` of ring `r`, with its segment records; `readErr`: it could not be read (R262). -/
def State.entryAt (s : State) (r i : Nat) (readErr : Bool) : Group :=
  let a := hoardBase + s.get R.HP_SQ_BASE_base [r] + 128 * (i % 2 ^ s.get R.HP_SQ_CFG_log2_len [r])
  let g := parseGroup r i (s.readMem a 128)
  if readErr ∨ s.badIn a 128 then { g with bad := true }
  else if g.bad ∨ g.op ≠ 1 then g
  else
    let n := 32 * g.segCount
    if s.isRemote g.segTable then g
    else
      let t := g.segTable % 2 ^ 40
      if !s.inHoardOrBurrow t n || s.badIn t n then { g with bad := true }
      else
        let recs := (List.range g.segCount).map (fun k => s.readLe (t + 32 * k) 32)
        { g with bad := !recs.all segReservedOk, segs := recs.map parseSeg }

/-! ### Admission checks (Table 10-4) -/

/-- Everything that makes an entry MALFORMED (R244, R547, R548); a remote address is left to NO_ROUTE where there is no
Quill (log 48). A step group carries its segments itself (R270), and no table. -/
def State.malformed (s : State) (g : Group) : Bool :=
  let outside := fun a n => if s.isRemote a then s.cfg.quillPorts != 0 else !s.inHoardOrBurrow (a % 2 ^ 40) n
  g.bad || (decide (g.cores / 2 ^ s.cfg.cores ≠ 0))
  || (g.op == 1 && ((g.step.isNone && outside g.segTable (32 * g.segCount)) || !g.segs.all (segOk s.cfg g.ringWork g.cores g.win16)))
  || ((g.op == 2 || g.op == 3) && outside g.src g.len)

/-- A remote address in a chip without Quill (R45). -/
def State.noRoute (s : State) (g : Group) : Bool :=
  s.cfg.quillPorts == 0
  && ((g.op == 1 && (s.isRemote g.segTable || s.isRemote g.batchAddr)) || ((g.op == 2 || g.op == 3) && s.isRemote g.src))

/-- Ring-engine work in a chip without ring engines (R46). -/
def State.noRing (s : State) (g : Group) : Bool :=
  s.cfg.ringLanes == 0 && g.ringWork

/-- The direction of approach of an encoder deadline now (R245). -/
def State.encFwd (s : State) (g : Group) : Bool := decide (0 ≤ s.encDelta g s.tt)

/-- The TT deadline of a group at admission (R242). -/
def State.admDeadline (s : State) (g : Group) : Option Nat :=
  let rel := s.tt + s.get R.DS_RING_CTL_rel_deadline_us [g.ring] * 1000
  match s.ringMode g.ring with
  | 0 => none
  | 1 => some rel
  | _ =>
    if g.dlKind = 1 then some g.dlTt
    else if g.dlKind = 2 then some (s.encConvert g (s.encFwd g) s.tt)
    else some rel

/-- The deadline is already past (R244). -/
def State.deadlinePast (s : State) (g : Group) : Bool :=
  if s.encDeadline g then s.encDelta g s.tt == 0 || s.countPassed g.dlCh g.dlCnt (s.encFwd g)
  else match s.admDeadline g with
    | some d => decide (d ≤ s.tt)
    | none => false

/-- C_eff in hundredths of a core (R248, R260). -/
def State.cEff (s : State) : Nat :=
  ((List.range s.cfg.cores).filter s.coreRuns).length * s.get R.DS_SCHED_CTL_admit_pct

/-- The remaining demand of a job in ns (R248). -/
def State.remaining (s : State) (t : Nat) (j : Job) : Nat := j.group.demand * 1000 - (j.busy + s.runningNs t)

/-- A job's deadline as the demand test sees it: an encoder deadline at its value now (R248). -/
def State.testDeadline (s : State) (j : Job) : Nat :=
  if s.encDeadline j.group then s.encConvert j.group j.fwd s.tt else j.deadline.getD 0

/-- The demand test of R248: true when the group may be admitted. -/
def State.demandOk (s : State) (g : Group) : Bool :=
  match s.admDeadline g with
  | none => true
  | some d =>
    let all := (d, if g.demand = 0 then 0 else g.demand * 1000) ::
      (s.ds.jobs.cells.filter (fun x => x.2.lc)).map (fun x =>
        (s.testDeadline x.2, if x.2.group.demand = 0 then 0 else s.remaining x.1 x.2))
    all.all (fun k =>
      decide (k.1 < d) ||
      (let w := (all.filter (fun x => decide (x.1 ≤ k.1))).foldl (fun a x => a + x.2) 0
       decide (w * 100 ≤ (k.1 - s.tt) * s.cEff ∨ w = 0)))

/-- The first failing check of Table 10-4. -/
def State.admissionCheck (s : State) (g : Group) : Option Nat :=
  if s.malformed g then some stMalformed
  else if s.noRoute g then some stNoRoute
  else if s.noRing g then some stNoRing
  else if g.ringWork ∧ s.ringMode g.ring ≠ 0 then some stAuditClass
  else if s.encDeadline g ∧ !s.chOn g.dlCh then some stNoPosition
  else if s.deadlinePast g then some stPast
  else if g.op = 1 ∧ s.get R.DS_SCHED_CTL_admit_pct ≠ 0 ∧ s.ringMode g.ring ≠ 0 ∧ !s.demandOk g then some stInfeasible
  else none

/-! ### Admission (R243) -/

/-- The group at the head of ring `r`: an internal one of the batch builder, or the entry at the head. -/
def State.headGroup (s : State) (r : Nat) (readErr : Bool) : Option Group :=
  if s.isStepRing r then s.ds.steps.find? (fun g => g.ring = r)
  else
    let h := s.get R.HP_SQ_HEAD_head [r]
    if h = s.get R.HP_SQ_DB_prod [r] then none else some (s.entryAt r h readErr)

/-- The head of ring `r` moves past group `g` (R545). -/
def State.advanceHead (s : State) (g : Group) : State :=
  let s := { s with ds := { s.ds with waiting := s.ds.waiting.del g.ring } }
  if g.step.isSome then
    { s with ds := { s.ds with steps := s.ds.steps.filter (fun x => !(x.ring == g.ring && x.index == g.index)) } }
  else s.put R.HP_SQ_HEAD_head [g.ring] (g.index + 1)

/-- The cores that a group names. -/
def groupCores (g : Group) : List Nat := bitIndices 32 g.cores

/-- A tag is free, and a window on every core named. -/
def State.hasRoom (s : State) (g : Group) : Bool :=
  decide (s.ds.jobs.cells.length < 4096) && (groupCores g).all (fun c => (s.core c).hasWindow g.win16)

/-- The waiting group of ring `r` (whether LC, deadline, cores, window blocks) goes before one of ring `q` (R243, R249). -/
def State.goesBefore (s : State) (r : Nat) (x : Bool × Nat × Nat × Nat) (q : Nat) (y : Bool × Nat × Nat × Nat) : Bool :=
  if x.1 != y.1 then x.1
  else if x.1 then decide (x.2.1 < y.2.1) || (x.2.1 == y.2.1 && decide (r < q))
  else decide (s.beRank r < s.beRank q) || (s.beRank r == s.beRank q && decide (r < q))

/-- A group that waits on another ring, and can be admitted now, goes first to a tag or window that is not free for both (R243).
One that still lacks a tag or window holds back no other ring (R240). -/
def State.mustYield (s : State) (g : Group) (me : Bool × Nat × Nat × Nat) : Bool :=
  let better := s.ds.waiting.cells.filter (fun w =>
    w.1 ≠ g.ring ∧ s.flag R.DS_RING_CTL_en [w.1] ∧ s.goesBefore w.1 w.2 g.ring me
      ∧ (bitIndices 32 w.2.2.2.1).all (fun c => (s.core c).hasWindow w.2.2.2.2))
  better.any (fun w => (bitIndices 32 (w.2.2.2.1 &&& g.cores)).any (fun c => !(s.core c).hasBoth w.2.2.2.2 g.win16))
  || decide (4096 ≤ s.ds.jobs.cells.length + better.length)

/-- The group becomes a job: its tag, its windows (R243). A BE ring that gains a job is timed from now on, and BE_STARVED stays
posted until one of its segments starts (R249). -/
def State.takeGroup (s : State) (g : Group) : State :=
  let free := (List.range 4096).filter (fun t => (s.ds.jobs.get? t).isNone)
  let p := s.pick free
  let t := p.1
  let s := p.2
  let lc := s.ringMode g.ring != 0
  let first := !lc && !s.beRings.contains g.ring
  let j : Job :=
    { group := g, lc := lc, seq := s.ds.seq, adm := s.tt, deadline := s.admDeadline g,
      fwd := s.encDeadline g && s.encFwd g, expired := false, started := false,
      todo := (List.range g.segs.length).zip g.segs, inFlight := 0, busy := 0, fault := 0, frozen := false, frozenTt := 0,
      cancelled := false, dropped := false, unconv := [], stall := none }
  let posted := (s.ds.starve.get? g.ring).any (·.2)
  let starve := if first then s.ds.starve.set g.ring (s.tt, posted) else s.ds.starve
  let s := { s with ds := { s.ds with jobs := s.ds.jobs.set t j, seq := s.ds.seq + 1, starve := starve } }
  let s := foldS (groupCores g) (fun c s => s.lend c t g.win16) s
  ((s.pcCount pcDsBank 8 (if lc then 0x01 else 0x02)).showDs.refreshRanks).jobCheck t

/-- GROUP_ADMISSION on ring `r`. -/
def State.admission (s : State) (r : Nat) (readErr : Bool) : State :=
  if s.islandHeld 52 || !s.flag R.DS_SCHED_CTL_en || !s.flag R.DS_RING_CTL_en [r] || decide (s.cfg.submitRings ≤ r)
      || (s.ds.loads.get? r).isSome then s
  else match s.headGroup r readErr with
    | none => s
    | some g =>
      if s.ds.skips.contains (r, g.index) ∧ g.step.isNone then
        { s with ds := { s.ds with skips := s.ds.skips.filter (· ≠ (r, g.index)) } }.advanceHead g
      else match s.admissionCheck g with
        | some q => (s.advanceHead g).refuseGroup g q
        | none =>
          if g.op ≠ 1 then
            let s := s.advanceHead g
            { s with ds := { s.ds with loads := s.ds.loads.set r (g, s.tt) } }
          else
            let me := (s.ringMode r != 0, (s.admDeadline g).getD 0, g.cores, g.win16)
            if s.hasRoom g && !s.mustYield g me then (s.advanceHead g).takeGroup g
            else { s with ds := { s.ds with waiting := s.ds.waiting.set r me } }

/-! ### Posting (R250, R165) -/

/-- Segment `k` of job `t` may be posted to its engine now (R250, R260). -/
def State.mayPost (s : State) (t : Nat) (j : Job) (g : ProgSeg) : Bool :=
  let x := s.eng g.core g.engine
  decide (g.engine < s.cfg.engines) && s.coreRuns g.core && !x.stopped
  && decide ((x.queue.filter (fun d => d.job = t)).length < s.get R.DS_SCHED_CTL_seg_ahead)
  && decide (x.queue.length < 64)
  && (j.lc || decide ((x.queue.filter (fun d => !d.lc)).length + s.get R.DS_SCHED_CTL_lc_reserve < 64))

/-- The first segment in table order on each engine that may be posted. -/
def State.nextToPost (s : State) (t : Nat) (j : Job) : List (Nat × Nat) → List (Nat × ProgSeg) → Option (Nat × ProgSeg)
  | _, [] => none
  | seen, (k, g) :: rest =>
    if seen.contains (g.core, g.engine) then s.nextToPost t j seen rest
    else if s.mayPost t j g then some (k, g) else s.nextToPost t j ((g.core, g.engine) :: seen) rest

/-- The descriptor of segment `k` of job `t` (Table 7-4). -/
def State.descOf (s : State) (t : Nat) (j : Job) (k : Nat) (g : ProgSeg) : Desc :=
  let w := ((s.core g.core).winOf t).map (fun x => (x.2.base, x.2.size))
  { job := t, qos := g.qos, lc := j.lc,
    last := !j.todo.any (fun x => decide (k < x.1) && x.2.core == g.core && x.2.engine == g.engine), hasWait := g.hasWait,
    waitStatic := g.waitStatic, waitCtr := g.waitCtr, waitVal := g.waitVal, codeAddr := g.codeAddr, codeLen := g.codeLen,
    winBase := (w.map (·.1)).getD 0, winSize := (w.map (·.2)).getD 0, batchAddr := j.group.batchAddr % 2 ^ 40, segId := k,
    rank := s.jobRank t, order := s.ds.order }

/-- DESCRIPTOR_POST: the job's next segment goes to its engine's queue. -/
def State.postDesc (s : State) (t : Nat) : State :=
  match s.ds.jobs.get? t with
  | none => s
  | some j =>
    if j.cancelled ∨ j.fault ≠ 0 ∨ j.dropped then s
    else match s.nextToPost t j [] j.todo with
      | none => s
      | some (k, g) =>
        let d := s.descOf t j k g
        let x := s.eng g.core g.engine
        let s := s.setEng g.core g.engine { x with queue := x.queue ++ [d] }
        let s := { s with ds := { s.ds with order := s.ds.order + 1 } }
        s.modJob t (fun j => { j with todo := j.todo.filter (fun y => y.1 ≠ k), inFlight := j.inFlight + 1, stall := none })

/-- Post while something can be posted, at most `n` descriptors. -/
def postAll (t : Nat) : Nat → State → State
  | 0, s => s
  | n + 1, s => postAll t n (s.postDesc t)

/-- EXEC: an exec entry at the head of ring `r` is admitted, and its first segments are posted (R547). -/
def State.execEntry (s : State) (r : Nat) (readErr : Bool) : State :=
  match s.headGroup r readErr with
  | none => s
  | some g =>
    if g.op ≠ 1 then s
    else
      let u := s.admission r readErr
      match u.ds.jobs.cells.find? (fun x => x.2.group.ring == r && x.2.group.index == g.index && x.2.seq == s.ds.seq) with
      | some x => postAll x.1 g.segs.length u
      | none => u

/-! ### Deadlines (R245, R246, R249) -/

/-- Why an encoder deadline is held at the horizon: standstill 1, off 2, reverse 3, zero speed 4 (R246). -/
def State.unconvertible (s : State) (j : Job) : Option Nat :=
  let ch := j.group.dlCh
  if !s.chOn ch then some 2
  else if s.flag R.PU_STATUS_standstill [ch] then some 1
  else if (s.ch ch).speed = 0 then some 4
  else if speedToward j.fwd (s.ch ch).speed < 0 then some 3
  else none

/-- The encoder deadline of job `t` is converted again (R245). -/
def State.recompute (s : State) (t : Nat) : State :=
  match s.ds.jobs.get? t with
  | none => s
  | some j =>
    if !s.encDeadline j.group then s
    else
      let s1 := s.modJob t (fun j => { j with deadline := some (s.encConvert j.group j.fwd s.tt) })
      match s.unconvertible j with
      | none => s1
      | some q =>
        if j.unconv.contains q then s1
        else
          (s1.modJob t (fun j => { j with unconv := q :: j.unconv })).post E.DEADLINE_UNCONVERTIBLE none
            [(.ix, j.group.ring), (.num, j.group.index), (.ix, j.group.dlCh), (.en, q)]

/-- BE_STARVED (R249). -/
def State.starveCheck (s : State) (r : Nat) : State :=
  match s.ds.starve.get? r with
  | none => s
  | some (t, posted) =>
    if posted || !s.beRings.contains r || decide (s.tt < t + s.get R.DS_STARVE_starve_ms * 1000000) then s
    else
      { s with ds := { s.ds with starve := s.ds.starve.set r (t, true) } }.post E.BE_STARVED none
        [(.ix, r), (.val, (s.tt - t) / 1000000)]

/-! ### Completion records (R255, R551) -/

/-- All ones for a time that was never taken. -/
def ttOr (t : Option Nat) : Nat := t.getD (2 ^ 64 - 1)

/-- The 64 bytes of a group completion record, phase 0 (Table 22-4). -/
def doneRecord (d : Done) : List Byte :=
  leBytes 1 1 ++ leBytes 1 d.status ++ leBytes 2 0 ++ leBytes 2 d.group.index ++ leBytes 2 d.job ++ leBytes 8 d.tt
    ++ leBytes 8 (if d.admitted then d.adm else 2 ^ 64 - 1) ++ leBytes 8 (ttOr d.deadline)
    ++ leBytes 4 (satTo (2 ^ 32 - 1) (d.busy / 1000)) ++ leBytes 2 d.cause ++ leBytes 2 0 ++ leBytes 8 d.group.userTag
    ++ leBytes 16 0

/-- GROUP_COMPLETION: the oldest completed group gets its record. -/
def State.groupCompletion (s : State) : State :=
  match s.ds.dones with
  | [] => s
  | d :: rest => { s with ds := { s.ds with dones := rest } }.completion { ring := d.group.ring, bytes := doneRecord d }

/-- A load or unload on ring `r` ends with a status. -/
def State.finishLoad (s : State) (r : Nat) (g : Group) (adm status : Nat) : State :=
  let s := if status = stOk then s
    else ((s.bump R.DS_ERR_refused).pcCount pcDsBank 8 0x03).post E.GROUP_REFUSED none
      [(.ix, g.ring), (.num, g.index), (.en, status)]
  let d : Done := { group := g, job := 0, admitted := true, adm := adm, deadline := none, busy := 0, status := status,
                    cause := 0, tt := s.tt }
  { s with ds := { s.ds with dones := s.ds.dones ++ [d], loads := s.ds.loads.del r } }

/-! ### Cancels (R253, R254) -/

/-- Origins of a cancel: host 1, firmware 2. -/
def originOf (src : Src) : Nat := if src = .host then 1 else 2

/-- GROUP_CANCELLED. -/
def State.cancelEvent (s : State) (ring index job origin result : Nat) : State :=
  s.post E.GROUP_CANCELLED none [(.ix, ring), (.num, index), (.num, job), (.en, origin), (.en, result)]

/-- Cancel the group of job `t`: its outcome, 1, 2 or 3. -/
def State.cancelJob (s : State) (t origin : Nat) : State × Nat :=
  match s.ds.jobs.get? t with
  | none => (s, 3)
  | some j =>
    if j.cancelled then (s, 3)
    else if j.started ∨ j.frozen then
      let s := (s.modJob t (fun j => { j with cancelled := true, cancelTt := s.tt })).purgeQueues t
      ((s.cancelEvent j.group.ring j.group.index t origin 2).jobCheck t, 2)
    else
      let s := s.purgeQueues t
      ((s.cancelEvent j.group.ring j.group.index t origin 1).endJob t j stCancelledBefore 0, 1)

/-- A load or unload that has been taken up and has not begun is cancelled (R253, log 100). -/
def State.cancelLoad (s : State) (r : Nat) (g : Group) (adm origin : Nat) : State :=
  let d : Done := { group := g, job := 0, admitted := true, adm := adm, deadline := none, busy := 0,
                    status := stCancelledBefore, cause := 0, tt := s.tt }
  (({ s with ds := { s.ds with dones := s.ds.dones ++ [d], loads := s.ds.loads.del r } }).cancelEvent g.ring g.index 0 origin 1)

/-- The group is the one that stands at the head of its ring. -/
def State.atHead (s : State) (g : Group) : Bool :=
  if g.step.isSome then (s.ds.steps.find? (fun x => x.ring = g.ring)).any (fun x => x.index == g.index)
  else s.get R.HP_SQ_HEAD_head [g.ring] == g.index

/-- Cancel an entry that waits on its ring. -/
def State.cancelWaiting (s : State) (g : Group) (origin : Nat) : State :=
  let s := if s.atHead g then { s with ds := { s.ds with waiting := s.ds.waiting.del g.ring } } else s
  let s := if g.step.isSome then
      { s with ds := { s.ds with steps := s.ds.steps.filter (fun x => !(x.ring == g.ring && x.index == g.index)) } }
    else { s with ds := { s.ds with skips := s.ds.skips ++ [(g.ring, g.index)] } }
  (s.cancelEvent g.ring g.index 0 origin 1).finishGroup g none stCancelledBefore 0

/-- The entries of ring `r` that wait: published, not passed by the head, not cancelled. -/
def State.waitingEntries (s : State) (r : Nat) : List Group :=
  if s.isStepRing r then s.ds.steps.filter (fun g => g.ring = r)
  else
    let h := s.get R.HP_SQ_HEAD_head [r]
    let n := (s.get R.HP_SQ_DB_prod [r] + 2 ^ 16 - h) % 2 ^ 16
    (((List.range n).map (fun i => (h + i) % 2 ^ 16)).filter (fun i => !s.ds.skips.contains (r, i))).map (fun i =>
      s.entryAt r i false)

/-- The most severe of two outcomes: 2, then 1, then 3. -/
def worse (a b : Nat) : Nat := if a = 2 ∨ b = 2 then 2 else if a = 1 ∨ b = 1 then 1 else 3

/-- Cancel the groups of ring `r` that `p` picks by index. -/
def State.cancelRing (s : State) (r origin : Nat) (p : Nat → Bool) : State × Nat :=
  let tags := (s.ds.jobs.cells.filter (fun x => x.2.group.ring = r ∧ p x.2.group.index)).map (·.1)
  let q := tags.foldl (fun (a : State × Nat) t =>
    let b := a.1.cancelJob t origin
    (b.1, worse a.2 b.2)) (s, 3)
  let q := match q.1.ds.loads.get? r with
    | some (g, adm) => if p g.index then (q.1.cancelLoad r g adm origin, worse q.2 1) else q
    | none => q
  let w := (q.1.waitingEntries r).filter (fun g => p g.index)
  (foldS w (fun g s => s.cancelWaiting g origin) q.1, if w.isEmpty then q.2 else worse q.2 1)

/-- A cancel that finds nothing reports once with result 3. -/
def State.cancelReport (s : State) (p : State × Nat) (ring index job origin : Nat) : State :=
  (if p.2 = 3 then s.cancelEvent ring index job origin 3 else p.1).put R.DS_CANCEL_RESULT_result [] p.2

/-- A write to DS_CANCEL. -/
def State.dsCancel (s : State) (src : Src) (ring index : Nat) (all : Bool) : State :=
  if s.hostShut src then s.hostAbandon
  else if s.islandHeld 52 then s
  else s.cancelReport (s.cancelRing ring (originOf src) (fun i => all || i == index)) ring index 0 (originOf src)

/-- A write to DS_CANCEL_JOB. -/
def State.dsCancelJob (s : State) (src : Src) (job : Nat) : State :=
  if s.hostShut src then s.hostAbandon
  else if s.islandHeld 52 then s
  else s.cancelReport (s.cancelJob job (originOf src)) 0 0 job (originOf src)

/-! ### DS_RING_CTL (R256, R262, R268) -/

/-- DS_CFG_REFUSED for a register. -/
def State.dsRefused (s : State) (off : Nat) : State := s.post E.DS_CFG_REFUSED none [(.val, off)]

/-- A ring has admitted groups. -/
def State.ringBusy (s : State) (r : Nat) : Bool :=
  s.ds.jobs.vals.any (fun j => j.group.ring == r) || (s.ds.loads.get? r).isSome

/-- The dispatcher refuses a write to DS_RING_CTL: a change of mode, policy or deadline of a busy ring, a change of mode of a
step ring, the enabling of a ring whose base lies outside the Hoard (R256, R262, R268). -/
def State.ringCtlCheck (s : State) (r old new : Nat) : Option Nat :=
  if (bits old 3 1 ≠ bits new 3 1 ∨ bits old 31 12 ≠ bits new 31 12) ∧ s.ringBusy r then some causeBlock
  else if bits old 2 1 ≠ bits new 2 1 ∧ s.isStepRing r then some causeBlock
  else if !bit old 0 ∧ bit new 0
      ∧ !s.hoardRange (s.get R.HP_SQ_BASE_base [r]) 1 then some causeBlock
  else none

/-- A write to DS_RING_CTL. -/
def State.ringCtlWrite (s : State) (src : Src) (r v : Nat) : State :=
  if s.cfg.submitRings ≤ r then s
  else s.paramWrite src R.DS_RING_CTL [r] v (fun s old new => s.ringCtlCheck r old new)
    (fun s => s.dsRefused (R.DS_RING_CTL.addr [r])) (fun s _ _ => s.refreshRanks)

/-! ### Commands -/

/-- DOORBELL. -/
def execDoorbell (r v : Nat) (s : State) : Host.Outcome State Fault Refusal := .next (s.doorbell r v)

/-- GROUP_ADMISSION. -/
def execGroupAdmission (r : Nat) (readErr : Bool) (s : State) : Host.Outcome State Fault Refusal :=
  .next (s.admission r readErr)

/-- EXEC. -/
def execExec (r : Nat) (readErr : Bool) (s : State) : Host.Outcome State Fault Refusal := .next (s.execEntry r readErr)

/-- DESCRIPTOR_POST. -/
def execDescriptorPost (t : Nat) (s : State) : Host.Outcome State Fault Refusal := .next (s.postDesc t)

/-- RANK_REFRESH. -/
def execRankRefresh (s : State) : Host.Outcome State Fault Refusal := .next (s.refreshRanks.pcCount pcDsBank 8 0x05)

/-- DEADLINE_RECOMPUTE. -/
def execDeadlineRecompute (s : State) : Host.Outcome State Fault Refusal :=
  .next (foldS s.ds.jobs.keys (fun t s => s.recompute t) s)

/-- DEADLINE_EXPIRY. -/
def execDeadlineExpiry (t : Nat) (s : State) : Host.Outcome State Fault Refusal := .next ((s.recompute t).expireJob t)

/-- BE_STARVE_TIMEOUT. -/
def execBeStarveTimeout (r : Nat) (s : State) : Host.Outcome State Fault Refusal := .next (s.starveCheck r)

/-- GROUP_COMPLETION. -/
def execGroupCompletion (s : State) : Host.Outcome State Fault Refusal := .next s.groupCompletion

/-- DS_CANCEL. -/
def execDsCancel (src : Src) (ring index : Nat) (all : Bool) (s : State) : Host.Outcome State Fault Refusal :=
  .next (s.dsCancel src ring index all)

/-- DS_CANCEL_JOB. -/
def execDsCancelJob (src : Src) (job : Nat) (s : State) : Host.Outcome State Fault Refusal := .next (s.dsCancelJob src job)

/-- FROZEN_CANCEL_TIMEOUT (R254). -/
def execFrozenCancelTimeout (t : Nat) (s : State) : Host.Outcome State Fault Refusal :=
  .next (match s.ds.jobs.get? t with
    | none => s
    | some j =>
      if s.ds.frozenMs ≠ 0 ∧ j.frozen ∧ j.frozenTt + s.ds.frozenMs * 1000000 ≤ s.tt then s.dsCancelJob .fw t else s)

/-- DS_RING_CTL_WRITE. -/
def execDsRingCtlWrite (src : Src) (r v : Nat) (s : State) : Host.Outcome State Fault Refusal :=
  .next (s.ringCtlWrite src r v)

end Sys2Proof.Machine
end

