-- ==== Sys2Proof/Machine/Loader.lean ====
section
/-! DEFINITION. Image and recipe loads (R42, R43, R265, R268, R430, R443, R547, R549). -/

namespace Sys2Proof.Machine

/-! ### The image (Tables 22-3a to 22-3c) -/

/-- A section to place. -/
structure Section where
  dest : Nat
  len : Nat
  ofs : Nat
  zero : Bool
  ok : Bool

/-- The header of an image at `a` lies in range: `kind` 1 image, 2 recipe; `n` bytes before the CMAC. -/
def State.imgHeaderOk (s : State) (a n kind : Nat) : Bool :=
  let f := fun o k => s.readLe (a + o) k
  decide (64 ≤ n) && f 0 4 == 0x4D495857 && f 4 2 == 1 && f 6 1 == kind && decide (1 ≤ f 7 1 ∧ f 7 1 ≤ 8) && f 8 4 == n
  && f 12 4 % 8 == 0 && decide (f 12 4 + 32 * f 7 1 ≤ n) && f 16 48 == 0

/-- The configuration tag of the variant entry at `a` is this chip's (R42). -/
def State.tagMatches (s : State) (a : Nat) : Bool :=
  s.readLe a 1 == s.cfg.cores && s.readLe (a + 1) 1 == s.cfg.macDim && s.readLe (a + 2) 2 == s.cfg.scratchKib
  && s.readLe (a + 4) 1 == s.cfg.hoardMib && s.readLe (a + 5) 1 == s.cfg.burrowPorts
  && s.readLe (a + 6) 1 == s.cfg.ringLanes

/-- The variant entry that the chip takes (R43): the first that matches. -/
def State.findVariant (s : State) (a : Nat) : Option Nat :=
  ((List.range (s.readLe (a + 7) 1)).map (fun i => a + s.readLe (a + 12) 4 + 32 * i)).find? s.tagMatches

/-- The fields of the variant entry at `v` lie in range, in an image of `n` bytes. -/
def State.variantOk (s : State) (v n kind : Nat) : Bool :=
  let f := fun o k => s.readLe (v + o) k
  f 7 1 == 0 && decide (600 ≤ f 8 2 ∧ f 8 2 ≤ 1500) && f 8 2 % 25 == 0 && decide (1 ≤ f 10 2 ∧ f 10 2 ≤ 1024)
  && f 12 4 % 8 == 0 && decide (f 12 4 + 24 * f 10 2 ≤ n) && f 18 14 == 0
  && (if kind = 2 then decide (f 16 2 < f 10 2) else f 16 2 == 0xFFFF)

/-- The section entry at `a` of an image of `n` bytes. -/
def State.sectionAt (s : State) (a n : Nat) : Section :=
  let f := fun o k => s.readLe (a + o) k
  let zero := bit (f 16 1) 0
  { dest := f 0 8, len := f 8 4, ofs := f 12 4, zero := zero,
    ok := decide (f 0 8 < 2 ^ 40 ∧ 1 ≤ f 8 4) && decide (f 16 1 < 2) && f 17 7 == 0 && (zero || decide (f 12 4 + f 8 4 ≤ n)) }

/-! ### Destinations (R549) -/

/-- Two ranges of a list overlap. -/
def anyOverlap : List (Nat × Nat) → Bool
  | [] => false
  | (a, n) :: t => t.any (fun x => overlaps a n x.1 x.2) || anyOverlap t

/-- The bytes of a snapshot record, rounded up to its stride (R570, R571). -/
def snapCounters (c : Cfg) : Nat :=
  c.cores * c.engines * 8 + c.camPipes * 4 + c.quillPorts * 8
    + (66 + c.cores + c.burrowPorts + (if c.quillPorts = 0 then 0 else 1)) * 4 + 12
def snapStride (c : Cfg) : Nat := (64 + 8 * snapCounters c + 255) / 256 * 256

/-- The ranges that no load may write: audit regions, strip rings, deskew stores, QM_BUF, submission, snapshot and sample
rings, decoder source rings and work areas, slot arrays of loaded recipes, sections of running recipes (R549). -/
def State.protectedRanges (s : State) : List (Nat × Nat) :=
  let aud := ((List.range 4).filter (fun k => s.audState k != audIdle)).map (fun k =>
    ((s.audCtx k).region, (s.audCtx k).regionLen))
  let strips := ((List.range s.cfg.camPipes).filter (fun p => s.flag R.CX_CAM_CTL_en [p])).map (fun p =>
    (hoardBase + s.get R.PP_RING_ring_base [p],
     s.get R.PP_RING_CFG_ring_len [p] * (s.get R.PP_RING_CFG_ring_stride [p] * 256)))
  let deskew := ((List.range s.cfg.quillPorts).filter (fun p => s.flag R.QP_CTL_en [p])).map (fun p =>
    (hoardBase + s.get R.QP_DESKEW_base [p], 768 * 1024))
  let qm := if s.flag R.QM_CTL_en then [(hoardBase + s.get R.QM_BUF_base, 192 * 1024 * s.cfg.quillPorts)] else []
  let sq := ((List.range s.cfg.submitRings).filter (fun r => s.flag R.DS_RING_CTL_en [r])).map (fun r =>
    (hoardBase + s.get R.HP_SQ_BASE_base [r], 128 * 2 ^ s.get R.HP_SQ_CFG_log2_len [r]))
  let snap := if s.flag R.PC_SNAP_CFG_en then
      [(hoardBase + s.get R.PC_SNAP_BASE_base, snapStride s.cfg * 2 ^ s.get R.PC_SNAP_CFG_log2_len)] else []
  let smp := if s.flag R.PC_SMP_CFG_en then
      [(hoardBase + s.get R.PC_SMP_BASE_base, 256 * 2 ^ s.get R.PC_SMP_CFG_log2_len)] else []
  let dec := ((List.range 4).filter (fun c => s.flag R.PP_DEC_CTL_en [c])).flatMap (fun c =>
    let w := s.pair R.PP_DEC_WORK_LO R.PP_DEC_WORK_HI [c]
    [(hoardBase + s.get R.PP_DEC_SRC_base [c], 16 * 4096), (w % 2 ^ 40, w / 2 ^ 40)])
  let rcp := s.rcp.cells.flatMap (fun x => match x.2.recipe with
    | none => []
    | some d => (d.slotBase, d.slotStride * d.maxParts) ::
        (if s.flag R.DS_RCP_CTL_run [x.1] then x.2.sections else []))
  aud ++ strips ++ deskew ++ qm ++ sq ++ snap ++ smp ++ dec ++ rcp

/-- The destination checks of R549. -/
def State.destsOk (s : State) (l : List Section) : Bool :=
  let r := l.map (fun x => (x.dest, x.len))
  let prot := s.protectedRanges
  r.all (fun x => s.inHoardOrBurrow x.1 x.2) && !anyOverlap r
  && !r.any (fun x => prot.any (fun y => overlaps x.1 x.2 y.1 y.2))

/-- Place the sections of an image at `a`, in table order. -/
def State.placeSections (s : State) (a : Nat) (l : List Section) : State :=
  foldS l (fun x s => if x.zero then s.zeroMem x.dest x.len else s.writeMem x.dest (s.readMem (a + x.ofs) x.len)) s

/-- Check and place an image: the state, its status and, when it is placed, its sections and floor (R549). -/
def State.loadImage (s : State) (g : Group) (kind : Nat) : State × Nat × List (Nat × Nat) × Nat :=
  let a := g.src % 2 ^ 40
  match s.imageCheck a g.len g.keySlot with
  | some q => (s.imageAuthFail a g.keySlot q, stMalformed, [], 0)
  | none =>
    let n := g.len - 16
    if !s.imgHeaderOk a n kind then (s, stMalformed, [], 0)
    else match s.findVariant a with
      | none => (s, stMismatch, [], 0)
      | some v =>
        if !s.variantOk v n kind then (s, stMalformed, [], 0)
        else
          let secs := (List.range (s.readLe (v + 10) 2)).map (fun i => s.sectionAt (a + s.readLe (v + 12) 4 + 24 * i) n)
          if !secs.all (·.ok) ∨ !s.destsOk secs then (s, stMalformed, [], 0)
          else (s.placeSections a secs, stOk, secs.map (fun x => (x.dest, x.len)), s.readLe (v + 8) 2)

/-- The load of ring `r` with a given op. -/
def State.loadOn (s : State) (r op : Nat) : Option (Group × Nat) := (s.ds.loads.get? r).filter (fun x => x.1.op = op)

/-- EM_CORE_TGT.floor_code shows the highest floor of the loaded images as a frequency code, its reset value with
none (R443). -/
def State.showFloor (s : State) : State :=
  let code := if s.ds.floors.cells.isEmpty then 24 else (s.floorMhz + 24) / 25
  foldS (List.range s.cfg.cores) (fun c s => s.put R.EM_CORE_TGT_floor_code [c] code) s

/-- Give a floor its frequency (R443). -/
def State.setFloor (s : State) (k mhz : Nat) : State :=
  { s with ds := { s.ds with floors := s.ds.floors.set k mhz } }.showFloor

/-- The number under which the next model image's floor is kept. -/
def State.nextFloor (s : State) : Nat := (s.ds.floors.keys.foldl max 15) + 1

/-- IMAGE_LOAD. -/
def State.imageLoad (s : State) (r : Nat) : State :=
  match s.loadOn r 2 with
  | none => s
  | some (g, adm) =>
    let p := s.loadImage g 1
    (if p.2.1 = stOk then p.1.setFloor p.1.nextFloor p.2.2.2 else p.1).finishLoad r g adm p.2.1

/-! ### Recipes (R265, R268, R171) -/

/-- Recipe slot `k` without a recipe. -/
def RcpSlot.init : RcpSlot :=
  { recipe := none, sections := [], loading := false, k := 0, phase := .idle, tk := 0, strips := [], taken := [],
    starts := [], batches := [], lateSteps := [], lateTaken := [], nextOrdinal := 0, gens := Tbl.empty, parts := [],
    ctxq := [], lastOpen := none, ended := none, dropped := false, missed := [], table := [],
    lastTt := Tbl.empty, spent := [] }

/-- Recipe slot `k`. -/
def State.rslot (s : State) (k : Nat) : RcpSlot := s.rcp.get k RcpSlot.init

/-- Give recipe slot `k`. -/
def State.setRslot (s : State) (k : Nat) (x : RcpSlot) : State := { s with rcp := s.rcp.set k x }

/-- The loaded recipes. -/
def State.recipes (s : State) : List RecipeDesc := s.rcp.vals.filterMap (·.recipe)

/-- The fields of a descriptor lie in the ranges of Table 11-2. -/
def State.descRangeOk (s : State) (d : RecipeDesc) : Bool :=
  let segs := fun l => List.all l (fun g => segOk s.cfg false (2 ^ s.cfg.cores - 1) d.win16 g)
  decide (d.owner < 4096 ∧ d.peers.length ≤ 7) && d.peers.all (fun p => decide (p < 4096)) && d.pipes != 0
  && decide (d.posCh ≤ 7 ∨ d.posCh = 15) && decide (d.stepRing < s.cfg.submitRings ∧ d.partRing < s.cfg.submitRings)
  && decide (1 ≤ d.maxParts ∧ d.maxParts ≤ s.cfg.partSlots) && d.slotBase % 256 == 0 && d.slotStride % 256 == 0
  && d.kvBytes % 256 == 0 && d.evBytes % 256 == 0 && decide (1 ≤ d.tokStrip ∧ d.tokStrip ≤ 256)
  && decide (256 ≤ d.maxTokens ∧ d.maxTokens ≤ 65536) && decide (d.ctxMax ≤ 16384 ∧ 16 ≤ d.ctxChunk ∧ d.ctxChunk ≤ 4096)
  && decide (d.ctxBudget ≤ 16384) && d.actOut.all (fun o => decide (o < s.cfg.actOutputs))
  && d.holdOut.all (fun o => decide (o < s.cfg.actOutputs)) && decide (d.actOfs ≤ 2 ^ 40)
  && decide (d.tolLines ≤ 65535 ∧ d.tolStrips ≤ 65535) && decide (50 ≤ d.stepDlPct ∧ d.stepDlPct ≤ 400)
  && decide (1 ≤ d.stepWaitUs ∧ d.stepWaitUs ≤ 1000 ∧ 1 ≤ d.markWaitUs ∧ d.markWaitUs ≤ 1000)
  && decide (d.evCore < s.cfg.cores ∧ 192 ≤ d.evCtr ∧ d.evCtr ≤ 255)
  && d.statics.all (fun x => decide (x.1 < s.cfg.cores ∧ 192 ≤ x.2 ∧ x.2 ≤ 255)) && decide (d.win16 ≤ 12)
  && s.inHoard d.ctxRing 32 && segs d.detect && segs d.infer && segs d.evidence && segs d.decide

/-- The static counters that a recipe holds: those it names, and its evidence counter. -/
def heldStatics (d : RecipeDesc) : List (Nat × Nat) :=
  if d.statics.contains (d.evCore, d.evCtr) then d.statics else (d.evCore, d.evCtr) :: d.statics

/-- The refusal of a recipe's descriptor (R45, R171, R265, R268). -/
def State.recipeCheck (s : State) (d : RecipeDesc) : Option Nat :=
  let others := s.recipes
  if !s.descRangeOk d ∨ d.pipes / 2 ^ s.cfg.camPipes ≠ 0 ∨ others.any (fun o => o.pipes &&& d.pipes != 0)
      ∨ !s.inHoardOrBurrow d.slotBase (d.slotStride * d.maxParts)
      ∨ s.cfg.partSlots < d.maxParts + (others.foldl (fun a o => a + o.maxParts) 0)
      ∨ s.ringMode d.stepRing ≠ 2 ∨ others.any (fun o => o.stepRing == d.stepRing) then some stMalformed
  else if s.cfg.quillPorts = 0 ∧ d.owner ≠ 0 then some stNoRoute
  else if (heldStatics d).any (fun x => ((s.core x.1).statics.get? x.2).isSome) then some stSyncInUse
  else none

/-- Reserve a static counter to recipe slot `k`, at 0 (R171). -/
def State.reserve (s : State) (k : Nat) (x : Nat × Nat) : State :=
  let c := s.core x.1
  (s.setCore x.1 { c with statics := c.statics.set x.2 k }).setSync x.1 x.2 0

/-- DS_RCP_STATUS shows the recipe that slot `k` holds, and whether this chip owns its verdicts (Table 11-10). -/
def State.showLoaded (s : State) (k : Nat) : State :=
  match (s.rslot k).recipe with
  | none => s
  | some d => (s.put R.DS_RCP_STATUS_loaded [k] 1).put R.DS_RCP_STATUS_owner [k] (b2n (d.owner == s.chipNo))

/-- RECIPE_LOAD: the sections are placed, then the descriptor `d` that they hold is applied (R547, R549). -/
def State.recipeLoad (s : State) (r : Nat) (d : RecipeDesc) : State :=
  match s.loadOn r 3 with
  | none => s
  | some (g, adm) =>
    if (s.rslot g.rcpSlot).recipe.isSome then s.finishLoad r g adm stMalformed
    else
      let p := s.loadImage g 2
      if p.2.1 ≠ stOk then p.1.finishLoad r g adm p.2.1
      else
        let s := p.1
        match s.recipeCheck d with
        | some q => s.finishLoad r g adm q
        | none =>
          let k := g.rcpSlot
          let s := foldS (heldStatics d) (fun x s => s.reserve k x) s
          let s := s.setRslot k { RcpSlot.init with recipe := some d, sections := p.2.2.1 }
          (s.showLoaded k |>.setFloor k p.2.2.2).finishLoad r g adm stOk

/-- RECIPE_UNLOAD: the slot and its static counters are free; of an empty slot MALFORMED (log 49). -/
def State.recipeUnload (s : State) (r : Nat) : State :=
  match s.loadOn r 4 with
  | none => s
  | some (g, adm) =>
    let k := g.rcpSlot
    let x := s.rslot k
    match x.recipe with
    | none => s.finishLoad r g adm stMalformed
    | some _ =>
      if s.flag R.DS_RCP_CTL_run [k] ∨ !x.parts.isEmpty then s.finishLoad r g adm stMalformed
      else
        let s := { s with cores := s.cores.mapVals (fun _ c => { c with statics := c.statics.filterRows (fun _ o => o != k) }),
                          rcp := s.rcp.del k, ds := { s.ds with floors := s.ds.floors.del k } }.showFloor
        (s.setRegWord R.DS_RCP_STATUS [k] 0).finishLoad r g adm stOk

/-! ### Commands -/

/-- IMAGE_LOAD. -/
def execImageLoad (r : Nat) (s : State) : Host.Outcome State Fault Refusal := .next (s.imageLoad r)

/-- RECIPE_LOAD. -/
def execRecipeLoad (r : Nat) (d : RecipeDesc) (s : State) : Host.Outcome State Fault Refusal := .next (s.recipeLoad r d)

/-- RECIPE_UNLOAD. -/
def execRecipeUnload (r : Nat) (s : State) : Host.Outcome State Fault Refusal := .next (s.recipeUnload r)

end Sys2Proof.Machine
end

