-- ==== Sys2Proof/Machine/Counters.lean ====
section
/-! DEFINITION. Performance counters and sampling (chapter 23). -/

namespace Sys2Proof.Machine

/-! ### Banks (R567, R571) -/

/-- The kind of a bank: what its events and occupancies are (Table 23-2). -/
inductive BankKind where
  | engine | pipe | quill | target | dispatcher | host
  deriving DecidableEq, Repr

/-- A bank: kind, offset, number of counters, and the island whose reset holds it (the numbers of State.heldIsl). -/
structure Bank where
  kind : BankKind
  base : Nat
  count : Nat
  isl : Nat
  deriving DecidableEq, Repr

/-- The banks of the configuration in the order of R571. -/
def State.bankList (s : State) : List Bank :=
  let eng := (List.range s.cfg.cores).flatMap (fun c => (List.range s.cfg.engines).map (fun e =>
    Bank.mk .engine (pcEngBank c e) 8 c))
  let pipes := (List.range s.cfg.camPipes).map (fun p => Bank.mk .pipe (pcPipeBank p) 4 (32 + p / 4))
  let quill := (List.range s.cfg.quillPorts).map (fun p => Bank.mk .quill (pcQuillBank p) 8 (40 + p))
  let tgts := ((List.range 107).filter s.targetExists).map (fun t =>
    Bank.mk .target (pcFabBank t) 4 (if 0x02 ≤ t ∧ t < 0x22 then t - 2 else 52))
  eng ++ pipes ++ quill ++ tgts ++ [Bank.mk .dispatcher pcDsBank 8 52, Bank.mk .host pcHostBank 4 52]

/-- The highest event code below 0x10 of a kind of bank, and its highest occupancy code (Table 23-2). -/
def BankKind.codes : BankKind → Nat × Nat
  | .engine => (0x07, 0x11)
  | .pipe => (0x04, 0x11)
  | .quill => (0x06, 0x12)
  | .target => (0x03, 0x11)
  | .dispatcher => (0x05, 0x11)
  | .host => (0x03, 0x10)

/-- A selector word that R568 refuses. -/
def BankKind.refuses (k : BankKind) (v : Nat) : Bool :=
  let ev := bits v 7 0
  let mode := bits v 9 8
  let listed := decide (ev ≤ k.codes.1 ∨ (0x10 ≤ ev ∧ ev ≤ k.codes.2))
  !listed || (mode == 3) || (mode == 0 && decide (0x10 ≤ ev)) || ((mode == 1 || mode == 2) && decide (ev < 0x10))

/-- The bank that holds an offset, and the offset in it. -/
def State.bankAt (s : State) (off : Nat) : Option (Bank × Nat) :=
  (s.bankList.find? (fun b => b.base == off - off % 0x100)).map (fun b => (b, off % 0x100))

/-- Event PC_CFG_REFUSED (R577). -/
def State.pcRefused (s : State) (off : Nat) : State := s.postLim E.PC_CFG_REFUSED 0 none [(.val, off)]

/-- PC_SEL_WRITE: a selector write applies or is refused (R568); a bank in reset ignores it (R49). -/
def State.selWrite (s : State) (src : Src) (off v : Nat) : State :=
  if s.hostShut src then s.hostAbandon else
  match s.bankAt off with
  | none => s
  | some (b, rel) =>
    if rel % 0x10 ≠ 0 ∨ rel < 0x10 ∨ 0x10 + 0x10 * b.count ≤ rel ∨ s.heldIsl.contains b.isl then s
    else if b.kind.refuses v then s.pcRefused off
    else s.setRaw off (bits v 12 0 + bits v 27 16 * 2 ^ 16)

/-- The number of a counter's word in its bank: 0 for a counter's _LO word, 1 for its _HI word, none for another. -/
def cntWord (off : Nat) : Option Nat :=
  let rel := off % 0x100
  if 0x300000 ≤ off ∧ off < 0x330200 ∧ 0x10 ≤ rel ∧ rel < 0x90 then
    (if rel % 0x10 = 4 then some 0 else if rel % 0x10 = 8 then some 1 else none)
  else none

/-- PC_CLEAR: every counter and overflow bit is 0 (Table 23-6). -/
def State.pcClear (s : State) (src : Src) : State :=
  if s.hostShut src then s.hostAbandon
  else
    let ctl := fun (o : Nat) => decide (0x300000 ≤ o ∧ o < 0x330200) && o % 0x100 == 0
    let regs := (s.regs.filterRows (fun o _ => (cntWord o).isNone)).mapVals (fun o w =>
      if ctl o then BitVec.ofNat 32 (w.toNat / 2 ^ 8 * 2 ^ 8) else w)
    { s with regs := regs }.put R.PC_OVF_PEND_banks [] 0

/-! ### Snapshots (R569 to R571) -/

/-- The words that a bank latches (Table 23-4): [47:0] count, [62] en, [63] overflow; a bank in reset reads 0 (R579). -/
def State.bankWords (s : State) (b : Bank) : List Nat :=
  (List.range b.count).map (fun k =>
    if s.heldIsl.contains b.isl then 0
    else
      s.raw (b.base + 0x14 + 0x10 * k) + 2 ^ 32 * (s.raw (b.base + 0x18 + 0x10 * k) % 2 ^ 16)
      + 2 ^ 62 * b2n (bit (s.raw (b.base + 0x10 + 0x10 * k)) 10) + 2 ^ 63 * b2n (bit (s.raw b.base) k))

/-- The instants later than the last one looked at and not later than TT, ascending (R569): the first, and how many
follow it. -/
def State.instants (s : State) : Option (Nat × Nat) :=
  let p := 1000000 * s.get R.PC_SNAP_CTL_period_ms
  let l := s.pc.lastInst
  let at_ := s.pair R.PC_SNAP_AT_LO R.PC_SNAP_AT_HI
  let shot := if s.flag R.PC_SNAP_CTL_at_arm ∧ l < at_ ∧ at_ ≤ s.tt then [at_] else []
  let n := if p = 0 then 0 else s.tt / p - l / p
  let first := (l / p + 1) * p
  let shot := shot.filter (fun t => p = 0 || t % p != 0)
  if n = 0 then shot.head?.map (fun t => (t, 0))
  else match shot with
    | [t] => some (min t first, n)
    | _ => some (first, n - 1)

/-- Count `n` skipped instants, naming `t`; cause 1 busy, 2 stepped. -/
def State.snapSkip (s : State) (t n cause : Nat) : State :=
  if n = 0 then s
  else
    let s := { s with pc := { s.pc with skipped := s.pc.skipped + n } }.bump R.PC_ERR_snap_skipped [] n
    s.postLim E.PC_SNAP_SKIPPED cause none [(.wide, t), (.en, cause)]

/-- The held map of a snapshot header (Table 23-4): core islands, pixel islands, link islands. -/
def State.heldMap (s : State) : Nat := (s.heldIsl.filter (· < 52)).foldl (fun a i => a ||| 2 ^ i) 0

/-- The entries of a snapshot or sample ring are all in use. -/
def ringUsed (prod cons len : Nat) : Bool := decide (len ≤ (prod + 2 ^ 16 - cons) % 2 ^ 16)

/-- The local address of the snapshot entry written next. -/
def State.snapAddr (s : State) : Nat :=
  hoardBase + s.get R.PC_SNAP_BASE_base
    + (s.get R.PC_SNAP_PROD_prod % 2 ^ s.get R.PC_SNAP_CFG_log2_len) * snapStride s.cfg

/-- An instant has been met at the present TT. -/
def State.snapNow (s : State) : State := { s with pc := { s.pc with lastInst := s.tt } }

/-- Every bank is latched (R571). -/
def State.snapLatch (s : State) : State := { s with pc := { s.pc with latch := s.bankList.flatMap s.bankWords } }

/-- The collector begins the record of instant `t`. -/
def State.snapBusy (s : State) (t : Nat) : State :=
  { s with pc := { s.pc with busy := some (t, s.heldMap, s.pc.skipped), skipped := 0 } }

/-- SNAPSHOT_INSTANT: every bank latches its counters, or the instant is skipped (R569); the record's seq is written as
all ones first (R570). -/
def State.snapshot (s : State) : State :=
  match s.instants with
  | none => s
  | some (t, more) =>
    let at_ := s.pair R.PC_SNAP_AT_LO R.PC_SNAP_AT_HI
    let s := if s.flag R.PC_SNAP_CTL_at_arm ∧ s.pc.lastInst < at_ ∧ at_ ≤ s.tt then s.put R.PC_SNAP_CTL_at_arm [] 0 else s
    let s := s.snapNow
    if s.pc.busy.isSome then s.snapSkip t (more + 1) 1
    else
      let s := s.snapLatch
      let len := 2 ^ s.get R.PC_SNAP_CFG_log2_len
      let s :=
        if !s.flag R.PC_SNAP_CFG_en then s
        else if !s.flag R.PC_SNAP_CFG_overwrite && ringUsed (s.get R.PC_SNAP_PROD_prod) (s.get R.PC_SNAP_CONS_cons) len then
          (s.bump R.PC_ERR_snap_dropped).postLim E.PC_RING_FULL 1 none [(.en, 1)]
        else
          (s.snapBusy t).writeMem s.snapAddr (leBytes 4 (2 ^ 32 - 1))
      let p := s.get R.PC_SNAP_CTL_period_ms * 1000000
      s.snapSkip (max t (s.tt / max 1 p * p)) more 2

/-- The 64-byte header of a snapshot record (Table 23-4). -/
def State.snapHeader (s : State) (t held skipped : Nat) : List Byte :=
  leBytes 4 s.pc.seq ++ leBytes 2 s.chipNo ++ leBytes 2 0 ++ leBytes 8 t ++ leBytes 4 (snapCounters s.cfg)
    ++ leBytes 4 skipped ++ leBytes 8 held ++ leBytes 32 0

/-- A write of the collector received an error response (R579). -/
def State.pcWriteError (s : State) (a : Nat) : State :=
  (s.bump R.PC_ERR_write_err).postLim E.PC_WRITE_ERROR 0 none [(.val, a - hoardBase)]

/-- SNAPSHOT_RECORD_WRITTEN (R570, R579). -/
def State.snapWritten (s : State) (err : Bool) : State :=
  match s.pc.busy with
  | none => s
  | some (t, held, skipped) =>
    let a := s.snapAddr
    if err then
      { s with pc := { s.pc with busy := none, skipped := s.pc.skipped + skipped } }.pcWriteError a
    else
      let s := (s.writeMem (a + 64) (s.pc.latch.flatMap (leBytes 8))).writeMem a (s.snapHeader t held skipped)
      { s with pc := { s.pc with busy := none, seq := (s.pc.seq + 1) % 2 ^ 32 } }.put R.PC_SNAP_PROD_prod []
        (s.get R.PC_SNAP_PROD_prod + 1)

/-! ### Samples and overflow (R574, R575) -/

/-- The 64 bytes of a sample record (Table 23-5); the stage times, which the model does not keep, are free (log 36). -/
def sampleRecord (c e : Nat) (tag times : List Nat) : List Byte :=
  let g := fun i => tag.getD i 0
  let f := fun i => times.getD i 0
  let retire := if bit (g 5) 0 then 2 ^ 32 - 1 else f 4
  leBytes 1 c ++ leBytes 1 e ++ leBytes 2 (g 0) ++ leBytes 4 (g 1) ++ leBytes 4 (g 2) ++ leBytes 1 (g 3) ++ leBytes 1 (g 5)
    ++ leBytes 2 0 ++ leBytes 8 (g 4) ++ leBytes 4 (f 0) ++ leBytes 4 (f 1) ++ leBytes 4 (f 2) ++ leBytes 4 (f 3)
    ++ leBytes 4 retire ++ leBytes 20 0

/-- `n` fresh free values of 32 bits. -/
def State.draws (s : State) : Nat → List Nat × State
  | 0 => ([], s)
  | n + 1 =>
    let p := s.draw 32
    let q := p.2.draws n
    (p.1 :: q.1, q.2)

/-- TAG_SAMPLE_WRITE: the sample of an engine goes to the sample ring (R574). -/
def State.sampleWrite (s : State) (c e : Nat) (err : Bool) : State :=
  let key := c * 8 + e
  match s.pc.tag.get? key with
  | none => s
  | some tag =>
    let s := { s with pc := { s.pc with tag := s.pc.tag.del key } }
    let len := 2 ^ s.get R.PC_SMP_CFG_log2_len
    let prod := s.get R.PC_SMP_PROD_prod
    let a := hoardBase + s.get R.PC_SMP_BASE_base + 256 * (prod % len)
    if !s.flag R.PC_SMP_CFG_en then s
    else if ringUsed prod (s.get R.PC_SMP_CONS_cons) len then
      (s.bump R.PC_ERR_smp_dropped).postLim E.PC_RING_FULL 2 none [(.en, 2)]
    else if err then s.pcWriteError a
    else
      let p := s.draws 5
      (p.2.writeMem a (sampleRecord c e tag p.1)).put R.PC_SMP_PROD_prod [] (prod + 1)

/-- OVERFLOW_CAPTURE: the position of an engine whose bank has overflowed (R575). -/
def State.captureOvf (s : State) (c e : Nat) : State :=
  let bank := pcEngBank c e
  match s.pc.capture.get? bank, (s.eng c e).run with
  | some freeze, some r =>
    let s := { s with pc := { s.pc with capture := s.pc.capture.del bank } }
    let s := (s.setRaw (bank + 0x90) r.pc).setRaw (bank + 0x94) (r.desc.job % 2 ^ 12 + r.desc.segId % 2 ^ 20 * 2 ^ 12)
    if freeze then s.setRaw bank (s.raw bank ||| 2 ^ 8) else s
  | _, _ => s

/-- A write to PC_BANK_CTL: ones clear overflow bits and the frozen bit (Table 23-6). -/
def State.bankCtlWrite (s : State) (off v : Nat) : State :=
  let old := s.raw off
  let new := old - (old &&& (v % 2 ^ 9))
  let s := s.setRaw off new
  if bits old 7 0 ≠ 0 ∧ bits new 7 0 = 0 then s.put R.PC_OVF_PEND_banks [] (s.get R.PC_OVF_PEND_banks - 1) else s

/-- A write of a counter's _HI word: the count is loaded while its selector's en is 0 (Table 23-6, R544). -/
def State.cntWrite (s : State) (off v : Nat) : State :=
  let lo := off - 4
  if bit (s.raw (off - 8)) 10 then s
  else (s.setRaw lo (s.loHeld.get lo (s.raw lo))).setRaw off (v % 2 ^ 16)

/-- A ring of the collector lies in the Hoard and its length in its range (R576). -/
def State.pcRingOk (s : State) (snap : Bool) (base len : Nat) : Bool :=
  let size := if snap then snapStride s.cfg else 256
  let range := if snap then decide (1 ≤ len ∧ len ≤ 8) else decide (4 ≤ len ∧ len ≤ 12)
  range && s.hoardRange base (size * 2 ^ len)

/-- A write to PC_SNAP_CFG or PC_SMP_CFG, or to a ring base: refused where it would leave an enabled ring that is not in
the Hoard or not in range (R576, R579, log 62). -/
def State.pcRingWrite (s : State) (snap base : Bool) (v : Nat) : State :=
  let cfg := if snap then R.PC_SNAP_CFG else R.PC_SMP_CFG
  let bas := if snap then R.PC_SNAP_BASE else R.PC_SMP_BASE
  let c := if base then s.regWord cfg else v
  let b := if base then v % 2 ^ 32 else s.regWord bas
  let r := if base then bas else cfg
  if bit c 4 && !s.pcRingOk snap b (bits c 3 0) then s.pcRefused r.off
  else s.setRegWord r [] (fieldsWrite (s.regWord r) v r.fields)

/-! ### The commands -/

/-- SNAPSHOT_INSTANT. -/
def execSnapshotInstant (s : State) : Host.Outcome State Fault Refusal := .next s.snapshot

/-- SNAPSHOT_RECORD_WRITTEN. -/
def execSnapshotRecordWritten (err : Bool) (s : State) : Host.Outcome State Fault Refusal := .next (s.snapWritten err)

/-- TAG_SAMPLE_WRITE. -/
def execTagSampleWrite (c e : Nat) (err : Bool) (s : State) : Host.Outcome State Fault Refusal :=
  .next (s.sampleWrite c e err)

/-- OVERFLOW_CAPTURE. -/
def execOverflowCapture (c e : Nat) (s : State) : Host.Outcome State Fault Refusal := .next (s.captureOvf c e)

/-- PC_SEL_WRITE. -/
def execPcSelWrite (src : Src) (off v : Nat) (s : State) : Host.Outcome State Fault Refusal := .next (s.selWrite src off v)

/-- PC_CLEAR. -/
def execPcClear (src : Src) (s : State) : Host.Outcome State Fault Refusal := .next (s.pcClear src)

end Sys2Proof.Machine
end

