-- ==== Sys2Proof/Machine/Position.lean ====
section
/-! DEFINITION. The position unit (chapter 4): filtering, counting, SSI, index latch, direction, speed, standstill,
count loads and thresholds. -/

namespace Sys2Proof.Machine

/-- Element `i` of three. -/
def vget {α : Type} (v : Vector α 3) (i : Fin 3) : α := v.get i

/-- Three elements with element `i` replaced. -/
def vset {α : Type} (v : Vector α 3) (i : Fin 3) (a : α) : Vector α 3 := v.set i.val a i.isLt

/-! ### Parts in flight, as R67, R68 and R103 ask -/

/-- A part's anchor is stamped, so that its verdict deadline is known (R283). -/
def Part.anchored (d : RecipeDesc) (p : Part) : Bool := !d.trailing || p.close.isSome

/-- Some part slot is open (R67, R68). -/
def State.slotOpen (s : State) : Bool := s.rcp.vals.any (fun r => r.parts.any (fun p => p.slot.isSome))

/-- Some open part slot holds a deadline on channel `ch` (R103). -/
def State.deadlineOn (s : State) (ch : Nat) : Bool :=
  s.rcp.vals.any (fun r => match r.recipe with
    | some d => d.posCh == ch && r.parts.any (fun p => p.slot.isSome && p.anchored d)
    | none => false)

/-! ### Speed (R97) -/

/-- The earlier edge that the raw speed is taken from: the most recent with 1 ms or 256 counts between, or else the
oldest kept. -/
def speedBase (c t : Nat) : List (Nat × Nat) → Option (Nat × Nat)
  | [] => none
  | (cj, tj) :: l =>
    if tj + 1000000 ≤ t ∨ 256 ≤ (cntDiff c cj).natAbs then some (cj, tj)
    else match l with
      | [] => some (cj, tj)
      | _ :: _ => speedBase c t l

/-- The raw speed at `now`, in 2^-32 counts per ms, from the edges counted since the channel started. -/
def PuCh.rawSpeed (p : PuCh) (now : Nat) : Int :=
  match p.hist with
  | [] => 0
  | (ck, tk) :: l =>
    if p.edges ≤ 1 then 0
    else match speedBase ck tk (l.take (p.edges - 1)) with
      | none => 0
      | some (cj, tj) =>
        let raw := cntDiff ck cj * speedScale / ((tk : Int) - (tj : Int))
        let d : Int := (now : Int) - (tk : Int)
        if raw ≠ 0 ∧ speedScale < (raw.natAbs : Int) * d then (if raw < 0 then -(speedScale / d) else speedScale / d)
        else raw

/-- `x` brought between `a` and `b`. -/
def clampBetween (a b x : Int) : Int := max (min a b) (min (max a b) x)

/-- How far at least a first-order filter of time constant `tau` ns goes, of a difference `d`, in `dt` ns: dt / (tau + dt) of
it, rounded away from 0. -/
def filterLeast (d : Int) (dt tau : Nat) : Int :=
  d.sign * (((d.natAbs * dt + (tau + dt) - 1) / (tau + dt) : Nat) : Int)

/-- How far it goes at most: dt / tau of the difference, rounded away from 0, and never past it. -/
def filterMost (d : Int) (dt tau : Nat) : Int :=
  d.sign * ((min d.natAbs ((d.natAbs * dt + tau - 1) / tau) : Nat) : Int)

/-- The estimate after a filter update `up` ns into the position clock's time, at TT `now` (R97). A first-order filter goes
1 − e^(−dt / tau) of the way from the old estimate to the raw speed, which lies between dt / (tau + dt) and dt / tau; where
between them, its arithmetic decides, which the manual leaves open (log 13). -/
def PuCh.filterSpeed (p : PuCh) (now up tau : Nat) : PuCh :=
  let raw := p.rawSpeed now
  let d := raw - p.speed
  let dt := up - p.speedAt
  let step := clampBetween (filterLeast d dt (tau * 1000000)) (filterMost d dt (tau * 1000000))
    (Config.speedFilter p.speed raw dt tau - p.speed)
  { p with speed := p.speed + step, speedAt := up }

/-- PU_SPEED shows the estimate in 2^-12 counts per ms. -/
def State.showSpeed (s : State) (ch : Nat) : State :=
  s.put R.PU_SPEED_speed [ch] (wrapInt 32 ((s.ch ch).speed / (2 ^ 20 : Nat)))

/-- Update channel `ch`'s speed estimate now. -/
def State.speedUpdate (s : State) (ch : Nat) : State :=
  (s.setCh ch ((s.ch ch).filterSpeed s.tt s.up (s.get R.PU_HYST_speed_tau [ch]))).showSpeed ch

/-! ### Counting -/

/-- Edges kept: back to the first that is 1 ms old, which R97 and R98 need at most (log 14). -/
def keepEdges (now : Nat) : List (Nat × Nat) → List (Nat × Nat)
  | [] => []
  | (c, t) :: l => if t + 1000000 ≤ now then [(c, t)] else (c, t) :: keepEdges now l

/-- Set a channel's bit in PU_IRQ; a newly set and enabled bit is a pending item of pu_vec (R96, R556). -/
def State.dirIrq (s : State) (ch : Nat) : State :=
  let was := bit (s.get R.PU_IRQ_dir_chg) ch
  let s := s.put R.PU_IRQ_dir_chg [] (s.get R.PU_IRQ_dir_chg ||| 2 ^ ch)
  if !was && bit (s.get R.PU_IRQ_EN_en) ch then s.irqItem (s.get R.HP_IRQ_MAP_pu_vec) else s

/-- The direction flag after a counted edge (R96); a confirmation re-anchors the channel's guards (R303). -/
def State.dirUpdate (s : State) (ch : Nat) : State :=
  let p := s.ch ch
  let hyst := s.get R.PU_HYST_hyst [ch]
  let confirm (up : Bool) (s : State) : State :=
    let s := (s.put R.PU_STATUS_dir [ch] (b2n up)).put R.PU_STATUS_dir_valid [ch] 1
    let s := s.setCh ch { s.ch ch with far := p.cnt }
    let s := s.postLim E.DIR_CHANGE 0 (some ch) [(.en, b2n up), (.wide, p.cnt)]
    (s.dirIrq ch).guardCycle ch true
  if !s.flag R.PU_STATUS_dir_valid [ch] then
    let d := cntDiff p.cnt p.start
    if hyst ≤ d.natAbs then confirm (decide (0 < d)) s else s
  else
    let up := s.flag R.PU_STATUS_dir [ch]
    let back := if up then cntDiff p.far p.cnt else cntDiff p.cnt p.far
    if (hyst : Int) ≤ back then confirm (!up) s
    else if back < 0 then s.setCh ch { p with far := p.cnt } else s

/-- Show the count (Table 4-3). -/
def State.showCnt (s : State) (ch : Nat) : State := s.setPair R.PU_CNT_LO R.PU_CNT_HI [ch] (s.ch ch).cnt

/-- A counted step of `d` counts (R90, R91, R96, R97, R99): stamp, standstill, direction, speed, guards. -/
def State.countStep (s : State) (ch : Nat) (d : Int) : State :=
  let d := if s.flag R.PU_CH_CTL_invert_dir [ch] then -d else d
  let p := s.ch ch
  let c := cntAdd p.cnt d
  let p := { p with cnt := c, edges := p.edges + 1, hist := (c, s.tt) :: keepEdges s.tt p.hist, still := s.up }
  let s := (s.setCh ch p).showCnt ch
  let moved := s.flag R.PU_STATUS_standstill [ch]
  let s := s.speedUpdate ch
  let s := if moved then
      ((s.put R.PU_STATUS_standstill [ch] 0).postLim E.MOTION 0 (some ch) [(.wide, c)]).guardCycle ch true
    else s
  (s.dirUpdate ch).guardCycle ch false

/-- The step of a quadrature change, +1 when A leads B (R90). -/
def quadStep (a b a' b' : Bool) : Int :=
  if a ≠ a' then (if a' ≠ b then 1 else -1) else if b ≠ b' then (if b' = a then 1 else -1) else 0

/-- The place of a Hall state in the forward sequence (Table 4-2). -/
def hallPlace (code : Nat) : Option Nat :=
  match code with
  | 1 => some 0 | 3 => some 1 | 2 => some 2 | 6 => some 3 | 4 => some 4 | 5 => some 5
  | _ => none

/-- A Hall channel shows a state (R90, R111, R607). -/
def State.hallMove (s : State) (ch code : Nat) : State :=
  let p := s.ch ch
  match hallPlace code with
  | none =>
    let s := s.setCh ch { p with hallRef := none }
    (s.bump R.PU_ERR_quad_hall [ch]).postLim E.HALL_INVALID 0 (some ch) [(.en, code)]
  | some n =>
    let s1 := s.setCh ch { p with hallRef := some code }
    match p.hallRef.bind hallPlace with
    | none => s1
    | some o =>
      if n = (o + 1) % 6 then s1.countStep ch 1
      else if o = (n + 1) % 6 then s1.countStep ch (-1)
      else if n = o then s1
      else (s1.bump R.PU_ERR_quad_hall [ch]).postLim E.HALL_SKIP 0 (some ch)
        [(.en, p.hallRef.getD 0), (.en, code)]

/-- The index latch (R95): the count is copied, idx_new sets, and the drift from idx_period is checked. -/
def State.indexLatch (s : State) (ch : Nat) : State :=
  let p := s.ch ch
  let s := (s.setPair R.PU_IDX_LO R.PU_IDX_HI [ch] p.cnt).put R.PU_STATUS_idx_new [ch] 1
  let s := s.setCh ch { p with idxPrev := some p.cnt }
  let per := s.get R.PU_IDX_CHK_idx_period [ch]
  match p.idxPrev with
  | some prev =>
    let ex : Int := ((cntDiff p.cnt prev).natAbs : Int) - (per : Int)
    if per ≠ 0 ∧ s.get R.PU_IDX_CHK_idx_tol [ch] < ex.natAbs then s.postLim E.IDX_DRIFT 0 (some ch) [sval ex] else s
  | none => s

/-- The level of input `i` in a code of three levels, first input in bit 0. -/
def lvlBit (l i : Nat) : Bool := bit l i

/-- One accepted edge of input `i`: overrate (R89) and the time of its toggle. -/
def State.inputEdge (s : State) (ch : Nat) (i : Fin 3) : State :=
  let p := s.ch ch
  let tooFast : Bool := match vget p.edge i with
    | some n => decide (s.tb.cycles < n + 10)
    | none => false
  let s := s.setCh ch { p with edge := vset p.edge i (some s.tb.cycles), toggle := vset p.toggle i (some s.up) }
  if tooFast then (s.bump R.PU_ERR_overrate [ch]).postLim E.OVERRATE 0 (some ch) [(.ix, i.val)] else s

/-- New accepted levels of channel `ch` (R88 to R91, R95, R100, R111). Before the first level of an input no edge is
taken. -/
def State.acceptLevels (s : State) (ch levels : Nat) : State :=
  let p := s.ch ch
  let now : Fin 3 → Bool := fun i => lvlBit levels i.val
  let changed : Fin 3 → Bool := fun i => match vget p.lvl i with
    | some b => b != now i
    | none => false
  let old : Fin 3 → Bool := fun i => (vget p.lvl i).getD (now i)
  let s := s.setCh ch { p with lvl := #v[some (now 0), some (now 1), some (now 2)] }
  let s := foldS ([0, 1, 2].filter changed) (fun i s => s.inputEdge ch i) s
  let mode := s.get R.PU_CH_CTL_mode [ch]
  let anyEdge := changed 0 || changed 1 || changed 2
  if mode = 1 then
    let s :=
      if changed 0 && changed 1 then
        (s.bump R.PU_ERR_quad_hall [ch]).postLim E.QUAD_ERROR 0 (some ch) [(.wide, (s.ch ch).cnt)]
      else
        let d := quadStep (old 0) (old 1) (now 0) (now 1)
        if d = 0 then s else s.countStep ch d
    let z := changed 2 && now 2 && s.flag R.PU_CH_CTL_idx_en [ch]
      && (!s.flag R.PU_CH_CTL_idx_gate [ch] || (now 0 && now 1))
    if z then s.indexLatch ch else s
  else if mode = 2 then
    let code := b2n (now 0) * 4 + b2n (now 1) * 2 + b2n (now 2)
    let s := s.put R.PU_STATUS_hall [ch] code
    if anyEdge then s.hallMove ch code else s
  else s

/-- One position cycle in which the synchronisers of channel `ch` deliver `levels`: a level sampled unchanged for
filt + 1 cycles, or the first that an input shows, is accepted; a shorter pulse leaves no trace (R88, R110). -/
def State.filterCycle (s : State) (ch levels : Nat) : State :=
  let p := s.ch ch
  let filt := s.get R.PU_CH_CTL_filt [ch]
  let now : Fin 3 → Bool := fun i => lvlBit levels i.val
  let run : Fin 3 → Nat := fun i => if vget p.seen i = now i then min 8 (vget p.run i + 1) else 1
  let acc : Fin 3 → Bool := fun i => match vget p.lvl i with
    | some l => if filt + 1 ≤ run i then now i else l
    | none => now i
  let s := s.setCh ch { p with seen := #v[now 0, now 1, now 2], run := #v[run 0, run 1, run 2] }
  if p.lvl = #v[some (acc 0), some (acc 1), some (acc 2)] then s
  else s.acceptLevels ch (b2n (acc 0) + 2 * b2n (acc 1) + 4 * b2n (acc 2))

/-! ### SSI (R92, R93) -/

/-- Position cycles of an SSI frame: its clock periods, 2 × (ssi_div + 1) cycles each (R92). -/
def State.ssiClocks (s : State) (ch : Nat) : Nat :=
  2 * s.get R.PU_CH_CTL_ssi_bits [ch] * (s.get R.PU_CH_CTL_ssi_div [ch] + 1)

/-- The level of the SSI clock of channel `ch`: high when idle; in a frame each pulse is half a period low, then half a
period high (R92, log 88). -/
def State.ssiClock (s : State) (ch : Nat) : Bool :=
  match (s.ch ch).ssiStart with
  | some n =>
    let c := s.tb.cycles - n
    !((s.ch ch).ssiBusy && decide (c < s.ssiClocks ch)) || c / (s.get R.PU_CH_CTL_ssi_div [ch] + 1) % 2 == 1
  | none => true

/-- The level at pass-through output `i` (R100, R111, R112) while pt_en is set and the channel is on: the accepted input;
in SSI mode the SSI clock and the encoder's data line, which is the first input (log 88). Else low. -/
def State.passThrough (s : State) (ch : Nat) (i : Fin 3) : Bool :=
  let p := s.ch ch
  s.flag R.PU_CH_CTL_pt_en [ch] && s.get R.PU_CH_CTL_mode [ch] != 0
    && (if s.get R.PU_CH_CTL_mode [ch] = 3 then
          (if i = 0 then s.ssiClock ch else i == 1 && (vget p.lvl 0).getD false)
        else (vget p.lvl i).getD false)

/-- The word that a frame samples from the data line: bit `k`, most significant first, ssi_delay position cycles after the
rising edge of clock `k`. Bit `c` of `line` is the line's level `c` cycles after the frame began (R92). -/
def State.ssiWord (s : State) (ch line : Nat) : Nat :=
  let half := s.get R.PU_CH_CTL_ssi_div [ch] + 1
  (List.range (s.get R.PU_CH_CTL_ssi_bits [ch])).foldl
    (fun w k => 2 * w + b2n (bit line ((2 * k + 1) * half + s.get R.PU_CH_CTL_ssi_delay [ch]))) 0

/-- Position cycles of the recovery time after the last clock. -/
def State.ssiRecovery (s : State) (ch : Nat) : Nat := s.get R.PU_SSI_ssi_recovery [ch] * 400

/-- The data line is high throughout the recovery time (R93). -/
def State.ssiStuck (s : State) (ch line : Nat) : Bool :=
  line / 2 ^ s.ssiClocks ch % 2 ^ s.ssiRecovery ch == 2 ^ s.ssiRecovery ch - 1

/-- Gray decoding of a word of `w` bits. -/
def grayDecode : Nat → Nat → Nat
  | 0, _ => 0
  | w + 1, g =>
    let rest := grayDecode w (g / 2)
    rest * 2 + ((g + rest) % 2)

/-- An erroneous frame: it is counted and reported; cause 1 not_ready, 2 stuck_high, 3 step. -/
def State.ssiError (s : State) (ch cause : Nat) : State :=
  let s := s.setCh ch { s.ch ch with ssiErr := (s.ch ch).ssiErr + 1 }
  (s.bump R.PU_ERR_ssi [ch]).postLim E.SSI_FRAME_ERROR cause (some ch) [(.en, cause)]

/-- A complete SSI frame of raw word `w` (R92, R93). A difference is taken against the last good word; after three
erroneous frames the next frame that is ready and not stuck is good whatever its difference (log 89). -/
def State.ssiFrame (s : State) (ch w : Nat) (notReady stuckHigh : Bool) : State :=
  let p := s.ch ch
  let s := s.setCh ch { p with ssiBusy := false }
  let bitsN := s.get R.PU_CH_CTL_ssi_bits [ch]
  let word := if s.flag R.PU_CH_CTL_ssi_gray [ch] then grayDecode bitsN (w % 2 ^ bitsN) else w % 2 ^ bitsN
  if notReady then s.ssiError ch 1
  else if stuckHigh then s.ssiError ch 2
  else match p.ssiRef with
    | none => s.setCh ch { s.ch ch with ssiRef := some word, ssiErr := 0 }
    | some ref =>
      let d := signedOf bitsN (word + 2 ^ bitsN - ref)
      if 3 ≤ p.ssiErr then
        (s.setCh ch { s.ch ch with ssiRef := some word, ssiErr := 0 }).postLim E.SSI_RESYNC 0 (some ch) [sval d]
      else if s.get R.PU_SSI_ssi_maxstep [ch] < d.natAbs then s.ssiError ch 3
      else
        let s := s.setCh ch { s.ch ch with ssiRef := some word, ssiErr := 0 }
        if d = 0 then s else s.countStep ch d

/-- R94: the frame time, in ns, that ssi_period must leave room for; a clock period is 2 × (ssi_div + 1) cycles of
2.5 ns. -/
def ssiFits (ctl ssi : Nat) : Bool :=
  decide (bits ctl 15 10 * 5 * (bits ctl 23 16 + 1) + bits ssi 15 10 * 1000 + 1000 ≤ bits ssi 9 0 * 1000)

/-! ### Count loads (R103) -/

/-- Shift every count that a channel keeps by `d`. -/
def PuCh.relabel (p : PuCh) (d : Int) : PuCh :=
  { p with cnt := cntAdd p.cnt d, hist := p.hist.map (fun e => (cntAdd e.1 d, e.2)), start := cntAdd p.start d,
           far := cntAdd p.far d, idxPrev := p.idxPrev.map (fun c => cntAdd c d) }

/-- A load of channel `ch` with `v` (R103). -/
def State.countLoad (s : State) (ch v : Nat) : State :=
  let dl := s.deadlineOn ch
  let pe := s.cntPending ch
  if dl || pe then s.postLim E.CNT_LOAD_REFUSED 0 (some ch) [(.en, b2n dl), (.en, b2n pe)]
  else (s.setCh ch ((s.ch ch).relabel (cntDiff v (s.ch ch).cnt))).showCnt ch

/-! ### BYPASS_HOLD (R55, R101) -/

/-- The failing condition of R101, numbered from 1 in its order: bypass_open, the POSITION phase, a stop condition,
a channel with pt_en and mode off; 0 when BYPASS_HOLD may toggle. -/
def State.bypassFail (s : State) : Nat :=
  if !s.flag R.PU_GLOBAL_bypass_open then 1
  else if s.phase < 7 ∨ s.phase = 15 then 2
  else if s.por || s.warm || s.heldIsl.contains 53 || bits (s.get R.EM_VMON_STATUS_fault) 7 0 != 0 then 3
  else if (List.range s.cfg.posChannels).any
      (fun c => s.flag R.PU_CH_CTL_pt_en [c] && s.get R.PU_CH_CTL_mode [c] == 0) then 4
  else 0

/-- BYPASS_HOLD starts or stops toggling as its conditions change, and BYPASS_STATE is posted (R101). -/
def State.bypassUpdate (s : State) : State :=
  let f := s.bypassFail
  if f = 0 ∧ s.bypassHold = false then
    ({ s with bypassHold := true }).postLim E.BYPASS_STATE 0 none [(.en, 1), (.en, 0)]
  else if f ≠ 0 ∧ s.bypassHold then
    ({ s with bypassHold := false }).postLim E.BYPASS_STATE f none [(.en, 2), (.en, f)]
  else s

/-! ### PU_CH_CTL and PU_SSI (R104) -/

/-- The position unit is clocked: its island is not held (R49). -/
def State.puClocked (s : State) : Bool := !s.heldIsl.contains 53

/-- R104: a change of another field while the channel is on, or a mode set with fields that break R94, is refused. -/
def puCtlCheck (s : State) (ch old v : Nat) : Option Nat :=
  let new := fieldsWrite old v R.PU_CH_CTL.fields
  if bits old 1 0 ≠ 0 ∧ bits old 31 2 ≠ bits new 31 2 then some causeBlock
  else if bits new 1 0 = 3 ∧ ssiFits new (s.regWord R.PU_SSI [ch]) = false then some causeBlock
  else none

/-- PU_SSI while the channel is on, or with a period that breaks R94, is refused (R104). -/
def puSsiCheck (s : State) (ch old v : Nat) : Option Nat :=
  let new := fieldsWrite old v R.PU_SSI.fields
  if s.get R.PU_CH_CTL_mode [ch] ≠ 0 ∧ old ≠ new then some causeBlock
  else none

/-- PU_CFG_REFUSED names the register. -/
def State.puRefused (s : State) (ch off : Nat) : State := s.postLim E.PU_CFG_REFUSED off (some ch) [(.val, off)]

/-- A channel's mode has changed (R96, R99, R104, R607): set from off it starts here; set to off it abandons a frame
in progress. A change between two modes that are not off does not start the channel anew (log 89). -/
def State.modeChange (s : State) (ch old new : Nat) : State :=
  let p := s.ch ch
  if bits old 1 0 = 0 ∧ bits new 1 0 ≠ 0 then
    let code := b2n ((vget p.lvl 0).getD false) * 4 + b2n ((vget p.lvl 1).getD false) * 2 + b2n ((vget p.lvl 2).getD false)
    let s := s.setCh ch { p with start := p.cnt, far := p.cnt, edges := 0, ssiRef := none, ssiErr := 0,
                                 ssiBusy := false, ssiStart := none, hallRef := (hallPlace code).map (fun _ => code) }
    let s := s.put R.PU_STATUS_dir_valid [ch] 0
    if bits new 1 0 = 2 then s.put R.PU_STATUS_hall [ch] code else s
  else if bits new 1 0 = 0 then s.setCh ch { p with ssiBusy := false }
  else s

/-- A write to PU_CH_CTL or PU_SSI (R104). -/
def State.puCtlWrite (s : State) (src : Src) (ch : Nat) (ssi : Bool) (v : Nat) : State :=
  if ch < s.cfg.posChannels ∧ s.puClocked then
    if ssi then
      s.paramWrite src R.PU_SSI [ch] v (fun s old v => puSsiCheck s ch old v)
        (fun s => s.puRefused ch (R.PU_SSI.addr [ch])) (fun s _ _ => s)
    else
      (s.paramWrite src R.PU_CH_CTL [ch] v (fun s old v => puCtlCheck s ch old v)
        (fun s => s.puRefused ch (R.PU_CH_CTL.addr [ch])) (fun s old new => s.modeChange ch old new)).bypassUpdate
  else s

/-! ### Thresholds (R108) -/

/-- The threshold field of an input. -/
def thrField (i : Nat) : Fld := if i = 0 then R.PU_THR_thr_a else if i = 1 then R.PU_THR_thr_b else R.PU_THR_thr_z

/-- Input `k` has toggled within the last 10 ms. -/
def State.toggled (s : State) (ch : Nat) (k : Fin 3) : Bool :=
  match vget (s.ch ch).toggle k with
  | some t => decide (s.up ≤ t + 10000000)
  | none => false

/-- An input has lost its swing, or has it again; los shows whether some input has lost it. -/
def State.setLost (s : State) (ch i : Nat) (b : Bool) : State :=
  let p := s.ch ch
  let n := setBits p.lost i i (b2n b)
  (s.setCh ch { p with lost := n }).put R.PU_STATUS_los [ch] (b2n (n != 0))

/-- Every threshold scan begins now: the loop is switched on. -/
def State.startScans (s : State) : State :=
  foldS (List.range s.cfg.posChannels) (fun ch s => s.setCh ch { s.ch ch with scan := #v[s.up, s.up, s.up] }) s

/-- The code of the monitor comparator of an input (R108, R114): a scan dwells 100 µs on each of the 64 codes; with the loop
off the code is 0 (log 90). -/
def State.monitorCode (s : State) (ch : Nat) (i : Fin 3) : Nat :=
  if s.flag R.PU_GLOBAL_thr_loop then min 63 ((s.up - vget (s.ch ch).scan i) / 100000) else 0

/-- The lowest and the highest code at which the monitor toggled, bit `c` of `codes` for code `c`; (0, 0) with none. -/
def toggledCodes (codes : Nat) : Nat × Nat :=
  let l := (List.range 64).filter (bit codes)
  (l.headD 0, l.getLastD 0)

/-- A scan of input `i` ends with the codes at which the monitor toggled (R108). With none the threshold stays, and the
swing counts as 0 (log 90). -/
def State.scanDone (s : State) (ch i codes : Nat) : State :=
  let lo := (toggledCodes codes).1
  let hi := (toggledCodes codes).2
  let s := s.setCh ch { s.ch ch with scan := vset (s.ch ch).scan (Fin.ofNat 3 i) s.up }
  let others := ([0, 1, 2] : List (Fin 3)).any (fun k => k.val != i && s.toggled ch k)
  let s := if s.toggled ch (Fin.ofNat 3 i) && codes % 2 ^ 64 != 0 then
      let cur := s.get (thrField i) [ch]
      let mid := (hi + lo) / 2
      s.put (thrField i) [ch] (if cur < mid then cur + 1 else if mid < cur then cur - 1 else cur)
    else s
  if hi - lo < 8 then
    if others && !bit (s.ch ch).lost i then
      (s.setLost ch i true).postLim E.INPUT_LOS i (some ch) [(.ix, i), (.val, hi - lo)]
    else s
  else s.setLost ch i false

/-! ### Commands -/

/-- ENCODER_EDGE_ACCEPTED: the synchronisers of channel `ch` show levels for some position cycles; its filters accept what has held long enough (R88). Cycles after the eighth change nothing (log 88). -/
def execEncoderEdgeAccepted (ch : Nat) (x : HeldLevels) (s : State) : Host.Outcome State Fault Refusal :=
  .next (if ch < s.cfg.posChannels ∧ s.puClocked then
      foldS (List.range (min x.cycles 8)) (fun _ s => s.filterCycle ch x.levels) s
    else s)

/-- SSI_FRAME_START: ssi_period µs after the last frame of an SSI channel began, the next one begins (R92). -/
def execSsiFrameStart (ch : Nat) (s : State) : Host.Outcome State Fault Refusal :=
  let due := match (s.ch ch).ssiStart with
    | some n => decide (n + s.get R.PU_SSI_ssi_period [ch] * 400 ≤ s.tb.cycles)
    | none => true
  .next (if s.chOn ch && s.puClocked && s.get R.PU_CH_CTL_mode [ch] == 3 && due then
      s.setCh ch { s.ch ch with ssiBusy := true, ssiStart := some s.tb.cycles }
    else s)

/-- The clocks of the frame in progress and its recovery time are over. -/
def State.ssiOver (s : State) (ch : Nat) : Bool :=
  (s.ch ch).ssiBusy && (match (s.ch ch).ssiStart with
    | some n => decide (n + s.ssiClocks ch + s.ssiRecovery ch ≤ s.tb.cycles)
    | none => false)

/-- The levels of the data line from the start of a frame on, bit `c` the one after `c` position cycles: those of the clocks,
then those of the recovery time. -/
def State.ssiLine (s : State) (ch clocked recovery : Nat) : Nat :=
  clocked % 2 ^ s.ssiClocks ch + recovery * 2 ^ s.ssiClocks ch

/-- SSI_FRAME_COMPLETE: a frame and its recovery time are over (R92, R93). -/
def execSsiFrameComplete (ch : Nat) (ready : Bool) (clocked recovery : Nat) (s : State) : Host.Outcome State Fault Refusal :=
  let line := s.ssiLine ch clocked recovery
  .next (if s.chOn ch && s.puClocked && s.get R.PU_CH_CTL_mode [ch] == 3 && s.ssiOver ch then
      s.ssiFrame ch (s.ssiWord ch line) (!ready) (s.ssiStuck ch line)
    else s)

/-- SPEED_ESTIMATE_UPDATE: the update of a channel that is on, 10 µs after the last such update (R97). -/
def execSpeedEstimateUpdate (ch : Nat) (s : State) : Host.Outcome State Fault Refusal :=
  .next (if s.chOn ch && s.puClocked && decide ((s.ch ch).speedTick + 10000 ≤ s.up) then
      ((s.setCh ch { s.ch ch with speedTick := s.up }).speedUpdate ch).guardCycle ch false
    else s)

/-- STANDSTILL_TIMEOUT (R99): no edge counted for PU_STILL ms. -/
def execStandstillTimeout (ch : Nat) (s : State) : Host.Outcome State Fault Refusal :=
  .next (if ch < s.cfg.posChannels ∧ s.puClocked ∧ s.flag R.PU_STATUS_standstill [ch] = false
      ∧ (s.ch ch).still + s.get R.PU_STILL_still [ch] * 1000000 ≤ s.up then
      ((s.holdPredictions ch).put R.PU_STATUS_standstill [ch] 1).postLim E.STANDSTILL 0 (some ch)
        [(.wide, (s.ch ch).cnt)]
    else s)

/-- A write to PU_LOAD_HI. -/
def State.cntLoadWrite (s : State) (ch hi : Nat) : State :=
  if ch < s.cfg.posChannels ∧ s.puClocked then
      let lo := s.loHeld.get (R.PU_LOAD_LO.addr [ch]) (s.regWord R.PU_LOAD_LO [ch])
      let s := (s.setRegWord R.PU_LOAD_LO [ch] lo).setRegWord R.PU_LOAD_HI [ch] (hi % 2 ^ 16)
      s.countLoad ch (lo + (hi % 2 ^ 16) * 2 ^ 32)
    else s

/-- COUNT_LOAD: a write of `hi` to PU_LOAD_HI applies the pair and requests the load (R103, R544). -/
def execCountLoad (ch hi : Nat) (s : State) : Host.Outcome State Fault Refusal :=
  .next (s.cntLoadWrite ch hi)

/-- PU_CH_CTL_WRITE: a write to PU_CH_CTL, or with `ssi` to PU_SSI. -/
def execPuChCtlWrite (src : Src) (ch : Nat) (ssi : Bool) (v : Nat) (s : State) : Host.Outcome State Fault Refusal :=
  .next (s.puCtlWrite src ch ssi v)

/-- PU_IDX_LO_READ: the low half of the latch is read; the upper half is latched and idx_new clears (R95, R59). -/
def execPuIdxLoRead (ch : Nat) (s : State) : Host.Outcome State Fault Refusal :=
  .next (if ch < s.cfg.posChannels then
      if s.puClocked then
        ({ s with rdata := s.regWord R.PU_IDX_LO [ch],
                  hiLatch := s.hiLatch.set (R.PU_IDX_HI.addr [ch]) (s.regWord R.PU_IDX_HI [ch]) }).put
          R.PU_STATUS_idx_new [ch] 0
      else { s with rdata := resetWord s.cfg R.PU_IDX_LO [ch] }
    else { s with rdata := 0 })

/-- PU_STATUS_READ: the status is read and idx_new clears (R95, R10). -/
def execPuStatusRead (ch : Nat) (s : State) : Host.Outcome State Fault Refusal :=
  .next (if ch < s.cfg.posChannels then
      if s.puClocked then ({ s with rdata := s.regWord R.PU_STATUS [ch] }).put R.PU_STATUS_idx_new [ch] 0
      else { s with rdata := resetWord s.cfg R.PU_STATUS [ch] }
    else { s with rdata := 0 })

/-- A scan's codes, bit `c` for code `c`: 0 to 31 in `low`, 32 to 63 in `high`. -/
def scanCodes (low high : Nat) : Nat := low % 2 ^ 32 + high % 2 ^ 32 * 2 ^ 32

/-- THRESHOLD_SCAN_COMPLETE: with the threshold loop on, the 6.4 ms scan of one input is over (R108). -/
def execThresholdScanComplete (ch input low high : Nat) (s : State) : Host.Outcome State Fault Refusal :=
  .next (if ch < s.cfg.posChannels ∧ s.puClocked ∧ input < 3 ∧ s.flag R.PU_GLOBAL_thr_loop
      ∧ vget (s.ch ch).scan (Fin.ofNat 3 input) + 6400000 ≤ s.up then s.scanDone ch input (scanCodes low high) else s)

end Sys2Proof.Machine
end

