-- ==== Sys2Proof/Machine/Timebase.lean ====
section
/-! DEFINITION. The timebase (chapter 3): the TT counter, references, states, pull, steps, holdover and alignment. -/

namespace Sys2Proof.Machine

/-! ### The TT counter (R57) -/

/-- The nominal step of a position cycle, 2.5 ns in 2^-32 ns. -/
def stepNominal : Int := 10737418240

/-- The step in force under the rate correction of TB_RATE (10^-12). -/
def State.ttStep (s : State) : Nat :=
  (stepNominal + signedOf 32 (s.get R.TB_RATE_rate) * stepNominal / 1000000000000).toNat

/-- QREF_OUT's rate at an update, 1 µs after the one before: toward TT's rate by at most 1 ppb (R72). -/
def qrefNext (q rate : Int) : Int := q + max (-1000) (min 1000 (rate - q))

/-- The frequency of QREF_OUT in µHz: 125 MHz at rate 0 (R83, R87). -/
def State.qrefMicroHz (s : State) : Int := 125000000000000 + 125 * s.tb.qref

/-- One position cycle passes: TT advances by its step, and QREF_OUT is updated every 400 cycles. Every stamp of the block
reads this one TT: the model takes the difference of up to 4 ns that R58 allows between islands as 0 (DESIGN CHOICE, log 78). -/
def State.advanceTt (s : State) : State :=
  let a := s.ttFrac + s.ttStep
  let t := s.tb
  let q := if (t.cycles + 1) % 400 = 0 then qrefNext t.qref (signedOf 32 (s.get R.TB_RATE_rate)) else t.qref
  { s with tt := (s.tt + a / 2 ^ 32) % 2 ^ 64, ttFrac := a % 2 ^ 32, tb := { t with cycles := t.cycles + 1, qref := q } }

/-! ### References -/

/-- A reference at reset. -/
def RefSt.init : RefSt := { clean := none, lastTick := none, rate := 0 }

def State.ref (s : State) (n : Nat) : RefSt := s.tb.refs.get n RefSt.init
def State.setRef (s : State) (n : Nat) (r : RefSt) : State := { s with tb := { s.tb with refs := s.tb.refs.set n r } }

/-- A reference is qualified (TB_STATUS.qualified). -/
def State.refQual (s : State) (n : Nat) : Bool := bit (s.get R.TB_STATUS_qualified) n

/-- Set or clear a reference's bit in TB_STATUS.qualified. -/
def State.setQual (s : State) (n : Nat) (b : Bool) : State :=
  s.put R.TB_STATUS_qualified [] (setBits (s.get R.TB_STATUS_qualified) n n (b2n b))

/-- Causes of TB_REF_CAUSE. -/
def refStop : Nat := 1
def refGlitch : Nat := 2
def refRate : Nat := 3
def refPort : Nat := 4
def refAbsent : Nat := 5

/-- A reference exists on this chip (R82): REF2 needs its port. -/
def State.refPresent (s : State) (n : Nat) : Bool :=
  decide (n < 2) || (n == 2 && decide (s.get R.TB_CTL_ref2_port < s.cfg.quillPorts))

/-- A reference fails a check (R62): its cause shows; a qualified one is disqualified and REF_DISQUALIFIED is posted.
`again` is since when it passes every check once more. -/
def State.disqualify (s : State) (n cause : Nat) (again : Option Nat) : State :=
  let was := s.refQual n
  let s := s.put R.TB_REF_CAUSE_cause [] (setBits (s.get R.TB_REF_CAUSE_cause) (4 * n + 3) (4 * n) cause)
  let s := s.setRef n { s.ref n with clean := again, lastTick := if cause = refStop then none else (s.ref n).lastTick }
  if was then (s.setQual n false).post E.REF_DISQUALIFIED none [(.ix, n), (.en, cause)] else s

/-! ### Phase measurements (R60, R65) -/

/-- A phase of TT relative to the tick phase, in −500,000 to 499,999 ns. -/
def wrapPhase (x : Int) : Int := (x + 500000) % 1000000 - 500000

/-- This chip is the time root: the rack lead with align_en clear (R71). -/
def State.timeRoot (s : State) : Bool := s.flag R.TB_CTL_rack_lead && !s.flag R.TB_CTL_align_en

/-- The tick phase in force: 0 on the time root, whatever TB_TICK_PHASE holds (R71), else that register. -/
def State.tickPhase (s : State) : Int := if s.timeRoot then 0 else signedOf 32 (s.get R.TB_TICK_PHASE_phase)

/-- The active source: 0 to 2 a reference, 3 LOCAL_OSC. -/
def State.activeRef (s : State) : Nat := s.get R.TB_STATUS_active

/-- The timebase state (Table 3-6): 0 FREE_RUN, 1 ACQUIRING, 2 LOCKED, 3 HOLDOVER, 4 LOST. -/
def State.tbSt (s : State) : Nat := s.get R.TB_STATUS_state

/-- History of at most the last 64 s (R69). -/
def keepHist (now : Nat) (l : List (Int × Nat)) : List (Int × Nat) :=
  l.filter (fun h => decide (now < h.2 + 64000000000))

/-- A phase measurement of the active source: the lock and unlock streaks, and the hold history while LOCKED. -/
def State.measure (s : State) (err : Int) : State :=
  let inside := decide (err.natAbs ≤ s.get R.TB_LOCK_WIN_win)
  let t := s.tb
  let s := { s with tb := { t with
    err := err
    lockStreak := if inside then min 64 (t.lockStreak + 1) else 0
    outStreak := if inside then 0 else t.outStreak + 1
    hist := if s.tbSt = 2 then (signedOf 32 (s.get R.TB_RATE_rate), s.up) :: keepHist s.up t.hist else t.hist } }
  s.put R.TB_PHASE_ERR_err [] (satInt 32 err)

/-! ### Holdover (R69) -/

/-- ⌊√n⌋ from `k` binary digits. -/
def isqrt : Nat → Nat → Nat
  | 0, _ => 0
  | k + 1, n =>
    let r := 2 * isqrt k (n / 4)
    if (r + 1) * (r + 1) ≤ n then r + 1 else r

/-- The mean of rate corrections. -/
def meanRate (l : List (Int × Nat)) : Int :=
  if l.isEmpty then 0 else (l.foldl (fun a h => a + h.1) 0) / (l.length : Int)

/-- The standard deviation of the rate over the history, at least 1 ppb (10^-12 units; log 15). -/
def rateDev (l : List (Int × Nat)) : Nat :=
  let m := meanRate l
  let v := (l.foldl (fun a h => a + ((h.1 - m) * (h.1 - m)).toNat) 0) / max 1 l.length
  max 1000 (isqrt 48 v)

/-- e(t) times 2·10^18, in ns. Outside HOLDOVER and LOST there is no entry to count from, and the estimate is 0 (DESIGN
CHOICE, log 79). -/
def State.holdScaled (s : State) : Nat :=
  match s.tb.hold with
  | none => 0
  | some (t0, e0) =>
    let t := s.up - t0
    e0 * 2000000000000000000 + rateDev s.tb.hist * t * 2000000 + s.get R.TB_HOLD_DRIFT_drift * t * t

/-- e(t) in ns (R69), saturating at 32 bits. -/
def State.holdEst (s : State) : Nat := satTo (2 ^ 32 - 1) (s.holdScaled / 2000000000000000000)

/-! ### Selection and states (R61, R64, Table 3-5) -/

/-- The priority list: the references it names, in order; 3 is empty (Table 3-6). -/
def State.prioList (s : State) : List Nat :=
  ([0, 1, 2].map (fun k => bits (s.get R.TB_CTL_priority) (2 * k + 1) (2 * k))).filter (fun n => n != 3)

/-- The reference that R61 and R77 select now, if any. With revertive 0, a qualified active reference that priority no longer
names is left at once (DESIGN CHOICE, log 80). -/
def State.selectRef (s : State) : Option Nat :=
  let ok (n : Nat) : Bool := s.refPresent n && s.refQual n
  match s.get R.TB_CTL_mode with
  | 1 =>
    if !s.flag R.TB_CTL_revertive && ok s.activeRef && s.prioList.contains s.activeRef then some s.activeRef
    else s.prioList.find? ok
  | 2 => if ok (s.get R.TB_CTL_manual_ref) then some (s.get R.TB_CTL_manual_ref) else none
  | _ => none

/-- Enter state `st` on source `a`, posting TB_STATE; the streaks start afresh, and FREE_RUN starts the hold history
afresh (R65). -/
def State.tbEnter (s : State) (st a : Nat) : State :=
  let old := s.tbSt
  let s := (s.put R.TB_STATUS_state [] st).put R.TB_STATUS_active [] a
  let t := s.tb
  let s := { s with tb := { t with
    lockStreak := 0, outStreak := 0
    err := if a = 3 ∨ st = 1 then 0 else t.err
    lockedNs := if st = 0 then 0 else t.lockedNs
    hist := if st = 0 then [] else t.hist
    hold := if st = 3 ∨ (st = 4 ∧ t.hold.isNone) then some (s.up, t.err.natAbs) else if st = 4 then t.hold else none
    lostFromFree := st == 4 && old == 0 } }
  s.post E.TB_STATE none [(.en, old), (.en, st), (.en, a)]

/-- The state after one evaluation of Table 3-5. In mode none a failed LOCAL_OSC takes FREE_RUN to LOST all the same (R80;
log 81). -/
def State.tbTransition (s : State) : State :=
  let a := s.activeRef
  let histOk := decide (1000000000 ≤ s.tb.lockedNs)
  let fall (s : State) : State := if histOk then s.tbEnter 3 3 else s.tbEnter 0 3
  let osc := s.flag R.TB_STATUS_osc_fail
  if s.get R.TB_CTL_mode = 0 then
    (if s.tbSt = 0 then (if osc then s.tbEnter 4 3 else s)
     else if s.tbSt = 4 ∧ s.tb.lostFromFree ∧ osc then s else s.tbEnter 0 3)
  else match s.tbSt, s.selectRef with
    | 1, some c => if c ≠ a then s.tbEnter 1 c else if 64 ≤ s.tb.lockStreak then s.tbEnter 2 c else s
    | 1, none => fall s
    | 2, some c => if c ≠ a then s.tbEnter 1 c else if 4 ≤ s.tb.outStreak then s.tbEnter 1 c else s
    | 2, none => fall s
    | _, some c => s.tbEnter 1 c
    | 0, none => if osc then s.tbEnter 4 3 else s
    | 3, none => if osc then s.tbEnter 4 3 else s
    | _, none => if s.tb.lostFromFree && !osc && s.get R.TB_STATUS_qualified == 0 then s.tbEnter 0 3 else s

/-! ### Pull and steps (R66, R67) -/

/-- The conditions of R67 on parts and posts. -/
def State.mayStep (s : State) : Bool := !s.slotOpen && !s.ttPending

/-- TT is set to `t`: REF2's frame interval is not measured across the jump. -/
def State.jumpTt (s : State) (t : Nat) : State :=
  let r := s.ref 2
  { s with tt := t, pc := { s.pc with lastInst := min s.pc.lastInst t } }.setRef 2 { r with lastTick := none }

/-- Step TT by `d` ns, report it and clear the error (R67). -/
def State.stepTt (s : State) (d : Int) : State :=
  let s := s.jumpTt (wrapInt 64 ((s.tt : Int) + d))
  let s := { s with tb := { s.tb with err := 0 } }
  (s.put R.TB_STATUS_stepped [] 1).post E.TT_STEPPED none [sval d]

/-- The slope in force in this millisecond of TT (R66). -/
def State.slopeNow (s : State) : State :=
  if s.tt / 1000000 = s.tb.slopeMs ∧ s.tb.slope ≠ 0 then s
  else { s with tb := { s.tb with slope := s.get R.TB_SLOPE_slope, slopeMs := s.tt / 1000000 } }

/-- The pull's correction, 10^-12 (R66): against the error, at most the slope (1 ns per ms is 10^6; log 16). -/
def pullRate (err : Int) (slope : Nat) : Int :=
  let m : Int := min (err.natAbs : Int) (slope : Int) * 1000000
  if 0 < err then -m else m

/-- The rate correction that the state gives (Table 3-4), with the pull. -/
def State.rateUpdate (s : State) : State :=
  let s := s.slopeNow
  let st := s.tbSt
  let base : Int := if st = 1 ∨ st = 2 then (s.ref s.activeRef).rate
    else if st = 3 ∨ st = 4 then meanRate s.tb.hist else 0
  let pull : Int := if st = 1 ∨ st = 2 then pullRate s.tb.err s.tb.slope else 0
  (s.put R.TB_RATE_rate [] (wrapInt 32 (base + pull))).put R.TB_STATUS_pulling [] (b2n (pull != 0))

/-- REF2's port has LOS, OOF, LOF or AIS (R62). -/
def State.ref2Defect (s : State) : Bool := s.get R.QP_STATUS_defects [s.get R.TB_CTL_ref2_port] &&& 0x17 != 0

/-- The standing checks of REF2: an absent port (R82), and a port defect, also one that ref2_port has been moved to (R62). -/
def State.ref2Check (s : State) : State :=
  if !s.refPresent 2 then
    (if s.refQual 2 || bits (s.get R.TB_REF_CAUSE_cause) 11 8 != refAbsent then s.disqualify 2 refAbsent none else s)
  else if s.ref2Defect && (s.refQual 2 || (s.ref 2).clean.isSome) then s.disqualify 2 refPort none
  else s

/-- One evaluation per management cycle (R64): REF2's standing checks, transitions, steps, rate and the holdover estimate. -/
def State.tbEvaluate (s : State) : State :=
  let t := s.tb
  let s := { s with tb := { t with
    lockedNs := if s.tbSt = 2 then t.lockedNs + (s.up - t.lastEval) else t.lockedNs, lastEval := s.up } }
  let s := s.ref2Check.tbTransition
  let s := if (s.tbSt = 1 ∨ s.tbSt = 2) ∧ 10000 < s.tb.err.natAbs ∧ s.mayStep then s.stepTt (-s.tb.err) else s
  let s := s.rateUpdate
  if s.tbSt = 3 ∨ s.tbSt = 4 then s.put R.TB_HOLD_EST_est [] s.holdEst else s

/-! ### Alignment (R70, R71, R78, R79, R81) -/

/-- Twice the signed ns of TB_ASYM. -/
def State.asym2 (s : State) (p : Nat) : Int := 2 * signedOf 16 (s.get R.TB_ASYM_asym [p])

/-- One two-way exchange on a port (R70): one with a negative delay is discarded. -/
def State.exchange (s : State) (p t1 t2 t3 t4 : Nat) : State :=
  let out : Int := (t2 : Int) - t1
  let back : Int := (t4 : Int) - t3
  if out + back < 0 then s
  else
    let e := (back - out + s.asym2 p) :: s.tb.exch.get p []
    { s with tb := { s.tb with exch := s.tb.exch.set p (e.take 16), exchTt := s.tb.exchTt.set p s.up } }

/-- θ of a port: the mean of its 16 exchanges (R70), rounded to the nearest ns, a half toward plus infinity (DESIGN CHOICE,
log 82). -/
def State.theta (s : State) (p : Nat) : Int :=
  ((s.tb.exch.get p []).foldl (fun a x => a + x) 0 + 16) / 32

/-- The tick phase in force has been `old`: a pull toward a tick goes on toward the new target (R78). REF2's phase is θ,
which the tick phase does not enter (Table 3-2). -/
def State.retarget (s : State) (old : Int) : State :=
  if 2 ≤ s.activeRef then s else { s with tb := { s.tb with err := wrapPhase (s.tb.err - (s.tickPhase - old)) } }

/-- Set the tick phase. -/
def State.setTickPhase (s : State) (ph : Int) : State :=
  (s.put R.TB_TICK_PHASE_phase [] (wrapInt 32 ph)).retarget s.tickPhase

/-- TB_CTL has changed: a time root's tick phase is 0 (R71), and REF2's checks start afresh on another port (log 83). -/
def State.tbCtlChanged (s : State) (oldPhase : Int) (old new : Nat) : State :=
  let s := s.retarget oldPhase
  if bits old 11 8 = bits new 11 8 then s else s.setRef 2 { s.ref 2 with clean := none, lastTick := none }

/-- A lead broadcasts its phase and the tick at which it takes effect, at least 2 ms ahead (R71; log 17). -/
def State.broadcastTime (s : State) : State :=
  let d := s.draw 16
  let s := d.2
  let base := s.tt + 2000000
  let first := base + ((s.tickPhase - (base : Int)) % 1000000).toNat
  { s with tb := { s.tb with lastUpdate := some s.up, bcast := (s.tickPhase, first + d.1 * 1000000) :: s.tb.bcast } }

/-- The reasons of ALIGN_FAULT (log 18): 1 TT differs, 2 a second lead, 3 port defect, 4 exchanges discarded, 5 port absent. -/
def State.alignFault (s : State) (k : FK) (who reason : Nat) : State := s.post E.ALIGN_FAULT none [(k, who), (.en, reason)]

/-- align_port has LOS, OOF, LOF or AIS (R81). -/
def State.alignDefect (s : State) : Bool := s.get R.QP_STATUS_defects [s.get R.TB_CTL_align_port] &&& 0x17 != 0

/-- The filter of a port outputs θ (R70): REF2's phase measurement, and a rack lead's alignment, which waits while
align_port has a defect (R81). The time root broadcasts at the filter output of whichever port comes next, at most once per
16 ms (DESIGN CHOICE, log 84). -/
def State.filterOutput (s : State) (p : Nat) : State :=
  let th := s.theta p
  let s := { s with tb := { s.tb with exch := s.tb.exch.set p [] } }
  let aligns := s.flag R.TB_CTL_align_en && s.get R.TB_CTL_align_port == p
  let isRef := s.get R.TB_CTL_ref2_port == p
  let s := if aligns || isRef then s.put R.TB_ALIGN_OFFSET_theta [] (wrapInt 32 th) else s
  let s := if isRef ∧ s.activeRef = 2 ∧ (s.tbSt = 1 ∨ s.tbSt = 2) then s.measure th else s
  let due : Bool := match s.tb.lastUpdate with
    | some t => decide (t + 16000000 ≤ s.up)
    | none => true
  if s.flag R.TB_CTL_rack_lead && due then
    if s.flag R.TB_CTL_align_en then
      if aligns && !s.alignDefect && decide (8 < th.natAbs) then (s.setTickPhase (wrapPhase (s.tickPhase - th))).broadcastTime else s
    else s.broadcastTime
  else s

/-- A rack-lead broadcast arrives (R71, R79): only the lowest-numbered lead's is taken. One waits for its tick at a time, and
a later one takes its place; the lowest lead is remembered until the timebase is reset (DESIGN CHOICE, log 85). -/
def State.timeMessage (s : State) (from_ : Nat) (ph : Int) (tick : Nat) : State :=
  let take (s : State) : State :=
    { s with tb := { s.tb with adopt := some { phase := ph, tick := tick, lead := from_ }, lead := some from_ } }
  match s.tb.lead with
  | none => take s
  | some l =>
    if from_ = l then take s
    else if from_ < l then (take s).alignFault .num l 2
    else s.alignFault .num from_ 2

/-! ### Commands -/

/-- A write to TB_TT_LOAD_HI. -/
def State.ttLoad (s : State) (hi : Nat) : State :=
  if s.islandHeld 53 then s else
  let lo := s.loHeld.get R.TB_TT_LOAD_LO.off (s.regWord R.TB_TT_LOAD_LO)
  let s := (s.setRegWord R.TB_TT_LOAD_LO [] lo).setRegWord R.TB_TT_LOAD_HI [] hi
  let t := lo + (hi % 2 ^ 32) * 2 ^ 32
  if s.tbSt = 0 ∧ s.mayStep then
      { s.jumpTt t with ttFrac := 0 }
    else s.post E.TT_LOAD_REFUSED none [(.en, s.tbSt), (.en, b2n s.slotOpen)]

/-- TT_LOAD: a write of `hi` to TB_TT_LOAD_HI (R68). -/
def execTtLoad (hi : Nat) (s : State) : Host.Outcome State Fault Refusal :=
  .next (s.ttLoad hi)

/-- REF_TICK: a tick of REF0 or REF1, `periods` clock periods after the tick before (R60, R62). -/
def execRefTick (n periods : Nat) (s : State) : Host.Outcome State Fault Refusal :=
  .next (if n < 2 then
      let nominal := if s.flag (if n = 0 then R.TB_CTL_ref0_25m else R.TB_CTL_ref1_25m) then 25000 else 10000
      let r := s.ref n
      let glitch := r.lastTick.isSome && periods != nominal
      let s := s.setRef n { r with lastTick := some s.tt, clean := some (r.clean.getD s.up) }
      let s := if glitch then s.disqualify n refGlitch (some s.up) else s
      if s.activeRef = n ∧ (s.tbSt = 1 ∨ s.tbSt = 2) ∧ glitch = false then
        s.measure (wrapPhase ((s.tt : Int) - s.tickPhase))
      else s
    else s)

/-- REF_STOP_TIMEOUT: a reference has stopped (R62). -/
def execRefStopTimeout (n : Nat) (s : State) : Host.Outcome State Fault Refusal :=
  .next (if n < 3 then s.disqualify n refStop none else s)

/-- REF_RATE_CHECK: a 10 ms measurement ends with an offset from LOCAL_OSC in 10^-12; the check stops while osc_fail
is set (R62, R80). -/
def execRefRateCheck (n : Nat) (offset : Int) (s : State) : Host.Outcome State Fault Refusal :=
  .next (if n < 3 ∧ s.flag R.TB_STATUS_osc_fail = false then
      if 200000000 < offset.natAbs then s.disqualify n refRate (some s.up)
      else s.setRef n { s.ref n with rate := offset }
    else s)

/-- REF_QUALIFY_TIMEOUT: a reference that has passed every check for TB_QUAL ms qualifies (R63, R80, R82). -/
def execRefQualifyTimeout (n : Nat) (s : State) : Host.Outcome State Fault Refusal :=
  let due : Bool := match (s.ref n).clean with
    | some t => decide (t + s.get R.TB_QUAL_qual * 1000000 ≤ s.up)
    | none => false
  .next (if s.refPresent n && !s.refQual n && due && !s.flag R.TB_STATUS_osc_fail then
      (s.setQual n true).post E.REF_QUALIFIED none [(.ix, n)]
    else s)

/-- TB_STATE_EVALUATION. -/
def execTbStateEvaluation (s : State) : Host.Outcome State Fault Refusal := .next s.tbEvaluate

/-- TB_HOLD_LIMIT_EXCEEDED: in HOLDOVER, e(t) exceeds TB_HOLD_LIMIT (R69). -/
def execTbHoldLimitExceeded (s : State) : Host.Outcome State Fault Refusal :=
  .next (if s.tbSt = 3 ∧ s.get R.TB_HOLD_LIMIT_limit * 2000000000000000000 < s.holdScaled then
      ((s.tbEnter 4 3).put R.TB_HOLD_EST_est [] s.holdEst).post E.TB_LOST none [(.val, s.holdEst)]
    else s)

/-- ALIGN_FILTER_OUTPUT: the filter of a port outputs after 16 exchanges (R70). -/
def execAlignFilterOutput (port : Nat) (s : State) : Host.Outcome State Fault Refusal :=
  .next (if port < s.cfg.quillPorts ∧ 16 ≤ (s.tb.exch.get port []).length then s.filterOutput port else s)

/-- ALIGN_EXCHANGES_DISCARDED: align_port has a port defect, or none of its exchanges was taken for 16 ms (R81), as always on
a port that the chip lacks (R82); the next 16 ms start here. -/
def execAlignExchangesDiscarded (s : State) : Host.Outcome State Fault Refusal :=
  let p := s.get R.TB_CTL_align_port
  let absent := decide (s.cfg.quillPorts ≤ p)
  let defect := !absent && s.alignDefect
  .next (if s.flag R.TB_CTL_rack_lead && s.flag R.TB_CTL_align_en
      && (defect || decide (s.tb.exchTt.get p 0 + 16000000 ≤ s.up)) then
      { s with tb := { s.tb with exchTt := s.tb.exchTt.set p s.up } }.alignFault .ix p
        (if absent then 5 else if defect then 3 else 4)
    else s)

/-- TICK_PHASE_ADOPT: at the broadcast tick, the phase is adopted; a TT more than 500 µs away from the tick's is
corrected by a step where R67 allows one, else ALIGN_FAULT is posted (R71). -/
def execTickPhaseAdopt (s : State) : Host.Outcome State Fault Refusal :=
  .next (match s.tb.adopt with
    | none => s
    | some a =>
      let s := ({ s with tb := { s.tb with adopt := none } }).setTickPhase a.phase
      let d : Int := (a.tick : Int) - (s.tt : Int)
      if 500000 < d.natAbs then (if s.mayStep then s.stepTt d else s.alignFault .num a.lead 1) else s)

/-- OSC_FAIL: LOCAL_OSC has missed four periods; FREE_RUN and HOLDOVER pass to LOST (R80). -/
def execOscFail (s : State) : Host.Outcome State Fault Refusal :=
  let u := (s.put R.TB_STATUS_osc_fail [] 1).post E.OSC_FAIL none []
  .next (if s.flag R.TB_STATUS_osc_fail then s else if u.tbSt = 0 ∨ u.tbSt = 3 then u.tbEnter 4 3 else u)

/-- OSC_RECOVERED: LOCAL_OSC has run 100 ms without a missing period; qualification starts again (R598, R63). -/
def execOscRecovered (s : State) : Host.Outcome State Fault Refusal :=
  .next (if s.flag R.TB_STATUS_osc_fail then
      foldS [0, 1, 2] (fun n s => s.setRef n { s.ref n with clean := (s.ref n).clean.map (fun _ => s.up) })
        (s.put R.TB_STATUS_osc_fail [] 0)
    else s)

/-- TDC_CALIBRATION: a result outside 30 to 50 ps per step is discarded; none runs while osc_fail is set (R589). -/
def execTdcCalibration (ps : Nat) (s : State) : Host.Outcome State Fault Refusal :=
  .next (if s.flag R.TB_STATUS_osc_fail = false ∧ 30 ≤ ps ∧ ps ≤ 50 then { s with tb := { s.tb with tdc := ps } } else s)

/-- REF_CLOCK_PERIOD_GLITCH: a clock period of REF0 or REF1 outside ±0.5% of nominal (R62). -/
def execRefClockPeriodGlitch (n : Nat) (s : State) : Host.Outcome State Fault Refusal :=
  .next (if n < 2 then s.disqualify n refGlitch (some s.up) else s)

end Sys2Proof.Machine
end

