-- ==== Sys2Proof/Machine/Batch.lean ====
section
/-! DEFINITION. The batch builder (chapter 11): steps, marks, part slots, batch tables, verdicts and part records. -/

namespace Sys2Proof.Machine

/-! ### Recipe slots -/

/-- Change recipe slot `n`. -/
def State.modRslot (s : State) (n : Nat) (f : RcpSlot → RcpSlot) : State :=
  match s.rcp.get? n with
  | none => s
  | some x => { s with rcp := s.rcp.set n (f x) }

/-- Show the counts of DS_RCP_STATUS. -/
def State.showRcp (s : State) (n : Nat) : State :=
  let p := (s.rslot n).parts
  (s.put R.DS_RCP_STATUS_parts [n] (p.filter (·.slot.isSome)).length).put R.DS_RCP_STATUS_shadow [n]
    (p.filter (·.slot.isNone)).length

/-- A batch builder event, limited per cause and recipe (R287). -/
def State.rcpEvent (s : State) (n code cause : Nat) (fs : List (FK × Nat)) : State := s.postLim code cause (some n) fs

/-- This chip owns the verdicts of the recipe (R265). -/
def State.ownsRecipe (s : State) (d : RecipeDesc) : Bool := d.owner == s.chipNo

/-- Strips are released (R271): PP_CONS passes them. -/
def State.releaseStrips (s : State) (l : List StripIn) : State :=
  foldS l (fun x s => s.put R.PP_CONS_seq [x.pipe] ((x.seq + 1) % 2 ^ 32)) s

/-- A stopped recipe with no part open and no step under way releases the strips that wait (R266). -/
def State.releaseIdle (s : State) (n : Nat) : State :=
  let r := s.rslot n
  if !s.flag R.DS_RCP_CTL_run [n] && r.parts.isEmpty && r.phase == .idle && !r.strips.isEmpty then
    (s.releaseStrips r.strips).modRslot n (fun r => { r with strips := [] })
  else s

/-- The pipelines of a mask. -/
def pipesOf (d : RecipeDesc) : List Nat := bitIndices 32 d.pipes

/-- The pipelines that a part spans (R272, R273). -/
def State.partPipes (s : State) (d : RecipeDesc) (p : Part) : List Nat :=
  if s.ownsRecipe d then (pipesOf d).filter (fun k => decide (p.pipeLo ≤ k ∧ k ≤ p.pipeHi)) else pipesOf d

/-! ### Addresses in a part slot (Table 11-4) -/

def slotAt (d : RecipeDesc) (i : Nat) : Nat := d.slotBase + i * d.slotStride
def verdictCell (d : RecipeDesc) (i : Nat) : Nat := slotAt d i + 64
def evArea (d : RecipeDesc) (i peer : Nat) : Nat := slotAt d i + 128 + peer * d.evBytes
def kvAddr (d : RecipeDesc) (i : Nat) : Nat := slotAt d i + 128 + d.peers.length * d.evBytes

/-- A global address word of this chip. -/
def State.globalWord (s : State) (a : Nat) : Nat := a % 2 ^ 40 + s.chipNo * 2 ^ 40 + 2 ^ 63

/-- Write the slot record of a part (R274); its bytes are free (log 50). -/
def State.writeSlotRecord (s : State) (d : RecipeDesc) (p : Part) : State :=
  match p.slot with
  | none => s
  | some i =>
    let c := p.close.getD (2 ^ 64 - 1, 2 ^ 48 - 1)
    s.writeMem (slotAt d i) ((List.range 64).map (Config.slotRecord
      [p.ordinal, p.gen, p.openTt, p.openCnt, c.1, c.2, p.tokPos, p.stripTok, p.ctxTok, p.replaced, p.missing]))

/-! ### Steps (R269, R270) -/

/-- The mean strip period in ns (R269). -/
def meanPeriod (starts : List Nat) : Nat :=
  match starts with
  | [] => 1000000
  | [_] => 1000000
  | a :: t => (a - t.getLastD a) / t.length

/-- The oldest waiting strip of pipeline `p`. -/
def oldestStrip (l : List StripIn) (p : Nat) : Option StripIn := l.find? (fun x => x.pipe == p)

/-- The step may trigger: every pipeline has a strip, or step_wait_us has passed since the first of them (R269, R271). -/
def State.stepDue (s : State) (n : Nat) (r : RcpSlot) (d : RecipeDesc) : Bool :=
  let have_ := (pipesOf d).filterMap (oldestStrip r.strips)
  r.phase == .idle && (s.flag R.DS_RCP_CTL_run [n] || !r.parts.isEmpty) && !have_.isEmpty
  && (have_.length == (pipesOf d).length
      || have_.any (fun x => decide (x.prodTt + d.stepWaitUs * 1000 ≤ s.tt)))

/-- The group of a step, put on the recipe's step ring (R270). -/
def State.stepGroup (s : State) (n : Nat) (r : RcpSlot) (d : RecipeDesc) (kind deadline demand buf : Nat)
    (segs : List ProgSeg) : State :=
  let cores := segs.foldl (fun a g => a ||| 2 ^ g.core) 0
  let g : Group :=
    { ring := d.stepRing, index := s.ds.stepIx % 2 ^ 16, op := 1, dlKind := 1, ringWork := false, dlCh := 0,
      win16 := d.win16, demand := demand, dlTt := deadline, dlCnt := 0, cores := cores, segTable := 0,
      segCount := segs.length, userTag := 0, batchAddr := buf, src := 0, len := 0, keySlot := 0, rcpSlot := 0, bad := false,
      step := some (n, 2 * r.k + kind), segs := segs }
  { s with ds := { s.ds with steps := s.ds.steps ++ [g], stepIx := s.ds.stepIx + 1 } }

/-- The buffer of step `k` (R276). -/
def bufOf (n k : Nat) : Nat := (Config.batchBuf n (k % 2)).toNat

/-- The offset of area `a` of a step's buffer. -/
def areaOf (n k a : Nat) : Nat := (Config.tableOfs n (k % 2) a).toNat

/-! ### Batch tables (R276, Tables 11-5 and 11-6) -/

/-- A part is in the table: it has a slot. -/
def inTable (p : Part) : Bool := p.slot.isSome

/-- Insert by slot. -/
def insertBySlot (p : Part) : List Part → List Part
  | [] => [p]
  | q :: t => if p.slot.getD 0 ≤ q.slot.getD 0 then p :: q :: t else q :: insertBySlot p t

/-- Insert by ordinal. -/
def insertByOrdinal (p : Part) : List Part → List Part
  | [] => [p]
  | q :: t => if p.ordinal ≤ q.ordinal then p :: q :: t else q :: insertByOrdinal p t

/-- The parts of the table in slot order. -/
def tableParts (l : List Part) : List Part := (l.filter inTable).foldr insertBySlot []

/-- The part's context is complete, or it takes none. -/
def ctxComplete (p : Part) : Bool :=
  match p.ctx with
  | none => true
  | some c => decide (c.tokens ≤ p.ctxTok)

/-- A deciding part that the decide segments take (R279). -/
def decideNow (p : Part) : Bool := p.stage == .deciding && ctxComplete p

/-- The evidence address of a part on this chip: on a peer its area in the owner's slot, on the owner the slot's first
area when it has peers (log 51). -/
def State.evWord (s : State) (d : RecipeDesc) (p : Part) : Nat :=
  if s.ownsRecipe d then (if d.peers.isEmpty then 0 else evArea d (p.slot.getD 0) 0) else p.evAddr

/-- The address word of the context chunk admitted in the step (R278). -/
def ctxWord (p : Part) : Nat :=
  match p.ctx with
  | some c => if p.stepCtx = 0 then 0 else c.addr + p.ctxTok * c.bytes
  | none => 0

/-- A part entry (Table 11-6). -/
def State.partEntry (s : State) (d : RecipeDesc) (p : Part) : Nat :=
  p.slot.getD 0 + b2n p.fresh * 2 ^ 16 + b2n (p.stage == .closing) * 2 ^ 17 + b2n (p.stage == .deciding) * 2 ^ 18
    + b2n p.ctx.isNone * 2 ^ 19 + b2n p.overlength * 2 ^ 20 + b2n p.inputFailed * 2 ^ 21
    + b2n (!s.ownsRecipe d) * 2 ^ 22 + (p.tokPos % 2 ^ 32) * 2 ^ 32 + (p.stepStrip % 2 ^ 16) * 2 ^ 64
    + (p.stepCtx % 2 ^ 16) * 2 ^ 80 + (p.ctxTok % 2 ^ 32) * 2 ^ 96 + (p.pipeLo % 2 ^ 8) * 2 ^ 128
    + (p.pipeHi % 2 ^ 8) * 2 ^ 136 + (p.colLo % 2 ^ 16) * 2 ^ 144 + (p.colHi % 2 ^ 16) * 2 ^ 160
    + (p.gen % 2 ^ 32) * 2 ^ 176 + (p.ordinal % 2 ^ 64) * 2 ^ 256
    + kvAddr d (p.slot.getD 0) * 2 ^ 320 + s.evWord d p * 2 ^ 384 + (ctxWord p % 2 ^ 64) * 2 ^ 448

/-- A gather list in the form of R204. -/
def State.writeList (s : State) (a : Nat) (l : List Nat) : State :=
  s.writeMem a (leBytes 8 l.length ++ l.flatMap (leBytes 8))

/-- The batch table header (Table 11-5). -/
def tableHeader (n k kind tk ctxTok : Nat) (l : List Part) : Nat :=
  k % 2 ^ 32 + l.length * 2 ^ 32 + (l.filter (fun p => p.stage == .deciding)).length * 2 ^ 48
    + (l.filter (fun p => p.stage == .closing)).length * 2 ^ 64 + (ctxTok % 2 ^ 16) * 2 ^ 80 + kind * 2 ^ 96
    + (tk % 2 ^ 64) * 2 ^ 128 + areaOf n k 0 * 2 ^ 192 + areaOf n k 1 * 2 ^ 224 + areaOf n k 2 * 2 ^ 256
    + areaOf n k 3 * 2 ^ 288 + areaOf n k 4 * 2 ^ 320

/-- Write a step's table into its buffer: lists, strip table, entries, header (R276). -/
def State.writeTable (s : State) (n : Nat) (r : RcpSlot) (d : RecipeDesc) (kind : Nat) (parts : List Part) : State :=
  let b := bufOf n r.k
  let l := tableParts parts
  let ctxTok := l.foldl (fun a p => a + p.stepCtx) 0
  let s := s.writeList (b + areaOf n r.k 1) (l.map (fun p => kvAddr d (p.slot.getD 0)))
  let s := s.writeList (b + areaOf n r.k 2) ((l.filter (fun p => p.stepCtx != 0)).map ctxWord)
  let s := s.writeList (b + areaOf n r.k 3) ((l.filter decideNow).map (fun p => verdictCell d (p.slot.getD 0)))
  let s := s.writeList (b + areaOf n r.k 4) ((l.filter (fun p => p.stage == .closing)).map (s.evWord d))
  let strips := (List.range 32).map (fun p => ((oldestStrip r.taken p).map (·.addr)).getD 0)
  let s := s.writeMem (b + 64) (strips.flatMap (leBytes 8))
  let s := s.writeMem (b + 320) (l.flatMap (fun p => leBytes 64 (s.partEntry d p)))
  s.writeMem b (leBytes 64 (tableHeader n r.k kind r.tk ctxTok l))

/-! ### Step trigger (R269, R270) -/

/-- Report the missing, lost and misaligned strips of a step (R290): causes 1, 2, 3, each limited by itself (R287). -/
def State.stepInput (s : State) (n k : Nat) (missing lost misaligned : List Nat) : State :=
  let f := fun cause p s => State.rcpEvent s n E.STEP_INPUT cause [(.num, k), (.ix, p), (.en, cause)]
  foldS misaligned (f 3) (foldS lost (f 2) (foldS missing (f 1) s))

/-- Strips were lost before this one: a gap in seq, or after a stall a gap in tt_first of more than one and a half mean
strip periods (R290, log 69). -/
def stripGap (r : RcpSlot) (x : StripIn) : Bool :=
  x.lost != 0 || (x.resumed && (match r.lastTt.get? x.pipe with
    | some t => decide (3 * meanPeriod r.starts < 2 * (x.ttFirst - t))
    | none => false))

/-- STEP_TRIGGER: the strips are taken; the owner posts its detect group, a peer awaits its marks. -/
def State.stepTrigger (s : State) (n : Nat) : State :=
  match s.rcp.get? n with
  | none => s
  | some r =>
    match r.recipe with
    | none => s
    | some d =>
      if !s.stepDue n r d then s
      else
        let found := (pipesOf d).filterMap (oldestStrip r.strips)
        let first := found.foldl (fun a x => min a x.ttFirst) ((found.head?.map (·.ttFirst)).getD 0)
        let half := meanPeriod r.starts
        let taken := found.filter (fun x => decide (2 * (x.ttFirst - first) ≤ half))
        let late := (found.filter (fun x => !taken.contains x)).map (·.pipe)
        let none_ := (pipesOf d).filter (fun p => !(found.map (·.pipe)).contains p)
        let lost := (taken.filter (stripGap r)).map (·.pipe)
        let r := { r with k := r.k + 1, tk := s.tt, strips := r.strips.filter (fun x => !taken.contains x), taken := taken,
                          starts := (first :: r.starts).take 9, missed := none_ ++ late ++ lost, ended := none,
                          lastTt := taken.foldl (fun t x => t.set x.pipe x.ttFirst) r.lastTt,
                          dropped := false, phase := if s.ownsRecipe d then .detect else .marks }
        let s := (s.setRslot n r).put R.DS_RCP_STEP_step [n] r.k
        let s := s.stepInput n r.k none_ lost late
        if s.ownsRecipe d then
          let s := s.writeTable n r d 0 r.table
          s.stepGroup n r d 0 (s.tt + 50000) d.demandDetect (bufOf n r.k) d.detect
        else s

/-! ### Marks (R272 to R275) -/

/-- Linear interpolation in line slot between the stamps of slots 0 and 15, to the nearest (R274). -/
def lineStamp (x : StripIn) (line : Nat) : Nat × Nat :=
  (((x.ttFirst : Int) + roundDivInt (((x.ttLast : Int) - (x.ttFirst : Int)) * (line : Int)) 15).toNat,
   cntAdd x.cntFirst (roundDivInt (cntDiff x.cntLast x.cntFirst * (line : Int)) 15))

/-- The strip whose stamps a mark takes: that of its first pipeline, else the step's first. -/
def markStrip (taken : List StripIn) (pipe : Nat) : StripIn :=
  (oldestStrip taken pipe).getD (taken.headD { pipe := pipe, seq := 0, addr := 0, ttFirst := 0, ttLast := 0, cntFirst := 0,
                                                cntLast := 0, replaced := 0, lost := 0, resumed := false, prodTt := 0 })

/-- An open part of a handle. -/
def openPart (h : Nat) (p : Part) : Bool := p.handle == h && p.stage == .active

/-- A new part with its open stamps. -/
def newPart (h ordinal : Nat) (st : Nat × Nat) (line pl ph cl ch : Nat) : Part :=
  { slot := none, gen := 0, ordinal := ordinal, handle := h, openTt := st.1, openCnt := st.2, close := none, pipeLo := pl,
    pipeHi := ph, colLo := cl, colHi := ch, fresh := true, stage := .active, tokPos := 0, stripTok := 0, ctxTok := 0,
    stepStrip := 0, stepCtx := 0, ctx := none, replaced := 0, missing := 0, overlength := false, inputFailed := false,
    word := none, ignored := false, late := false, spanLo := line, spanHi := 15, fwd := true, evAddr := 0,
    forced := false, inDecide := false, owed := none }

/-- The lowest slot of the recipe that was free at the start of the build and is free still (R274, R285). -/
def freeSlot (d : RecipeDesc) (busy : List Nat) (parts : List Part) : Option Nat :=
  (List.range d.maxParts).find? (fun i => !busy.contains i && !parts.any (fun p => p.slot == some i))

/-! ### Deadlines of parts (R283) -/

/-- The anchor stamp of a part: TT and count. -/
def anchorOf (d : RecipeDesc) (p : Part) : Option (Nat × Nat) :=
  if d.trailing ∧ !p.forced then p.close else some (p.openTt, p.openCnt)

/-- The part's trigger: a TT for pos_ch 15, else a count. -/
def partTrigger (d : RecipeDesc) (p : Part) : Option Nat :=
  (anchorOf d p).map (fun a => if d.posCh = 15 then a.1 + d.actOfs else (a.2 + d.actOfs) % cntMod)

/-- The part's verdict deadline. -/
def partDeadline (d : RecipeDesc) (p : Part) : Option Nat :=
  (partTrigger d p).map (fun t =>
    if d.posCh = 15 then t - d.margin * 1000 else (t + cntMod - d.margin % cntMod) % cntMod)

/-- The direction of approach of a part's count deadline, fixed when it becomes known: from the estimated position (R98,
R245, R283). -/
def State.partFwd (s : State) (d : RecipeDesc) (p : Part) : Bool :=
  match partDeadline d p with
  | some t => decide (0 ≤ cntDiff t ((s.ch d.posCh).estWhole s.tt))
  | none => true

/-- The backstop of a part has passed. -/
def State.partBackstop (s : State) (p : Part) : Bool :=
  decide (p.openTt + s.get R.DS_BACKSTOP_backstop_ms * 1000000 ≤ s.tt)

/-- The part's verdict deadline has expired by now (R246, R283). -/
def State.partExpired (s : State) (d : RecipeDesc) (p : Part) : Bool :=
  match partDeadline d p with
  | none => s.partBackstop p
  | some t =>
    if d.posCh = 15 then decide (t ≤ s.tt) || (p.close.isNone && s.partBackstop p)
    else s.countPassed d.posCh t p.fwd || s.partBackstop p

/-! ### Ends of parts (R282 to R285) -/

/-- The width of the part's pulse and whether it is in counts (R284, log 54). -/
def partWidth (d : RecipeDesc) (p : Part) : Nat × Bool :=
  let cnt := d.widthPart && d.posCh != 15
  match p.close with
  | some c =>
    if !d.widthPart then (d.actWidth, false)
    else if cnt then ((cntDiff c.2 p.openCnt).natAbs + d.actWidth, true)
    else ((c.1 - p.openTt) / 1000 + b2n (decide ((c.1 - p.openTt) % 1000 ≠ 0) && Config.microUp ((c.1 - p.openTt) % 1000))
      + d.actWidth, false)
  | none => (d.actWidth, cnt)

/-- The output that a code's event goes to (Table 11-8). -/
def codeOutput (d : RecipeDesc) (code : Nat) : Option Nat :=
  match code with
  | 0 => none
  | 1 => d.actOut
  | 5 => d.holdOut
  | _ => if d.defaultEject then d.actOut else none

/-- Post the part's event: whether it was accepted, and the state (R284, R296). -/
def State.postPartEvent (s : State) (n : Nat) (d : RecipeDesc) (p : Part) (code : Nat) : Bool × State :=
  match codeOutput d code, partTrigger d p with
  | some o, some t =>
    let w := partWidth d p
    let kind := if d.posCh = 15 then 2 else 1
    let post := mkPost kind w.2 false (if d.posCh = 15 then 0 else d.posCh) o (w.1 % 2 ^ 32) t
      (n * 2 ^ 60 + p.ordinal % 2 ^ 60)
    let r := s.submitPost 0 s.chipNo post
    (decide (r.1 ≤ 1), r.2.2)
  | _, _ => (false, s)

/-- The 64 bytes of a part record, phase 0 (Table 22-6). -/
def partRecord (n : Nat) (evidenceOnly posted : Bool) (p : Part) (code reason : Nat) : List Byte :=
  let c := p.close.getD (2 ^ 64 - 1, 2 ^ 48 - 1)
  leBytes 1 2 ++ leBytes 1 (n + b2n evidenceOnly * 16 + b2n p.forced * 32 + b2n posted * 64 + b2n p.late * 128)
    ++ leBytes 1 (code + reason * 8 + b2n p.word.isSome * 64) ++ leBytes 1 0 ++ leBytes 2 (p.slot.getD 0xFFFF)
    ++ leBytes 2 0 ++ leBytes 8 p.ordinal ++ leBytes 8 (p.word.getD 0) ++ leBytes 8 p.openTt ++ leBytes 6 p.openCnt
    ++ leBytes 2 (satTo 65535 p.replaced) ++ leBytes 8 c.1 ++ leBytes 6 c.2 ++ leBytes 2 (satTo 65535 p.missing)
    ++ leBytes 4 p.stripTok ++ leBytes 2 p.ctxTok ++ leBytes 2 0

/-- Count a default code and post PART_DEFAULT (R286, R287). -/
def State.noteDefault (s : State) (n : Nat) (p : Part) (code reason : Nat) : State :=
  if code < 2 ∨ 4 < code then s
  else
    let s := if code = 2 then s.bump R.DS_RCP_ERR_deadline [n]
      else if code = 3 then s.bump R.DS_RCP_ERR_refused [n] else s.bump R.DS_RCP_ERR_input [n]
    s.rcpEvent n E.PART_DEFAULT (code * 8 + reason) [(.wide, p.ordinal), (.en, code), (.en, reason)]

/-- A remote write or signal of the batch builder (R280): master 0x29, the dispatcher. -/
def State.builderRemote (s : State) (kind chip addr : Nat) (bytes : List Byte) (core ctr : Nat) : State :=
  let q : RemoteReq := { kind := kind, chip := chip, addr := addr, len := bytes.length, bytes := bytes, mst := 0x29, eng := 0,
                         id := 0, core := core, ctr := ctr, n := 1, tt := s.tt }
  { s with remote := s.remote ++ [q] }

/-- A peer's part that ends in a local default: evidence header with a status, then the signal (R280). -/
def State.peerDefault (s : State) (d : RecipeDesc) (p : Part) (status : Nat) : State :=
  let index := (d.peers.findIdx? (· == s.chipNo)).getD 0
  let hdr := leBytes 1 status ++ leBytes 1 index ++ leBytes 2 0 ++ leBytes 4 p.ordinal
  let s := if p.evAddr = 0 then s else s.builderRemote 0 d.owner (p.evAddr % 2 ^ 40) hdr 0 0
  s.builderRemote 2 d.owner 0 [] d.evCore d.evCtr

/-- A part record is made (R285), and counted by its code for object 0x2800 (R534); until the host port is up again after
a warm reset it waits (R293). -/
def State.partRec (s : State) (code : Nat) (wait : Bool) (c : CRec) : State :=
  let s := { s with ecat := { s.ecat with records := s.ecat.records.set code (s.ecat.records.get code 0 + 1) } }
  if wait then { s with boot := { s.boot with late := s.boot.late ++ [c] } } else s.completion c

/-- The record of a part that has ended, its event posted or not; its slot is free, and remembered while a further word
for it would be a repeat (R280, R285, Table 11-13). -/
def State.recordPart (s : State) (n : Nat) (d : RecipeDesc) (p : Part) (code reason : Nat) (posted : Bool) : State :=
  let owner := s.ownsRecipe d
  let s := s.noteDefault n p code reason
  let s := if !owner ∧ 2 ≤ code ∧ code ≤ 4 then s.peerDefault d p (if code = 3 then 3 else 4) else s
  let s := s.partRec code false { ring := d.partRing, bytes := partRecord n (!owner) posted p code reason }
  (s.modRslot n (fun x => { x with parts := x.parts.filter (fun q => q.ordinal ≠ p.ordinal),
                                   spent := (match p.word, p.slot with
                                     | some _, some i => (i, p.gen) :: x.spent
                                     | _, _ => x.spent) })).showRcp n |>.releaseIdle n

/-- A part that ends unclosed under a trailing anchor is placed from its leading edge (log 55). -/
def forcedEnd (d : RecipeDesc) (p : Part) : Part :=
  if d.trailing ∧ p.close.isNone then { p with forced := true } else p

/-- A part ends with a code: its event first, then its record (R29, R284, R285). -/
def State.endPart (s : State) (n : Nat) (d : RecipeDesc) (p : Part) (code reason : Nat) : State :=
  let p := forcedEnd d p
  let r := if s.ownsRecipe d then s.postPartEvent n d p code else (false, s)
  r.2.recordPart n d p code reason r.1

/-! ### Applying marks (R272 to R275) -/

/-- What a mark list has done so far: the state, and the marks to forward, newest first. -/
structure MarkRun where
  s : State
  fwd : List MarkFwd

/-- MARK_REFUSED: causes in the order of R272. -/
def MarkRun.refuse (m : MarkRun) (n k h cause : Nat) : MarkRun :=
  { m with s := m.s.rcpEvent n E.MARK_REFUSED cause [(.num, k), (.num, h), (.en, cause)] }

/-- A part opens: the lowest free slot, a shadow entry, or none (R274, R275); its open stamp is the newest (R278). -/
def State.openIt (s : State) (n : Nat) (d : RecipeDesc) (busy : List Nat) (p : Part) : State × Option Part :=
  let s := s.modRslot n (fun x => { x with lastOpen := some (p.openTt, p.openCnt) })
  let r := s.rslot n
  let p := { p with fwd := s.partFwd d p }
  match freeSlot d busy r.parts with
  | some i =>
    let g := (r.gens.get i 0 + 1) % 2 ^ 32
    let p := { p with slot := some i, gen := g }
    (((s.setRslot n { r with gens := r.gens.set i g, parts := r.parts ++ [p] }).writeSlotRecord d p).showRcp n, some p)
  | none =>
    if (r.parts.filter (fun q => q.slot.isNone)).length < 256 then
      ((s.setRslot n { r with parts := r.parts ++ [p] }).showRcp n, some p)
    else
      let p := { p with forced := true }
      (s.endPart n d p 3 2, none)

/-- A part closes with a stamp and a line slot of the strips `taken` in the mark's own step (R274). Where that step has
been built before (`own` clear, R273), no line of the present step's strips lies in the part's span. -/
def State.closeIt (s : State) (n : Nat) (d : RecipeDesc) (taken : List StripIn) (own : Bool) (h line : Nat) : State :=
  let r := s.rslot n
  s.setRslot n { r with parts := r.parts.map (fun p =>
    if openPart h p then
      let q := { p with close := some (lineStamp (markStrip taken ((s.partPipes d p).headD 0)) line), stage := .closing,
                        spanLo := if own then p.spanLo else 16, spanHi := line }
      if d.trailing then { q with fwd := s.partFwd d q } else q
    else p) }

/-- One mark of 16 bytes, as a number (Table 11-3). -/
def applyMark (n : Nat) (d : RecipeDesc) (busy : List Nat) (w : Nat) (m : MarkRun) : MarkRun :=
  let s := m.s
  let r := s.rslot n
  let kind := w % 4
  let h := bits w 23 8
  let line := bits w 27 24
  let lo := bits w 39 32
  let hi := bits w 47 40
  let isOpen := r.parts.any (openPart h)
  if kind = 0 ∨ kind = 3 ∨ bits w 7 2 ≠ 0 ∨ bits w 31 28 ≠ 0 ∨ bits w 127 80 ≠ 0 then m.refuse n r.k h 1
  else if kind = 1 then
    if isOpen then m.refuse n r.k h 2
    else if !bit d.pipes lo ∨ !bit d.pipes hi then m.refuse n r.k h 4
    else if !s.flag R.DS_RCP_CTL_run [n] then m
    else
      let st := lineStamp (markStrip r.taken lo) line
      let s := s.modRslot n (fun x => { x with nextOrdinal := x.nextOrdinal + 1 })
      let o := s.openIt n d busy (newPart h r.nextOrdinal st line lo hi (bits w 63 48) (bits w 79 64))
      match o.2 with
      | none => { s := o.1, fwd := .opened { handle := h, ordinal := r.nextOrdinal, line := line, evAddr := 0 } :: m.fwd }
      | some p => { s := o.1, fwd := .opened { handle := h, ordinal := p.ordinal, line := line,
                                               evAddr := (p.slot.map (fun i => evArea d i 0)).getD 0 } :: m.fwd }
  else if !isOpen then m.refuse n r.k h 3
  else { s := s.closeIt n d r.taken true h line, fwd := .closed h line :: m.fwd }

/-- A forwarded mark on a peer (R273), stamped from the strips `taken` of its own step. A part opened late has missed its
first strip and spans the present ones from their first line. -/
def applyForwarded (n : Nat) (d : RecipeDesc) (busy : List Nat) (taken : List StripIn) (own : Bool) (f : MarkFwd) (s : State) :
    State :=
  let r := s.rslot n
  match f with
  | .opened m =>
    if r.parts.any (openPart m.handle) ∨ !s.flag R.DS_RCP_CTL_run [n] then s
    else
      let pipe := (pipesOf d).headD 0
      let p := newPart m.handle m.ordinal (lineStamp (markStrip taken pipe) m.line) (if own then m.line else 0) pipe
        ((pipesOf d).getLastD 0) 0 65535
      (s.openIt n d busy { p with evAddr := m.evAddr }).1
  | .closed h line => s.closeIt n d taken own h line

/-- The marks that the detect program wrote (R272): a count, then at most 256 marks. -/
def State.readMarks (s : State) (n k : Nat) : List Nat :=
  let a := bufOf n k + areaOf n k 0
  (List.range (min 256 (s.readLe a 4))).map (fun i => s.readLe (a + 4 + 16 * i) 16)

/-- The mark batch of a step goes to every peer by Quill write (R273): each open carries that peer's own area. -/
def State.forwardMarks (s : State) (d : RecipeDesc) (k : Nat) (l : List MarkFwd) : State :=
  let enc := fun (i : Nat) (f : MarkFwd) => match f with
    | .opened m => leBytes 2 m.handle ++ leBytes 8 m.ordinal ++ leBytes 2 m.line
        ++ leBytes 8 (if m.evAddr = 0 then 0 else s.globalWord (m.evAddr + i * d.evBytes))
    | .closed h line => leBytes 2 h ++ leBytes 2 line
  foldS (List.range d.peers.length) (fun i s =>
    s.builderRemote 4 (d.peers.getD i 0) 0 (leBytes 8 k ++ l.flatMap (enc i)) 0 0) s

/-! ### Context records (R278) -/

/-- The distance of a key from an open stamp, TT and count: counts, or µs for pos_ch 15. -/
def keyDist (d : RecipeDesc) (key : Nat) (st : Nat × Nat) : Int :=
  if d.posCh = 15 then (key : Int) - ((st.1 / 1000 : Nat) : Int) else cntDiff key st.2

/-- A record published on the context ring is taken in, or refused: causes size 1, address 2. -/
def State.takeCtx (s : State) (n : Nat) (d : RecipeDesc) (w : Nat) : State :=
  let c : CtxRec := { key := w % 2 ^ 48, tokens := bits w 63 48, addr := bits w 127 64, bytes := bits w 159 128 }
  let refuse := fun cause => s.rcpEvent n E.CTX_REFUSED cause [(.wide, c.key), (.en, cause)]
  if d.ctxMax < c.tokens then refuse 1
  else if s.isRemote c.addr ∨ !s.inHoardOrBurrow (c.addr % 2 ^ 40) (c.tokens * c.bytes) then refuse 2
  else s.modRslot n (fun r => { r with ctxq := r.ctxq ++ [c] })

/-- Every open part without context that is not closing takes the oldest record within ctx_win (R278). -/
def matchCtx (d : RecipeDesc) : List Part → List CtxRec → List Part × List CtxRec
  | [], q => ([], q)
  | p :: t, q =>
    if p.stage != .closing && p.ctx.isNone && p.slot.isSome then
      match q.find? (fun c => decide ((keyDist d c.key (p.openTt, p.openCnt)).natAbs ≤ d.ctxWin)) with
      | some c =>
        let r := matchCtx d t (q.erase c)
        ({ p with ctx := some c } :: r.1, r.2)
      | none =>
        let r := matchCtx d t q
        (p :: r.1, r.2)
    else
      let r := matchCtx d t q
      (p :: r.1, r.2)

/-- Match the records, and discard those more than ctx_win behind the newest open stamp (R278). -/
def State.matchContexts (s : State) (n : Nat) (d : RecipeDesc) : State :=
  let r := s.rslot n
  let m := matchCtx d r.parts r.ctxq
  let old := fun (c : CtxRec) => r.lastOpen.any (fun st => decide (keyDist d c.key st < -(d.ctxWin : Int)))
  let s := s.setRslot n { r with parts := m.1, ctxq := m.2.filter (fun c => !old c) }
  foldS (m.2.filter old) (fun c s => s.rcpEvent n E.CTX_EXPIRED 0 [(.wide, c.key)]) s

/-! ### Tokens and input (R277, R290) -/

/-- The replaced lines of a part's strips within its span. -/
def replacedIn (taken : List StripIn) (pipes : List Nat) (p : Part) : Nat :=
  ((taken.filter (fun x => pipes.contains x.pipe)).map (fun x =>
    ((bitIndices 16 x.replaced).filter (fun i => decide (p.spanLo ≤ i ∧ i ≤ p.spanHi))).length)).foldl (· + ·) 0

/-- A part sees the step's input: missing strips, replaced lines, then its strip tokens. -/
def State.partInput (s : State) (d : RecipeDesc) (r : RcpSlot) (p : Part) : Part :=
  if p.stage == .deciding then { p with stepStrip := 0, stepCtx := 0 }
  else
    let pipes := s.partPipes d p
    let p := { p with missing := p.missing + (pipes.filter r.missed.contains).length,
                      replaced := p.replaced + replacedIn r.taken pipes p }
    let p := { p with inputFailed := p.inputFailed || decide (d.tolStrips < p.missing ∨ d.tolLines < p.replaced),
                      stepStrip := 0, stepCtx := 0 }
    if p.slot.isNone || p.inputFailed || p.overlength then p
    else
      let t := d.tokStrip * (pipes.filter (fun k => (r.taken.map (·.pipe)).contains k)).length
      if d.maxTokens < p.tokPos + t then { p with overlength := true } else { p with stepStrip := t }

/-- Context tokens in the order given, one whole chunk per part while the budget lasts (R277, log 52). -/
def giveCtx (d : RecipeDesc) : Nat → List Part → List Part
  | _, [] => []
  | left, p :: t =>
    match p.ctx with
    | none => p :: giveCtx d left t
    | some c =>
      let n := min d.ctxChunk (c.tokens - p.ctxTok)
      if n = 0 ∨ left < n ∨ p.inputFailed then p :: giveCtx d left t
      else if d.maxTokens < p.tokPos + p.stepStrip + n then { p with overlength := true } :: giveCtx d left t
      else { p with stepCtx := n } :: giveCtx d (left - n) t

/-- All parts of a step with their tokens: deciding parts first, then by ordinal (R277). -/
def State.stepTokens (s : State) (d : RecipeDesc) (r : RcpSlot) : List Part :=
  let l := r.parts.map (s.partInput d r)
  let dec := (l.filter (fun p => p.stage == .deciding)).foldr insertByOrdinal []
  let rest := (l.filter (fun p => p.stage != .deciding)).foldr insertByOrdinal []
  giveCtx d d.ctxBudget (dec ++ rest)

/-! ### The infer group (R270, R279) -/

/-- The decide segments with the entry wait of R279 on the evidence core (log 53). -/
def State.decideSegs (d : RecipeDesc) (parts : List Part) : List ProgSeg :=
  let l := parts.filter decideNow
  if l.isEmpty then []
  else
    let v := ((l.foldl (fun a p => max a p.ordinal) 0) + 1) * d.peers.length % 2 ^ 32
    d.decide.map (fun g =>
      if d.peers.isEmpty ∨ g.core ≠ d.evCore then g
      else { g with hasWait := true, waitStatic := true, waitCtr := d.evCtr, waitVal := v })

/-- Build the infer table and post the infer group. -/
def State.buildInfer (s : State) (n : Nat) (ctx : List Nat) : State :=
  match (s.rslot n).recipe with
  | none => s
  | some d =>
    let s := foldS ctx (fun w s => s.takeCtx n d w) s
    let s := s.matchContexts n d
    let r := s.rslot n
    let parts := s.stepTokens d r
    let parts := if s.ownsRecipe d then parts.map (fun p => { p with inDecide := decideNow p }) else parts
    let r := { r with parts := parts, phase := .infer, ended := none, table := parts, spent := [] }
    let s := (s.setRslot n r).showRcp n
    let s := foldS parts (fun p s => s.writeSlotRecord d p) s
    let s := s.writeTable n r d 1 parts
    let closing := parts.any (fun p => p.stage == .closing)
    let segs := d.infer ++ (if closing ∧ !s.ownsRecipe d then d.evidence else [])
      ++ (if s.ownsRecipe d then State.decideSegs d parts else [])
    s.stepGroup n r d 1 (r.tk + meanPeriod r.starts * d.stepDlPct / 100) d.demandInfer (bufOf n r.k) segs

/-- The slots in use before a build's marks. -/
def busySlots (r : RcpSlot) : List Nat := r.parts.filterMap (·.slot)

/-- The group of the present step still waits at the head of its ring, its deadline past (R268). -/
def State.stepStuck (s : State) (n : Nat) (r : RcpSlot) (kind : Nat) : Bool :=
  r.ended != some kind && s.ds.steps.any (fun g => g.step == some (n, 2 * r.k + kind) && decide (g.dlTt ≤ s.tt))

/-- The detect (0) or infer (1) group of the present step has ended, or counts as dropped (R268, R270). -/
def State.stepOver (s : State) (n : Nat) (r : RcpSlot) (kind : Nat) : Bool := r.ended == some kind || s.stepStuck n r kind

/-- A step whose group is stuck counts as dropped (R268). -/
def State.noteDropped (s : State) (n : Nat) (r : RcpSlot) (kind : Nat) : State :=
  if s.stepStuck n r kind then s.modRslot n (fun x => { x with dropped := true }) else s

/-- MARKS_APPLY: on the owner, after the detect group has ended (R270, R272, R273). -/
def State.marksApply (s : State) (n : Nat) (ctx : List Nat) : State :=
  match s.rcp.get? n with
  | none => s
  | some r =>
    match r.recipe with
    | none => s
    | some d =>
      if r.phase ≠ .detect ∨ !s.stepOver n r 0 then s
      else
        let s := s.noteDropped n r 0
        let m := (s.readMarks n r.k).foldl (fun m w => applyMark n d (busySlots r) w m) { s := s, fwd := [] }
        (m.s.forwardMarks d r.k m.fwd.reverse).buildInfer n ctx

/-- MARKS_LATE for step `k` (R273). -/
def State.marksLate (s : State) (n k : Nat) (d : RecipeDesc) : State :=
  (s.bump R.DS_RCP_ERR_marks_late [n]).rcpEvent n E.MARKS_LATE 0 [(.num, k), (.num, d.owner)]

/-- The strips of step `k`: the present one, or one built without its batch. -/
def stripsOf (r : RcpSlot) (k : Nat) : List StripIn :=
  if k = r.k then r.taken else ((r.lateTaken.find? (fun x => x.1 == k)).map (·.2)).getD []

/-- A peer applies the batches that have come and builds its infer group. -/
def State.peerBuild (s : State) (n : Nat) (ctx : List Nat) : State :=
  let r := s.rslot n
  match r.recipe with
  | none => s
  | some d =>
    let now := r.batches.filter (fun b => decide (b.step ≤ r.k))
    let s := s.setRslot n { r with batches := r.batches.filter (fun b => decide (r.k < b.step)),
                                   lateTaken := r.lateTaken.filter (fun x => !now.any (fun b => b.step = x.1)) }
    let s := foldS now (fun b s => foldS b.marks (applyForwarded n d (busySlots r) (stripsOf r b.step) (b.step == r.k)) s) s
    s.buildInfer n ctx

/-- MARK_BATCH_RECEIVED on a peer (R270, R273). -/
def State.markBatch (s : State) (n : Nat) (b : MarkBatch) (ctx : List Nat) : State :=
  match s.rcp.get? n with
  | none => s
  | some r =>
    match r.recipe with
    | none => s
    | some d =>
      if s.ownsRecipe d then s
      else
        let late := decide (b.step < r.k) || (b.step == r.k && r.phase != .marks)
        let s := s.setRslot n { r with batches := r.batches ++ [b], lateSteps := r.lateSteps.filter (· ≠ b.step) }
        if late then (if r.lateSteps.contains b.step then s.marksLate n b.step d else s)
        else if b.step = r.k ∧ r.phase = .marks then s.peerBuild n ctx
        else s

/-- MARK_WAIT_TIMEOUT: the peer builds step k without its batch (R270, R273). -/
def State.markTimeout (s : State) (n : Nat) (ctx : List Nat) : State :=
  match s.rcp.get? n with
  | none => s
  | some r =>
    match r.recipe with
    | none => s
    | some d =>
      if r.phase ≠ .marks then s
      else if r.batches.any (fun b => b.step = r.k) then s.peerBuild n ctx
      else if s.tt < r.tk + d.markWaitUs * 1000 then s
      else (s.setRslot n { r with lateSteps := r.lateSteps ++ [r.k], lateTaken := r.lateTaken ++ [(r.k, r.taken)] }).peerBuild n ctx

/-! ### End of a step (R271, R279, R285, R290) -/

/-- A part after its step: tokens taken up, or missing strips when the step was dropped. -/
def State.afterStep (s : State) (d : RecipeDesc) (dropped : Bool) (p : Part) : Part :=
  let p := { p with fresh := false, spanLo := 0, spanHi := 15, inDecide := false }
  if dropped then
    if p.stage == .deciding then p
    else
      let p := { p with missing := p.missing + (s.partPipes d p).length }
      { p with inputFailed := p.inputFailed || decide (d.tolStrips < p.missing) }
  else { p with tokPos := p.tokPos + p.stepStrip + p.stepCtx, stripTok := p.stripTok + p.stepStrip,
                ctxTok := p.ctxTok + p.stepCtx }

/-- Why a closing part's input fails: lines 1, strips 2, overlength 3, no_context 4 (R282, Table 11-8). -/
def inputReason (d : RecipeDesc) (p : Part) : Option Nat :=
  if d.tolLines < p.replaced then some 1
  else if p.inputFailed then some 2
  else if p.overlength then some 3
  else if d.ctxRequired ∧ p.ctx.isNone then some 4
  else none

/-! ### Verdict words (R281, R282) -/

/-- The evidence header of peer `j` in slot `i`. -/
def State.evHeader (s : State) (d : RecipeDesc) (i j : Nat) : Nat := s.readLe (evArea d i j) 8

/-- VERDICT_WORD_IGNORED: gen 1, code 2, repeat 3, evidence 4. -/
def State.wordIgnored (s : State) (n i : Nat) (p : Part) (cause : Nat) : State :=
  (s.modRslot n (fun x => { x with parts := x.parts.map (fun q =>
      if q.ordinal = p.ordinal then { q with ignored := true } else q) })).rcpEvent n E.VERDICT_WORD_IGNORED cause
    [(.ix, i), (.en, cause)]

/-- A part with an accepted word ends: DEFAULT_INPUT, remote, if some evidence header has status 3 or 4, else the word's
code (R282). -/
def State.wordEnd (s : State) (n : Nat) (d : RecipeDesc) (p : Part) (w : Nat) : State :=
  let hdrs := (List.range d.peers.length).map (s.evHeader d (p.slot.getD 0))
  if hdrs.any (fun h => h % 256 == 3 || h % 256 == 4) then s.endPart n d p 4 5 else s.endPart n d p (w % 8) 0

/-- Change the part with an ordinal. -/
def State.modPart (s : State) (n ordinal : Nat) (f : Part → Part) : State :=
  s.modRslot n (fun x => { x with parts := x.parts.map (fun q => if q.ordinal = ordinal then f q else q) })

/-- A part ends with DEFAULT_DEADLINE; the reason (R283). -/
def State.deadlineReason (s : State) (d : RecipeDesc) (p : Part) : Nat :=
  let due := (p.ordinal + 1) * d.peers.length
  match partDeadline d p with
  | none => 6
  | some _ =>
    if p.close.isNone && s.partBackstop p then 6
    else if s.ownsRecipe d && !d.peers.isEmpty && !waitMet (s.sync d.evCore d.evCtr) due then 4
    else if p.ctx.any (fun c => decide (p.ctxTok < c.tokens)) then 5
    else if p.late then 2
    else if p.ignored then 3
    else 1

/-- The part's deadline expires (R283): an accepted word acts now; else DEFAULT_DEADLINE, with ev_ctr raised to the part's
value when evidence is missing. The event is posted at once; the record of a part whose decide segments run waits for the
end of their group, so that a late word can stand beside the default (R32, log 68). A shadow entry ends with
DEFAULT_REFUSED (log 51). -/
def State.expirePart (s : State) (n : Nat) (d : RecipeDesc) (p : Part) : State :=
  if p.slot.isNone then s.endPart n d p 3 1
  else match (if p.late then none else p.word) with
    | some w => s.wordEnd n d p w
    | none =>
      let q := s.deadlineReason d p
      let s := if q = 4 then s.setSync d.evCore d.evCtr ((p.ordinal + 1) * d.peers.length) else s
      if p.inDecide then
        let p := forcedEnd d p
        let r := s.postPartEvent n d p 2
        r.2.modPart n p.ordinal (fun _ => { p with owed := some (q, r.1) })
      else s.endPart n d p 2 q

/-- A part whose record waits gets it at the end of the group: a late word or an ignored one gives the reason where no
other cause stood (R283). -/
def State.owedEnd (s : State) (n : Nat) (d : RecipeDesc) (p : Part) : State :=
  match p.owed with
  | none => s
  | some (q, posted) =>
    let q := if q = 1 ∨ q = 3 then (if p.late then 2 else if p.ignored then 3 else 1) else q
    s.recordPart n d p 2 q posted

/-- A word that passes no check of R281, or none (gen 1, code 2, repeat 3, evidence 4). -/
def State.wordCause (s : State) (d : RecipeDesc) (i w : Nat) (p : Part) : Option Nat :=
  if w / 2 ^ 32 ≠ p.gen then some 1
  else if !([0, 1, 5].contains (w % 8)) then some 2
  else if p.word.isSome then some 3
  else if ((List.range d.peers.length).map (s.evHeader d i)).any (fun h => h / 2 ^ 32 != p.ordinal % 2 ^ 32) then some 4
  else none

/-- A word lands in the verdict cell of a slot that was freed since the last build: a repeat, if it carries the gen of
the part whose word was accepted (Table 11-13). -/
def State.wordAfter (s : State) (n i w : Nat) : State :=
  match (s.rslot n).spent.find? (fun x => x.1 = i) with
  | none => s
  | some x =>
    let cause := if w / 2 ^ 32 ≠ x.2 then 1 else if !([0, 1, 5].contains (w % 8)) then 2 else 3
    s.rcpEvent n E.VERDICT_WORD_IGNORED cause [(.ix, i), (.en, cause)]

/-- A word lands in the verdict cell of slot `i` of recipe slot `n`. A word accepted before the part decides is kept, and
acts at the end of its closing step or at its deadline (log 68). -/
def State.verdictWrite (s : State) (n i w : Nat) : State :=
  match (s.rslot n).recipe with
  | none => s
  | some d =>
    if d.maxParts ≤ i ∨ !s.ownsRecipe d then s
    else
      let s := s.writeLe (verdictCell d i) 8 w
      let w := w % 2 ^ 64
      match (s.rslot n).parts.find? (fun p => p.slot == some i) with
      | none => s.wordAfter n i w
      | some p =>
        match s.wordCause d i w p with
        | some cause => s.wordIgnored n i p cause
        | none =>
          if p.owed.isSome then s.modPart n p.ordinal (fun q => { q with late := true, word := some w })
          else if s.partExpired d p then s.expirePart n d { p with late := true, word := some w }
          else if p.stage == .deciding then s.wordEnd n d { p with word := some w } w
          else s.modPart n p.ordinal (fun q => { q with word := some w })

/-- A closing part at the end of its step: refused, defaulted, deciding, or on a peer PASS (R275, R279, R282, R285). -/
def State.closingEnd (s : State) (n : Nat) (d : RecipeDesc) (p : Part) : State :=
  if p.stage != .closing || p.owed.isSome then s
  else if p.slot.isNone then s.endPart n d p 3 1
  else match inputReason d p with
    | some q => s.endPart n d p 4 q
    | none =>
      if s.ownsRecipe d then
        match p.word with
        | some w => s.wordEnd n d p w
        | none => s.modPart n p.ordinal (fun q => { q with stage := .deciding })
      else s.endPart n d p 0 0

/-- INFER_GROUP_END. -/
def State.inferEnd (s : State) (n : Nat) : State :=
  match s.rcp.get? n with
  | none => s
  | some r =>
    match r.recipe with
    | none => s
    | some d =>
      if r.phase ≠ .infer ∨ !s.stepOver n r 1 then s
      else
        let s := (s.noteDropped n r 1).releaseStrips r.taken
        let r := s.rslot n
        let late := r.lateSteps.contains r.k
        let parts := r.parts.map (s.afterStep d r.dropped)
        let s := s.setRslot n { r with parts := parts, phase := .idle, taken := [], ended := none, dropped := false,
                                       missed := [], lateSteps := r.lateSteps.filter (· ≠ r.k) }
        let s := if late then s.marksLate n r.k d else s
        let s := foldS parts (fun p s => s.owedEnd n d p) s
        let s := foldS parts (fun p s => s.closingEnd n d p) s
        s.releaseIdle n

/-- PART_DEADLINE_EXPIRY of the part with an ordinal. -/
def State.partDeadlineExpiry (s : State) (n ordinal : Nat) : State :=
  let r := s.rslot n
  match r.recipe, r.parts.find? (fun p => p.ordinal == ordinal) with
  | some d, some p => if s.partExpired d p && p.owed.isNone then s.expirePart n d p else s
  | _, _ => s

/-- Warm reset, or the drain limit of a shutdown, ends every part with DEFAULT_DEADLINE, reason reset (R293, R479), a peer's
with its evidence header and signal (R280). At the drain limit each is counted and reported (R286, R287) and the present step
runs on to its end; warm reset posts nothing, drops the step, and its records wait for the host port. -/
def State.resetParts (s : State) (wait : Bool) : State :=
  foldS s.rcp.keys (fun n s =>
    let r := s.rslot n
    match r.recipe with
    | none => s
    | some d =>
      let s := foldS r.parts (fun p s =>
        let reason := (p.owed.map (·.1)).getD 7
        let s := if wait then s else s.noteDefault n p 2 reason
        let s := if s.ownsRecipe d then s else s.peerDefault d p 4
        s.partRec 2 wait { ring := d.partRing, bytes := partRecord n (!s.ownsRecipe d) (p.owed.any (·.2)) p 2 reason }) s
      if wait then (s.setRslot n { RcpSlot.init with recipe := some d, sections := r.sections, gens := r.gens }).showRcp n
      else ((s.setRslot n { r with parts := [] }).showRcp n).releaseIdle n) s

/-! ### DS_RCP_CTL (R266, R267) -/

/-- A change of run takes effect: a start measures the strip period anew; a stop with no part open releases the waiting
strips. Steps and ordinals go on from where they were, as the recipe's evidence counter does (R171, log 70). -/
def State.runChanged (s : State) (n old new : Nat) : State :=
  if !bit old 0 && bit new 0 then
    s.modRslot n (fun r => if r.parts.isEmpty ∧ r.phase = .idle then
      { r with starts := [] } else r)
  else s.releaseIdle n

/-- A write to DS_RCP_CTL; run is refused while DS_RCP_STATUS.loaded reads 0 (R267). -/
def State.rcpRunWrite (s : State) (src : Src) (n v : Nat) : State :=
  if 16 ≤ n then s
  else s.paramWrite src R.DS_RCP_CTL [n] v
    (fun s _ new => if bit new 0 && !s.flag R.DS_RCP_STATUS_loaded [n] then some causeBlock else none)
    (fun s => s.dsRefused (R.DS_RCP_CTL.addr [n])) (fun s old new => s.runChanged n old new)

/-! ### Commands -/

/-- RCP_RUN_WRITE. -/
def execRcpRunWrite (src : Src) (n v : Nat) (s : State) : Host.Outcome State Fault Refusal := .next (s.rcpRunWrite src n v)

/-- STEP_TRIGGER. -/
def execStepTrigger (n : Nat) (s : State) : Host.Outcome State Fault Refusal := .next (s.stepTrigger n)

/-- MARKS_APPLY. -/
def execMarksApply (n : Nat) (ctx : List Nat) (s : State) : Host.Outcome State Fault Refusal := .next (s.marksApply n ctx)

/-- MARK_BATCH_RECEIVED. -/
def execMarkBatchReceived (n : Nat) (b : MarkBatch) (ctx : List Nat) (s : State) : Host.Outcome State Fault Refusal :=
  .next (s.markBatch n b ctx)

/-- MARK_WAIT_TIMEOUT. -/
def execMarkWaitTimeout (n : Nat) (ctx : List Nat) (s : State) : Host.Outcome State Fault Refusal :=
  .next (s.markTimeout n ctx)

/-- INFER_GROUP_END. -/
def execInferGroupEnd (n : Nat) (s : State) : Host.Outcome State Fault Refusal := .next (s.inferEnd n)

/-- VERDICT_WORD_WRITE. -/
def execVerdictWordWrite (n i w : Nat) (s : State) : Host.Outcome State Fault Refusal := .next (s.verdictWrite n i w)

/-- PART_DEADLINE_EXPIRY. -/
def execPartDeadlineExpiry (n ordinal : Nat) (s : State) : Host.Outcome State Fault Refusal :=
  .next (s.partDeadlineExpiry n ordinal)

end Sys2Proof.Machine
end

