-- ==== Sys2Proof/Machine/Env.lean ====
section
/-! DEFINITION. Islands, power and environment (chapter 18): the operating point of each core island, lane tuning, thermal
sites, voltage monitors and fans; with the PHY and clock generator answers of chapter 2. -/

namespace Sys2Proof.Machine

/-! ### Tables -/

def EnvCore.init : EnvCore :=
  { samples := [], evalTt := 0, surplus := 0, above := none, block := 0, stepTt := none, settle := none, req := none,
    excl := 0, vTt := 0, ceilTt := none, hot := false }
def EnvMon.init : EnvMon := { warnN := 0, faultN := 0, inTt := none, scan := 0 }
def EnvFan.init : EnvFan := { kick := none, pause := none, edge := 0, good := none, boot := true }

def State.ec (s : State) (c : Nat) : EnvCore := s.env.cores.get c EnvCore.init
def State.setEc (s : State) (c : Nat) (x : EnvCore) : State := { s with env := { s.env with cores := s.env.cores.set c x } }
def State.mon (s : State) (m : Nat) : EnvMon := s.env.mons.get m EnvMon.init
def State.setMon (s : State) (m : Nat) (x : EnvMon) : State := { s with env := { s.env with mons := s.env.mons.set m x } }
def State.fan (s : State) (f : Nat) : EnvFan := s.env.fans.get f EnvFan.init
def State.setFan (s : State) (f : Nat) (x : EnvFan) : State := { s with env := { s.env with fans := s.env.fans.set f x } }

/-! ### Core operating point (R443 to R447, R461) -/

/-- The island's codes. -/
def State.fCode (s : State) (c : Nat) : Nat := s.get R.EM_CORE_STATE_f_code [c]
def State.vCode (s : State) (c : Nat) : Nat := s.get R.EM_CORE_STATE_v_code [c]

/-- Command a voltage code, within v_min_code and v_max_code. -/
def State.setV (s : State) (c v : Nat) : State :=
  let v := max (s.get R.EM_VRANGE_v_min_code) (min (s.get R.EM_VRANGE_v_max_code) v)
  if v = s.vCode c then s
  else (s.setEc c { s.ec c with vTt := s.tt }).put R.EM_CORE_STATE_v_code [c] v

/-- Every CPM of the island is excluded (R461). -/
def State.noCpm (s : State) (c : Nat) : Bool := (s.ec c).excl % 16 == 15

/-- The island runs: not held, and with an entry to run (Table 18-3). -/
def State.islandRuns (s : State) (c : Nat) : Bool :=
  decide (c < s.cfg.cores) && !s.heldIsl.contains c
    && (s.core c).eng.vals.any (fun x => x.run.isSome || !x.queue.isEmpty)

/-- Request a code from the clock generator (R56). -/
def State.request (s : State) (c code : Nat) : State :=
  s.setEc c { s.ec c with req := some (code, s.tt), stepTt := some s.tt, settle := none }

/-- The frequency code that the loop aims for (R443, R452, R460, R461). -/
def State.goalCode (s : State) (c : Nat) : Nat :=
  let tgt := s.get R.EM_CORE_TGT_tgt_code [c]
  let fl := s.get R.EM_CORE_TGT_floor_code [c]
  let ceil := s.get R.EM_CORE_TGT_ceil_code [c]
  let lim := s.get R.EM_CORE_TGT_lim_code [c]
  let want := if s.noCpm c then min tgt fl else tgt
  let under := if s.env.crit then min want ceil else max (min want ceil) fl
  max 24 (min under (min lim 68))

/-- DVFS_EVALUATION (R444): at the end of a period of ten samples. Surplus periods count from the end of a frequency step, as
Table 18-4 shows (log 72). -/
def State.dvfs (s : State) (c : Nat) : State :=
  let x := s.ec c
  if s.cfg.cores ≤ c ∨ !s.flag R.EM_CTL_dvfs_en ∨ s.heldIsl.contains c ∨ s.tt < x.evalTt + 10000 then s
  else
    let s := if x.block ≤ s.tt then s.put R.EM_CORE_STATE_emergency [c] 0 else s
    let base := { x with samples := [], evalTt := s.tt }
    if s.noCpm c then (s.setEc c base).setV c (s.get R.EM_VRANGE_v_max_code)
    else match x.samples with
      | [] => s.setEc c base
      | h :: t =>
        let slack := t.foldl min h
        let margin := s.get R.EM_CPM_CFG_margin
        let high := decide (margin + s.get R.EM_CPM_CFG_hyst < slack)
        let moving := x.req.isSome || x.settle.isSome
        let above := if high then some (x.above.getD s.tt) else none
        let s := s.setEc c { base with surplus := if high && !moving then x.surplus + 1 else 0, above := above }
        if slack < margin then
          if s.vCode c < s.get R.EM_VRANGE_v_max_code then s.setV c (s.vCode c + 1)
          else
            let f := s.fCode c
            let low := if s.env.crit then 24 else max 24 (s.get R.EM_CORE_TGT_floor_code [c])
            let s := s.put R.EM_CORE_STATE_vlimited [c] 1
            if low < f ∧ x.req.isNone then s.request c (f - 1) else s
        else
          let s := if above.any (fun t => decide (t + 10000000 ≤ s.tt)) then s.put R.EM_CORE_STATE_vlimited [c] 0 else s
          if high ∧ !moving ∧ 100 ≤ x.surplus + 1 then
            let s := s.setEc c { s.ec c with surplus := 0 }
            if x.block ≤ s.tt then s.setV c (s.vCode c - 1) else s
          else s

/-- FREQUENCY_STEP (R445): at least 100 µs after the last step, a one-code move toward the goal starts. -/
def State.freqStep (s : State) (c : Nat) : State :=
  let x := s.ec c
  let f := s.fCode c
  let g := s.goalCode c
  let due := x.stepTt.all (fun t => decide (t + 100000 ≤ s.tt))
  if s.cfg.cores ≤ c ∨ !s.flag R.EM_CTL_dvfs_en ∨ s.heldIsl.contains c ∨ x.req.isSome ∨ x.settle.isSome ∨ !due then s
  else if g < f then s.request c (f - 1)
  else if f < g ∧ !s.flag R.EM_CORE_STATE_vlimited [c] then
    let s := s.setV c (s.vCode c + s.get R.EM_VRANGE_v_step_up)
    s.setEc c { s.ec c with stepTt := some s.tt, settle := some (s.tt + s.get R.EM_CPM_CFG_v_settle_us * 1000) }
  else s

/-- FREQUENCY_REQUEST (R445): v_settle_us after the voltage was raised. -/
def State.freqRequest (s : State) (c : Nat) : State :=
  let x := s.ec c
  match x.settle with
  | some t => if t ≤ s.tt then s.setEc c { x with settle := none, req := some (s.fCode c + 1, s.tt) } else s
  | none => s

/-- CLOCK_GEN_ACK (R56): the requested frequency holds. -/
def State.clockAck (s : State) (c : Nat) : State :=
  match (s.ec c).req with
  | some (code, _) =>
    (((s.setEc c { s.ec c with req := none }).put R.EM_CORE_STATE_f_code [c] code).put R.CR_CORE_STATUS_freq_mhz [c] (25 * code)).noteFreq
      c
  | none => s

/-- CLOCK_GEN_TIMEOUT (R51): 50 µs without acknowledgement; the island is capped at its last frequency. -/
def State.clockTimeout (s : State) (c : Nat) : State :=
  match (s.ec c).req with
  | some (code, t) =>
    if s.tt < t + 50000 then s
    else
      let s := (s.setEc c { s.ec c with req := none }).put R.EM_CORE_TGT_lim_code [c] (s.fCode c)
      (s.bump R.EM_ERR_clock_timeout).postLim E.CLOCK_GEN_TIMEOUT 0 (some c) [(.en, code)]
  | none => s

/-- The smallest reading of the CPMs that are not excluded. -/
def slackOf (excl : Nat) (l : List Nat) : Option Nat :=
  match (List.range 4).filterMap (fun k => if bit excl k then none else l[k]?) with
  | [] => none
  | h :: t => some (t.foldl min h)

/-- CPM_SAMPLE: the readings of the island's four CPMs; below emerg an emergency (R446). -/
def State.cpmSample (s : State) (c : Nat) (l : List Nat) : State :=
  let x := s.ec c
  if !s.islandRuns c then s
  else match slackOf x.excl l with
    | none => s
    | some k =>
      let s := (s.setEc c { x with samples := k :: x.samples }).put R.EM_CORE_STATE_slack [c] k
      if k < s.get R.EM_CPM_CFG_emerg ∧ s.flag R.EM_CTL_dvfs_en then
        let s := s.setV c (s.vCode c + 4)
        let s := (s.setEc c { s.ec c with block := s.tt + 10000000, surplus := 0 }).put R.EM_CORE_STATE_emergency [c] 1
        (s.bump R.EM_ERR_emergency).postLim E.CPM_EMERGENCY 0 (some c) [(.en, k)]
      else s

/-- CPM_CALIBRATION (R447, R461): the four calibrated readings of the island. -/
def State.cpmCalibrate (s : State) (c : Nat) (l : List Int) : State :=
  if s.cfg.cores ≤ c ∨ s.heldIsl.contains c then s
  else
    let excl := (List.range 4).foldl (fun a k => match l[k]? with
      | some v => a + b2n (decide (v < 0 ∨ 255 < v)) * 2 ^ k
      | none => a) 0
    let was := s.noCpm c
    let s := s.setEc c { s.ec c with excl := excl }
    if excl = 15 then
      let s := s.setV c (s.get R.EM_VRANGE_v_max_code)
      if was then s else s.postLim E.SENSOR_FAIL 1 (some c) [(.en, 2)]
    else s

/-! ### PHY tuning (R48, R50, R448 to R450); lane l of CoaXPress is l, Quill port p is 128 + p -/

def State.lane (s : State) (n : Nat) : TuneLane := s.tune.get n TuneLane.init
def State.setLane (s : State) (n : Nat) (x : TuneLane) : State := { s with tune := s.tune.set n x }

/-- The tuning map's addresses: equaliser, eye metric, threshold; 0xFF for one the PHY lacks. -/
def State.tuneMap (s : State) (n : Nat) : Nat × Nat × Nat :=
  if n < 128 then (s.get R.CX_TUNE_MAP_eq_addr [n], s.get R.CX_TUNE_MAP_eye_addr [n], s.get R.CX_TUNE_MAP_thr_addr [n])
  else (s.get R.QP_TUNE_MAP_eq_addr [n - 128], s.get R.QP_TUNE_MAP_eye_addr [n - 128], 0xFF)

/-- The range of a code: the equaliser's, or the 6-bit threshold's. -/
def State.tuneRange (s : State) (n : Nat) (thr : Bool) : Nat × Nat :=
  if thr then (0, 63)
  else if n < 128 then (s.get R.CX_TUNE_LIM_eq_lo [n], s.get R.CX_TUNE_LIM_eq_hi [n])
  else (s.get R.QP_TUNE_LIM_eq_lo [n - 128], s.get R.QP_TUNE_LIM_eq_hi [n - 128])

/-- The lane exists, and its link is up (R449). -/
def State.laneUp (s : State) (n : Nat) : Bool :=
  if n < 128 then decide (n < s.cfg.cxpLanes) && (List.range s.cfg.camPipes).any (fun p =>
      let l := camLanes (s.regWord R.CX_CAM_CTL [p])
      decide (l.1 ≤ n ∧ n < l.1 + l.2) && bit (s.get R.CX_CAM_STATUS_lock [p]) (n - l.1))
  else decide (n - 128 < s.cfg.quillPorts) && s.flag R.QP_CTL_en [n - 128]
    && !bit (s.get R.QP_STATUS_defects [n - 128]) 0

/-- Write a code of the loop. -/
def State.writeCode (s : State) (n : Nat) (thr : Bool) (code : Nat) : State :=
  let m := s.tuneMap n
  s.phySend n { fn := if thr then .thr else .eq, write := true, addr := if thr then m.2.2 else m.1, data := code }

/-- Read the eye metric four times. -/
def State.readEye (s : State) (n : Nat) : State :=
  foldS (List.range 4) (fun _ s => s.phySend n { fn := .eye, write := false, addr := (s.tuneMap n).2.1, data := 0 }) s

/-- The code of a trial's stage: c, c + 1, c − 1. -/
def Trial.code (t : Trial) (stage : Nat) : Nat := if stage = 0 then t.c else if stage = 1 then t.c + 1 else t.c - 1

/-- A stage's code may be tried. -/
def State.stageOk (s : State) (n : Nat) (t : Trial) (stage : Nat) : Bool :=
  let r := s.tuneRange n t.thr
  decide ((stage ≠ 2 ∨ 0 < t.c) ∧ r.1 ≤ t.code stage ∧ t.code stage ≤ r.2)

/-- The trial's best code: highest average, c on a tie (R449). -/
def Trial.best (t : Trial) : Nat :=
  let avg := fun i => ((t.avg[i]?).getD none)
  let better := fun (a b : Option Nat) => match a, b with
    | some x, some y => decide (y < x)
    | some _, none => true
    | none, _ => false
  let one := if better (avg 1) (avg 0) then 1 else 0
  t.code (if better (avg 2) (avg one) && better (avg 2) (avg 0) then 2 else one)

/-- A stage is over with an average, or none: the next stage's code is written, or the best code. A code becomes the lane's
setting once its write is acknowledged. -/
def State.stageDone (s : State) (n : Nat) (t : Trial) (avg : Option Nat) : State :=
  let t := { t with avg := t.avg ++ [avg], reads := [], spoiled := false, dwell := none }
  let start := fun (t : Trial) (stage : Nat) =>
    let dwell := s.tt + s.get R.EM_TUNE_CTL_dwell_ms * 1000000
    (s.setLane n { s.lane n with trial := some { t with stage := stage, dwell := some dwell } }).writeCode n t.thr (t.code stage)
  let skip := fun (t : Trial) => { t with avg := t.avg ++ [none] }
  let finish := fun (t : Trial) =>
    let b := t.best
    (s.setLane n { s.lane n with trial := none, thrTurn := !t.thr }).writeCode n t.thr b
  if t.stage = 0 then
    if s.stageOk n t 1 then start t 1
    else if s.stageOk n t 2 then start (skip t) 2 else finish t
  else if t.stage = 1 then
    if s.stageOk n t 2 then start t 2 else finish t
  else finish t

/-- TUNING_TRIAL (R449, R450): every eq_period_ms; functions the PHY lacks are skipped. -/
def State.startTrial (s : State) (n : Nat) : State :=
  let x := s.lane n
  let m := s.tuneMap n
  let thr := (x.thrTurn && m.2.2 != 0xFF) || m.1 == 0xFF
  let lacks := m.2.1 == 0xFF || (if thr then m.2.2 == 0xFF else m.1 == 0xFF)
  if !s.flag R.EM_CTL_tune_en ∨ !s.laneUp n ∨ x.stopped ∨ x.down ∨ x.reqs ≠ [] ∨ x.trial.isSome ∨ lacks ∨ s.tt < x.next
      ∨ x.retry.any (fun t => decide (s.tt < t)) then s
  else
    let c := if thr then x.thr else max x.code (s.tuneRange n false).1
    let t : Trial := { thr := thr, c := c, stage := 0, reads := [], avg := [], dwell := none, spoiled := false }
    let x := { x with trial := some t, retry := none, next := s.tt + s.get R.EM_TUNE_CTL_eq_period_ms * 1000000 }
    (s.setLane n x).readEye n

/-- TRIAL_DWELL_END: the dwell of a trial code is over and the eye is read; a spoiled code is restored to c at once and
scores lowest (R449). -/
def State.dwellEnd (s : State) (n : Nat) (spoiled : Bool) : State :=
  let x := s.lane n
  match x.trial with
  | none => s
  | some t =>
    if t.stage = 0 then s
    else if spoiled then (s.writeCode n t.thr t.c).stageDone n t none
    else match t.dwell with
      | some d => if d ≤ s.tt then (s.setLane n { x with trial := some { t with dwell := none } }).readEye n else s
      | none => s

/-- The lane once its access `r` is acknowledged: a code that was written is its setting (R50). -/
def TuneLane.acked (x : TuneLane) (r : PhyReq) : TuneLane :=
  match r.fn with
  | .eq => { x with fails := 0, code := r.data }
  | .thr => { x with fails := 0, thr := r.data }
  | _ => { x with fails := 0 }

/-- PHY_TUNE_ACK: the access on the interface is acknowledged; a read carries `data`. -/
def State.phyAck (s : State) (n data : Nat) : State :=
  let x := s.lane n
  match x.reqs with
  | [] => s
  | r :: rest =>
    let s := s.setLane n { x.acked r with reqs := rest }
    match x.trial with
    | none => s
    | some t =>
      if r.write then s
      else
        let reads := t.reads ++ [data]
        if reads.length < 4 then s.setLane n { s.lane n with trial := some { t with reads := reads } }
        else s.stageDone n t (some (reads.foldl (· + ·) 0 / 4))

/-- PHY_TUNE_TIMEOUT (R50): the access is abandoned; the loop retries after 1 ms, whatever is left of the period, and stops
after three in a row. -/
def State.phyTimeout (s : State) (n : Nat) : State :=
  let x := s.lane n
  match x.reqs with
  | [] => s
  | _ :: _ =>
    let fails := x.fails + 1
    let s := s.setLane n { x with reqs := [], trial := none, fails := fails, stopped := x.stopped || decide (3 ≤ fails),
                                  retry := some (s.tt + 1000000), next := s.tt + 1000000 }
    (s.bump R.EM_ERR_tune_timeout).postLim E.PHY_TUNE_TIMEOUT 0 (some n) [(.num, fails)]

/-- LANE_SERDES_RESET (R48, R50): the access in flight is abandoned; the loop restarts from the stored settings once the
SerDes is ready again. -/
def State.serdesReset (s : State) (n : Nat) : State :=
  s.setLane n { s.lane n with reqs := [], trial := none, fails := 0, stopped := false, retry := none, down := true }

/-! ### Fans (R454 to R456, R464) -/

/-- A site reads a valid temperature. -/
def State.siteValid (s : State) (k : Nat) : Bool := s.flag R.EM_THERM_valid [k] && !s.flag R.EM_THERM_failed [k]

/-- The temperature of a site, 1/16 °C. -/
def State.siteTemp (s : State) (k : Nat) : Int := signedOf 16 (s.get R.EM_THERM_temp [k])

/-- The hottest valid site, 1/16 °C. -/
def State.hottest (s : State) : Option Int :=
  ((List.range 16).filter s.siteValid).foldl (fun a k => match a with
    | some t => some (max t (s.siteTemp k))
    | none => some (s.siteTemp k)) none

/-- The duty of the fan curve (R454). -/
def State.curveDuty (s : State) (f : Nat) : Nat :=
  match s.hottest with
  | none => 255
  | some t =>
    let lo : Int := 16 * s.get R.EM_FAN_CFG_t_fan_lo [f]
    let hi : Int := 16 * s.get R.EM_FAN_CFG_t_fan_hi [f]
    let m := s.get R.EM_FAN_CFG_duty_min [f]
    if t ≤ lo then m else if hi ≤ t then 255 else m + ((255 - m : Nat) * (t - lo) / (hi - lo)).toNat

/-- Some fan or site asks for 100% of every enabled fan (R455, R456, R461). -/
def State.fansForced (s : State) : Bool :=
  (List.range 4).any (fun f => s.get R.EM_FAN_STATUS_state [f] == 3 || s.flag R.EM_FAN_STATUS_tach_lost [f])
  || (List.range 16).any (fun k => s.flag R.EM_THERM_failed [k])

/-- Kick a fan at 100% (R455). -/
def State.kickFan (s : State) (f : Nat) : State :=
  ((s.setFan f { s.fan f with kick := some (s.tt + 3000000000), pause := none }).put R.EM_FAN_STATUS_state [f] 1).put
    R.EM_FAN_STATUS_duty [f] 255

/-- Give a fan the duty that its state calls for; one that leaves duty 0 is kicked. -/
def State.showFan (s : State) (f : Nat) : State :=
  if s.get R.EM_FAN_STATUS_state [f] ≠ 2 then s
  else
    let d := if s.fansForced || !s.flag R.EM_CTL_fan_auto then 255 else s.curveDuty f
    if s.get R.EM_FAN_STATUS_duty [f] = 0 ∧ d ≠ 0 then (s.put R.EM_FAN_STATUS_retries [f] 0).kickFan f
    else s.put R.EM_FAN_STATUS_duty [f] d

/-- Every fan. -/
def State.showFans (s : State) : State := foldS (List.range 4) (fun f s => s.showFan f) s

/-- en of a fan changes (R455, R460). -/
def State.fanEnable (s : State) (f : Nat) (on : Bool) : State :=
  let s := s.setFan f { s.fan f with boot := false }
  if on then (s.put R.EM_FAN_STATUS_retries [f] 0).kickFan f
  else
    ((((s.setFan f { s.fan f with kick := none, pause := none }).put R.EM_FAN_STATUS_state [f] 0).put
      R.EM_FAN_STATUS_duty [f] 0).put R.EM_FAN_STATUS_tach_lost [f] 0).showFans

/-- FAN_KICK_TIMEOUT: 3 s without tach_min pauses the fan for 1 s and kicks it again, at most 3 times (R455). -/
def State.kickTimeout (s : State) (f : Nat) : State :=
  let x := s.fan f
  if s.get R.EM_FAN_STATUS_state [f] ≠ 1 then s
  else match x.kick, x.pause with
    | some t, _ =>
      if s.tt < t then s
      else if s.get R.EM_FAN_STATUS_retries [f] < 3 then
        ((s.setFan f { x with kick := none, pause := some (s.tt + 1000000000) }).put R.EM_FAN_STATUS_duty [f] 0).bump
          R.EM_FAN_STATUS_retries [f]
      else
        let s := ((s.setFan f { x with kick := none }).put R.EM_FAN_STATUS_state [f] 3).put R.EM_FAN_STATUS_duty [f] 0
        (s.postLim E.FAN_FAULT 0 (some f) [(.en, 1)]).showFans
    | none, some t => if s.tt < t then s else s.kickFan f
    | none, none => s

/-- FAN_RPM_UPDATE: the last tach period in ns, 0 with no edge (R454, R455). -/
def State.rpmUpdate (s : State) (f period : Nat) : State :=
  if 4 ≤ f then s
  else
    let ppr := if s.flag R.EM_FAN_CFG_ppr4 [f] then 4 else 2
    let rpm := if period = 0 then 0 else min 65535 (60000000000 / (period * ppr))
    let s := s.put R.EM_FAN_TACH_rpm [f] rpm
    let ok := decide (s.get R.EM_FAN_TACH_tach_min [f] ≤ rpm)
    let x := s.fan f
    let s := s.setFan f { x with edge := if period = 0 then x.edge else s.tt,
                                 good := if ok then some (x.good.getD s.tt) else none }
    if s.get R.EM_FAN_STATUS_state [f] = 1 ∧ ok ∧ x.kick.isSome then
      ((s.setFan f { s.fan f with kick := none }).put R.EM_FAN_STATUS_state [f] 2).showFan f
    else s

/-- FAN_TACH_TIMEOUT: no tach edge for 2 s (R456). -/
def State.tachTimeout (s : State) (f : Nat) : State :=
  if s.get R.EM_FAN_STATUS_state [f] ≠ 2 ∨ s.get R.EM_FAN_STATUS_duty [f] = 0 ∨ s.flag R.EM_FAN_STATUS_tach_lost [f]
      ∨ s.tt < (s.fan f).edge + 2000000000 then s
  else ((s.put R.EM_FAN_STATUS_tach_lost [f] 1).postLim E.FAN_TACH_LOST 0 (some f) []).showFans

/-- FAN_TACH_RESTORED: 10 s of edges at or above tach_min (R456). -/
def State.tachRestored (s : State) (f : Nat) : State :=
  if s.flag R.EM_FAN_STATUS_tach_lost [f] ∧ (s.fan f).good.any (fun t => decide (t + 10000000000 ≤ s.tt)) then
    ((s.put R.EM_FAN_STATUS_tach_lost [f] 0).postLim E.FAN_OK 0 (some f) [(.num, s.get R.EM_FAN_TACH_rpm [f])]).showFans
  else s

/-! ### Thermal sites (R451, R452, R461) -/

/-- A site covers something that the configuration has (R451). -/
def State.sitePresent (s : State) (k : Nat) : Bool := decide (8 ≤ k ∨ 4 * k < s.cfg.cores)

/-- THERMAL_READ: a reading in 1/16 °C, or none from a site that does not update. -/
def State.thermalRead (s : State) (k : Nat) (t : Option Int) : State :=
  if 16 ≤ k then s
  else if !s.sitePresent k then s.put R.EM_THERM_valid [k] 0
  else
    let fail := fun (s : State) =>
      if s.flag R.EM_THERM_failed [k] then s
      else (s.put R.EM_THERM_failed [k] 1).postLim E.SENSOR_FAIL 0 (some k) [(.en, 1)]
    let s : State := match t with
      | none => if s.env.sites.get k 0 + 10000000 ≤ s.tt then fail s else s
      | some v =>
        let s := { s with env := { s.env with sites := s.env.sites.set k s.tt } }
        let s := (s.put R.EM_THERM_temp [k] (wrapInt 16 v)).put R.EM_THERM_valid [k] 1
        if v < -640 ∨ 2400 < v then fail s
        else
          let s := s.put R.EM_THERM_failed [k] 0
          let s := if 16 * (s.get R.EM_THERM_CFG_t_warn : Int) < v then
              s.postLim E.THERMAL_WARN 0 (some k) [(.num, wrapInt 16 v)] else s
          if 16 * (s.get R.EM_THERM_CFG_t_crit : Int) < v then
            let s := foldS (List.range s.cfg.cores) (fun c s =>
              (s.put R.EM_CORE_TGT_ceil_code [c] 24).setEc c { s.ec c with ceilTt := some s.tt }) s
            ({ s with env := { s.env with crit := true } }).postLim E.THERMAL_CRITICAL 0 (some k) [(.num, wrapInt 16 v)]
          else s
    let cool : Bool := ((List.range 16).filter s.siteValid).all (fun j =>
      decide (s.siteTemp j < 16 * (s.get R.EM_THERM_CFG_t_crit : Int) - 160))
    let s := if s.env.crit ∧ cool then { s with env := { s.env with crit := false } } else s
    s.showFans

/-- A core island's governing temperature and its site (R451). -/
def State.governing (s : State) (c : Nat) : Option (Int × Nat) :=
  ((c / 4 :: List.range' 8 8).filter s.siteValid).foldl (fun (a : Option (Int × Nat)) k => match a with
    | some b => if b.1 < s.siteTemp k then some (s.siteTemp k, k) else some b
    | none => some (s.siteTemp k, k)) none

/-- CEILING_STEP (R452). -/
def State.ceilingStep (s : State) (c : Nat) : State :=
  let x := s.ec c
  let ceil := s.get R.EM_CORE_TGT_ceil_code [c]
  let fl := max 24 (s.get R.EM_CORE_TGT_floor_code [c])
  let th : Int := 16 * s.get R.EM_THERM_CFG_t_throttle
  let after := fun n => x.ceilTt.all (fun t => decide (t + n ≤ s.tt))
  match s.governing c with
  | none => s
  | some (t, k) =>
    if s.cfg.cores ≤ c ∨ s.env.crit then s
    else if th < t then
      if fl < ceil ∧ after 10000000 then
        let n := max fl (ceil - 4)
        let s := (s.put R.EM_CORE_TGT_ceil_code [c] n).setEc c { x with ceilTt := some s.tt, hot := true }
        if x.hot then s else s.postLim E.THERMAL_THROTTLE 0 (some c) [(.num, k), (.en, n)]
      else s
    else if t < th - 80 then
      if ceil < 68 ∧ after 100000000 then
        (s.put R.EM_CORE_TGT_ceil_code [c] (min 68 (ceil + 4))).setEc c { x with ceilTt := some s.tt, hot := false }
      else s
    else s

/-! ### Voltage monitors (R453, R463) -/

/-- The next present island of a core monitor's scan. -/
def State.scanNext (s : State) (m k : Nat) : Nat :=
  let n := min 8 (s.cfg.cores - 8 * m)
  if k + 1 < n then k + 1 else 0

/-- Set or clear a monitor's bit of EM_VMON_STATUS. -/
def State.monBit (s : State) (f : Fld) (m : Nat) (on : Bool) : State := s.put f [] (setBits (s.get f) m m (b2n on))

/-- A supply fault is a stop condition (R55, R313, R453). -/
def State.supplyStop (s : State) : State := ({ s.actStop true with ecatHold := false }).bypassUpdate

/-- VMON_SAMPLE: monitor `m` reads `v` (5 mV units). -/
def State.vmonSample (s : State) (m v : Nat) : State :=
  let x := s.mon m
  let c := 8 * m + x.scan
  let core := decide (m < 4)
  if 8 ≤ m ∨ !s.flag R.EM_VMON_CFG_en [m] ∨ (core ∧ s.cfg.cores ≤ 8 * m) then s
  else
    let s := s.put R.EM_VMON_VAL_value [m] v
    let next := { x with scan := if core then s.scanNext m x.scan else 0 }
    if core ∧ s.tt < (s.ec c).vTt + s.get R.EM_CPM_CFG_v_settle_us * 1000 then s.setMon m next
    else
      let ref := if core then s.vCode c else s.get R.EM_VMON_CFG_nominal [m]
      let d := ((v : Int) - ref).natAbs
      let warn := if core then decide (5 < d) else decide (ref < 20 * d)
      let fault := if core then decide (10 < d) else decide (ref < 10 * d)
      let y := { next with warnN := if warn then x.warnN + 1 else 0, faultN := if fault then x.faultN + 1 else 0,
                           inTt := if warn then none else some (x.inTt.getD s.tt) }
      let s := s.setMon m y
      let s := if !warn then s.monBit R.EM_VMON_STATUS_warn m false
        else if y.warnN = 10 then (s.monBit R.EM_VMON_STATUS_warn m true).postLim E.SUPPLY_WARN 0 (some m) [(.num, v)] else s
      if y.faultN = 10 ∧ !bit (s.get R.EM_VMON_STATUS_fault) m then
        (((s.monBit R.EM_VMON_STATUS_fault m true).bump R.EM_ERR_supply).postLim E.SUPPLY_FAULT 0 (some m) [(.num, v)]).supplyStop
      else s

/-- No fault bit is set any more: the keep-alives may toggle and ACT_OE rises with AU_CTL.en (R463). -/
def State.supplyBack (s : State) : State :=
  if s.get R.EM_VMON_STATUS_fault ≠ 0 then s
  else
    let on := s.au.oe || (s.flag R.AU_CTL_en && !s.por && !s.warm)
    let s := { s with au := { s.au with oe := on } }.bypassUpdate
    { s with ecatHold := s.cu.test == 1 && !s.por && !s.warm }

/-- SUPPLY_FAULT_CLEAR: firmware clears a fault after 1 s inside the warn window. -/
def State.supplyClear (s : State) (m : Nat) : State :=
  if bit (s.get R.EM_VMON_STATUS_fault) m ∧ (s.mon m).inTt.any (fun t => decide (t + 1000000000 ≤ s.tt)) then
    ((s.monBit R.EM_VMON_STATUS_fault m false).postLim E.SUPPLY_OK 0 (some m) []).supplyBack
  else s

/-! ### Configuration (R457) -/

/-- A write to an EM_ parameter outside its ranges, or that breaks an order of R457, changes nothing. -/
def emBad (r : RegSpec) (old v : Nat) : Bool :=
  let w := fieldsWrite old v r.fields
  anyOutOfRange v r.fields
    || (r.off == R.EM_THERM_CFG.off && !decide (bits w 7 0 < bits w 15 8 ∧ bits w 15 8 < bits w 23 16))
    || (r.off == R.EM_VRANGE.off && !decide (bits w 7 0 < bits w 15 8))
    || (r.off == R.EM_FAN_CFG.off && !decide (bits w 17 10 < bits w 25 18))

/-- A write to an EM_, QP_TUNE_ or CX_TUNE_ parameter. -/
def State.emWrite (s : State) (src : Src) (r : RegSpec) (ix : List Nat) (v : Nat) : State :=
  s.paramWriteEff src r ix v v false (fun _ old _ => if emBad r old v then some causeBlock else none)
    (fun s => s.postLim E.EM_CFG_REFUSED (r.addr ix) none [(.val, r.addr ix)])
    (fun s old new =>
      if r.off = R.EM_FAN_CFG.off then
        (if bit old 0 == bit new 0 then s.showFans else s.fanEnable (ix.headD 0) (bit new 0))
      else if r.off = R.EM_CTL.off then s.showFans
      else if r.off = R.EM_VRANGE.off then foldS (List.range s.cfg.cores) (fun c s => s.setV c (s.vCode c)) s
      else s)

/-! ### Commands -/

/-- DVFS_EVALUATION. -/
def execDvfsEvaluation (c : Nat) (s : State) : Host.Outcome State Fault Refusal := .next (s.dvfs c)

/-- FREQUENCY_STEP. -/
def execFrequencyStep (c : Nat) (s : State) : Host.Outcome State Fault Refusal := .next (s.freqStep c)

/-- FREQUENCY_REQUEST. -/
def execFrequencyRequest (c : Nat) (s : State) : Host.Outcome State Fault Refusal := .next (s.freqRequest c)

/-- CLOCK_GEN_ACK. -/
def execClockGenAck (c : Nat) (s : State) : Host.Outcome State Fault Refusal := .next (s.clockAck c)

/-- CLOCK_GEN_TIMEOUT. -/
def execClockGenTimeout (c : Nat) (s : State) : Host.Outcome State Fault Refusal := .next (s.clockTimeout c)

/-- CPM_SAMPLE. -/
def execCpmSample (c : Nat) (readings : List Nat) (s : State) : Host.Outcome State Fault Refusal :=
  .next (s.cpmSample c readings)

/-- CPM_CALIBRATION. -/
def execCpmCalibration (c : Nat) (readings : List Int) (s : State) : Host.Outcome State Fault Refusal :=
  .next (s.cpmCalibrate c readings)

/-- TUNING_TRIAL. -/
def execTuningTrial (lane : Nat) (s : State) : Host.Outcome State Fault Refusal := .next (s.startTrial lane)

/-- TRIAL_DWELL_END. -/
def execTrialDwellEnd (lane : Nat) (spoiled : Bool) (s : State) : Host.Outcome State Fault Refusal :=
  .next (s.dwellEnd lane spoiled)

/-- PHY_TUNE_ACK. -/
def execPhyTuneAck (lane data : Nat) (s : State) : Host.Outcome State Fault Refusal := .next (s.phyAck lane data)

/-- PHY_TUNE_TIMEOUT. -/
def execPhyTuneTimeout (lane : Nat) (s : State) : Host.Outcome State Fault Refusal := .next (s.phyTimeout lane)

/-- LANE_SERDES_RESET. -/
def execLaneSerdesReset (lane : Nat) (s : State) : Host.Outcome State Fault Refusal := .next (s.serdesReset lane)

/-- THERMAL_READ. -/
def execThermalRead (site : Nat) (temp : Option Int) (s : State) : Host.Outcome State Fault Refusal :=
  .next (s.thermalRead site temp)

/-- CEILING_STEP. -/
def execCeilingStep (c : Nat) (s : State) : Host.Outcome State Fault Refusal := .next (s.ceilingStep c)

/-- VMON_SAMPLE. -/
def execVmonSample (m v : Nat) (s : State) : Host.Outcome State Fault Refusal := .next (s.vmonSample m v)

/-- SUPPLY_FAULT_CLEAR. -/
def execSupplyFaultClear (m : Nat) (s : State) : Host.Outcome State Fault Refusal := .next (s.supplyClear m)

/-- FAN_KICK_TIMEOUT. -/
def execFanKickTimeout (f : Nat) (s : State) : Host.Outcome State Fault Refusal := .next (s.kickTimeout f)

/-- FAN_RPM_UPDATE. -/
def execFanRpmUpdate (f period : Nat) (s : State) : Host.Outcome State Fault Refusal := .next (s.rpmUpdate f period)

/-- FAN_TACH_TIMEOUT. -/
def execFanTachTimeout (f : Nat) (s : State) : Host.Outcome State Fault Refusal := .next (s.tachTimeout f)

/-- FAN_TACH_RESTORED. -/
def execFanTachRestored (f : Nat) (s : State) : Host.Outcome State Fault Refusal := .next (s.tachRestored f)

end Sys2Proof.Machine
end

