-- ==== Sys2Proof/Machine/Float.lean ====
section
/-! DEFINITION. Number formats: exact values, the roundings of Table 8-3, the conversions of Table 8-8 and the f32
functions of R223 and R224. -/

namespace Sys2Proof.Machine

/-- A value: NaN, an infinity, or ± m · 2^e. -/
inductive Fv where
  | nan
  | inf (neg : Bool)
  | fin (neg : Bool) (m : Nat) (e : Int)
  deriving DecidableEq, Repr

/-- A binary format: exponent and fraction bits; `ieee` is false for E4M3, which has no infinities (R198). -/
structure Fmt where
  ebits : Nat
  mbits : Nat
  ieee : Bool
  deriving DecidableEq, Repr

def fmtE4m3 : Fmt := ⟨4, 3, false⟩
def fmtE5m2 : Fmt := ⟨5, 2, true⟩
def fmtBf16 : Fmt := ⟨8, 7, true⟩
def fmtF16 : Fmt := ⟨5, 10, true⟩
def fmtF32 : Fmt := ⟨8, 23, true⟩

/-- The exponent bias. -/
def Fmt.bias (f : Fmt) : Nat := 2 ^ (f.ebits - 1) - 1

/-- The bits of a format. -/
def Fmt.width (f : Fmt) : Nat := 1 + f.ebits + f.mbits

/-- The value of a word. -/
def Fmt.decode (f : Fmt) (x : Nat) : Fv :=
  let neg := x.testBit (f.ebits + f.mbits)
  let ex := bits x (f.ebits + f.mbits - 1) f.mbits
  let man := x % 2 ^ f.mbits
  if ex + 1 = 2 ^ f.ebits ∧ f.ieee then (if man = 0 then .inf neg else .nan)
  else if ex + 1 = 2 ^ f.ebits ∧ man + 1 = 2 ^ f.mbits then .nan
  else if ex = 0 then .fin neg man (1 - (f.bias : Int) - f.mbits)
  else .fin neg (2 ^ f.mbits + man) ((ex : Int) - f.bias - f.mbits)

/-- `m` shifted right by `k` and rounded: 0 nearest even, 1 toward zero, 2 toward −∞, 3 toward +∞ (Table 8-3). -/
def roundShift (rnd : Nat) (neg : Bool) (m k : Nat) : Nat :=
  let q := m / 2 ^ k
  let r := m % 2 ^ k
  match rnd with
  | 0 => if 2 * r > 2 ^ k ∨ (2 * r = 2 ^ k ∧ r ≠ 0 ∧ q % 2 = 1) then q + 1 else q
  | 1 => q
  | 2 => if neg ∧ r ≠ 0 then q + 1 else q
  | _ => if !neg ∧ r ≠ 0 then q + 1 else q

/-- The magnitude bits of the largest finite value. -/
def Fmt.maxMag (f : Fmt) : Nat := if f.ieee then (2 ^ f.ebits - 1) * 2 ^ f.mbits - 1 else 2 ^ (f.ebits + f.mbits) - 2

/-- The magnitude bits of infinity. -/
def Fmt.infMag (f : Fmt) : Nat := (2 ^ f.ebits - 1) * 2 ^ f.mbits

/-- The canonical NaN (Table 8-8). -/
def Fmt.nanBits (f : Fmt) : Nat := if f.ieee then f.infMag + 2 ^ (f.mbits - 1) else 2 ^ (f.ebits + f.mbits) - 1

/-- The magnitude bits of ± m · 2^e after rounding, before the range is looked at. -/
def Fmt.roundMag (f : Fmt) (rnd : Nat) (neg : Bool) (m : Nat) (e : Int) : Nat :=
  let q : Int := max ((Nat.log2 m : Int) + e - f.mbits) (1 - (f.bias : Int) - f.mbits)
  let v := if q ≤ e then m * 2 ^ (e - q).toNat else roundShift rnd neg m (q - e).toNat
  -- v may have carried to 2^(mbits+1); the packed form then carries into the exponent
  (q + f.bias + f.mbits - 1).toNat * 2 ^ f.mbits + v

/-- A value in a format under a rounding mode (Table 8-8). -/
def Fmt.encode (f : Fmt) (rnd : Nat) (v : Fv) : Nat :=
  let sign (neg : Bool) : Nat := b2n neg * 2 ^ (f.ebits + f.mbits)
  match v with
  | .nan => f.nanBits
  | .inf neg => sign neg + (if f.ieee then f.infMag else f.maxMag)
  | .fin neg m e =>
    if m = 0 then sign neg
    else
      let mag := f.roundMag rnd neg m e
      if mag ≤ f.maxMag then sign neg + mag
      else
        let toInf := f.ieee && (rnd == 0 || (rnd == 2 && neg) || (rnd == 3 && !neg))
        sign neg + (if toInf then f.infMag else f.maxMag)

/-- A finite value as a multiple of 2^q, for q at or below its exponent. -/
def scaled (neg : Bool) (m : Nat) (e q : Int) : Int :=
  let x : Int := (m * 2 ^ (e - q).toNat : Nat)
  if neg then -x else x

/-- The exact sum; a zero sum of unlike signs is −0 only toward −∞ (IEEE 754). -/
def Fv.add (rnd : Nat) (a b : Fv) : Fv :=
  match a, b with
  | .nan, _ => .nan
  | _, .nan => .nan
  | .inf x, .inf y => if x = y then .inf x else .nan
  | .inf x, _ => .inf x
  | _, .inf y => .inf y
  | .fin n m e, .fin n' m' e' =>
    let q := min e e'
    let x := scaled n m e q + scaled n' m' e' q
    if x = 0 then .fin (if n = n' then n else rnd == 2) 0 0
    else .fin (decide (x < 0)) x.natAbs q

/-- The negation. -/
def Fv.neg : Fv → Fv
  | .nan => .nan
  | .inf n => .inf !n
  | .fin n m e => .fin (!n) m e

/-- The exact product. -/
def Fv.mul (a b : Fv) : Fv :=
  match a, b with
  | .nan, _ => .nan
  | _, .nan => .nan
  | .inf x, .inf y => .inf (x != y)
  | .inf x, .fin n m _ => if m = 0 then .nan else .inf (x != n)
  | .fin n m _, .inf y => if m = 0 then .nan else .inf (n != y)
  | .fin n m e, .fin n' m' e' => .fin (n != n') (m * m') (e + e')

/-- `a` is below `b`; false for a NaN. -/
def Fv.lt (a b : Fv) : Bool :=
  match a, b with
  | .nan, _ => false
  | _, .nan => false
  | .inf x, .inf y => x && !y
  | .inf x, .fin .. => x
  | .fin .., .inf y => !y
  | .fin n m e, .fin n' m' e' =>
    let q := min e e'
    decide (scaled n m e q < scaled n' m' e' q)

/-- `a` equals `b`; false for a NaN. -/
def Fv.eq (a b : Fv) : Bool :=
  match a, b with
  | .nan, _ => false
  | _, .nan => false
  | a, b => !Fv.lt a b && !Fv.lt b a

/-- A whole number. -/
def Fv.ofInt (i : Int) : Fv := .fin (decide (i < 0)) i.natAbs 0

/-- Round to a whole number; none for a NaN, and an infinity as a sign (Table 8-8). -/
def Fv.round (rnd : Nat) : Fv → Option (Sum Bool Int)
  | .nan => none
  | .inf n => some (.inl n)
  | .fin n m e =>
    let x := if 0 ≤ e then m * 2 ^ e.toNat else roundShift rnd n m (-e).toNat
    some (.inr (if n then -(x : Int) else x))

/-- Saturate to a range. -/
def clampInt (lo hi i : Int) : Int := max lo (min hi i)

/-- A float to an integer of `w` bits (Table 8-8): round, saturate, NaN → 0. -/
def Fv.toIntBits (rnd w : Nat) (signed : Bool) (v : Fv) : Nat :=
  let lo : Int := if signed then -((2 ^ (w - 1) : Nat) : Int) else 0
  let hi : Int := if signed then ((2 ^ (w - 1) : Nat) : Int) - 1 else ((2 ^ w : Nat) : Int) - 1
  match v.round rnd with
  | none => 0
  | some (.inl n) => wrapInt w (if n then lo else hi)
  | some (.inr i) => wrapInt w (clampInt lo hi i)

/-! ### Type codes (Table 8-6) -/

/-- Bytes of a type. -/
def tyBytes (t : Nat) : Nat :=
  match t with
  | 2 | 6 | 7 => 2
  | 3 | 8 => 4
  | _ => 1

/-- The format of a float type. -/
def tyFmt (t : Nat) : Fmt :=
  match t with
  | 4 => fmtE4m3
  | 5 => fmtE5m2
  | 6 => fmtBf16
  | 7 => fmtF16
  | _ => fmtF32

/-- The type is an integer type. -/
def tyInt (t : Nat) : Bool := decide (t ≤ 3)

/-- The integer value of a word of an integer type. -/
def tyIntVal (t x : Nat) : Int := if t = 1 then ((x % 256 : Nat) : Int) else signedOf (8 * tyBytes t) x

/-- The range of an integer type. -/
def tyRange (t : Nat) : Int × Int :=
  if t = 1 then (0, 255) else (-((2 ^ (8 * tyBytes t - 1) : Nat) : Int), ((2 ^ (8 * tyBytes t - 1) : Nat) : Int) - 1)

/-- Convert a word between types under a rounding mode (Table 8-8). -/
def convertTo (rnd from_ tt x : Nat) : Nat :=
  if tyInt from_ then
    let i := tyIntVal from_ x
    if tyInt tt then wrapInt (8 * tyBytes tt) (clampInt (tyRange tt).1 (tyRange tt).2 i)
    else (tyFmt tt).encode rnd (Fv.ofInt i)
  else
    let v := (tyFmt from_).decode x
    if tyInt tt then Fv.toIntBits rnd (8 * tyBytes tt) (tt != 1) v else (tyFmt tt).encode rnd v

/-! ### f32 arithmetic (R202, R223) -/

/-- An f32 word as a value. -/
def f32 (x : Nat) : Fv := fmtF32.decode x

/-- A value as f32, to nearest even. -/
def f32Of (v : Fv) : Nat := fmtF32.encode 0 v

/-- f32 addition. -/
def f32Add (a b : Nat) : Nat := f32Of (Fv.add 0 (f32 a) (f32 b))

/-- f32 subtraction. -/
def f32Sub (a b : Nat) : Nat := f32Of (Fv.add 0 (f32 a) (f32 b).neg)

/-- f32 multiplication. -/
def f32Mul (a b : Nat) : Nat := f32Of (Fv.mul (f32 a) (f32 b))

/-- f32 d + a · b with one rounding. -/
def f32Fma (d a b : Nat) : Nat := f32Of (Fv.add 0 (f32 d) (Fv.mul (f32 a) (f32 b)))

/-- The larger operand; a NaN gives NaN; of equal operands, which zero is the larger is free (log 34). -/
def f32Max (a b : Nat) : Nat :=
  match f32 a, f32 b with
  | .nan, _ => fmtF32.nanBits
  | _, .nan => fmtF32.nanBits
  | x, y => if Fv.lt x y then b else if Fv.lt y x then a else if Config.zeroPick a b then a else b

/-- The smaller operand. -/
def f32Min (a b : Nat) : Nat :=
  match f32 a, f32 b with
  | .nan, _ => fmtF32.nanBits
  | _, .nan => fmtF32.nanBits
  | x, y => if Fv.lt x y then a else if Fv.lt y x then b else if Config.zeroPick a b then a else b

/-! ### vexp, vrcp, vrsqrt (R224) -/

/-- A positive real, to 200 bits and more: M · 2^e. -/
structure Approx where
  m : Nat
  e : Int

/-- 1 / (m · 2^e). -/
def rcpApprox (m : Nat) (e : Int) : Approx := { m := 2 ^ 400 / m, e := -e - 400 }

/-- 1 / √(m · 2^e): the exponent is made even first. -/
def rsqrtApprox (m : Nat) (e : Int) : Approx :=
  let m := if e % 2 = 0 then m else 2 * m
  let e := if e % 2 = 0 then e else e - 1
  { m := Nat.sqrt (2 ^ 800 / m), e := -(e / 2) - 400 }

/-- The Taylor sum of e^x in 2^-400, from term `n`. -/
def expTaylor : Nat → Nat → Int → Int → Int
  | 0, _, _, _ => 0
  | k + 1, n, term, x => term + expTaylor k (n + 1) (term * x / (2 ^ 400 : Nat) / ((n : Int) + 1)) x

/-- Square `k` times in 2^-400. -/
def squares : Nat → Int → Int
  | 0, y => y
  | k + 1, y => squares k (y * y / (2 ^ 400 : Nat))

/-- e^(± m · 2^e) for |m · 2^e| at most 256. -/
def expApprox (neg : Bool) (m : Nat) (e : Int) : Approx :=
  let x := scaled neg m e (min e (-392)) * 2 ^ (min e (-392) + 392).toNat
  { m := (squares 8 (expTaylor 80 0 (2 ^ 400 : Nat) x)).toNat, e := -400 }

/-- The distance of an f32 word from a positive real is at most 2 ulp of that real. -/
def within2ulp (a : Approx) (w : Nat) : Bool :=
  match f32 w with
  | .fin n m e =>
    let ulp : Int := max ((Nat.log2 a.m : Int) + a.e - 23) (-149)
    let q := min (min e a.e) ulp
    decide ((scaled n m e q - scaled false a.m a.e q).natAbs ≤ 2 * (scaled false 1 ulp q).natAbs)
  | _ => false

/-- A free f32 within 2 ulp of a positive real: the nearest one moved by a free step, where that keeps the bound
(R224, log 35). `op` and `x` are the operation and its operand: the same input gives the same bits. -/
def freeNear (op x : Nat) (a : Approx) : Nat :=
  let near := f32Of (.fin false a.m a.e)
  let k := Config.ulpStep op x % 5
  let w := if 2 ≤ near + k then near + k - 2 else near
  if w < 0x7F800000 ∧ within2ulp a w then w else near

/-- e^a (R224). -/
def f32Exp (x : Nat) : Nat :=
  match f32 x with
  | .nan => fmtF32.nanBits
  | .inf n => if n then 0 else fmtF32.infMag
  | .fin n m e =>
    if !n && Fv.lt (.fin false 88722 0) (.fin false (m * 1000) e) then fmtF32.infMag
    else if Fv.lt (.fin false 256 0) (.fin false m e) then freeNear 0x11 x { m := 0, e := 0 }
    else freeNear 0x11 x (expApprox n m e)

/-- 1 / a (R224). -/
def f32Rcp (x : Nat) : Nat :=
  match f32 x with
  | .nan => fmtF32.nanBits
  | .inf n => b2n n * 2 ^ 31
  | .fin n m e =>
    b2n n * 2 ^ 31 + (if m = 0 then fmtF32.infMag else freeNear 0x12 x (rcpApprox m e))

/-- 1 / √a (R224); of −0 the manual states no result (log 35). -/
def f32Rsqrt (x : Nat) : Nat :=
  match f32 x with
  | .nan => fmtF32.nanBits
  | .inf n => if n then fmtF32.nanBits else 0
  | .fin n m e =>
    if m = 0 then (if n then Config.rsqrtNegZero.toNat else fmtF32.infMag)
    else if n then fmtF32.nanBits
    else freeNear 0x13 x (rsqrtApprox m e)

end Sys2Proof.Machine
end

