-- ==== Sys2Proof/Machine/Nest.lean ====
section
/-! DEFINITION. Nest-form instructions (chapter 8): decode, checks, the loop nest and its bodies. -/

namespace Sys2Proof.Machine

/-! ### Decode (R189 to R194, R198, R199, R205, R206) -/

/-- Some bit outside [hi:lo] fields that the layout defines is 1: `mask` has a 1 for every defined bit. -/
def undefinedBits (w mask : Nat) : Bool := w % 2 ^ 512 != w &&& mask

/-- Ones in [hi:lo]. -/
def ones (hi lo : Nat) : Nat := (2 ^ (hi + 1 - lo) - 1) * 2 ^ lo

/-- The defined bits of a compute instruction: Table 8-3 without [15] and [63], and the six level words. -/
def computeMask : Nat :=
  0xFFFFFFFFFFFFFFFFFFFFFFFFFFFFFFFFFFFFFFFFFFFFFFFFFFFFFFFFFFFFFFFFFFFFFFFFFFFFFFFFFFFFFFFFFFFFFFFFFFFFFFFFFFFFFFFF7FFFFFFFFFFF7FFF

/-- Levels in use. -/
def nestLev (w : Nat) : Nat := bits w 14 12

/-- Count of level `k`. -/
def nestCnt (w k : Nat) : Nat := bits w (128 + 64 * k + 15) (128 + 64 * k) + 1

/-- Stride of level `k` for operand `x` (0 A, 1 B, 2 D), in bytes (R195). -/
def nestStride (w k x : Nat) : Int :=
  signedOf 16 (bits w (128 + 64 * k + 16 * x + 31) (128 + 64 * k + 16 * x + 16)) * ((2 ^ bits w (39 + 4 * x) (36 + 4 * x) : Nat) : Int)

/-- Type, base slot and offset of operand `x`. -/
def nestType (w x : Nat) : Nat := bits w (27 + 4 * x) (24 + 4 * x)
def nestBase (w x : Nat) : Nat := bits w (51 + 4 * x) (48 + 4 * x)
def nestOff (w x : Nat) : Int := signedOf 20 (bits w (83 + 20 * x) (64 + 20 * x))

/-- The gathered level, if there is one. -/
def nestGather (w : Nat) : Option Nat := if bit w 11 then some (bits w 62 60) else none

/-- The type combinations of Table 8-7. -/
def typesOk (op ta tb td : Nat) : Bool :=
  match op with
  | 0x10 =>
    (decide (ta ≤ 1 ∧ tb ≤ 1) && td == 3)
    || (decide (4 ≤ ta ∧ ta ≤ 7 ∧ 4 ≤ tb ∧ tb ≤ 7) && tyBytes ta == tyBytes tb && (td == 8 || td == 6 || td == 7))
  | 0x20 => decide (ta ≤ 8 ∧ td ≤ 8)
  | _ => decide (td ≤ 8)

/-- The engines of an opcode (Table 8-2). -/
def nestEngineOk (op e : Nat) : Bool :=
  match op with
  | 0x00 | 0x01 | 0x02 | 0x03 | 0x04 => decide (e ≤ 2)
  | 0x10 => e == 0
  | 0x20 | 0x21 => e == 1 || e == 2
  | _ => false

/-- The decode fault of a compute instruction (R191, R192, R198, R199, R206). -/
def computeDecode (op w winSize : Nat) : Option Nat :=
  if undefinedBits w computeMask ∨ nestLev w = 0 ∨ nestLev w = 7 ∨
      (match nestGather w with
        | some g => decide (nestLev w ≤ g)
        | none => false) = true ∨ (op = 0x10 ∧ bits w 127 126 = 3) then some exField
  else if !typesOk op (nestType w 0) (nestType w 1) (nestType w 2) then some exType
  else if bit w 9 ∧ !bit w 10 ∧ winSize ≤ bits w 23 16 then some exSync
  else none

/-- Value word `j` of base (Table 8-4). -/
def baseWord (w j : Nat) : Nat := bits w (64 + 64 * j + 63) (64 + 64 * j)

/-- A value word that base may load: mode 0 to 2, no global flag with a mode, no bit outside the layout (R194). -/
def baseWordOk (v : Nat) : Bool :=
  bits v 62 61 != 3 && !(bits v 62 61 != 0 && bit v 63) && bits v 60 52 == 0

/-- The decode fault of a base (R194). -/
def baseDecode (w : Nat) : Option Nat :=
  let n := bits w 15 13
  if bits w 63 16 ≠ 0 ∨ n = 0 ∨ 16 < bits w 12 9 + n ∨ !(List.range n).all (fun j => baseWordOk (baseWord w j)) then
    some exField
  else none

/-- The decode fault of a signal (R205). -/
def signalDecode (w winSize : Nat) : Option Nat :=
  if undefinedBits w (ones 16 0 + ones 31 24 + ones 47 32 + ones 59 48) ∨ bits w 47 32 = 0 ∨ (bit w 11 ∧ !bit w 9) then
    some exField
  else if !bit w 9 ∧ winSize ≤ bits w 31 24 then some exSync
  else none

/-- The decode fault of a wait (R205). -/
def waitDecode (w winSize : Nat) : Option Nat :=
  if undefinedBits w (ones 9 0 + ones 63 24) then some exField
  else if !bit w 9 ∧ winSize ≤ bits w 31 24 then some exSync
  else none

/-- The decode fault of an instruction word on engine `e` (R189, R190, R210). -/
def nestDecode (e w winSize : Nat) : Option Nat :=
  let op := w % 256
  if !nestEngineOk op e then some exOpcode
  else match op with
    | 0x00 | 0x01 => if undefinedBits w (ones 8 0) then some exField else none
    | 0x02 => baseDecode w
    | 0x03 => signalDecode w winSize
    | 0x04 => waitDecode w winSize
    | _ => computeDecode op w winSize

/-- The index that SYNC_RANGE reports. -/
def nestSyncIndex (w : Nat) : Nat := if w % 256 ≤ 4 then bits w 31 24 else bits w 23 16

/-! ### Addresses and regions (R195 to R197) -/

/-- A remote address word: the chip, for a global word of another chip. -/
def State.remoteChip (s : State) (word : Nat) : Option Nat :=
  if bit word 63 ∧ bits word 51 40 ≠ s.chipNo then some (bits word 51 40) else none

/-- An interval [lo, hi) of local offsets lies in one region that a source of engine `e` may use (Table 8-5). -/
def State.localRegionOk (s : State) (lo hi : Nat) : Bool :=
  (decide (hoardBase ≤ lo ∧ hi ≤ hoardBase + s.cfg.hoardBytes))
  || (decide (burrowBase ≤ lo) && decide (lo / burrowBase = (hi - 1) / burrowBase)
      && decide ((hi - 1) % burrowBase < s.burrowBytes (lo / burrowBase - 1)))
  || (decide (scratchBase ≤ lo) && decide ((lo - scratchBase) / 0x100000 < s.cfg.cores)
      && decide (hi ≤ coreScratch ((lo - scratchBase) / 0x100000) + s.cfg.scratchKib * 1024))

/-- An interval lies in the core's own scratch. -/
def State.ownScratch (s : State) (c lo hi : Nat) : Bool :=
  decide (coreScratch c ≤ lo ∧ hi ≤ coreScratch c + s.cfg.scratchKib * 1024)

/-- An interval lies in the scratch, Hoard or Burrow region of the fixed map (Table 8-5, log 38). -/
def fixedRegionOk (lo hi : Nat) : Bool :=
  decide (scratchBase ≤ lo ∧ hi ≤ scratchBase + 32 * 0x100000)
  || decide (hoardBase ≤ lo ∧ hi ≤ hoardBase + 96 * 2 ^ 20)
  || (decide (burrowBase ≤ lo ∧ hi ≤ 9 * burrowBase) && decide (lo / burrowBase = (hi - 1) / burrowBase))

/-- The region check of Table 8-5 for an operand whose address word is `word`. -/
def State.regionOk (s : State) (c e : Nat) (dest : Bool) (word : Nat) (lo hi : Int) : Bool :=
  decide (0 ≤ lo) && decide (hi.toNat ≤ 2 ^ 40) &&
  (let own := e == 0 || (e == 1 && dest) || (e == 2 && !dest)
   match s.remoteChip word with
   | some _ => !own && s.cfg.quillPorts != 0 && fixedRegionOk lo.toNat hi.toNat
   | none => if own then s.ownScratch c lo.toNat hi.toNat else s.localRegionOk lo.toNat hi.toNat)

/-- The least and greatest sums of strides × (n − 1) over levels given as (stride, n). -/
def extremes : List (Int × Nat) → Int × Int
  | [] => (0, 0)
  | (st, n) :: t =>
    let r := extremes t
    let x := st * ((n : Int) - 1)
    if x < 0 then (r.1 + x, r.2) else (r.1, r.2 + x)

/-- The check of R196 and R197 for one operand: address word, offset, levels, bytes per access, alignment. -/
def State.checkOperand (s : State) (c e : Nat) (dest : Bool) (word : Nat) (off : Int) (lv : List (Int × Nat))
    (bytes align : Nat) : Option Nat :=
  let a : Int := ((word % 2 ^ 40 : Nat) : Int) + off
  let x := extremes lv
  if !s.regionOk c e dest word (a + x.1) (a + x.2 + bytes) then some exAddr
  else if a % align ≠ 0 ∨ lv.any (fun l => decide (1 < l.2 ∧ l.1 % align ≠ 0)) then some exAlign
  else none

/-! ### The working state of an instruction -/

/-- What an instruction has done so far: the state, the address word that a gathered A uses, the first exception, an
uncorrectable word met, remote writes (chip, address, bytes; newest first) and remote data still wanted. -/
structure NestRun where
  s : State
  baseA : Nat
  exc : Option Nat
  ecc : Option Nat
  writes : List (Nat × Nat × List Byte)
  need : List (Nat × Nat × Nat)
  fetched : List (Nat × Nat × List Byte)
  iters : Nat
  /-- The core and engine; the list words read before this run, still to be used in order, and all list words so far. -/
  core : Nat
  eng : Nat
  replay : List Nat
  listed : List Nat
  /-- Elements or tiles that an abandoned instruction still completes; none for one that is not abandoned (R211). -/
  budget : Option Nat
  halt : Bool
  /-- Tiles finished, which the two accumulator tiles take in turn (R201, R212, log 95). -/
  tiles : Nat

/-- The instruction goes on. -/
def NestRun.ok (x : NestRun) : Bool := x.exc.isNone && x.ecc.isNone && !x.halt

/-- An element or tile begins: an abandoned instruction that has completed its last stops here. -/
def NestRun.begin (x : NestRun) : NestRun :=
  match x.budget with
  | none => x
  | some 0 => { x with halt := true }
  | some (n + 1) => { x with budget := some n }

/-- Remote bytes that have arrived. -/
def findFetched (chip a n : Nat) : List (Nat × Nat × List Byte) → Option (List Byte)
  | [] => none
  | (h, b, l) :: t =>
    if h = chip ∧ b ≤ a ∧ a + n ≤ b + l.length then some ((l.drop (a - b)).take n) else findFetched chip a n t

/-- A local access is answered with an error: the scratch of a held core (R49), or a target in reset (R332). -/
def State.accessError (s : State) (a : Nat) : Bool :=
  match s.region a with
  | .scratch c => s.heldIsl.contains c || (s.fab.trst.get? (0x02 + c)).isSome
  | .hoard => (s.fab.trst.get? (0x22 + (a - hoardBase) / 64 % 64)).isSome
  | .burrow p => (s.fab.trst.get? (0x62 + p)).isSome
  | _ => false

/-- Read `n` bytes through an address word at an offset: an uncorrectable word of the own scratch faults the job (R185); one
elsewhere is counted where it lies and answered with an error (R326, R338). -/
def NestRun.read (x : NestRun) (word : Nat) (a : Int) (n : Nat) : Nat × NestRun :=
  let a := a.toNat
  match x.s.remoteChip word with
  | none =>
    if x.s.accessError a then (0, { x with exc := some exFabric })
    else if x.s.badIn a n then
      (0, if x.s.ownScratch x.core a (a + n) then { x with ecc := some a }
          else { x with s := x.s.eccBad (x.s.firstBad a n) 1, exc := some exFabric })
    else (x.s.readLe a n, { x with s := x.s.eccRead x.core x.eng a n })
  | some h => match findFetched h a n x.fetched with
    | some l => (leVal l, x)
    | none => (0, { x with need := (h, a, n) :: x.need, halt := x.budget.isSome })

/-- Read a word of the gather list: each is read once, also by an instruction that waits for remote data (R204, R209). -/
def NestRun.readList (x : NestRun) (word : Nat) (a : Int) : Nat × NestRun :=
  match x.replay with
  | v :: t => (v, { x with replay := t, listed := x.listed ++ [v] })
  | [] =>
    let r := x.read word a 8
    (r.1, if r.2.ok && r.2.need.length == x.need.length then { r.2 with listed := r.2.listed ++ [r.1] } else r.2)

/-- Write `n` bytes through an address word. -/
def NestRun.write (x : NestRun) (word : Nat) (a : Int) (n v : Nat) : NestRun :=
  let a := a.toNat
  match x.s.remoteChip word with
  | none =>
    if x.s.accessError a then { x with exc := some exFabric }
    else if x.s.badMerge a n then
      (if x.s.ownScratch x.core a (a + n) then { x with ecc := some a }
       else { x with s := x.s.eccBad (x.s.firstBad a n) 2, exc := some exFabric })
    else { x with s := (x.s.eccWrite x.core x.eng a n).writeLe a n v }
  | some h => { x with writes := (h, a, leBytes n v) :: x.writes }

/-- Iterations `i` to `i + n - 1`, until something stops the instruction. -/
def iterate (f : Nat → NestRun → NestRun) : Nat → Nat → NestRun → NestRun
  | 0, _, x => x
  | n + 1, i, x => if x.ok then iterate f n (i + 1) (f i x) else x

/-! ### The loop nest (R200, R204) -/

/-- One level of the nest: its number, count, strides and whether it is gathered. -/
structure Lev where
  cnt : Nat
  sa : Int
  sb : Int
  sd : Int
  gathered : Bool

/-- The levels in use, outermost first, from level `lo`. -/
def nestLevels (w lo : Nat) : List Lev :=
  ((List.range (nestLev w)).filter (fun k => decide (lo ≤ k))).reverse.map (fun k =>
    { cnt := nestCnt w k, sa := nestStride w k 0, sb := nestStride w k 1, sd := nestStride w k 2,
      gathered := nestGather w == some k })

/-- How an instruction checks operand A once its address word is known: word, offset so far, the levels within. -/
abbrev CheckA := State → Nat → Int → List Lev → Option Nat

/-- The gather list is checked before it is read (R204): `n` words from index `i` of the list at bs14. -/
def State.checkList (s : State) (c e word : Nat) (i n : Nat) : Option Nat :=
  if n = 0 then none else s.checkOperand c e false word ((8 * i : Nat) : Int) [(8, n)] 8 8

/-- The gathered level (R204): m iterations, each under its own address word. -/
def gatherLevel (c e list : Nat) (checkA : CheckA) (lv : Lev) (rest : List Lev) (oa ob od : Int)
    (inner : Int → Int → Int → NestRun → NestRun) (x : NestRun) : NestRun :=
  match x.s.checkList c e list 0 1 with
  | some q => { x with exc := some q }
  | none =>
    let base : Int := ((list % 2 ^ 40 : Nat) : Int)
    let r := x.readList list base
    if !r.2.ok || !r.2.need.isEmpty then r.2
    else
      let m := r.1 % 65536
      match r.2.s.checkList c e list 1 m with
      | some q => { r.2 with exc := some q }
      | none =>
        if lv.cnt < m then { r.2 with exc := some exGather }
        else
          iterate (fun j x =>
            let a := x.readList list (base + ((8 * (j + 1) : Nat) : Int))
            if !a.2.ok || !a.2.need.isEmpty then a.2
            else match checkA a.2.s a.1 oa rest with
              | some q => { a.2 with exc := some q }
              | none => inner oa (ob + lv.sb * (j : Int)) (od + lv.sd * (j : Int)) { a.2 with baseA := a.1 }) m 0 r.2

/-- The procedure of R200: `body` at every index, outermost level first; the offsets so far are carried along. -/
def runNest (c e list : Nat) (checkA : CheckA) (body : Int → Int → Int → NestRun → NestRun) :
    List Lev → Int → Int → Int → NestRun → NestRun
  | [], oa, ob, od, x => body oa ob od x
  | lv :: rest, oa, ob, od, x =>
    let inner := runNest c e list checkA body rest
    if lv.gathered then gatherLevel c e list checkA lv rest oa ob od inner x
    else iterate (fun i x => inner (oa + lv.sa * (i : Int)) (ob + lv.sb * (i : Int)) (od + lv.sd * (i : Int)) x) lv.cnt 0 x

/-! ### Bodies -/

/-- A base slot. -/
def State.slot (s : State) (c e k : Nat) : Nat := (s.eng c e).sreg.get k 0

/-- The address at an operand's slot and offset: its local part as a number. -/
def slotAddr (word : Nat) (off : Int) : Int := ((word % 2 ^ 40 : Nat) : Int) + off

/-- The body of copy (R200). -/
def copyBody (w dw : Nat) (oa _ob od : Int) (x : NestRun) : NestRun :=
  let ta := nestType w 0
  let td := nestType w 2
  let x := x.begin
  let r := if x.ok then x.read x.baseA (slotAddr x.baseA (nestOff w 0) + oa) (tyBytes ta) else (0, x)
  if !r.2.ok then r.2
  else
    { r.2.write dw (slotAddr dw (nestOff w 2) + od) (tyBytes td) (convertTo (bits w 125 124) ta td r.1) with
      iters := r.2.iters + 1 }

/-- The body of fill (R200). -/
def fillBody (w dw v : Nat) (_oa _ob od : Int) (x : NestRun) : NestRun :=
  let td := nestType w 2
  let x := x.begin
  if !x.ok then x
  else { x.write dw (slotAddr dw (nestOff w 2) + od) (tyBytes td) (v % 2 ^ (8 * tyBytes td)) with iters := x.iters + 1 }

/-- `n` consecutive elements. -/
def readVec (word : Nat) (a : Int) (bytes : Nat) : Nat → NestRun → List Nat × NestRun
  | 0, x => ([], x)
  | n + 1, x =>
    let r := x.read word a bytes
    let t := readVec word (a + bytes) bytes n r.2
    (r.1 :: t.1, t.2)

/-- One product added to an accumulator: int32 wrapping, or binary32 to nearest even (R202). -/
def macStep (ta tb acc a b : Nat) : Nat :=
  if tyInt ta then wrapInt 32 (signedOf 32 acc + tyIntVal ta a * tyIntVal tb b)
  else f32Of (Fv.add 0 (f32 acc) (Fv.mul ((tyFmt ta).decode a) ((tyFmt tb).decode b)))

/-- One iteration of level 0 of mma on the accumulator tile. -/
def macTile (ta tb : Nat) (acc : List (List Nat)) (a b : List Nat) : List (List Nat) :=
  (acc.zip a).map (fun r => (r.1.zip b).map (fun q => macStep ta tb q.1 r.2 q.2))

/-- One element of the epilogue: store, add or relu, converted under rnd (R201, R202). -/
def epilogue (epi rnd td acc old : Nat) : Nat :=
  if td = 3 then
    (match epi with
      | 1 => wrapInt 32 (signedOf 32 acc + signedOf 32 old)
      | 2 => if signedOf 32 acc < 0 then 0 else acc
      | _ => acc)
  else
    (match epi with
      | 1 => (tyFmt td).encode rnd (Fv.add rnd (f32 acc) ((tyFmt td).decode old))
      | 2 => convertTo rnd 8 td (if Fv.lt (f32 acc) (.fin false 0 0) then 0 else acc)
      | _ => convertTo rnd 8 td acc)

/-- Write one row of a finished tile. -/
def epiRow (epi rnd td word : Nat) (a : Int) : List Nat → NestRun → NestRun
  | [], x => x
  | v :: t, x =>
    if !x.ok then x
    else
      let n := tyBytes td
      let r := if epi = 1 then x.read word a n else (0, x)
      if !r.2.ok then r.2 else epiRow epi rnd td word (a + n) t (r.2.write word a n (epilogue epi rnd td v r.1))

/-- Write a finished tile: row r at the row pitch (R201). -/
def epiTile (epi rnd td word : Nat) (pitch : Int) : Int → List (List Nat) → NestRun → NestRun
  | _, [], x => x
  | a, r :: t, x => epiTile epi rnd td word pitch (a + pitch) t (epiRow epi rnd td word a r x)

/-- The accumulators of a tile in progress, carried through the reduction of level 0. -/
structure TileRun where
  acc : List (List Nat)
  x : NestRun

/-- One reduction step at offsets `oa`, `ob`. -/
def reduceStep (w dim bw : Nat) (oa ob : Int) (t : TileRun) : TileRun :=
  let ta := nestType w 0
  let tb := nestType w 1
  let a := readVec t.x.baseA (slotAddr t.x.baseA (nestOff w 0) + oa) (tyBytes ta) dim t.x
  let b := readVec bw (slotAddr bw (nestOff w 1) + ob) (tyBytes tb) dim a.2
  { acc := if b.2.ok then macTile ta tb t.acc a.1 b.1 else t.acc, x := { b.2 with iters := b.2.iters + 1 } }

/-- The reduction over `n` iterations of level 0 (R201). -/
def reduceLoop (w dim bw : Nat) (sa sb : Int) : Nat → Int → Int → TileRun → TileRun
  | 0, _, _, t => t
  | n + 1, oa, ob, t =>
    if t.x.ok then reduceLoop w dim bw sa sb n (oa + sa) (ob + sb) (reduceStep w dim bw oa ob t) else t

/-- The reduction of a gathered level 0: each iteration under its own address word (R204). -/
def reduceGather (c e w dim bw list : Nat) (checkA : CheckA) (sb : Int) (oa : Int) : Nat → Nat → Int → TileRun → TileRun
  | 0, _, _, t => t
  | n + 1, j, ob, t =>
    if !t.x.ok then t
    else
      let a := t.x.readList list (((list % 2 ^ 40 : Nat) : Int) + ((8 * (j + 1) : Nat) : Int))
      if !a.2.ok then { t with x := a.2 }
      else match checkA a.2.s a.1 oa [] with
        | some q => { t with x := { a.2 with exc := some q } }
        | none =>
          reduceGather c e w dim bw list checkA sb oa n (j + 1) (ob + sb)
            (reduceStep w dim bw oa ob { t with x := { a.2 with baseA := a.1 } })

/-- The reduction of one tile when level 0 is gathered: the list's count is read, the list checked, then its words used
(R204). -/
def gatherTile (c e w dim bw list : Nat) (checkA : CheckA) (oa ob : Int) (t0 : TileRun) : TileRun :=
  match t0.x.s.checkList c e list 0 1 with
  | some q => { t0 with x := { t0.x with exc := some q } }
  | none =>
    let r := t0.x.readList list ((list % 2 ^ 40 : Nat) : Int)
    if !r.2.ok then { t0 with x := r.2 }
    else match r.2.s.checkList c e list 1 (r.1 % 65536) with
      | some q => { t0 with x := { r.2 with exc := some q } }
      | none =>
        if nestCnt w 0 < r.1 % 65536 then { t0 with x := { r.2 with exc := some exGather } }
        else reduceGather c e w dim bw list checkA (nestStride w 0 1) oa (r.1 % 65536) 0 ob { t0 with x := r.2 }

/-- The reduction of one tile of mma, from accumulators of zero (R201, R204). -/
def reduceTile (c e w dim bw list : Nat) (checkA : CheckA) (oa ob : Int) (x : NestRun) : TileRun :=
  let t0 : TileRun := { acc := List.replicate dim (List.replicate dim 0), x := x }
  if nestGather w = some 0 then gatherTile c e w dim bw list checkA oa ob t0
  else reduceLoop w dim bw (nestStride w 0 0) (nestStride w 0 1) (nestCnt w 0) oa ob t0

/-- The accumulator tile that has just been formed stays in the engine (R212). -/
def NestRun.keepAcc (x : NestRun) (acc : List (List Nat)) : NestRun :=
  let k := x.s.core x.core
  let g := x.s.eng x.core x.eng
  { x with s := x.s.setCore x.core { k with eng := k.eng.set x.eng { g with acc := g.acc.set (x.tiles % 2) acc } },
           tiles := x.tiles + 1 }

/-- One tile of mma: reduction, then epilogue (R201, R204); an abandoned mma forms no tile after its last (R211). -/
def tileBody (c e w dim bw dw list : Nat) (checkA : CheckA) (oa ob od : Int) (x : NestRun) : NestRun :=
  let x := x.begin
  if !x.ok then x
  else
    let t := reduceTile c e w dim bw list checkA oa ob x
    if t.x.ok then
      epiTile (bits w 127 126) (bits w 125 124) (nestType w 2) dw (nestStride w 0 2) (slotAddr dw (nestOff w 2) + od) t.acc
        (t.x.keepAcc t.acc)
    else t.x

/-! ### Checks of whole operands (R196, R197) -/

/-- Levels of one operand as (stride, count). -/
def levPairs (f : Lev → Int) (l : List Lev) : List (Int × Nat) := l.map (fun v => (f v, v.cnt))

/-- The side of the MAC array. -/
def State.dim (s : State) : Nat := s.cfg.macDim

/-- Alignment of the A and B vectors of mma (R197). -/
def vecAlign (dim bytes : Nat) : Nat := if dim * bytes = 16 then 16 else 32

/-- Level 0 of operand A of an mma that is gathered above level 0: the nest of R201 runs it within every tile. -/
def reduceLevel (w : Nat) : List (Int × Nat) :=
  match nestGather w with
  | some (_ + 1) => [(nestStride w 0 0, nestCnt w 0)]
  | _ => []

/-- The check of operand A under address word `word`, given offset `oa` so far and the levels within (R195 to R197). -/
def checkAOf (c e w : Nat) : CheckA := fun s word oa inner =>
  let n := tyBytes (nestType w 0)
  let lv := levPairs (·.sa) inner
  if w % 256 = 0x10 then
    let lv := reduceLevel w ++ lv
    s.checkOperand c e false word (nestOff w 0 + oa) lv (s.dim * n) (vecAlign s.dim n)
  else s.checkOperand c e false word (nestOff w 0 + oa) lv n n

/-- The first failing check of a compute instruction, operands in the order A, B, D (R196); a gathered A is checked word
by word. -/
def State.checkCompute (s : State) (c e w : Nat) : Option Nat :=
  let op := w % 256
  let lv := nestLevels w 0
  let a := if op = 0x21 ∨ (nestGather w).isSome then none else checkAOf c e w s (s.slot c e (nestBase w 0)) 0 lv
  let b := if op ≠ 0x10 then none
    else
      let n := tyBytes (nestType w 1)
      s.checkOperand c e false (s.slot c e (nestBase w 1)) (nestOff w 1) (levPairs (·.sb) lv) (s.dim * n) (vecAlign s.dim n)
  let n := tyBytes (nestType w 2)
  let d := if op = 0x10 then
      s.checkOperand c e true (s.slot c e (nestBase w 2)) (nestOff w 2)
        ((nestStride w 0 2, s.dim) :: levPairs (·.sd) (nestLevels w 1)) (s.dim * n) n
    else s.checkOperand c e true (s.slot c e (nestBase w 2)) (nestOff w 2) (levPairs (·.sd) lv) n n
  match a with
  | some q => some q
  | none => match b with
    | some q => some q
    | none => d

/-- Run a compute instruction's procedure from state `s`; `budget` where the watchdog abandons it (R211). -/
def State.runCompute (s : State) (c e w : Nat) (budget : Option Nat := none) : NestRun :=
  let op := w % 256
  let list := s.slot c e 14
  let dw := s.slot c e (nestBase w 2)
  let bw := s.slot c e (nestBase w 1)
  let x : NestRun := { s := s, baseA := s.slot c e (nestBase w 0), exc := none, ecc := none, writes := [], need := [],
                       fetched := (s.eng c e).fetched, iters := 0, core := c, eng := e,
                       replay := (s.eng c e).listed, listed := [], budget := budget, halt := false, tiles := 0 }
  let chk := checkAOf c e w
  if op = 0x10 then runNest c e list chk (tileBody c e w s.dim bw dw list chk) (nestLevels w 1) 0 0 0 x
  else if op = 0x20 then runNest c e list chk (copyBody w dw) (nestLevels w 0) 0 0 0 x
  else runNest c e list (fun _ _ _ _ => none) (fillBody w dw bw) (nestLevels w 0) 0 0 0 x

/-! ### Remote traffic of an instruction (R381) -/

/-- Join writes that continue one another (chip, address, bytes), oldest first. -/
def joinWrites : List (Nat × Nat × List Byte) → List (Nat × Nat × List Byte)
  | [] => []
  | (h, a, l) :: t => match joinWrites t with
    | (h', a', l') :: t' => if h = h' ∧ a + l.length = a' ∧ l.length + l'.length ≤ 4096 then (h, a, l ++ l') :: t' else (h, a, l) :: (h', a', l') :: t'
    | [] => [(h, a, l)]

/-- Join reads that continue one another, up to a message's 4,096 bytes (Table 15-4). -/
def joinReads : List (Nat × Nat × Nat) → List (Nat × Nat × Nat)
  | [] => []
  | (h, a, n) :: t => match joinReads t with
    | (h', a', n') :: t' => if h = h' ∧ a + n = a' ∧ n + n' ≤ 4096 then (h, a, n + n') :: t' else (h, a, n) :: (h', a', n') :: t'
    | [] => [(h, a, n)]

/-- Issue a remote write of the engine; its number stays outstanding until WRITE_ACK. -/
def State.remoteWrite (s : State) (c e : Nat) (h a : Nat) (l : List Byte) : State :=
  let x := s.eng c e
  let q : RemoteReq := { kind := 0, chip := h, addr := a, len := l.length, bytes := l, mst := c, eng := e, id := x.nextW,
                         core := 0, ctr := 0, n := 0, tt := s.tt }
  { s.setEng c e { x with outW := x.outW ++ [x.nextW], nextW := x.nextW + 1 } with remote := s.remote ++ [q] }

/-- Ask for remote data of the instruction in progress. -/
def State.askRemote (s : State) (c e : Nat) (l : List (Nat × Nat × Nat)) : State :=
  foldS l (fun r s =>
    let x := s.eng c e
    let q : RemoteReq := { kind := 1, chip := r.1, addr := r.2.1, len := r.2.2, bytes := [], mst := c, eng := e, id := 0,
                           core := 0, ctr := 0, n := 0, tt := s.tt }
    { s.setEng c e { x with asked := x.asked ++ [r] } with remote := s.remote ++ [q] }) s

/-! ### Issue -/

/-- An instruction retires, with its post-signal (R206). -/
def State.nestRetire (s : State) (c e : Nat) (r : Running) (w : Nat) : State :=
  let compute := decide (0x10 ≤ w % 256)
  let s := if compute && bit w 9 then s.engSignal c e r.desc (bit w 10) (bits w 23 16) 1 none none else s
  s.retire c e (r.pc + 64) (bit w 8)

/-- Event 0x06 of an engine bank: iterations of level 0 for TE, 64-byte beats moved for LE and SE (Table 23-2). -/
def State.nestWork (s : State) (c e w iters : Nat) : State :=
  let n := if e = 0 then iters else (iters * tyBytes (nestType w 2) + 63) / 64
  s.pcCount (pcEngBank c e) 8 0x06 n

/-- Issue the remote writes of an instruction. -/
def State.remoteWrites (s : State) (c e : Nat) (x : NestRun) : State :=
  foldS (joinWrites x.writes.reverse) (fun q s => s.remoteWrite c e q.1 q.2.1 q.2.2) s

/-- A compute instruction: the check of R196, then the procedure; remote data it lacks is asked for first. One with remote
writes retires, and sends its post-signal, when they are acknowledged (R206, R210, log 96). -/
def State.nestCompute (s : State) (c e : Nat) (r : Running) (w : Nat) : State :=
  match s.checkCompute c e w with
  | some q => s.exception c e q
  | none =>
    if !(s.eng c e).asked.isEmpty then s
    else
      let x := s.runCompute c e w
      if !x.need.isEmpty then
        (s.setEng c e { s.eng c e with listed := x.listed }).askRemote c e (joinReads x.need.reverse)
      else
        let mark := (s.eng c e).nextW
        let s := x.s.remoteWrites c e x
        match x.exc, x.ecc with
        | some q, _ => s.exception c e q
        | none, some a => s.eccFault c e a
        | none, none =>
          let s := s.nestWork c e w x.iters
          if x.writes.isEmpty then s.nestRetire c e r w
          else
            let g := s.eng c e
            s.setEng c e { g with run := g.run.map (fun r => { r with sent := some (w, mark) }) }

/-- The remote writes of the instruction in progress are all acknowledged: it retires (R206). -/
def State.nestAcked (s : State) (c e : Nat) : State :=
  match (s.eng c e).run with
  | none => s
  | some r => match r.sent with
    | none => s
    | some (w, mark) => if (s.eng c e).outW.all (fun n => decide (n < mark)) then s.nestRetire c e r w else s

/-- The watchdog abandons the compute instruction at the pc: what it has completed of its elements or tiles stands (R211). -/
def State.nestAbandon (s : State) (c e done : Nat) : State :=
  match s.canIssue c e with
  | none => s
  | some r =>
    let w := s.fetchCode r 64
    if decide (2 < e) || decide (r.desc.codeLen < r.pc + 64) || s.badIn (r.desc.codeAddr + r.pc) 64 || decide (w % 256 < 0x10)
        || (nestDecode e w r.desc.winSize).isSome || (s.checkCompute c e w).isSome then s
    else
      let x := s.runCompute c e w (some done)
      if x.exc.isSome || x.ecc.isSome then s else x.s.remoteWrites c e x

/-- base (R194): n slots from `first`. -/
def State.nestBaseLoad (s : State) (c e : Nat) (r : Running) (w : Nat) : State :=
  let first := bits w 12 9
  let s := foldS (List.range (bits w 15 13)) (fun j s =>
    let v := baseWord w j
    let a := v % 2 ^ 40
    let word := match bits v 62 61 with
      | 1 => (coreScratch c + a) % 2 ^ 40
      | 2 => (r.desc.batchAddr + a) % 2 ^ 40
      | _ => if bit v 63 ∧ bits v 51 40 = s.chipNo then a else v
    let x := s.eng c e
    s.setEng c e { x with sreg := x.sreg.set (first + j) word }) s
  s.nestRetire c e r w

/-- signal (R205). -/
def State.nestSignal (s : State) (c e : Nat) (r : Running) (w : Nat) : State :=
  let core := if bit w 10 ∨ bit w 11 then some (bits w 16 12) else none
  let chip := if bit w 11 then some (bits w 59 48) else none
  (s.engSignal c e r.desc (bit w 9) (bits w 31 24) (bits w 47 32) core chip).nestRetire c e r w

/-- wait (R205): satisfied, or the engine waits. -/
def State.nestWait (s : State) (c e : Nat) (r : Running) (w : Nat) : State :=
  let ctr := r.desc.waitCounter (bit w 9) (bits w 31 24)
  if waitMet (s.sync c ctr) (bits w 63 32) then s.nestRetire c e r w
  else
    let s := s.noteIssue c e
    let x := s.eng c e
    s.setEng c e { x with run := x.run.map (fun q => { q with wait := some (ctr, bits w 63 32) }) }

/-- What an instruction does once it is fetched and decodes (Table 8-2). -/
def State.nestBody (s : State) (c e : Nat) (r : Running) (w : Nat) : State :=
  let s := s.noteIssue c e
  match w % 256 with
  | 0x00 | 0x01 => s.nestRetire c e r w
  | 0x02 => s.nestBaseLoad c e r w
  | 0x03 => s.nestSignal c e r w
  | 0x04 => s.nestWait c e r w
  | _ => s.nestCompute c e r w

/-- The engine issues the instruction at its pc (R189, R210): fetch, decode, then its body. -/
def State.nestStep (s : State) (c e : Nat) (r : Running) : State :=
  if r.desc.codeLen < r.pc + 64 then s.exception c e exCode
  else if s.badIn (r.desc.codeAddr + r.pc) 64 then s.fetchBad c e (r.desc.codeAddr + r.pc) 64
  else
    let w := s.fetchCode r 64
    let s := s.tagIssue c e (w % 256) false
    match nestDecode e w r.desc.winSize with
    | some q => s.exception c e q (nestSyncIndex w)
    | none => s.nestBody c e r w

/-- The opcodes that have a row of their own. -/
def nestOpcodes : List Nat := [0x00, 0x01, 0x02, 0x03, 0x04, 0x10, 0x20, 0x21]

/-- Engine `e` of core `c` issues the instruction at its pc if that has opcode `op`. An instruction without an opcode of
Table 8-2, or one whose bytes pass the end of the code, is met under nop (log 39). -/
def State.nestIssue (s : State) (op c e : Nat) : State :=
  if 2 < e then s
  else match s.canIssue c e with
    | none => s
    | some r =>
      let here := s.fetchCode r 1
      let short := decide (r.desc.codeLen < r.pc + 64)
      let meets := if op = 0 then short || here == 0 || !nestOpcodes.contains here else !short && here == op
      if meets then s.nestStep c e r else s

/-- NOP. -/
def execNop (c e : Nat) (s : State) : Host.Outcome State Fault Refusal := .next (s.nestIssue 0x00 c e)

/-- END. -/
def execEndInstr (c e : Nat) (s : State) : Host.Outcome State Fault Refusal := .next (s.nestIssue 0x01 c e)

/-- BASE. -/
def execBase (c e : Nat) (s : State) : Host.Outcome State Fault Refusal := .next (s.nestIssue 0x02 c e)

/-- SIGNAL. -/
def execSignal (c e : Nat) (s : State) : Host.Outcome State Fault Refusal := .next (s.nestIssue 0x03 c e)

/-- WAIT. -/
def execWait (c e : Nat) (s : State) : Host.Outcome State Fault Refusal := .next (s.nestIssue 0x04 c e)

/-- MMA. -/
def execMma (c e : Nat) (s : State) : Host.Outcome State Fault Refusal := .next (s.nestIssue 0x10 c e)

/-- COPY. -/
def execCopy (c e : Nat) (s : State) : Host.Outcome State Fault Refusal := .next (s.nestIssue 0x20 c e)

/-- FILL. -/
def execFill (c e : Nat) (s : State) : Host.Outcome State Fault Refusal := .next (s.nestIssue 0x21 c e)

end Sys2Proof.Machine
end

