-- ==== Sys2Proof/Machine/QuillBase.lean ====
section
/-! DEFINITION. What Quill framing and the Quill machine share: tables, defects, member health, maps and streams
(R350 to R359, R376 to R379). -/

namespace Sys2Proof.Machine

/-! ### Tables -/

def QRx.init : QRx :=
  { cnt := 0, mfi := 0, mfiBad := 0, skip := false, parity := none, rei := 0, raw := 0, aisOn := 0, aisOff := 0, rdiOn := 0,
    rdiOff := 0, sfN := 0, sfErr := 0, sfGood := 0, sdN := 0, sdErr := 0, oofTt := none, syncTt := none, trace := [],
    last := [], same := 0, ts := Tbl.empty, tsBad := false, t4 := 0, mf0 := none }

def QTx.init : QTx := { mfi := 0, mf := 0, parity := 0, ts1 := 2 ^ 64 - 1, ts2 := 2 ^ 64 - 1, frame := [] }

def QGroup.init : QGroup :=
  { members := Tbl.empty, txNext := 0, txMap := 0, change := none, ann := (0, 0), farOk := 0, rsIn := false, drop := 0,
    req := none, reqWait := none, after := 0, rxMap := 0, rxPend := none, rxAnn := none, rxNext := 0, rsOut := false,
    arr := Tbl.empty, up := false, ackIn := none, acked := 0, buf := [], ends := [], sent := 0, credit := 0, advTt := 0,
    msgs := [], e := 0, resend := false, part := [], inbox := [], downTt := none, directTt := none }

def QMember.init (port slot : Nat) : QMember :=
  { port := port, slot := slot, healthy := false, okTt := none, gcTt := none, ais := false, cnt := none, gfnOk := false,
    delay := 0, txq := [] }

def State.qrx (s : State) (p : Nat) : QRx := s.quill.rx.get p QRx.init
def State.qtx (s : State) (p : Nat) : QTx := s.quill.tx.get p QTx.init
def State.qg (s : State) (i : Nat) : QGroup := s.quill.groups.get i QGroup.init
def State.setQrx (s : State) (p : Nat) (x : QRx) : State := { s with quill := { s.quill with rx := s.quill.rx.set p x } }
def State.setQtx (s : State) (p : Nat) (x : QTx) : State := { s with quill := { s.quill with tx := s.quill.tx.set p x } }
def State.setQg (s : State) (i : Nat) (x : QGroup) : State :=
  { s with quill := { s.quill with groups := s.quill.groups.set i x } }

/-- Change member `k` of group `i`. -/
def State.modMember (s : State) (i k : Nat) (f : QMember → QMember) : State :=
  let g := s.qg i
  match g.members.get? k with
  | some m => s.setQg i { g with members := g.members.set k (f m) }
  | none => s

/-- The group and member whose slot `slot` of port `p` is (R355). -/
def State.memberAt (s : State) (p slot : Nat) : Option (Nat × Nat × QMember) :=
  (s.quill.groups.cells.flatMap (fun g => (g.2.members.cells.filter (fun m => m.2.port = p ∧ m.2.slot = slot)).map
    (fun m => (g.1, m.1, m.2)))).head?

/-- The machine's dimension, and whether the presence map holds a chip (R373, R374). -/
def State.qd (s : State) : Nat := s.get R.QM_ID_dim
def State.present? (s : State) (c : Nat) : Bool := decide (c < 4096) && bit (s.get R.QM_PRESENT_present [c / 32]) (c % 32)

/-- The port exists and frames. -/
def State.qpOn (s : State) (p : Nat) : Bool :=
  decide (p < s.cfg.quillPorts) && s.flag R.QP_CTL_en [p] && !s.heldIsl.contains (40 + p)

/-! ### Defects (R350 to R352) -/

def dfLos : Nat := 0
def dfOof : Nat := 1
def dfLof : Nat := 2
def dfTim : Nat := 3
def dfAis : Nat := 4
def dfRdi : Nat := 5
def dfSf : Nat := 6
def dfSd : Nat := 7

/-- The defects that show after masking (R351). -/
def maskDefects (raw : Nat) : Nat :=
  if bit raw dfLos then 0x01 else if bit raw dfLof then 0x04 else if bit raw dfAis then raw &&& 0x17 else raw &&& 0xFF

/-- Defects that fail the members received on a port (Table 14-6). -/
def failsMembers (vis : Nat) : Bool := vis &&& 0x5F != 0

/-- Defects that send RDI upstream (Table 14-6). -/
def sendsRdi (vis : Nat) : Bool := vis &&& 0x1D != 0

/-- The visible defects of a port. -/
def State.qpVis (s : State) (p : Nat) : Nat := maskDefects (s.qrx p).raw

/-- A group goes up or down (R359), with QM_DIM_STATUS. -/
def State.groupCheck (s : State) (i : Nat) : State :=
  let g := s.qg i
  let any := g.members.vals.any (·.healthy)
  let up := g.rxMap != 0 && any
  let direct := (List.range 12).all (fun k => (g.members.get? k).any (fun m => m.healthy && m.port == i))
  let s := s.setQg i { g with
    up := up
    downTt := if up then none else if g.downTt.isSome then g.downTt else some s.tt
    directTt := if direct then (if g.directTt.isSome then g.directTt else some s.tt) else none }
  let s := (s.put R.QM_DIM_STATUS_up [i] (b2n up)).put R.QM_DIM_STATUS_map [i] g.rxMap
  if g.up && !up then s.postLim E.QP_GROUP_DOWN (if g.rxMap = 0 then 1 else 2) (some i) [(.ix, i), (.en, if g.rxMap = 0 then 1 else 2)]
  else if !g.up && up then s.postLim E.QP_GROUP_UP 0 (some i) [(.ix, i), (.val, g.rxMap)]
  else s

def mfPort : Nat := 1
def mfPathAis : Nat := 2
def mfNoControl : Nat := 3
def mfGfn : Nat := 4
def mfDelay : Nat := 5

/-- A member fails with a cause, at once (R356). -/
def State.failMember (s : State) (i k cause : Nat) : State :=
  match (s.qg i).members.get? k with
  | none => s
  | some m =>
    let s := s.modMember i k (fun m => { m with healthy := false, okTt := none })
    if m.healthy then
      (s.postLim E.QP_MEMBER_FAILED cause (some m.port) [(.ix, i), (.num, m.slot), (.num, k), (.en, cause)]).groupCheck i
    else s

/-- A member meets every condition of R356. -/
def State.memberOk (s : State) (m : QMember) : Bool :=
  !failsMembers (s.qpVis m.port) && s.qpOn m.port && !m.ais && m.gcTt.any (fun t => decide (s.tt ≤ t + 96000)) && m.gfnOk
  && decide (m.delay ≤ s.get R.QP_GRP_CFG_dd_max * 1000)

/-- A member that now meets every condition starts its restore time. -/
def State.noteOk (s : State) (i k : Nat) : State :=
  match (s.qg i).members.get? k with
  | none => s
  | some m =>
    if s.memberOk m then (if m.okTt.isSome then s else s.modMember i k (fun m => { m with okTt := some s.tt })) else s

/-- Every member on port `p`, as (group, sq). -/
def State.membersOn (s : State) (p : Nat) : List (Nat × Nat) :=
  s.quill.groups.cells.flatMap (fun g => (g.2.members.cells.filter (fun m => m.2.port = p)).map (fun m => (g.1, m.1)))

/-- Give a port its defects before masking: history, masking, events and consequent actions. -/
def State.setDefects (s : State) (p raw : Nat) : State :=
  let x := s.qrx p
  let old := x.raw
  let oofNow := s.qpOn p && s.get R.QP_STATUS_fsm [p] != 3
  let losGone := bit old dfLos && !bit raw dfLos
  let lofGone := bit old dfLof && !bit raw dfLof
  let aisGone := bit old dfAis && !bit raw dfAis
  let fresh := if losGone then (if oofNow then 2 else 0) else if lofGone then raw &&& 0x01 else if aisGone then raw &&& 0x17 else raw
  let again := losGone || lofGone || aisGone
  let x := { x with raw := fresh, tsBad := x.tsBad || fresh != 0 }
  let x := if again then
      { x with aisOn := if aisGone && !losGone && !lofGone then x.aisOn else 0,
               aisOff := if aisGone && !losGone && !lofGone then x.aisOff else 0, rdiOn := 0, rdiOff := 0, sfN := 0, sfErr := 0, sfGood := 0, sdN := 0, sdErr := 0,
               oofTt := if losGone && oofNow then some s.tt else x.oofTt }
    else x
  let s := s.setQrx p x
  let s := s.put R.QP_DEFECT_HIST_defects [p] (s.get R.QP_DEFECT_HIST_defects [p] ||| raw)
  let v0 := maskDefects old
  let v1 := maskDefects fresh
  let s := (s.put R.QP_STATUS_defects [p] v1).put R.QP_STATUS_rdi_tx [p] (b2n (sendsRdi v1))
  let s := foldS ((List.range 8).filter (fun d => bit v0 d != bit v1 d)) (fun d s =>
    s.postLim E.QP_DEFECT (2 * d + b2n (bit v1 d)) (some p) [(.en, d + 1), (.en, if bit v1 d then 1 else 2)]) s
  let s := if bit v1 dfTim && !bit v0 dfTim then
      s.postLim E.QM_MISCABLE 0 (some p) [(.num, s.regWord R.QP_TRACE_EXP_LO [p]), (.num, s.regWord R.QP_TRACE_RX_LO [p] % 2 ^ 16),
        (.val, s.regWord R.QP_TRACE_EXP_HI [p]), (.val, s.regWord R.QP_TRACE_RX_HI [p])]
    else s
  let s := if s.get R.TB_CTL_ref2_port = p ∧ v1 &&& 0x17 ≠ 0 ∧ v0 &&& 0x17 = 0 then s.disqualify 2 refPort none
    else if s.get R.TB_CTL_ref2_port = p ∧ v1 &&& 0x17 = 0 ∧ v0 &&& 0x17 ≠ 0 then
      s.setRef 2 { s.ref 2 with clean := some s.up }
    else s
  if failsMembers v1 then foldS (s.membersOn p) (fun m s => s.failMember m.1 m.2 mfPort) s else s

/-- Declare or clear one defect. -/
def State.defect (s : State) (p d : Nat) (on : Bool) : State := s.setDefects p (setBits (s.qrx p).raw d d (b2n on))

/-! ### Maps (R357 to R359) -/

/-- `b − a` in group frames. -/
def gfnAhead (a b : Nat) : Nat := (b + 4096 - a % 4096) % 4096

/-- The map that a source wants (R357). -/
def QGroup.desired (g : QGroup) : Nat :=
  (g.members.cells.filter (fun m => bit g.farOk m.1 && m.2.healthy && !bit g.drop m.1)).foldl (fun a m => a + 2 ^ m.1) 0

/-- The okmap that this chip sends (R356). -/
def QGroup.okmap (g : QGroup) : Nat := (g.members.cells.filter (fun m => m.2.healthy)).foldl (fun a m => a + 2 ^ m.1) 0

/-- The direct members sq 12 to 23 or 0 to 23 of group `i` (R373, R387). -/
def addDirect (i from_ : Nat) (g : QGroup) : QGroup :=
  { g with members := (List.range (24 - from_)).foldl (fun t k => t.set (from_ + k) (QMember.init i (from_ + k))) g.members }

/-- Members of `mask` leave the group. -/
def QGroup.without (g : QGroup) (mask : Nat) : QGroup :=
  { g with members := g.members.filterRows (fun k _ => !bit mask k) }

/-- Configure the direct groups: port i below d with a fitted neighbour, framing and delivery on (R373, R375, R397). -/
def State.quillConfigure (s : State) : State :=
  foldS (List.range s.qd) (fun i s =>
    if s.flag R.QM_CTL_en && s.qpOn i && s.present? (s.chipNo ^^^ 2 ^ i) && (s.qg i).members.cells.isEmpty then
      s.setQg i { addDirect i 0 (s.qg i) with downTt := some s.tt }
    else s) s

/-! ### Streams (R376, R379) -/

/-- KiB free in the receive buffer of 64 KiB (Table 15-2). -/
def QGroup.freeKib (g : QGroup) : Nat := (65536 - (g.part.length + (g.inbox.map List.length).foldl (· + ·) 0)) / 1024

/-- Move waiting messages into the send buffer of 128 KiB. -/
def fillBuf : Nat → QGroup → QGroup
  | 0, g => g
  | n + 1, g => match g.msgs with
    | m :: t =>
      if g.buf.length + m.length ≤ 131072 then
        fillBuf n { g with buf := g.buf ++ m, ends := g.ends ++ [g.buf.length + m.length], msgs := t }
      else g
    | [] => g

/-- A message joins the stream of dimension `i`. -/
def State.streamPut (s : State) (i : Nat) (m : List Byte) : State :=
  let g := s.qg i
  let g := { g with msgs := g.msgs ++ [m], advTt := if g.buf.isEmpty then s.tt else g.advTt }
  s.setQg i (fillBuf 4096 g)

/-- The shares of group frame `n` in the deskew store. -/
def QGroup.shares (g : QGroup) (n : Nat) : Tbl (Nat × List Byte) :=
  match g.arr.get? (n % 256) with
  | some (k, t) => if k = n then t else Tbl.empty
  | none => Tbl.empty

/-- The earliest arrival among shares of members that `f` picks. -/
def earliest (t : Tbl (Nat × List Byte)) (f : Nat → Bool) : Option Nat :=
  ((t.cells.filter (fun c => f c.1)).map (·.2.1)).min?

/-- How many stream bytes a sender may have sent beyond the acknowledged offset (R379). -/
def QGroup.window (g : QGroup) : Nat := min 131072 (g.credit * 1024)

/-- The next stream bytes of a group frame with room for `n`: whole messages only as far as the window lets them end, so
that fill always begins at a message boundary (R376, log 60). -/
def QGroup.takeBytes (g : QGroup) (n : Nat) : Nat :=
  let last := (g.ends.filter (fun e => decide (e ≤ g.window))).foldl Nat.max 0
  min n (last - g.sent)

/-- Form the next group frame of a stream: its bytes (123 per member of the map in force), and the group after it. -/
def QGroup.form (g : QGroup) : List Byte × QGroup :=
  let g := match g.change with
    | some c => if c.eff = g.txNext then { g with txMap := c.d } else g
    | none => g
  let m := popCount 24 g.txMap
  let g := { g with txNext := (g.txNext + 1) % 4096, change := g.change.map (fun c => { c with age := c.age + 1 }) }
  if m = 0 then ([], g)
  else
    let n := g.takeBytes (123 * m - 4)
    let body := leBytes 4 ((g.acked + g.sent) % 2 ^ 32) ++ (g.buf.drop g.sent).take n
    (body ++ List.replicate (123 * m - body.length) 0#8, { g with sent := g.sent + n })

/-- Form a group frame and queue its shares on every member whose port frames; members outside the map get zeros
(R353, R359). -/
def State.formFrame (s : State) (i : Nat) : State :=
  let g := s.qg i
  let n := g.txNext
  let r := g.form
  let sqs := bitIndices 24 r.2.txMap
  let share := fun k => match sqs.findIdx? (· == k) with
    | some j => (r.1.drop (123 * j)).take 123
    | none => List.replicate 123 0#8
  let moved := (r.2.sent - g.sent) / 64
  let s := s.setQg i { r.2 with members := r.2.members.mapVals (fun k m =>
    if s.qpOn m.port then { m with txq := m.txq ++ [(n, share k)] } else m) }
  s.pcCount (pcQuillBank i) 8 0x03 moved

end Sys2Proof.Machine
end

