-- ==== Sys2Proof/Machine/QuillFrame.lean ====
section
/-! DEFINITION. Quill link framing (chapter 14): frames received and sent, members, maps, group frames. -/

namespace Sys2Proof.Machine

/-! ### Line codes (R344 to R346) -/

/-- `n` shifts of the CRC-8 register, polynomial x^8 + x^2 + x + 1. -/
def crc8Shift : Nat → Nat → Nat
  | 0, c => c
  | n + 1, c => crc8Shift n (if 128 ≤ c then (2 * c) % 256 ^^^ 0x07 else 2 * c)

/-- The CRC-8 of a list of bytes. -/
def crc8 (l : List Byte) : Nat := l.foldl (fun c b => crc8Shift 8 (c ^^^ b.toNat)) 0

/-- The bit-wise even parity of a list of bytes. -/
def parityOf (l : List Byte) : Nat := l.foldl (fun a b => a ^^^ b.toNat) 0

/-- The next `n` bits of the scrambler's sequence, first bit highest, and the register after them (R345). -/
def scramBits : Nat → Nat → Nat × Nat
  | 0, s => (0, s)
  | n + 1, s =>
    let k := (s / 2 ^ 30 + s / 2 ^ 27) % 2
    let r := scramBits n ((2 * s + k) % 2 ^ 31)
    (k * 2 ^ n + r.1, r.2)

/-- Scramble or descramble bytes from a register value. -/
def scramFrom : Nat → List Byte → List Byte
  | _, [] => []
  | s, b :: t =>
    let r := scramBits 8 s
    (b ^^^ BitVec.ofNat 8 r.1) :: scramFrom r.2 t

/-- A frame with its bytes from 6 onward scrambled, or descrambled. -/
def scramble (l : List Byte) : List Byte := l.take 6 ++ scramFrom 0x7FFFFFFF (l.drop 6)

/-- The frame alignment word. -/
def faw : List Byte := [0xB7#8, 0x1E#8, 0x48#8, 0xE1#8]

/-- `n` bytes of a frame from byte `a`, most significant first (R342). -/
def frameField (d : List Byte) (a n : Nat) : Nat := beVal ((d.drop a).take n)

/-- The slot map: each bit the majority of its three copies (R344). -/
def vmapOf (d : List Byte) : Nat :=
  let a := frameField d 17 3
  let b := frameField d 20 3
  let c := frameField d 23 3
  (a &&& b) ||| (a &&& c) ||| (b &&& c)

/-- Bytes `k` of slot `s`: frame bytes 48 + 24 i + s (R343). -/
def slotBytes (d : List Byte) (s : Nat) : List Byte := (List.range 123).map (fun i => (d[48 + 24 * i + s]?).getD 0#8)

/-! ### The frame search (R349) -/

def fsOff : Nat := 0
def fsHunt : Nat := 1
def fsPre : Nat := 2
def fsSync : Nat := 3

/-- The search takes one frame position whose FAW is good or errored. -/
def State.frameSearch (s : State) (p : Nat) (good : Bool) : State :=
  let x := s.qrx p
  let st := s.get R.QP_STATUS_fsm [p]
  if st = fsHunt then
    if good then (s.setQrx p { x with cnt := 1 }).put R.QP_STATUS_fsm [p] fsPre else s
  else if st = fsPre then
    if !good then s.put R.QP_STATUS_fsm [p] fsHunt
    else if x.cnt + 1 < 3 then s.setQrx p { x with cnt := x.cnt + 1 }
    else
      let x := { x with cnt := 0, mfiBad := 2, parity := none, oofTt := none, syncTt := some s.tt }
      ((s.setQrx p x).put R.QP_STATUS_fsm [p] fsSync).defect p dfOof false
  else if st = fsSync then
    if good then s.setQrx p { x with cnt := 0 }
    else
      let s := s.bump R.QP_ERR_faw_err [p]
      if x.cnt + 1 < 4 then s.setQrx p { x with cnt := x.cnt + 1 }
      else
        let x := { x with cnt := 0, rei := 0, oofTt := some s.tt, syncTt := none }
        ((s.setQrx p x).put R.QP_STATUS_fsm [p] fsHunt).defect p dfOof true
  else s

/-! ### Defects found frame by frame (Table 14-5) -/

/-- SIG and REM.rdi: AIS and RDI after 5 consecutive frames. -/
def State.sigDefects (s : State) (p sig rdi : Nat) : State :=
  let x := s.qrx p
  let x := { x with aisOn := if sig = 7 then x.aisOn + 1 else 0, aisOff := if sig = 7 then 0 else x.aisOff + 1,
                    rdiOn := if rdi = 1 then x.rdiOn + 1 else 0, rdiOff := if rdi = 1 then 0 else x.rdiOff + 1 }
  let s := s.setQrx p x
  let s := if x.aisOn = 5 ∧ !bit x.raw dfAis then s.defect p dfAis true
    else if x.aisOff = 5 ∧ bit x.raw dfAis then s.defect p dfAis false else s
  if x.rdiOn = 5 ∧ !bit (s.qrx p).raw dfRdi then s.defect p dfRdi true
  else if x.rdiOff = 5 ∧ bit (s.qrx p).raw dfRdi then s.defect p dfRdi false else s

/-- The bit-error windows of SF (1,000 frames) and SD (100,000 frames). -/
def State.errWindows (s : State) (p bad : Nat) : State :=
  let x := s.qrx p
  let sf := s.get R.QP_BER_sf_thr [p]
  let sd := s.get R.QP_BER_sd_thr [p]
  let x := { x with sfN := x.sfN + 1, sfErr := x.sfErr + bad, sdN := x.sdN + 1, sdErr := x.sdErr + bad }
  let sfEnd := decide (x.sfN = 1000)
  let sfGood := if !sfEnd then x.sfGood else if x.sfErr ≤ sf / 10 then x.sfGood + 1 else 0
  let sdEnd := decide (x.sdN = 100000)
  let s := s.setQrx p { x with sfGood := sfGood, sfN := if sfEnd then 0 else x.sfN, sfErr := if sfEnd then 0 else x.sfErr,
                               sdN := if sdEnd then 0 else x.sdN, sdErr := if sdEnd then 0 else x.sdErr }
  let s := if sfEnd ∧ sf < x.sfErr ∧ !bit x.raw dfSf then s.defect p dfSf true
    else if sfEnd ∧ 10 ≤ sfGood ∧ bit x.raw dfSf then s.defect p dfSf false else s
  if sdEnd ∧ sd < x.sdErr ∧ !bit x.raw dfSd then s.defect p dfSd true
  else if sdEnd ∧ x.sdErr ≤ sd / 10 ∧ bit x.raw dfSd then s.defect p dfSd false else s

/-- TIM by the accepted trace and the expected one (R350); a port that is off reports no defect (R369, log 73). -/
def State.timCheck (s : State) (p : Nat) : State :=
  let bad := s.qpOn p && s.flag R.QP_CTL_tim_en [p] && s.flag R.QP_TRACE_RX_LO_valid [p]
    && (s.regWord R.QP_TRACE_RX_LO [p] % 2 ^ 16 != s.regWord R.QP_TRACE_EXP_LO [p] % 2 ^ 16
      || s.regWord R.QP_TRACE_RX_HI [p] != s.regWord R.QP_TRACE_EXP_HI [p])
  if bad == bit (s.qrx p).raw dfTim then s else s.defect p dfTim bad

/-- The trace byte of a frame (R347): accepted when identical, with a valid CRC, in 3 consecutive multiframes. -/
def State.traceByte (s : State) (p mfi : Nat) (b : Byte) : State :=
  let x := s.qrx p
  let l := if mfi = 0 then [b] else b :: x.trace
  if mfi ≠ 63 ∨ l.length ≠ 64 then s.setQrx p { x with trace := l }
  else
    let t := l.reverse
    let ok := beVal (t.drop 60) == crc32 (t.take 60)
    let same := if !ok then 0 else if t = x.last then x.same + 1 else 1
    let s := s.setQrx p { x with trace := [], last := if ok then t else [], same := same }
    if same < 3 then s
    else
      let lo := beVal (t.take 2) % 4096 + (beVal ((t.drop 2).take 1) % 16) * 2 ^ 12 + 2 ^ 16
      let hi := beVal ((t.drop 4).take 4)
      let changed := s.regWord R.QP_TRACE_RX_LO [p] != lo || s.regWord R.QP_TRACE_RX_HI [p] != hi
      let s := (s.setRegWord R.QP_TRACE_RX_LO [p] lo).setRegWord R.QP_TRACE_RX_HI [p] hi
      let s := if changed then
          s.postLim E.QP_TRACE 0 (some p) [(.num, lo % 4096), (.num, lo / 4096 % 16), (.val, hi)] else s
      s.timCheck p

/-- The TS word of a frame (R348). The BIP of frame 3 covers frame 2; the exchange is formed at the end of the multiframe,
if no port defect was present during it. -/
def State.tsWord (s : State) (p mfi stamp word : Nat) (bipBad crcBad : Bool) : State :=
  let x := s.qrx p
  let ones := decide (word = 2 ^ 64 - 1)
  if mfi = 0 then
    s.setQrx p { x with ts := (Tbl.empty : Tbl Nat).set 0 word, tsBad := ones || crcBad || s.qpVis p != 0, t4 := stamp,
                        mf0 := some (stamp, word) }
  else if mfi < 3 then
    s.setQrx p { x with ts := x.ts.set mfi word, tsBad := x.tsBad || ones || crcBad || bipBad }
  else if mfi = 3 then s.setQrx p { x with tsBad := x.tsBad || bipBad }
  else if mfi = 63 then
    match x.ts.get? 0, x.ts.get? 1, x.ts.get? 2 with
    | some t3, some t2, some t1 =>
      let s := s.setQrx p { x with ts := Tbl.empty }
      if x.tsBad || x.skip || s.qpVis p != 0 then s else s.exchange p t1 t2 t3 x.t4
    | _, _, _ => s
  else s

/-! ### Group control words (R355 to R358) -/

/-- What the end of a map change brings: dropped members leave, requests advance, detours proceed (R357, R365, R387). -/
def State.startRequest (s : State) (i : Nat) (r : Nat × Bool) : State :=
  let g := s.qg i
  if r.2 then
    (if (g.members.get? r.1).isSome then s else s.setQg i { g with members := g.members.set r.1 (QMember.init i r.1) })
  else s.setQg i { g with drop := setBits g.drop r.1 r.1 1 }

/-- A member request has nothing more to wait for: the member is in the map, or is no longer configured (R357, R365). -/
def QGroup.reqDone (g : QGroup) (r : Nat × Bool) : Bool :=
  if r.2 then bit g.txMap r.1 && (g.members.get? r.1).isSome else (g.members.get? r.1).isNone

/-- The dimensions that a chip of a detour's path lends (R386). -/
def QDetour.lends (d : QDetour) : List Nat := if d.place = 0 ∨ d.place = 3 then [d.j] else [d.j, d.i]

/-- Set up the legs of a detour at this chip (R387). -/
def State.setLegs (s : State) (d : QDetour) : State :=
  let s := { s with quill := { s.quill with detours := s.quill.detours.map (fun x =>
    if x = d then { x with stage := 2 } else x) } }
  if d.place = 0 ∨ d.place = 3 then
    let g := (s.qg d.i).without 0xFFF000
    let g := { g with members := (List.range 12).foldl (fun t k => t.set (12 + k) (QMember.init d.j (12 + k))) g.members }
    let s := s.setQg d.i g
    let s := (s.put R.QM_DIM_STATUS_detoured [d.i] 1).put R.QM_DIM_STATUS_j [d.i] d.j
    s.postLim E.QM_DETOUR 1 (some d.i) [(.ix, d.i), (.num, d.j), (.en, 1)]
  else
    let mk := fun (port slot : Nat) => ({ port := port, slot := slot, store := [], next := 0, gc := none, ack := 0 } : QRelay)
    { s with quill := { s.quill with relays := (List.range 12).foldl (fun t k =>
      (t.set (24 * d.i + 12 + k) (mk d.j (12 + k))).set (24 * d.j + 12 + k) (mk d.i (12 + k))) s.quill.relays } }

/-- Detours whose lenders have all given up their members proceed. -/
def State.legsReady (s : State) : State :=
  foldS (s.quill.detours.filter (fun d => d.stage = 1)) (fun d s =>
    if d.lends.all (fun k => (s.qg k).drop &&& 0xFFF000 == 0 && (s.qg k).change.isNone) then s.setLegs d else s) s

/-- The source ends a map change. -/
def State.changeEnd (s : State) (i : Nat) : State :=
  let g := s.qg i
  let g1 := { (g.without g.drop) with change := none, drop := 0, after := 0 }
  let g1 := if g.after = 2 then addDirect i 12 g1 else g1
  let done := g1.req.all g1.reqDone
  let next := if done then g1.reqWait.filter (fun r => !g1.reqDone r) else none
  let s := s.setQg i (if done then { g1 with req := next, reqWait := none } else g1)
  let s := match next with
    | some r => s.startRequest i r
    | none => s
  (s.legsReady).groupCheck i

/-- MAP_APPLY: at group frame eff the sink applies the pending map and toggles rs_ack (Table 14-8). -/
def State.mapApply (s : State) (i : Nat) : State :=
  let g := s.qg i
  match g.rxPend with
  | some (d, eff) =>
    if g.rxNext = eff then
      let s := s.setQg i { g with rxMap := d, rxPend := none, rsOut := !g.rsOut }
      (s.postLim E.QP_MAP_CHANGED 0 (some i) [(.ix, i), (.val, g.rxMap), (.val, d), (.num, eff)]).groupCheck i
    else s
  | none => s

/-- An announcement (R358): pending if its eff lies up to 2,047 ahead; the later of two stands; one already released
applies to the next group frame and QP_MAP_LATE is posted. A map whose eff is reached is applied first (Table 14-13). The
word of a source that has announced nothing yet, map 0 to a sink with map 0, is no announcement (log 71). -/
def State.announce (s : State) (i p amap eff : Nat) : State :=
  let g0 := s.qg i
  if g0.rxAnn = some (amap, eff) ∨ (g0.rxAnn.isNone ∧ amap = 0 ∧ g0.rxMap = 0) then s
  else
    let s := s.mapApply i
    let g := s.qg i
    let ahead := gfnAhead g.rxNext eff
    if ahead < 2048 then
      let keep := g.rxPend.any (fun x => decide (ahead < gfnAhead g.rxNext x.2))
      if keep then s else s.setQg i { g with rxPend := some (amap, eff), rxAnn := some (amap, eff) }
    else
      (s.setQg i { g with rxPend := some (amap, g.rxNext), rxAnn := some (amap, eff) }).postLim E.QP_MAP_LATE 0 (some p)
        [(.ix, i), (.val, amap), (.num, eff)]

/-- An accepted GC word of member `k` of group `i` (Table 14-7). -/
def State.gcWord (s : State) (i k w : Nat) : State :=
  match (s.qg i).members.get? k with
  | none => s
  | some m =>
    if !bit w 2 then s
    else if bit w 1 then
      (s.modMember i k (fun m => { m with ais := true, gcTt := some s.tt })).failMember i k mfPathAis
    else
      let gfn := bits w 43 32
      let agree := m.cnt.all (· == gfn)
      let s := s.modMember i k (fun m => { m with ais := false, gcTt := some s.tt, cnt := some gfn, gfnOk := agree })
      let s := if agree then s.noteOk i k else s.failMember i k mfGfn
      let s := if m.healthy then
          s.setQg i { s.qg i with farOk := bits w 31 8 } else s
      let rs := bit w 0
      let g := s.qg i
      let s := s.setQg i { g with rsIn := rs }
      let s := match g.change with
        | some c => if rs != c.rs then s.changeEnd i else s
        | none => s
      s.announce i m.port (bits w 79 56) (bits w 55 44)

/-- A slot frame of member `k` arrives (R356, R359). -/
def State.shareIn (s : State) (i k : Nat) (l : List Byte) : State :=
  match (s.qg i).members.get? k with
  | none => s
  | some m => match m.cnt with
    | none => s
    | some n =>
      let g := s.qg i
      let s := s.modMember i k (fun m => { m with cnt := some ((n + 1) % 4096) })
      let g := { g with members := (s.qg i).members }
      let idle := g.rxMap == 0 && !(g.rxPend.any (fun x => decide (gfnAhead x.2 n < 2048)))
      let g := if idle then { g with rxNext := (n + 1) % 4096 }
        else if g.rxMap = 0 then { g with rxNext := (g.rxPend.map (·.2)).getD g.rxNext } else g
      if !idle && 2048 ≤ gfnAhead g.rxNext n then s.setQg i g
      else
        let x := (g.shares n).set k (s.tt, l)
        let delay := s.tt - (earliest x (fun q => (g.members.get? q).any (·.healthy))).getD s.tt
        let s := s.setQg i { g with arr := g.arr.set (n % 256) (n, x) }
        let s := s.modMember i k (fun m => { m with delay := delay })
        if s.get R.QP_GRP_CFG_dd_max * 1000 < delay then s.failMember i k mfDelay else s

/-- A relayed slot takes a slot frame and the words of its frame (R354). -/
def State.relayIn (s : State) (p slot : Nat) (gc : Option (Nat × Nat)) (l : Option (List Byte)) : State :=
  match s.quill.relays.get? (24 * p + slot) with
  | none => s
  | some r =>
    let stop := s.qpVis p &&& 0x1F != 0
    let r := match gc with
      | some (w, a) => { r with gc := some w, ack := a, next := if bit w 2 && !bit w 1 then bits w 43 32 else r.next }
      | none => r
    let r := match l with
      | some b => { r with next := (r.next + 1) % 4096,
                           store := if stop ∨ 4 ≤ r.store.length then r.store else r.store ++ [(r.next, b)] }
      | none => r
    let r := if stop then { r with store := [] } else r
    { s with quill := { s.quill with relays := s.quill.relays.set (24 * p + slot) r } }

/-- GC and ACK words and slot frames of a frame are taken. -/
def State.slotsIn (s : State) (p mfi : Nat) (d : List Byte) (crcOk : Bool) : State :=
  let gcSlot := mfi % 32
  let gc := if crcOk && decide (gcSlot < 24) && !(s.qrx p).skip then some (frameField d 26 10, frameField d 36 6) else none
  let vmap := vmapOf d
  let blocked := s.qpVis p &&& 0x1F != 0
  foldS (List.range 24) (fun sl s =>
    let l := if bit vmap sl then some (slotBytes d sl) else none
    let w := if sl = gcSlot then gc else none
    let s := s.relayIn p sl w l
    match s.memberAt p sl with
    | none => s
    | some (i, k, _) =>
      if blocked then s
      else
        let s := match w with
          | some (g, a) =>
            let s := s.gcWord i k g
            let kind := a / 2 ^ 44
            if kind = 0 ∨ bit g 1 ∨ !bit g 2 then s
            else s.setQg i { s.qg i with ackIn := some (kind, a / 2 ^ 12 % 2 ^ 32, a % 4096) }
          | none => s
        match l with
        | some b => s.shareIn i k b
        | none => s) s

/-- The MFI in force for a frame (R349): after 2 frames with an unexpected one, the received MFI is taken. -/
def State.mfiIn (s : State) (p got : Nat) : Nat × State :=
  let x := s.qrx p
  if x.parity.isNone then (got, s.setQrx p { x with mfi := (got + 1) % 64, mfiBad := 0, skip := false })
  else if got = x.mfi then
    (got, s.setQrx p { x with mfi := (got + 1) % 64, mfiBad := 0, skip := x.skip && got != 0 })
  else if x.mfiBad + 1 < 2 then
    (x.mfi, s.setQrx p { x with mfi := (x.mfi + 1) % 64, mfiBad := x.mfiBad + 1, skip := x.skip && x.mfi != 0 })
  else
    let s := s.setQrx p { x with mfi := (got + 1) % 64, mfiBad := 0, skip := true }
    (got, (s.bump R.QP_ERR_mfi_slip [p]).postLim E.QP_MFI_SLIP 0 (some p) [(.num, got)])

/-- A frame of REF2's port starts at TT `stamp`: an interval more than 0.5% from 1 µs is a glitch (R62), and a reference that
a stop or a move had left counts as clean from here (R63). -/
def State.ref2Frame (s : State) (stamp : Nat) : State :=
  let r := s.ref 2
  let glitch : Bool := match r.lastTick with
    | some t => decide (stamp < t + 995 ∨ t + 1005 < stamp)
    | none => false
  let clean := if s.ref2Defect then none else some (r.clean.getD s.up)
  let s := s.setRef 2 { r with lastTick := some stamp, clean := clean }
  if glitch then s.disqualify 2 refGlitch (if s.ref2Defect then none else some s.up) else s

/-- QUILL_FRAME_RECEIVED: 3,000 bytes at the position where the search expects or finds a frame, whose FAW crossed the
lane boundary at TT `stamp` (R348). -/
def State.frameIn (s : State) (p stamp : Nat) (f : List Byte) : State :=
  if !s.qpOn p || f.length != 3000 then s
  else
    let s := (s.laneReady (128 + p)).frameSearch p (f.take 4 == faw)
    if s.get R.QP_STATUS_fsm [p] ≠ fsSync then s
    else
      let d := scramble f
      let q := s.mfiIn p ((d[4]?).getD 0#8).toNat
      let mfi := q.1 % 64
      let s := q.2.pcCount (pcQuillBank p) 8 0x02
      let bip := ((d[7]?).getD 0#8).toNat
      let bad := match (s.qrx p).parity with
        | some v => popCount 8 (v ^^^ bip)
        | none => 0
      let s := (s.bump R.QP_BIP_count [p] bad).pcCount (pcQuillBank p) 8 0x04 bad
      let s := s.setQrx p { s.qrx p with parity := some (parityOf f), rei := bad }
      let rem := ((d[8]?).getD 0#8).toNat
      let s := s.bump R.QP_REI_count [p] (rem % 16)
      let s := s.sigDefects p (((d[5]?).getD 0#8).toNat % 8) (rem / 16 % 2)
      let s := s.errWindows p bad
      let s := s.traceByte p mfi ((d[6]?).getD 0#8)
      let crcOk := crc8 ((d.drop 26).take 16) == ((d[42]?).getD 0#8).toNat
      let s := if crcOk then s else s.bump R.QP_ERR_crc [p]
      let s := s.tsWord p mfi stamp (frameField d 9 8) (bad != 0) (!crcOk)
      (if s.get R.TB_CTL_ref2_port = p then s.ref2Frame stamp else s).slotsIn p mfi d crcOk

/-! ### Frames sent (R343 to R354, R370) -/

/-- The 64 bytes of the path trace (R347). -/
def State.traceOut (s : State) (p : Nat) : List Byte :=
  let l := beBytes 2 s.chipNo ++ [BitVec.ofNat 8 p, 0x51#8] ++ beBytes 4 (s.get R.QP_MACHINE_TAG_tag)
    ++ List.replicate 52 0#8
  l ++ beBytes 4 (crc32 l)

/-- This frame of the port sends no slot frame of a group that the chip sources (R353, R370). -/
def State.stuffs (s : State) (x : QTx) : Bool := s.quill.stuff || (x.mfi == 63 && x.mf % 4 == 3)

/-- The port that a relayed slot comes from stops it: stuffing is sent (Table 14-6, Table 14-13). -/
def State.relayStops (s : State) (p : Nat) : Bool := s.qpVis p &&& 0x1F != 0 || !s.qpOn p

/-- The slot frame that slot `sl` of port `p` sends, if any, and its group frame number or the next one's. -/
def State.slotOut (s : State) (p sl : Nat) (stuff : Bool) : Option (List Byte) × Nat × State :=
  match s.quill.relays.cells.find? (fun r => r.2.port = p ∧ r.2.slot = sl) with
  | some (key, r) => match (if s.relayStops (key / 24) then [] else r.store) with
    | (n, b) :: t => (some b, n, { s with quill := { s.quill with relays := s.quill.relays.set key { r with store := t } } })
    | [] => (none, r.next, s)
  | none => match s.memberAt p sl with
    | none => (none, 0, s)
    | some (i, k, m) =>
      if stuff then (none, (m.txq.head?.map (·.1)).getD (s.qg i).txNext, s)
      else
        let s := if m.txq.isEmpty then s.formFrame i else s
        match (s.qg i).members.get? k with
        | some m => match m.txq with
          | (n, b) :: t => (some b, n, s.modMember i k (fun m => { m with txq := t }))
          | [] => (none, (s.qg i).txNext, s)
        | none => (none, 0, s)

/-- The GC and ACK words of slot `sl` (R354, R355, R360, R378). -/
def State.wordsOut (s : State) (p sl gfn : Nat) : Nat × Nat :=
  match s.quill.relays.cells.find? (fun r => r.2.port = p ∧ r.2.slot = sl) with
  | some (key, r) =>
    let ais := s.relayStops (key / 24) || bit (s.qpVis (key / 24)) dfSf
    match r.gc with
    | some w => (setBits (if ais then setBits w 1 1 1 else w) 43 32 gfn, r.ack)
    | none => if ais then (6 + gfn * 2 ^ 32, 0) else (0, 0)
  | none => match s.memberAt p sl with
    | none => (0, 0)
    | some (i, k, _) =>
      let g := s.qg i
      let w := b2n g.rsOut + 4 + k * 2 ^ 3 + g.okmap * 2 ^ 8 + gfn * 2 ^ 32 + g.ann.2 * 2 ^ 44 + g.ann.1 * 2 ^ 56
      let a := min 4095 g.freeKib + (g.e % 2 ^ 32) * 2 ^ 12 + (if g.resend then 2 else 1) * 2 ^ 44
      (w, a)

/-- Interleave the slot bytes of a frame. -/
def weave (l : List (List Byte)) : List Byte := (List.range 123).flatMap (fun i => l.map (fun b => (b[i]?).getD 0#8))

/-- QUILL_FRAME_TRANSMIT: the port starts its next frame. -/
def State.frameOut (s : State) (p : Nat) : State :=
  if !s.qpOn p then s
  else
    let x := s.qtx p
    let ais := s.flag R.QP_CTL_ais_force [p]
    let stuff := s.stuffs x
    let r := (List.range 24).foldl (fun (a : List (Option (List Byte) × Nat) × State) sl =>
      let q := a.2.slotOut p sl stuff
      (a.1 ++ [(q.1, q.2.1)], q.2.2)) (([] : List (Option (List Byte) × Nat)), s)
    let s := r.2
    let vmap := if ais then 0 else (List.range 24).foldl (fun v k => v + b2n ((r.1[k]?).any (·.1.isSome)) * 2 ^ k) 0
    let stuffed := (List.range 24).filter (fun k => (s.memberAt p k).isSome && !(r.1[k]?).any (·.1.isSome))
    let sl := x.mfi % 32
    let words := if sl < 24 then s.wordsOut p sl ((r.1[sl]?).map (·.2)).get! else (0, 0)
    let ts1 := match (s.qrx p).mf0 with
      | some v => if x.mfi = 0 then v.1 else x.ts1
      | none => x.ts1
    let ts2 := match (s.qrx p).mf0 with
      | some v => if x.mfi = 0 then v.2 else x.ts2
      | none => x.ts2
    let ts := if x.mfi = 0 then s.tt else if x.mfi = 1 then ts1 else if x.mfi = 2 then ts2 else 0
    let ctl := beBytes 10 words.1 ++ beBytes 6 words.2
    let vm := beBytes 3 vmap
    let rem := (s.qrx p).rei % 16 + s.get R.QP_STATUS_rdi_tx [p] * 16
    let rem := if s.get R.QP_STATUS_fsm [p] = fsSync then rem else s.get R.QP_STATUS_rdi_tx [p] * 16
    let body := if ais then List.replicate 2952 0xFF#8 else weave (r.1.map (fun q => q.1.getD (List.replicate 123 0#8)))
    let d := faw ++ [BitVec.ofNat 8 x.mfi, if ais then 7#8 else 0#8, ((s.traceOut p)[x.mfi]?).getD 0#8,
      BitVec.ofNat 8 x.parity, BitVec.ofNat 8 rem] ++ beBytes 8 ts ++ vm ++ vm ++ vm ++ ctl ++ [BitVec.ofNat 8 (crc8 ctl)]
      ++ List.replicate 5 0#8 ++ body
    let f := scramble d
    let s := s.setQtx p { x with mfi := (x.mfi + 1) % 64, mf := if x.mfi = 63 then x.mf + 1 else x.mf,
                                 parity := parityOf f, ts1 := ts1, ts2 := ts2, frame := f }
    (s.pcCount (pcQuillBank p) 8 0x01).pcCount (pcQuillBank p) 8 0x06 stuffed.length

/-! ### Timers of framing -/

/-- QP_DEFECT_TIMER: LOS and LOF enter and leave by time; `on` declares. A run of 64 all-equal words, and 128 µs with lock
high and no such run, are facts of the line (Table 14-5). -/
def State.defectTimer (s : State) (p d : Nat) (on : Bool) : State :=
  let x := s.qrx p
  if !s.qpOn p || bit x.raw d == on then s
  else if d = dfLos then s.defect p dfLos on
  else if d = dfLof then
    if on then (if x.oofTt.any (fun t => decide (t + 256000 ≤ s.tt)) then s.defect p dfLof true else s)
    else (if x.syncTt.any (fun t => decide (t + 1000000 ≤ s.tt)) then s.defect p dfLof false else s)
  else s

/-- QUILL_RECEIVE_LOCK_LOSS. -/
def State.lockLoss (s : State) (p : Nat) : State :=
  if !s.qpOn p || bit (s.qrx p).raw dfLos then s else s.defect p dfLos true

/-- MEMBER_CONTROL_TIMEOUT: no valid GC word for 96 µs. -/
def State.controlTimeout (s : State) (i k : Nat) : State :=
  match (s.qg i).members.get? k with
  | some m => if m.gcTt.all (fun t => decide (t + 96000 < s.tt)) then s.failMember i k mfNoControl else s
  | none => s

/-- MEMBER_RESTORE: every condition met for restore_ms without a break. -/
def State.memberRestore (s : State) (i k : Nat) : State :=
  match (s.qg i).members.get? k with
  | some m =>
    let due := m.okTt.any (fun t => decide (t + s.get R.QP_GRP_CFG_restore_ms * 1000000 ≤ s.tt))
    if !m.healthy && s.memberOk m && due then
      let s := s.modMember i k (fun m => { m with healthy := true })
      (s.postLim E.QP_MEMBER_HEALTHY k (some m.port) [(.ix, i), (.num, m.slot), (.num, k)]).groupCheck i
    else s
  | none => s

/-- MAP_CHANGE_START: no change is in progress and the desired map differs (R357). -/
def State.mapStart (s : State) (i : Nat) : State :=
  let g := s.qg i
  let d := g.desired
  if g.change.isSome then s
  else if d = g.txMap then (if g.drop = 0 then s else s.changeEnd i)
  else
    let eff := (g.txNext + s.get R.QP_GRP_CFG_lead) % 4096
    s.setQg i { g with change := some { d := d, eff := eff, rs := g.rsIn, age := 0 }, ann := (d, eff) }

/-- MAP_CHANGE_LATE: no toggle seen by gfn eff + lead. -/
def State.mapLate (s : State) (i : Nat) : State :=
  let g := s.qg i
  match g.change with
  | some c =>
    if 2 * s.get R.QP_GRP_CFG_lead ≤ c.age then
      (s.postLim E.QP_MAP_LATE 1 (some i) [(.ix, i), (.val, c.d), (.num, c.eff)]).changeEnd i
    else s
  | none => s

/-! ### Release and stream reception (R359, R366, R367, R376, R377) -/

/-- Take whole messages off received stream bytes; at a message boundary a zero byte marks fill. -/
def splitMsgs : Nat → List Byte → List (List Byte) × List Byte
  | 0, l => ([], l)
  | n + 1, l =>
    if l.length < 16 then ([], l)
    else
      let h := leVal (l.take 16)
      let m := 16 + (if bit h 7 then bits h 47 36 + 1 else 0)
      if l.length < m then ([], l)
      else
        let r := splitMsgs n (l.drop m)
        (l.take m :: r.1, r.2)

/-- How many of the bytes `l` of a group frame, which continue the incomplete message `part`, are stream bytes: what
follows the first zero byte at a message boundary is fill. -/
def streamLen : Nat → List Byte → List Byte → Nat
  | 0, _, l => l.length
  | n + 1, part, l =>
    if part.isEmpty && l.head? == some 0#8 then 0
    else
      let all := part ++ l
      if all.length < 16 then l.length
      else
        let h := leVal (all.take 16)
        let m := 16 + (if bit h 7 then bits h 47 36 + 1 else 0)
        if all.length ≤ m then l.length
        else (m - part.length) + streamLen n [] (l.drop (m - part.length))

/-- A released group frame (R377): `lost` marks a lost share. -/
def State.streamIn (s : State) (i : Nat) (f : List Byte) (lost : Bool) : State :=
  let g := s.qg i
  let ask := fun (s : State) =>
    let g := s.qg i
    let s := s.setQg i { g with resend := true }
    if g.resend then s else s.postLim E.QM_RESEND 0 (some i) [(.ix, i), (.val, g.e)]
  if f.length < 4 then s
  else if lost then ask s
  else
    let start := leVal (f.take 4)
    let ahead := (start + 2 ^ 32 - g.e) % 2 ^ 32
    if 0 < ahead ∧ ahead < 2 ^ 31 then ask s
    else
      let back := (g.e + 2 ^ 32 - start) % 2 ^ 32
      let l := (f.drop 4).drop back
      let n := streamLen 256 g.part l
      if l.isEmpty ∨ n = 0 then (if back = 0 then s.setQg i { g with resend := false } else s)
      else
        let r := splitMsgs 256 (g.part ++ l.take n)
        s.setQg i { g with e := (g.e + n) % 2 ^ 32, resend := false, part := r.2, inbox := g.inbox ++ r.1 }

/-- Release group frame rxNext with the shares in the store; `bad` lists members whose share met an uncorrectable
error (R367). -/
def State.releaseFrame (s : State) (i : Nat) (bad : List Nat) : State :=
  let g := s.qg i
  let sqs := bitIndices 24 g.rxMap
  let x := g.shares g.rxNext
  let lost := sqs.any (fun k => (x.get? k).isNone || bad.contains k)
  let f := sqs.flatMap (fun k => (x.get k (0, List.replicate 123 0#8)).2)
  let s := s.setQg i { g with rxNext := (g.rxNext + 1) % 4096, arr := g.arr.del (g.rxNext % 256) }
  s.streamIn i f lost

/-- GROUP_FRAME_RELEASE: every member of the map has stored its share. -/
def State.groupRelease (s : State) (i : Nat) (bad : List Nat) : State :=
  let s := s.mapApply i
  let g := s.qg i
  let x := g.shares g.rxNext
  if g.rxMap ≠ 0 ∧ (bitIndices 24 g.rxMap).all (fun k => (x.get? k).isSome) then s.releaseFrame i bad else s

/-- DESKEW_DELAY_EXPIRY: dd_max after the first share, the frame is released and the missing members fail. -/
def State.deskewExpiry (s : State) (i : Nat) (bad : List Nat) : State :=
  let s := s.mapApply i
  let g := s.qg i
  let x := g.shares g.rxNext
  match earliest x (fun k => bit g.rxMap k) with
  | some t =>
    if g.rxMap ≠ 0 ∧ t + s.get R.QP_GRP_CFG_dd_max * 1000 ≤ s.tt then
      let gone := (bitIndices 24 g.rxMap).filter (fun k => (x.get? k).isNone)
      let s := s.releaseFrame i bad
      foldS gone (fun k s => s.failMember i k mfDelay) s
    else s
  | none => s

/-! ### Configuration (R361, R364, R369) -/

/-- QP_CFG_REFUSED for a register. -/
def State.qpRefused (s : State) (p off : Nat) : State := s.postLim E.QP_CFG_REFUSED off (some p) [(.val, off)]

/-- The deskew store of a port lies within the Hoard (R361). -/
def State.deskewOk (s : State) (base : Nat) : Bool := base % 65536 == 0 && decide (base + 768 * 1024 ≤ s.cfg.hoardBytes)

/-- en of a port changes. -/
def State.qpEnable (s : State) (p : Nat) (on : Bool) : State :=
  if on then
    let s := ((s.setQrx p { QRx.init with oofTt := some s.tt }).setQtx p QTx.init).put R.QP_STATUS_fsm [p] fsHunt
    (s.defect p dfOof true).quillConfigure
  else
    let s := foldS (s.membersOn p) (fun m s => s.failMember m.1 m.2 mfPort) s
    let s := s.setDefects p 0
    ((s.setQrx p QRx.init).setQtx p QTx.init).put R.QP_STATUS_fsm [p] fsOff

/-- QP_CONFIG_WRITE: QP_CTL, or with `deskew` QP_DESKEW. -/
def State.qpConfig (s : State) (src : Src) (p : Nat) (deskew : Bool) (v : Nat) : State :=
  if s.cfg.quillPorts ≤ p then s
  else if deskew then
    s.paramWrite src R.QP_DESKEW [p] v (fun s old new => if s.qpOn p ∧ old ≠ new then some causeBlock else none)
      (fun s => s.qpRefused p (R.QP_DESKEW.addr [p])) (fun s _ _ => s)
  else
    s.paramWrite src R.QP_CTL [p] v
      (fun s old new => if !bit old 0 ∧ bit new 0 ∧ !s.deskewOk (s.get R.QP_DESKEW_base [p]) then some causeBlock else none)
      (fun s => s.qpRefused p (R.QP_CTL.addr [p]))
      (fun s old new =>
        let s := if bit old 0 == bit new 0 then s else s.qpEnable p (bit new 0)
        (s.put R.QP_STATUS_ais_tx [p] (b2n (bit new 1 && bit new 0))).timCheck p)

/-! ### Commands -/

/-- QUILL_FRAME_RECEIVED. -/
def execQuillFrameReceived (p stamp : Nat) (frame : List Byte) (s : State) : Host.Outcome State Fault Refusal :=
  .next (s.frameIn p stamp frame)

/-- QP_DEFECT_TIMER. -/
def execQpDefectTimer (p d : Nat) (on : Bool) (s : State) : Host.Outcome State Fault Refusal := .next (s.defectTimer p d on)

/-- QUILL_RECEIVE_LOCK_LOSS. -/
def execQuillReceiveLockLoss (p : Nat) (s : State) : Host.Outcome State Fault Refusal := .next (s.lockLoss p)

/-- MEMBER_CONTROL_TIMEOUT. -/
def execMemberControlTimeout (i k : Nat) (s : State) : Host.Outcome State Fault Refusal := .next (s.controlTimeout i k)

/-- MEMBER_RESTORE. -/
def execMemberRestore (i k : Nat) (s : State) : Host.Outcome State Fault Refusal := .next (s.memberRestore i k)

/-- MAP_CHANGE_START. -/
def execMapChangeStart (i : Nat) (s : State) : Host.Outcome State Fault Refusal := .next (s.mapStart i)

/-- MAP_APPLY. -/
def execMapApply (i : Nat) (s : State) : Host.Outcome State Fault Refusal := .next (s.mapApply i)

/-- MAP_CHANGE_LATE. -/
def execMapChangeLate (i : Nat) (s : State) : Host.Outcome State Fault Refusal := .next (s.mapLate i)

/-- GROUP_FRAME_RELEASE. -/
def execGroupFrameRelease (i : Nat) (bad : List Nat) (s : State) : Host.Outcome State Fault Refusal :=
  .next (s.groupRelease i bad)

/-- DESKEW_DELAY_EXPIRY. -/
def execDeskewDelayExpiry (i : Nat) (bad : List Nat) (s : State) : Host.Outcome State Fault Refusal :=
  .next (s.deskewExpiry i bad)

/-- QP_CONFIG_WRITE. -/
def execQpConfigWrite (src : Src) (p : Nat) (deskew : Bool) (v : Nat) (s : State) : Host.Outcome State Fault Refusal :=
  .next (s.qpConfig src p deskew v)

end Sys2Proof.Machine
end

