-- ==== Sys2Proof/Machine/QuillNet.lean ====
section
/-! DEFINITION. The Quill machine (chapter 15): acknowledgement, remote accesses, messages, routing, detours and
distributions. -/

namespace Sys2Proof.Machine

/-! ### Headers (Table 15-3) -/

def mkWrite : Nat := 1
def mkWriteAck : Nat := 2
def mkReadReq : Nat := 3
def mkReadResp : Nat := 4
def mkSignal : Nat := 5
def mkActPost : Nat := 6
def mkActStatus : Nat := 7
def mkBcast : Nat := 8
def mkUndeliverable : Nat := 9
def mkDetour : Nat := 10
def mkTime : Nat := 11
def mkDistDone : Nat := 12

/-- A message: its 16-byte header and its payload. -/
def qMsg (kind dst src tid addr arg : Nat) (payload : List Byte) (rack : Bool := false) : List Byte :=
  leBytes 16 (kind + b2n rack * 2 ^ 6 + b2n (!payload.isEmpty) * 2 ^ 7 + dst * 2 ^ 12 + src * 2 ^ 24
    + (payload.length - 1) * 2 ^ 36 + tid * 2 ^ 48 + (addr % 2 ^ 40) * 2 ^ 64 + (arg % 2 ^ 24) * 2 ^ 104) ++ payload

def qHdr (m : List Byte) : Nat := leVal (m.take 16)
def qKind (m : List Byte) : Nat := bits (qHdr m) 3 0
def qDst (m : List Byte) : Nat := bits (qHdr m) 23 12
def qSrc (m : List Byte) : Nat := bits (qHdr m) 35 24
def qTid (m : List Byte) : Nat := bits (qHdr m) 63 48
def qAddr (m : List Byte) : Nat := bits (qHdr m) 103 64
def qArg (m : List Byte) : Nat := bits (qHdr m) 127 104
def qPayload (m : List Byte) : List Byte := m.drop 16

/-- Results of Table 15-4. -/
def rsOk : Nat := 0
def rsError : Nat := 1
def rsRefused : Nat := 2
def rsReset : Nat := 3

/-! ### Routing (R385) -/

/-- A dimension is usable. -/
def State.usable (s : State) (i : Nat) : Bool := (s.qg i).up && decide (i < s.qd) && s.flag R.QM_CTL_en

/-- The hop for chip `y`: the dimension and what it adds to detours. -/
def State.route (s : State) (y detours : Nat) (arrive : Option Nat) : Option (Nat × Nat) :=
  let x := s.chipNo ^^^ y
  match (List.range s.qd).find? (fun i => bit x i && s.usable i) with
  | some i => some (i, 0)
  | none =>
    if 2 ≤ detours then none
    else ((List.range s.qd).find? (fun i => !bit x i && s.usable i && arrive != some i)).map (fun i => (i, 1))

/-- Send one hop toward the destination, or answer why not (reasons of kind 9). -/
def State.hop (s : State) (m : List Byte) (arrive : Option Nat) : Option Nat × State :=
  let h := qHdr m
  let hops := bits h 11 8 + 1
  let y := qDst m
  match s.route y (bits h 5 4) arrive with
  | some (i, d) =>
    if s.qd + 4 < hops then (some (if s.present? y then 2 else 3), s)
    else
      let h := setBits (setBits h 11 8 hops) 5 4 (bits h 5 4 + d)
      (none, s.streamPut i (leBytes 16 h ++ qPayload m))
  | none => (some (if s.present? y then 1 else 3), s)

/-- A message that this chip sends; false when it has no first hop and is never sent. -/
def State.qSend (s : State) (m : List Byte) : Bool × State :=
  let r := s.hop m none
  (r.1.isNone, r.2)

/-- The addr field of the UNDELIVERABLE for a message, which Table 15-4 leaves open: its own, and for a signal its destination
above bit 16, so that the source can name it (R183, log 94). -/
def undeliverableAddr (m : List Byte) : Nat :=
  if qKind m = mkSignal then qAddr m % 2 ^ 16 + qDst m * 2 ^ 16 else qAddr m

/-- A message passes on; where it cannot, it is dropped and its source is told (R385). -/
def State.qForward (s : State) (m : List Byte) (arrive : Nat) : State :=
  match s.hop m (some arrive) with
  | (none, s) => s
  | (some reason, s) =>
    let s := s.bump R.QM_ERR_undeliverable
    let s := s.postLim E.QM_UNDELIVERABLE reason (some arrive) [(.num, qSrc m), (.num, qDst m), (.en, qKind m), (.en, reason)]
    if qKind m = mkUndeliverable ∨ qSrc m = s.chipNo then s
    else (s.qSend (qMsg mkUndeliverable (qSrc m) s.chipNo (qTid m) (undeliverableAddr m) (qKind m + reason * 16) [])).2

/-! ### Inbound messages -/

/-- The oldest message received over dimension `i`, if it is of kind `kind`: it leaves the receive buffer. -/
def State.takeMsg (s : State) (i kind : Nat) : Option (List Byte × State) :=
  let g := s.qg i
  match g.inbox with
  | m :: t => if qKind m = kind ∧ s.flag R.QM_CTL_en then some (m, s.setQg i { g with inbox := t }) else none
  | [] => none

/-- Handle a message of a kind: for another chip it passes on. -/
def State.onMsg (s : State) (i kind : Nat) (f : List Byte → State → State) : State :=
  match s.takeMsg i kind with
  | none => s
  | some (m, s) => if qDst m = s.chipNo then f m s else s.qForward m i

/-- An address range lies in one populated scratch, Hoard or Burrow extent (R382). -/
def State.inboundOk (s : State) (a n : Nat) : Bool :=
  decide (0 < n) && (match s.region a with
    | .scratch _ | .hoard | .burrow _ => s.region a == s.region (a + n - 1)
    | _ => false)

/-- The check of R382 and R409 for an inbound access: its result if it is refused, and the state after. -/
def State.inboundCheck (s : State) (i src a n : Nat) (write : Bool) : Option Nat × State :=
  if !s.inboundOk a n then
    (some rsRefused, s.postLim E.QM_INBOUND_REFUSED 0 (some i) [(.num, src), (.wide, a)])
  else match s.audGuard a n with
    | some k =>
      if write && s.exchangeOk k src a n then (none, s)
      else
        let s := s.audDenied k 0x2B a
        (some rsRefused, s.postLim E.QM_INBOUND_REFUSED 0 (some i) [(.num, src), (.wide, a)])
    | none => if (s.fab.mrst.get? 0x2B).isSome then (some rsError, s) else (none, s)

/-- A WRITE at its target. `err` says that the target answers with an error. -/
def State.inWrite (s : State) (i : Nat) (m : List Byte) (err : Bool) : State :=
  let l := qPayload m
  let q := s.inboundCheck i (qSrc m) (qAddr m) l.length true
  let reply := fun (r : Nat) (s : State) =>
    (s.qSend (qMsg mkWriteAck (qSrc m) s.chipNo (qTid m) (qAddr m) r [])).2
  match q.1 with
  | some r => reply r q.2
  | none =>
    if err || q.2.badMerge (qAddr m) l.length then reply rsError q.2
    else reply rsOk (q.2.writeMem (qAddr m) l)

/-- A READ_REQ at its target. -/
def State.inRead (s : State) (i : Nat) (m : List Byte) (err : Bool) : State :=
  let n := qArg m % 4096 + 1
  let q := s.inboundCheck i (qSrc m) (qAddr m) n false
  let reply := fun (r : Nat) (l : List Byte) (s : State) =>
    (s.qSend (qMsg mkReadResp (qSrc m) s.chipNo (qTid m) (qAddr m) r l)).2
  match q.1 with
  | some r => reply r [] q.2
  | none => if err || q.2.badIn (qAddr m) n then reply rsError [] q.2 else reply rsOk (q.2.readMem (qAddr m) n) q.2

/-! ### Remote accesses of this chip (R381 to R384) -/

/-- A remote access ends at its master with a result; a read's bytes arrive. -/
def State.remoteEnd (s : State) (q : RemoteReq) (result : Nat) (bytes : List Byte) : State :=
  if q.mst < 0x20 ∧ q.eng < 5 then
    let x := s.eng q.mst q.eng
    if q.kind = 0 then
      let was := x.outW.contains q.id
      let s := s.setEng q.mst q.eng { x with outW := x.outW.filter (· ≠ q.id) }
      if was ∧ result ≠ 0 then s.fabricError q.mst q.eng (some q.id) else s.nestAcked q.mst q.eng
    else if q.kind = 1 then
      let key := (q.chip, q.addr, q.len)
      if !x.asked.contains key then s
      else
        let got := if result = 0 then [(q.chip, q.addr, bytes)] else []
        let s := s.setEng q.mst q.eng { x with asked := x.asked.erase key, fetched := x.fetched ++ got }
        if result ≠ 0 then s.fabricError q.mst q.eng none else s
    else s
  else match s.fab.txns.find? (fun t => t.mst == q.mst && t.n == q.id && t.chip.isSome) with
    | some t => s.answer t (result != 0) bytes
    | none => s

/-- SIGNAL_NO_ROUTE for a signal of this chip (R183, R385). -/
def State.outNoRoute (s : State) (q : RemoteReq) : State :=
  s.post E.SIGNAL_NO_ROUTE (some (engInst q.mst q.eng)) (jobField q.job ++ [(.num, q.chip)])

/-- A remote access that is never sent, or that ends without a result. -/
def State.remoteFail (s : State) (q : RemoteReq) (result : Nat) : State :=
  if q.kind = 2 then s.outNoRoute q else s.remoteEnd q result []

/-- Two accesses share a 64-byte block of one chip. -/
def RemoteReq.sameBlock (a b : RemoteReq) : Bool :=
  a.chip == b.chip && decide (a.addr / 64 ≤ (b.addr + b.len - 1) / 64 ∧ b.addr / 64 ≤ (a.addr + a.len - 1) / 64)

/-- The access has no first hop from this chip (R45, R385, R397). -/
def State.noHop (s : State) (q : RemoteReq) : Bool :=
  decide (s.cfg.quillPorts = 0) || !s.flag R.QM_CTL_en || (s.route q.chip 0 none).isNone

/-- The access that the outbound target handles next: the first of some master port that is not held by R381. A signal,
and an access that is never sent, wait for no tid (R384). -/
def State.nextRemote (s : State) (noTid : Bool) : List RemoteReq → List RemoteReq → Option (RemoteReq × List RemoteReq)
  | _, [] => none
  | seen, q :: t =>
    let blocked := q.kind != 2 && ((noTid && !s.noHop q) || seen.any (fun x => x.mst == q.mst)
      || (decide (q.kind < 2) && s.quill.tids.vals.any (fun o => o.req.mst == q.mst && o.req.sameBlock q)))
    if blocked then s.nextRemote noTid (seen ++ [q]) t else some (q, seen ++ t)

/-- A free tid, from `t` onward (R384). -/
def State.freeTid (s : State) : Nat → Nat → Option Nat
  | 0, _ => none
  | n + 1, t =>
    let free := (s.quill.tids.get? t).isNone && (match s.quill.freed.get? t with
      | some e => decide (e + 2 * s.get R.QM_TIMERS_e2e_ms * 1000000 ≤ s.tt)
      | none => true)
    if free then some t else s.freeTid n ((t + 1) % 65536)

/-- The message that a remote access becomes under a tid. The address of a mark batch is free (log 57). -/
def State.remoteMsg (s : State) (q : RemoteReq) (tid : Nat) : List Byte × State :=
  let x := s.chipNo
  match q.kind with
  | 0 => (qMsg mkWrite q.chip x tid q.addr 0 q.bytes, s)
  | 1 => (qMsg mkReadReq q.chip x tid q.addr (q.len - 1) [], s)
  | 2 => (qMsg mkSignal q.chip x 0 (q.core + q.ctr * 2 ^ 8) q.n [], s)
  | 3 => (qMsg mkActPost q.chip x tid 0 0 q.bytes, s)
  | _ =>
    let d := s.draw 40
    (qMsg mkWrite q.chip x tid d.1 0 q.bytes, d.2)

/-- REMOTE_ACCESS_SEND. -/
def State.remoteSend (s : State) : State :=
  let tid := s.freeTid 65536 s.quill.tidNext
  match s.nextRemote tid.isNone [] s.remote with
  | none => s
  | some (q, rest) =>
    if s.noHop q then ({ s with remote := rest }).remoteFail q rsError
    else
      let m := s.remoteMsg q (if q.kind = 2 then 0 else tid.getD 0)
      let s := { m.2 with remote := rest }
      match tid with
      | some t =>
        if q.kind = 2 then (s.qSend m.1).2
        else
          let o : QOut := { req := q, tt := s.tt }
          ({ s with quill := { s.quill with tids := s.quill.tids.set t o, tidNext := (t + 1) % 65536 } }.qSend m.1).2
      | none => (s.qSend m.1).2

/-- The access that held a tid has ended. -/
def State.freeTidNow (s : State) (t : Nat) : State :=
  { s with quill := { s.quill with tids := s.quill.tids.del t, freed := s.quill.freed.set t s.tt } }

/-- QM_REMOTE_TIMEOUT, counted. -/
def State.timeoutPost (s : State) (q : RemoteReq) (tid cause : Nat) : State :=
  (s.bump R.QM_ERR_timeout).postLim E.QM_REMOTE_TIMEOUT cause none
    [(.num, q.chip), (.en, if q.kind = 1 then mkReadReq else if q.kind = 3 then mkActPost else mkWrite), (.num, tid), (.en, cause)]

/-- TID_WAIT_TIMEOUT: an access has waited e2e_ms for a tid and is never sent. -/
def State.tidTimeout (s : State) : State :=
  match s.remote.find? (fun q => q.kind != 2 && decide (q.tt + s.get R.QM_TIMERS_e2e_ms * 1000000 ≤ s.tt)) with
  | none => s
  | some q => ((({ s with remote := s.remote.erase q }).timeoutPost q 0 2).remoteEnd q rsError [])

/-- REMOTE_TIMEOUT: an access has no response after e2e_ms. -/
def State.remoteTimeout (s : State) (t : Nat) : State :=
  match s.quill.tids.get? t with
  | none => s
  | some o =>
    if s.tt < o.tt + s.get R.QM_TIMERS_e2e_ms * 1000000 then s
    else ((s.freeTidNow t).timeoutPost o.req t 1).remoteEnd o.req rsError []

/-- A response to tid of a message arrives; one with no matching access is discarded, as is one that comes with its timeout (R383, R395). -/
def State.response (s : State) (m : List Byte) (kinds : List Nat) (result : Nat) (bytes : List Byte) : State :=
  match s.quill.tids.get? (qTid m) with
  | some o =>
    let late := decide (o.tt + s.get R.QM_TIMERS_e2e_ms * 1000000 ≤ s.tt)
    if !late ∧ kinds.contains o.req.kind ∧ o.req.chip = qSrc m then (s.freeTidNow (qTid m)).remoteEnd o.req result bytes else s
  | none => s

/-- Warm reset ends the chip's own remote accesses with result 3 (R397). -/
def State.quillWarm (s : State) : State :=
  let outs := s.quill.tids.cells
  let waits := s.remote
  let s := { s with remote := [], quill := { s.quill with stuff := true } }
  let s := foldS outs (fun o s => (s.freeTidNow o.1).remoteFail o.2.req rsReset) s
  foldS waits (fun q s => if q.kind = 2 then s else s.remoteFail q rsReset) s

/-! ### Acknowledgement (R378, R379, R395) -/

/-- How far an acknowledged offset lies into the unacknowledged bytes. -/
def QGroup.ackDist (g : QGroup) (seq : Nat) : Nat := (seq + 2 ^ 32 - g.acked % 2 ^ 32) % 2 ^ 32

/-- Bytes up to `n` of the send buffer are acknowledged. -/
def QGroup.ackTo (g : QGroup) (n : Nat) : QGroup :=
  fillBuf 4096 { g with acked := (g.acked + n) % 2 ^ 32, buf := g.buf.drop n, sent := g.sent - n,
                        ends := (g.ends.filter (fun e => decide (n < e))).map (fun e => e - n) }

/-- ACK: a kind-1 word. -/
def State.ackWord (s : State) (i : Nat) : State :=
  let g := s.qg i
  match g.ackIn with
  | some (1, seq, aux) =>
    let n := g.ackDist seq
    let g := { g with ackIn := none, credit := aux }
    if n ≤ g.sent ∧ 0 < n then s.setQg i { g.ackTo n with advTt := s.tt } else s.setQg i g
  | _ => s

/-- RESEND: a kind-2 word; one outside the unacknowledged bytes is ignored. -/
def State.resendWord (s : State) (i : Nat) : State :=
  let g := s.qg i
  match g.ackIn with
  | some (2, seq, aux) =>
    let n := g.ackDist seq
    let g := { g with ackIn := none }
    if n < g.sent then
      let g := { (if n = 0 then g else { g.ackTo n with advTt := s.tt }) with credit := aux, sent := 0 }
      ((s.setQg i g).bump R.QM_RESENDS_count [i]).pcCount (pcQuillBank i) 8 0x05
    else s.setQg i g
  | _ => s

/-- RESEND_TIMEOUT: no acknowledgement has advanced for rto_us while bytes remain unacknowledged. -/
def State.resendTimeout (s : State) (i : Nat) : State :=
  let g := s.qg i
  if g.sent = 0 ∨ s.tt < g.advTt + s.get R.QM_TIMERS_rto_us * 1000 then s
  else ((s.setQg i { g with sent := 0, advTt := s.tt }).bump R.QM_RESENDS_count [i]).pcCount (pcQuillBank i) 8 0x05

/-! ### Other messages -/

/-- A SIGNAL at its target (R382): applied under R169, or dropped under R182. -/
def State.inSignal (s : State) (m : List Byte) : State :=
  s.applySignal { core := bits (qHdr m) 68 64, ctr := bits (qHdr m) 79 72, n := qArg m % 2 ^ 16, job := none,
                  fromCore := 0xFF, fromEng := 0, after := 0, chip := none }

/-- An ACT_POST at its target (R296, R382). -/
def State.inActPost (s : State) (m : List Byte) : State :=
  let r := s.submitPost 3 (qSrc m) (leVal (qPayload m))
  (r.2.2.qSend (qMsg mkActStatus (qSrc m) s.chipNo (qTid m) 0 (r.1 + r.2.1 * 16) [])).2

/-- UNDELIVERABLE at the source: the access ends with an error, a signal with SIGNAL_NO_ROUTE (R385). -/
def State.inUndeliverable (s : State) (m : List Byte) : State :=
  if qArg m % 16 = mkSignal then s.post E.SIGNAL_NO_ROUTE none [(.num, bits (qAddr m) 27 16)]
  else match s.quill.tids.get? (qTid m) with
    | some o =>
      let k := qArg m % 16
      let own := match o.req.kind with
        | 1 => k == mkReadReq
        | 3 => k == mkActPost
        | _ => k == mkWrite
      if own then (s.freeTidNow (qTid m)).remoteEnd o.req rsError [] else s
    | none => s

/-- Broadcasts of the tick phase go out, one message to every other chip of the rack (R71, log 58). -/
def State.sendTime (s : State) : State :=
  match s.tb.bcast with
  | [] => s
  | l =>
    let me := s.chipNo
    let mates := (List.range 64).filterMap (fun k =>
      let c := me / 64 * 64 + k
      if c ≠ me ∧ s.present? c then some c else none)
    let s := { s with tb := { s.tb with bcast := [] } }
    foldS l.reverse (fun x s => foldS mates (fun c s =>
      (s.qSend (qMsg mkTime c me 0 0 0 ((List.range 16).map (Config.timeBytes x.1 x.2 me)))).2) s) s

/-! ### Detours (R386 to R388, R395) -/

/-- The op, i, j and initiator of a DETOUR message. -/
def detArg (op i j chip : Nat) : Nat := op + i * 2 ^ 2 + j * 2 ^ 6 + chip * 2 ^ 10

/-- The place of this chip on a detour's path. -/
def State.detPlace (s : State) (i j init : Nat) : Nat :=
  let x := s.chipNo ^^^ init
  if x = 0 then 0 else if x = 2 ^ j then 1 else if x = 2 ^ i ^^^ 2 ^ j then 2 else 3

/-- Send a DETOUR message to a neighbour on the path. -/
def State.detSend (s : State) (op i j init dim : Nat) : State :=
  let c := s.chipNo ^^^ 2 ^ dim
  s.streamPut dim (qMsg mkDetour c s.chipNo 0 0 (detArg op i j init) [])

/-- The dimension toward the next chip of the path, or toward the one before. -/
def detNext (place i j : Nat) : Nat := if place = 1 then i else j
def detPrev (place i j : Nat) : Nat := if place = 2 then i else j

/-- The links of the path that touch this chip are up and not lending (R386), nor granted to an earlier REQ (R395). -/
def State.detFree (s : State) (d : QDetour) : Bool :=
  d.lends.all (fun k => s.usable k && !s.flag R.QM_DIM_STATUS_lending [k] && !s.flag R.QM_DIM_STATUS_detoured [k]
    && !s.quill.detours.any (fun x => !(x.i == d.i && x.chip == d.chip) && x.lends.contains k))

/-- Commit: every lender link of this chip gives up sq 12 to 23 (R387). -/
def State.detCommit (s : State) (d : QDetour) : State :=
  let d := { d with stage := 1 }
  let s := { s with quill := { s.quill with detours := s.quill.detours.filter (fun x => !(x.i == d.i && x.chip == d.chip)) ++ [d] } }
  foldS d.lends (fun k s =>
    let g := s.qg k
    (s.setQg k { g with drop := g.drop ||| 0xFFF000, after := 1 }).put R.QM_DIM_STATUS_lending [k] 1) s

/-- The initiator tries dimension j, or the next that is free; when none remains, the attempt is reported (R386). -/
def State.detTry (s : State) (i : Nat) : List Nat → State
  | [] =>
    let s := { s with quill := { s.quill with detours := s.quill.detours.filter (fun x => !(x.i == i && x.place == 0)) } }
    (s.setQg i { s.qg i with downTt := some s.tt }).postLim E.QM_DETOUR 3 (some i) [(.ix, i), (.num, 0), (.en, 3)]
  | j :: t =>
    let d : QDetour := { i := i, j := j, chip := s.chipNo, place := 0, stage := 0 }
    if j ≠ i ∧ s.detFree d then
      let l := s.quill.detours.filter (fun x => !(x.i == i && x.place == 0)) ++ [d]
      let s := { s with quill := { s.quill with detours := l } }
      s.detSend 0 i j s.chipNo j
    else s.detTry i t

/-- A detour ends at this chip (R388): its members or legs go, and the direct ones come back. -/
def State.detEnd (s : State) (d : QDetour) : State :=
  let s := { s with quill := { s.quill with detours := s.quill.detours.filter (fun x => x ≠ d) } }
  let s := if d.place = 0 ∨ d.place = 3 then
      let g := s.qg d.i
      let s := s.setQg d.i (if d.stage = 2 then { g with drop := g.drop ||| 0xFFF000, after := 2 } else g)
      let s := (s.put R.QM_DIM_STATUS_detoured [d.i] 0).put R.QM_DIM_STATUS_j [d.i] 0
      s.postLim E.QM_DETOUR 2 (some d.i) [(.ix, d.i), (.num, d.j), (.en, 2)]
    else
      { s with quill := { s.quill with relays := s.quill.relays.filterRows (fun k _ =>
        !((k / 24 == d.i || k / 24 == d.j) && decide (12 ≤ k % 24))) } }
  foldS d.lends (fun k s =>
    let g := s.qg k
    let g := if (g.members.get? 12).isSome then { g with drop := g.drop &&& 0xFFF, after := 0 } else addDirect k 12 g
    (s.setQg k g).put R.QM_DIM_STATUS_lending [k] 0) s

/-- A detour of this chip, by its failed dimension and initiator. -/
def State.detFind (s : State) (i init : Nat) : Option QDetour :=
  s.quill.detours.find? (fun d => d.i == i && d.chip == init)

/-- DETOUR_REQ over dimension `dim`. -/
def State.detReq (s : State) (i j init : Nat) : State :=
  let place := s.detPlace i j init
  let d : QDetour := { i := i, j := j, chip := init, place := place, stage := 0 }
  if !s.detFree d then s.detSend 2 i j init (detPrev place i j)
  else if place = 3 then (s.detCommit d).detSend 1 i j init (detPrev place i j)
  else
    let l := s.quill.detours.filter (fun x => !(x.i == i && x.chip == init)) ++ [d]
    let s := { s with quill := { s.quill with detours := l } }
    s.detSend 0 i j init (detNext place i j)

/-- DETOUR_GRANT: the chip commits and passes it on. -/
def State.detGrant (s : State) (i j init : Nat) : State :=
  match s.detFind i init with
  | none => s
  | some d =>
    if d.stage ≠ 0 then s
    else
      let s := s.detCommit d
      if d.place = 0 then s else s.detSend 1 i j init (detPrev d.place i j)

/-- DETOUR_REFUSE: passed back; the initiator tries the next dimension. -/
def State.detRefuse (s : State) (i j init : Nat) : State :=
  match s.detFind i init with
  | none => s
  | some d =>
    if d.stage ≠ 0 then s
    else
      let s := { s with quill := { s.quill with detours := s.quill.detours.filter (fun x => x ≠ d) } }
      if d.place = 0 then s.detTry i ((List.range s.qd).filter (fun k => decide (j < k)))
      else s.detSend 2 i j init (detPrev d.place i j)

/-- DETOUR_END: passed along the path. -/
def State.detEndMsg (s : State) (i j init : Nat) : State :=
  match s.detFind i init with
  | none => s
  | some d =>
    let s := s.detEnd d
    if d.place = 3 then s else s.detSend 3 i j init (detNext d.place i j)

/-- DETOUR_PLAN_HOLD_EXPIRY: a direct group down for plan_hold_ms; the lower-numbered end attempts a detour, after
ending one that has failed (R386, R388). -/
def State.planHold (s : State) (i : Nat) : State :=
  let g := s.qg i
  let due := g.downTt.any (fun t => decide (t + s.get R.QM_TIMERS_plan_hold_ms * 1000000 ≤ s.tt))
  if s.qd ≤ i ∨ !s.flag R.QM_CTL_en ∨ bit s.chipNo i ∨ !s.present? (s.chipNo ^^^ 2 ^ i) ∨ !due then s
  else match s.detFind i s.chipNo with
    | some d =>
      if d.stage = 2 ∨ !d.lends.all s.usable then
        ((s.detEnd d).detSend 3 i d.j s.chipNo d.j).detTry i (List.range s.qd)
      else s
    | none => s.detTry i (List.range s.qd)

/-- DIRECT_RESTORE_HOLD_EXPIRY: direct members 0 to 11 healthy for plan_hold_ms; the initiator ends the detour. -/
def State.restoreHold (s : State) (i : Nat) : State :=
  match s.detFind i s.chipNo with
  | none => s
  | some d =>
    let due := (s.qg i).directTt.any (fun t => decide (t + s.get R.QM_TIMERS_plan_hold_ms * 1000000 ≤ s.tt))
    if d.stage = 2 ∧ d.place = 0 ∧ due then (s.detEnd d).detSend 3 i d.j s.chipNo d.j else s

/-! ### Broadcast and distribution (R389 to R391) -/

/-- Dimensions in a scope. -/
def State.scopeDims (s : State) (rack : Bool) : Nat := if rack then min 6 s.qd else s.qd

/-- Chips of a scope that are fitted, other than the root. -/
def State.scopeChips (s : State) (root : Nat) (rack : Bool) : List Nat :=
  let n := 2 ^ s.scopeDims rack
  (List.range n).filterMap (fun k =>
    let c := root / n * n + k
    if c ≠ root ∧ s.present? c then some c else none)

/-- Send a BCAST copy to the child of `c` over every dimension below `k`, highest first; a child that is absent or has
no route is skipped and its own children are served in its place (R389). The copy to a child of a skipped chip is
routed under R385: `dst` stays the root's, so it travels as a message to the neighbour on its route. -/
def State.bcastDown (s : State) (c : Nat) (m : List Byte) : Nat → State
  | 0 => s
  | k + 1 =>
    let child := c ^^^ 2 ^ k
    let s := match (if s.present? child then s.route child 0 none else none) with
      | some (i, _) => s.streamPut i m
      | none => s.bcastDown child m k
    s.bcastDown c m k

/-- The highest set bit of a non-zero number below 2^n. -/
def topBit : Nat → Nat → Nat
  | 0, _ => 0
  | n + 1, x => if bit x n then n else topBit n x

/-- The BCAST message with index `ix` of a distribution. -/
def State.distMsg (s : State) (d : QDist) (ix : Nat) : List Byte :=
  let n := min 4096 (d.len - 4096 * ix)
  qMsg mkBcast s.chipNo s.chipNo (d.id * 2 ^ 8) (d.dst + 4096 * ix) (ix + b2n d.rack * 2 ^ 16)
    (s.readMem (d.src + 4096 * ix) n) d.rack

/-- The root sends what its streams have room for. -/
def State.distPump (s : State) : Nat → State
  | 0 => s
  | n + 1 => match s.quill.running with
    | none => s
    | some d =>
      if d.len ≤ 4096 * d.next ∨ (List.range s.qd).any (fun i => !(s.qg i).msgs.isEmpty) then s
      else
        let s := s.bcastDown s.chipNo (s.distMsg d d.next) (s.scopeDims d.rack)
        ({ s with quill := { s.quill with running := some { d with next := d.next + 1 } } }).distPump n

/-- A distribution starts at its root. -/
def State.distStart (s : State) (d : QDist) : State :=
  let s := { s with quill := { s.quill with running := some { d with tt := s.tt } } }
  let s := (s.put R.QM_DIST_STATUS_ok [] 0).put R.QM_DIST_STATUS_failed [] 0
  s.distPump 32

/-- The running distribution ends and a waiting one starts. -/
def State.distEnd (s : State) (d : QDist) (state : Nat) : State :=
  let ok := s.get R.QM_DIST_STATUS_ok
  let missing := (s.scopeChips s.chipNo d.rack).length - d.reports.length
  let s := s.postLim E.QM_DIST state none [(.en, d.id), (.en, state), (.num, ok), (.num, missing)]
  match s.quill.waiting with
  | some w => ({ s with quill := { s.quill with running := none, waiting := none } }).distStart w
  | none => { s with quill := { s.quill with running := none } }

/-- Results of QM_DIST_CMD. -/
def State.distResult (s : State) (r : Nat) : State := s.put R.QM_DIST_RESULT_result [] r

/-- QM_DIST_CMD: fields as the command's five words spell them (log 59). -/
def State.distCmd (s : State) (src dst len id : Nat) (rack : Bool) : State :=
  if s.islandHeld 52 || s.cfg.quillPorts == 0 then s else
  let d : QDist := { id := id, src := src, dst := dst, len := len, rack := rack, next := 0, reports := [], tt := s.tt }
  if len = 0 ∨ 2 ^ 28 < len ∨ 256 ≤ id ∨ !s.inboundOk src len ∨ !s.flag R.QM_CTL_en then s.distResult 4
  else if s.quill.running.isNone then (s.distResult 1).distStart d
  else if s.quill.waiting.isNone then ({ s with quill := { s.quill with waiting := some d } }).distResult 2
  else s.distResult 3

/-- DIST_DONE at the root: id and status as the message's arg spells them (log 58); every status but 0 is a failure. -/
def State.distReport (s : State) (chip id status : Nat) : State :=
  match s.quill.running with
  | none => s
  | some d =>
    if d.id ≠ id ∨ d.reports.contains chip then s
    else
      let d := { d with reports := d.reports ++ [chip] }
      let s := { s with quill := { s.quill with running := some d } }
      let f := if status = 0 then R.QM_DIST_STATUS_ok else R.QM_DIST_STATUS_failed
      let s := s.put f [] (s.get f + 1)
      if (s.scopeChips s.chipNo d.rack).all (fun c => d.reports.contains c) then s.distEnd d 1 else s

/-- DIST_TIMEOUT. -/
def State.distTimeout (s : State) : State :=
  match s.quill.running with
  | some d => if s.tt < d.tt + s.get R.QM_DIST_TIME_dist_s * 1000000000 then s else s.distEnd d 2
  | none => s

/-- Report a distribution to its root: 0 ok, 1 overlap, 2 range. -/
def State.distDone (s : State) (root id status : Nat) : State :=
  (s.qSend (qMsg mkDistDone root s.chipNo 0 0 (Config.distDone id status).toNat [])).2

/-- BCAST (R389, R390): the message passes down the tree and is taken once. `len` is the distribution's length, which the
manual does not say how a chip learns (log 59). -/
def State.inBcast (s : State) (m : List Byte) (len : Nat) : State :=
  let root := qDst m
  let id := qTid m / 2 ^ 8
  let ix := qArg m % 2 ^ 16
  let rack := bit (qArg m) 16
  let x := s.chipNo ^^^ root
  let dims := s.scopeDims rack
  let base := qAddr m - 4096 * ix
  let known := s.quill.recv.find? (fun r => r.root == root && r.id == id)
  let dup := known.any (fun r => r.held.contains ix)
  if x = 0 ∨ dup then s
  else
    let s := s.bcastDown s.chipNo m (topBit dims x)
    let setR := fun (r : QRecv) (s : State) =>
      { s with quill := { s.quill with recv := s.quill.recv.filter (fun y => !(y.root == root && y.id == id)) ++ [r] } }
    let fresh : QRecv := { root := root, id := id, dst := base, len := len, held := [], refused := false }
    let r := known.getD fresh
    let bad := !s.inboundOk base len
    let clash := s.quill.recv.any (fun y => !(y.root == root && y.id == id) && !y.refused
      && decide ((y.len + 4095) / 4096 ≠ y.held.length) && overlaps y.dst y.len base len)
    if known.isNone ∧ (bad ∨ clash) then
      (setR { r with held := [ix], refused := true } s).distDone root id (if clash then 1 else 2)
    else
      let r := { r with held := r.held ++ [ix] }
      if r.refused then setR r s
      else
        let s := match s.audGuard (qAddr m) (qPayload m).length with
          | some k => s.audDenied k 0x2B (qAddr m)
          | none => s.writeMem (qAddr m) (qPayload m)
        if r.held.length = (r.len + 4095) / 4096 then (setR r s).distDone root id 0 else setR r s

/-! ### Register commands (R365, R374) -/

/-- QM_MEMBER_CMD: a planned add or remove starts, waits, or is refused BUSY (R365). -/
def State.memberCmd (s : State) (v : Nat) : State :=
  let i := bits v 3 0
  let sq := bits v 8 4
  let r := (sq, bit v 9)
  let g := s.qg i
  if !bit v 31 ∨ s.qd ≤ i ∨ 24 ≤ sq ∨ s.islandHeld 52 then s
  else if g.reqWait.isSome then s.put R.QM_MEMBER_RESULT_result [] 3
  else if g.req.isSome || g.change.isSome then
    (s.setQg i { g with reqWait := some r }).put R.QM_MEMBER_RESULT_result [] 2
  else
    ((s.setQg i { g with req := if g.reqDone r then none else some r }).startRequest i r).put R.QM_MEMBER_RESULT_result [] 1

/-- QM_ID (`w` none) or word `w` of QM_PRESENT: only while QM_CTL.en is 0. dim is at most WX_QUILL_PORTS. -/
def State.qmIdWrite (s : State) (src : Src) (w : Option Nat) (v : Nat) : State :=
  let refuse := fun (off : Nat) (s : State) => s.postLim E.QM_CFG_REFUSED off none [(.val, off)]
  let check := fun (s : State) (_ _ : Nat) => if s.flag R.QM_CTL_en then some causeBlock else none
  if s.cfg.quillPorts = 0 then s else
  match w with
  | none =>
    let bad := decide (s.cfg.quillPorts < bits v 15 12)
    let eff := if bad then setBits v 15 12 s.qd else v
    s.paramWriteEff src R.QM_ID [] v eff bad check (refuse R.QM_ID.off) (fun s _ _ => s)
  | some k =>
    if 128 ≤ k then s
    else s.paramWrite src R.QM_PRESENT [k] v check (refuse (R.QM_PRESENT.addr [k])) (fun s _ _ => s)

/-! ### Commands -/

/-- QUILL_FRAME_TRANSMIT: queued broadcasts and distribution messages join their streams first. -/
def execQuillFrameTransmit (p : Nat) (s : State) : Host.Outcome State Fault Refusal :=
  .next (if s.qpOn p then ((s.sendTime).distPump 8).frameOut p else s)

/-- ACK. -/
def execAck (i : Nat) (s : State) : Host.Outcome State Fault Refusal := .next (s.ackWord i)

/-- RESEND. -/
def execResend (i : Nat) (s : State) : Host.Outcome State Fault Refusal := .next (s.resendWord i)

/-- RESEND_TIMEOUT. -/
def execResendTimeout (i : Nat) (s : State) : Host.Outcome State Fault Refusal := .next (s.resendTimeout i)

/-- REMOTE_ACCESS_SEND. -/
def execRemoteAccessSend (s : State) : Host.Outcome State Fault Refusal := .next s.remoteSend

/-- TID_WAIT_TIMEOUT. -/
def execTidWaitTimeout (s : State) : Host.Outcome State Fault Refusal := .next s.tidTimeout

/-- REMOTE_TIMEOUT. -/
def execRemoteTimeout (tid : Nat) (s : State) : Host.Outcome State Fault Refusal := .next (s.remoteTimeout tid)

/-- WRITE. -/
def execWrite (i : Nat) (err : Bool) (s : State) : Host.Outcome State Fault Refusal :=
  .next (s.onMsg i mkWrite (fun m s => s.inWrite i m err))

/-- WRITE_ACK. -/
def execWriteAck (i : Nat) (s : State) : Host.Outcome State Fault Refusal :=
  .next (s.onMsg i mkWriteAck (fun m s => s.response m [0, 4] (qArg m % 4) []))

/-- READ_REQ. -/
def execReadReq (i : Nat) (err : Bool) (s : State) : Host.Outcome State Fault Refusal :=
  .next (s.onMsg i mkReadReq (fun m s => s.inRead i m err))

/-- READ_RESP. -/
def execReadResp (i : Nat) (s : State) : Host.Outcome State Fault Refusal :=
  .next (s.onMsg i mkReadResp (fun m s => s.response m [1] (qArg m % 4) (qPayload m)))

/-- QUILL_SIGNAL. -/
def execQuillSignal (i : Nat) (s : State) : Host.Outcome State Fault Refusal :=
  .next (s.onMsg i mkSignal (fun m s => s.inSignal m))

/-- ACT_POST. -/
def execActPost (i : Nat) (s : State) : Host.Outcome State Fault Refusal :=
  .next (s.onMsg i mkActPost (fun m s => s.inActPost m))

/-- ACT_STATUS. -/
def execActStatus (i : Nat) (s : State) : Host.Outcome State Fault Refusal :=
  .next (s.onMsg i mkActStatus (fun m s => s.response m [3] 0 []))

/-- BCAST: its dst is the root, so it is handled at every chip. -/
def execBcast (i len : Nat) (s : State) : Host.Outcome State Fault Refusal :=
  .next (match s.takeMsg i mkBcast with
    | some (m, s) => s.inBcast m len
    | none => s)

/-- UNDELIVERABLE. -/
def execUndeliverable (i : Nat) (s : State) : Host.Outcome State Fault Refusal :=
  .next (s.onMsg i mkUndeliverable (fun m s => s.inUndeliverable m))

/-- A DETOUR message of an op: i, j and the initiator are its arg's. -/
def State.onDetour (s : State) (dim op : Nat) (f : State → Nat → Nat → Nat → State) : State :=
  match (s.qg dim).inbox.head? with
  | some m => if qArg m % 4 = op then
      s.onMsg dim mkDetour (fun m s => f s (bits (qArg m) 5 2) (bits (qArg m) 9 6) (bits (qArg m) 21 10)) else s
  | none => s

/-- DETOUR_REQ. -/
def execDetourReq (dim : Nat) (s : State) : Host.Outcome State Fault Refusal := .next (s.onDetour dim 0 State.detReq)

/-- DETOUR_GRANT. -/
def execDetourGrant (dim : Nat) (s : State) : Host.Outcome State Fault Refusal := .next (s.onDetour dim 1 State.detGrant)

/-- DETOUR_REFUSE. -/
def execDetourRefuse (dim : Nat) (s : State) : Host.Outcome State Fault Refusal := .next (s.onDetour dim 2 State.detRefuse)

/-- DETOUR_END. -/
def execDetourEnd (dim : Nat) (s : State) : Host.Outcome State Fault Refusal := .next (s.onDetour dim 3 State.detEndMsg)

/-- TIME: `phase` and `tick` are what the payload spells (log 58). -/
def execTime (i : Nat) (phase : Int) (tick : Nat) (s : State) : Host.Outcome State Fault Refusal :=
  .next (s.onMsg i mkTime (fun m s => s.timeMessage (qSrc m) phase tick))

/-- DIST_DONE. -/
def execDistDone (i id status : Nat) (s : State) : Host.Outcome State Fault Refusal :=
  .next (s.onMsg i mkDistDone (fun m s => s.distReport (qSrc m) id status))

/-- RESERVED_MESSAGE. -/
def execReservedMessage (i : Nat) (s : State) : Host.Outcome State Fault Refusal :=
  let g := s.qg i
  .next (match g.inbox with
    | m :: t => if 13 ≤ qKind m then
        let s := s.setQg i { g with inbox := t }
        { s with quill := { s.quill with reserved := s.quill.reserved + 1 } } else s
    | [] => s)

/-- DETOUR_PLAN_HOLD_EXPIRY. -/
def execDetourPlanHoldExpiry (i : Nat) (s : State) : Host.Outcome State Fault Refusal := .next (s.planHold i)

/-- DIRECT_RESTORE_HOLD_EXPIRY. -/
def execDirectRestoreHoldExpiry (i : Nat) (s : State) : Host.Outcome State Fault Refusal := .next (s.restoreHold i)

/-- QM_DIST_CMD. -/
def execQmDistCmd (src dst len id : Nat) (rack : Bool) (s : State) : Host.Outcome State Fault Refusal :=
  .next (s.distCmd src dst len id rack)

/-- DIST_TIMEOUT. -/
def execDistTimeout (s : State) : Host.Outcome State Fault Refusal := .next s.distTimeout

/-- QM_MEMBER_CMD. -/
def execQmMemberCmd (v : Nat) (s : State) : Host.Outcome State Fault Refusal := .next (s.memberCmd v)

/-- QM_ID_WRITE. -/
def execQmIdWrite (src : Src) (w : Option Nat) (v : Nat) (s : State) : Host.Outcome State Fault Refusal :=
  .next (s.qmIdWrite src w v)

end Sys2Proof.Machine
end

