-- ==== Sys2Proof/Machine/Units.lean ====
section
/-! DEFINITION. The unit state table (R504, R505): what the management plane commands beside what the blocks report. -/

namespace Sys2Proof.Machine

/-- The states of HP_UNIT_STATE (Table 20-8). -/
def uOff : Nat := 0
def uStarting : Nat := 1
def uRun : Nat := 2
def uDegraded : Nat := 3
def uFault : Nat := 4

/-- The number of units (Table 20-7). -/
def unitCount : Nat := 116

/-- The island that holds unit `u`, numbered as State.heldIsl; management units are never held. -/
def unitIsland (u : Nat) : Nat :=
  if u ≤ 9 then 53
  else if u < 42 then 32 + (u - 10) / 4
  else if u < 54 then 40 + (u - 42)
  else if u < 56 then 52
  else if u < 88 then u - 56
  else if u < 104 then 52
  else if u < 108 then 54
  else 52

/-- The configuration has the instance of unit `u` (R504). -/
def State.unitPresent (s : State) (u : Nat) : Bool :=
  if u = 0 then true
  else if u < 9 then decide (u - 1 < s.cfg.posChannels)
  else if u = 9 then true
  else if u < 42 then decide (u - 10 < s.cfg.camPipes)
  else if u < 54 then decide (u - 42 < s.cfg.quillPorts)
  else if u = 54 then s.cfg.quillPorts != 0
  else if u = 55 then true
  else if u < 88 then decide (u - 56 < s.cfg.cores)
  else if u < 108 then true
  else decide (u - 108 < s.cfg.burrowPorts)

/-- The enabling parameter of unit `u`, as last applied, is set (Table 20-7). -/
def State.unitEnabled (s : State) (u : Nat) : Bool :=
  s.unitPresent u &&
  (if u = 0 then s.get R.TB_CTL_mode != 0
  else if u < 9 then s.get R.PU_CH_CTL_mode [u - 1] != 0
  else if u = 9 then s.flag R.AU_CTL_en
  else if u < 42 then s.flag R.CX_CAM_CTL_en [u - 10]
  else if u < 54 then s.flag R.QP_CTL_en [u - 42]
  else if u = 54 then s.flag R.QM_CTL_en
  else if u = 55 then s.flag R.DS_SCHED_CTL_en
  else if u < 88 then s.flag R.CR_CORE_CTL_en [u - 56]
  else if u < 104 then s.flag R.DS_RCP_CTL_run [u - 88]
  else if u < 108 then s.flag R.EM_FAN_CFG_en [u - 104]
  else s.flag R.FB_BRW_CFG_open [u - 108])

/-- The commanded state of unit `u`. -/
def State.unitCmd (s : State) (u : Nat) : Nat := if s.unitEnabled u then uRun else uOff

/-- The first of the states that holds, else RUN. -/
def pickState (starting degraded fault : Bool) : Nat :=
  if fault then uFault else if starting then uStarting else if degraded then uDegraded else uRun

/-- The dimensions whose neighbour is present (R375). -/
def State.dimsPresent (s : State) : List Nat :=
  (List.range (min s.qd s.cfg.quillPorts)).filter (fun i => s.present? (s.chipNo ^^^ 2 ^ i))

/-- The observed state of unit `u` (Table 20-7). A held island's units read OFF (R49), but for an enabled core, for
which Table 20-7 gives FAULT (log 63). -/
def State.unitObs (s : State) (u : Nat) : Nat :=
  let i := u - 1
  if !s.unitEnabled u then uOff
  else if s.heldIsl.contains (unitIsland u) then (if 56 ≤ u ∧ u < 88 then uFault else uOff)
  else if u = 0 then
    let st := s.get R.TB_STATUS_state
    pickState (st == 1) (st == 3) (st == 4 || st == 0)
  else if u < 9 then pickState false (s.get R.PU_STATUS_los [i] != 0) false
  else if u = 9 then pickState false false (!s.au.oe)
  else if u < 42 then
    let p := u - 10
    let up := s.flag R.CX_CAM_STATUS_group_up [p]
    pickState (!up) false (s.flag R.CX_CAM_STATUS_stalled [p] || (!up && (s.pipe p).wasUp))
  else if u < 54 then
    let v := s.get R.QP_STATUS_defects [u - 42]
    pickState (s.get R.QP_STATUS_fsm [u - 42] != 3) (v &&& 0xA0 != 0) (v &&& 0x5D != 0)
  else if u = 54 then
    let l := s.dimsPresent
    let up := fun i => s.flag R.QM_DIM_STATUS_up [i]
    let det := fun i => s.flag R.QM_DIM_STATUS_detoured [i]
    pickState false (l.any (fun i => !up i || det i)) (!l.isEmpty && !l.any up)
  else if u = 55 then uRun
  else if u < 88 then
    let c := u - 56
    pickState false ((s.ec c).excl != 0 || decide (s.get R.EM_CORE_TGT_lim_code [c] < 68))
      ((List.range s.cfg.engines).any (fun e => (s.eng c e).stopped))
  else if u < 104 then
    match (s.rslot (u - 88)).recipe with
    | some d => pickState false false ((pipesOf d).all (fun p => s.flag R.CX_CAM_STATUS_stalled [p]))
    | none => uRun
  else if u < 108 then
    let f := u - 104
    pickState (s.get R.EM_FAN_STATUS_state [f] == 1) (s.flag R.EM_FAN_STATUS_tach_lost [f])
      (s.get R.EM_FAN_STATUS_state [f] == 3)
  else pickState false false (s.fab.trst.get? (tgtBurrow (u - 108))).isSome

/-- Unit `u` is in mismatch (R505). -/
def State.unitMismatch (s : State) (u : Nat) : Bool :=
  let c := s.unitCmd u
  let o := s.unitObs u
  if c = uRun then o == uOff || o == uFault else o != uOff

/-- The units in mismatch, ascending. -/
def State.mismatches (s : State) : List Nat := (List.range unitCount).filter s.unitMismatch

/-- HP_UNIT_STATE[u] (Table 20-8); the duration counts whole milliseconds. -/
def State.unitWord (s : State) (u : Nat) : Nat :=
  let m := s.unitMismatch u
  let ms := if m then (match s.ecat.units.get? u with | some x => (s.tt - x.1) / 1000000 | none => 0) else 0
  s.unitCmd u + s.unitObs u * 2 ^ 3 + b2n m * 2 ^ 6 + satTo 65535 ms * 2 ^ 16

/-- A mismatch that has ended: UNIT_STATE_AGREE ends one that was reported (R505, log 63). -/
def State.unitAgree (s : State) (u : Nat) (reported : Bool) : State :=
  let s := { s with ecat := { s.ecat with units := s.ecat.units.del u } }
  if reported then s.post E.UNIT_STATE_AGREE none [(.ix, u)] else s

/-- A management cycle judges every unit (R22, R505): a mismatch begins or ends. -/
def State.unitsUpdate (s : State) : State :=
  foldS (List.range unitCount) (fun u s =>
    match s.unitMismatch u, s.ecat.units.get? u with
    | true, none => { s with ecat := { s.ecat with units := s.ecat.units.set u (s.tt, false) } }
    | false, some x => s.unitAgree u x.2
    | _, _ => s) s

/-- A mismatch of unit `u` that has lasted 1,000 ms is reported once (R505, R509). -/
def State.unitReport (s : State) (u : Nat) : State :=
  match s.ecat.units.get? u with
  | none => s
  | some (t, told) =>
    if told || decide (s.tt < t + 1000000000) then s
    else
      { s with ecat := { s.ecat with units := s.ecat.units.set u (t, true) } }.post E.UNIT_STATE_MISMATCH none
        [(.ix, u), (.en, s.unitCmd u), (.en, s.unitObs u)]

/-- UNIT_MISMATCH_TIMEOUT: unit `u` is observed, and its mismatch reported when it is due. -/
def State.unitTimeout (s : State) (u : Nat) : State := s.unitsUpdate.unitReport u

/-- UNIT_MISMATCH_TIMEOUT. -/
def execUnitMismatchTimeout (unit : Nat) (s : State) : Host.Outcome State Fault Refusal := .next (s.unitTimeout unit)

end Sys2Proof.Machine
end

