-- ==== Sys2Proof/Machine/View.lean ====
section
/-! DEFINITION. Reads of registers: the word a read returns, the latch of a _HI word, and clear-on-read fields (R10,
R18, R49, R59, R543, R544). -/

namespace Sys2Proof.Machine

/-! ### Computed words -/

/-- The journal entry with a seq, while the copy in use holds it (R506, R537). -/
def State.jrnAt (s : State) (seq : Nat) : Option JEntry :=
  let st := s.get R.HP_JRN_STATUS_copy
  let t := if st = 2 then s.jrn.mirror else s.jrn.primary
  if st = 3 then none else (t.get? (seq % 16384)).filter (fun e => e.seq == seq)

/-- Word `k` of an actuation entry's view (Table 12-5). -/
def State.entryWord (s : State) (i k : Nat) : Nat :=
  match s.au.table.get? i with
  | none => 0
  | some e =>
    let st := match e.state with
      | .armed => 1
      | .guard => 2
      | .firing => 3
      | .disagreeing => 4
    (e.post % 2 ^ 192 + st * 2 ^ 192 + e.source * 2 ^ 196 + e.chip * 2 ^ 198) / 2 ^ (32 * k) % 2 ^ 32

/-- QP_SLOT of a port and slot (Table 14-10). -/
def State.slotWord (s : State) (p k : Nat) : Nat :=
  match s.memberAt p k with
  | some (i, q, m) =>
    let g := s.qg i
    1 + b2n m.healthy * 2 ^ 2 + b2n (bit g.farOk q) * 2 ^ 3 + b2n (bit g.rxMap q) * 2 ^ 4 + q * 2 ^ 5
      + satTo 65535 (m.delay / 10) * 2 ^ 16
  | none => if (s.quill.relays.get? (p * 24 + k)).isSome then 2 else 0

/-- The shadow calibration bank of a pipeline, which the host's windows show (R128). -/
def State.shadowBank (s : State) (p : Nat) : CalBank :=
  if s.get R.PP_CAL_SWAP_active [p] = 0 then (s.pipe p).bank1 else (s.pipe p).bank0

/-- The word that a register holds for its reader: the computed words, the latch of a _HI word (R59), the held word of
any other register. -/
def State.viewLive (s : State) (r : RegSpec) (ix : List Nat) : Nat :=
  let i := ix.headD 0
  let k := ix.getD 1 0
  let o := r.off
  if o = R.TB_TT_LO.off then s.tt % 2 ^ 32
  else if o = R.TB_TT_HI.off then s.tt / 2 ^ 32
  else if o = R.TB_HOLD_EST.off then s.holdEst
  else if o = R.CR_SYNC.off then s.sync i k
  else if o = R.AU_ENTRY.off then s.entryWord i k
  else if o = R.AU_ONTIME.off then (s.onTime i).regWord r ix
  else if o = R.CX_CAM_STATUS.off then (s.showSkew i).regWord r ix
  else if o = R.QP_SLOT.off then s.slotWord i k
  else if o = R.PP_CAL.off then (s.shadowBank i).word k
  else if o = R.PP_RS.off then (s.shadowBank i).rsWord k
  else if o = R.PP_DEF.off then (s.shadowBank i).defs.get k 0
  else if o = R.PP_RS_COUNT.off then (s.shadowBank i).rsCount
  else if o = R.PP_DEF_COUNT.off then (s.shadowBank i).defCount
  else if o = R.HP_JRN_VALID.off then b2n (s.jrnAt (s.get R.HP_JRN_READ_seq)).isSome
  else if o = R.HP_JRN_DATA.off then
    (match s.jrnAt (s.get R.HP_JRN_READ_seq) with
     | some e => e.encode / 2 ^ (32 * i) % 2 ^ 32
     | none => 0)
  else if o = R.HP_UNIT_STATE.off then s.unitWord i
  else s.regWord r ix

/-- The word that a register of a held island reads (R49). -/
def State.viewHeld (s : State) (r : RegSpec) (ix : List Nat) : Nat :=
  let w := resetWord s.cfg r ix
  if r.off = R.CR_CORE_STATUS.off then setBits w 2 2 1
  else if [R.PC_BANK_CTL_E.off, R.PC_BANK_CTL_P.off, R.PC_BANK_CTL_Q.off, R.PC_BANK_CTL_F.off, R.PC_BANK_CTL_D.off,
      R.PC_BANK_CTL_H.off].contains r.off then setBits w 9 9 1
  else w

/-- The word of a register as its reader sees it, before any effect of the read. -/
def State.view (s : State) (r : RegSpec) (ix : List Nat := []) : Nat :=
  if s.regHeld (r.addr ix) then s.viewHeld r ix else readableWord (s.viewLive r ix) r.fields

/-- The pairs of _LO and _HI registers (R544), but for those whose _LO read has a row of its own. -/
def regPairs : List (RegSpec × RegSpec) :=
  [(R.HP_ERR_ADDR_LO, R.HP_ERR_ADDR_HI), (R.HP_EVQ_BASE_LO, R.HP_EVQ_BASE_HI), (R.HP_CQ_BASE_LO, R.HP_CQ_BASE_HI),
   (R.TB_TT_LO, R.TB_TT_HI), (R.TB_TT_LOAD_LO, R.TB_TT_LOAD_HI), (R.PU_CNT_LO, R.PU_CNT_HI),
   (R.PU_LOAD_LO, R.PU_LOAD_HI), (R.PU_IDX_LO, R.PU_IDX_HI), (R.AU_OUT_STATE_LO, R.AU_OUT_STATE_HI),
   (R.AU_WEAR_LO, R.AU_WEAR_HI), (R.PP_DEC_SUBST_LO, R.PP_DEC_SUBST_HI), (R.PP_DEC_WORK_LO, R.PP_DEC_WORK_HI),
   (R.FB_UNMAPPED_ADDR_LO, R.FB_UNMAPPED_ADDR_HI), (R.FB_BRW_ECC_ADDR_LO, R.FB_BRW_ECC_ADDR_HI),
   (R.QP_TRACE_EXP_LO, R.QP_TRACE_EXP_HI), (R.QP_TRACE_RX_LO, R.QP_TRACE_RX_HI),
   (R.RG_AUD_PKG_LO, R.RG_AUD_PKG_HI), (R.RG_AUD_REGION_LO, R.RG_AUD_REGION_HI), (R.RG_AUD_OUT_LO, R.RG_AUD_OUT_HI),
   (R.RG_AUD_ID_LO, R.RG_AUD_ID_HI), (R.CU_OP_SRC_LO, R.CU_OP_SRC_HI), (R.CU_OP_DST_LO, R.CU_OP_DST_HI),
   (R.CU_OP_AAD_LO, R.CU_OP_AAD_HI), (R.CU_OP_TAG_LO, R.CU_OP_TAG_HI), (R.PC_SNAP_AT_LO, R.PC_SNAP_AT_HI),
   (R.PC_CNT_LO_E, R.PC_CNT_HI_E), (R.PC_CNT_LO_P, R.PC_CNT_HI_P), (R.PC_CNT_LO_Q, R.PC_CNT_HI_Q),
   (R.PC_CNT_LO_F, R.PC_CNT_HI_F), (R.PC_CNT_LO_D, R.PC_CNT_HI_D), (R.PC_CNT_LO_H, R.PC_CNT_HI_H)]

/-- The _HI register of a _LO register, and the _LO register of a _HI one. -/
def hiOf (r : RegSpec) : Option RegSpec := (regPairs.find? (fun p => p.1.off == r.off)).map (·.2)
def loOf (r : RegSpec) : Option RegSpec := (regPairs.find? (fun p => p.2.off == r.off)).map (·.1)

/-! ### The read -/

/-- What a read answers: a word, and the state after it. -/
def State.readAt (s : State) (off : Nat) : Nat × State :=
  match findReg s.cfg off with
  | none => (0, s)
  | some (r, ix) =>
    if s.regHeld off then (s.viewHeld r ix, s)
    else if (loOf r).isSome then (s.hiLatch.get off 0, s)
    else
      let w := s.view r ix
      let s := match hiOf r with
        | some h => { s with hiLatch := s.hiLatch.set (h.addr ix) (s.view h ix) }
        | none => s
      let s := if r.off = R.PU_STATUS.off ∨ r.off = R.PU_IDX_LO.off then s.put R.PU_STATUS_idx_new [ix.headD 0] 0 else s
      (w, if r.fields.any (fun f => f.acc == .rc) then s.setRegWord r ix (clearedWord (s.regWord r ix) r.fields) else s)

/-- The registers that the host port answers before CONTROL (R471). -/
def earlyRead (off : Nat) : Bool := decide (off ≤ R.HP_BOOT_STATUS.off)

/-- A register read by a source: the word goes to `rdata`; a refused host read returns all ones (R471, R564). -/
def State.readReg (s : State) (src : Src) (off : Nat) : State :=
  if s.hostShut src && !earlyRead off then { s.hostAbandon with rdata := 2 ^ 32 - 1 }
  else
    let p := s.readAt (off / 4 * 4)
    { p.2 with rdata := p.1 }

/-- PAIR_LO_READ: a read of the _LO register of a pair. -/
def execPairLoRead (src : Src) (off : Nat) (s : State) : Host.Outcome State Fault Refusal := .next (s.readReg src off)

/-- RC_REGISTER_READ: a register read; its rc fields clear. -/
def execRcRegisterRead (src : Src) (off : Nat) (s : State) : Host.Outcome State Fault Refusal := .next (s.readReg src off)

end Sys2Proof.Machine
end

