-- ==== Sys2Proof/Machine/RegWrite.lean ====
section
/-! DEFINITION. Writes to registers: a journalled parameter as it is applied (R21, R502), and every other register as its
own table gives (R10, R543, R544). -/

namespace Sys2Proof.Machine

/-! ### Journalled parameters -/

/-- A journalled parameter is written and no more. -/
def State.plainParam (s : State) (src : Src) (r : RegSpec) (ix : List Nat) (v : Nat)
    (after : State → Nat → Nat → State) : State :=
  s.paramWrite src r ix v (fun _ _ _ => none) (fun s => s) after

/-- TB_TICK_PHASE: signed, −500,000 to 499,999 ns; another value changes nothing (R73, R78). -/
def State.tickPhaseWrite (s : State) (src : Src) (v : Nat) : State :=
  let ph := signedOf 32 v
  let bad := decide (ph < -500000 ∨ 499999 < ph)
  let old := s.tickPhase
  let eff := if bad then s.regWord R.TB_TICK_PHASE else v
  s.paramWriteEff src R.TB_TICK_PHASE [] v eff bad (fun _ _ _ => none) (fun s => s) (fun s _ _ =>
    if bad then s else s.retarget old)

/-- AU_OUT_LATE, AU_GUARD and AU_WEAR_WARN (R307). -/
def State.auParam (s : State) (src : Src) (r : RegSpec) (ix : List Nat) (v : Nat) : State :=
  (s.plainParam src r ix v (fun s _ _ => if r.off = R.AU_GUARD.off then s.guardCycle (ix.headD 0) false else s)).auRange
    r ix v

/-- One word of QP_TRACE_EXP (R347, Table 14-10). -/
def State.traceWord (s : State) (src : Src) (r : RegSpec) (ix : List Nat) (v : Nat) : State :=
  s.plainParam src r ix v (fun s _ _ => s.timCheck (ix.headD 0))

/-- The registers whose writes R457 judges. -/
def isEm (r : RegSpec) : Bool :=
  decide (0x280000 ≤ r.off) || r.off == R.QP_TUNE_MAP.off || r.off == R.QP_TUNE_LIM.off || r.off == R.CX_TUNE_MAP.off
    || r.off == R.CX_TUNE_LIM.off

/-- A write to a journalled parameter is applied (R21). A _HI word applies its pair (R544) when `pair` is set; a
dictionary entry of one word is written by itself. -/
def State.applyParam (s : State) (src : Src) (r : RegSpec) (ix : List Nat) (v : Nat) (pair : Bool) : State :=
  let o := r.off
  let i := ix.headD 0
  if s.regHeld (r.addr ix) then s
  else if o = R.AU_CTL.off then s.auCtlWrite src v
  else if o = R.AU_OUT_CFG.off then s.auOutCfgWrite src i v
  else if o = R.AU_OUT_LATE.off ∨ o = R.AU_GUARD.off ∨ o = R.AU_WEAR_WARN.off then s.auParam src r ix v
  else if o = R.PU_CH_CTL.off then s.puCtlWrite src i false v
  else if o = R.PU_SSI.off then s.puCtlWrite src i true v
  else if o = R.PU_GLOBAL.off then (s.plainParam src r ix v (fun s old new =>
    if !bit old 1 && bit new 1 then s.startScans else s)).bypassUpdate
  else if o = R.TB_CTL.off then
    s.paramWrite src r ix v (fun s _ new => if bits new 3 2 = 2 ∧ s.cfg.quillPorts = 0 then some causeNoRoute else none)
      (fun s => s) (fun t old new => t.tbCtlChanged s.tickPhase old new)
  else if o = R.TB_TICK_PHASE.off then s.tickPhaseWrite src v
  else if o = R.CX_CAM_CTL.off then s.camWrite src i .camCtl v
  else if o = R.PP_CTL.off then s.camWrite src i .ppCtl v
  else if o = R.PP_STAMP.off then s.camWrite src i .stamp v
  else if o = R.PP_RING.off then s.camWrite src i .ring v
  else if o = R.PP_DEC_CTL.off then s.decWrite src i .ctl v
  else if o = R.PP_DEC_WORK_HI.off then s.decWrite src i .work v
  else if o = R.PP_DEC_SUBST_HI.off then s.substWrite src i v
  else if o = R.CR_CORE_CTL.off then s.plainParam src r ix v (fun s _ _ => s.showCore i)
  else if o = R.DS_RING_CTL.off then s.ringCtlWrite src i v
  else if o = R.DS_RCP_CTL.off then s.rcpRunWrite src i v
  else if o = R.DS_SCHED_CTL.off ∨ o = R.DS_HORIZON.off then s.plainParam src r ix v (fun s _ _ => s.refreshRanks)
  else if o = R.FB_MST_QOS.off ∧ i < 0x29 then s
  else if o = R.FB_BRW_CFG.off then s.brwCfgWrite src i v
  else if o = R.QP_CTL.off then s.qpConfig src i false v
  else if o = R.QP_DESKEW.off then s.qpConfig src i true v
  else if o = R.QP_TRACE_EXP_HI.off ∧ pair then
    s.pairWrite src R.QP_TRACE_EXP_LO R.QP_TRACE_EXP_HI ix v (fun _ _ _ => none) (fun s => s) (fun s _ _ => s.timCheck i)
  else if o = R.QP_TRACE_EXP_LO.off ∨ o = R.QP_TRACE_EXP_HI.off then s.traceWord src r ix v
  else if o = R.QM_ID.off then s.qmIdWrite src none v
  else if o = R.QM_PRESENT.off then s.qmIdWrite src (some i) v
  else if o = R.QM_CTL.off then s.plainParam src r ix v (fun s _ _ => s.quillConfigure)
  else if o = R.CU_KEY_LOAD.off then s.keyLoadWrite src v
  else if isEm r then s.emWrite src r ix v
  else s.plainParam src r ix v (fun s _ _ => s)

/-- The waiting writes of the host to the parameter at `off` are overtaken by a dictionary write (R21): each is journalled
as superseded. -/
def State.supersede (s : State) (off : Nat) : State :=
  let loses := fun (w : ParamWrite) => w.src == .host && w.off == off
  let gone := s.jrn.pend.filter loses
  let s := { s with jrn := { s.jrn with pend := s.jrn.pend.filter (fun w => !loses w) } }
  match findReg s.cfg off with
  | some (r, ix) => foldS gone (fun w s => s.jrnEntry (srcNum .host) 1 0 off (s.regWord r ix) w.val) s
  | none => s

/-- A write to a journalled parameter at a register offset is applied. -/
def State.applyAt (s : State) (src : Src) (off v : Nat) (pair : Bool) : State :=
  match findReg s.cfg off with
  | some (r, ix) => s.applyParam src r ix v pair
  | none => s

/-- The entry written last. -/
def State.lastEntry (s : State) : Option JEntry :=
  let seq := (s.get R.HP_JRN_HEAD_seq + 2 ^ 32 - 1) % 2 ^ 32
  (s.jrn.primary.get? (seq % 16384)).orElse (fun _ => s.jrn.mirror.get? (seq % 16384)) |>.filter (fun e => e.seq == seq)

/-- The read-back of the entry written last fails in a copy (R503). -/
def State.readBack (s : State) (badP badM : Bool) : State :=
  match s.lastEntry with
  | none => s
  | some e =>
    let s := if badP then s.jrnCopyFault 0 e else s
    if badM then s.jrnCopyFault 1 e else s

/-- A management-cycle boundary: the oldest waiting write of the host and the oldest of the dictionary are applied; on one
parameter the dictionary's wins (R21, R502). -/
def State.boundary (s : State) (badP badM : Bool) : State :=
  let isHost := fun (w : ParamWrite) => w.src == .host
  let h := s.jrn.pend.find? isHost
  let d := s.jrn.pend.find? (fun w => !isHost w)
  let head := s.get R.HP_JRN_HEAD_seq
  let s := match h, d with
    | some a, some b =>
      if a.off = b.off then s.supersede a.off
      else { s with jrn := { s.jrn with pend := s.jrn.pend.eraseP isHost } }.applyAt a.src a.off a.val true
    | some a, none => { s with jrn := { s.jrn with pend := s.jrn.pend.eraseP isHost } }.applyAt a.src a.off a.val true
    | none, _ => s
  let s := match d with
    | some b => { s with jrn := { s.jrn with pend := s.jrn.pend.eraseP (fun w => !isHost w) } }.applyAt b.src b.off b.val true
    | none => s
  let s := if s.get R.HP_JRN_HEAD_seq = head then s else s.readBack badP badM
  s.unitsUpdate

/-! ### Other registers -/

/-- The registers written only over the management register path (R543). -/
def mgmtOnly (off : Nat) : Bool :=
  off == R.FB_REMAP.off || off == R.FB_PORT_RST.off || (decide (0x040080 ≤ off) && decide (off < 0x0400A0))
    || (decide (0x270000 ≤ off) && decide (off < 0x280000))

/-- Change the shadow calibration bank of a pipeline, which the host's windows write (R128). -/
def State.setShadow (s : State) (p : Nat) (f : CalBank → CalBank) : State :=
  let x := s.pipe p
  s.setPipe p (if s.get R.PP_CAL_SWAP_active [p] = 0 then { x with bank1 := f x.bank1 } else { x with bank0 := f x.bank0 })

/-- Both words of a pair that is no journalled parameter are written (R544). -/
def State.pairApply (s : State) (lo hi : RegSpec) (ix : List Nat) (v : Nat) : State :=
  let ol := s.regWord lo ix
  let vl := s.loHeld.get (lo.addr ix) ol
  (s.setRegWord lo ix (fieldsWrite ol vl lo.fields)).setRegWord hi ix (fieldsWrite (s.regWord hi ix) v hi.fields)

/-- PU_IRQ_EN: a cause that is already set raises pu_vec once its bit is enabled (R556). -/
def State.puIrqEn (s : State) (v : Nat) : State :=
  let old := s.get R.PU_IRQ_EN_en
  let s := s.put R.PU_IRQ_EN_en [] (v % 256)
  let fresh := (List.range 8).filter (fun c => bit v c && !bit old c && bit (s.get R.PU_IRQ_dir_chg) c)
  foldS fresh (fun _ s => s.irqItem (s.get R.HP_IRQ_MAP_pu_vec)) s

/-- An audit command (Table 16-6); boot flash takes the seal counter unless it is refused. -/
def State.audCmd (s : State) (src : Src) (k v : Nat) : State :=
  if !bit v 31 then s
  else match v % 4 with
    | 1 => s.audOpenCmd src k
    | 2 => s.audSealCmd src k true
    | 3 => s.audCloseCmd src k
    | _ => s

/-- The bank control words. -/
def isBankCtl (r : RegSpec) : Bool :=
  [R.PC_BANK_CTL_E.off, R.PC_BANK_CTL_P.off, R.PC_BANK_CTL_Q.off, R.PC_BANK_CTL_F.off, R.PC_BANK_CTL_D.off,
    R.PC_BANK_CTL_H.off].contains r.off

/-- A write to QM_DIST_CMD (Table 22-12): word 4 with go starts the distribution. -/
def State.distWord (s : State) (k v : Nat) : State :=
  let s := s.setRegWord R.QM_DIST_CMD [k] v
  if k = 4 ∧ bit v 31 then
    let w := fun i => s.regWord R.QM_DIST_CMD [i]
    s.distCmd (w 0 + (w 1 % 256) * 2 ^ 32) (w 2 + (w 3 % 256) * 2 ^ 32) (v % 2 ^ 29) (bits (w 1) 15 8) (bit (w 1) 16)
  else s

/-- A write to a register of the performance counters. -/
def State.pcWrite (s : State) (src : Src) (r : RegSpec) (ix : List Nat) (v : Nat) : State :=
  let off := r.addr ix
  let put := fun (s : State) => s.setRegWord r ix (fieldsWrite (s.regWord r ix) v r.fields)
  if isBankCtl r then s.bankCtlWrite off v
  else if cntWord off = some 1 then s.cntWrite off v
  else if (s.bankAt off).isSome ∧ off % 0x10 = 0 ∧ 0x10 ≤ off % 0x100 ∧ off % 0x100 < 0x90 then s.selWrite src off v
  else if r.off = R.PC_CTL.off then
    let s := put s
    if bit v 1 then s.pcClear src else s
  else if r.off = R.PC_SNAP_CTL.off then
    let s := put s
    { s with pc := { s.pc with lastInst := s.tt } }
  else if r.off = R.PC_SNAP_AT_HI.off then
    let s := s.pairApply R.PC_SNAP_AT_LO R.PC_SNAP_AT_HI [] v
    { s with pc := { s.pc with lastInst := s.tt } }
  else if r.off = R.PC_SNAP_CFG.off then s.pcRingWrite true false v
  else if r.off = R.PC_SNAP_BASE.off then s.pcRingWrite true true v
  else if r.off = R.PC_SMP_CFG.off then s.pcRingWrite false false v
  else if r.off = R.PC_SMP_BASE.off then s.pcRingWrite false true v
  else if r.off = R.PC_TAG_SEED.off then
    let s := put s
    { s with pc := { s.pc with lfsr := s.pc.lfsr.filterRows (fun k _ => k / 8 != ix.headD 0) } }
  else put s

/-- A write to a register that is no journalled parameter and lies outside the counters' space. -/
def State.otherWrite (s : State) (src : Src) (r : RegSpec) (ix : List Nat) (v : Nat) : State :=
  let o := r.off
  let i := ix.headD 0
  let k := ix.getD 1 0
  let put := fun (s : State) => s.setRegWord r ix (fieldsWrite (s.regWord r ix) v r.fields)
  if o = R.HP_EVQ_BASE_HI.off then s.ringWrite src .evqBase 0 v
  else if o = R.HP_EVQ_CFG.off then s.ringWrite src .evqCfg 0 v
  else if o = R.HP_CQ_BASE_HI.off then s.ringWrite src .cqBase i v
  else if o = R.HP_CQ_CFG.off then s.ringWrite src .cqCfg i v
  else if o = R.HP_SQ_BASE.off then s.ringWrite src .sqBase i v
  else if o = R.HP_SQ_CFG.off then s.ringWrite src .sqCfg i v
  else if o = R.HP_SQ_DB.off then s.doorbell i v
  else if o = R.HP_IRQ_STATUS.off then s.irqClear v
  else if o = R.TB_TT_LOAD_HI.off then s.ttLoad v
  else if o = R.PU_LOAD_HI.off then s.cntLoadWrite i v
  else if o = R.PU_IRQ_EN.off then s.puIrqEn v
  else if o = R.AU_CANCEL.off then s.auCancel (bits v 11 0) (bit v 31)
  else if o = R.AU_CANCEL_OUT.off then s.auCancelOut (bits v 6 0)
  else if o = R.AU_POST.off then (if i = 7 then s.auPost v else s.setRegWord r ix v)
  else if o = R.AU_MPOST.off then (if i = 7 then s.auMpost v else s.setRegWord r ix v)
  else if o = R.AU_WEAR_HI.off then
    (if s.flag R.AU_OUT_CFG_en [i] then s
     else (s.pairApply R.AU_WEAR_LO R.AU_WEAR_HI ix v).setOut i { s.out i with warned := false })
  else if o = R.AU_ONTIME.off then (if s.flag R.AU_OUT_CFG_en [i] then s else put s)
  else if o = R.PP_RING_CFG.off then s.camWrite src i .ringCfg v
  else if o = R.CX_CTRL_TX.off ∨ o = R.CX_CTRL_RX.off then s.ctrlBase r i v
  else if o = R.PP_DEC_SRC.off then s.decWrite src i .src v
  else if o = R.PP_CAL_SWAP.off then s.calSwap src i v
  else if o = R.PP_DEF_COUNT.off then s.setShadow i (fun b => if bits v 10 0 ≤ 1024 then { b with defCount := bits v 10 0 } else b)
  else if o = R.PP_RS_COUNT.off then
    s.setShadow i (fun b => if 2 ≤ bits v 6 0 ∧ bits v 6 0 ≤ 64 then { b with rsCount := bits v 6 0 } else b)
  else if o = R.PP_RS.off then s.setShadow i (fun b => { b with rs := b.rs.set k v })
  else if o = R.PP_DEF.off then s.setShadow i (fun b => { b with defs := b.defs.set k v })
  else if o = R.PP_CAL.off then s.setShadow i (fun b => { b with words := b.words.set k v })
  else if o = R.CR_SYNC.off then (if s.flag R.CR_CORE_CTL_en [i] then s else s.syncWrite i k v)
  else if o = R.DS_CANCEL.off then s.dsCancel src (bits v 7 0) (bits v 23 8) (bit v 31)
  else if o = R.DS_CANCEL_JOB.off then s.dsCancelJob src (bits v 11 0)
  else if o = R.FB_REMAP.off then s.remapWrite src v
  else if o = R.FB_PORT_RST.off then s.portReset src v
  else if o = R.QM_MEMBER_CMD.off then s.memberCmd v
  else if o = R.QM_DIST_CMD.off then s.distWord i v
  else if o = R.RG_AUD_CMD.off then s.audCmd src i v
  else if o = R.CU_OP_CTL.off then (if bit v 31 then s.cuStart src v else put s)
  else if o = R.CU_CTL.off then (if bit v 0 then s.cuPause 0 true else if bit v 1 then s.cuResume else s)
  else if o = R.CU_KEY_DATA.off then { s with cu := { s.cu with data := s.cu.data.set i v } }
  else if o = R.EM_VMON_STATUS.off then
    (let s' := put s
     if s.get R.EM_VMON_STATUS_fault = s'.get R.EM_VMON_STATUS_fault then s' else s'.supplyBack)
  else match loOf r with
    | some lo => s.pairApply lo r ix v
    | none => put s

/-- Some field of a register takes a write. -/
def writable (r : RegSpec) : Bool := r.fields.any (fun f => f.acc == .rw || f.acc == .wo || f.acc == .w1c)

/-- A register write by a source (R10, R11, R18, R49, R471, R543, R544): refused before CONTROL to the host; nothing where
its byte enables do not cover the word, where no instance exists, where the island is held, or where the register is not
the source's to write. A _LO word is held; a journalled parameter waits for the boundary. -/
def State.regWrite (s : State) (src : Src) (off v : Nat) (full : Bool) : State :=
  if s.hostShut src then s.hostAbandon
  else if !full then s
  else
    let off := off / 4 * 4
    let v := v % 2 ^ 32
    match findReg s.cfg off with
    | none => s
    | some (r, ix) =>
      if s.regHeld off || !writable r || (src == .host && mgmtOnly off) then s
      else if (hiOf r).isSome then { s with loHeld := s.loHeld.set off v }
      else if r.journalled then { s with jrn := { s.jrn with pend := s.jrn.pend ++ [{ off := off, val := v, src := src }] } }
      else if 0x300000 ≤ off ∧ off < 0x400000 then s.pcWrite src r ix v
      else s.otherWrite src r ix v

/-- JOURNALLED_PARAMETER_APPLY. -/
def execJournalledParameterApply (badPrimary badMirror : Bool) (s : State) : Host.Outcome State Fault Refusal :=
  .next (s.boundary badPrimary badMirror)

end Sys2Proof.Machine
end

