-- ==== Sys2Proof/Machine/Dict.lean ====
section
/-! DEFINITION. The object dictionary (chapter 21): its entries, what each reads, the checks of a download and how a value
is applied. -/

namespace Sys2Proof.Machine

/-! ### Entries (R514, R515) -/

/-- Access of an entry; `stopped` names the guard field of an rw-stopped entry by its register offset and bits [hi:lo]. -/
inductive DAcc where
  | ro | rw | wo
  | stopped (off hi lo : Nat)
  deriving DecidableEq, Repr

/-- What an entry shows. -/
inductive DSrc where
  /-- Bits [lo + 8 × size − 1 : lo] of a register word; a word entry has lo 0 and four bytes. -/
  | reg (off lo : Nat)
  /-- The field [hi:lo] of a register word in an entry that is wider than the field. -/
  | field (off hi lo : Nat)
  /-- A _LO and _HI pair; `width` is 48 for a value that is sign-extended from 48 bits, else 64. -/
  | pair (off width : Nat)
  /-- A value that the management plane keeps itself, by a number of the model's own. -/
  | own (k i : Nat)
  | const (v : Nat)
  | text (s : String)
  deriving DecidableEq, Repr

/-- An entry: its name, CoE data type, size in bytes, access and content. -/
structure DEnt where
  name : String
  ty : Nat
  size : Nat
  acc : DAcc
  src : DSrc
  deriving DecidableEq, Repr

/-- CoE data types (IEC 61158 Type 12; log 64). -/
def tBool : Nat := 1
def tI8 : Nat := 2
def tI16 : Nat := 3
def tI32 : Nat := 4
def tU8 : Nat := 5
def tU16 : Nat := 6
def tU32 : Nat := 7
def tStr : Nat := 9
def tOct : Nat := 10
def tI64 : Nat := 0x15
def tU64 : Nat := 0x1B

/-- A word entry. -/
def dWord (name : String) (acc : DAcc) (off : Nat) : DEnt := ⟨name, tU32, 4, acc, .reg off 0⟩

/-- A 16-bit entry on the low half of a register. -/
def dHalf (name : String) (acc : DAcc) (off : Nat) : DEnt := ⟨name, tU16, 2, acc, .reg off 0⟩

/-- The model's numbers of the values that the management plane keeps itself. -/
def oStatus : Nat := 1
def oEmcyMask : Nat := 2
def oDrain : Nat := 3
def oLifecycle : Nat := 4
def oRelease : Nat := 5
def oBurrowOpen : Nat := 6
def oBurrowSize : Nat := 7
def oMismatch : Nat := 8
def oFirst : Nat := 9
def oTt : Nat := 10
def oEmcyDropped : Nat := 11
def oError : Nat := 12
def oRevision : Nat := 13
def oSerial : Nat := 14
def oInput : Nat := 15
def oOutput : Nat := 16
def oFrozen : Nat := 17
def oCancel : Nat := 18
def oCancelJob : Nat := 19
def oCancelResult : Nat := 20
def oRecords : Nat := 21
def oEvents : Nat := 22
def oClass : Nat := 23
def oSent : Nat := 24
def oKeyData : Nat := 25
def oKeyLoad : Nat := 26
def oBoots : Nat := 27
def oAudCmd : Nat := 28
def oSeal : Nat := 29
def oCursor : Nat := 30
def oEntry : Nat := 31
def oFault : Nat := 32
def oSaved : Nat := 33
def oCfg : Nat := 34
def oHwVersion : Nat := 35
def oSwVersion : Nat := 36
def oVendor : Nat := 37
def oProduct : Nat := 38

/-- The objects with a subindex 0 alone. -/
def dictSingle (index : Nat) : Option DEnt :=
  match index with
  | 0x1000 => some ⟨"Device type", tU32, 4, .ro, .const 0⟩
  | 0x1001 => some ⟨"Error register", tU8, 1, .ro, .own oError 0⟩
  | 0x1008 => some ⟨"Device name", tStr, 13, .ro, .text "Wozonyx Tetia"⟩
  | 0x1009 => some ⟨"Hardware version", tStr, 0, .ro, .own oHwVersion 0⟩
  | 0x100A => some ⟨"Software version", tStr, 0, .ro, .own oSwVersion 0⟩
  | _ => none

/-- The highest subindex of an object that the configuration has (R514, R515, R19); none where there is no such object. -/
def dictTop (c : Cfg) (index : Nat) : Option Nat :=
  if (dictSingle index).isSome then some 0
  else if index = 0x1018 ∨ index = 0x1C00 then some 4
  else if index = 0x1C12 ∨ index = 0x1C13 then some 1
  else if index = 0x1600 ∨ index = 0x7000 then some 2
  else if index = 0x1A00 then some 0x0B
  else if index = 0x6000 then some 0x0A
  else if index = 0x2000 then some 0x15
  else if index = 0x2100 then some 0x1A
  else if index = 0x2200 then some 0x10
  else if 0x2200 < index ∧ index < 0x2200 + c.posChannels then some 9
  else if index = 0x2300 then some 0xD7
  else if index = 0x2301 then some 0x80
  else if 0x2400 ≤ index ∧ index < 0x2400 + c.camPipes then some 7
  else if 0x2500 ≤ index ∧ index < 0x2500 + c.quillPorts then some 8
  else if index = 0x2600 then some 0x5F
  else if index = 0x2601 ∨ (index = 0x2602 ∧ 128 < c.submitRings) then some 0x80
  else if index = 0x2700 then some 0x8F
  else if index = 0x2800 then some 0x21
  else if index = 0x2900 then some 0x5F
  else if index = 0x2F00 then some 8
  else if index = 0x3000 then some 15
  else none

/-- An entry in a run of `n` subindices from `lo`, of instances of which the configuration has `have`. -/
def inRun (sub lo have_ : Nat) : Bool := decide (lo ≤ sub ∧ sub < lo + have_)

/-- Table 21-1 and Table 21-2. -/
def dictComm (index sub : Nat) : Option DEnt :=
  let u32 := fun (v : Nat) => DEnt.mk "mapping" tU32 4 .ro (.const v)
  let inp := fun (name : String) (ty size at_ : Nat) => DEnt.mk name ty size .ro (.own oInput at_)
  match index, sub with
  | 0x1018, 1 => some ⟨"Vendor ID", tU32, 4, .ro, .own oVendor 0⟩
  | 0x1018, 2 => some ⟨"product code", tU32, 4, .ro, .own oProduct 0⟩
  | 0x1018, 3 => some ⟨"Revision number", tU32, 4, .ro, .own oRevision 0⟩
  | 0x1018, 4 => some ⟨"Serial number", tU32, 4, .ro, .own oSerial 0⟩
  | 0x1C12, 1 => some ⟨"RxPDO assign", tU16, 2, .ro, .const 0x1600⟩
  | 0x1C13, 1 => some ⟨"TxPDO assign", tU16, 2, .ro, .const 0x1A00⟩
  | 0x1600, 1 => some (u32 0x70000110)
  | 0x1600, 2 => some (u32 0x70000210)
  | 0x6000, 1 => some (inp "status" tU16 2 0)
  | 0x6000, 2 => some (inp "mhb_echo" tU16 2 2)
  | 0x6000, 3 => some (inp "tt_sample" tU64 8 4)
  | 0x6000, 4 => some (inp "tb_state" tU8 1 12)
  | 0x6000, 5 => some (inp "t_max" tI8 1 13)
  | 0x6000, 6 => some (inp "parts" tU32 4 16)
  | 0x6000, 7 => some (inp "rejects" tU32 4 20)
  | 0x6000, 8 => some (inp "defaults" tU32 4 24)
  | 0x6000, 9 => some (inp "events" tU32 4 28)
  | 0x6000, 10 => some (inp "page" tOct 16 32)
  | 0x7000, 1 => some ⟨"mhb", tU16, 2, .ro, .own oOutput 0⟩
  | 0x7000, 2 => some ⟨"tlm_sel", tU16, 2, .ro, .own oOutput 1⟩
  | _, _ =>
    if index = 0x1C00 ∧ inRun sub 1 4 then some ⟨"SyncManager types", tU8, 1, .ro, .const sub⟩
    else if index = 0x1A00 then
      ([0x60000110, 0x60000210, 0x60000340, 0x60000408, 0x60000508, 0x10, 0x60000620, 0x60000720, 0x60000820, 0x60000920,
        0x60000A80][sub - 1]?).map u32
    else none

/-- Table 21-4. -/
def dictStatus (c : Cfg) (sub : Nat) : Option DEnt :=
  match sub with
  | 0x01 => some (dWord "boot_status" .ro R.HP_BOOT_STATUS.off)
  | 0x02 => some ⟨"status", tU16, 2, .ro, .own oStatus 0⟩
  | 0x03 => some ⟨"emcy_mask", tU16, 2, .rw, .own oEmcyMask 0⟩
  | 0x04 => some ⟨"drain_s", tU16, 2, .rw, .own oDrain 0⟩
  | 0x05 => some ⟨"lifecycle", tU32, 4, .wo, .own oLifecycle 0⟩
  | 0x06 => some ⟨"lc_result", tU8, 1, .ro, .field R.HP_BOOT_STATUS.off 26 24⟩
  | 0x07 => some ⟨"fw_release", tU32, 4, .ro, .own oRelease 0⟩
  | 0x08 => some ⟨"rtl_release", tU16, 2, .ro, .reg R.HP_CFG3.off 16⟩
  | 0x09 => some ⟨"burrow_present", tU8, 1, .ro, .own oBurrowOpen 0⟩
  | 0x12 => some ⟨"mismatch_units", tU16, 2, .ro, .own oMismatch 0⟩
  | 0x13 => some ⟨"first_mismatch", tU16, 2, .ro, .own oFirst 0⟩
  | 0x14 => some ⟨"tt", tU64, 8, .ro, .own oTt 0⟩
  | 0x15 => some ⟨"emcy_dropped", tU32, 4, .ro, .own oEmcyDropped 0⟩
  | _ => if inRun sub 0x0A c.burrowPorts then some ⟨"burrow_size[p]", tU8, 1, .ro, .own oBurrowSize (sub - 0x0A)⟩ else none

/-- Table 21-5. -/
def dictTb (c : Cfg) (sub : Nat) : Option DEnt :=
  match sub with
  | 0x01 => some (dWord "ctl" .rw R.TB_CTL.off)
  | 0x02 => some (dHalf "slope" .rw R.TB_SLOPE.off)
  | 0x03 => some (dHalf "qual" .rw R.TB_QUAL.off)
  | 0x04 => some (dHalf "lock_win" .rw R.TB_LOCK_WIN.off)
  | 0x05 => some (dWord "hold_limit" .rw R.TB_HOLD_LIMIT.off)
  | 0x06 => some (dHalf "hold_drift" .rw R.TB_HOLD_DRIFT.off)
  | 0x07 => some ⟨"tick_phase", tI32, 4, .rw, .reg R.TB_TICK_PHASE.off 0⟩
  | 0x14 => some (dWord "status" .ro R.TB_STATUS.off)
  | 0x15 => some (dWord "ref_cause" .ro R.TB_REF_CAUSE.off)
  | 0x16 => some ⟨"phase_err", tI32, 4, .ro, .reg R.TB_PHASE_ERR.off 0⟩
  | 0x17 => some ⟨"rate", tI32, 4, .ro, .reg R.TB_RATE.off 0⟩
  | 0x18 => some (dWord "hold_est" .ro R.TB_HOLD_EST.off)
  | 0x19 => some ⟨"align_offset", tI32, 4, .ro, .reg R.TB_ALIGN_OFFSET.off 0⟩
  | 0x1A => some ⟨"tt", tU64, 8, .ro, .own oTt 0⟩
  | _ => if inRun sub 0x08 c.quillPorts then some ⟨"asym[p]", tI16, 2, .rw, .reg (R.TB_ASYM.addr [sub - 8]) 0⟩ else none

/-- Table 21-6. -/
def dictPu (ch sub : Nat) : Option DEnt :=
  let guard := DAcc.stopped (R.PU_CH_CTL.addr [ch]) 1 0
  match sub with
  | 0x01 => some (dWord "ch_ctl" guard (R.PU_CH_CTL.addr [ch]))
  | 0x02 => some (dWord "ssi" guard (R.PU_SSI.addr [ch]))
  | 0x03 => some (dWord "hyst" .rw (R.PU_HYST.addr [ch]))
  | 0x04 => some (dWord "idx_chk" .rw (R.PU_IDX_CHK.addr [ch]))
  | 0x05 => some (dHalf "still" .rw (R.PU_STILL.addr [ch]))
  | 0x06 => some ⟨"count", tI64, 8, .ro, .pair (R.PU_CNT_LO.addr [ch]) 48⟩
  | 0x07 => some ⟨"index", tI64, 8, .ro, .pair (R.PU_IDX_LO.addr [ch]) 48⟩
  | 0x08 => some ⟨"speed", tI32, 4, .ro, .reg (R.PU_SPEED.addr [ch]) 0⟩
  | 0x09 => some (dWord "status" .ro (R.PU_STATUS.addr [ch]))
  | 0x10 => if ch = 0 then some (dWord "global" .rw R.PU_GLOBAL.off) else none
  | _ => none

/-- Table 21-7. -/
def dictAu (c : Cfg) (index sub : Nat) : Option DEnt :=
  let n := c.actOutputs
  let guard := fun o => DAcc.stopped (R.AU_OUT_CFG.addr [o]) 0 0
  if index = 0x2300 then
    if sub = 1 then some (dWord "ctl" .rw R.AU_CTL.off)
    else if inRun sub 0x10 n then some (dWord "out_cfg[o]" .rw (R.AU_OUT_CFG.addr [sub - 0x10]))
    else if inRun sub 0x50 n then some (dWord "out_late[o]" .rw (R.AU_OUT_LATE.addr [sub - 0x50]))
    else if inRun sub 0x90 c.posChannels then some (dWord "guard[ch]" .rw (R.AU_GUARD.addr [sub - 0x90]))
    else if inRun sub 0x98 n then some (dWord "wear_warn[o]" .rw (R.AU_WEAR_WARN.addr [sub - 0x98]))
    else none
  else if inRun sub 1 n then some ⟨"wear[o]", tU64, 8, guard (sub - 1), .pair (R.AU_WEAR_LO.addr [sub - 1]) 64⟩
  else if inRun sub 0x41 n then
    some ⟨"ontime[o]", tU32, 4, guard (sub - 0x41), .reg (R.AU_ONTIME.addr [sub - 0x41]) 0⟩
  else none

/-- Table 21-8. -/
def dictCam (p sub : Nat) : Option DEnt :=
  let guard := DAcc.stopped (R.CX_CAM_CTL.addr [p]) 0 0
  match sub with
  | 1 => some (dWord "cam_ctl" guard (R.CX_CAM_CTL.addr [p]))
  | 2 => some (dWord "pp_ctl" guard (R.PP_CTL.addr [p]))
  | 3 => some (dWord "pp_stamp" guard (R.PP_STAMP.addr [p]))
  | 4 => some (dWord "pp_ring" guard (R.PP_RING.addr [p]))
  | 5 => some (dWord "cam_status" .ro (R.CX_CAM_STATUS.addr [p]))
  | 6 => some (dWord "prod" .ro (R.PP_PROD.addr [p]))
  | 7 => some (dWord "cons" .ro (R.PP_CONS.addr [p]))
  | _ => none

/-- Table 21-9. -/
def dictQp (p sub : Nat) : Option DEnt :=
  match sub with
  | 1 => some (dWord "ctl" .rw (R.QP_CTL.addr [p]))
  | 2 => some (dWord "ber" .rw (R.QP_BER.addr [p]))
  | 3 => some (dWord "trace_exp_lo" .rw (R.QP_TRACE_EXP_LO.addr [p]))
  | 4 => some (dWord "trace_exp_hi" .rw (R.QP_TRACE_EXP_HI.addr [p]))
  | 5 => some (dWord "deskew" (.stopped (R.QP_CTL.addr [p]) 0 0) (R.QP_DESKEW.addr [p]))
  | 6 => some (dWord "status" .ro (R.QP_STATUS.addr [p]))
  | 7 => some (dWord "trace_rx_lo" .ro (R.QP_TRACE_RX_LO.addr [p]))
  | 8 => some (dWord "trace_rx_hi" .ro (R.QP_TRACE_RX_HI.addr [p]))
  | _ => none

/-- Table 21-10. -/
def dictDs (c : Cfg) (sub : Nat) : Option DEnt :=
  match sub with
  | 0x01 => some (dWord "sched_ctl" .rw R.DS_SCHED_CTL.off)
  | 0x02 => some (dHalf "horizon_ms" .rw R.DS_HORIZON.off)
  | 0x03 => some (dHalf "backstop_ms" .rw R.DS_BACKSTOP.off)
  | 0x04 => some (dHalf "starve_ms" .rw R.DS_STARVE.off)
  | 0x05 => some ⟨"frozen_cancel_ms", tU16, 2, .rw, .own oFrozen 0⟩
  | 0x06 => some ⟨"cancel", tU32, 4, .wo, .own oCancel 0⟩
  | 0x07 => some ⟨"cancel_job", tU16, 2, .wo, .own oCancelJob 0⟩
  | 0x08 => some ⟨"cancel_result", tU8, 1, .ro, .own oCancelResult 0⟩
  | 0x09 => some (dWord "status" .ro R.DS_STATUS.off)
  | _ =>
    if inRun sub 0x20 c.cores then some (dWord "core_ctl[c]" .rw (R.CR_CORE_CTL.addr [sub - 0x20]))
    else if inRun sub 0x40 16 then some (dWord "rcp_ctl[r]" .rw (R.DS_RCP_CTL.addr [sub - 0x40]))
    else if inRun sub 0x50 16 then some (dWord "rcp_status[r]" .ro (R.DS_RCP_STATUS.addr [sub - 0x50]))
    else none

/-- Table 21-11. -/
def dictEm (c : Cfg) (sub : Nat) : Option DEnt :=
  match sub with
  | 0x01 => some (dWord "ctl" .rw R.EM_CTL.off)
  | 0x02 => some (dWord "cpm_cfg" .rw R.EM_CPM_CFG.off)
  | 0x03 => some (dWord "vrange" .rw R.EM_VRANGE.off)
  | 0x04 => some (dWord "therm_cfg" .rw R.EM_THERM_CFG.off)
  | 0x05 => some (dWord "tune_ctl" .rw R.EM_TUNE_CTL.off)
  | 0x58 => some (dWord "vmon_status" .ro R.EM_VMON_STATUS.off)
  | _ =>
    if inRun sub 0x10 c.cores then some ⟨"tgt_code[n]", tU8, 1, .rw, .field (R.EM_CORE_TGT.addr [sub - 0x10]) 6 0⟩
    else if inRun sub 0x30 4 then some (dWord "fan_cfg[f]" .rw (R.EM_FAN_CFG.addr [sub - 0x30]))
    else if inRun sub 0x34 4 then some (dHalf "tach_min[f]" .rw (R.EM_FAN_TACH.addr [sub - 0x34]))
    else if inRun sub 0x38 8 then some (dWord "vmon_cfg[m]" .rw (R.EM_VMON_CFG.addr [sub - 0x38]))
    else if inRun sub 0x40 16 then some (dWord "therm[s]" .ro (R.EM_THERM.addr [sub - 0x40]))
    else if inRun sub 0x50 4 then some (dWord "fan_status[f]" .ro (R.EM_FAN_STATUS.addr [sub - 0x50]))
    else if inRun sub 0x54 4 then some ⟨"rpm[f]", tU16, 2, .ro, .reg (R.EM_FAN_TACH.addr [sub - 0x54]) 16⟩
    else if inRun sub 0x60 8 then some (dHalf "vmon_val[m]" .ro (R.EM_VMON_VAL.addr [sub - 0x60]))
    else if inRun sub 0x70 c.cores then some (dWord "core_state[n]" .ro (R.EM_CORE_STATE.addr [sub - 0x70]))
    else none

/-- Table 21-12; the codes of the records that a count takes in, as a mask. -/
def dictCount (sub : Nat) : Option DEnt :=
  let cnt := fun (name : String) (k i : Nat) => some (DEnt.mk name tU32 4 .ro (.own k i))
  match sub with
  | 0x01 => cnt "parts" oRecords 0xFF
  | 0x02 => cnt "rejects" oRecords 0x02
  | 0x03 => cnt "defaults" oRecords 0x1C
  | 0x04 => cnt "default_deadline" oRecords 0x04
  | 0x05 => cnt "default_refused" oRecords 0x08
  | 0x06 => cnt "default_input" oRecords 0x10
  | 0x07 => cnt "hold" oRecords 0x20
  | 0x08 => cnt "events" oEvents 0
  | 0x20 => cnt "emcy_sent" oSent 0
  | 0x21 => cnt "emcy_dropped" oEmcyDropped 0
  | _ => if inRun sub 0x11 11 then cnt "class" oClass (sub - 0x10) else none

/-- Table 21-13. -/
def dictCu (sub : Nat) : Option DEnt :=
  match sub with
  | 0x01 => some ⟨"key_data", tOct, 32, .wo, .own oKeyData 0⟩
  | 0x02 => some ⟨"key_load", tU32, 4, .wo, .own oKeyLoad 0⟩
  | 0x03 => some ⟨"boot_count", tU32, 4, .ro, .own oBoots 0⟩
  | 0x04 => some ⟨"key_ok", tBool, 1, .ro, .field R.HP_BOOT_STATUS.off 7 7⟩
  | _ =>
    let k := (sub - 0x30) / 8
    if inRun sub 0x10 16 then some (dWord "key_info[s]" .ro (R.CU_KEY_INFO.addr [sub - 0x10]))
    else if inRun sub 0x20 16 then some (dWord "kcv[s]" .ro (R.CU_KEY_KCV.addr [sub - 0x20]))
    else if inRun sub 0x50 16 then some ⟨"seal_ctr[s]", tU64, 8, .ro, .own oSeal (sub - 0x50)⟩
    else if inRun sub 0x30 32 then
      match sub % 8 with
      | 0 => some ⟨"pkg[k]", tU64, 8, .rw, .pair (R.RG_AUD_PKG_LO.addr [k]) 64⟩
      | 1 => some ⟨"region[k]", tU64, 8, .rw, .pair (R.RG_AUD_REGION_LO.addr [k]) 64⟩
      | 2 => some ⟨"out[k]", tU64, 8, .rw, .pair (R.RG_AUD_OUT_LO.addr [k]) 64⟩
      | 3 => some ⟨"aud_cmd[k]", tU8, 1, .wo, .own oAudCmd k⟩
      | 4 => some ⟨"aud_status[k]", tU8, 1, .ro, .reg (R.RG_AUD_STATUS.addr [k]) 0⟩
      | 5 => some ⟨"aud_id[k]", tU64, 8, .ro, .pair (R.RG_AUD_ID_LO.addr [k]) 64⟩
      | _ => none
    else none

/-- Table 21-14. -/
def dictJrn (sub : Nat) : Option DEnt :=
  match sub with
  | 1 => some (dWord "head" .ro R.HP_JRN_HEAD.off)
  | 2 => some ⟨"copy", tU8, 1, .ro, .field R.HP_JRN_STATUS.off 1 0⟩
  | 3 => some ⟨"fault_valid", tBool, 1, .ro, .field R.HP_JRN_STATUS.off 2 2⟩
  | 4 => some (dWord "unjournalled" .ro R.HP_JRN_UNJ.off)
  | 5 => some ⟨"read_seq", tU32, 4, .rw, .own oCursor 0⟩
  | 6 => some ⟨"entry", tOct, 32, .ro, .own oEntry 0⟩
  | 7 => some ⟨"fault_entry", tOct, 32, .ro, .own oFault 0⟩
  | 8 => some ⟨"checkpoint_seq", tU32, 4, .ro, .own oSaved 0⟩
  | _ => none

/-- An entry of an object that exists, at a subindex other than 0, or the one of a single-value object. -/
def dictEnt (c : Cfg) (index sub : Nat) : Option DEnt :=
  match dictSingle index with
  | some e => if sub = 0 then some e else none
  | none =>
    if sub = 0 then (dictTop c index).map (fun n => ⟨"highest subindex", tU8, 1, .ro, .const n⟩)
    else if index = 0x2000 then dictStatus c sub
    else if index = 0x2100 then dictTb c sub
    else if 0x2200 ≤ index ∧ index < 0x2200 + c.posChannels then dictPu (index - 0x2200) sub
    else if index = 0x2300 ∨ index = 0x2301 then dictAu c index sub
    else if 0x2400 ≤ index ∧ index < 0x2400 + c.camPipes then dictCam (index - 0x2400) sub
    else if 0x2500 ≤ index ∧ index < 0x2500 + c.quillPorts then dictQp (index - 0x2500) sub
    else if index = 0x2600 then dictDs c sub
    else if index = 0x2601 then
      (if inRun sub 1 (min 128 c.submitRings) then some (dWord "ring_ctl[r]" .rw (R.DS_RING_CTL.addr [sub - 1])) else none)
    else if index = 0x2602 then
      (if inRun sub 1 (c.submitRings - 128) then some (dWord "ring_ctl[r]" .rw (R.DS_RING_CTL.addr [sub + 127])) else none)
    else if index = 0x2700 then dictEm c sub
    else if index = 0x2800 then dictCount sub
    else if index = 0x2900 then dictCu sub
    else if index = 0x2F00 then dictJrn sub
    else if index = 0x3000 then (if inRun sub 1 15 then some ⟨"WX parameter", tU16, 2, .ro, .own oCfg sub⟩ else none)
    else dictComm index sub

/-- The present subindices of an object from `lo`, ascending. -/
def dictSubs (c : Cfg) (index lo : Nat) : List Nat :=
  match dictTop c index with
  | none => []
  | some n => (List.range' lo (n + 1 - lo)).filter (fun k => (dictEnt c index k).isSome)

/-! ### What an entry reads (R518) -/

/-- The word that a register shows at an offset, with no effect of the read. -/
def State.peek (s : State) (off : Nat) : Nat :=
  match findReg s.cfg off with
  | some (r, ix) => s.view r ix
  | none => 0

/-- Decimal digits of a number. -/
def decimal (n : Nat) : List Byte := (toString n).toList.map (fun c => BitVec.ofNat 8 c.toNat)

/-- Numbers in decimal with points between. -/
def dotted : List Nat → List Byte
  | [] => []
  | [n] => decimal n
  | n :: t => decimal n ++ 0x2E#8 :: dotted t

/-- Firmware runs: the phase is neither ROM nor HALTED, and nothing holds the management island. -/
def State.fwRuns (s : State) : Bool := s.phase != 1 && s.phase != 15 && !s.por && !s.warm && !s.heldIsl.contains 54

/-- The firmware release, 0 in phases 1 and 15. -/
def State.release (s : State) : Nat := if s.fwRuns then s.boot.release else 0

/-- The input image's status word (Table 20-4). -/
def State.statusWord (s : State) : Nat :=
  let copy := s.get R.HP_JRN_STATUS_copy
  let q := s.unitObs 54
  s.phase + 2 ^ 4 * b2n (!s.mismatches.isEmpty) + 2 ^ 5 * b2n (s.flag R.HP_JRN_STATUS_fault_valid)
    + 2 ^ 6 * b2n (copy == 3) + 2 ^ 7 * b2n (s.get R.EM_VMON_STATUS_fault != 0) + 2 ^ 8 * b2n s.env.crit
    + 2 ^ 9 * b2n ((List.range 4).any (fun f => s.get R.EM_FAN_STATUS_state [f] == 3))
    + 2 ^ 10 * b2n (q == uDegraded || q == uFault) + 2 ^ 11 * b2n s.mgmtHalted

/-- The error register 0x1001 (Table 20-6, byte 2). -/
def State.errorReg (s : State) : Nat :=
  let down := s.flag R.QM_CTL_en && s.dimsPresent.any (fun i => !s.flag R.QM_DIM_STATUS_up [i])
  let v := 2 ^ 2 * b2n (s.get R.EM_VMON_STATUS_fault != 0) + 2 ^ 3 * b2n s.env.crit + 2 ^ 4 * b2n down
    + 2 ^ 7 * b2n (s.flag R.HP_JRN_STATUS_fault_valid || !s.mismatches.isEmpty)
  v + b2n (v != 0)

/-- Part records whose code is in a mask. -/
def State.partRecords (s : State) (mask : Nat) : Nat :=
  ((List.range 8).map (fun c => if bit mask c then s.ecat.records.get c 0 else 0)).foldl (· + ·) 0 % 2 ^ 32

/-- The serial number (R521). -/
def State.serial (s : State) : Nat :=
  if !s.flag R.HP_BOOT_STATUS_key_ok then 0
  else
    let ks := cmac (beBytes 32 Config.deviceKey.toNat) ([0x4B#8, 0x53#8] ++ List.replicate 14 0#8)
    beVal ((cmac ks ([0x53#8, 0x4E#8] ++ List.replicate 14 0#8)).take 4)

/-- The WX_ parameters in the order of Table 2-2, then rtl_release (R41). -/
def cfgList (c : Cfg) : List Nat :=
  [c.cores, c.macDim, c.scratchKib, c.hoardMib, c.camPipes, c.cxpLanes, c.quillPorts, c.burrowPorts, c.posChannels,
    c.actOutputs, c.ringLanes, c.submitRings, c.partSlots, c.eventTable, c.rtlRelease]

/-- The value of an entry that the management plane keeps itself, in its size. -/
def State.ownValue (s : State) (k i size : Nat) : List Byte :=
  let num := leBytes size
  let rel := s.release
  if k = oStatus then num s.statusWord
  else if k = oEmcyMask then num s.emcyMask
  else if k = oDrain then num s.boot.drain
  else if k = oRelease then num rel
  else if k = oBurrowOpen then num ((List.range 8).foldl (fun a p => a + b2n (s.burrowOpen p) * 2 ^ p) 0)
  else if k = oBurrowSize then
    num (if s.flag R.FB_BRW_STATUS_phy_ready [i] then s.get R.FB_BRW_STATUS_size_in [i] else 0)
  else if k = oMismatch then num s.mismatches.length
  else if k = oFirst then num (s.mismatches.headD 0xFFFF)
  else if k = oTt then num s.tt
  else if k = oEmcyDropped then num s.ev.dropped
  else if k = oError then num s.errorReg
  else if k = oRevision then num (rel / 2 ^ 16 + s.cfg.rtlRelease * 2 ^ 16)
  else if k = oSerial then num s.serial
  else if k = oVendor then num Config.vendorId.toNat
  else if k = oProduct then num Config.productCode.toNat
  else if k = oInput then (List.range size).map (fun j => s.ecat.image.getD (i + j) 0)
  else if k = oOutput then num (if i = 0 then s.ecat.mhb else s.ecat.tlmSel)
  else if k = oFrozen then num s.ds.frozenMs
  else if k = oCancelResult then num s.ecat.cancelResult
  else if k = oRecords then num (s.partRecords i)
  else if k = oEvents then num s.ev.posted
  else if k = oClass then num (s.ev.classes.get i 0)
  else if k = oSent then num s.ev.sent
  else if k = oBoots then num s.cu.boot
  else if k = oSeal then num (s.aud.sealCtr.get i 0)
  else if k = oCursor then num s.ecat.cursor
  else if k = oEntry then
    (match s.jrnAt s.ecat.cursor with
     | some e => leBytes 32 e.encode
     | none => num 0)
  else if k = oFault then (List.range 8).flatMap (fun w => leBytes 4 (s.regWord R.HP_JRN_FAULT [w]))
  else if k = oSaved then num ((s.jrn.saved + 2 ^ 32 - 1) % 2 ^ 32)
  else if k = oCfg then num ((cfgList s.cfg).getD (i - 1) 0)
  else if k = oHwVersion then dotted [s.cfg.rtlRelease / 2 ^ 8, s.cfg.rtlRelease % 2 ^ 8]
  else if k = oSwVersion then dotted [rel / 2 ^ 24, rel / 2 ^ 16 % 2 ^ 8, rel % 2 ^ 16]
  else num 0

/-- The bytes that an entry reads; a wo entry reads zeros (R519). -/
def State.dictRead (s : State) (e : DEnt) : List Byte :=
  if e.acc = .wo then List.replicate e.size 0
  else match e.src with
    | .reg off lo => leBytes e.size (s.peek off / 2 ^ lo)
    | .field off hi lo => leBytes e.size (bits (s.peek off) hi lo)
    | .pair off w =>
      let v := s.peek off + s.peek (off + 4) * 2 ^ 32
      leBytes e.size (if w = 48 then wrapInt 64 (signedOf 48 (v % 2 ^ 48)) else v)
    | .own k i => s.ownValue k i e.size
    | .const v => leBytes e.size v
    | .text t => t.toList.map (fun c => BitVec.ofNat 8 c.toNat)

/-! ### The checks of a download (R496, R515, R516) -/

/-- The bits of a word that its rw fields cover. -/
def fieldMask : List FieldSpec → Nat
  | [] => 0
  | f :: fs => (if f.acc = .rw then (2 ^ (f.hi + 1 - f.lo) - 1) * 2 ^ f.lo else 0) ||| fieldMask fs

/-- The word keeps every field in range and every reserved bit 0. -/
def wordOk (fs : List FieldSpec) (v : Nat) : Bool := !anyOutOfRange v fs && (v ||| fieldMask fs) == fieldMask fs

/-- The register word that a download of `v` to a register entry gives. -/
def State.dictWord (s : State) (e : DEnt) (off v : Nat) : Nat :=
  match e.src with
  | .field _ hi lo => setBits (s.peek off) hi lo v
  | _ => if e.size = 4 then v else setBits (s.peek off) (8 * e.size - 1) 0 v

/-- A field that is narrower than its entry, or than its register's rw fields, takes the value. -/
def fieldFits (r : RegSpec) (lo v : Nat) : Bool :=
  r.fields.any (fun f => f.lo == lo && f.inRange v && decide (v < 2 ^ (f.hi + 1 - f.lo)))

/-- A value lies in its entry's range (R515). -/
def State.dictRangeOk (s : State) (e : DEnt) (v : Nat) : Bool :=
  match e.src with
  | .reg off lo =>
    (match findReg s.cfg off with
     | some (r, _) =>
       if r.off = R.TB_TICK_PHASE.off then decide (-500000 ≤ signedOf 32 v ∧ signedOf 32 v ≤ 499999)
       else if r.off = R.TB_CTL.off then wordOk r.fields v && !(bits v 3 2 == 2 && s.cfg.quillPorts == 0)
       else if e.size = 4 then wordOk r.fields v
       else fieldFits r lo v
     | none => false)
  | .field off _ lo =>
    (match findReg s.cfg off with
     | some (r, _) => fieldFits r lo v
     | none => false)
  | .pair off _ =>
    (match findReg s.cfg off, findReg s.cfg (off + 4) with
     | some (l, _), some (h, _) => wordOk l.fields (v % 2 ^ 32) && wordOk h.fields (v / 2 ^ 32)
     | _, _ => false)
  | .own k _ =>
    if k = oEmcyMask then (v ||| 0x0FFE) == 0x0FFE
    else if k = oDrain then decide (1 ≤ v ∧ v ≤ 600)
    else if k = oKeyLoad then bit v 31 && decide (v % 2 ^ 31 < 2 ^ 9)
    else if k = oAudCmd then decide (1 ≤ v ∧ v ≤ 3)
    else if k = oCancel then decide (v % 2 ^ 31 < 2 ^ 24)
    else if k = oCancelJob then decide (v < 2 ^ 12)
    else true
  | _ => false

/-- An entry is a journalled entry: every rw and rw-stopped entry is, but for the wear counters (R528), the audit addresses
(R535) and the cursor (R517). -/
def isJournalled (index : Nat) (e : DEnt) : Bool :=
  (match e.acc with
   | .rw => true
   | .stopped _ _ _ => true
   | _ => false) && index != 0x2301 && index != 0x2900 && index != 0x2F00

/-- R516 lets a download pass: the guard is 0, or nothing but the guard field changes. -/
def State.guardOk (s : State) (e : DEnt) (v : Nat) : Bool :=
  match e.acc with
  | .stopped off hi lo =>
    let own := match e.src with
      | .reg o _ => o == off
      | _ => false
    let old := leVal (s.dictRead e)
    let same := if own then setBits old hi lo 0 == setBits v hi lo 0 else old == v
    bits (s.peek off) hi lo == 0 || same
  | _ => true

/-- The download would set an en of a data-plane block, or run, in STOPPED (R480). -/
def State.stopOk (s : State) (e : DEnt) (v : Nat) : Bool :=
  match e.src with
  | .reg off _ => !(s.phase == 14 && isEnable off && !bit (s.peek off) 0 && bit v 0)
  | _ => true

/-! ### Applying a value -/

/-- Give the journal entries of `src` written since `head` the dictionary's `where` and the entry's values (R502). -/
def State.relocate (s : State) (head : Nat) (src : Src) (loc old new : Nat) : State :=
  let n := (s.get R.HP_JRN_HEAD_seq + 2 ^ 32 - head) % 2 ^ 32
  let mine := fun (e : JEntry) => decide ((e.seq + 2 ^ 32 - head) % 2 ^ 32 < n) && e.source == srcNum src && !e.command
  let fix := fun (_ : Nat) (e : JEntry) => if mine e then { e with loc := loc, old := old, new := new } else e
  let s : State := { s with jrn := { s.jrn with primary := s.jrn.primary.mapVals fix, mirror := s.jrn.mirror.mapVals fix } }
  let seq : Nat := s.regWord R.HP_JRN_FAULT [0]
  if s.get R.HP_JRN_STATUS_copy = 3 ∧ (seq + 2 ^ 32 - head) % 2 ^ 32 < n then
    ((s.setRegWord R.HP_JRN_FAULT [4] loc).setRegWord R.HP_JRN_FAULT [5] old).setRegWord R.HP_JRN_FAULT [6] new
  else s

/-- The entry written last was a refusal: its 256 bits stand in a copy or, unjournalled, in the fault registers. -/
def State.lastRefused (s : State) : Bool :=
  if s.get R.HP_JRN_STATUS_copy = 3 then bits (s.regWord R.HP_JRN_FAULT [3]) 7 4 == 2
  else match s.lastEntry with
    | some e => e.status == 2
    | none => false

/-- Journal a refusal of a dictionary entry. -/
def State.dictRefuse (s : State) (src : Src) (index sub cause old v : Nat) : State :=
  s.jrnEntry (srcNum src) 2 cause (dictLoc index sub) old v

/-- A value that the management plane keeps itself is written and journalled where its entry is. -/
def State.ownWrite (s : State) (src : Src) (index sub : Nat) (e : DEnt) (k i v : Nat) (bytes : List Byte) : State :=
  let old := leVal (s.dictRead e)
  let s : State :=
    if k = oEmcyMask then { s with emcyMask := v }
    else if k = oDrain then { s with boot := { s.boot with drain := v } }
    else if k = oFrozen then { s with ds := { s.ds with frozenMs := v } }
    else if k = oCursor then { s with ecat := { s.ecat with cursor := v } }
    else if k = oKeyData then { s with ecat := { s.ecat with keyData := bytes } }
    else if k = oKeyLoad then
      let key := if bit v 8 then none else some (s.ecat.keyData.take (if bit v 4 then 32 else 16))
      let t := s.setKey src (v % 16) (bits v 7 5) (b2n (bit v 4)) key v
      { t with ecat := { t.ecat with keyData := List.replicate 32 0 } }
    else if k = oAudCmd then s.audCmd src i (v + 2 ^ 31)
    else if k = oCancel then
      let t := s.dsCancel .fw (bits v 7 0) (bits v 23 8) (bit v 31)
      { t with ecat := { t.ecat with cancelResult := t.get R.DS_CANCEL_RESULT_result } }
    else if k = oCancelJob then
      let t := s.dsCancelJob .fw v
      { t with ecat := { t.ecat with cancelResult := t.get R.DS_CANCEL_RESULT_result } }
    else s
  if isJournalled index e then s.jrnEntry (srcNum src) 0 0 (dictLoc index sub) old v else s

/-- Apply a checked value of a dictionary entry (R496, R517); firmware's bring-up writes keep the register's `where`. -/
def State.dictApply (s : State) (src : Src) (index sub : Nat) (e : DEnt) (bytes : List Byte) : State :=
  let v := leVal bytes
  let old := leVal (s.dictRead e)
  let head := s.get R.HP_JRN_HEAD_seq
  match e.src with
  | .own k i => s.ownWrite src index sub e k i v bytes
  | .pair off _ =>
    (match findReg s.cfg (off + 4) with
     | some (r, ix) =>
       { s with loHeld := s.loHeld.set off (v % 2 ^ 32) }.otherWrite src r ix (v / 2 ^ 32)
     | none => s)
  | .reg off _ =>
    if isJournalled index e then
      let s := (s.supersede off).applyAt src off (s.dictWord e off v) false
      if src = .sdo then s.relocate head src (dictLoc index sub) old v else s
    else
      (match findReg s.cfg off with
       | some (r, ix) => s.otherWrite src r ix v
       | none => s)
  | .field off _ _ =>
    let s := (s.supersede off).applyAt src off (s.dictWord e off v) false
    if src = .sdo then s.relocate head src (dictLoc index sub) old v else s
  | _ => s

/-- A key load or clear was refused (R536), or a block refused the value (R496). -/
def State.dictRefused (s : State) (head : Nat) : Bool := s.get R.HP_JRN_HEAD_seq != head && s.lastRefused

/-! ### The parameter store (R477) -/

/-- The parameters of the store in force: the copy with the higher sequence number. -/
def Flash.params (f : Flash) : Option (List Param) :=
  match f.par0, f.par1 with
  | some a, some b => some (if a.1 < b.1 then b.2 else a.2)
  | some a, none => some a.2
  | none, some b => some b.2
  | none, none => none

/-- The value that an entry has at reset. -/
def DEnt.resetVal (c : Cfg) (e : DEnt) : Nat :=
  let word := fun (off : Nat) => (match findReg c off with
    | some (r, ix) => resetWord c r ix
    | none => 0 : Nat)
  match e.src with
  | .reg off lo => word off / 2 ^ lo % 2 ^ (8 * e.size)
  | .field off hi lo => bits (word off) hi lo
  | .own k _ => if k = oEmcyMask then 0x0FFE else if k = oDrain then 30 else 0
  | _ => 0

/-- The store in force holds a value of an object. -/
def State.objectStored (s : State) (index : Nat) : Bool :=
  s.boot.flash.params.any (fun l => l.any (fun p => p.index == index))

/-- Firmware writes one entry at bring-up: its stored value where it takes that, else its reset value unless it holds it
already (R477). -/
def State.restoreEntry (s : State) (index k : Nat) : State :=
  match dictEnt s.cfg index k with
  | none => s
  | some e =>
    let stored := s.boot.flash.params.bind (fun l => l.find? (fun p => p.index == index && p.sub == k))
    if e.acc = .ro ∨ e.acc = .wo then s
    else match stored with
      | some p => if s.dictRangeOk e p.value then s.dictApply .fw index k e (leBytes e.size p.value) else s
      | none =>
        let v := e.resetVal s.cfg
        if leVal (s.dictRead e) = v then s else s.dictApply .fw index k e (leBytes e.size v)

/-- PARAM_STORE_FAULT for an object that a good store does not hold (R477). -/
def State.storeAbsent (s : State) (index : Nat) : State :=
  if s.boot.flash.params.isSome && !s.objectStored index then s.post E.PARAM_STORE_FAULT none [(.val, 0xA0000), (.en, 2)]
  else s

/-- Firmware writes the entries of an object that pass, ascending, subindex 1 last. -/
def State.restoreSubs (s : State) (index : Nat) (p : Nat → Bool) : State :=
  foldS ((dictSubs s.cfg index 2 ++ [1]).filter p) (fun k s => s.restoreEntry index k) s

/-- Firmware writes an object at bring-up. -/
def State.restoreObject (s : State) (index : Nat) : State := (s.storeAbsent index).restoreSubs index (fun _ => true)

end Sys2Proof.Machine
end

