-- ==== Sys2Proof/Machine/Background.lean ====
section
/-! DEFINITION. Checkpoints to boot flash and the sweeps of the journal and of working SRAM (chapter 24). -/

namespace Sys2Proof.Machine

/-! ### The checkpoint log (R590, R593) -/

def State.log (s : State) : CkLog := s.boot.flash.log
def State.setLog (s : State) (l : CkLog) : State :=
  { s with boot := { s.boot with flash := { s.boot.flash with log := l } } }

/-- The sectors of the log: from 0x0E_0000 to the end of flash (Table 19-2). -/
def State.logSectors (s : State) : Nat := (s.boot.flash.size - 0xE0000) / 4096

/-- The sectors that are not retired. -/
def State.usableSectors (s : State) : Nat := s.logSectors - s.log.retired.length

/-- Erase the next usable sector and open it. A sector whose erase count reaches 100,000 is retired and passed over. -/
def State.openSector (s : State) : Nat → State
  | 0 => s
  | fuel + 1 =>
    let l := s.log
    let n := s.logSectors
    if s.usableSectors = 0 then s
    else
      let k := if l.used = 0 ∧ l.cur = 0 ∧ l.secSeq = 0 then 0 else (l.cur + 1) % n
      if l.retired.contains k then (s.setLog { l with cur := k, used := 4096, secSeq := max 1 l.secSeq }).openSector fuel
      else
        let c := l.erases.get k 0 + 1
        let recs := l.recs.filter (fun r => !r.sectors.contains k)
        let l := { l with cur := k, erases := l.erases.set k c, recs := recs, secSeq := l.secSeq + 1, used := 16 }
        if 100000 ≤ c then
          let l := { l with retired := l.retired ++ [k], used := 4096 }
          ((s.setLog l).post E.FLASH_WEAR none [(.ix, k), (.val, c), (.val, l.retired.length)]).openSector fuel
        else s.setLog l

/-- Place `n` bytes from the place after the last record; the sectors that they lie in. -/
def State.place (s : State) (n : Nat) (acc : List Nat) : Nat → List Nat × State
  | 0 => (acc, s)
  | fuel + 1 =>
    let l := s.log
    let room := if l.used = 0 then 0 else 4096 - l.used
    if n = 0 then (acc, s)
    else if room = 0 then (s.openSector (s.logSectors + 1)).place n acc fuel
    else
      let k := min room n
      (s.setLog { l with used := l.used + k }).place (n - k) (acc ++ [l.cur]) fuel

/-- The byte address of a sector of the log. -/
def sectorAddr (k : Nat) : Nat := 0xE0000 + 4096 * k

/-- One attempt to write a record of `n` bytes: it stands when its read-back is good; else FLASH_FAULT (operation 2,
program) and the rest of its sector is left. -/
def State.tryRecord (s : State) (r : CkRec) (n : Nat) (ok : Bool) : Bool × State :=
  let p := s.place n [] (2 * (n / 4080) + 4)
  let l := p.2.log
  if ok then (true, p.2.setLog { l with recs := l.recs ++ [{ r with sectors := p.1 }], recSeq := l.recSeq + 1 })
  else (false, (p.2.setLog { l with used := 4096 }).post E.FLASH_FAULT none [(.val, sectorAddr l.cur), (.en, 2)])

/-- Write a record; a failed read-back is retried once, in the next sector (R599). -/
def State.writeRecord (s : State) (kind first count : Nat) (payload : List Byte) (ok1 ok2 : Bool) : Bool × State :=
  if s.usableSectors = 0 then (false, s)
  else
    let r : CkRec :=
      { kind := kind, seq := s.log.recSeq, tt := s.tt, first := first, count := count, payload := payload, sectors := [] }
    let n := 64 + payload.length + 4
    let a := s.tryRecord r n ok1
    if a.1 then a else a.2.tryRecord r n ok2

/-- The newest record of a kind. -/
def CkLog.newest (l : CkLog) (kind : Nat) : Option CkRec :=
  l.recs.foldl (fun a r => if r.kind ≠ kind then a else match a with
    | some b => if b.seq ≤ r.seq then some r else a
    | none => some r) none

/-! ### Wear checkpoints (R592) -/

/-- The payload: actuation count and on-time of every output. -/
def State.wearBytes (s : State) : List Byte :=
  (List.range s.cfg.actOutputs).flatMap (fun o =>
    let s := s.onTime o
    leBytes 8 (s.pair R.AU_WEAR_LO R.AU_WEAR_HI [o]) ++ leBytes 4 (s.regWord R.AU_ONTIME [o]))

/-- A wear checkpoint was attempted: its time, and what it wrote if it is safe. -/
def State.wearDone (s : State) (w : List Byte) (safe : Bool) : State :=
  { s with boot := { s.boot with wearTt := s.tt, wear := if safe then w else s.boot.wear } }

/-- Write a wear checkpoint. -/
def State.wearWrite (s : State) (ok1 ok2 : Bool) : State :=
  let w := s.wearBytes
  let age := (s.tt - s.boot.wearTt) / 1000000000
  let s := if s.usableSectors = 0 then s.post E.CHECKPOINT_LATE none [(.en, 2), (.val, age)] else s
  let r := s.writeRecord 2 0 s.cfg.actOutputs w ok1 ok2
  r.2.wearDone w r.1

/-- WEAR_CHECKPOINT: every 600 s in which a wear counter has changed. -/
def State.wearCheckpoint (s : State) (ok1 ok2 : Bool) : State :=
  if s.tt < s.boot.wearTt + 600000000000 then s
  else if s.wearBytes = s.boot.wear then { s with boot := { s.boot with wearTt := s.tt } }
  else s.wearWrite ok1 ok2

/-- The sector that holds the newest wear checkpoint is among the next `n` of the ring. -/
def State.wearAhead (s : State) (n : Nat) : Bool :=
  match s.log.newest 2 with
  | none => false
  | some r => r.sectors.any (fun k => decide ((k + s.logSectors - s.log.cur) % s.logSectors ≤ n) && k != s.log.cur)

/-! ### Journal checkpoints (R591) -/

/-- The entry of a seq in the copy in use, whether or not it is the newest there. -/
def State.unsaved (s : State) : List JEntry :=
  let head := s.get R.HP_JRN_HEAD_seq
  let n := min 16384 ((head + 2 ^ 32 - s.jrn.saved) % 2 ^ 32)
  (List.range n).filterMap (fun i => s.jrnAt ((head + 2 ^ 32 - n + i) % 2 ^ 32))

/-- The number of unsaved entries, those overwritten among them. -/
def State.unsavedCount (s : State) : Nat := (s.get R.HP_JRN_HEAD_seq + 2 ^ 32 - s.jrn.saved) % 2 ^ 32

/-- Every journal entry written so far is in a checkpoint. -/
def State.journalSaved (s : State) : State := { s with jrn := { s.jrn with saved := s.get R.HP_JRN_HEAD_seq } }

/-- Write the unsaved entries. Below 64 usable sectors the checkpoint is missed (R593). -/
def State.journalWrite (s : State) (ok1 ok2 : Bool) : State :=
  let l := s.unsaved
  let s := { s with boot := { s.boot with jrnTt := some s.tt } }
  if s.get R.HP_JRN_STATUS_copy = 3 then s
  else if s.usableSectors < 64 then
    let age := match l with
      | e :: _ => (s.tt - e.tt) / 1000000000
      | [] => 0
    s.post E.CHECKPOINT_LATE none [(.en, 1), (.val, age)]
  else
    let payload := l.flatMap (fun e => leBytes 32 e.encode)
    let s := if s.wearAhead ((68 + payload.length) / 4080 + 3) then s.wearWrite true true else s
    let first := match l with
      | e :: _ => e.seq
      | [] => s.get R.HP_JRN_HEAD_seq
    let r := s.writeRecord 1 first l.length payload ok1 ok2
    if r.1 then r.2.journalSaved else r.2

/-- A journal checkpoint is due: 4,096 unsaved entries or one that is 60 s old, and 10 s after the last. -/
def State.journalDue (s : State) : Bool :=
  let n := s.unsavedCount
  let old := match s.unsaved with
    | e :: _ => decide (e.tt + 60000000000 ≤ s.tt)
    | [] => false
  decide (0 < n) && (decide (4096 ≤ n) || old) && s.boot.jrnTt.all (fun t => decide (t + 10000000000 ≤ s.tt))
    && s.get R.HP_JRN_STATUS_copy != 3

/-- JOURNAL_CHECKPOINT. -/
def State.journalCheckpoint (s : State) (ok1 ok2 : Bool) : State :=
  if s.fwRuns && !s.mgmtHalted && s.journalDue then s.journalWrite ok1 ok2 else s

/-! ### Sweeps (R587, R588, R599) -/

/-- An entry of the journal as it is written empty. -/
def JEntry.empty : JEntry :=
  { seq := 0, tt := 0, source := 0, status := 0, cause := 0, long := false, command := false, loc := 0, old := 0, new := 0,
    detail := 0 }

/-- JOURNAL_SWEEP_READ: one entry of each copy is read; an uncorrectable one is a journal fault. -/
def State.sweepRead (s : State) (badP badM : Bool) : State :=
  let k := s.jrn.sweep
  let p := s.jrn.primary.get k JEntry.empty
  let m := s.jrn.mirror.get k JEntry.empty
  let s := { s with jrn := { s.jrn with sweep := (k + 1) % 16384 } }
  let s := if badP then s.jrnCopyFault 0 p else s
  if badM then s.jrnCopyFault 1 m else s

/-- SRAM_SWEEP: every 1 s; an uncorrectable error ends the service of the management watchdog. -/
def State.sramSweep (s : State) (fixed bad : List Nat) : State :=
  if !s.fwRuns ∨ s.tt < s.boot.sramTt + 1000000000 then s
  else
    let s := { s with boot := { s.boot with sramTt := s.tt } }
    let s := foldS fixed (fun a s => s.post E.MGMT_SRAM_ECC none [(.wide, a), (.en, 1)]) s
    let s := foldS bad (fun a s => s.post E.MGMT_SRAM_ECC none [(.wide, a), (.en, 2)]) s
    if bad.isEmpty then s else { s with boot := { s.boot with sramBad := true } }

/-! ### Commands -/

/-- JOURNAL_CHECKPOINT. -/
def execJournalCheckpoint (ok1 ok2 : Bool) (s : State) : Host.Outcome State Fault Refusal :=
  .next (s.journalCheckpoint ok1 ok2)

/-- WEAR_CHECKPOINT. -/
def execWearCheckpoint (ok1 ok2 : Bool) (s : State) : Host.Outcome State Fault Refusal :=
  .next (if s.fwRuns && !s.mgmtHalted then s.wearCheckpoint ok1 ok2 else s)

/-- SRAM_SWEEP. -/
def execSramSweep (fixed bad : List Nat) (s : State) : Host.Outcome State Fault Refusal := .next (s.sramSweep fixed bad)

/-- JOURNAL_SWEEP_READ. -/
def execJournalSweepRead (badP badM : Bool) (s : State) : Host.Outcome State Fault Refusal := .next (s.sweepRead badP badM)

end Sys2Proof.Machine
end

