-- ==== Sys2Proof/Machine/Bundle.lean ====
section
/-! DEFINITION. Bundle-form instructions (chapter 9): decode, issue checks and the syllables of the four slots. -/

namespace Sys2Proof.Machine

/-! ### The bundle at the pc (R214, R215) -/

/-- A fetched bundle: its header and the syllables of slots M, X, Y and C. -/
structure Bundle where
  hdr : Nat
  m : Option Nat
  x : Option Nat
  y : Option Nat
  c : Option Nat
  deriving DecidableEq, Repr

/-- The slot mask. -/
def Bundle.mask (b : Bundle) : Nat := b.hdr % 16

/-- imm16. -/
def Bundle.imm (b : Bundle) : Nat := bits b.hdr 31 16

/-- imm16, sign-extended. -/
def Bundle.simm (b : Bundle) : Int := signedOf 16 b.imm

/-- The length of a bundle with header `h` in bytes (R214). -/
def bundleLen (h : Nat) : Nat := 4 + 4 * popCount 4 h

/-- Syllable of slot `k` from the bundle's words: present ones follow the header in ascending slot order. -/
def bundleSlot (w k : Nat) : Option Nat :=
  if bit w k then some (w / 2 ^ (32 * (1 + popCount k w)) % 2 ^ 32) else none

/-- A bundle from its bytes as a little-endian number. -/
def Bundle.of (w : Nat) : Bundle :=
  { hdr := w % 2 ^ 32, m := bundleSlot w 0, x := bundleSlot w 1, y := bundleSlot w 2, c := bundleSlot w 3 }

/-! ### Decode (R214, R215, R222, R225, R228, R235) -/

/-- The M opcodes of engine `e` (Table 9-4). -/
def mOpOk (e op : Nat) : Bool := if e = 3 then [1, 2, 3, 4, 5].contains op else [4, 5, 0x11, 0x12, 0x16].contains op

/-- The arithmetic opcodes of engine `e` (Tables 9-6 and 9-7). -/
def aOpOk (e op : Nat) : Bool := decide (1 ≤ op) && (if e = 3 then decide (op ≤ 0x17) else decide (op ≤ 0x0E))

/-- The C opcodes (Table 9-8). -/
def cOpOk (op : Nat) : Bool := decide (1 ≤ op ∧ op ≤ 0x0C) || decide (0x10 ≤ op ∧ op ≤ 0x13) || op == 0x18 || op == 0x19

/-- The decode fault of an M syllable: a ring register is below 32 and a modulus slot below 48 (log 40). -/
def mDecode (e w : Nat) : Option Nat :=
  let op := w % 256
  if !mOpOk e op then some exOpcode
  else if (op = 0x11 ∨ op = 0x12) ∧ 32 ≤ bits w 13 8 then some exField
  else if op = 0x16 ∧ 48 ≤ bits w 13 8 then some exField
  else none

/-- The decode fault of a VE arithmetic syllable (R222, R223). -/
def vDecode (w : Nat) : Option Nat :=
  let op := w % 256
  if !aOpOk 3 op then some exOpcode
  else if (0x0C ≤ op ∧ op ≤ 0x0E ∧ bits w 10 8 = 0) ∨ (op = 0x10 ∧ 7 < bits w 23 20) ∨ (op = 0x14 ∧ bits w 21 20 = 3) then
    some exField
  else if bits w 30 29 = 3 then some exType
  else none

/-- The RE opcodes that use a modulus slot (Table 9-7). -/
def usesMod (op : Nat) : Bool := decide (op ≤ 0x07) || op == 0x0E

/-- The decode fault of an RE arithmetic syllable (R214, R225, R226); where `mod` is ignored it is not checked (log 40). -/
def rDecode (w : Nat) : Option Nat :=
  let op := w % 256
  if !aOpOk 4 op then some exOpcode
  else if bits w 30 29 ≠ 0 ∨ (48 ≤ bits w 28 23 ∧ !(0x08 ≤ op ∧ op ≤ 0x0B))
      ∨ (6 ≤ op ∧ op ≤ 8 ∧ bit w 31) ∨ (op = 8 ∧ bits w 12 10 ≠ 0) then some exField
  else none

/-- ext of a C syllable. -/
def cExt (w : Nat) : Nat := bits w 27 20

/-- The registers of engine `e` and the lanes of one. -/
def regCount (e : Nat) : Nat := if e = 3 then 64 else 32
def laneCount (e : Nat) : Nat := if e = 3 then 64 else 16

/-- The decode fault of a C syllable (R228, R229; log 40, log 42). -/
def cDecode (e imm winSize w : Nat) : Option Nat :=
  let op := w % 256
  let maskOp := decide (8 ≤ op ∧ op ≤ 0x0C)
  if !cOpOk op then some exOpcode
  else if bit w 31 ∨ (maskOp ∧ e ≠ 3) ∨ (maskOp ∧ op ≠ 9 ∧ cExt w % 8 = 0)
      ∨ ((op = 6 ∨ op = 7) ∧ (laneCount e ≤ imm ∨ regCount e ≤ cExt w % 64))
      ∨ (op = 0x18 ∧ (imm = 0 ∨ (bit w 30 ∧ !bit w 28))) then some exField
  else if (op = 0x18 ∨ op = 0x19) ∧ !bit w 28 ∧ winSize ≤ cExt w then some exSync
  else none

/-- A destination: kind (0 scalar, 1 vector or ring register, 2 mask, 3 modulus slot) and number. -/
abbrev Dest := Nat × Nat

/-- The destinations of an M syllable. -/
def mDests (w : Nat) : List Dest :=
  match w % 256 with
  | 0x01 | 0x03 | 0x11 => [(1, bits w 13 8)]
  | 0x04 => [(0, bits w 11 8)]
  | 0x16 => [(3, bits w 13 8)]
  | _ => []

/-- The destinations of an arithmetic syllable of engine `e`. -/
def aDests (e w : Nat) : List Dest :=
  let op := w % 256
  if e = 3 then (if 0x0C ≤ op ∧ op ≤ 0x0E then [(2, bits w 10 8)] else [(1, bits w 13 8)])
  else if 6 ≤ op ∧ op ≤ 8 then [(1, bits w 17 13), (1, bits w 22 18)] else [(1, bits w 12 8)]

/-- The destinations of a C syllable. -/
def cDests (w : Nat) : List Dest :=
  match w % 256 with
  | 0x01 | 0x02 | 0x03 | 0x04 | 0x05 | 0x06 | 0x09 => [(0, bits w 11 8)]
  | 0x07 => [(1, cExt w % 64)]
  | 0x08 | 0x0A | 0x0B | 0x0C => [(2, cExt w % 8)]
  | 0x13 => [(0, bits w 15 12)]
  | _ => []

/-- One syllable names a destination that an earlier one of the bundle names (R215). -/
def clash (l m : List Dest) : Bool := l.any m.contains

/-- ILLEGAL_OPCODE comes before the clash of R215, which is an ILLEGAL_FIELD. -/
def withClash (d : Option Nat) (cl : Bool) : Option Nat :=
  if d = some exOpcode then d else if cl then some exField else d

/-- The first decode fault of a bundle on engine `e`: header, then M, X, Y, C (R235). -/
def Bundle.decode (b : Bundle) (e winSize : Nat) : Option Nat :=
  let dm := (b.m.map mDests).getD []
  let dx := (b.x.map (aDests e)).getD []
  let dy := (b.y.map (aDests e)).getD []
  let dc := (b.c.map cDests).getD []
  let a := fun w => if e = 3 then vDecode w else rDecode w
  let all : List (Option Nat) :=
    [if bits b.hdr 15 5 ≠ 0 then some exField else none,
     b.m.bind (mDecode e),
     b.x.bind (fun w => withClash (a w) (clash dx dm)),
     b.y.bind (fun w => withClash (a w) (clash dy (dm ++ dx))),
     b.c.bind (fun w => withClash (cDecode e b.imm winSize w) (clash dc (dm ++ dx ++ dy)))]
  all.findSome? id

/-! ### Register reads (R216, R217) -/

/-- Scalar `k`; s0 reads 0. -/
def Engine.s (x : Engine) (k : Nat) : Nat := if k = 0 then 0 else x.sreg.get k 0

/-- Vector register `k` of the VE. -/
def Engine.v (x : Engine) (k : Nat) : List Nat := x.vreg.get k (List.replicate 64 0)

/-- Ring register `k` of the RE. -/
def Engine.r (x : Engine) (k : Nat) : List Nat := x.vreg.get k (List.replicate 16 0)

/-- Lane mask `k`; m0 reads all ones. -/
def Engine.m (x : Engine) (k : Nat) : Nat := if k = 0 then 2 ^ 64 - 1 else x.mask.get k 0

/-- Write scalar `k`; a write to s0 is discarded (R228). -/
def Engine.setS (x : Engine) (k v : Nat) : Engine := if k = 0 then x else { x with sreg := x.sreg.set k (v % 2 ^ 64) }

/-- Write register `k`. -/
def Engine.setV (x : Engine) (k : Nat) (l : List Nat) : Engine := { x with vreg := x.vreg.set k l }

/-- Write lane mask `k`; m0 keeps all ones. -/
def Engine.setM (x : Engine) (k v : Nat) : Engine := if k = 0 then x else { x with mask := x.mask.set k (v % 2 ^ 64) }

/-! ### The VE's arithmetic (R222 to R224) -/

/-- Operand b of a VE syllable: a register, or imm16 broadcast under the type. -/
def vOperandB (x : Engine) (imm w : Nat) : List Nat :=
  if bit w 31 then
    List.replicate 64 (match bits w 30 29 with
      | 0 => wrapInt 32 (signedOf 16 imm)
      | 1 => imm
      | _ => imm * 2 ^ 16)
  else x.v (bits w 25 20)

/-- The comparison lt of a type. -/
def vLt (t a b : Nat) : Bool :=
  match t with
  | 0 => decide (signedOf 32 a < signedOf 32 b)
  | 1 => decide (a < b)
  | _ => Fv.lt (f32 a) (f32 b)

/-- Equality under a type. -/
def vEq (t a b : Nat) : Bool := if t = 2 then Fv.eq (f32 a) (f32 b) else a == b

/-- The larger of two lanes under a type. -/
def vMaxLane (t a b : Nat) : Nat := if t = 2 then f32Max a b else if vLt t a b then b else a

/-- The smaller of two lanes under a type. -/
def vMinLane (t a b : Nat) : Nat := if t = 2 then f32Min a b else if vLt t b a then b else a

/-- The sum of two lanes under a type. -/
def vAddLane (t a b : Nat) : Nat := if t = 2 then f32Add a b else (a + b) % 2 ^ 32

/-- vcvt of one lane: `code`, `rnd`, the source and the old destination (Table 9-6). -/
def vCvtLane (code rnd d a : Nat) : Nat :=
  match code with
  | 0 => convertTo rnd 8 3 a
  | 1 => Fv.toIntBits rnd 32 false (f32 a)
  | 2 => convertTo rnd 3 8 a
  | 3 => fmtF32.encode rnd (Fv.ofInt ((a : Nat) : Int))
  | 4 => fmtBf16.encode rnd (f32 a)
  | 5 => (a % 2 ^ 16) * 2 ^ 16
  | 6 => fmtBf16.encode rnd (f32 a) * 2 ^ 16 + d % 2 ^ 16
  | _ => (a / 2 ^ 16) * 2 ^ 16

/-- bf16 to f32: a NaN gives 0x7FC0_0000 (R202, R223). -/
def canonNan (x : Nat) : Nat := match f32 x with
  | .nan => fmtF32.nanBits
  | _ => x

/-- One lane of the lane-by-lane opcodes: `d` the old destination. -/
def vLane (op t code rnd d a b : Nat) : Nat :=
  match op with
  | 0x01 => vAddLane t a b
  | 0x02 => if t = 2 then f32Sub a b else (a + 2 ^ 32 - b) % 2 ^ 32
  | 0x03 => if t = 2 then f32Mul a b else (a * b) % 2 ^ 32
  | 0x04 => if t = 2 then f32Fma d a b else (d + a * b) % 2 ^ 32
  | 0x05 => vMaxLane t a b
  | 0x06 => vMinLane t a b
  | 0x07 => a &&& b
  | 0x08 => a ||| b
  | 0x09 => a ^^^ b
  | 0x0A => (a * 2 ^ (b % 32)) % 2 ^ 32
  | 0x0B => if t = 0 then wrapInt 32 (signedOf 32 a / ((2 ^ (b % 32) : Nat) : Int)) else a / 2 ^ (b % 32)
  | 0x10 => if code = 5 ∨ code = 7 then canonNan (vCvtLane code rnd d a) else vCvtLane code rnd d a
  | 0x11 => f32Exp a
  | 0x12 => f32Rcp a
  | 0x13 => f32Rsqrt a
  | _ => a

/-- The comparison of one lane. -/
def vCmp (op t a b : Nat) : Bool :=
  match op with
  | 0x0C => vLt t a b
  | 0x0D => vLt t a b || vEq t a b
  | _ => vEq t a b

/-- The identity of vred: sum 0, max, min under a type (R224). -/
def redIdentity (kind t : Nat) : Nat :=
  match kind with
  | 0 => 0
  | 1 => if t = 0 then 2 ^ 31 else if t = 1 then 0 else 0xFF800000
  | _ => if t = 0 then 2 ^ 31 - 1 else if t = 1 then 2 ^ 32 - 1 else 0x7F800000

/-- One step of the tree: lanes i and i + n. -/
def redStep (f : Nat → Nat → Nat) (n : Nat) (l : List Nat) : List Nat := (l.take n).zipWith f (l.drop n)

/-- The fixed tree of R224 over 64 lanes. -/
def redTree (f : Nat → Nat → Nat) (l : List Nat) : Nat :=
  ([32, 16, 8, 4, 2, 1].foldl (fun l n => redStep f n l) l).headD 0

/-- The lanes of a register paired with their numbers. -/
def lanes (l : List Nat) : List (Nat × Nat) := (List.range l.length).zip l

/-- A mask value from lane bits. -/
def maskOf : List Bool → Nat
  | [] => 0
  | b :: t => b2n b + 2 * maskOf t

/-- A VE arithmetic syllable: sources from `x0`, result into `x`. -/
def vExec (x0 : Engine) (imm w : Nat) (x : Engine) : Engine :=
  let op := w % 256
  let t := bits w 30 29
  let dn := bits w 13 8
  let d := x0.v dn
  let a := x0.v (bits w 19 14)
  let b := vOperandB x0 imm w
  let m := x0.m (bits w 28 26)
  let ab := (lanes d).zip (a.zip b)
  let put := fun (r : List Nat) => x.setV dn (((lanes d).zip r).map (fun q => if bit m q.1.1 then q.2 else q.1.2))
  if 0x0C ≤ op ∧ op ≤ 0x0E then
    let k := bits w 10 8
    let old := x0.m k
    x.setM k (maskOf (ab.map (fun q => if bit m q.1.1 then vCmp op t q.2.1 q.2.2 else bit old q.1.1)))
  else if op = 0x0F then x.setV dn (ab.map (fun q => if bit m q.1.1 then q.2.1 else q.2.2))
  else if op = 0x14 then
    let kind := bits w 21 20
    let src := (lanes a).map (fun q => if bit m q.1 then q.2 else redIdentity kind t)
    let f := if kind = 0 then vAddLane t else if kind = 1 then vMaxLane t else vMinLane t
    x.setV dn (redTree f src :: List.replicate 63 0)
  else if op = 0x15 then put (b.map (fun i => a.getD (i % 64) 0))
  else if op = 0x16 then put (List.replicate 64 (a.getD (bits w 25 20) 0))
  else put (ab.map (fun q => vLane op t (bits w 23 20) (bits w 25 24) q.1.2 q.2.1 q.2.2))

/-! ### The RE's arithmetic (R225, R226) -/

/-- Operand b of an RE syllable. -/
def rOperandB (x : Engine) (imm w : Nat) : List Nat :=
  if bit w 31 then List.replicate 16 imm else x.r (bits w 22 18)

/-- The operands that a modular opcode reduces: each lane must be below q. -/
def rReduced (x : Engine) (imm w : Nat) : List Nat :=
  let d := x.r (bits w 12 8)
  let a := x.r (bits w 17 13)
  let b := rOperandB x imm w
  match w % 256 with
  | 0x01 | 0x02 | 0x03 => a ++ b
  | 0x04 | 0x06 | 0x07 => d ++ a ++ b
  | 0x05 => a
  | _ => []

/-- The issue check of an RE syllable: NO_MODULUS before RING_OPERAND (R220, R225, R235). -/
def rCheck (x : Engine) (imm w : Nat) : Option Nat :=
  if !usesMod (w % 256) then none
  else match x.modq.get? (bits w 28 23) with
    | none => some exNoModulus
    | some q => if (rReduced x imm w).any (fun v => decide (q.1 ≤ v)) then some exRing else none

/-- One lane of an RE opcode with one destination, modulo `q`. -/
def rLane (op q d a b : Nat) : Nat :=
  match op with
  | 0x01 => (a + b) % q
  | 0x02 => (a + q - b) % q
  | 0x03 => a * b % q
  | 0x04 => (d + a * b) % q
  | 0x05 => (q - a) % q
  | 0x09 => (a + b) % 2 ^ 64
  | 0x0A => (a + (2 ^ 64 - b)) % 2 ^ 64
  | 0x0B => a * b % 2 ^ 64
  | 0x0E => a % q
  | _ => a

/-- The butterflies of one lane: the new a and b. -/
def rFly (op q w x y : Nat) : Nat × Nat :=
  if op = 6 then
    let t := w * y % q
    ((x + t) % q, (x + q - t) % q)
  else ((x + y) % q, (x + q - y) * w % q)

/-- rxch: a[i] and b[i − s] exchanged for every lane i with bit log2 s set: the new a and b. -/
def rExchange (s : Nat) (a b : List Nat) : List Nat × List Nat :=
  ((lanes a).map (fun p => if (p.1 / s) % 2 = 1 then b.getD (p.1 - s) 0 else p.2),
   (lanes b).map (fun p => if (p.1 / s) % 2 = 0 then a.getD (p.1 + s) 0 else p.2))

/-- rxch within one register. -/
def rSwap (s : Nat) (a : List Nat) : List Nat :=
  (lanes a).map (fun p => if (p.1 / s) % 2 = 1 then a.getD (p.1 - s) 0 else a.getD (p.1 + s) 0)

/-- `n` free lanes. -/
def freeLanes : Nat → State → List Nat × State
  | 0, s => ([], s)
  | n + 1, s =>
    let v := s.draw 64
    let r := freeLanes n v.2
    (v.1 :: r.1, r.2)

/-- An RE arithmetic syllable: sources from `x0`, result into `x`. A butterfly whose a and b are one register leaves that
register free (log 41). -/
def rExec (x0 : Engine) (imm w : Nat) (p : Engine × State) : Engine × State :=
  let x := p.1
  let op := w % 256
  let dn := bits w 12 8
  let an := bits w 17 13
  let bn := bits w 22 18
  let d := x0.r dn
  let a := x0.r an
  let b := rOperandB x0 imm w
  let q := (x0.modq.get (bits w 28 23) (1, 0)).1
  if op = 6 ∨ op = 7 then
    if an = bn then
      let f := freeLanes 16 p.2
      (x.setV an f.1, f.2)
    else
      let r := (d.zip (a.zip b)).map (fun t => rFly op q t.1 t.2.1 t.2.2)
      ((x.setV an (r.map (·.1))).setV bn (r.map (·.2)), p.2)
  else if op = 8 then
    let s := 2 ^ (dn % 4)
    if an = bn then (x.setV an (rSwap s a), p.2)
    else
      let r := rExchange s a b
      ((x.setV an r.1).setV bn r.2, p.2)
  else if op = 0x0D then (x.setV dn (List.replicate 16 (a.getD (bn % 16) 0)), p.2)
  else (x.setV dn ((d.zip (a.zip b)).map (fun t => rLane op q t.1 t.2.1 t.2.2)), p.2)

/-! ### Memory slot (R218 to R221) -/

/-- u, and the bytes of an access (Table 9-4). -/
def mUnit (op : Nat) : Nat := match op with
  | 0x03 => 4
  | 0x04 | 0x05 => 8
  | _ => 32
def mLen (op : Nat) : Nat := match op with
  | 0x01 | 0x02 => 256
  | 0x03 => 4
  | 0x04 | 0x05 => 8
  | 0x11 | 0x12 => 128
  | _ => 32

/-- The scratch offset of an M syllable, as a 64-bit sum (R218, log 42). -/
def mOffset (x : Engine) (w : Nat) : Nat :=
  wrapInt 64 (((x.s (bits w 17 14) : Nat) : Int) + signedOf 11 (bits w 31 21) * ((mUnit (w % 256) : Nat) : Int))

/-- The issue check of an M syllable: ADDR_RANGE before ALIGN (R218, R235). -/
def State.mCheck (s : State) (x : Engine) (w : Nat) : Option Nat :=
  let o := mOffset x w
  if s.cfg.scratchKib * 1024 < o + mLen (w % 256) then some exAddr
  else if o % mUnit (w % 256) ≠ 0 then some exAlign
  else none

/-- The M syllable is a load. -/
def mLoad (w : Nat) : Bool := [0x01, 0x03, 0x04, 0x11, 0x16].contains (w % 256)

/-- A modulus that ldmod accepts (R220). -/
def modulusOk (q mu top : Nat) : Bool :=
  q % 2 == 1 && decide (2 ^ 30 < q ∧ q < 2 ^ 60 ∧ mu * q ≤ 2 ^ 120 ∧ 2 ^ 120 < mu * q + q) && top == 0

/-- The check of an ldmod, once its data are correctable (R220, R235). -/
def State.ldmodCheck (s : State) (c : Nat) (x : Engine) (w : Nat) : Option Nat :=
  let a := coreScratch c + mOffset x w
  if w % 256 ≠ 0x16 ∨ s.badIn a 32 ∨ modulusOk (s.readLe a 8) (s.readLe (a + 8) 16) (s.readLe (a + 24) 8) then none
  else some exModulus

/-- Elements of `n` bytes each, from a little-endian number. -/
def splitLanes (n : Nat) : Nat → Nat → List Nat
  | 0, _ => []
  | k + 1, v => v % 2 ^ (8 * n) :: splitLanes n k (v / 2 ^ (8 * n))

/-- Store `l`, elements of `n` bytes at `a`, those that `keep` admits; a partial write into a word in error leaves it. -/
def State.storeLanes (s : State) (n : Nat) : Nat → List (Bool × Nat) → State × Option Nat
  | _, [] => (s, none)
  | a, (k, v) :: t =>
    let s1 := if k && !s.badMerge a n then s.writeLe a n v else s
    let r := s1.storeLanes n (a + n) t
    (r.1, if k && s.badMerge a n then some a else r.2)

/-- The vst of 64 lanes: lanes in pairs share a 64-bit word, and a pair written whole ends the word's error. -/
def State.storePairs (s : State) (m : Nat) : Nat → Nat → List Nat → State × Option Nat
  | _, a, v0 :: v1 :: t =>
    let i := (256 - 4 * (t.length + 2)) / 4
    let r := if bit m i && bit m (i + 1) then (s.writeLe a 8 (v0 + v1 * 2 ^ 32), none)
      else s.storeLanes 4 a [(bit m i, v0), (bit m (i + 1), v1)]
    let u := r.1.storePairs m 0 (a + 8) t
    (u.1, r.2.or u.2)
  | _, _, _ => (s, none)

/-- The M syllable's access: the engine's new registers, the state, an uncorrectable address met, an exception. -/
def State.mExec (s : State) (c : Nat) (x0 : Engine) (w : Nat) (x : Engine) :
    Engine × State × Option Nat × Option Nat :=
  let op := w % 256
  let reg := bits w 13 8
  let a := coreScratch c + mOffset x0 w
  let bad := if mLoad w && s.badIn a (mLen op) then some a else none
  let v := s.readLe a (mLen op)
  match op with
  | 0x01 => (x.setV reg (splitLanes 4 64 v), s, bad, none)
  | 0x02 => let r := s.storePairs (x0.m (bits w 20 18)) 0 a (x0.v reg)
            (x, r.1, r.2, none)
  | 0x03 => (x.setV reg (List.replicate 64 v), s, bad, none)
  | 0x04 => (x.setS (reg % 16) v, s, bad, none)
  | 0x05 => (x, s.writeLe a 8 (x0.s (reg % 16)), none, none)
  | 0x11 => (x.setV reg (splitLanes 8 16 v), s, bad, none)
  | 0x12 => (x, (s.storeLanes 8 a ((x0.r reg).map (fun v => (true, v)))).1, none, none)
  | _ =>
    let q := v % 2 ^ 64
    let mu := v / 2 ^ 64 % 2 ^ 128
    if bad.isSome then (x, s, bad, none)
    else if modulusOk q mu (v / 2 ^ 192) then ({ x with modq := x.modq.set reg (q, mu) }, s, none, none)
    else ({ x with modq := x.modq.del reg }, s, none, some exModulus)

/-! ### Control slot (R228 to R230) -/

/-- A C syllable branches, given its sources. -/
def cTaken (x : Engine) (w : Nat) : Bool :=
  let a := x.s (bits w 15 12)
  match w % 256 with
  | 0x10 => true
  | 0x11 => a == 0
  | 0x12 => a != 0
  | 0x13 => a != 1
  | _ => false

/-- The branch target of a bundle at offset `pc` of its code. -/
def Bundle.target (b : Bundle) (pc : Nat) : Int := ((pc : Nat) : Int) + b.simm * 4

/-- The next pc of a bundle, or none for a taken branch out of the code; with end the branch is ignored (R230, R234). -/
def Bundle.next (b : Bundle) (x : Engine) (pc codeLen : Nat) : Option Nat :=
  let seq := pc + bundleLen b.hdr
  match b.c with
  | none => some seq
  | some w =>
    if bit b.hdr 4 || !cTaken x w then some seq
    else
      let t := b.target pc
      if 0 ≤ t ∧ t < codeLen then some t.toNat else none

/-- The registers that a C syllable writes. -/
def cExec (e : Nat) (x0 : Engine) (b : Bundle) (w : Nat) (x : Engine) : Engine :=
  let d := bits w 11 8
  let a := x0.s (bits w 15 12)
  let sb := x0.s (bits w 19 16)
  let n := b.imm
  let mk := cExt w % 8
  let ma := x0.m (bits w 25 23)
  let mb := x0.m (bits w 28 26)
  match w % 256 with
  | 0x01 => x.setS d (wrapInt 64 b.simm)
  | 0x02 => x.setS d (a * 2 ^ (n % 64))
  | 0x03 => x.setS d (a + sb)
  | 0x04 => x.setS d (wrapInt 64 (((a : Nat) : Int) + b.simm))
  | 0x05 => x.setS d (a * sb)
  | 0x06 => x.setS d ((if e = 3 then x0.v (cExt w % 64) else x0.r (cExt w % 64)).getD n 0)
  | 0x07 =>
    if e = 3 then x.setV (cExt w % 64) ((x0.v (cExt w % 64)).set n (a % 2 ^ 32))
    else x.setV (cExt w % 64) ((x0.r (cExt w % 64)).set n a)
  | 0x08 => x.setM mk a
  | 0x09 => x.setS d ma
  | 0x0A => x.setM mk (ma &&& mb)
  | 0x0B => x.setM mk (ma ||| mb)
  | 0x0C => x.setM mk (ma &&& (2 ^ 64 - 1 - mb))
  | 0x13 => x.setS (bits w 15 12) (a + 2 ^ 64 - 1)
  | _ => x

/-- The signal of a C syllable, sent when its bundle retires (R229). -/
def State.cSignal (s : State) (c e : Nat) (r : Running) (x0 : Engine) (imm w : Nat) : State :=
  let core := if bit w 29 then some (x0.s (bits w 15 12) % 32) else none
  let chip := if bit w 30 then some (x0.s (bits w 19 16) % 4096) else none
  s.engSignal c e r.desc (bit w 28) (cExt w) imm core chip

/-- The counter and value of a wait syllable. -/
def cWait (r : Running) (x0 : Engine) (w : Nat) : Nat × Nat :=
  (r.desc.waitCounter (bit w 28) (cExt w), x0.s (bits w 15 12) % 2 ^ 32)

/-! ### Issue (R216, R235) -/

/-- The first issue fault of a bundle: M, X, Y, C. -/
def State.bundleCheck (s : State) (c e : Nat) (x : Engine) (r : Running) (b : Bundle) : Option Nat :=
  let a := fun w => if e = 4 then rCheck x b.imm w else none
  [b.m.bind (s.mCheck x), b.m.bind (s.ldmodCheck c x), b.x.bind a, b.y.bind a,
   if (b.next x r.pc r.desc.codeLen).isNone then some exCode else none].findSome? id

/-- An arithmetic syllable of engine `e`. -/
def aExec (e : Nat) (x0 : Engine) (imm : Nat) (w : Option Nat) (p : Engine × State) : Engine × State :=
  match w with
  | none => p
  | some w => if e = 3 then (vExec x0 imm w p.1, p.2) else rExec x0 imm w p

/-- Uncorrectable data of the loading bundle at the pc, or a word that its store would merge into (R185, R236): the
event names the bundle by its address (log 43). -/
def State.bundleEcc (s : State) (c e : Nat) (r : Running) : State := s.eccFault c e (r.desc.codeAddr + r.pc)

/-- The scratch words that an M syllable reads or merges into, as ECC meets them (R185): of a vst, lanes in pairs. -/
def State.mEcc (s : State) (c e : Nat) (x : Engine) (w : Nat) : State :=
  let a := coreScratch c + mOffset x w
  let m := x.m (bits w 20 18)
  if mLoad w then s.eccRead c e a (mLen (w % 256))
  else if w % 256 = 0x02 then
    foldS (List.range 32) (fun i s =>
      if bit m (2 * i) && bit m (2 * i + 1) then s.eccWrite c e (a + 8 * i) 8
      else if bit m (2 * i) then s.eccWrite c e (a + 8 * i) 4
      else if bit m (2 * i + 1) then s.eccWrite c e (a + 8 * i + 4) 4
      else s) s
  else s.eccWrite c e a (mLen (w % 256))

/-- A load of the bundle at `pc` has issued (R236). -/
def Engine.noteLoad (x : Engine) (pc a : Nat) : Engine := { x with loads := ((pc, a) :: x.loads).take 64 }

/-- A bundle whose sources are ready and whose checks pass: all syllables read before any writes (R216). -/
def State.bundleRun (s : State) (c e : Nat) (r : Running) (b : Bundle) : State :=
  let x0 := s.eng c e
  let m := match b.m with
    | none => (x0, s, none, none)
    | some w =>
      (s.mEcc c e x0 w).mExec c x0 w (if mLoad w then x0.noteLoad r.pc (coreScratch c + mOffset x0 w) else x0)
  match m.2.2.2 with
  | some q => (m.2.1.setEng c e m.1).exception c e q
  | none =>
    let p := aExec e x0 b.imm b.y (aExec e x0 b.imm b.x (m.1, m.2.1))
    let x := match b.c with
      | none => p.1
      | some w => cExec e x0 b w p.1
    let s := p.2.setEng c e x
    let s := match b.c with
      | some w => if w % 256 = 0x18 then s.cSignal c e r x0 b.imm w else s
      | none => s
    let s := s.pcCount (pcEngBank c e) 8 0x06 (popCount 4 b.mask)
    match m.2.2.1 with
    | some _ => s.bundleEcc c e r
    | none => s.retire c e ((b.next x0 r.pc r.desc.codeLen).getD r.pc) (bit b.hdr 4)

/-- The bundle at the pc: whole within the code, readable; none with its exception otherwise (R214, R235). -/
def State.fetchBundle (s : State) (r : Running) : Nat ⊕ Bundle :=
  if r.desc.codeLen < r.pc + 4 then .inl exCode
  else if s.badIn (r.desc.codeAddr + r.pc) 4 then .inl exFetch
  else
    let n := bundleLen (s.fetchCode r 4)
    if r.desc.codeLen < r.pc + n then .inl exCode
    else if s.badIn (r.desc.codeAddr + r.pc) n then .inl exFetch
    else .inr (Bundle.of (s.fetchCode r n))

/-- A refused ldmod leaves its slot empty (R220). -/
def State.emptySlot (s : State) (c e : Nat) (b : Bundle) : State :=
  let x := s.eng c e
  match b.m with
  | some w => s.setEng c e { x with modq := x.modq.del (bits w 13 8) }
  | none => s

/-- The engine issues the bundle at its pc. `held`: it has been held at a wait (R229). -/
def State.bundleStep (s : State) (c e : Nat) (r : Running) (held : Bool) : State :=
  match s.fetchBundle r with
  | .inl q =>
    let a := r.desc.codeAddr + r.pc
    if q = exFetch then s.fetchBad c e a (if s.badIn a 4 then 4 else bundleLen (s.fetchCode r 4)) else s.exception c e q
  | .inr b =>
    match b.decode e r.desc.winSize with
    | some q => s.exception c e q (b.c.elim 0 cExt)
    | none =>
      let x := s.eng c e
      let wait := b.c.bind (fun w => if w % 256 = 0x19 then some (cWait r x w) else none)
      match wait.filter (fun q => !waitMet (s.sync c q.1) q.2) with
      | some q => s.setEng c e { x with run := some { r with wait := some q } }
      | none =>
        let s := (s.noteIssue c e).tagIssue c e b.mask held
        match s.bundleCheck c e x r b with
        | some q => (if q = exModulus then s.emptySlot c e b else s).exception c e q
        | none => s.bundleRun c e r b

/-- A syllable of a bundle that a row of the table names: slot (0 M, 1 X or Y, 3 C) and opcode. -/
def Bundle.has (b : Bundle) (slot op : Nat) : Bool :=
  let is := fun (w : Option Nat) => w.any (fun v => v % 256 == op)
  match slot with
  | 0 => is b.m
  | 1 => is b.x || is b.y
  | _ => is b.c

/-- Some syllable has an opcode of Tables 9-4, 9-6, 9-7 or 9-8 on engine `e`. -/
def Bundle.known (b : Bundle) (e : Nat) : Bool :=
  b.m.any (fun w => mOpOk e (w % 256)) || b.x.any (fun w => aOpOk e (w % 256)) || b.y.any (fun w => aOpOk e (w % 256))
  || b.c.any (fun w => cOpOk (w % 256))

/-- Engine `e` of core `c` (VE or RE) issues the bundle at its pc if that holds a syllable `op` in `slot`; `only` limits
the row to one of the two engines. -/
def State.bundleIssue (s : State) (slot op : Nat) (only : Option Nat) (c e : Nat) : State :=
  if (e = 3 ∨ e = 4) ∧ (only = none ∨ only = some e) then
    match s.canIssue c e with
    | none => s
    | some r => match s.fetchBundle r with
      | .inl _ => s
      | .inr b => if b.has slot op then s.bundleStep c e r false else s
  else s

/-- The engine issues a bundle without slots, or one that no syllable row names (log 39). -/
def State.bundleEmpty (s : State) (c e : Nat) : State :=
  if e = 3 ∨ e = 4 then
    match s.canIssue c e with
    | none => s
    | some r => match s.fetchBundle r with
      | .inl _ => s.bundleStep c e r false
      | .inr b => if b.known e then s else s.bundleStep c e r false
  else s

/-- A word is found uncorrectable. -/
def State.markBad (s : State) (a : Nat) : State :=
  { s with badWords := if s.badWords.contains (a / 8) then s.badWords else s.badWords ++ [a / 8] }

/-- Uncorrectable data arrive for a load (R236): issue stops, and the job faults. The load is that of the bundle at the pc,
which issues now, or the `back`-th last that has issued; later bundles that have issued are complete. -/
def State.loadBad (s : State) (c e back : Nat) : State :=
  if (e = 3 ∨ e = 4) ∧ 0 < back then
    match (s.eng c e).run, (s.eng c e).loads[back - 1]? with
    | some r, some (pc, a) => (s.markBad a).eccFault c e (r.desc.codeAddr + pc)
    | _, _ => s
  else if e = 3 ∨ e = 4 then
    match s.canIssue c e with
    | none => s
    | some r => match s.fetchBundle r with
      | .inl _ => s
      | .inr b =>
        match b.m with
        | none => s
        | some w =>
          let x := s.eng c e
          if (b.decode e r.desc.winSize).isNone && (s.bundleCheck c e x r b).isNone && mLoad w then
            (s.markBad (coreScratch c + mOffset x w)).bundleStep c e r false
          else s
  else s

/-! ### Commands -/

/-- EMPTY_BUNDLE. -/
def execEmptyBundle (c e : Nat) (s : State) : Host.Outcome State Fault Refusal := .next (s.bundleEmpty c e)

/-- VLD. -/
def execVld (c e : Nat) (s : State) : Host.Outcome State Fault Refusal :=
  .next (s.bundleIssue 0 0x01 (some 3) c e)

/-- VST. -/
def execVst (c e : Nat) (s : State) : Host.Outcome State Fault Refusal :=
  .next (s.bundleIssue 0 0x02 (some 3) c e)

/-- VLDB. -/
def execVldb (c e : Nat) (s : State) : Host.Outcome State Fault Refusal :=
  .next (s.bundleIssue 0 0x03 (some 3) c e)

/-- SLD. -/
def execSld (c e : Nat) (s : State) : Host.Outcome State Fault Refusal :=
  .next (s.bundleIssue 0 0x04 none c e)

/-- SST. -/
def execSst (c e : Nat) (s : State) : Host.Outcome State Fault Refusal :=
  .next (s.bundleIssue 0 0x05 none c e)

/-- RLD. -/
def execRld (c e : Nat) (s : State) : Host.Outcome State Fault Refusal :=
  .next (s.bundleIssue 0 0x11 (some 4) c e)

/-- RST. -/
def execRst (c e : Nat) (s : State) : Host.Outcome State Fault Refusal :=
  .next (s.bundleIssue 0 0x12 (some 4) c e)

/-- LDMOD. -/
def execLdmod (c e : Nat) (s : State) : Host.Outcome State Fault Refusal :=
  .next (s.bundleIssue 0 0x16 (some 4) c e)

/-- VADD. -/
def execVadd (c e : Nat) (s : State) : Host.Outcome State Fault Refusal :=
  .next (s.bundleIssue 1 0x01 (some 3) c e)

/-- VSUB. -/
def execVsub (c e : Nat) (s : State) : Host.Outcome State Fault Refusal :=
  .next (s.bundleIssue 1 0x02 (some 3) c e)

/-- VMUL. -/
def execVmul (c e : Nat) (s : State) : Host.Outcome State Fault Refusal :=
  .next (s.bundleIssue 1 0x03 (some 3) c e)

/-- VFMA. -/
def execVfma (c e : Nat) (s : State) : Host.Outcome State Fault Refusal :=
  .next (s.bundleIssue 1 0x04 (some 3) c e)

/-- VMAX. -/
def execVmax (c e : Nat) (s : State) : Host.Outcome State Fault Refusal :=
  .next (s.bundleIssue 1 0x05 (some 3) c e)

/-- VMIN. -/
def execVmin (c e : Nat) (s : State) : Host.Outcome State Fault Refusal :=
  .next (s.bundleIssue 1 0x06 (some 3) c e)

/-- VAND. -/
def execVand (c e : Nat) (s : State) : Host.Outcome State Fault Refusal :=
  .next (s.bundleIssue 1 0x07 (some 3) c e)

/-- VOR. -/
def execVor (c e : Nat) (s : State) : Host.Outcome State Fault Refusal :=
  .next (s.bundleIssue 1 0x08 (some 3) c e)

/-- VXOR. -/
def execVxor (c e : Nat) (s : State) : Host.Outcome State Fault Refusal :=
  .next (s.bundleIssue 1 0x09 (some 3) c e)

/-- VSHL. -/
def execVshl (c e : Nat) (s : State) : Host.Outcome State Fault Refusal :=
  .next (s.bundleIssue 1 0x0A (some 3) c e)

/-- VSHR. -/
def execVshr (c e : Nat) (s : State) : Host.Outcome State Fault Refusal :=
  .next (s.bundleIssue 1 0x0B (some 3) c e)

/-- VCMPLT. -/
def execVcmplt (c e : Nat) (s : State) : Host.Outcome State Fault Refusal :=
  .next (s.bundleIssue 1 0x0C (some 3) c e)

/-- VCMPLE. -/
def execVcmple (c e : Nat) (s : State) : Host.Outcome State Fault Refusal :=
  .next (s.bundleIssue 1 0x0D (some 3) c e)

/-- VCMPEQ. -/
def execVcmpeq (c e : Nat) (s : State) : Host.Outcome State Fault Refusal :=
  .next (s.bundleIssue 1 0x0E (some 3) c e)

/-- VSEL. -/
def execVsel (c e : Nat) (s : State) : Host.Outcome State Fault Refusal :=
  .next (s.bundleIssue 1 0x0F (some 3) c e)

/-- VCVT. -/
def execVcvt (c e : Nat) (s : State) : Host.Outcome State Fault Refusal :=
  .next (s.bundleIssue 1 0x10 (some 3) c e)

/-- VEXP. -/
def execVexp (c e : Nat) (s : State) : Host.Outcome State Fault Refusal :=
  .next (s.bundleIssue 1 0x11 (some 3) c e)

/-- VRCP. -/
def execVrcp (c e : Nat) (s : State) : Host.Outcome State Fault Refusal :=
  .next (s.bundleIssue 1 0x12 (some 3) c e)

/-- VRSQRT. -/
def execVrsqrt (c e : Nat) (s : State) : Host.Outcome State Fault Refusal :=
  .next (s.bundleIssue 1 0x13 (some 3) c e)

/-- VRED. -/
def execVred (c e : Nat) (s : State) : Host.Outcome State Fault Refusal :=
  .next (s.bundleIssue 1 0x14 (some 3) c e)

/-- VPERM. -/
def execVperm (c e : Nat) (s : State) : Host.Outcome State Fault Refusal :=
  .next (s.bundleIssue 1 0x15 (some 3) c e)

/-- VBCAST. -/
def execVbcast (c e : Nat) (s : State) : Host.Outcome State Fault Refusal :=
  .next (s.bundleIssue 1 0x16 (some 3) c e)

/-- VMOV. -/
def execVmov (c e : Nat) (s : State) : Host.Outcome State Fault Refusal :=
  .next (s.bundleIssue 1 0x17 (some 3) c e)

/-- RADD. -/
def execRadd (c e : Nat) (s : State) : Host.Outcome State Fault Refusal :=
  .next (s.bundleIssue 1 0x01 (some 4) c e)

/-- RSUB. -/
def execRsub (c e : Nat) (s : State) : Host.Outcome State Fault Refusal :=
  .next (s.bundleIssue 1 0x02 (some 4) c e)

/-- RMUL. -/
def execRmul (c e : Nat) (s : State) : Host.Outcome State Fault Refusal :=
  .next (s.bundleIssue 1 0x03 (some 4) c e)

/-- RMAC. -/
def execRmac (c e : Nat) (s : State) : Host.Outcome State Fault Refusal :=
  .next (s.bundleIssue 1 0x04 (some 4) c e)

/-- RNEG. -/
def execRneg (c e : Nat) (s : State) : Host.Outcome State Fault Refusal :=
  .next (s.bundleIssue 1 0x05 (some 4) c e)

/-- RBFLY. -/
def execRbfly (c e : Nat) (s : State) : Host.Outcome State Fault Refusal :=
  .next (s.bundleIssue 1 0x06 (some 4) c e)

/-- RBFLYI. -/
def execRbflyi (c e : Nat) (s : State) : Host.Outcome State Fault Refusal :=
  .next (s.bundleIssue 1 0x07 (some 4) c e)

/-- RXCH. -/
def execRxch (c e : Nat) (s : State) : Host.Outcome State Fault Refusal :=
  .next (s.bundleIssue 1 0x08 (some 4) c e)

/-- RADDW. -/
def execRaddw (c e : Nat) (s : State) : Host.Outcome State Fault Refusal :=
  .next (s.bundleIssue 1 0x09 (some 4) c e)

/-- RSUBW. -/
def execRsubw (c e : Nat) (s : State) : Host.Outcome State Fault Refusal :=
  .next (s.bundleIssue 1 0x0A (some 4) c e)

/-- RMULW. -/
def execRmulw (c e : Nat) (s : State) : Host.Outcome State Fault Refusal :=
  .next (s.bundleIssue 1 0x0B (some 4) c e)

/-- RMOV. -/
def execRmov (c e : Nat) (s : State) : Host.Outcome State Fault Refusal :=
  .next (s.bundleIssue 1 0x0C (some 4) c e)

/-- RBCAST. -/
def execRbcast (c e : Nat) (s : State) : Host.Outcome State Fault Refusal :=
  .next (s.bundleIssue 1 0x0D (some 4) c e)

/-- RMOD. -/
def execRmod (c e : Nat) (s : State) : Host.Outcome State Fault Refusal :=
  .next (s.bundleIssue 1 0x0E (some 4) c e)

/-- SMOV. -/
def execSmov (c e : Nat) (s : State) : Host.Outcome State Fault Refusal :=
  .next (s.bundleIssue 3 0x01 none c e)

/-- SSHL. -/
def execSshl (c e : Nat) (s : State) : Host.Outcome State Fault Refusal :=
  .next (s.bundleIssue 3 0x02 none c e)

/-- SADD. -/
def execSadd (c e : Nat) (s : State) : Host.Outcome State Fault Refusal :=
  .next (s.bundleIssue 3 0x03 none c e)

/-- SADDI. -/
def execSaddi (c e : Nat) (s : State) : Host.Outcome State Fault Refusal :=
  .next (s.bundleIssue 3 0x04 none c e)

/-- SMUL. -/
def execSmul (c e : Nat) (s : State) : Host.Outcome State Fault Refusal :=
  .next (s.bundleIssue 3 0x05 none c e)

/-- SGET. -/
def execSget (c e : Nat) (s : State) : Host.Outcome State Fault Refusal :=
  .next (s.bundleIssue 3 0x06 none c e)

/-- SPUT. -/
def execSput (c e : Nat) (s : State) : Host.Outcome State Fault Refusal :=
  .next (s.bundleIssue 3 0x07 none c e)

/-- MSET. -/
def execMset (c e : Nat) (s : State) : Host.Outcome State Fault Refusal :=
  .next (s.bundleIssue 3 0x08 none c e)

/-- MGET. -/
def execMget (c e : Nat) (s : State) : Host.Outcome State Fault Refusal :=
  .next (s.bundleIssue 3 0x09 none c e)

/-- MAND. -/
def execMand (c e : Nat) (s : State) : Host.Outcome State Fault Refusal :=
  .next (s.bundleIssue 3 0x0A none c e)

/-- MOR. -/
def execMor (c e : Nat) (s : State) : Host.Outcome State Fault Refusal :=
  .next (s.bundleIssue 3 0x0B none c e)

/-- MANDN. -/
def execMandn (c e : Nat) (s : State) : Host.Outcome State Fault Refusal :=
  .next (s.bundleIssue 3 0x0C none c e)

/-- JMP. -/
def execJmp (c e : Nat) (s : State) : Host.Outcome State Fault Refusal :=
  .next (s.bundleIssue 3 0x10 none c e)

/-- BRZ. -/
def execBrz (c e : Nat) (s : State) : Host.Outcome State Fault Refusal :=
  .next (s.bundleIssue 3 0x11 none c e)

/-- BRNZ. -/
def execBrnz (c e : Nat) (s : State) : Host.Outcome State Fault Refusal :=
  .next (s.bundleIssue 3 0x12 none c e)

/-- LOOP. -/
def execLoopInstr (c e : Nat) (s : State) : Host.Outcome State Fault Refusal :=
  .next (s.bundleIssue 3 0x13 none c e)

/-- BUNDLE_SIGNAL. -/
def execBundleSignal (c e : Nat) (s : State) : Host.Outcome State Fault Refusal :=
  .next (s.bundleIssue 3 0x18 none c e)

/-- BUNDLE_WAIT. -/
def execBundleWait (c e : Nat) (s : State) : Host.Outcome State Fault Refusal :=
  .next (s.bundleIssue 3 0x19 none c e)

/-- LOAD_DATA_UNCORRECTABLE. -/
def execLoadDataUncorrectable (c : Nat) (x : IssuedLoad) (s : State) : Host.Outcome State Fault Refusal :=
  .next (s.loadBad c x.eng x.back)

end Sys2Proof.Machine
end

