-- ==== Sys2Proof/Machine/Startup.lean ====
section
/-! DEFINITION. Start-up and shutdown (chapter 19): resets, bring-up phases, orderly shutdown, loss of power, and islands
held for want of a clock. -/

namespace Sys2Proof.Machine

/-! ### Power-on reset (R47, R53, R481) -/

/-- The state that POR_N brings about, with boot flash and the waiting commands kept. -/
def State.powerOn (s : State) (powered por : Bool) : State :=
  { State.cold s.cfg s.boot.flash s.free s.pending with powered := powered, por := por }

/-- The configuration has the island. CLK_MGMT runs as long as the device does (R53), so 54 is never held. -/
def islandExists (c : Cfg) (i : Nat) : Bool :=
  decide (i < c.cores) || decide (32 ≤ i ∧ i < 32 + c.pixelIslands) || decide (40 ≤ i ∧ i < 40 + c.quillPorts)
    || i == 52 || i == 53

/-- Release of POR_N; `absent` are the islands whose clock is not there (R49). -/
def State.porRelease (s : State) (absent : List Nat) : State :=
  if !s.por then s
  else
    let l := absent.filter (islandExists s.cfg)
    foldS l (fun i s => s.post E.ISLAND_CLOCK_ABSENT none [(.ix, i)]) { s.powerOn true false with heldIsl := l }

/-! ### Phases -/

/-- A bring-up or shutdown phase begins: BRINGUP_PHASE. -/
def State.setPhase (s : State) (p : Nat) : State :=
  let s : State := { s.put R.HP_BOOT_STATUS_phase [] p with boot := { s.boot with phaseTt := s.tt, expired := false } }
  s.post E.BRINGUP_PHASE none [(.en, p), (.en, s.get R.HP_BOOT_STATUS_warm)]

/-- The bring-up is warm (R478). -/
def State.warmUp (s : State) : Bool := s.flag R.HP_BOOT_STATUS_warm

/-- Firmware gives a field of a journalled parameter a value. -/
def State.fwField (s : State) (f : Fld) (ix : List Nat) (v : Nat) : State :=
  s.applyAt .fw (f.reg.addr ix) (setBits (s.regWord f.reg ix) f.hi f.lo v) false

/-! ### Warm reset (R187, R293, R340, R418, R438, R478) -/

/-- The table keeps the register across warm reset; of the host port's, HP_IRQ_STATUS alone is cleared (R565). -/
def keptWarm (c : Cfg) (off : Nat) : Bool :=
  match findReg c off with
  | some (r, _) => if r.off < 0x020000 then r.off != R.HP_IRQ_STATUS.off else r.kept
  | none => off < 0x300000

/-- Jobs and loads in flight end with RESET; their records wait for the host port (R187). -/
def State.resetJobs (s : State) : State :=
  let ofJob := fun (x : Nat × Job) =>
    (Done.mk x.2.group x.1 true x.2.adm x.2.deadline (x.2.busy + s.runningNs x.1) stReset 0 0)
  let ofLoad := fun (x : Group × Nat) => (Done.mk x.1 0 true x.2 none 0 stReset 0 0)
  let ofStep := fun (g : Group) => (Done.mk g 0 false 0 none 0 stReset 0 0)
  let l := s.ds.jobs.cells.map ofJob ++ s.ds.loads.vals.map ofLoad ++ s.ds.steps.map ofStep
  { s with ds := { s.ds with jobs := Tbl.empty, loads := Tbl.empty, steps := [], resets := s.ds.resets ++ l,
                             credit := Tbl.empty, starve := Tbl.empty, waiting := Tbl.empty } }

/-- The operations of the cipher unit end with RESET: what a decryption has written is zeroed, suspended operations are
dropped, those of the audit port end; nothing is posted (R433, R438). -/
def State.resetCipher (s : State) : State :=
  let s := match s.cu.fw with
    | none => s
    | some o => if o.op = 2 then s.zeroMem o.dst o.done else s
  { s with cu := { s.cu with fw := none, audit := [], turn := none, data := Tbl.empty } }

/-- The pipelines, decoder channels and cores stop (R140, R159, R187). -/
def State.resetPlane (s : State) : State :=
  let s := foldS (List.range s.cfg.camPipes) (fun p s =>
    let t := (s.pipeStop p).put R.CX_CAM_CTL_en [p] 0
    t.setPipe p { t.pipe p with upOn := false }) s
  let s := foldS (List.range 4) (fun c s => (s.decStop c).put R.PP_DEC_CTL_en [c] 0) s
  { s with cores := s.cores.mapVals (fun _ k => { Core.init with statics := k.statics }), signals := [] }

/-- The management plane's part: the ESM returns to INIT and what it had in hand is dropped (R512); the journal stays. -/
def State.resetMgmt (s : State) : State :=
  { s with mgmtHalted := false, jrn := { s.jrn with pend := [] }, phaseDone := 0,
           boot := { s.boot with stop := 0, sramBad := false, phaseTt := s.tt, expired := false, installed := false },
           ecat := { s.ecat with al := 1, alErr := false, alCode := 0, sm0 := none, sm1 := none, replies := [],
                                 lastCnt := 0, stored := none, nextCnt := 1, lastRead := none,
                                 lastIn := [], seg := none, foe := none, mhb := 0,
                                 tlmSel := 0, out := [], imageMs := none, wdTt := s.tt, cursor := 0, cancelResult := 0,
                                 keyData := List.replicate 32 0#8 } }

/-- The last part of warm reset: the registers that the table does not keep, the boot status, the management plane and the
counters; `cut` says that an operation of the cipher unit was ended. -/
def State.warmStart (s : State) (cut : Bool) : State :=
  let s := s.keepRegs (keptWarm s.cfg)
  let s := (s.put R.HP_BOOT_STATUS_phase [] 1).put R.HP_BOOT_STATUS_warm [] 1
  let s := if cut then s.put R.CU_OP_STATUS_status [] cuReset else s
  { s.resetMgmt with pc := { capture := Tbl.empty, latch := [], busy := none, seq := 0, skipped := 0, lastInst := s.tt,
                             lfsr := Tbl.empty, tag := Tbl.empty } }

/-- Assertion of warm reset; ignored under POR_N and until bring-up has left ROM (R47). -/
def State.warmAssert (s : State) : State :=
  if s.por || s.warm || s.phase == 1 || s.phase == 15 then s
  else
    let cut := s.cu.fw.isSome
    let s : State := { s with warm := true, ecatHold := false }
    let s := (s.actStop false).bypassUpdate
    let s := s.put R.AU_CTL_en [] 0
    let s := (s.resetJobs.resetCipher.audReset).resetPlane
    let s := s.fabricWarm.quillWarm.resetParts true
    let s := foldS (List.range s.cfg.submitRings) (fun r s => if s.flag R.DS_RING_CTL_en [r] then s.put R.DS_RING_CTL_en [r] 0
      else s) (s.put R.DS_SCHED_CTL_en [] 0)
    let s := foldS (List.range s.cfg.cores) (fun c s => s.put R.EM_CORE_TGT_lim_code [c] 68) s
    s.warmStart cut

/-- Release of warm reset: warm bring-up begins in ROM (R490). -/
def State.warmRelease (s : State) : State :=
  if s.por || !s.warm then s
  else
    let s : State := { s with warm := false, ecatHold := s.cu.test == 1 && s.get R.EM_VMON_STATUS_fault == 0 }
    s.setPhase 1

/-! ### ROM (R474, R475) -/

/-- The first `n` bytes of an image place; what is not programmed reads 0xFF. -/
def flashBytes (l : List Byte) (n : Nat) : List Byte := l.take n ++ List.replicate (n - l.length) 0xFF#8

/-- The cause of Table 19-4 with which an image fails. A self-test that has failed leaves the tag unchecked. -/
def State.imageCause (s : State) (l : List Byte) : Option Nat :=
  let h := flashBytes l 64
  let f := fun (a n : Nat) => leVal ((h.drop a).take n)
  let n := 64 + f 8 4
  if !s.boot.flash.ok ∨ s.boot.flash.size < 16777216 then some 1
  else if f 0 4 ≠ 0x53574650 ∨ f 14 50 ≠ 0 then some 2
  else if 229376 < n + 16 then some 3
  else if s.cfg.rtlRelease < f 12 2 then some 4
  else if s.cu.test = 2 then some 6
  else
    let b := flashBytes l (n + 16)
    if cmac fwKeyBytes (b.take n) = b.drop n then none else some 5

/-- An image place is rejected: its cause shows, FW_IMAGE_REJECTED. -/
def State.imageRejected (s : State) (b : Bool) (cause : Nat) : State :=
  let s := if cause = 5 then s.cuFailed 0 4 cuAuth else if cause = 6 then s.cuRefused 0 4 cuFault else s
  (s.put (if b then R.HP_BOOT_STATUS_cause_b else R.HP_BOOT_STATUS_cause_a) [] cause).post E.FW_IMAGE_REJECTED none
    [(.en, b2n b + 1), (.en, cause)]

/-- The record of a pair of copies with the higher sequence number (R468). -/
def newestCopy {α : Type} (a b : Option (Nat × α)) : Option α :=
  match a, b with
  | some x, some y => some (if x.1 < y.1 then y.2 else x.2)
  | some x, none => some x.2
  | none, some y => some y.2
  | none, none => none

/-- Bytes of an image place. -/
def Flash.image (f : Flash) (b : Bool) : List Byte := if b then f.imgB else f.imgA

/-- The device key: rebuilt, or enrolled from an empty helper sector (R426, R436, R488). -/
def State.deviceKey (s : State) : State :=
  if s.boot.flash.ok && s.boot.flash.helper < 2 then s.put R.HP_BOOT_STATUS_key_ok [] 1
  else { s with cu := { s.cu with devBad := true } }.post E.DEVICE_KEY_FAIL none []

/-- Firmware of an image place starts: the code stands in working SRAM, CU_OP_CTL is cleared, REMAP is 1. -/
def State.startImage (s : State) (b fallback : Bool) : State :=
  let l := s.boot.flash.image b
  let h := flashBytes l 64
  let n := 80 + leVal ((h.drop 8).take 4)
  let s := s.writeMem 0x40000 (flashBytes l n)
  let s := (s.put R.HP_BOOT_STATUS_image [] (b2n b)).put R.HP_BOOT_STATUS_fallback [] (b2n fallback)
  let s : State := { s with boot := { s.boot with release := leVal ((h.drop 4).take 4) }, ecat := { s.ecat with wdTt := s.tt } }
  (s.setRegWord R.CU_OP_CTL [] 0).remapWrite .fw 1

/-- The boot ROM's work once the self-tests have ended: whether firmware has started. -/
def State.romWork (s : State) : Bool × State :=
  let s := if s.warmUp then s else s.deviceKey
  let s := (s.put R.HP_BOOT_STATUS_cause_a [] 0).put R.HP_BOOT_STATUS_cause_b [] 0
  let act := (newestCopy s.boot.flash.dir0 s.boot.flash.dir1).getD 0 == 1
  match s.imageCause (s.boot.flash.image act) with
  | none => (true, s.startImage act false)
  | some q =>
    let s := s.imageRejected act q
    match s.imageCause (s.boot.flash.image (!act)) with
    | none => (true, s.startImage (!act) true)
    | some q => (false, s.imageRejected (!act) q)

/-! ### The work of later phases -/

/-- Key slots from the newest key store (R438, R488). -/
def State.restoreKeys (s : State) : State :=
  if s.cu.devBad then s
  else if s.boot.flash.helper = 0 then
    let f := { s.boot.flash with helper := 1, key0 := none, key1 := none }
    { s with boot := { s.boot with flash := f } }.post E.DEVICE_KEY_ENROLLED none []
  else match newestCopy s.boot.flash.key0 s.boot.flash.key1 with
    | none => s
    | some t => foldS t.cells (fun c s =>
        s.putKey .fw c.1 c.2.use (b2n c.2.k256) (some c.2.key) (c.1 + b2n c.2.k256 * 2 ^ 4 + c.2.use * 2 ^ 5 + 2 ^ 31) false) s

/-- The journal's seq continues from the last checkpoint; an empty log gives 0 (R512, R600). -/
def State.restoreLog (s : State) : State :=
  let l := s.log
  let head := match l.newest 1 with
    | some r => (r.first + r.count) % 2 ^ 32
    | none => 0
  let s : State := { s.put R.HP_JRN_HEAD_seq [] head with jrn := { s.jrn with saved := head } }
  if l.recs.isEmpty then s.post E.PARAM_STORE_FAULT none [(.val, 0xE0000), (.en, 1)] else s

/-- MANAGEMENT. -/
def State.workManagement (s : State) : State :=
  let s := if s.warmUp then s
    else
      let n := (s.boot.flash.boots + 1) % 2 ^ 32
      let s : State := { s with cu := { s.cu with boot := n }, boot := { s.boot with flash := { s.boot.flash with boots := n } } }
      s.restoreLog.restoreKeys
  let s : State := { s with aud := { s.aud with sealCtr := s.boot.flash.seals, restored := true } }
  let s := if s.boot.flash.params.isNone then s.post E.PARAM_STORE_FAULT none [(.val, 0xA0000), (.en, 1)] else s
  ((s.restoreSubs 0x2000 (fun _ => true)).storeAbsent 0x2700).restoreSubs 0x2700 (fun k => !inRun k 0x10 32)

/-- A Burrow port's PHY has signalled ready with a size. -/
def State.brwReady (s : State) (p : Nat) : Bool :=
  s.flag R.FB_BRW_STATUS_phy_ready [p] && s.get R.FB_BRW_STATUS_size_in [p] != 0

/-- MEMORY: firmware sets up and fills each ready port, and opens those whose fill is done (R329). -/
def State.workMemory (s : State) : State :=
  if s.warmUp then s
  else foldS (List.range s.cfg.burrowPorts) (fun p s =>
    let size := s.get R.FB_BRW_CFG_size [p]
    if !s.brwReady p || s.burrowOpen p then s
    else if size = 0 then s.brwCfgWrite .fw p (s.get R.FB_BRW_STATUS_size_in [p] + 2 ^ 9)
    else if s.flag R.FB_BRW_STATUS_init_busy [p] then s
    else s.brwCfgWrite .fw p (size + 2 ^ 8)) s

/-- TB_CTL can select REF2 (R374). -/
def State.ref2Used (s : State) : Bool :=
  s.refPresent 2 && ((s.get R.TB_CTL_mode == 2 && s.get R.TB_CTL_manual_ref == 2)
    || (s.get R.TB_CTL_mode == 1 && s.prioList.contains 2))

/-- The installation record is loaded once (R374, R489). -/
def State.loadInstall (s : State) : State :=
  if s.boot.installed ∨ s.cfg.quillPorts = 0 then s
  else
    let s : State := { s with boot := { s.boot with installed := true } }
    match s.boot.flash.install with
    | none => s.post E.PARAM_STORE_FAULT none [(.val, 0x3000), (.en, 1)]
    | some r =>
      let s := s.applyAt .fw R.QM_ID.off (r.chip % 2 ^ 12 + r.d * 2 ^ 12) false
      let s := s.applyAt .fw R.QP_MACHINE_TAG.off r.tag false
      foldS (List.range 128) (fun k s => s.applyAt .fw (R.QM_PRESENT.addr [k]) (r.present.getD k 0) false) s

/-- A port below d whose neighbour is present is set up and enabled (R375). -/
def State.setupPort (s : State) (p : Nat) : State :=
  let far := s.chipNo ^^^ 2 ^ p
  if s.cfg.quillPorts ≤ p ∨ s.qd ≤ p ∨ !s.present? far ∨ s.flag R.QP_CTL_en [p] then s
  else
    let s := (s.storeAbsent (0x2500 + p)).restoreSubs (0x2500 + p) (fun k => k == 2 || k == 5)
    let s := s.applyAt .fw (R.QP_TRACE_EXP_LO.addr [p]) (far + p * 2 ^ 12) false
    let s := s.applyAt .fw (R.QP_TRACE_EXP_HI.addr [p]) (s.get R.QP_MACHINE_TAG_tag) false
    (s.fwField R.QP_CTL_tim_en [p] 1).fwField R.QP_CTL_en [p] 1

/-- TIMEBASE. -/
def State.workTimebase (s : State) : State :=
  if s.warmUp then s
  else
    let s := s.restoreObject 0x2100
    if !s.ref2Used then s
    else
      let s := s.loadInstall
      if s.boot.flash.install.isSome then s.setupPort (s.get R.TB_CTL_ref2_port) else s

/-- LINKS. Delivery restarts on a chip that was reset warm (R370). -/
def State.workLinks (s : State) : State :=
  if s.warmUp then { s with quill := { s.quill with stuff := false } }
  else
    let s := s.loadInstall
    if s.cfg.quillPorts = 0 ∨ s.boot.flash.install.isNone then s
    else (foldS (List.range s.qd) (fun p s => s.setupPort p) s).fwField R.QM_CTL_en [] 1

/-- POSITION. -/
def State.workPosition (s : State) : State :=
  (foldS (List.range s.cfg.posChannels) (fun ch s => s.restoreObject (0x2200 + ch)) s).fwField R.PU_GLOBAL_bypass_open [] 1

/-- The stored core_ctl of a core, else its reset value. -/
def State.storedCore (s : State) (c : Nat) : Nat :=
  match s.boot.flash.params.bind (fun l => l.find? (fun p => p.index == 0x2600 && p.sub == 0x20 + c)) with
  | some p => p.value
  | none => resetWord s.cfg R.CR_CORE_CTL [c]

/-- CORES. -/
def State.workCores (s : State) : State :=
  let s := foldS (List.range s.cfg.cores) (fun c s =>
    s.applyAt .fw (R.CR_CORE_CTL.addr [c]) (setBits (s.storedCore c) 0 0 1) false) s
  s.restoreSubs 0x2700 (fun k => inRun k 0x10 32)

/-- SCHEDULER; no recipe is running, so rcp_ctl is not written. -/
def State.workScheduler (s : State) : State :=
  let s := (s.storeAbsent 0x2600).restoreSubs 0x2600 (fun k => !inRun k 0x20 0x30)
  let s := s.restoreObject 0x2601
  let s := if 128 < s.cfg.submitRings then s.restoreObject 0x2602 else s
  (foldS s.rcp.keys (fun k s => s.showLoaded k) s).fwField R.DS_SCHED_CTL_en [] 1

/-- CAMERAS. -/
def State.workCameras (s : State) : State := foldS (List.range s.cfg.camPipes) (fun p s => s.restoreObject (0x2400 + p)) s

/-- Wear counters from the newest wear checkpoint (R314, R600). -/
def State.restoreWear (s : State) : State :=
  match s.log.newest 2 with
  | none => s
  | some r =>
    let s := foldS (List.range (min r.count s.cfg.actOutputs)) (fun o s =>
      let b := fun (a n : Nat) => leVal ((r.payload.drop (12 * o + a)).take n)
      (s.setPair R.AU_WEAR_LO R.AU_WEAR_HI [o] (b 0 8)).setRegWord R.AU_ONTIME [o] (b 8 4)) s
    { s with boot := { s.boot with wear := r.payload } }

/-- ACTUATION. -/
def State.workActuation (s : State) : State :=
  let s := if s.warmUp then s else s.restoreWear
  (s.restoreObject 0x2300).fwField R.AU_CTL_en [] 1

/-- CONTROL: the records that a warm reset left are made, and its discards reported (R187, R293, R315). -/
def State.workControl (s : State) : State :=
  let l := s.ds.resets.map (fun d => { d with tt := s.tt })
  let recs := s.boot.late
  let s : State := { s with ds := { s.ds with resets := [], dones := s.ds.dones ++ l }, boot := { s.boot with late := [] } }
  (foldS recs (fun c s => s.completion c) s).reportResetDiscards

/-- The work of a phase as it begins. -/
def State.phaseWork (s : State) (p : Nat) : State :=
  match p with
  | 2 => s.workManagement
  | 3 => s.workMemory
  | 5 => s.workTimebase
  | 6 => s.workLinks
  | 7 => s.workPosition
  | 8 => s.workCores
  | 9 => s.workScheduler
  | 10 => s.workCameras
  | 11 => s.workActuation
  | _ => s

/-- The phase is done (Table 19-3). -/
def State.phaseHolds (s : State) (p : Nat) : Bool :=
  match p with
  | 3 => s.warmUp || (List.range s.cfg.burrowPorts).all (fun b => s.burrowOpen b || (s.boot.expired && !s.brwReady b))
  | 4 => (List.range 4).all (fun k => s.audState k == audIdle)
  | 5 => s.warmUp || s.boot.expired || s.tbSt == 2 || s.get R.TB_CTL_mode == 0
  | 6 =>
    s.warmUp || s.boot.expired || s.cfg.quillPorts == 0 || s.boot.flash.install.isNone
      || s.dimsPresent.all (fun i => s.flag R.QM_DIM_STATUS_up [i])
  | 7 => s.bypassHold || s.bypassFail == 3 || !(List.range s.cfg.posChannels).any (fun c => s.flag R.PU_CH_CTL_pt_en [c])
  | 8 => !s.flag R.EM_CTL_dvfs_en || (List.range s.cfg.cores).all (fun c => s.coreHeld c || s.fCode c == s.goalCode c)
  | _ => true

/-! ### Orderly shutdown (R479) -/

/-- STOPPING begins: run is cleared on every recipe. -/
def State.startStop (s : State) : State :=
  let s := (s.setPhase 13).post E.SHUTDOWN_STATE none [(.en, 13), (.val, 0)]
  let s : State := { s with boot := { s.boot with stop := 2, stopTt := s.tt, ended := 0 } }
  foldS ((List.range 16).filter (fun n => s.flag R.DS_RCP_CTL_run [n])) (fun n s => s.fwField R.DS_RCP_CTL_run [n] 0) s

/-- Close the audit contexts that take the command. -/
def State.closeAudits (s : State) : State :=
  foldS ((List.range 4).filter (fun k => s.audState k == audOpen || s.audState k == audSealed)) (fun k s => s.audCloseCmd .fw k) s

/-- Step 4 of R479. -/
def State.stopBlocks (s : State) : State :=
  let on := fun (f : Fld) (n : Nat) (s : State) => (List.range n).filter (fun k => s.flag f [k])
  let s := if s.flag R.AU_CTL_en then s.fwField R.AU_CTL_en [] 0 else s
  let s := foldS (on R.CX_CAM_CTL_en s.cfg.camPipes s) (fun p s => s.fwField R.CX_CAM_CTL_en [p] 0) s
  let s := foldS (on R.PP_DEC_CTL_en 4 s) (fun c s => s.fwField R.PP_DEC_CTL_en [c] 0) s
  let s := if s.flag R.DS_SCHED_CTL_en then s.fwField R.DS_SCHED_CTL_en [] 0 else s
  let s := foldS (List.range s.cfg.cores) (fun c s => s.fwField R.CR_CORE_CTL_drain [c] 1) s
  { s with boot := { s.boot with stop := 3 } }.closeAudits

/-- No recipe has an open part, the actuation table is empty and no output is active (R479). -/
def State.drained (s : State) : Bool :=
  s.rcp.vals.all (fun r => r.parts.isEmpty) && s.au.table.cells.isEmpty
    && (List.range s.cfg.actOutputs).all (fun o => !(s.out o).active)

/-- Steps 5 to 7 of R479. -/
def State.enterStopped (s : State) (ok1 ok2 : Bool) : State :=
  let s := if s.unsavedCount = 0 then s else s.journalWrite ok1 ok2
  let s := s.wearWrite ok1 ok2
  let s := if s.flag R.PU_GLOBAL_bypass_open then s.fwField R.PU_GLOBAL_bypass_open [] 0 else s
  let n := s.boot.ended
  let s := (s.setPhase 14).post E.SHUTDOWN_STATE none [(.en, 14), (.val, n)]
  { s with boot := { s.boot with stop := 0 } }

/-- DRAIN_COMPLETE: shutdown goes on as far as its conditions hold; `ok1` and `ok2` are the read-backs of a checkpoint's
first and second attempt. -/
def State.drainStep (s : State) (ok1 ok2 : Bool) : State :=
  if s.phase ≠ 13 then s
  else
    let s := if s.boot.stop = 2 ∧ s.drained then s.stopBlocks else s
    if s.boot.stop ≠ 3 then s
    else
      let s := s.closeAudits
      if s.ds.jobs.cells.isEmpty && s.ds.loads.cells.isEmpty && (List.range 4).all (fun k => s.audState k == audIdle) then
        s.enterStopped ok1 ok2
      else s

/-- DRAIN_TIMEOUT: after drain_s the remaining parts end with reason reset, and the armed entries are freed (R479). -/
def State.drainLimit (s : State) : State :=
  if s.phase ≠ 13 ∨ s.boot.stop ≠ 2 ∨ s.tt < s.boot.stopTt + s.boot.drain * 1000000000 then s
  else
    let n := (s.rcp.vals.map (fun r => r.parts.length)).foldl (· + ·) 0
    let s : State := { s with boot := { s.boot with ended := n } }
    ((s.resetParts false).auCancel 0 true).stopBlocks

/-! ### From phase to phase (R469) -/

/-- Phase `p` begins and firmware does its work; READY has none. -/
def State.beginPhase (s : State) (p : Nat) : State :=
  let s := s.setPhase p
  if p = 12 then { s with phaseDone := 12 } else s.phaseWork p

/-- Phase `p` is done: what it brings, then the next phase, or the shutdown that was asked for. -/
def State.endPhase (s : State) (p : Nat) : State :=
  let s : State := { s with phaseDone := p }
  let s := if p = 4 then s.workControl else s
  if s.boot.stop = 1 then s.startStop else s.beginPhase (p + 1)

/-- BRINGUP_PHASE_DONE: the phase's condition holds. In ROM, firmware starts or the device is HALTED (R486). -/
def State.phaseStep (s : State) : State :=
  let p := s.phase
  if s.por || s.warm then s
  else if p = 1 then
    if s.cu.test = 0 then s
    else
      let r := s.romWork
      if r.1 then r.2.endPhase 1 else r.2.setPhase 15
  else if 2 ≤ p ∧ p ≤ 11 then
    let s := if p = 3 then s.workMemory else s
    if s.phaseHolds p then s.endPhase p else s
  else s

/-- The wait limits of Table 19-3, ns. -/
def waitLimit (p : Nat) : Option Nat :=
  if p = 3 then some 100000000 else if p = 5 then some 2000000000 else if p = 6 then some 1000000000 else none

/-- BRINGUP_WAIT_EXPIRED: the phase is done; in MEMORY the ports whose PHY is not ready are absent, and the fills go on. -/
def State.waitExpired (s : State) : State :=
  let p := s.phase
  match waitLimit p with
  | none => s
  | some n =>
    if s.por ∨ s.warm ∨ s.boot.expired ∨ s.tt < s.boot.phaseTt + n ∨ s.phaseHolds p
        ∨ (p = 3 ∧ (List.range s.cfg.burrowPorts).all s.brwReady) then s
    else
      { s with boot := { s.boot with expired := true } }.post E.BRINGUP_WAIT_EXPIRED none [(.en, p)] |>.phaseStep

/-- The ROM phase restarts after an image has been accepted (R486). -/
def State.romRestart (s : State) : State := s.setPhase 1

/-! ### HP_LIFECYCLE and 0x2000:05 (R478, R479, R525) -/

def codeWarm : Nat := 0x5741524D
def codeStop : Nat := 0x53544F50

/-- A lifecycle write is journalled as one command entry. -/
def State.lifeJournal (s : State) (src : Src) (status cause v : Nat) : State :=
  s.jrnEntry (srcNum src) status cause (if src = .sdo then dictLoc 0x2000 5 else R.HP_LIFECYCLE.addr []) 0 v true

/-- The result of a lifecycle write. -/
def State.lifeResult (s : State) (r : Nat) : State := s.put R.HP_BOOT_STATUS_lc_result [] r

/-- A warm reset code: accepted, then warm reset is asserted. -/
def State.lifeWarm (s : State) (src : Src) : State :=
  if s.hostShut src then s.hostAbandon else ((s.lifeJournal src 0 0 codeWarm).lifeResult 1).warmAssert

/-- A shutdown code: accepted in bring-up and in READY, busy otherwise (Table 19-10). -/
def State.lifeStop (s : State) (src : Src) : State :=
  if s.hostShut src then s.hostAbandon
  else if s.boot.stop ≠ 0 ∨ s.phase < 2 ∨ 12 < s.phase then (s.lifeJournal src 2 causeBlock codeStop).lifeResult 2
  else
    let s := (s.lifeJournal src 0 0 codeStop).lifeResult 1
    if s.phase = 12 then s.startStop else { s with boot := { s.boot with stop := 1 } }

/-- A write to HP_LIFECYCLE. -/
def State.lifeWrite (s : State) (src : Src) (v : Nat) : State :=
  if v = codeWarm then s.lifeWarm src
  else if v = codeStop then s.lifeStop src
  else if s.hostShut src then s.hostAbandon
  else (s.lifeJournal src 2 causeRange v).lifeResult 3

/-! ### Islands (R49) -/

/-- The position island's own state as POR_N leaves it; the position clock counts on (log 77). -/
def State.resetPosition (s : State) : State :=
  let z := State.cold s.cfg s.boot.flash 0 []
  { s with tb := { z.tb with cycles := s.tb.cycles }, pu := z.pu, au := { z.au with resetDiscards := s.au.resetDiscards },
           tt := 0, ttFrac := 0 : State }.startScans

/-- The fabric island's own state as POR_N leaves it: fabric, host port, dispatcher, recipes, decoder, audit contexts and
the Quill machine (log 86). What memory holds stays. -/
def State.resetFabric (s : State) : State :=
  let z := State.cold s.cfg s.boot.flash 0 []
  { s with fab := z.fab, host := z.host, ds := z.ds, rcp := z.rcp, decs := z.decs, remote := [],
           aud := { z.aud with sealCtr := s.aud.sealCtr, restored := s.aud.restored },
           quill := { z.quill with rx := s.quill.rx, tx := s.quill.tx } }

/-- The descriptors that an engine has in hand. -/
def Engine.descs (x : Engine) : List Desc := x.queue ++ x.run.toList.map (·.desc) ++ x.ending.map (·.1)

/-- Core `c` as POR_N leaves it (R186): nothing queued, no window lent, the counters 0. A recipe's static counters stay
reserved, and the numbers of writes go on, so that late answers find no write. Jobs lose what the core had in hand (R260). -/
def State.resetCore (s : State) (c : Nat) : State :=
  let k := s.core c
  let s := s.setCore c { Core.init with statics := k.statics, eng := k.eng.mapVals (fun _ x => { Engine.init with nextW := x.nextW }) }
  foldS (k.eng.vals.flatMap Engine.descs) (fun d s =>
    s.modJob d.job (fun j => { j with inFlight := j.inFlight - 1, lost := j.lost + 1 })) s

/-- The state that island `i` has in reset: its registers, and what stands behind them. -/
def State.resetIsland (s : State) (i : Nat) : State :=
  let s := s.keepRegs (fun off => regIsland s.cfg off != i)
  if i = 52 then s.resetFabric
  else if i = 53 then s.resetPosition
  else if i < 32 then s.resetCore i
  else if i < 40 then
    foldS ((List.range 4).map (4 * (i - 32) + ·)) (fun p s => if p < s.cfg.camPipes then s.setPipe p Pipe.init else s) s
  else (s.setQrx (i - 40) QRx.init).setQtx (i - 40) QTx.init

/-- The clock of an island stops: ISLAND_CLOCK_ABSENT. The outputs of a lost position island are safe; a lost core's engines
do no more, and its groups wait for their deadlines (R260); a lost fabric island is reset at once. -/
def State.clockLoss (s : State) (i : Nat) : State :=
  if s.por || !islandExists s.cfg i || s.heldIsl.contains i then s
  else
    let s : State := { s with heldIsl := s.heldIsl ++ [i] }
    let s := s.post E.ISLAND_CLOCK_ABSENT none [(.ix, i)]
    if i = 52 then s.resetIsland 52
    else if i < 32 then s.resetCore i
    else if i = 53 then (s.actStop true).bypassUpdate
    else s

/-- The clock of a held island returns: it leaves reset as POR_N would leave it. -/
def State.clockReturn (s : State) (i : Nat) : State :=
  if s.por || !s.heldIsl.contains i then s
  else
    let s := { s with heldIsl := s.heldIsl.erase i }.resetIsland i
    if i = 53 then s.bypassUpdate else s

/-! ### Commands -/

/-- POR_ASSERT. -/
def execPorAssert (s : State) : Host.Outcome State Fault Refusal := .next (s.powerOn s.powered true)

/-- POR_RELEASE. -/
def execPorRelease (absent : List Nat) (s : State) : Host.Outcome State Fault Refusal := .next (s.porRelease absent)

/-- POWER_LOSS. -/
def execPowerLoss (s : State) : Host.Outcome State Fault Refusal := .next (s.powerOn false true)

/-- WARM_RST_ASSERT. -/
def execWarmRstAssert (s : State) : Host.Outcome State Fault Refusal := .next s.warmAssert

/-- WARM_RST_RELEASE. -/
def execWarmRstRelease (s : State) : Host.Outcome State Fault Refusal := .next s.warmRelease

/-- ISLAND_CLOCK_LOSS. -/
def execIslandClockLoss (island : Nat) (s : State) : Host.Outcome State Fault Refusal := .next (s.clockLoss island)

/-- ISLAND_CLOCK_RETURN. -/
def execIslandClockReturn (island : Nat) (s : State) : Host.Outcome State Fault Refusal := .next (s.clockReturn island)

/-- BRINGUP_PHASE_DONE. -/
def execBringupPhaseDone (s : State) : Host.Outcome State Fault Refusal := .next s.phaseStep

/-- BRINGUP_WAIT_EXPIRED. -/
def execBringupWaitExpired (s : State) : Host.Outcome State Fault Refusal := .next s.waitExpired

/-- LIFECYCLE_WARM_RESET. -/
def execLifecycleWarmReset (src : Src) (s : State) : Host.Outcome State Fault Refusal := .next (s.lifeWarm src)

/-- LIFECYCLE_SHUTDOWN. -/
def execLifecycleShutdown (src : Src) (s : State) : Host.Outcome State Fault Refusal := .next (s.lifeStop src)

/-- DRAIN_COMPLETE. -/
def execDrainComplete (ok1 ok2 : Bool) (s : State) : Host.Outcome State Fault Refusal := .next (s.drainStep ok1 ok2)

/-- DRAIN_TIMEOUT. -/
def execDrainTimeout (s : State) : Host.Outcome State Fault Refusal := .next s.drainLimit

end Sys2Proof.Machine
end

