-- ==== Sys2Proof/Machine/RegPort.lean ====
section
/-! DEFINITION. The way into register space: from a source, and through the fabric's register target (R318, R471, R543). -/

namespace Sys2Proof.Machine

/-- A register write by a source. HP_LIFECYCLE acts at once; `full` says that the byte enables cover the word (R11). -/
def State.portWrite (s : State) (src : Src) (off v : Nat) (full : Bool) : State :=
  if off / 4 * 4 = R.HP_LIFECYCLE.off ∧ full then s.lifeWrite src (v % 2 ^ 32) else s.regWrite src off v full

/-- The source that a master port stands for: the host port and the management plane; no other master writes registers. -/
def masterSrc (m : Nat) : Option Src := if m = 0x2A then some .host else if m = 0x2C then some .fw else none

/-- Register space as the fabric serves it. What is written only over the management register path, which does not cross the
fabric, no access that crosses it writes (R35, R543). -/
def regPort : RegPort where
  wr s m off v :=
    match masterSrc m with
    | some src => if mgmtOnly (off / 4 * 4) then s else s.portWrite src off v true
    | none => s
  rd s m off :=
    match masterSrc m with
    | some src => if s.hostShut src && !earlyRead off then (2 ^ 32 - 1, s.hostAbandon) else s.readAt off
    | none => (0, s)

/-- REGISTER_WRITE. -/
def execRegisterWrite (src : Src) (off v : Nat) (full : Bool) (s : State) : Host.Outcome State Fault Refusal :=
  .next (s.portWrite src off v full)

/-- PAIR_HI_WRITE: a write of a whole _HI word. -/
def execPairHiWrite (src : Src) (off v : Nat) (s : State) : Host.Outcome State Fault Refusal := .next (s.portWrite src off v true)

/-- W1C_REGISTER_WRITE: a write of a whole word with w1c bits. -/
def execW1cRegisterWrite (src : Src) (off v : Nat) (s : State) : Host.Outcome State Fault Refusal :=
  .next (s.portWrite src off v true)

/-- WRITE_ACKNOWLEDGEMENT. -/
def execWriteAcknowledgement (target : Nat) (bad : List Nat) (s : State) : Host.Outcome State Fault Refusal :=
  .next (s.commitBeat regPort target bad)

/-- READ_RESPONSE. -/
def execReadResponse (target : Nat) (fixed bad : List Nat) (s : State) : Host.Outcome State Fault Refusal :=
  .next (s.readBeat regPort target fixed bad)

end Sys2Proof.Machine
end

