-- ==== Sys2Proof/Machine/Ecat.lean ====
section
/-! DEFINITION. The EtherCAT port and the management plane's service of it (chapters 20 and 21): the state machine, the
mailbox, SDO, FoE, process data, emergencies and the watchdogs. -/

namespace Sys2Proof.Machine

/-! ### The mailbox (R495, R497, R501) -/

/-- The AL states (IEC 61158 Type 12). -/
def alInit : Nat := 1
def alPreop : Nat := 2
def alBoot : Nat := 3
def alSafeop : Nat := 4
def alOp : Nat := 8

/-- PREOP, SAFEOP or OP. -/
def State.alUp (s : State) : Bool := s.ecat.al == alPreop || s.ecat.al == alSafeop || s.ecat.al == alOp

/-- The ESC runs: neither reset is asserted. -/
def State.escOn (s : State) : Bool := !s.por && !s.warm

/-- Mailbox requests are served: the ESC has left INIT and the management watchdog has not expired (R510). -/
def State.mailOn (s : State) : Bool := s.escOn && s.ecat.al != alInit && !s.mgmtHalted

/-- SM1 takes the oldest response that waits for it. -/
def State.fillSm1 (s : State) : State :=
  match s.ecat.sm1, s.ecat.replies with
  | none, x :: t => { s with ecat := { s.ecat with sm1 := some x, replies := t } }
  | _, _ => s

/-- Number a response 1 to 7 and give it to SM1 (R497). -/
def State.putReply (s : State) (r : Resp) : State :=
  let n := s.ecat.nextCnt
  { s with ecat := { s.ecat with replies := s.ecat.replies ++ [(r, n)], nextCnt := n % 7 + 1 } }.fillSm1

/-- Answer the request in hand; the response is stored for repetition. -/
def State.reply (s : State) (r : Resp) : State :=
  { s with ecat := { s.ecat with stored := some (r, s.ecat.nextCnt) } }.putReply r

/-- The stored response is placed in SM1 once more, before any other (R497, R509). -/
def State.placeAgain (s : State) : State :=
  match s.ecat.stored with
  | none => s
  | some x =>
    let rest := match s.ecat.sm1 with
      | some y => if y = x then s.ecat.replies else y :: s.ecat.replies
      | none => s.ecat.replies
    { s with ecat := { s.ecat with sm1 := some x, replies := rest } }

/-- Firmware takes a request from SM0: a repeat is answered from the stored response, any other is executed. -/
def State.mailRequest (s : State) (cnt : Nat) (run : State → State) : State :=
  if !s.mailOn then s
  else
    let s : State := { s with ecat := { s.ecat with sm0 := none } }
    if cnt % 8 ≠ 0 ∧ cnt % 8 = s.ecat.lastCnt ∧ s.ecat.stored.isSome then s.placeAgain
    else run { s with ecat := { s.ecat with lastCnt := cnt % 8, stored := none } }

/-- The 8 bytes of an emergency (Table 20-6). -/
def State.emcyBytes (s : State) (e : Event) : List Byte :=
  leBytes 2 0xFF00 ++ leBytes 1 s.errorReg ++ leBytes 2 e.code ++ leBytes 3 (e.detail % 2 ^ 24)

/-- Firmware sends the oldest emergency when SM1 is free; once a place is free for it, EMCY_OVERFLOW tells how many were
dropped (R501). -/
def State.sendEmcy (s : State) : State :=
  match s.ev.emcyQ with
  | [] => s
  | e :: t =>
    if !s.mailOn || !s.alUp || s.ecat.sm1.isSome || !s.fwRuns then s
    else
      let v := { s.ev with emcyQ := t, sent := (s.ev.sent + 1) % 2 ^ 32 }
      let s := { s with ev := v }.putReply (.emergency (s.emcyBytes e))
      let n := s.ev.emcyDropped
      if n = 0 ∨ 12 ≤ (t.filter (fun x => !emcyAlways x.code)).length then s
      else { s with ev := { s.ev with emcyDropped := 0 } }.post E.EMCY_OVERFLOW none [(.val, n)]

/-! ### FoE's end, and the state machine (R494, R499, R510) -/

/-- Files as FOE_DONE numbers them, in the order of Table 20-5 (R582). -/
def fileNo : FoeFile → Nat
  | .fw => 1
  | .params => 2
  | .journal => 3
  | .unknown => 0

/-- A transfer ends: FOE_DONE. -/
def State.foeEnd (s : State) (ending : Nat) : State :=
  match s.ecat.foe with
  | none => s
  | some x =>
    { s with ecat := { s.ecat with foe := none } }.post E.FOE_DONE none
      [(.en, fileNo x.file), (.en, (Config.foeResult ending).toNat)]

/-- The states as ECAT_STATE numbers them, in the order of Table 20-1 (R582). -/
def alNo (al : Nat) : Nat :=
  if al = alInit then 1 else if al = alPreop then 2 else if al = alSafeop then 3 else if al = alOp then 4 else 5

/-- The ESM enters a state: ECAT_STATE. INIT closes the mailbox and abandons the transfers (R509). -/
def State.alEnter (s : State) (al code : Nat) (err : Bool) : State :=
  let old := s.ecat.al
  let s := if al = alInit then s.foeEnd 1 else s
  let e := { s.ecat with al := al, alCode := code, alErr := err, sm2Tt := if al = alOp then s.tt else s.ecat.sm2Tt }
  let e := if al = alInit then { e with sm0 := none, sm1 := none, replies := [], seg := none, lastCnt := 0, stored := none }
    else e
  if al = old then { s with ecat := e }
  else { s with ecat := e }.post E.ECAT_STATE none [(.en, alNo old), (.en, alNo al), (.num, code)]

/-- A refused request leaves the state unchanged and sets the AL status code. -/
def State.alRefuse (s : State) (code : Nat) : State := { s with ecat := { s.ecat with alErr := true, alCode := code } }

/-- The phases in which the dictionary is limited (R470). -/
def State.limited (s : State) : Bool := decide (1 ≤ s.phase ∧ s.phase ≤ 11) || s.phase == 15

/-- The transitions of IEC 61158 Type 12 from a state. -/
def alNext (al : Nat) : List Nat :=
  if al = alInit then [1, 2, 3]
  else if al = alPreop then [1, 2, 4]
  else if al = alBoot then [1, 3]
  else if al = alSafeop then [1, 2, 4, 8]
  else [1, 2, 4, 8]

/-- Why a transition is refused (Table 20-3; the codes of IEC 61158 Type 12 for an unknown or invalid one). -/
def State.alRefusal (s : State) (al : Nat) : Option Nat :=
  let p := s.phase
  if !([1, 2, 3, 4, 8].contains al) then some 0x0012
  else if !((alNext s.ecat.al).contains al) then some 0x0011
  else if (al = alSafeop ∨ al = alOp) ∧ (p ≤ 11 ∨ p = 13 ∨ p = 15) then some 0x8001
  else if al = alPreop ∧ p = 15 then some 0x8001
  else if al = alBoot ∧ p ≠ 12 ∧ p ≠ 14 ∧ p ≠ 15 then some 0x8001
  else if al = alOp ∧ s.ecat.sm2 ≠ 4 then some 0x001D
  else if al = alOp ∧ s.ecat.sm3 ≠ 48 then some 0x001E
  else none

/-- A write to AL control: the requested state in [3:0], the error acknowledgement in [4]. An error that is not
acknowledged leaves only INIT to be requested. -/
def State.alControl (s : State) (v : Nat) : State :=
  let al := v % 16
  if !s.escOn || !s.ecatHold then s
  else if s.ecat.alErr && !bit v 4 && al != alInit then s
  else match s.alRefusal al with
    | some c => s.alRefuse c
    | none => s.alEnter al 0 false

/-- SM2_WATCHDOG_EXPIRY: 100 ms in OP without outputs. -/
def State.sm2Expiry (s : State) : State :=
  if !s.escOn ∨ s.ecat.al ≠ alOp ∨ s.tt < s.ecat.sm2Tt + 100000000 then s
  else (s.alEnter alSafeop 0x001B true).post E.PDO_WATCHDOG none []

/-- Firmware services the management watchdog, unless an error in its SRAM has stopped it (R599). -/
def State.wdService (s : State) : State :=
  if !s.fwRuns ∨ s.boot.sramBad then s
  else { s with mgmtHalted := false, ecat := { s.ecat with wdTt := s.tt } }

/-- A byte of the image with a bit set. -/
def setImageBit (l : List Byte) (k n : Nat) : List Byte := l.set k ((l.getD k 0) ||| BitVec.ofNat 8 (2 ^ n))

/-- MGMT_WATCHDOG_EXPIRY: 100 ms without service halt the management plane. -/
def State.wdExpiry (s : State) : State :=
  if !s.fwRuns ∨ s.mgmtHalted ∨ s.tt < s.ecat.wdTt + 100000000 then s
  else
    let s : State := { s with mgmtHalted := true, ecat := { s.ecat with image := setImageBit s.ecat.image 1 3 } }
    let s := if s.ecat.al = alOp then s.alEnter alSafeop 0x8002 true
      else { s with ecat := { s.ecat with alCode := 0x8002 } }
    s.post E.MGMT_HALTED none []

/-- ECAT_LINK_CHANGE. -/
def State.ecatLink (s : State) (port : Nat) (up : Bool) : State :=
  let old := if port = 0 then s.ecat.link0 else s.ecat.link1
  if !s.escOn ∨ 2 ≤ port ∨ old = up then s
  else
    let e := if port = 0 then { s.ecat with link0 := up } else { s.ecat with link1 := up }
    { s with ecat := e }.post E.ECAT_LINK none [(.ix, port), (.en, if up then 1 else 2)]

/-! ### Frames (R492, R493, R511) -/

/-- Why a mailbox message is answered with an error: a header that is malformed (0x0005), or a protocol that is not
supported (0x0002). -/
def mailFault (l : List Byte) : Option Nat :=
  let len := leVal (l.take 2)
  let ty := (l.getD 5 0).toNat % 16
  if l.length < 6 ∨ 256 < l.length ∨ 250 < len ∨ l.length < 6 + len then some 0x0005
  else if ty = 3 ∨ ty = 4 then none else some 0x0002

/-- A mailbox message arrives in SM0, which holds one. -/
def State.mailOut (s : State) (l : List Byte) : State :=
  if s.ecat.al = alInit ∨ s.ecat.sm0.isSome then s
  else match mailFault l with
    | some c => if s.mailOn then s.putReply (.mailError c) else { s with ecat := { s.ecat with sm0 := some l } }
    | none => { s with ecat := { s.ecat with sm0 := some l } }

/-- The response in SM1 is read, and the next takes its place. -/
def State.mailIn (s : State) : State :=
  if s.ecat.al = alInit then s
  else { s with ecat := { s.ecat with lastRead := s.ecat.sm1, sm1 := none } }.fillSm1.sendEmcy

/-- One access of a frame. -/
def State.ecatAccess (s : State) (a : EcatAccess) : State :=
  let data := s.ecat.al == alSafeop || s.ecat.al == alOp
  match a with
  | .mailOut l => s.mailOut l
  | .mailIn => s.mailIn
  | .outputs l => if data && l.length == 4 then { s with ecat := { s.ecat with out := l, sm2Tt := s.tt } } else s
  | .inputs => if data then { s with ecat := { s.ecat with lastIn := s.ecat.image } } else s
  | .syncManager n len =>
    if n = 2 then { s with ecat := { s.ecat with sm2 := len } }
    else if n = 3 then { s with ecat := { s.ecat with sm3 := len } }
    else s
  | .fmmu n l => if n < 3 then { s with ecat := { s.ecat with fmmu := s.ecat.fmmu.set n l } } else s

/-- ECAT_FRAME: a frame passes while the port forwards. -/
def State.ecatFrame (s : State) (l : List EcatAccess) : State :=
  if s.escOn && s.ecatHold then foldS l (fun a s => s.ecatAccess a) s else s

/-! ### Process data (R498, R522, R523) -/

/-- A temperature in whole °C as a signed byte (log 66). -/
def degrees (t : Int) : Nat :=
  let q := t / 16
  wrapInt 8 (if t % 16 ≠ 0 ∧ Config.degreeUp t then q + 1 else q)

/-- The telemetry page (Table 21-3). -/
def State.page (s : State) (sel : Nat) : List Byte :=
  let w := fun (r : RegSpec) (ix : List Nat) => leBytes 4 (s.peek (r.addr ix))
  let zero := List.replicate 16 0#8
  let fans := List.range 4
  if sel = 0 then w R.TB_STATUS [] ++ w R.TB_PHASE_ERR [] ++ w R.TB_RATE [] ++ w R.TB_HOLD_EST []
  else if sel = 1 then
    (List.range 16).flatMap (fun k => leBytes 1 (if s.siteValid k then degrees (s.siteTemp k) else 0x80))
  else if sel = 2 then
    fans.flatMap (fun f => leBytes 2 (s.get R.EM_FAN_TACH_rpm [f]))
      ++ fans.flatMap (fun f => leBytes 1 (s.get R.EM_FAN_STATUS_duty [f]))
      ++ fans.flatMap (fun f => leBytes 1 (s.get R.EM_FAN_STATUS_state [f]))
  else if sel = 3 then (List.range 8).flatMap (fun m => leBytes 2 (s.peek (R.EM_VMON_VAL.addr [m])))
  else if sel = 4 then w R.DS_STATUS [] ++ w R.AU_STATUS [] ++ w R.HP_JRN_HEAD [] ++ w R.HP_JRN_UNJ []
  else if 0x10 ≤ sel ∧ sel < 0x10 + s.cfg.posChannels then
    let ch := sel - 0x10
    let hi := s.peek (R.PU_CNT_HI.addr [ch])
    w R.PU_CNT_LO [ch] ++ leBytes 4 (wrapInt 32 (signedOf 16 hi)) ++ w R.PU_SPEED [ch] ++ w R.PU_STATUS [ch]
  else if 0x20 ≤ sel ∧ sel < 0x20 + s.cfg.quillPorts then
    let p := sel - 0x20
    w R.QP_STATUS [p] ++ w R.QM_DIM_STATUS [p] ++ w R.QP_TRACE_RX_LO [p] ++ w R.QP_TRACE_RX_HI [p]
  else if 0x40 ≤ sel ∧ sel < 0x40 + s.cfg.camPipes then
    let p := sel - 0x40
    w R.CX_CAM_STATUS [p] ++ w R.PP_PROD [p] ++ w R.PP_CONS [p] ++ leBytes 4 0
  else if 0x80 ≤ sel ∧ sel < 0x80 + s.cfg.cores then
    let c := sel - 0x80
    w R.EM_CORE_STATE [c] ++ w R.EM_CORE_TGT [c] ++ w R.CR_CORE_STATUS [c] ++ leBytes 4 0
  else zero

/-- The input image (Table 20-4). -/
def State.inputImage (s : State) : List Byte :=
  leBytes 2 s.statusWord ++ leBytes 2 s.ecat.mhb ++ leBytes 8 s.tt ++ leBytes 1 s.tbSt
    ++ leBytes 1 (match s.hottest with | some t => degrees t | none => Config.noTemp.toNat) ++ leBytes 2 0
    ++ leBytes 4 (s.partRecords 0xFF) ++ leBytes 4 (s.partRecords 0x02) ++ leBytes 4 (s.partRecords 0x1C)
    ++ leBytes 4 s.ev.posted ++ s.page s.ecat.tlmSel

/-- PDO_ASSEMBLY: once in a millisecond of TT; firmware takes the events of the cycle and sends what waits (R594). -/
def State.pdoAssembly (s : State) : State :=
  let ms := s.tt / 1000000
  if !s.fwRuns ∨ s.mgmtHalted ∨ s.ecat.imageMs = some ms then s
  else
    let s := s.unitsUpdate
    let s : State := { s with ev := { s.ev with mgmt := [] }, ecat := { s.ecat with image := s.inputImage, imageMs := some ms } }
    s.sendEmcy

/-- RXPDO_RECEIVED: the output image is read (R498). -/
def State.rxPdo (s : State) : State :=
  if !s.fwRuns ∨ s.mgmtHalted ∨ s.ecat.out.length ≠ 4 ∨ (s.ecat.al ≠ alSafeop ∧ s.ecat.al ≠ alOp) then s
  else
    let o := s.ecat.out
    { s with ecat := { s.ecat with mhb := leVal (o.take 2), tlmSel := leVal (o.drop 2) } }

/-! ### SDO upload (R470, R515, R518, R519) -/

/-- Abort codes (Table 21-15). -/
def abToggle : Nat := 0x05030000
def abTime : Nat := 0x05040000
def abSpecifier : Nat := 0x05040001
def abComplete : Nat := 0x06010000
def abWriteOnly : Nat := 0x06010001
def abReadOnly : Nat := 0x06010002
def abObject : Nat := 0x06020000
def abLength : Nat := 0x06070010
def abSub : Nat := 0x06090011
def abRange : Nat := 0x06090030
def abBlock : Nat := 0x08000020
def abStopped : Nat := 0x08000021
def abPhase : Nat := 0x08000022
def abJournal : Nat := 0x08000024

/-- Data that an initiate carries, and that a segment carries, in a mailbox of 256 bytes (log 67). -/
def initBytes : Nat := 240
def segBytes : Nat := 247

/-- The objects that answer while the dictionary is limited (R470). -/
def earlyObjects : List Nat := [0x1000, 0x1008, 0x1009, 0x100A, 0x1018, 0x2000]

/-- The dictionary refuses an object for its phase. -/
def State.earlyShut (s : State) (index : Nat) : Bool := s.limited && !earlyObjects.contains index

/-- What an entry reads in the present phase: in ROM and HALTED, boot_status and rtl_release alone of 0x2000 (R524). -/
def State.sdoRead (s : State) (index sub : Nat) (e : DEnt) : List Byte :=
  if (s.phase = 1 ∨ s.phase = 15) ∧ index = 0x2000 ∧ sub ≠ 0 ∧ sub ≠ 1 ∧ sub ≠ 8 then List.replicate e.size 0
  else s.dictRead e

/-- An entry that cannot be shown: the journal entry that the cursor names is not held (R537). -/
def State.notHeld (s : State) (e : DEnt) : Bool := e.src == .own oEntry 0 && (s.jrnAt s.ecat.cursor).isNone

/-- The data of an upload, or the abort code. -/
def State.sdoValue (s : State) (index sub : Nat) (ca : Bool) : Except Nat (List Byte) :=
  if s.earlyShut index then .error abPhase
  else if (dictTop s.cfg index).isNone then .error abObject
  else if ca then
    let l := (dictSubs s.cfg index sub).filterMap (fun k => (dictEnt s.cfg index k).map (fun e => (k, e)))
    if 1 < sub then .error abComplete
    else if l.isEmpty then .error abSub
    else if l.any (fun x => s.notHeld x.2) then .error abJournal
    else .ok (l.flatMap (fun x => s.sdoRead index x.1 x.2))
  else match dictEnt s.cfg index sub with
    | none => .error abSub
    | some e =>
      if e.acc = .wo then .error abWriteOnly
      else if s.notHeld e then .error abJournal
      else .ok (s.sdoRead index sub e)

/-- A new initiate abandons the transfer before it. -/
def State.dropSeg (s : State) : State := { s with ecat := { s.ecat with seg := none } }

/-- SDO_UPLOAD. -/
def State.sdoUpload (s : State) (index sub : Nat) (ca : Bool) : State :=
  let s := s.dropSeg
  match s.sdoValue index sub ca with
  | .error c => s.reply (.abort index sub c)
  | .ok l =>
    if l.length ≤ initBytes then s.reply (.upload index sub l 0)
    else
      let x : SegXfer := { upload := true, index := index, sub := sub, ca := ca, toggle := false, size := l.length,
                           data := l.drop initBytes, tt := s.tt }
      { s with ecat := { s.ecat with seg := some x } }.reply (.upload index sub (l.take initBytes) (l.length - initBytes))

/-! ### SDO download (R496, R515, R516, R519, R525) -/

/-- The entry can be downloaded to. -/
def canWrite (e : DEnt) : Bool := e.acc != .ro

/-- Cut data into the entries of an object, ascending. -/
def cutData : List (Nat × DEnt) → List Byte → List (Nat × DEnt × List Byte)
  | [], _ => []
  | (k, e) :: t, l => (k, e, l.take e.size) :: cutData t (l.drop e.size)

/-- The entries and values of a download, or the abort code: existence, access, size (R496; log 105 for R10). -/
def State.sdoPieces (s : State) (index sub : Nat) (ca : Bool) (l : List Byte) : Except Nat (List (Nat × DEnt × List Byte)) :=
  if (dictTop s.cfg index).isNone then .error abObject
  else if ca then
    let es := (dictSubs s.cfg index 1).filterMap (fun k => (dictEnt s.cfg index k).map (fun e => (k, e)))
    if sub ≠ 1 ∨ es.any (fun x => x.2.acc == .wo) ∨ !es.any (fun x => canWrite x.2) then .error abComplete
    else if (es.map (fun x => x.2.size)).foldl (· + ·) 0 ≠ l.length then .error abLength
    else .ok ((cutData es l).filter (fun x => canWrite x.2.1))
  else match dictEnt s.cfg index sub with
    | none => .error abSub
    | some e =>
      if !canWrite e then .error abReadOnly
      else if l.length ≠ e.size then .error abLength
      else .ok [(sub, e, l)]

/-- A piece that fails a check: its journal cause and abort code (R515, R516; log 105 for R11). -/
def State.pieceFault (s : State) (index : Nat) (x : Nat × DEnt × List Byte) : Option (Nat × Nat) :=
  let v := leVal x.2.2
  if !s.dictRangeOk x.2.1 v then
    let route := index == 0x2100 && x.1 == 1 && bits v 3 2 == 2 && s.cfg.quillPorts == 0 && wordOk R.TB_CTL.fields v
    some (if route then causeNoRoute else causeRange, abRange)
  else if !s.stopOk x.2.1 v then some (causeStopped, abPhase)
  else if !s.guardOk x.2.1 v then some (causeRwStopped, abStopped)
  else none

/-- A refused entry is journalled where it is a journalled entry (R516, R517). -/
def State.sdoRefuse (s : State) (index cause : Nat) (x : Nat × DEnt × List Byte) : State :=
  if isJournalled index x.2.1 then
    s.dictRefuse .sdo index x.1 cause (leVal (s.dictRead x.2.1)) (leVal x.2.2)
  else s

/-- A pair of registers kept its value against the write. -/
def State.pairKept (s : State) (e : DEnt) (l : List Byte) : Bool :=
  match e.src with
  | .pair _ _ => s.dictRead e != l
  | _ => false

/-- Apply the entries in turn until a block refuses one. -/
def State.applyPieces (s : State) (index : Nat) : List (Nat × DEnt × List Byte) → State × Bool
  | [] => (s, true)
  | (k, e, l) :: t =>
    let head := s.get R.HP_JRN_HEAD_seq
    let u := s.dictApply .sdo index k e l
    if u.dictRefused head || u.pairKept e l then (u, false) else u.applyPieces index t

/-- A download to 0x2000:05 (R525); the response to a warm reset code is read before the reset falls. -/
def State.sdoLife (s : State) (l : List Byte) (ok : Resp) : State :=
  let v := leVal l
  let no := fun (c : Nat) => Resp.abort 0x2000 5 c
  if l.length ≠ 4 then s.reply (no abLength)
  else if v = codeWarm then
    let x := (s.reply ok).ecat.stored
    let s := (s.reply ok).lifeWarm .sdo
    { s with ecat := { s.ecat with lastRead := x } }
  else if v = codeStop then
    let busy := decide (s.boot.stop ≠ 0 ∨ s.phase < 2 ∨ 12 < s.phase)
    (s.lifeStop .sdo).reply (if busy then no abPhase else ok)
  else (s.lifeWrite .sdo v).reply (no abRange)

/-- A whole download: checked in full, then applied; `ok` is the response to one that is applied. -/
def State.sdoApply (s : State) (index sub : Nat) (ca : Bool) (l : List Byte) (ok : Resp) : State :=
  let abort := fun (c : Nat) => Resp.abort index sub c
  if index = 0x2000 ∧ sub = 5 ∧ !ca then s.sdoLife l ok
  else match s.sdoPieces index sub ca l with
    | .error c => s.reply (abort c)
    | .ok xs =>
      match xs.findSome? (fun x => (s.pieceFault index x).map (fun f => (x, f))) with
      | some (x, f) => (s.sdoRefuse index f.1 x).reply (abort f.2)
      | none =>
        let r := s.applyPieces index xs
        r.1.reply (if r.2 then ok else abort abBlock)

/-- SDO_DOWNLOAD: whole in its request, or the initiate of a segmented transfer of `size` bytes. -/
def State.sdoDownload (s : State) (index sub : Nat) (ca : Bool) (size : Option Nat) (l : List Byte) : State :=
  let s := s.dropSeg
  let ok := Resp.download index sub
  if s.limited then s.reply (.abort index sub abPhase)
  else match size with
    | none => s.sdoApply index sub ca l ok
    | some n =>
      if n = l.length then s.sdoApply index sub ca l ok
      else if n < l.length ∨ 2 ^ 20 < n then s.reply (.abort index sub abLength)
      else
        let x : SegXfer := { upload := false, index := index, sub := sub, ca := ca, toggle := false, size := n, data := l,
                             tt := s.tt }
        { s with ecat := { s.ecat with seg := some x } }.reply ok

/-- An abort ends the segmented transfer. -/
def State.segAbort (s : State) (x : SegXfer) (c : Nat) : State := s.dropSeg.reply (.abort x.index x.sub c)

/-- SDO_SEGMENT: of an upload, the next data is answered; of a download, `l` is taken, and after the last the whole is
applied (R495). -/
def State.sdoSegment (s : State) (toggle last : Bool) (l : List Byte) : State :=
  match s.ecat.seg with
  | none => s.reply (.abort 0 0 abSpecifier)
  | some x =>
    if toggle ≠ x.toggle then s.segAbort x abToggle
    else if x.upload then
      let fin := decide (x.data.length ≤ segBytes)
      let y := { x with data := x.data.drop segBytes, toggle := !x.toggle, tt := s.tt }
      { s with ecat := { s.ecat with seg := if fin then none else some y } }.reply
        (.segment toggle (x.data.take segBytes) fin)
    else
      let all := x.data ++ l
      if x.size < all.length ∨ (last ∧ all.length ≠ x.size) then s.segAbort x abLength
      else if last then s.dropSeg.sdoApply x.index x.sub x.ca all (.segment toggle [] true)
      else
        let y := { x with data := all, toggle := !x.toggle, tt := s.tt }
        { s with ecat := { s.ecat with seg := some y } }.reply (.segment toggle [] false)

/-- SDO_SEGMENT_TIMEOUT: 1 s with no further segment. -/
def State.segTimeout (s : State) : State :=
  match s.ecat.seg with
  | some x => if s.mailOn ∧ x.tt + 1000000000 ≤ s.tt then s.dropSeg.putReply (.abort x.index x.sub abTime) else s
  | none => s

/-! ### SDO Information (Table 20-2, R541) -/

/-- The objects of the dictionary. -/
def allObjects : List Nat :=
  [0x1000, 0x1001, 0x1008, 0x1009, 0x100A, 0x1018, 0x1600, 0x1A00, 0x1C00, 0x1C12, 0x1C13, 0x2000, 0x2100]
    ++ List.range' 0x2200 8 ++ [0x2300, 0x2301] ++ List.range' 0x2400 32 ++ List.range' 0x2500 12
    ++ [0x2600, 0x2601, 0x2602, 0x2700, 0x2800, 0x2900, 0x2F00, 0x3000, 0x6000, 0x7000]

/-- The name of an object, as its table has it. -/
def dictName (index : Nat) : String :=
  match dictSingle index with
  | some e => e.name
  | none =>
    if index = 0x1018 then "Identity"
    else if index = 0x1600 then "RxPDO mapping"
    else if index = 0x1A00 then "TxPDO mapping"
    else if index = 0x1C00 then "SyncManager types"
    else if index = 0x1C12 then "RxPDO assign"
    else if index = 0x1C13 then "TxPDO assign"
    else if index = 0x2000 then "device status"
    else if index = 0x2100 then "timebase"
    else if 0x2200 ≤ index ∧ index < 0x2300 then "position channel"
    else if index = 0x2300 ∨ index = 0x2301 then "actuation"
    else if 0x2400 ≤ index ∧ index < 0x2500 then "camera and pipeline"
    else if 0x2500 ≤ index ∧ index < 0x2600 then "Quill port"
    else if index = 0x2600 ∨ index = 0x2601 ∨ index = 0x2602 then "scheduler"
    else if index = 0x2700 then "environment"
    else if index = 0x2800 then "counters"
    else if index = 0x2900 then "cipher and keys"
    else if index = 0x2F00 then "change journal"
    else if index = 0x3000 then "configuration"
    else if index = 0x6000 then "inputs"
    else "outputs"

/-- The access word of an entry description: read and write in PREOP, SAFEOP and OP; an rw-stopped entry reports rw. -/
def accessWord (e : DEnt) : Nat :=
  match e.acc with
  | .ro => 0x07
  | .wo => 0x38
  | .rw => 0x3F
  | .stopped _ _ _ => 0x3F

/-- SDO_INFORMATION. -/
def State.sdoInfo (s : State) (q : InfoReq) : State :=
  let s := s.dropSeg
  match q with
  | .list =>
    s.reply (.info (allObjects.filter (fun i => (dictTop s.cfg i).isSome && !s.earlyShut i)) "")
  | .object i =>
    if s.earlyShut i then s.reply (.abort i 0 abPhase)
    else match dictTop s.cfg i with
      | none => s.reply (.abort i 0 abObject)
      | some n =>
        let ty := match dictSingle i with
          | some e => e.ty
          | none => 0
        s.reply (.info [i, ty, n, if (dictSingle i).isSome then 7 else 9] (dictName i))
  | .entry i k =>
    if s.earlyShut i then s.reply (.abort i k abPhase)
    else if (dictTop s.cfg i).isNone then s.reply (.abort i k abObject)
    else match dictEnt s.cfg i k with
      | none => s.reply (.abort i k abSub)
      | some e => s.reply (.info [i, k, e.ty, 8 * (s.dictRead e).length, accessWord e] e.name)

/-! ### FoE (R486, R500) -/

/-- Data that an FoE packet carries in a mailbox of 256 bytes (log 67). -/
def foeBytes : Nat := 244

/-- The largest image, and the bytes of one copy of the parameter store. -/
def foeLimit (f : FoeFile) : Nat := if f = .fw then 229376 else 131072

/-- Why an open is refused. -/
def State.foeRefusal (s : State) (f : FoeFile) (read : Bool) : Option Nat :=
  if s.ecat.foe.isSome then some 0x8002
  else if f = .unknown ∨ (f = .fw ∧ read) ∨ (f = .journal ∧ !read) then some 0x8001
  else if f = .fw then
    (if s.ecat.al = alBoot ∧ (!s.limited ∨ s.phase = 15) then none else some 0x8008)
  else if s.alUp && !s.limited then none else some 0x8009

/-- A transfer begins. -/
def State.foeOpen (s : State) (f : FoeFile) (read : Bool) (l : List Byte) : State :=
  { s with ecat := { s.ecat with foe := some { file := f, read := read, data := l, packet := 0, final := false } } }

/-- A transfer ends with an error. -/
def State.foeFail (s : State) (c : Nat) : State := (s.foeEnd c).reply (.foeError c)

/-- Bytes of an image place. -/
def State.setImage (s : State) (b : Bool) (l : List Byte) : State :=
  let f := s.boot.flash
  { s with boot := { s.boot with flash := if b then { f with imgB := l } else { f with imgA := l } } }

/-- The directory names an image: the older copy is rewritten (R468). -/
def State.setDirectory (s : State) (b : Bool) : State :=
  let f := s.boot.flash
  let seq := fun (x : Option (Nat × Nat)) => (match x with | some y => y.1 + 1 | none => 0 : Nat)
  let n := (max (seq f.dir0) (seq f.dir1), b2n b)
  { s with boot := { s.boot with flash := if seq f.dir0 ≤ seq f.dir1 then { f with dir0 := some n } else { f with dir1 := some n } } }

/-- A parameter store is written: the older copy (R468). -/
def State.setParams (s : State) (l : List Param) (bytes : List Byte) : State :=
  let f := s.boot.flash
  let seq := fun (x : Option (Nat × List Param)) => (match x with | some y => y.1 + 1 | none => 0 : Nat)
  let n := (max (seq f.par0) (seq f.par1), l)
  let f := { f with parBytes := bytes }
  { s with boot := { s.boot with flash := if seq f.par0 ≤ seq f.par1 then { f with par0 := some n } else { f with par1 := some n } } }

/-- The image place that an update writes: A in HALTED, else the inactive one. -/
def State.updatePlace (s : State) : Bool :=
  if s.phase = 15 then false else (newestCopy s.boot.flash.dir0 s.boot.flash.dir1).getD 0 != 1

/-- A flash program failed its read-back (R487). -/
def State.foeFlashFault (s : State) (offset : Nat) : State := (s.post E.FLASH_FAULT none [(.val, offset), (.en, 2)]).foeFail 0x800B

/-- The last packet of an image: checked, then the directory names it; in HALTED the ROM phase restarts. -/
def State.fwFinish (s : State) (l : List Byte) (n : Nat) (flashOk : Bool) : State :=
  let b := s.updatePlace
  match s.imageCause l with
  | some q =>
    let s := if q = 5 then s.cuFailed 0 4 cuAuth else if q = 6 then s.cuRefused 0 4 cuFault else s
    s.foeFail 0x800B
  | none =>
    if !flashOk then s.foeFlashFault (if b then 0x60000 else 0x20000)
    else
      let s := (((s.setImage b l).setDirectory b).foeEnd 0).reply (.foeAck n)
      if s.phase = 15 then s.romRestart else s

/-- The last packet of a parameter store: checked by its CRC, stored for the next bring-up and journalled (R502). -/
def State.parFinish (s : State) (l : List Byte) (n : Nat) (ps : Option (List Param)) (flashOk : Bool) : State :=
  match ps with
  | none => s.foeFail 0x800B
  | some p =>
    if !flashOk then s.foeFlashFault 0xA0000
    else
      let old := s.boot.flash.parBytes
      let s := (s.setParams p l).jrnEntry (srcNum .foe) 0 0 Config.foeWhere.toNat (crc32 old) (crc32 l) false 0 true
      (s.foeEnd 0).reply (.foeAck n)

/-- A data packet of a write. -/
def State.foeData (s : State) (l : List Byte) (last : Bool) (ps : Option (List Param)) (flashOk : Bool) : State :=
  match s.ecat.foe with
  | none => s.reply (.foeError 0x8004)
  | some x =>
    let all := x.data ++ l
    let n := x.packet + 1
    if x.read then s.reply (.foeError 0x8004)
    else if foeLimit x.file < all.length then s.foeFail 0x8003
    else
      let s : State := { s with ecat := { s.ecat with foe := some { x with data := all, packet := n } } }
      let s := if x.file = .fw ∧ s.phase ≠ 15 then s.setImage s.updatePlace all else s
      if !last then s.reply (.foeAck n)
      else if x.file = .fw then s.fwFinish all n flashOk
      else s.parFinish all n ps flashOk

/-- FOE_WRITE. -/
def State.foeWrite (s : State) (step : FoeStep) (flashOk : Bool) : State :=
  match step with
  | .opened f =>
    (match s.foeRefusal f false with
     | some c => s.reply (.foeError c)
     | none => (s.foeOpen f false []).reply (.foeAck 0))
  | .data l last ps => s.foeData l last ps flashOk
  | .ack => s.reply (.foeError 0x8004)

/-- The journal file: the entries of the flash checkpoints, then the live journal from its oldest entry. -/
def State.journalFile (s : State) : List Byte :=
  let ck := (s.log.recs.filter (fun r => r.kind == 1)).flatMap (fun r => r.payload)
  let head := s.get R.HP_JRN_HEAD_seq
  let live := (List.range 16384).filterMap (fun i => s.jrnAt ((head + 2 ^ 32 - 16384 + i) % 2 ^ 32))
  ck ++ live.flatMap (fun e => leBytes 32 e.encode)

/-- Send the next packet of a read; one that is not full ends the file. -/
def State.foeSend (s : State) (x : FoeXfer) : State :=
  let y := { x with data := x.data.drop foeBytes, packet := x.packet + 1, final := decide (x.data.length < foeBytes) }
  { s with ecat := { s.ecat with foe := some y } }.reply (.foeData y.packet (x.data.take foeBytes))

/-- An acknowledgement of a read's packet. The last ends the transfer, and nothing more is sent. -/
def State.foeAcked (s : State) : State :=
  match s.ecat.foe with
  | some x => if !x.read then s.reply (.foeError 0x8004) else if x.final then s.foeEnd 0 else s.foeSend x
  | none => s.reply (.foeError 0x8004)

/-- FOE_READ. -/
def State.foeRead (s : State) (step : FoeStep) : State :=
  match step with
  | .opened f =>
    (match s.foeRefusal f true with
     | some c => s.reply (.foeError c)
     | none =>
       let l := if f = .params then s.boot.flash.parBytes else s.journalFile
       s.foeSend { file := f, read := true, data := l, packet := 0, final := false })
  | .ack => s.foeAcked
  | .data _ _ _ => s.reply (.foeError 0x8004)

/-! ### Commands -/

/-- ECAT_FRAME. -/
def execEcatFrame (accesses : List EcatAccess) (s : State) : Host.Outcome State Fault Refusal := .next (s.ecatFrame accesses)

/-- AL_CONTROL_REQUEST. -/
def execAlControlRequest (v : Nat) (s : State) : Host.Outcome State Fault Refusal := .next (s.alControl v)

/-- SDO_UPLOAD. -/
def execSdoUpload (cnt index sub : Nat) (ca : Bool) (s : State) : Host.Outcome State Fault Refusal :=
  .next (s.mailRequest cnt (fun s => s.sdoUpload index sub ca))

/-- SDO_DOWNLOAD. -/
def execSdoDownload (cnt index sub : Nat) (ca : Bool) (size : Option Nat) (data : List Byte) (s : State) :
    Host.Outcome State Fault Refusal :=
  .next (s.mailRequest cnt (fun s => s.sdoDownload index sub ca size data))

/-- SDO_SEGMENT. -/
def execSdoSegment (cnt : Nat) (toggle last : Bool) (data : List Byte) (s : State) : Host.Outcome State Fault Refusal :=
  .next (s.mailRequest cnt (fun s => s.sdoSegment toggle last data))

/-- SDO_INFORMATION. -/
def execSdoInformation (cnt : Nat) (req : InfoReq) (s : State) : Host.Outcome State Fault Refusal :=
  .next (s.mailRequest cnt (fun s => s.sdoInfo req))

/-- SDO_SEGMENT_TIMEOUT. -/
def execSdoSegmentTimeout (s : State) : Host.Outcome State Fault Refusal := .next s.segTimeout

/-- MAILBOX_REPEAT: a repeat request of SM1, which the ESC serves itself (R497). -/
def execMailboxRepeat (s : State) : Host.Outcome State Fault Refusal :=
  .next (if s.escOn && s.ecat.al != alInit then
      { s.placeAgain with ecat := { s.placeAgain.ecat with rep := !s.ecat.rep } }
    else s)

/-- FOE_WRITE. -/
def execFoeWrite (cnt : Nat) (step : FoeStep) (flashOk : Bool) (s : State) : Host.Outcome State Fault Refusal :=
  .next (s.mailRequest cnt (fun s => s.foeWrite step flashOk))

/-- FOE_READ. -/
def execFoeRead (cnt : Nat) (step : FoeStep) (s : State) : Host.Outcome State Fault Refusal :=
  .next (s.mailRequest cnt (fun s => s.foeRead step))

/-- RXPDO_RECEIVED. -/
def execRxpdoReceived (s : State) : Host.Outcome State Fault Refusal := .next s.rxPdo

/-- PDO_ASSEMBLY. -/
def execPdoAssembly (s : State) : Host.Outcome State Fault Refusal := .next s.pdoAssembly

/-- SM2_WATCHDOG_EXPIRY. -/
def execSm2WatchdogExpiry (s : State) : Host.Outcome State Fault Refusal := .next s.sm2Expiry

/-- MGMT_WATCHDOG_SERVICE. -/
def execMgmtWatchdogService (s : State) : Host.Outcome State Fault Refusal := .next s.wdService

/-- MGMT_WATCHDOG_EXPIRY. -/
def execMgmtWatchdogExpiry (s : State) : Host.Outcome State Fault Refusal := .next s.wdExpiry

/-- ECAT_LINK_CHANGE. -/
def execEcatLinkChange (port : Nat) (up : Bool) (s : State) : Host.Outcome State Fault Refusal := .next (s.ecatLink port up)

/-- HP_JRN_READ_WRITE: a host write of the cursor (R506, R537). -/
def execHpJrnReadWrite (v : Nat) (s : State) : Host.Outcome State Fault Refusal :=
  .next (s.portWrite .host R.HP_JRN_READ.off v true)

end Sys2Proof.Machine
end

