-- ==== Sys2Proof/Machine/Waits.lean ====
section
/-! DEFINITION. A satisfied wait (R173, R181), and the watchdog of a segment (R175, R211). -/

namespace Sys2Proof.Machine

/-- A waiting engine whose counter condition now holds goes on: a nest-form wait retires, a held bundle issues. An engine
without a segment starts the entry whose wait now holds. -/
def State.waitSatisfied (s : State) (c e : Nat) : State :=
  let x := s.eng c e
  if x.stopped then s
  else match x.run with
    | none => s.startSegment c e
    | some r =>
      match r.wait with
      | none => s
      | some q =>
        if !waitMet (s.sync c q.1) q.2 then s
        else if e ≤ 2 then s.nestRetire c e r (s.fetchCode r 64)
        else
          let r := { r with wait := none }
          (s.setEng c e { x with run := some r }).bundleStep c e r true

/-- SEGMENT_WATCHDOG_EXPIRY: the compute instruction in progress is abandoned after what it has completed (R211), then the
segment ends. -/
def execSegmentWatchdogExpiry (c e : Nat) (x : WatchFound) (s : State) : Host.Outcome State Fault Refusal :=
  .next (match (s.eng c e).run with
    | none => s
    | some r => if s.watchDue r then (s.nestAbandon c e x.done).watchdog c e x.hung else s)

/-- WAIT_SATISFIED. -/
def execWaitSatisfied (c e : Nat) (s : State) : Host.Outcome State Fault Refusal := .next (s.waitSatisfied c e)

end Sys2Proof.Machine
end

