-- ==== Sys2Proof/Machine/Dispatch.lean ====
section
/-! DEFINITION. One arm per command: the meaning it has. -/

namespace Sys2Proof.Machine

def exec (i : Instr) (s : State) : Host.Outcome State Fault Refusal :=
  match i with
  | .porAssert => Sys2Proof.Machine.execPorAssert s
  | .porRelease absent => Sys2Proof.Machine.execPorRelease absent s
  | .warmRstAssert => Sys2Proof.Machine.execWarmRstAssert s
  | .warmRstRelease => Sys2Proof.Machine.execWarmRstRelease s
  | .powerLoss => Sys2Proof.Machine.execPowerLoss s
  | .islandClockLoss island => Sys2Proof.Machine.execIslandClockLoss island s
  | .islandClockReturn island => Sys2Proof.Machine.execIslandClockReturn island s
  | .laneSerdesReset lane => Sys2Proof.Machine.execLaneSerdesReset lane s
  | .phyTuneAck lane data => Sys2Proof.Machine.execPhyTuneAck lane data s
  | .phyTuneTimeout lane => Sys2Proof.Machine.execPhyTuneTimeout lane s
  | .clockGenAck core => Sys2Proof.Machine.execClockGenAck core s
  | .clockGenTimeout core => Sys2Proof.Machine.execClockGenTimeout core s
  | .registerWrite src off v full => Sys2Proof.Machine.execRegisterWrite src off v full s
  | .journalledParameterApply badPrimary badMirror => Sys2Proof.Machine.execJournalledParameterApply badPrimary badMirror s
  | .pairLoRead src off => Sys2Proof.Machine.execPairLoRead src off s
  | .pairHiWrite src off v => Sys2Proof.Machine.execPairHiWrite src off v s
  | .rcRegisterRead src off => Sys2Proof.Machine.execRcRegisterRead src off s
  | .w1cRegisterWrite src off v => Sys2Proof.Machine.execW1cRegisterWrite src off v s
  | .ttLoad hi => Sys2Proof.Machine.execTtLoad hi s
  | .refTick n periods => Sys2Proof.Machine.execRefTick n periods s
  | .refStopTimeout n => Sys2Proof.Machine.execRefStopTimeout n s
  | .refRateCheck n offset => Sys2Proof.Machine.execRefRateCheck n offset s
  | .refQualifyTimeout n => Sys2Proof.Machine.execRefQualifyTimeout n s
  | .tbStateEvaluation => Sys2Proof.Machine.execTbStateEvaluation s
  | .tbHoldLimitExceeded => Sys2Proof.Machine.execTbHoldLimitExceeded s
  | .alignFilterOutput port => Sys2Proof.Machine.execAlignFilterOutput port s
  | .alignExchangesDiscarded => Sys2Proof.Machine.execAlignExchangesDiscarded s
  | .tickPhaseAdopt => Sys2Proof.Machine.execTickPhaseAdopt s
  | .oscFail => Sys2Proof.Machine.execOscFail s
  | .oscRecovered => Sys2Proof.Machine.execOscRecovered s
  | .tdcCalibration ps => Sys2Proof.Machine.execTdcCalibration ps s
  | .encoderEdgeAccepted ch shown => Sys2Proof.Machine.execEncoderEdgeAccepted ch shown s
  | .ssiFrameStart ch => Sys2Proof.Machine.execSsiFrameStart ch s
  | .ssiFrameComplete ch ready clocked recovery => Sys2Proof.Machine.execSsiFrameComplete ch ready clocked recovery s
  | .speedEstimateUpdate ch => Sys2Proof.Machine.execSpeedEstimateUpdate ch s
  | .standstillTimeout ch => Sys2Proof.Machine.execStandstillTimeout ch s
  | .countLoad ch hi => Sys2Proof.Machine.execCountLoad ch hi s
  | .puChCtlWrite src ch ssi v => Sys2Proof.Machine.execPuChCtlWrite src ch ssi v s
  | .puIdxLoRead ch => Sys2Proof.Machine.execPuIdxLoRead ch s
  | .puStatusRead ch => Sys2Proof.Machine.execPuStatusRead ch s
  | .thresholdScanComplete ch input low high => Sys2Proof.Machine.execThresholdScanComplete ch input low high s
  | .cxpStreamPacket lane tag stream crcOk items => Sys2Proof.Machine.execCxpStreamPacket lane tag stream crcOk items s
  | .cxpLaneLockLoss lane => Sys2Proof.Machine.execCxpLaneLockLoss lane s
  | .cxpControlPacketRx lane kind ptype crcOk bytes => Sys2Proof.Machine.execCxpControlPacketRx lane kind ptype crcOk bytes s
  | .cxCtrlTxSend cam => Sys2Proof.Machine.execCxCtrlTxSend cam s
  | .stripWritesAcknowledged pipe => Sys2Proof.Machine.execStripWritesAcknowledged pipe s
  | .pipelineStallTimeout pipe => Sys2Proof.Machine.execPipelineStallTimeout pipe s
  | .calBankSwap src pipe v => Sys2Proof.Machine.execCalBankSwap src pipe v s
  | .cameraConfigWrite src pipe reg v => Sys2Proof.Machine.execCameraConfigWrite src pipe reg v s
  | .decConfigWrite src ch reg v => Sys2Proof.Machine.execDecConfigWrite src ch reg v s
  | .decSubstWrite src ch hi => Sys2Proof.Machine.execDecSubstWrite src ch hi s
  | .decDescriptorFetch ch => Sys2Proof.Machine.execDecDescriptorFetch ch s
  | .decFileHeader ch => Sys2Proof.Machine.execDecFileHeader ch s
  | .decRecord ch => Sys2Proof.Machine.execDecRecord ch s
  | .decPacedLineEntry ch => Sys2Proof.Machine.execDecPacedLineEntry ch s
  | .decRingSpaceResume ch => Sys2Proof.Machine.execDecRingSpaceResume ch s
  | .segmentStart core eng => Sys2Proof.Machine.execSegmentStart core eng s
  | .segmentEnd core eng => Sys2Proof.Machine.execSegmentEnd core eng s
  | .segmentComplete core eng => Sys2Proof.Machine.execSegmentComplete core eng s
  | .syncSignalApply k => Sys2Proof.Machine.execSyncSignalApply k s
  | .waitSatisfied core eng => Sys2Proof.Machine.execWaitSatisfied core eng s
  | .segmentWatchdogExpiry core eng found => Sys2Proof.Machine.execSegmentWatchdogExpiry core eng found s
  | .stallWatchExpiry job => Sys2Proof.Machine.execStallWatchExpiry job s
  | .engineFabricError core eng => Sys2Proof.Machine.execEngineFabricError core eng s
  | .nop core eng => Sys2Proof.Machine.execNop core eng s
  | .endInstr core eng => Sys2Proof.Machine.execEndInstr core eng s
  | .base core eng => Sys2Proof.Machine.execBase core eng s
  | .signal core eng => Sys2Proof.Machine.execSignal core eng s
  | .wait core eng => Sys2Proof.Machine.execWait core eng s
  | .mma core eng => Sys2Proof.Machine.execMma core eng s
  | .copy core eng => Sys2Proof.Machine.execCopy core eng s
  | .fill core eng => Sys2Proof.Machine.execFill core eng s
  | .emptyBundle core eng => Sys2Proof.Machine.execEmptyBundle core eng s
  | .vld core eng => Sys2Proof.Machine.execVld core eng s
  | .vst core eng => Sys2Proof.Machine.execVst core eng s
  | .vldb core eng => Sys2Proof.Machine.execVldb core eng s
  | .sld core eng => Sys2Proof.Machine.execSld core eng s
  | .sst core eng => Sys2Proof.Machine.execSst core eng s
  | .rld core eng => Sys2Proof.Machine.execRld core eng s
  | .rst core eng => Sys2Proof.Machine.execRst core eng s
  | .ldmod core eng => Sys2Proof.Machine.execLdmod core eng s
  | .vadd core eng => Sys2Proof.Machine.execVadd core eng s
  | .vsub core eng => Sys2Proof.Machine.execVsub core eng s
  | .vmul core eng => Sys2Proof.Machine.execVmul core eng s
  | .vfma core eng => Sys2Proof.Machine.execVfma core eng s
  | .vmax core eng => Sys2Proof.Machine.execVmax core eng s
  | .vmin core eng => Sys2Proof.Machine.execVmin core eng s
  | .vand core eng => Sys2Proof.Machine.execVand core eng s
  | .vor core eng => Sys2Proof.Machine.execVor core eng s
  | .vxor core eng => Sys2Proof.Machine.execVxor core eng s
  | .vshl core eng => Sys2Proof.Machine.execVshl core eng s
  | .vshr core eng => Sys2Proof.Machine.execVshr core eng s
  | .vcmplt core eng => Sys2Proof.Machine.execVcmplt core eng s
  | .vcmple core eng => Sys2Proof.Machine.execVcmple core eng s
  | .vcmpeq core eng => Sys2Proof.Machine.execVcmpeq core eng s
  | .vsel core eng => Sys2Proof.Machine.execVsel core eng s
  | .vcvt core eng => Sys2Proof.Machine.execVcvt core eng s
  | .vexp core eng => Sys2Proof.Machine.execVexp core eng s
  | .vrcp core eng => Sys2Proof.Machine.execVrcp core eng s
  | .vrsqrt core eng => Sys2Proof.Machine.execVrsqrt core eng s
  | .vred core eng => Sys2Proof.Machine.execVred core eng s
  | .vperm core eng => Sys2Proof.Machine.execVperm core eng s
  | .vbcast core eng => Sys2Proof.Machine.execVbcast core eng s
  | .vmov core eng => Sys2Proof.Machine.execVmov core eng s
  | .radd core eng => Sys2Proof.Machine.execRadd core eng s
  | .rsub core eng => Sys2Proof.Machine.execRsub core eng s
  | .rmul core eng => Sys2Proof.Machine.execRmul core eng s
  | .rmac core eng => Sys2Proof.Machine.execRmac core eng s
  | .rneg core eng => Sys2Proof.Machine.execRneg core eng s
  | .rbfly core eng => Sys2Proof.Machine.execRbfly core eng s
  | .rbflyi core eng => Sys2Proof.Machine.execRbflyi core eng s
  | .rxch core eng => Sys2Proof.Machine.execRxch core eng s
  | .raddw core eng => Sys2Proof.Machine.execRaddw core eng s
  | .rsubw core eng => Sys2Proof.Machine.execRsubw core eng s
  | .rmulw core eng => Sys2Proof.Machine.execRmulw core eng s
  | .rmov core eng => Sys2Proof.Machine.execRmov core eng s
  | .rbcast core eng => Sys2Proof.Machine.execRbcast core eng s
  | .rmod core eng => Sys2Proof.Machine.execRmod core eng s
  | .smov core eng => Sys2Proof.Machine.execSmov core eng s
  | .sshl core eng => Sys2Proof.Machine.execSshl core eng s
  | .sadd core eng => Sys2Proof.Machine.execSadd core eng s
  | .saddi core eng => Sys2Proof.Machine.execSaddi core eng s
  | .smul core eng => Sys2Proof.Machine.execSmul core eng s
  | .sget core eng => Sys2Proof.Machine.execSget core eng s
  | .sput core eng => Sys2Proof.Machine.execSput core eng s
  | .mset core eng => Sys2Proof.Machine.execMset core eng s
  | .mget core eng => Sys2Proof.Machine.execMget core eng s
  | .mand core eng => Sys2Proof.Machine.execMand core eng s
  | .mor core eng => Sys2Proof.Machine.execMor core eng s
  | .mandn core eng => Sys2Proof.Machine.execMandn core eng s
  | .jmp core eng => Sys2Proof.Machine.execJmp core eng s
  | .brz core eng => Sys2Proof.Machine.execBrz core eng s
  | .brnz core eng => Sys2Proof.Machine.execBrnz core eng s
  | .loopInstr core eng => Sys2Proof.Machine.execLoopInstr core eng s
  | .bundleSignal core eng => Sys2Proof.Machine.execBundleSignal core eng s
  | .bundleWait core eng => Sys2Proof.Machine.execBundleWait core eng s
  | .loadDataUncorrectable core load => Sys2Proof.Machine.execLoadDataUncorrectable core load s
  | .doorbell ring v => Sys2Proof.Machine.execDoorbell ring v s
  | .groupAdmission ring readErr => Sys2Proof.Machine.execGroupAdmission ring readErr s
  | .exec ring readErr => Sys2Proof.Machine.execExec ring readErr s
  | .imageLoad ring => Sys2Proof.Machine.execImageLoad ring s
  | .recipeLoad ring desc => Sys2Proof.Machine.execRecipeLoad ring desc s
  | .recipeUnload ring => Sys2Proof.Machine.execRecipeUnload ring s
  | .descriptorPost job => Sys2Proof.Machine.execDescriptorPost job s
  | .rankRefresh => Sys2Proof.Machine.execRankRefresh s
  | .deadlineRecompute => Sys2Proof.Machine.execDeadlineRecompute s
  | .deadlineExpiry job => Sys2Proof.Machine.execDeadlineExpiry job s
  | .beStarveTimeout ring => Sys2Proof.Machine.execBeStarveTimeout ring s
  | .groupCompletion => Sys2Proof.Machine.execGroupCompletion s
  | .dsCancel src ring index all => Sys2Proof.Machine.execDsCancel src ring index all s
  | .dsCancelJob src job => Sys2Proof.Machine.execDsCancelJob src job s
  | .frozenCancelTimeout job => Sys2Proof.Machine.execFrozenCancelTimeout job s
  | .dsRingCtlWrite src ring v => Sys2Proof.Machine.execDsRingCtlWrite src ring v s
  | .rcpRunWrite src slot v => Sys2Proof.Machine.execRcpRunWrite src slot v s
  | .stepTrigger slot => Sys2Proof.Machine.execStepTrigger slot s
  | .marksApply slot ctx => Sys2Proof.Machine.execMarksApply slot ctx s
  | .markBatchReceived slot batch ctx => Sys2Proof.Machine.execMarkBatchReceived slot batch ctx s
  | .markWaitTimeout slot ctx => Sys2Proof.Machine.execMarkWaitTimeout slot ctx s
  | .inferGroupEnd slot => Sys2Proof.Machine.execInferGroupEnd slot s
  | .verdictWordWrite slot part word => Sys2Proof.Machine.execVerdictWordWrite slot part word s
  | .partDeadlineExpiry slot ordinal => Sys2Proof.Machine.execPartDeadlineExpiry slot ordinal s
  | .auPostSubmit w7 => Sys2Proof.Machine.execAuPostSubmit w7 s
  | .auMpostSubmit w7 => Sys2Proof.Machine.execAuMpostSubmit w7 s
  | .countTriggerFire entry => Sys2Proof.Machine.execCountTriggerFire entry s
  | .predictionTriggerFire entry => Sys2Proof.Machine.execPredictionTriggerFire entry s
  | .ttTriggerFire entry => Sys2Proof.Machine.execTtTriggerFire entry s
  | .pulseEnd entry => Sys2Proof.Machine.execPulseEnd entry s
  | .pulseTruncated entry => Sys2Proof.Machine.execPulseTruncated entry s
  | .minGapExpiry out => Sys2Proof.Machine.execMinGapExpiry out s
  | .auCancel entry all => Sys2Proof.Machine.execAuCancel entry all s
  | .auCancelOut out => Sys2Proof.Machine.execAuCancelOut out s
  | .entryExpire entry => Sys2Proof.Machine.execEntryExpire entry s
  | .auCtlWrite src v => Sys2Proof.Machine.execAuCtlWrite src v s
  | .auOutCfgWrite src out v => Sys2Proof.Machine.execAuOutCfgWrite src out v s
  | .fabricTransaction mst write word len eng data => Sys2Proof.Machine.execFabricTransaction mst write word len eng data s
  | .writeAcknowledgement target bad => Sys2Proof.Machine.execWriteAcknowledgement target bad s
  | .readResponse target fixed bad => Sys2Proof.Machine.execReadResponse target fixed bad s
  | .hoardEccWriteback bank => Sys2Proof.Machine.execHoardEccWriteback bank s
  | .burrowReadData port tag resp => Sys2Proof.Machine.execBurrowReadData port tag resp s
  | .burrowWriteAck port tag resp => Sys2Proof.Machine.execBurrowWriteAck port tag resp s
  | .burrowCorrectedRewrite port => Sys2Proof.Machine.execBurrowCorrectedRewrite port s
  | .burrowPhyReady port ready size => Sys2Proof.Machine.execBurrowPhyReady port ready size s
  | .fbBrwCfgWrite src port val => Sys2Proof.Machine.execFbBrwCfgWrite src port val s
  | .burrowFillDone port => Sys2Proof.Machine.execBurrowFillDone port s
  | .scrubRead pass fixed bad resp => Sys2Proof.Machine.execScrubRead pass fixed bad resp s
  | .scrubBehind pass => Sys2Proof.Machine.execScrubBehind pass s
  | .portReset src val => Sys2Proof.Machine.execPortReset src val s
  | .portResetDone target id => Sys2Proof.Machine.execPortResetDone target id s
  | .burrowStallTimeout port => Sys2Proof.Machine.execBurrowStallTimeout port s
  | .burrowRecoveryTimeout port => Sys2Proof.Machine.execBurrowRecoveryTimeout port s
  | .remapWrite src val => Sys2Proof.Machine.execRemapWrite src val s
  | .hoardZeroDone => Sys2Proof.Machine.execHoardZeroDone s
  | .quillFrameReceived port stamp frame => Sys2Proof.Machine.execQuillFrameReceived port stamp frame s
  | .quillFrameTransmit port => Sys2Proof.Machine.execQuillFrameTransmit port s
  | .qpDefectTimer port defect on => Sys2Proof.Machine.execQpDefectTimer port defect on s
  | .memberControlTimeout dim sq => Sys2Proof.Machine.execMemberControlTimeout dim sq s
  | .memberRestore dim sq => Sys2Proof.Machine.execMemberRestore dim sq s
  | .mapChangeStart dim => Sys2Proof.Machine.execMapChangeStart dim s
  | .mapApply dim => Sys2Proof.Machine.execMapApply dim s
  | .mapChangeLate dim => Sys2Proof.Machine.execMapChangeLate dim s
  | .groupFrameRelease dim bad => Sys2Proof.Machine.execGroupFrameRelease dim bad s
  | .deskewDelayExpiry dim bad => Sys2Proof.Machine.execDeskewDelayExpiry dim bad s
  | .qpConfigWrite src port deskew val => Sys2Proof.Machine.execQpConfigWrite src port deskew val s
  | .ack dim => Sys2Proof.Machine.execAck dim s
  | .resend dim => Sys2Proof.Machine.execResend dim s
  | .resendTimeout dim => Sys2Proof.Machine.execResendTimeout dim s
  | .remoteAccessSend => Sys2Proof.Machine.execRemoteAccessSend s
  | .tidWaitTimeout => Sys2Proof.Machine.execTidWaitTimeout s
  | .remoteTimeout tid => Sys2Proof.Machine.execRemoteTimeout tid s
  | .write dim err => Sys2Proof.Machine.execWrite dim err s
  | .writeAck dim => Sys2Proof.Machine.execWriteAck dim s
  | .readReq dim err => Sys2Proof.Machine.execReadReq dim err s
  | .readResp dim => Sys2Proof.Machine.execReadResp dim s
  | .quillSignal dim => Sys2Proof.Machine.execQuillSignal dim s
  | .actPost dim => Sys2Proof.Machine.execActPost dim s
  | .actStatus dim => Sys2Proof.Machine.execActStatus dim s
  | .bcast dim len => Sys2Proof.Machine.execBcast dim len s
  | .undeliverable dim => Sys2Proof.Machine.execUndeliverable dim s
  | .detourReq dim => Sys2Proof.Machine.execDetourReq dim s
  | .detourGrant dim => Sys2Proof.Machine.execDetourGrant dim s
  | .detourRefuse dim => Sys2Proof.Machine.execDetourRefuse dim s
  | .detourEnd dim => Sys2Proof.Machine.execDetourEnd dim s
  | .time dim phase tick => Sys2Proof.Machine.execTime dim phase tick s
  | .distDone dim id status => Sys2Proof.Machine.execDistDone dim id status s
  | .reservedMessage dim => Sys2Proof.Machine.execReservedMessage dim s
  | .detourPlanHoldExpiry dim => Sys2Proof.Machine.execDetourPlanHoldExpiry dim s
  | .directRestoreHoldExpiry dim => Sys2Proof.Machine.execDirectRestoreHoldExpiry dim s
  | .qmDistCmd source dest len id rack => Sys2Proof.Machine.execQmDistCmd source dest len id rack s
  | .distTimeout => Sys2Proof.Machine.execDistTimeout s
  | .qmMemberCmd val => Sys2Proof.Machine.execQmMemberCmd val s
  | .qmIdWrite src word val => Sys2Proof.Machine.execQmIdWrite src word val s
  | .auditOpen src ctx => Sys2Proof.Machine.execAuditOpen src ctx s
  | .auditOpenComplete ctx err => Sys2Proof.Machine.execAuditOpenComplete ctx err s
  | .auditSeal src ctx flashOk => Sys2Proof.Machine.execAuditSeal src ctx flashOk s
  | .auditSealComplete ctx err => Sys2Proof.Machine.execAuditSealComplete ctx err s
  | .auditClose src ctx => Sys2Proof.Machine.execAuditClose src ctx s
  | .auditCloseComplete ctx => Sys2Proof.Machine.execAuditCloseComplete ctx s
  | .gcmEncrypt src slot wrap fwkey rsvd => Sys2Proof.Machine.execGcmEncrypt src slot wrap fwkey rsvd s
  | .gcmDecrypt src slot wrap fwkey rsvd => Sys2Proof.Machine.execGcmDecrypt src slot wrap fwkey rsvd s
  | .cmacGenerate src slot wrap fwkey rsvd => Sys2Proof.Machine.execCmacGenerate src slot wrap fwkey rsvd s
  | .cmacVerify src slot wrap fwkey rsvd => Sys2Proof.Machine.execCmacVerify src slot wrap fwkey rsvd s
  | .contextSave src slot wrap fwkey rsvd => Sys2Proof.Machine.execContextSave src slot wrap fwkey rsvd s
  | .contextRestore src slot wrap fwkey rsvd => Sys2Proof.Machine.execContextRestore src slot wrap fwkey rsvd s
  | .cipherOpComplete err => Sys2Proof.Machine.execCipherOpComplete err s
  | .cipherQuantumExpiry block => Sys2Proof.Machine.execCipherQuantumExpiry block s
  | .cipherSuspend block => Sys2Proof.Machine.execCipherSuspend block s
  | .cipherResume => Sys2Proof.Machine.execCipherResume s
  | .keyLoad src v => Sys2Proof.Machine.execKeyLoad src v s
  | .keyClear src v => Sys2Proof.Machine.execKeyClear src v s
  | .cipherSelftestDone fail => Sys2Proof.Machine.execCipherSelftestDone fail s
  | .dvfsEvaluation core => Sys2Proof.Machine.execDvfsEvaluation core s
  | .frequencyStep core => Sys2Proof.Machine.execFrequencyStep core s
  | .frequencyRequest core => Sys2Proof.Machine.execFrequencyRequest core s
  | .cpmSample core readings => Sys2Proof.Machine.execCpmSample core readings s
  | .cpmCalibration core readings => Sys2Proof.Machine.execCpmCalibration core readings s
  | .tuningTrial lane => Sys2Proof.Machine.execTuningTrial lane s
  | .trialDwellEnd lane spoiled => Sys2Proof.Machine.execTrialDwellEnd lane spoiled s
  | .thermalRead site temp => Sys2Proof.Machine.execThermalRead site temp s
  | .ceilingStep core => Sys2Proof.Machine.execCeilingStep core s
  | .vmonSample monitor val => Sys2Proof.Machine.execVmonSample monitor val s
  | .supplyFaultClear monitor => Sys2Proof.Machine.execSupplyFaultClear monitor s
  | .fanKickTimeout fan => Sys2Proof.Machine.execFanKickTimeout fan s
  | .fanRpmUpdate fan period => Sys2Proof.Machine.execFanRpmUpdate fan period s
  | .fanTachTimeout fan => Sys2Proof.Machine.execFanTachTimeout fan s
  | .fanTachRestored fan => Sys2Proof.Machine.execFanTachRestored fan s
  | .bringupPhaseDone => Sys2Proof.Machine.execBringupPhaseDone s
  | .bringupWaitExpired => Sys2Proof.Machine.execBringupWaitExpired s
  | .lifecycleWarmReset src => Sys2Proof.Machine.execLifecycleWarmReset src s
  | .lifecycleShutdown src => Sys2Proof.Machine.execLifecycleShutdown src s
  | .drainComplete ok1 ok2 => Sys2Proof.Machine.execDrainComplete ok1 ok2 s
  | .drainTimeout => Sys2Proof.Machine.execDrainTimeout s
  | .ecatFrame accesses => Sys2Proof.Machine.execEcatFrame accesses s
  | .alControlRequest v => Sys2Proof.Machine.execAlControlRequest v s
  | .sdoUpload cnt index sub ca => Sys2Proof.Machine.execSdoUpload cnt index sub ca s
  | .sdoDownload cnt index sub ca size data => Sys2Proof.Machine.execSdoDownload cnt index sub ca size data s
  | .sdoSegment cnt toggle last data => Sys2Proof.Machine.execSdoSegment cnt toggle last data s
  | .sdoInformation cnt req => Sys2Proof.Machine.execSdoInformation cnt req s
  | .sdoSegmentTimeout => Sys2Proof.Machine.execSdoSegmentTimeout s
  | .mailboxRepeat => Sys2Proof.Machine.execMailboxRepeat s
  | .foeWrite cnt step flashOk => Sys2Proof.Machine.execFoeWrite cnt step flashOk s
  | .foeRead cnt step => Sys2Proof.Machine.execFoeRead cnt step s
  | .rxpdoReceived => Sys2Proof.Machine.execRxpdoReceived s
  | .pdoAssembly => Sys2Proof.Machine.execPdoAssembly s
  | .sm2WatchdogExpiry => Sys2Proof.Machine.execSm2WatchdogExpiry s
  | .unitMismatchTimeout unit => Sys2Proof.Machine.execUnitMismatchTimeout unit s
  | .mgmtWatchdogService => Sys2Proof.Machine.execMgmtWatchdogService s
  | .mgmtWatchdogExpiry => Sys2Proof.Machine.execMgmtWatchdogExpiry s
  | .ecatLinkChange port up => Sys2Proof.Machine.execEcatLinkChange port up s
  | .hpJrnReadWrite v => Sys2Proof.Machine.execHpJrnReadWrite v s
  | .heldRecordFlush ring => Sys2Proof.Machine.execHeldRecordFlush ring s
  | .hostEventWrite => Sys2Proof.Machine.execHostEventWrite s
  | .irqModerationTimeout vec => Sys2Proof.Machine.execIrqModerationTimeout vec s
  | .hostWriteResponse err => Sys2Proof.Machine.execHostWriteResponse err s
  | .hostWriteTimeout => Sys2Proof.Machine.execHostWriteTimeout s
  | .hpRingConfigWrite src reg ring v => Sys2Proof.Machine.execHpRingConfigWrite src reg ring v s
  | .snapshotInstant => Sys2Proof.Machine.execSnapshotInstant s
  | .snapshotRecordWritten err => Sys2Proof.Machine.execSnapshotRecordWritten err s
  | .tagSampleWrite core eng err => Sys2Proof.Machine.execTagSampleWrite core eng err s
  | .overflowCapture core eng => Sys2Proof.Machine.execOverflowCapture core eng s
  | .pcSelWrite src off v => Sys2Proof.Machine.execPcSelWrite src off v s
  | .pcClear src => Sys2Proof.Machine.execPcClear src s
  | .journalCheckpoint ok1 ok2 => Sys2Proof.Machine.execJournalCheckpoint ok1 ok2 s
  | .wearCheckpoint ok1 ok2 => Sys2Proof.Machine.execWearCheckpoint ok1 ok2 s
  | .sramSweep fixed bad => Sys2Proof.Machine.execSramSweep fixed bad s
  | .journalSweepRead badP badM => Sys2Proof.Machine.execJournalSweepRead badP badM s
  | .quillReceiveLockLoss port => Sys2Proof.Machine.execQuillReceiveLockLoss port s
  | .refClockPeriodGlitch n => Sys2Proof.Machine.execRefClockPeriodGlitch n s

end Sys2Proof.Machine
end

