-- ==== Sys2Proof/Machine/Idle.lean ====
section
/-! DEFINITION. What happens while no command waits: a position cycle passes (log 8). -/

namespace Sys2Proof.Machine

/-- The position island runs: power-on reset is not asserted and its clock is there (R47, R49). -/
def State.positionRuns (s : State) : Bool := !s.por && !s.heldIsl.contains 53

/-- A position cycle: TT advances (R57), the guards are looked at (R301), and the stall watch counts (R176). -/
def State.idle (s : State) : State :=
  if s.positionRuns then
    (foldS (List.range s.cfg.posChannels) (fun ch s => s.guardCycle ch false) s.advanceTt).stallTick
  else s

end Sys2Proof.Machine
end

