-- ==== Sys2Proof/Safety.lean ====
section
/-! DEFINITION. The terms that statements use: a command completes, what it leaves alone, what it posts. -/

namespace Sys2Proof.Machine

/-- The command completes from `s`: it answers a next state, and that state is as `P` says. -/
def Yields (c : Instr) (s : State) (P : State → Prop) : Prop := ∃ t, exec c s = .next t ∧ P t

/-- Every register word but those at the offsets `l` is in `t` what it is in `s`. -/
def SameRegs (s t : State) (l : List Nat) : Prop := ∀ o, o ∉ l → t.regs.get? o = s.regs.get? o

/-- `t` has posted one event after `s`: its code, its instance or first index, and its fields (R15, R582). -/
def Posted (s t : State) (code : Nat) (inst : Option Nat) (fs : List (FK × Nat)) : Prop :=
  t.ev.mgmt = s.ev.mgmt ++ [{ code := code, tt := s.tt, detail := mkDetail inst fs }]

/-- The first event that `t` has posted after `s`. -/
def PostedFirst (s t : State) (code : Nat) (inst : Option Nat) (fs : List (FK × Nat)) : Prop :=
  ∃ l, t.ev.mgmt = s.ev.mgmt ++ { code := code, tt := s.tt, detail := mkDetail inst fs } :: l

/-- An event of that code, cause and instance was posted less than 1 ms before `s`. -/
def State.Recent (s : State) (code cause : Nat) (inst : Option Nat) : Prop :=
  ∃ x, s.ev.last.find? (fun x => x.1 = (code, cause, inst.getD 0xFFFF)) = some x ∧ s.up < x.2 + 1000000

/-- `t` has posted one event of a code that its chapter limits to one per cause and instance per millisecond (R105, R131,
R308, R335, R560, R577), unless the limit held it back. -/
def PostedLim (s t : State) (code cause : Nat) (inst : Option Nat) (fs : List (FK × Nat)) : Prop :=
  (s.Recent code cause inst → t.ev.mgmt = s.ev.mgmt) ∧ (¬ s.Recent code cause inst → Posted s t code inst fs)

/-- Give several register fields a value, in order. -/
def State.puts (s : State) (l : List (Fld × List Nat × Nat)) : State := l.foldl (fun s x => s.put x.1 x.2.1 x.2.2) s

/-- The registers of `t` are those of `s` with exactly these fields given a value, in order; but for HP_BOOT_STATUS, whose
held counts events that wait for the host. -/
def FieldsSet (s t : State) (l : List (Fld × List Nat × Nat)) : Prop :=
  ∀ o, o ≠ R.HP_BOOT_STATUS.off → t.regs.get? o = (s.puts l).regs.get? o

/-- The registers that counting performance events may write beside what a command does: the counters' own words, and the
interrupt words of a counter that overflows (R567, R575). -/
def countedReg (o : Nat) : Prop :=
  (0x300000 ≤ o ∧ o < 0x400000) ∨ o = R.HP_IRQ_RAW.off ∨ o = R.HP_IRQ_STATUS.off

/-- Every register word but those at the offsets `l` and those of the counters is in `t` what it is in `s`. -/
def SameBut (s t : State) (l : List Nat) : Prop := ∀ o, o ∉ l → ¬ countedReg o → t.regs.get? o = s.regs.get? o

/-! ### Engines -/

/-- The registers that show an engine's state (Tables 7-6 and 7-7). -/
def engRegs (c e : Nat) : List Nat :=
  [R.CR_ENG_STATUS.addr [c, e], R.CR_ENG_PC.addr [c, e], R.CR_CORE_STATUS.addr [c]]

/-- Every engine of `t` but engine `e` of core `c` is as in `s`, and so are all counters and windows. -/
def SameEngines (s t : State) (c e : Nat) : Prop :=
  (∀ c' e', c' ≠ c ∨ e' ≠ e → t.eng c' e' = s.eng c' e')
    ∧ (∀ c' n, t.sync c' n = s.sync c' n) ∧ (∀ c', (t.core c').win = (s.core c').win ∧ (t.core c').statics = (s.core c').statics)

/-- The segment `r` after the instruction at its pc retires at TT `now`: the next instruction is at `next`. -/
def Running.after (r : Running) (now next : Nat) (fin : Bool) : Running :=
  { r with issue := some (r.issue.getD now), pc := next, wait := none, ended := fin || decide (r.desc.codeLen ≤ next),
           sent := none }

/-- Engine `e` of core `c` issues bundle `b` of its segment `r` next and nothing stops it: it decodes, its wait holds, its
checks pass, its data hold no error, a modulus that it loads is acceptable (R214, R215, R220, R229, R235). -/
def State.Issues (s : State) (c e : Nat) (r : Running) (b : Bundle) : Prop :=
  s.canIssue c e = some r ∧ s.fetchBundle r = .inr b ∧ b.decode e r.desc.winSize = none
    ∧ (∀ w, b.c = some w → w % 256 = 0x19 →
        waitMet (s.sync c (cWait r (s.eng c e) w).1) (cWait r (s.eng c e) w).2 = true)
    ∧ s.bundleCheck c e (s.eng c e) r b = none ∧ (b.m.isSome = true → s.fab.soft = [])
    ∧ (∀ w, b.m = some w → (s.mExec c (s.eng c e) w (s.eng c e)).2.2 = (none, none))

/-- Engine `e` of core `c` issues the nest-form instruction `w` of its segment `r` next (R189, R190): it lies in the code,
it can be read, and it decodes. -/
def State.NestIssues (s : State) (c e : Nat) (r : Running) (w : Nat) : Prop :=
  e ≤ 2 ∧ s.canIssue c e = some r ∧ r.pc + 64 ≤ r.desc.codeLen ∧ s.badIn (r.desc.codeAddr + r.pc) 64 = false
    ∧ w = s.fetchCode r 64 ∧ nestDecode e w r.desc.winSize = none

/-- The machine as a nest-form instruction issues: its issue noted and, where the profiler picks it, tagged (R175, R573). -/
def State.atIssue (s : State) (c e w : Nat) : State := (s.tagIssue c e (w % 256) false).noteIssue c e

/-- The rows of the table that name a syllable of a bundle: the command on engine `e` of core `c`, its slot (0 M, 1 X or Y,
3 C) and its opcode (Tables 9-4, 9-6, 9-7 and 9-8). -/
def syllableRows (c e : Nat) : List (Instr × Nat × Nat) :=
  [(.sld c e, 0, 0x04), (.sst c e, 0, 0x05), (.smov c e, 3, 0x01), (.sshl c e, 3, 0x02), (.sadd c e, 3, 0x03),
   (.saddi c e, 3, 0x04), (.smul c e, 3, 0x05), (.sget c e, 3, 0x06), (.sput c e, 3, 0x07), (.mset c e, 3, 0x08),
   (.mget c e, 3, 0x09), (.mand c e, 3, 0x0A), (.mor c e, 3, 0x0B), (.mandn c e, 3, 0x0C), (.jmp c e, 3, 0x10),
   (.brz c e, 3, 0x11), (.brnz c e, 3, 0x12), (.loopInstr c e, 3, 0x13), (.bundleSignal c e, 3, 0x18),
   (.bundleWait c e, 3, 0x19)]
  ++ (if e = 3 then
    [(.vld c e, 0, 0x01), (.vst c e, 0, 0x02), (.vldb c e, 0, 0x03), (.vadd c e, 1, 0x01), (.vsub c e, 1, 0x02),
     (.vmul c e, 1, 0x03), (.vfma c e, 1, 0x04), (.vmax c e, 1, 0x05), (.vmin c e, 1, 0x06), (.vand c e, 1, 0x07),
     (.vor c e, 1, 0x08), (.vxor c e, 1, 0x09), (.vshl c e, 1, 0x0A), (.vshr c e, 1, 0x0B), (.vcmplt c e, 1, 0x0C),
     (.vcmple c e, 1, 0x0D), (.vcmpeq c e, 1, 0x0E), (.vsel c e, 1, 0x0F), (.vcvt c e, 1, 0x10), (.vexp c e, 1, 0x11),
     (.vrcp c e, 1, 0x12), (.vrsqrt c e, 1, 0x13), (.vred c e, 1, 0x14), (.vperm c e, 1, 0x15), (.vbcast c e, 1, 0x16),
     (.vmov c e, 1, 0x17)]
   else
    [(.rld c e, 0, 0x11), (.rst c e, 0, 0x12), (.ldmod c e, 0, 0x16), (.radd c e, 1, 0x01), (.rsub c e, 1, 0x02),
     (.rmul c e, 1, 0x03), (.rmac c e, 1, 0x04), (.rneg c e, 1, 0x05), (.rbfly c e, 1, 0x06), (.rbflyi c e, 1, 0x07),
     (.rxch c e, 1, 0x08), (.raddw c e, 1, 0x09), (.rsubw c e, 1, 0x0A), (.rmulw c e, 1, 0x0B), (.rmov c e, 1, 0x0C),
     (.rbcast c e, 1, 0x0D), (.rmod c e, 1, 0x0E)])

/-- Every group pair of Quill belongs to one of the twelve dimensions that registers show (R361, R373). -/
def State.Dims (s : State) : Prop := ∀ c ∈ s.quill.groups.cells, c.1 < 12

/-- A parameter write of a source reaches its block: the host port is open, and neither the management plane's halt, bring-up
nor STOPPED refuses it (R471, R480, R510). -/
def State.Takes (s : State) (src : Src) (r : RegSpec) (ix : List Nat) (v : Nat) : Prop :=
  s.hostShut src = false ∧ s.regHeld (r.addr ix) = false
    ∧ s.gate src (r.addr ix) (s.regWord r ix) (fieldsWrite (s.regWord r ix) v r.fields) = none

/-- While both copies of the journal are in use, `t` has journalled a parameter write that began in `s`: its place in the
sequence, TT, source, status, cause, where, the value before and the value written (R502, Table 20-7a). -/
def Journalled (s t : State) (src : Src) (status cause off old new : Nat) : Prop :=
  s.get R.HP_JRN_STATUS_copy = 0 → ∃ e : JEntry,
    t.jrn.primary.get? (s.get R.HP_JRN_HEAD_seq % 16384) = some e
      ∧ t.jrn.mirror.get? (s.get R.HP_JRN_HEAD_seq % 16384) = some e
      ∧ e.seq = s.get R.HP_JRN_HEAD_seq ∧ e.tt = s.tt ∧ e.source = srcNum src ∧ e.status = status ∧ e.cause = cause
      ∧ e.loc = off ∧ e.old = old ∧ e.new = new

/-- Firmware takes the mailbox request `cnt` and executes it: it is no repeat of the one before (R497). -/
def State.Fresh (s : State) (cnt : Nat) : Prop :=
  s.mailOn = true ∧ (cnt % 8 = 0 ∨ cnt % 8 ≠ s.ecat.lastCnt ∨ s.ecat.stored = none)

/-- The machine as the mailbox request `cnt` is executed: SM0 is free again, and a new initiate leaves no transfer. -/
def State.taken (s : State) (cnt : Nat) (seg : Option SegXfer) : State :=
  { s with ecat := { s.ecat with sm0 := none, lastCnt := cnt % 8, stored := none, seg := seg } }

/-- The request is answered with `r`: the response is stored for repetition, and it is the last that waits for SM1. -/
def Answered (s t : State) (r : Resp) : Prop :=
  t.ecat.stored = some (r, s.ecat.nextCnt) ∧ t.ecat.nextCnt = s.ecat.nextCnt % 7 + 1
    ∧ t.ecat.sm1.toList ++ t.ecat.replies = s.ecat.sm1.toList ++ s.ecat.replies ++ [(r, s.ecat.nextCnt)]

/-- What every state that a step can be in satisfies: memory is in its canonical form, and the configuration is one that
the generator delivers (R38). -/
def State.Sound (s : State) : Prop := s.mem.wf = true ∧ s.cfg.valid = true

/-- `t` is the machine as power-on reset leaves it, but for what outlives it: the delivered configuration, boot flash and the
waiting commands (R12, R481, R490). HP_BOOT_STATUS is left to the statement. -/
def FreshFrom (s t : State) : Prop :=
  (∀ r ix, r.addr ix ≠ R.HP_BOOT_STATUS.off → t.regWord r ix = resetWord s.cfg r ix)
    ∧ t.tt = 0 ∧ t.phase = 1 ∧ t.phaseDone = 0 ∧ t.warm = false ∧ t.bypassHold = false ∧ t.ecatHold = false
    ∧ t.jrn.primary = Tbl.empty ∧ t.jrn.mirror = Tbl.empty ∧ t.jrn.pend = [] ∧ t.host.held = [] ∧ t.host.writes = []
    ∧ t.au.table = Tbl.empty ∧ t.au.oe = false ∧ (∀ c n, t.sync c n = 0) ∧ t.ds.jobs = Tbl.empty ∧ t.rcp = Tbl.empty
    ∧ t.cu.keys = Tbl.empty ∧ t.cu.test = 0 ∧ t.ecat.al = 1
    ∧ t.cfg = s.cfg ∧ t.boot.flash = s.boot.flash ∧ t.pending = s.pending

/-- The event that names a held island (R49, Table 18-7). -/
def absentEvent (tt i : Nat) : Event := { code := E.ISLAND_CLOCK_ABSENT, tt := tt, detail := mkDetail none [(.ix, i)] }


/-- `t` is the machine as the assertion of warm reset leaves it from `s` (R12, R47, R187, R438, R478, R490, R512): bring-up
is in ROM and warm, no job runs, the outputs and keep-alives are off, no parameter write and no mailbox message waits, and
every register that its table does not keep reads its reset value; CU_OP_STATUS shows whether an operation was ended. TT,
boot flash, the key slots, the configuration and the queue stay. -/
def WarmFrom (s t : State) : Prop :=
  t.warm = true ∧ t.por = false ∧ t.tt = s.tt ∧ t.phase = 1 ∧ t.get R.HP_BOOT_STATUS_warm = 1 ∧ t.phaseDone = 0
    ∧ t.mgmtHalted = false ∧ t.bypassHold = false ∧ t.ecatHold = false ∧ t.au.oe = false ∧ t.ds.jobs = Tbl.empty
    ∧ t.jrn.pend = [] ∧ t.ecat.al = 1 ∧ t.ecat.sm0 = none ∧ t.ecat.sm1 = none ∧ t.ecat.replies = []
    ∧ t.cu.fw = none ∧ t.cu.keys = s.cu.keys
    ∧ (∀ r ix, keptWarm s.cfg (r.addr ix) = false → r.addr ix ≠ R.CU_OP_STATUS.off → r.addr ix ≠ R.HP_BOOT_STATUS.off →
        t.regWord r ix = resetWord s.cfg r ix)
    ∧ t.cfg = s.cfg ∧ t.boot.flash = s.boot.flash ∧ t.pending = s.pending


/-- A message as one more hop leaves it, with `d` added to its detours (R385). -/
def oneHop (m : List Byte) (d : Nat) : List Byte :=
  leBytes 16 (setBits (setBits (qHdr m) 11 8 (bits (qHdr m) 11 8 + 1)) 5 4 (bits (qHdr m) 5 4 + d)) ++ qPayload m

/-- The access that held tid `k` of `s` has ended, at its TT (R384). -/
def TidFreed (s t : State) (k : Nat) : Prop :=
  t.quill.tids.get? k = none ∧ t.quill.freed.get? k = some s.tt
    ∧ ∀ k', k' ≠ k → t.quill.tids.get? k' = s.quill.tids.get? k' ∧ t.quill.freed.get? k' = s.quill.freed.get? k'

end Sys2Proof.Machine
end

