-- ==== Sys2Proof/Certificates/Slice0/Obligations.lean ====
section
/-! DEFINITION. The obligations: what each family of commands does to each kind of state, what a step is, and the invariant that
every step keeps. -/

open Sys2Proof Sys2Proof.Machine

/-! ### Resets and islands (chapters 2 and 19) -/

/-- R12, R47, R490: assertion of POR_N, loss of power and release of POR_N leave every register of the map at its reset value
(HP_BOOT_STATUS counts the events that wait for the host), TT at 0, no job, entry, journal entry or key, outputs and
keep-alives off; what is kept is the configuration, boot flash and the queue. At the release, the islands whose clock is
absent are held and each is named by one ISLAND_CLOCK_ABSENT (R49). -/
def Obligations.PowerOnResetLeavesResetState : Prop :=
  ∀ s : State,
    Yields .porAssert s (fun t => FreshFrom s t ∧ t.por = true ∧ t.powered = s.powered ∧ t.heldIsl = [] ∧ t.ev.mgmt = [])
    ∧ Yields .powerLoss s (fun t => FreshFrom s t ∧ t.por = true ∧ t.powered = false ∧ t.heldIsl = [] ∧ t.ev.mgmt = [])
    ∧ ∀ absent, s.por = true → Yields (.porRelease absent) s (fun t => FreshFrom s t ∧ t.por = false ∧ t.powered = true
        ∧ t.heldIsl = absent.filter (islandExists s.cfg) ∧ t.ev.mgmt = t.heldIsl.map (absentEvent 0))

/-- R47, R478, R490: a warm reset is taken only outside POR_N, ROM, HALTED and another warm reset; WarmFrom says what it
leaves. HP_LIFECYCLE with the warm code is journalled and answered accepted, and then does the same. The release of warm reset
starts ROM, reports the phase and changes no more than the reset line, ECAT_BYPASS_HOLD and the phase. -/
def Obligations.WarmResetClearsAndKeeps : Prop :=
  ∀ s : State,
    ((s.por = true ∨ s.warm = true ∨ s.phase = 1 ∨ s.phase = 15) → Yields .warmRstAssert s (fun t => t = s))
    ∧ (s.por = false → s.warm = false → s.phase ≠ 1 → s.phase ≠ 15 →
        Yields .warmRstAssert s (WarmFrom s)
        ∧ ∀ src, s.hostShut src = false → Yields (.lifecycleWarmReset src) s (fun t => WarmFrom s t
            ∧ t.get R.HP_BOOT_STATUS_lc_result = 1
            ∧ Journalled s t src 0 0 (if src = .sdo then dictLoc 0x2000 5 else R.HP_LIFECYCLE.off) 0 codeWarm))
    ∧ (s.por = false → s.warm = true → Yields .warmRstRelease s (fun t =>
        t = { s with warm := false, ecatHold := s.cu.test == 1 && s.get R.EM_VMON_STATUS_fault == 0, regs := t.regs,
                     boot := { s.boot with phaseTt := s.tt, expired := false }, ev := t.ev }
        ∧ t.phase = 1 ∧ SameRegs s t [R.HP_BOOT_STATUS.off]
        ∧ Posted s t E.BRINGUP_PHASE none [(.en, 1), (.en, s.get R.HP_BOOT_STATUS_warm)]))

/-- R49: an island whose clock stops is held from then on and named by ISLAND_CLOCK_ABSENT; every register of a held island
reads its reset value (CR_CORE_STATUS with no_clock set) and a write to it changes nothing. When the clock is seen again the
island leaves reset: it is no longer held, every register of the island reads its reset value and every latch of one 0 (R59),
the position island with TT at 0 and an empty event table (R84, R113, R315), a core without a segment or a window lent (R186),
the fabric island without a transaction, a job or a recipe. A core whose clock stops faults no job (R260). Which island holds a
block is in part the model's choice (log 86). -/
def Obligations.IslandWithoutClockIsHeld : Prop :=
  ∀ (s : State) (i : Nat),
    (s.por = false → islandExists s.cfg i = true → i ∉ s.heldIsl →
      Yields (.islandClockLoss i) s (fun t => t.heldIsl = s.heldIsl ++ [i]
        ∧ PostedFirst s t E.ISLAND_CLOCK_ABSENT none [(.ix, i)] ∧ t.tt = s.tt ∧ t.cfg = s.cfg
        ∧ (∀ r ix, regIsland s.cfg (r.addr ix) = i → r.off ≠ R.CR_CORE_STATUS.off → isBankCtl r = false →
            t.view r ix = resetWord s.cfg r ix)
        ∧ (∀ src r ix v pair, regIsland s.cfg (r.addr ix) = i → t.applyParam src r ix v pair = t)
        ∧ (32 ≤ i → i ≠ 52 → i ≠ 53 → t = { s with heldIsl := t.heldIsl, regs := t.regs, ev := t.ev })
        ∧ (i ≠ 52 → i ≠ 53 → SameRegs s t [R.HP_BOOT_STATUS.off])
        ∧ (i < 32 → (t.core i).win = Tbl.empty ∧ (t.core i).statics = (s.core i).statics ∧ (∀ n, t.sync i n = 0)
            ∧ (∀ e, (t.eng i e).queue = [] ∧ (t.eng i e).run = none ∧ (t.eng i e).ending = []) ∧ (∀ c', c' ≠ i → t.core c' = s.core c'))
        ∧ (i = 52 → t.fab.txns = [] ∧ t.ds.jobs = Tbl.empty ∧ t.rcp = Tbl.empty ∧ t.mem = s.mem)
        ∧ (i = 53 → t.au.table = Tbl.empty ∧ t.au.oe = false ∧ t.bypassHold = false)))
    ∧ (s.por = false → i ∈ s.heldIsl →
      Yields (.islandClockReturn i) s (fun t => t.heldIsl = s.heldIsl.erase i ∧ t.cfg = s.cfg
        ∧ (i ≠ 53 → ∀ r ix, regIsland s.cfg (r.addr ix) = i → t.regWord r ix = resetWord s.cfg r ix
            ∧ t.hiLatch.get (r.addr ix) 0 = 0)
        ∧ (i < 32 → (t.core i).win = Tbl.empty ∧ (t.core i).statics = (s.core i).statics ∧ (∀ n, t.sync i n = 0)
            ∧ ∀ e, t.eng i e = { Engine.init with nextW := (s.eng i e).nextW })
        ∧ (i = 52 → t.fab.txns = [] ∧ t.ds.jobs = Tbl.empty ∧ t.rcp = Tbl.empty ∧ t.mem = s.mem)
        ∧ (i = 53 → t.tt = 0 ∧ (∀ ch, ch < s.cfg.posChannels → t.ch ch = { PuCh.init with scan := #v[s.up, s.up, s.up] }) ∧ t.au.table = Tbl.empty ∧ t.au.oe = false)))

/-- R469, R471, R472: a phase whose condition does not hold is kept. ACTUATION done enters READY: the phase is 12, the phases
done are 12, BRINGUP_PHASE is posted, and nothing else changes. A wait limit (TIMEBASE, LINKS) that expires posts
BRINGUP_WAIT_EXPIRED naming the phase, and the phase is then done and the next begins. -/
def Obligations.BringUpPhaseAdvances : Prop :=
  ∀ s : State, s.por = false → s.warm = false →
    (s.phase = 11 → s.boot.stop = 0 →
      Yields .bringupPhaseDone s (fun t => t.phase = 12 ∧ t.phaseDone = 12 ∧ SameRegs s t [R.HP_BOOT_STATUS.off]
        ∧ Posted s t E.BRINGUP_PHASE none [(.en, 12), (.en, s.get R.HP_BOOT_STATUS_warm)]
        ∧ t = { s with phaseDone := 12, regs := t.regs, ev := t.ev,
                       boot := { s.boot with phaseTt := s.tt, expired := false } }))
    ∧ (2 ≤ s.phase → s.phase ≤ 11 → s.phase ≠ 3 → s.phaseHolds s.phase = false →
      Yields .bringupPhaseDone s (fun t => t = s))
    ∧ (s.phase = 1 → s.cu.test = 0 → Yields .bringupPhaseDone s (fun t => t = s))
    ∧ ∀ n, ((s.phase = 5 ∧ n = 2000000000) ∨ (s.phase = 6 ∧ n = 1000000000)) → s.boot.expired = false → s.boot.stop = 0 →
      s.boot.phaseTt + n ≤ s.tt → s.phaseHolds s.phase = false →
      Yields .bringupWaitExpired s (fun t => PostedFirst s t E.BRINGUP_WAIT_EXPIRED none [(.en, s.phase)]
        ∧ t.phase = s.phase + 1 ∧ t.phaseDone = s.phase)

/-- R479, R485: a shutdown request is journalled and accepted (lc_result 1) in bring-up, where it waits for the phase in
progress, and in READY, where STOPPING begins; while a shutdown is under way or outside those phases it is refused
(lc_result 2) and changes nothing else. While parts, entries or pulses remain, STOPPING goes on. When the jobs, loads and audit
contexts have ended, STOPPED is entered and SHUTDOWN_STATE posted. At drain_s the drain ends: the parts that were open are
counted and the blocks are stopped. -/
def Obligations.OrderlyShutdownStops : Prop :=
  ∀ s : State,
    (∀ src, s.hostShut src = false → s.boot.stop = 0 → 2 ≤ s.phase → s.phase ≤ 11 →
      Yields (.lifecycleShutdown src) s (fun t => t = { s with regs := t.regs, jrn := t.jrn, boot := { s.boot with stop := 1 } }
        ∧ t.get R.HP_BOOT_STATUS_lc_result = 1
        ∧ Journalled s t src 0 0 (if src = .sdo then dictLoc 0x2000 5 else R.HP_LIFECYCLE.off) 0 codeStop))
    ∧ (∀ src, s.hostShut src = false → s.boot.stop = 0 → s.phase = 12 →
      Yields (.lifecycleShutdown src) s (fun t => t.phase = 13 ∧ t.boot.stop = 2 ∧ t.boot.stopTt = s.tt
        ∧ t.get R.HP_BOOT_STATUS_lc_result = 1
        ∧ PostedFirst s t E.BRINGUP_PHASE none [(.en, 13), (.en, s.get R.HP_BOOT_STATUS_warm)]))
    ∧ (∀ src, s.hostShut src = false → (s.boot.stop ≠ 0 ∨ s.phase < 2 ∨ 12 < s.phase) →
      Yields (.lifecycleShutdown src) s (fun t => t = { s with regs := t.regs, jrn := t.jrn }
        ∧ t.get R.HP_BOOT_STATUS_lc_result = 2
        ∧ Journalled s t src 2 causeBlock (if src = .sdo then dictLoc 0x2000 5 else R.HP_LIFECYCLE.off) 0 codeStop))
    ∧ (∀ ok1 ok2, s.phase = 13 → s.boot.stop = 2 → s.drained = false →
      Yields (.drainComplete ok1 ok2) s (fun t => t = s))
    ∧ (∀ ok1 ok2, s.phase = 13 → s.boot.stop = 3 → s.ds.jobs = Tbl.empty → s.ds.loads = Tbl.empty →
      (∀ k < 4, s.audState k = audIdle) →
      Yields (.drainComplete ok1 ok2) s (fun t => t.phase = 14 ∧ t.boot.stop = 0
        ∧ ∃ tt, t.ev.mgmt.getLast? = some { code := E.SHUTDOWN_STATE, tt := tt,
                                            detail := mkDetail none [(.en, 14), (.val, s.boot.ended)] }))
    ∧ (s.phase = 13 → s.boot.stop = 2 → s.boot.stopTt + s.boot.drain * 1000000000 ≤ s.tt →
      Yields .drainTimeout s (fun t => t.boot.stop = 3
        ∧ t.boot.ended = (s.rcp.vals.map (fun r => r.parts.length)).foldl (· + ·) 0))

/-! ### Islands, power and environment (chapter 18, with the PHY and clock generator answers of chapter 2) -/

/-- R444, R446, R447, R461: at the end of a period whose least slack is below margin the commanded voltage rises by one code,
within v_min_code and v_max_code, and the period's samples are dropped. A slack sample at or above emerg is kept and shown, and
no code moves; one below emerg raises the voltage by four codes, blocks decreases for 10 ms, counts and posts CPM_EMERGENCY.
Calibration that finds all four CPMs outside 0 to 255 holds the voltage at v_max_code and posts SENSOR_FAIL once; otherwise it
only notes which CPMs are excluded. -/
def Obligations.VoltageLoopFollowsSlack : Prop :=
  ∀ (s : State) (c : Nat), s.Sound → c < s.cfg.cores → c ∉ s.heldIsl →
    (∀ h l, s.flag R.EM_CTL_dvfs_en = true → (s.ec c).evalTt + 10000 ≤ s.tt → s.noCpm c = false → (s.ec c).samples = h :: l →
      l.foldl min h < s.get R.EM_CPM_CFG_margin → s.vCode c < s.get R.EM_VRANGE_v_max_code →
      s.get R.EM_VRANGE_v_min_code ≤ s.vCode c + 1 →
      Yields (.dvfsEvaluation c) s (fun t => t.vCode c = s.vCode c + 1 ∧ (t.ec c).samples = [] ∧ (t.ec c).evalTt = s.tt
        ∧ (t.ec c).vTt = s.tt ∧ t.fCode c = s.fCode c ∧ SameRegs s t [R.EM_CORE_STATE.addr [c]]
        ∧ (∀ c', c' ≠ c → t.ec c' = s.ec c') ∧ t = { s with regs := t.regs, env := t.env }))
    ∧ (∀ l k, s.islandRuns c = true → slackOf (s.ec c).excl l = some k →
      (s.get R.EM_CPM_CFG_emerg ≤ k →
        Yields (.cpmSample c l) s (fun t => (t.ec c).samples = k :: (s.ec c).samples
          ∧ FieldsSet s t [(R.EM_CORE_STATE_slack, [c], k)] ∧ t = { s with regs := t.regs, env := t.env }))
      ∧ (k < s.get R.EM_CPM_CFG_emerg → s.flag R.EM_CTL_dvfs_en = true →
        Yields (.cpmSample c l) s (fun t =>
          t.vCode c = max (s.get R.EM_VRANGE_v_min_code) (min (s.get R.EM_VRANGE_v_max_code) (s.vCode c + 4))
          ∧ t.fCode c = s.fCode c ∧ t.get R.EM_CORE_STATE_emergency [c] = 1 ∧ (t.ec c).block = s.tt + 10000000
          ∧ t.get R.EM_ERR_emergency = satTo 255 (s.get R.EM_ERR_emergency + 1)
          ∧ PostedLim s t E.CPM_EMERGENCY 0 (some c) [(.en, k)]
          ∧ SameRegs s t [R.EM_CORE_STATE.addr [c], R.EM_ERR.off, R.HP_BOOT_STATUS.off]
          ∧ t = { s with regs := t.regs, env := t.env, ev := t.ev })))
    ∧ (∀ a b d e : Int,
      ((∃ x ∈ [a, b, d, e], 0 ≤ x ∧ x ≤ 255) →
        Yields (.cpmCalibration c [a, b, d, e]) s (fun t => t = { s with env := t.env } ∧ ∀ k < 4,
          bit (t.ec c).excl k = decide ([a, b, d, e].getD k 0 < 0 ∨ 255 < [a, b, d, e].getD k 0)))
      ∧ ((∀ x ∈ [a, b, d, e], x < 0 ∨ 255 < x) → s.noCpm c = false →
        s.get R.EM_VRANGE_v_min_code ≤ s.get R.EM_VRANGE_v_max_code →
        Yields (.cpmCalibration c [a, b, d, e]) s (fun t => t.noCpm c = true
          ∧ t.vCode c = s.get R.EM_VRANGE_v_max_code ∧ PostedLim s t E.SENSOR_FAIL 1 (some c) [(.en, 2)]
          ∧ SameRegs s t [R.EM_CORE_STATE.addr [c], R.HP_BOOT_STATUS.off]
          ∧ t = { s with regs := t.regs, env := t.env, ev := t.ev })))

/-- R445, R51, R56, R175: a frequency step that is due lowers the code by requesting the next lower one at once, and raises it by
first raising the voltage by v_step_up; the request for the next higher code follows v_settle_us later. The generator's
acknowledgement makes the requested code the island's, and marks the running segments whose image needs more; 50 µs without it caps the island at its last code, is counted and
posts CLOCK_GEN_TIMEOUT. -/
def Obligations.FrequencyStepsByOneCode : Prop :=
  ∀ (s : State) (c : Nat), s.Sound → c < s.cfg.cores →
    (s.flag R.EM_CTL_dvfs_en = true → c ∉ s.heldIsl → (s.ec c).req = none → (s.ec c).settle = none →
      (∀ t, (s.ec c).stepTt = some t → t + 100000 ≤ s.tt) →
      (s.goalCode c < s.fCode c → Yields (.frequencyStep c) s (fun t =>
        t = s.setEc c { s.ec c with req := some (s.fCode c - 1, s.tt), stepTt := some s.tt, settle := none }))
      ∧ (s.fCode c < s.goalCode c → s.flag R.EM_CORE_STATE_vlimited [c] = false →
        Yields (.frequencyStep c) s (fun t => t.fCode c = s.fCode c
          ∧ (t.vCode c : Nat) = (max (s.get R.EM_VRANGE_v_min_code)
              (min (s.get R.EM_VRANGE_v_max_code) (s.vCode c + s.get R.EM_VRANGE_v_step_up)))
          ∧ (t.ec c).settle = some (s.tt + s.get R.EM_CPM_CFG_v_settle_us * 1000) ∧ (t.ec c).stepTt = some s.tt
          ∧ (t.ec c).req = none ∧ SameRegs s t [R.EM_CORE_STATE.addr [c]] ∧ t = { s with regs := t.regs, env := t.env }))
      ∧ (s.fCode c = s.goalCode c → Yields (.frequencyStep c) s (fun t => t = s)))
    ∧ (∀ n, (s.ec c).settle = some n → n ≤ s.tt → Yields (.frequencyRequest c) s (fun t =>
        t = s.setEc c { s.ec c with settle := none, req := some (s.fCode c + 1, s.tt) }))
    ∧ (∀ code n, (s.ec c).req = some (code, n) →
      Yields (.clockGenAck c) s (fun t => (t.ec c).req = none
        ∧ FieldsSet s t [(R.EM_CORE_STATE_f_code, [c], code), (R.CR_CORE_STATUS_freq_mhz, [c], 25 * code)]
        ∧ t = { s with regs := t.regs, env := t.env, cores := t.cores } ∧ (∀ c', c' ≠ c → t.core c' = s.core c')
        ∧ t.core c = { s.core c with eng := (t.core c).eng }
        ∧ ∀ e, t.eng c e = { s.eng c e with run := (s.eng c e).run.map (fun r =>
            { r with below := r.below || decide (t.get R.CR_CORE_STATUS_freq_mhz [c] < s.floorOf r.desc.job) }) })
      ∧ (n + 50000 ≤ s.tt → Yields (.clockGenTimeout c) s (fun t => (t.ec c).req = none ∧ t.fCode c = s.fCode c
        ∧ t.get R.EM_CORE_TGT_lim_code [c] = s.fCode c
        ∧ t.get R.EM_ERR_clock_timeout = satTo 255 (s.get R.EM_ERR_clock_timeout + 1)
        ∧ PostedLim s t E.CLOCK_GEN_TIMEOUT 0 (some c) [(.en, code)]
        ∧ SameRegs s t [R.EM_CORE_TGT.addr [c], R.EM_ERR.off, R.HP_BOOT_STATUS.off]
        ∧ t = { s with regs := t.regs, env := t.env, ev := t.ev })))

/-- R48, R50, R449: a trial that is due starts with four reads of the eye metric at the current code. An acknowledged write
frees the interface and makes a code that it wrote the lane's setting; an acknowledged read before the fourth is kept. An access without acknowledgement is abandoned with its
trial, counted, retried after 1 ms, and the third in a row stops the loop. A trial code that breaks its link is not kept: c is
written at once. A SerDes reset abandons the access in flight, and the loop waits for the SerDes with the stored settings. -/
def Obligations.LaneTuningTrials : Prop :=
  ∀ (s : State) (n : Nat),
    (let x := s.lane n
     let m := s.tuneMap n
     s.flag R.EM_CTL_tune_en = true → s.laneUp n = true → x.stopped = false → x.down = false → x.trial = none → m.1 ≠ 0xFF → m.2.1 ≠ 0xFF →
      x.thrTurn = false → x.next ≤ s.tt → x.retry = none → x.reqs = [] →
      Yields (.tuningTrial n) s (fun t => t = { s with tune := t.tune }
        ∧ (t.lane n).reqs = List.replicate 4 { fn := .eye, write := false, addr := m.2.1, data := 0 }
        ∧ (t.lane n).trial = some { thr := false, c := max x.code (s.tuneRange n false).1, stage := 0, reads := [], avg := [],
                                    dwell := none, spoiled := false }
        ∧ (t.lane n).next = s.tt + s.get R.EM_TUNE_CTL_eq_period_ms * 1000000 ∧ ∀ k, k ≠ n → t.lane k = s.lane k))
    ∧ (∀ r rest data, (s.lane n).reqs = r :: rest →
      ((s.lane n).trial = none ∨ r.write = true → Yields (.phyTuneAck n data) s (fun t =>
        t = s.setLane n { (s.lane n).acked r with reqs := rest }))
      ∧ (∀ tr, (s.lane n).trial = some tr → r.write = false → tr.reads.length < 3 →
        Yields (.phyTuneAck n data) s (fun t => t = { s with tune := t.tune }
          ∧ t.lane n = { (s.lane n).acked r with reqs := rest, trial := some { tr with reads := tr.reads ++ [data] } }
          ∧ ∀ k, k ≠ n → t.lane k = s.lane k))
      ∧ Yields (.phyTuneTimeout n) s (fun t =>
        t.lane n = { s.lane n with reqs := [], trial := none, fails := (s.lane n).fails + 1, retry := some (s.tt + 1000000),
                                   next := s.tt + 1000000,
                                   stopped := (s.lane n).stopped || decide (3 ≤ (s.lane n).fails + 1) }
        ∧ FieldsSet s t [(R.EM_ERR_tune_timeout, [], satTo 255 (s.get R.EM_ERR_tune_timeout + 1))]
        ∧ PostedLim s t E.PHY_TUNE_TIMEOUT 0 (some n) [(.num, (s.lane n).fails + 1)]
        ∧ t = { s with tune := t.tune, regs := t.regs, ev := t.ev }))
    ∧ (∀ tr, (s.lane n).trial = some tr → (s.lane n).reqs = [] → tr.stage ≠ 0 →
      (∀ d, tr.dwell = some d → d ≤ s.tt → Yields (.trialDwellEnd n false) s (fun t => t = { s with tune := t.tune }
        ∧ (t.lane n).trial = some { tr with dwell := none }
        ∧ (t.lane n).reqs = List.replicate 4 { fn := .eye, write := false, addr := (s.tuneMap n).2.1, data := 0 }))
      ∧ (tr.stage = 2 → tr.avg.length = 2 → tr.thr = false →
        Yields (.trialDwellEnd n true) s (fun t => (t.lane n).trial = none ∧ t = { s with tune := t.tune }
          ∧ (t.lane n).code = (s.lane n).code
          ∧ (∃ best, (best = tr.c ∨ best = tr.c + 1) ∧ (t.lane n).reqs.map (·.data) = [tr.c, best]) ∧ ∀ r ∈ (t.lane n).reqs, r.write = true ∧ r.fn = .eq)))
    ∧ Yields (.laneSerdesReset n) s (fun t => t = s.setLane n
        { s.lane n with reqs := [], trial := none, fails := 0, stopped := false, retry := none, down := true })

/-- R451, R452, R461: a reading of a present site inside −40 to 150 °C is held, valid and not failed; above t_crit every core
island's ceiling is 24 at once and THERMAL_CRITICAL is posted. A reading outside that span sets failed and posts SENSOR_FAIL
once; a site whose core islands are all absent reads valid 0. While the governing temperature is above t_throttle a ceiling
drop that is due lowers the ceiling by 4, not below the floor; more than 5 °C below it the ceiling rises by 4, up to 68. -/
def Obligations.ThermalCeilings : Prop :=
  ∀ s : State, s.Sound →
    (∀ (k : Nat) (v : Int), k < 16 → s.sitePresent k = true →
      (-640 ≤ v → v ≤ 2400 → v ≤ 16 * (s.get R.EM_THERM_CFG_t_warn : Int) → v ≤ 16 * (s.get R.EM_THERM_CFG_t_crit : Int) →
        Yields (.thermalRead k (some v)) s (fun t => t.siteTemp k = v ∧ t.siteValid k = true ∧ t.tt = s.tt
          ∧ t.mem = s.mem ∧ t.jrn = s.jrn ∧ t.env.sites.get? k = some s.tt))
      ∧ (2400 < v → s.flag R.EM_THERM_failed [k] = false →
        Yields (.thermalRead k (some v)) s (fun t => t.flag R.EM_THERM_failed [k] = true ∧ t.siteValid k = false
          ∧ (¬ s.Recent E.SENSOR_FAIL 0 (some k) → PostedFirst s t E.SENSOR_FAIL (some k) [(.en, 1)])))
      ∧ (v ≤ 2400 → 16 * (s.get R.EM_THERM_CFG_t_crit : Int) < v →
        Yields (.thermalRead k (some v)) s (fun t => ∀ c < s.cfg.cores, t.get R.EM_CORE_TGT_ceil_code [c] = 24)))
    ∧ (∀ k < 16, s.sitePresent k = false → ∀ v, Yields (.thermalRead k v) s (fun t =>
        FieldsSet s t [(R.EM_THERM_valid, [k], 0)] ∧ t = { s with regs := t.regs }))
    ∧ (∀ (c : Nat) (v : Int) (k : Nat), c < s.cfg.cores → s.env.crit = false → s.governing c = some (v, k) →
      let ceil := s.get R.EM_CORE_TGT_ceil_code [c]
      let fl := max 24 (s.get R.EM_CORE_TGT_floor_code [c])
      let th : Int := 16 * s.get R.EM_THERM_CFG_t_throttle
      (th < v → fl < ceil → (∀ n, (s.ec c).ceilTt = some n → n + 10000000 ≤ s.tt) →
        Yields (.ceilingStep c) s (fun t => FieldsSet s t [(R.EM_CORE_TGT_ceil_code, [c], max fl (ceil - 4))]
          ∧ (t.ec c).ceilTt = some s.tt ∧ t = { s with regs := t.regs, env := t.env, ev := t.ev }
          ∧ ((s.ec c).hot = false → PostedLim s t E.THERMAL_THROTTLE 0 (some c) [(.num, k), (.en, max fl (ceil - 4))])
          ∧ ((s.ec c).hot = true → t.ev = s.ev)))
      ∧ (v < th - 80 → ceil < 68 → (∀ n, (s.ec c).ceilTt = some n → n + 100000000 ≤ s.tt) →
        Yields (.ceilingStep c) s (fun t => FieldsSet s t [(R.EM_CORE_TGT_ceil_code, [c], min 68 (ceil + 4))]
          ∧ (t.ec c).ceilTt = some s.tt ∧ t = { s with regs := t.regs, env := t.env }))
      ∧ (th - 80 ≤ v → v ≤ th → Yields (.ceilingStep c) s (fun t => t = s)))

/-- R453, R463: a fixed-rail sample inside its warn window is shown, clears the monitor's warn bit and ends both runs of bad
samples. The tenth sample in a row outside the fault window latches the fault bit, is counted, posts SUPPLY_FAULT and stops the
keep-alives and ACT_OE (R55, R313). Firmware clears a latched fault after 1 s inside the warn window. -/
def Obligations.SupplyFaultLatchesAndClears : Prop :=
  ∀ (s : State) (m : Nat), s.Sound → 4 ≤ m → m < 8 →
    (∀ v : Nat, s.flag R.EM_VMON_CFG_en [m] = true →
      let ref := s.get R.EM_VMON_CFG_nominal [m]
      let d := ((v : Int) - ref).natAbs
      (20 * d ≤ ref → Yields (.vmonSample m v) s (fun t => (t.mon m).warnN = 0 ∧ (t.mon m).faultN = 0
        ∧ (t.mon m).inTt = some ((s.mon m).inTt.getD s.tt) ∧ bit (t.get R.EM_VMON_STATUS_warn) m = false
        ∧ t.get R.EM_VMON_STATUS_fault = s.get R.EM_VMON_STATUS_fault
        ∧ SameRegs s t [R.EM_VMON_VAL.addr [m], R.EM_VMON_STATUS.off] ∧ t = { s with regs := t.regs, env := t.env }))
      ∧ (ref < 10 * d → (s.mon m).faultN = 9 → bit (s.get R.EM_VMON_STATUS_fault) m = false →
        Yields (.vmonSample m v) s (fun t => bit (t.get R.EM_VMON_STATUS_fault) m = true ∧ t.ecatHold = false
          ∧ t.bypassHold = false ∧ t.au.oe = false
          ∧ t.get R.EM_ERR_supply = satTo 255 (s.get R.EM_ERR_supply + 1) ∧ t.tt = s.tt ∧ t.mem = s.mem)))
    ∧ (∀ n, bit (s.get R.EM_VMON_STATUS_fault) m = true → (s.mon m).inTt = some n → n + 1000000000 ≤ s.tt →
      Yields (.supplyFaultClear m) s (fun t => bit (t.get R.EM_VMON_STATUS_fault) m = false
        ∧ (∀ j < 8, j ≠ m → bit (t.get R.EM_VMON_STATUS_fault) j = bit (s.get R.EM_VMON_STATUS_fault) j)
        ∧ (¬ s.Recent E.SUPPLY_OK 0 (some m) → PostedFirst s t E.SUPPLY_OK (some m) [])
        ∧ SameRegs s t [R.EM_VMON_STATUS.off, R.HP_BOOT_STATUS.off]))

/-- R454, R455, R456: a tach period sets rpm, and a fan in its kick that reaches tach_min runs. A kick that ends below tach_min
holds the PWM at 0 for 1 s and counts a retry; after the pause the fan is kicked again at 100%; after three retries it enters
fault and FAN_FAULT is posted. A running fan at non-zero duty without a tach edge for 2 s sets tach_lost, posts FAN_TACH_LOST
and runs at 100%; 10 s at or above tach_min clear it and post FAN_OK. -/
def Obligations.FansKickRunAndFault : Prop :=
  ∀ (s : State) (f : Nat), f < 4 →
    (∀ p, 0 < p → Yields (.fanRpmUpdate f p) s (fun t =>
        t.get R.EM_FAN_TACH_rpm [f] = min 65535 (60000000000 / (p * (if s.flag R.EM_FAN_CFG_ppr4 [f] then 4 else 2)))
        ∧ (t.fan f).edge = s.tt ∧ t.tt = s.tt ∧ t.mem = s.mem ∧ t.ev = s.ev
        ∧ (s.get R.EM_FAN_STATUS_state [f] = 1 → (s.fan f).kick ≠ none → s.get R.EM_FAN_STATUS_duty [f] ≠ 0 →
            s.get R.EM_FAN_TACH_tach_min [f] ≤ t.get R.EM_FAN_TACH_rpm [f] →
            t.get R.EM_FAN_STATUS_state [f] = 2 ∧ (t.fan f).kick = none)))
    ∧ (s.get R.EM_FAN_STATUS_state [f] = 1 →
      (∀ n, (s.fan f).kick = some n → n ≤ s.tt →
        (s.get R.EM_FAN_STATUS_retries [f] < 3 → Yields (.fanKickTimeout f) s (fun t =>
          t.fan f = { s.fan f with kick := none, pause := some (s.tt + 1000000000) }
          ∧ t.get R.EM_FAN_STATUS_duty [f] = 0 ∧ t.get R.EM_FAN_STATUS_state [f] = 1
          ∧ t.get R.EM_FAN_STATUS_retries [f] = s.get R.EM_FAN_STATUS_retries [f] + 1
          ∧ SameRegs s t [R.EM_FAN_STATUS.addr [f]] ∧ t = { s with regs := t.regs, env := t.env }))
        ∧ (s.get R.EM_FAN_STATUS_retries [f] = 3 → Yields (.fanKickTimeout f) s (fun t =>
          t.get R.EM_FAN_STATUS_state [f] = 3 ∧ t.get R.EM_FAN_STATUS_duty [f] = 0
          ∧ (¬ s.Recent E.FAN_FAULT 0 (some f) → Posted s t E.FAN_FAULT (some f) [(.en, 1)]))))
      ∧ (∀ n, (s.fan f).kick = none → (s.fan f).pause = some n → n ≤ s.tt → Yields (.fanKickTimeout f) s (fun t =>
          t.fan f = { s.fan f with kick := some (s.tt + 3000000000), pause := none }
          ∧ FieldsSet s t [(R.EM_FAN_STATUS_state, [f], 1), (R.EM_FAN_STATUS_duty, [f], 255)]
          ∧ t = { s with regs := t.regs, env := t.env })))
    ∧ (s.get R.EM_FAN_STATUS_state [f] = 2 → s.get R.EM_FAN_STATUS_duty [f] ≠ 0 → s.flag R.EM_FAN_STATUS_tach_lost [f] = false →
      (s.fan f).edge + 2000000000 ≤ s.tt → Yields (.fanTachTimeout f) s (fun t => t.flag R.EM_FAN_STATUS_tach_lost [f] = true
        ∧ t.get R.EM_FAN_STATUS_duty [f] = 255 ∧ PostedLim s t E.FAN_TACH_LOST 0 (some f) []))
    ∧ (∀ n, s.flag R.EM_FAN_STATUS_tach_lost [f] = true → (s.fan f).good = some n → n + 10000000000 ≤ s.tt →
      Yields (.fanTachRestored f) s (fun t => t.flag R.EM_FAN_STATUS_tach_lost [f] = false
        ∧ PostedLim s t E.FAN_OK 0 (some f) [(.num, s.get R.EM_FAN_TACH_rpm [f])]))

/-! ### Register space (chapters 0, 2, 3, 20 and 22) -/

/-- R10, R18, R49, R471, R543, R544, R564: a write of a whole word, whichever of the three rows names it. A host write before
CONTROL is answered with an error, counted and reported. A write to an offset without a register, to a held island, to a
register with no field that takes a write or, from the host, to one of the management plane's changes nothing. A _LO word is
held for its _HI; the _HI of an audit or cipher pair writes both words. A journalled parameter joins the waiting writes. Any
other plain register takes its fields; a control ring's base only a place in the Hoard for the ring, 1,024-byte aligned (R130);
a counter only while its core is not enabled (R181); w1c bits written 1 clear, and HP_IRQ_STATUS ends its vectors' pending items with them
(R556). With a byte enable missing nothing changes (R11). -/
def Obligations.RegisterWritesFollowTheirAccess : Prop :=
  ∀ (s : State) (src : Src) (off v : Nat), off % 4 = 0 → off ≠ R.HP_LIFECYCLE.off → v < 2 ^ 32 →
    (s.hostShut src = false → Yields (.registerWrite src off v false) s (fun t => t = s))
    ∧ ∀ c ∈ [Instr.registerWrite src off v true, .pairHiWrite src off v, .w1cRegisterWrite src off v],
      (s.hostShut src = true → Yields c s (fun t => t = { s with regs := t.regs, ev := t.ev }
        ∧ FieldsSet s t [(R.HP_ERR_abandoned, [], satTo 65535 (s.get R.HP_ERR_abandoned + 1))]
        ∧ PostedLim s t E.HP_ACCESS_ABANDONED 0 none [(.val, satTo 65535 (s.get R.HP_ERR_abandoned + 1))]))
      ∧ (s.hostShut src = false → findReg s.cfg off = none → Yields c s (fun t => t = s))
      ∧ ∀ r ix, s.hostShut src = false → findReg s.cfg off = some (r, ix) →
        ((s.regHeld off = true ∨ writable r = false ∨ (src = .host ∧ mgmtOnly off = true)) → Yields c s (fun t => t = s))
        ∧ (s.regHeld off = false → writable r = true → ¬ (src = .host ∧ mgmtOnly off = true) →
          ((hiOf r).isSome = true → Yields c s (fun t => t = { s with loHeld := s.loHeld.set off v }))
          ∧ (hiOf r = none → r.journalled = true → Yields c s (fun t =>
              t = { s with jrn := { s.jrn with pend := s.jrn.pend ++ [{ off := off, val := v, src := src }] } }))
          ∧ (∀ lo hi, (lo, hi) ∈ [(R.RG_AUD_PKG_LO, R.RG_AUD_PKG_HI), (R.RG_AUD_REGION_LO, R.RG_AUD_REGION_HI),
                (R.RG_AUD_OUT_LO, R.RG_AUD_OUT_HI), (R.CU_OP_SRC_LO, R.CU_OP_SRC_HI), (R.CU_OP_DST_LO, R.CU_OP_DST_HI),
                (R.CU_OP_AAD_LO, R.CU_OP_AAD_HI), (R.CU_OP_TAG_LO, R.CU_OP_TAG_HI)] → r = hi →
              Yields c s (fun t => t = { s with regs := t.regs } ∧ SameRegs s t [lo.addr ix, hi.addr ix]
                ∧ t.regWord lo ix = fieldsWrite (s.regWord lo ix) (s.loHeld.get (lo.addr ix) (s.regWord lo ix)) lo.fields
                ∧ t.regWord hi ix = fieldsWrite (s.regWord hi ix) v hi.fields))
          ∧ (r ∈ [R.HP_IRQ_MASK, R.HP_IRQ_MAP, R.HP_IRQ_MOD, R.HP_EVQ_HEAD, R.HP_CQ_HEAD, R.HP_JRN_READ, R.PU_IRQ,
                R.FB_UNMAPPED_INFO, R.QP_DEFECT_HIST] →
              Yields c s (fun t => t = s.setRegWord r ix (fieldsWrite (s.regWord r ix) v r.fields)))
          ∧ (r ∈ [R.CX_CTRL_TX, R.CX_CTRL_RX] → Yields c s (fun t => t = { s with regs := t.regs } ∧ SameRegs s t [r.addr ix]
                ∧ t.regWord r ix = if v % 1024 = 0 ∧ v + 256 * 1024 ≤ s.cfg.hoardBytes then v else s.regWord r ix))
          ∧ (∀ x n, r = R.CR_SYNC → ix = [x, n] →
              (s.flag R.CR_CORE_CTL_en [x] = true → Yields c s (fun t => t = s))
              ∧ (s.flag R.CR_CORE_CTL_en [x] = false → Yields c s (fun t => t = { s with cores := t.cores } ∧ t.sync x n = v
                  ∧ ∀ y m, (y, m) ≠ (x, n) → t.sync y m = s.sync y m)))
          ∧ (r = R.PU_IRQ → Yields c s (fun t => ∀ k < 8,
                bit (t.get R.PU_IRQ_dir_chg) k = (bit (s.get R.PU_IRQ_dir_chg) k && !bit v k)))
          ∧ (r = R.HP_IRQ_STATUS → Yields c s (fun t => t = { s with regs := t.regs, host := t.host }
                ∧ SameRegs s t [R.HP_IRQ_STATUS.off, R.HP_IRQ_RAW.off]
                ∧ ∀ k < 32, bit (t.get R.HP_IRQ_STATUS_status) k = (bit (s.get R.HP_IRQ_STATUS_status) k && !bit v k)
                  ∧ bit (t.get R.HP_IRQ_RAW_pending) k = (bit (s.get R.HP_IRQ_RAW_pending) k && !bit v k)
                  ∧ t.host.vec.get? k = if bit v k then none else s.host.vec.get? k)))

/-- R21, R471, R480, R502, R510: the boundary of a management cycle applies the oldest waiting host write. Accepted, the
register takes its fields and one entry is journalled with the value before and the value written, with cause 1 where a field
was out of range; refused by the halt, by bring-up or in STOPPED, the register keeps its word and the entry has status 2 and
the cause. When the dictionary writes the same parameter, its value is the one applied and the host's is journalled as
superseded. A copy of the journal that fails its read-back is left and JOURNAL_FAULT is posted (R503). -/
def Obligations.ParametersApplyAtTheBoundary : Prop :=
  ∀ (s : State), s.Sound → s.get R.HP_JRN_STATUS_copy = 0 →
    (s.jrn.pend = [] → Yields (.journalledParameterApply false false) s (fun t =>
      t = { s with regs := t.regs, ecat := t.ecat, ev := t.ev } ∧ SameRegs s t [R.HP_BOOT_STATUS.off]))
    ∧ ∀ (h d : ParamWrite) (rest : List ParamWrite) (r : RegSpec) (ix : List Nat),
      h.src = .host → d.src ≠ .host → h.off = d.off → h.val < 2 ^ 32 → d.val < 2 ^ 32 → findReg s.cfg h.off = some (r, ix) →
      s.regHeld h.off = false →
      r ∈ [R.TB_QUAL, R.TB_HOLD_LIMIT, R.PU_HYST, R.PU_IDX_CHK, R.DS_STARVE, R.FB_ARB, R.QP_BER, R.QM_TIMERS, R.QM_BUF] →
      ((∀ x ∈ rest, x.src = .host) → s.jrn.pend = h :: rest →
        (s.Takes .host r ix h.val → Yields (.journalledParameterApply false false) s (fun t => t.jrn.pend = rest
          ∧ t.regWord r ix = fieldsWrite (s.regWord r ix) h.val r.fields
          ∧ SameRegs s t [h.off, R.HP_JRN_HEAD.off, R.HP_BOOT_STATUS.off] ∧ t.tt = s.tt ∧ t.mem = s.mem
          ∧ Journalled s t .host 0 (if anyOutOfRange h.val r.fields then 1 else 0) h.off (s.regWord r ix) h.val))
        ∧ (∀ cause, s.hostShut .host = false →
          s.gate .host h.off (s.regWord r ix) (fieldsWrite (s.regWord r ix) h.val r.fields) = some cause →
          Yields (.journalledParameterApply false false) s (fun t => t.jrn.pend = rest
            ∧ SameRegs s t [R.HP_JRN_HEAD.off, R.HP_JRN_STATUS.off, R.HP_BOOT_STATUS.off]
            ∧ Journalled s t .host 2 cause h.off (s.regWord r ix) h.val)))
      ∧ (s.jrn.pend = [h, d] → s.Takes d.src r ix d.val →
        Yields (.journalledParameterApply false false) s (fun t => t.jrn.pend = []
          ∧ t.regWord r ix = fieldsWrite (s.regWord r ix) d.val r.fields
          ∧ SameRegs s t [h.off, R.HP_JRN_HEAD.off, R.HP_BOOT_STATUS.off]
          ∧ Journalled s t .host 1 0 h.off (s.regWord r ix) h.val))
      ∧ (s.jrn.pend = [d] → s.Takes d.src r ix d.val →
        Yields (.journalledParameterApply true false) s (fun t => t.get R.HP_JRN_STATUS_copy = 2
          ∧ t.regWord r ix = fieldsWrite (s.regWord r ix) d.val r.fields
          ∧ PostedFirst s t E.JOURNAL_FAULT none [(.en, 1), (.val, s.get R.HP_JRN_HEAD_seq)]))

/-- R10, R18, R49, R59, R471: a register read, whichever of the two rows names it, leaves everything but what the read itself
changes. Before CONTROL the host reads all ones beyond HP_BOOT_STATUS, and the access is counted. No register reads 0; a held
island's reads its reset value. A _LO read latches its _HI, which is what a read of the _HI returns until then; a read with rc
fields clears them; any other read changes nothing. TB_TT_LO and the latch behind it give one TT. -/
def Obligations.RegisterReadsLatchAndClear : Prop :=
  ∀ (s : State) (src : Src) (off : Nat), off % 4 = 0 → ∀ c ∈ [Instr.pairLoRead src off, .rcRegisterRead src off],
    (s.hostShut src = true → R.HP_BOOT_STATUS.off < off → Yields c s (fun t => t.rdata = 2 ^ 32 - 1
      ∧ t = { s with rdata := t.rdata, regs := t.regs, ev := t.ev }
      ∧ FieldsSet s t [(R.HP_ERR_abandoned, [], satTo 65535 (s.get R.HP_ERR_abandoned + 1))]))
    ∧ ((s.hostShut src = false ∨ off ≤ R.HP_BOOT_STATUS.off) →
      (findReg s.cfg off = none → Yields c s (fun t => t = { s with rdata := 0 }))
      ∧ ∀ r ix, findReg s.cfg off = some (r, ix) →
        (s.regHeld off = true → Yields c s (fun t => t = { s with rdata := s.viewHeld r ix }))
        ∧ (s.regHeld off = false →
          ((loOf r).isSome = true → Yields c s (fun t => t = { s with rdata := s.hiLatch.get off 0 }))
          ∧ (∀ h, hiOf r = some h → r.off ≠ R.PU_IDX_LO.off → Yields c s (fun t =>
              t = { s with rdata := s.view r ix, hiLatch := s.hiLatch.set (h.addr ix) (s.view h ix) }))
          ∧ (loOf r = none → hiOf r = none → r.off ≠ R.PU_STATUS.off → (∃ f ∈ r.fields, f.acc = .rc) → Yields c s (fun t =>
              t.rdata = s.view r ix ∧ t = { s with rdata := t.rdata, regs := t.regs }
              ∧ t.regWord r ix = clearedWord (s.regWord r ix) r.fields % 2 ^ 32 ∧ SameRegs s t [r.addr ix]))
          ∧ (loOf r = none → hiOf r = none → r.off ≠ R.PU_STATUS.off → (∀ f ∈ r.fields, f.acc ≠ .rc) → Yields c s (fun t =>
              t = { s with rdata := s.view r ix }))
          ∧ (r = R.TB_TT_LO → Yields c s (fun t => t.rdata = s.tt % 2 ^ 32
              ∧ t.hiLatch.get R.TB_TT_HI.off 0 = s.tt / 2 ^ 32 % 2 ^ 32))))

/-! ### Timebase (chapter 3) -/

/-- R60, R62, R63, R65: a tick of REF0 or REF1 after the nominal number of periods is noted and, when its reference is the
active one in ACQUIRING or LOCKED, measured against the tick phase: inside TB_LOCK_WIN the lock streak grows to at most 64 and
the other ends. A stop, a glitch or a rate more than 200 ppm off disqualifies: the cause shows, the bit of qualified clears and
REF_DISQUALIFIED is posted once; the other references stay. A reference clean for TB_QUAL ms qualifies. -/
def Obligations.ReferencesAreCheckedAndQualify : Prop :=
  ∀ (s : State) (n : Nat),
    let fails := fun (m cause : Nat) (again last : Option Nat) (t : State) =>
      t = { s with regs := t.regs, tb := t.tb, ev := t.ev } ∧ SameRegs s t [R.TB_STATUS.off, R.TB_REF_CAUSE.off, R.HP_BOOT_STATUS.off]
      ∧ t.ref m = { s.ref m with clean := again, lastTick := last } ∧ t.refQual m = false
      ∧ bits (t.get R.TB_REF_CAUSE_cause) (4 * m + 3) (4 * m) = cause
      ∧ (∀ k < 3, k ≠ m → t.ref k = s.ref k ∧ t.refQual k = s.refQual k)
      ∧ (s.refQual m = true → Posted s t E.REF_DISQUALIFIED none [(.ix, m), (.en, cause)])
      ∧ (s.refQual m = false → t.ev = s.ev)
    (n < 2 → ∀ periods,
      let nominal := if s.flag (if n = 0 then R.TB_CTL_ref0_25m else R.TB_CTL_ref1_25m) then 25000 else 10000
      let noted : RefSt := { s.ref n with lastTick := some s.tt, clean := some ((s.ref n).clean.getD s.up) }
      let e := wrapPhase ((s.tt : Int) - s.tickPhase)
      ((s.ref n).lastTick = none ∨ periods = nominal →
        (s.activeRef ≠ n ∨ (s.tbSt ≠ 1 ∧ s.tbSt ≠ 2) → Yields (.refTick n periods) s (fun t => t = s.setRef n noted))
        ∧ (s.activeRef = n → s.tbSt = 1 ∨ s.tbSt = 2 → Yields (.refTick n periods) s (fun t => t.ref n = noted
            ∧ t = { s with regs := t.regs, tb := t.tb } ∧ FieldsSet s t [(R.TB_PHASE_ERR_err, [], satInt 32 e)] ∧ t.tb.err = e
            ∧ (e.natAbs ≤ s.get R.TB_LOCK_WIN_win → t.tb.lockStreak = min 64 (s.tb.lockStreak + 1) ∧ t.tb.outStreak = 0)
            ∧ (s.get R.TB_LOCK_WIN_win < e.natAbs → t.tb.lockStreak = 0 ∧ t.tb.outStreak = s.tb.outStreak + 1))))
      ∧ ((s.ref n).lastTick ≠ none → periods ≠ nominal →
        Yields (.refTick n periods) s (fails n 2 (some s.up) (some s.tt)))
      ∧ Yields (.refClockPeriodGlitch n) s (fails n 2 (some s.up) (s.ref n).lastTick))
    ∧ (n < 3 → Yields (.refStopTimeout n) s (fails n 1 none none)
      ∧ ∀ offset : Int, s.flag R.TB_STATUS_osc_fail = false →
        (200000000 < offset.natAbs → Yields (.refRateCheck n offset) s (fails n 3 (some s.up) (s.ref n).lastTick))
        ∧ (offset.natAbs ≤ 200000000 → Yields (.refRateCheck n offset) s (fun t =>
            t = s.setRef n { s.ref n with rate := offset })))
    ∧ (∀ c, s.refPresent n = true → s.refQual n = false → s.flag R.TB_STATUS_osc_fail = false → (s.ref n).clean = some c →
      c + s.get R.TB_QUAL_qual * 1000000 ≤ s.up → Yields (.refQualifyTimeout n) s (fun t => t.refQual n = true
        ∧ (∀ k < 3, k ≠ n → t.refQual k = s.refQual k) ∧ t = { s with regs := t.regs, ev := t.ev }
        ∧ SameRegs s t [R.TB_STATUS.off, R.HP_BOOT_STATUS.off] ∧ Posted s t E.REF_QUALIFIED none [(.ix, n)]))

/-- R64 to R67, R69, R77, Table 3-5: one evaluation with REF2 present. The state and the active source after it are those of
the table, by the mode, the state before, the reference that the priority list selects, the streaks, the TT spent LOCKED and
osc_fail; a change of state posts TB_STATE first. In LOCKED on its reference the rate is the reference's with a pull of at most
TB_SLOPE; an error beyond 10 µs is stepped where R67 allows it. -/
def Obligations.TimebaseStatesFollowTheTable : Prop :=
  ∀ s : State, s.refPresent 2 = true → s.ref2Defect = false →
    let sel := s.selectRef
    let a := s.activeRef
    let histOk : Prop := 1000000000 ≤ (if s.tbSt = 2 then s.tb.lockedNs + (s.up - s.tb.lastEval) else s.tb.lockedNs)
    let enters := fun (st src : Nat) (t : State) => t.tbSt = st ∧ t.activeRef = src
      ∧ SameRegs s t [R.TB_STATUS.off, R.TB_RATE.off, R.TB_HOLD_EST.off, R.HP_BOOT_STATUS.off]
      ∧ t = { s with regs := t.regs, tb := t.tb, ev := t.ev, tt := t.tt, pc := t.pc }
      ∧ (st ≠ s.tbSt ∨ src ≠ a → PostedFirst s t E.TB_STATE none [(.en, s.tbSt), (.en, st), (.en, src)])
    (s.get R.TB_CTL_mode = 0 →
      (s.tbSt ≠ 0 → ¬ (s.tbSt = 4 ∧ s.tb.lostFromFree = true ∧ s.flag R.TB_STATUS_osc_fail = true) →
        Yields .tbStateEvaluation s (enters 0 3))
      ∧ (s.tbSt = 0 → s.flag R.TB_STATUS_osc_fail = true → Yields .tbStateEvaluation s (enters 4 3)))
    ∧ (s.get R.TB_CTL_mode ≠ 0 →
      (∀ c, sel = some c →
        (s.tbSt = 0 ∨ s.tbSt = 3 ∨ s.tbSt = 4 → Yields .tbStateEvaluation s (enters 1 c))
        ∧ (s.tbSt = 1 ∨ s.tbSt = 2 → c ≠ a → Yields .tbStateEvaluation s (enters 1 c))
        ∧ (s.tbSt = 1 → c = a → 64 ≤ s.tb.lockStreak → Yields .tbStateEvaluation s (enters 2 c))
        ∧ (s.tbSt = 1 → c = a → s.tb.lockStreak < 64 → Yields .tbStateEvaluation s (enters 1 c))
        ∧ (s.tbSt = 2 → c = a → 4 ≤ s.tb.outStreak → Yields .tbStateEvaluation s (enters 1 c))
        ∧ (s.tbSt = 2 → c = a → s.tb.outStreak < 4 → Yields .tbStateEvaluation s (enters 2 c)))
      ∧ (sel = none →
        (s.tbSt = 1 ∨ s.tbSt = 2 → histOk → Yields .tbStateEvaluation s (enters 3 3))
        ∧ (s.tbSt = 1 ∨ s.tbSt = 2 → ¬ histOk → Yields .tbStateEvaluation s (enters 0 3))
        ∧ (s.tbSt = 0 ∨ s.tbSt = 3 → s.flag R.TB_STATUS_osc_fail = true → Yields .tbStateEvaluation s (enters 4 3))
        ∧ (s.tbSt = 0 ∨ s.tbSt = 3 → s.flag R.TB_STATUS_osc_fail = false → Yields .tbStateEvaluation s (enters s.tbSt a))
        ∧ (s.tbSt = 4 → s.tb.lostFromFree = true → s.flag R.TB_STATUS_osc_fail = false → s.get R.TB_STATUS_qualified = 0 →
            Yields .tbStateEvaluation s (enters 0 3))))
    ∧ (s.get R.TB_CTL_mode ≠ 0 → s.tbSt = 2 → sel = some a → s.tb.outStreak < 4 →
      (s.tb.err.natAbs ≤ 10000 → s.tt / 1000000 ≠ s.tb.slopeMs → Yields .tbStateEvaluation s (fun t => t.tt = s.tt
        ∧ t.get R.TB_RATE_rate = wrapInt 32 ((s.ref a).rate + pullRate s.tb.err (s.get R.TB_SLOPE_slope))
        ∧ t.ev.mgmt = s.ev.mgmt))
      ∧ (10000 < s.tb.err.natAbs → s.mayStep = true → Yields .tbStateEvaluation s (fun t =>
          t.tt = wrapInt 64 ((s.tt : Int) - s.tb.err) ∧ t.tb.err = 0 ∧ t.get R.TB_STATUS_stepped = 1
          ∧ t.ev.mgmt = s.ev.mgmt ++ [{ code := E.TT_STEPPED, tt := t.tt, detail := mkDetail none [sval (-s.tb.err)] }])))

/-- R67, R68, R69, R80, R589, R598: HOLDOVER passes to LOST when its estimate exceeds TB_HOLD_LIMIT, posting TB_STATE and
TB_LOST. LOCAL_OSC's failure sets osc_fail and takes FREE_RUN and HOLDOVER to LOST; its recovery clears osc_fail and starts every
qualification again. A TDC result is taken from 30 to 50 ps while LOCAL_OSC runs. TT is loaded in FREE_RUN with no part slot open
and no TT entry pending; elsewhere the load is refused and reported. -/
def Obligations.HoldoverOscillatorAndLoad : Prop :=
  ∀ s : State,
    (s.tbSt = 3 → s.get R.TB_HOLD_LIMIT_limit * 2000000000000000000 < s.holdScaled →
      Yields .tbHoldLimitExceeded s (fun t => t.tbSt = 4 ∧ t.activeRef = 3 ∧ t.get R.TB_HOLD_EST_est = s.holdEst
        ∧ t = { s with regs := t.regs, tb := t.tb, ev := t.ev }
        ∧ SameRegs s t [R.TB_STATUS.off, R.TB_HOLD_EST.off, R.HP_BOOT_STATUS.off]
        ∧ t.ev.mgmt = s.ev.mgmt
            ++ [{ code := E.TB_STATE, tt := s.tt, detail := mkDetail none [(.en, 3), (.en, 4), (.en, 3)] },
                { code := E.TB_LOST, tt := s.tt, detail := mkDetail none [(.val, s.holdEst)] }]))
    ∧ (s.flag R.TB_STATUS_osc_fail = false →
      (s.tbSt = 0 ∨ s.tbSt = 3 → Yields .oscFail s (fun t => t.tbSt = 4 ∧ t.activeRef = 3
        ∧ t.flag R.TB_STATUS_osc_fail = true ∧ PostedFirst s t E.OSC_FAIL none []
        ∧ t = { s with regs := t.regs, tb := t.tb, ev := t.ev } ∧ SameRegs s t [R.TB_STATUS.off, R.HP_BOOT_STATUS.off]))
      ∧ (s.tbSt = 1 ∨ s.tbSt = 2 ∨ s.tbSt = 4 → Yields .oscFail s (fun t => FieldsSet s t [(R.TB_STATUS_osc_fail, [], 1)]
        ∧ t = { s with regs := t.regs, ev := t.ev } ∧ Posted s t E.OSC_FAIL none []))
      ∧ ∀ ps, (30 ≤ ps ∧ ps ≤ 50 → Yields (.tdcCalibration ps) s (fun t => t = { s with tb := { s.tb with tdc := ps } }))
        ∧ (ps < 30 ∨ 50 < ps → Yields (.tdcCalibration ps) s (fun t => t = s)))
    ∧ (s.flag R.TB_STATUS_osc_fail = true → Yields .oscRecovered s (fun t => FieldsSet s t [(R.TB_STATUS_osc_fail, [], 0)]
        ∧ t = { s with regs := t.regs, tb := t.tb }
        ∧ ∀ n < 3, t.ref n = { s.ref n with clean := (s.ref n).clean.map (fun _ => s.up) }))
    ∧ ∀ hi < 2 ^ 32,
      let lo := s.loHeld.get R.TB_TT_LOAD_LO.off (s.regWord R.TB_TT_LOAD_LO)
      53 ∉ s.heldIsl →
      (s.tbSt = 0 → s.mayStep = true → Yields (.ttLoad hi) s (fun t => t.tt = lo + hi * 2 ^ 32 ∧ t.ttFrac = 0
        ∧ t.up = s.up ∧ t = { s with tt := t.tt, ttFrac := 0, regs := t.regs, tb := t.tb,
                                     pc := { s.pc with lastInst := min s.pc.lastInst t.tt } }
        ∧ SameRegs s t [R.TB_TT_LOAD_LO.off, R.TB_TT_LOAD_HI.off]))
      ∧ (s.tbSt ≠ 0 ∨ s.mayStep = false → Yields (.ttLoad hi) s (fun t => t = { s with regs := t.regs, ev := t.ev }
        ∧ SameRegs s t [R.TB_TT_LOAD_LO.off, R.TB_TT_LOAD_HI.off, R.HP_BOOT_STATUS.off]
        ∧ Posted s t E.TT_LOAD_REFUSED none [(.en, s.tbSt), (.en, b2n s.slotOpen)]))

/-- R70, R71, R78, R81: sixteen exchanges give one θ and are used up; it shows in TB_ALIGN_OFFSET and is the phase measurement
when REF2 is active on that port. A rack lead whose alignment is more than 8 ns off moves its tick phase by θ and broadcasts it
for a tick at least 2 ms ahead, but not while that port has a defect; the time root's tick phase is 0. A failed, silent or
absent alignment port posts ALIGN_FAULT (its reason numbers are the model's: log 18).
A broadcast is adopted at its tick: the phase is set, and a TT more than 500 µs away is stepped where R67 allows it. -/
def Obligations.AlignmentSetsTheTickPhase : Prop :=
  ∀ s : State,
    (∀ p, p < s.cfg.quillPorts → 16 ≤ (s.tb.exch.get p []).length →
      let th := s.theta p
      (s.flag R.TB_CTL_rack_lead = false → s.get R.TB_CTL_ref2_port = p → s.activeRef = 2 → s.tbSt = 1 ∨ s.tbSt = 2 →
        Yields (.alignFilterOutput p) s (fun t => t.tb.err = th ∧ t.tb.exch = s.tb.exch.set p []
          ∧ FieldsSet s t [(R.TB_ALIGN_OFFSET_theta, [], wrapInt 32 th), (R.TB_PHASE_ERR_err, [], satInt 32 th)]
          ∧ t = { s with regs := t.regs, tb := t.tb }))
      ∧ (s.flag R.TB_CTL_rack_lead = true → s.flag R.TB_CTL_align_en = true → s.get R.TB_CTL_align_port = p →
        s.get R.TB_CTL_ref2_port ≠ p → s.alignDefect = false → 8 < th.natAbs →
        (∀ n, s.tb.lastUpdate = some n → n + 16000000 ≤ s.up) →
        Yields (.alignFilterOutput p) s (fun t => t.tickPhase = wrapPhase (s.tickPhase - th) ∧ t.tb.lastUpdate = some s.up
          ∧ FieldsSet s t [(R.TB_ALIGN_OFFSET_theta, [], wrapInt 32 th),
              (R.TB_TICK_PHASE_phase, [], wrapInt 32 (wrapPhase (s.tickPhase - th)))]
          ∧ (∃ tick, t.tb.bcast = (t.tickPhase, tick) :: s.tb.bcast ∧ s.tt + 2000000 ≤ tick
              ∧ ((tick : Int) - t.tickPhase) % 1000000 = 0)
          ∧ t = { s with regs := t.regs, tb := t.tb, free := s.free + 1 }))
      ∧ (s.flag R.TB_CTL_rack_lead = true → s.flag R.TB_CTL_align_en = true → s.get R.TB_CTL_align_port = p →
        s.get R.TB_CTL_ref2_port ≠ p → s.alignDefect = true → Yields (.alignFilterOutput p) s (fun t =>
          FieldsSet s t [(R.TB_ALIGN_OFFSET_theta, [], wrapInt 32 th)]
          ∧ t = { s with regs := t.regs, tb := { s.tb with exch := t.tb.exch } })))
    ∧ (let p := s.get R.TB_CTL_align_port
       s.flag R.TB_CTL_rack_lead = true → s.flag R.TB_CTL_align_en = true →
       (p < s.cfg.quillPorts → s.alignDefect = true → Yields .alignExchangesDiscarded s (fun t =>
          Posted s t E.ALIGN_FAULT none [(.ix, p), (.en, 3)]
          ∧ t = { s with regs := t.regs, ev := t.ev, tb := { s.tb with exchTt := s.tb.exchTt.set p s.up } }
          ∧ SameRegs s t [R.HP_BOOT_STATUS.off]))
       ∧ (s.cfg.quillPorts ≤ p → s.tb.exchTt.get p 0 + 16000000 ≤ s.up → Yields .alignExchangesDiscarded s (fun t =>
          Posted s t E.ALIGN_FAULT none [(.ix, p), (.en, 5)]))
       ∧ (p < s.cfg.quillPorts → s.alignDefect = false →
          (s.tb.exchTt.get p 0 + 16000000 ≤ s.up → Yields .alignExchangesDiscarded s (fun t =>
            Posted s t E.ALIGN_FAULT none [(.ix, p), (.en, 4)]))
          ∧ (s.up < s.tb.exchTt.get p 0 + 16000000 → Yields .alignExchangesDiscarded s (fun t => t = s))))
    ∧ (s.tb.adopt = none → Yields .tickPhaseAdopt s (fun t => t = s))
    ∧ (s.timeRoot = true → s.tickPhase = 0)
    ∧ ∀ x, s.tb.adopt = some x → s.timeRoot = false → -500000 ≤ x.phase → x.phase ≤ 499999 →
      let d : Int := (x.tick : Int) - (s.tt : Int)
      (d.natAbs ≤ 500000 → Yields .tickPhaseAdopt s (fun t => t.tickPhase = x.phase
        ∧ FieldsSet s t [(R.TB_TICK_PHASE_phase, [], wrapInt 32 x.phase)] ∧ t = { s with regs := t.regs, tb := t.tb }
        ∧ t.tb.adopt = none ∧ (s.activeRef < 2 → t.tb.err = wrapPhase (s.tb.err - (x.phase - s.tickPhase)))
        ∧ (2 ≤ s.activeRef → t.tb.err = s.tb.err)))
      ∧ (500000 < d.natAbs → s.mayStep = true → Yields .tickPhaseAdopt s (fun t => t.tt = x.tick % 2 ^ 64
        ∧ t.tickPhase = x.phase ∧ t.get R.TB_STATUS_stepped = 1 ∧ t.tb.adopt = none
        ∧ t.ev.mgmt = s.ev.mgmt ++ [{ code := E.TT_STEPPED, tt := t.tt, detail := mkDetail none [sval d] }]))
      ∧ (500000 < d.natAbs → s.mayStep = false → Yields .tickPhaseAdopt s (fun t => t.tt = s.tt ∧ t.tickPhase = x.phase
        ∧ Posted s t E.ALIGN_FAULT none [(.num, x.lead), (.en, 1)]))

/-! ### Position unit (chapter 4) -/

/-- R88 to R91, R95, R99, R110, R111, R607: levels that the synchronisers show for filt + 1 position cycles are accepted; a
shorter pulse leaves no trace but in the filter. In quadrature an accepted change of A or B alone moves the count by one, forward when A
leads B and the other way with invert_dir; it is shown, stamped and ends standstill. Both at once are an error that moves
nothing. An accepted rise of Z copies the count into the index latch and sets idx_new. In Hall mode a step along the sequence
1, 3, 2, 6, 4, 5 counts and an invalid state is an error. Other channels, TT, memory and queues stay. -/
def Obligations.EncoderEdgesCount : Prop :=
  ∀ (s : State) (ch n : Nat) (a b z a' b' z' : Bool), s.Sound → ch < s.cfg.posChannels → s.puClocked = true →
    (s.ch ch).lvl = #v[some a, some b, some z] →
    (s.ch ch).seen = #v[a, b, z] →
    (∀ x ∈ (s.ch ch).edge.toList, ∀ k, x = some k → k + 10 ≤ s.tb.cycles) →
    let c := Instr.encoderEdgeAccepted ch ⟨b2n a' + 2 * b2n b' + 4 * b2n z', n⟩
    let p := s.ch ch
    let sign : Int := if s.flag R.PU_CH_CTL_invert_dir [ch] then -1 else 1
    let frame := fun t : State =>
      t = { s with regs := t.regs, ev := t.ev, pu := t.pu, host := t.host, au := { s.au with table := t.au.table } }
      ∧ (∀ k, k ≠ ch → t.ch k = s.ch k) ∧ (t.ch ch).lvl = #v[some a', some b', some z']
      ∧ SameRegs s t (([R.PU_CNT_LO, R.PU_CNT_HI, R.PU_IDX_LO, R.PU_IDX_HI, R.PU_SPEED, R.PU_STATUS, R.PU_ERR].map (·.addr [ch]))
          ++ [R.PU_IRQ.off, R.HP_IRQ_RAW.off, R.HP_IRQ_STATUS.off, R.HP_BOOT_STATUS.off])
    let moved := fun (d : Int) (t : State) => (t.ch ch).cnt = cntAdd p.cnt (sign * d)
      ∧ t.pair R.PU_CNT_LO R.PU_CNT_HI [ch] = cntAdd p.cnt (sign * d) ∧ (t.ch ch).edges = p.edges + 1
      ∧ (t.ch ch).still = s.up ∧ t.flag R.PU_STATUS_standstill [ch] = false ∧ frame t
    (n ≤ s.get R.PU_CH_CTL_filt [ch] → Yields c s (fun t => t = { s with pu := t.pu } ∧ (∀ k, k ≠ ch → t.ch k = s.ch k)
        ∧ t.ch ch = { p with seen := (t.ch ch).seen, run := (t.ch ch).run }))
    ∧ (s.get R.PU_CH_CTL_filt [ch] + 1 ≤ n →
    (s.get R.PU_CH_CTL_mode [ch] = 1 →
      (a' ≠ a → b' = b → z' = z → Yields c s (moved (if a' ≠ b then 1 else -1)))
      ∧ (a' = a → b' ≠ b → z' = z → Yields c s (moved (if b' = a then 1 else -1)))
      ∧ (a' ≠ a → b' ≠ b → z' = z → Yields c s (fun t => (t.ch ch).cnt = p.cnt ∧ frame t
          ∧ t.get R.PU_ERR_quad_hall [ch] = satTo 255 (s.get R.PU_ERR_quad_hall [ch] + 1)
          ∧ PostedLim s t E.QUAD_ERROR 0 (some ch) [(.wide, p.cnt)]))
      ∧ (a' = a → b' = b → z = false → z' = true → s.flag R.PU_CH_CTL_idx_en [ch] = true →
          s.flag R.PU_CH_CTL_idx_gate [ch] = false → p.cnt < 2 ^ 48 → Yields c s (fun t => (t.ch ch).cnt = p.cnt ∧ frame t
            ∧ t.pair R.PU_IDX_LO R.PU_IDX_HI [ch] = p.cnt ∧ t.get R.PU_STATUS_idx_new [ch] = 1 ∧ (t.ch ch).idxPrev = some p.cnt)))
    ∧ (s.get R.PU_CH_CTL_mode [ch] = 2 → (a, b, z) ≠ (a', b', z') →
      let code := 4 * b2n a' + 2 * b2n b' + b2n z'
      (∀ o ∈ [(1, 3), (3, 2), (2, 6), (6, 4), (4, 5), (5, 1)],
        (p.hallRef = some o.1 → code = o.2 → Yields c s (fun t => moved 1 t ∧ (t.ch ch).hallRef = some code
          ∧ t.get R.PU_STATUS_hall [ch] = code))
        ∧ (p.hallRef = some o.2 → code = o.1 → Yields c s (fun t => moved (-1) t ∧ (t.ch ch).hallRef = some code)))
      ∧ (code = 0 ∨ code = 7 → Yields c s (fun t => (t.ch ch).cnt = p.cnt ∧ (t.ch ch).hallRef = none ∧ frame t
          ∧ t.get R.PU_ERR_quad_hall [ch] = satTo 255 (s.get R.PU_ERR_quad_hall [ch] + 1)
          ∧ PostedLim s t E.HALL_INVALID 0 (some ch) [(.en, code)]))))

/-- R92, R93, R97, R99: an SSI frame starts when its period has passed. Its word is sampled from the data line ssi_delay
after each rising clock edge. The first good word is the reference; a later one within
ssi_maxstep moves the count by the difference; a frame that was not ready, stuck or too far is counted and reported and moves
nothing; after three in a row the next good word is the reference anew. Every 10 µs the speed estimate goes
part of the way to the raw speed, between dt / (tau + dt) and dt / tau of it (where, the manual leaves open: log 13). PU_STILL ms without a counted edge are a standstill. -/
def Obligations.SsiFramesSpeedAndStandstill : Prop :=
  ∀ (s : State) (ch : Nat), s.Sound → ch < s.cfg.posChannels → s.puClocked = true →
    let p := s.ch ch
    let only := fun t : State => ∀ k, k ≠ ch → t.ch k = s.ch k
    (s.get R.PU_CH_CTL_mode [ch] = 3 →
      ((∀ n, p.ssiStart = some n → n + s.get R.PU_SSI_ssi_period [ch] * 400 ≤ s.tb.cycles) →
        Yields (.ssiFrameStart ch) s (fun t => t = s.setCh ch { p with ssiBusy := true, ssiStart := some s.tb.cycles }
          ∧ (1 ≤ s.get R.PU_CH_CTL_ssi_bits [ch] → t.ssiClock ch = false)))
      ∧ (∀ n, p.ssiStart = some n → s.tb.cycles < n + s.get R.PU_SSI_ssi_period [ch] * 400 → Yields (.ssiFrameStart ch) s (fun t => t = s))
      ∧ (s.ssiOver ch = true → ∀ ready clocked recovery,
        let line := s.ssiLine ch clocked recovery
        let c := Instr.ssiFrameComplete ch ready clocked recovery
        let w := s.ssiWord ch line
        let n := s.get R.PU_CH_CTL_ssi_bits [ch]
        let word := if s.flag R.PU_CH_CTL_ssi_gray [ch] then grayDecode n (w % 2 ^ n) else w % 2 ^ n
        let bad := fun (cause : Nat) (t : State) => t.ch ch = { p with ssiBusy := false, ssiErr := p.ssiErr + 1 } ∧ only t
          ∧ t = { s with regs := t.regs, ev := t.ev, pu := t.pu }
          ∧ FieldsSet s t [(R.PU_ERR_ssi, [ch], satTo 255 (s.get R.PU_ERR_ssi [ch] + 1))]
          ∧ PostedLim s t E.SSI_FRAME_ERROR cause (some ch) [(.en, cause)]
        let good := ready = true ∧ s.ssiStuck ch line = false
        (ready = false → Yields c s (bad 1))
        ∧ (ready = true → s.ssiStuck ch line = true → Yields c s (bad 2))
        ∧ (good → p.ssiRef = none → Yields c s (fun t => only t ∧ t = { s with pu := t.pu }
            ∧ t.ch ch = { p with ssiBusy := false, ssiRef := some word, ssiErr := 0 }))
        ∧ ∀ r, good → p.ssiRef = some r →
          let d := signedOf n (word + 2 ^ n - r)
          (3 ≤ p.ssiErr → Yields c s (fun t => only t
            ∧ t = { s with pu := t.pu, ev := t.ev, regs := t.regs } ∧ SameRegs s t [R.HP_BOOT_STATUS.off]
            ∧ t.ch ch = { p with ssiBusy := false, ssiRef := some word, ssiErr := 0 }
            ∧ PostedLim s t E.SSI_RESYNC 0 (some ch) [sval d]))
          ∧ (p.ssiErr < 3 → s.get R.PU_SSI_ssi_maxstep [ch] < d.natAbs →
            Yields c s (bad 3))
          ∧ (p.ssiErr < 3 → d.natAbs ≤ s.get R.PU_SSI_ssi_maxstep [ch] → d ≠ 0 →
            Yields c s (fun t => only t ∧ (t.ch ch).ssiRef = some word ∧ (t.ch ch).ssiErr = 0
              ∧ (t.ch ch).cnt = cntAdd p.cnt (if s.flag R.PU_CH_CTL_invert_dir [ch] then -d else d)
              ∧ t.pair R.PU_CNT_LO R.PU_CNT_HI [ch] = (t.ch ch).cnt ∧ (t.ch ch).still = s.up
              ∧ t.get R.PU_ERR_ssi [ch] = s.get R.PU_ERR_ssi [ch]))))
    ∧ (s.up < p.speedTick + 10000 → Yields (.speedEstimateUpdate ch) s (fun t => t = s))
    ∧ (s.get R.PU_CH_CTL_mode [ch] ≠ 0 → 1 ≤ s.get R.PU_HYST_speed_tau [ch] → p.speedTick + 10000 ≤ s.up →
      let d := p.rawSpeed s.tt - p.speed
      let least := filterLeast d (s.up - p.speedAt) (s.get R.PU_HYST_speed_tau [ch] * 1000000)
      let most := filterMost d (s.up - p.speedAt) (s.get R.PU_HYST_speed_tau [ch] * 1000000)
      Yields (.speedEstimateUpdate ch) s (fun t => only t
        ∧ t.ch ch = { p with speed := (t.ch ch).speed, speedAt := s.up, speedTick := s.up }
        ∧ least.natAbs ≤ ((t.ch ch).speed - p.speed).natAbs ∧ ((t.ch ch).speed - p.speed).natAbs ≤ most.natAbs
        ∧ min p.speed (p.rawSpeed s.tt) ≤ (t.ch ch).speed ∧ (t.ch ch).speed ≤ max p.speed (p.rawSpeed s.tt)
        ∧ FieldsSet s t [(R.PU_SPEED_speed, [ch], wrapInt 32 ((t.ch ch).speed / 1048576))]
        ∧ t = { s with regs := t.regs, pu := t.pu, au := { s.au with table := t.au.table } }))
    ∧ (s.flag R.PU_STATUS_standstill [ch] = false →
      (p.still + s.get R.PU_STILL_still [ch] * 1000000 ≤ s.up → Yields (.standstillTimeout ch) s (fun t =>
        FieldsSet s t [(R.PU_STATUS_standstill, [ch], 1)] ∧ PostedLim s t E.STANDSTILL 0 (some ch) [(.wide, p.cnt)]
        ∧ t = { s with regs := t.regs, ev := t.ev, au := { s.au with table := t.au.table } }))
      ∧ (s.up < p.still + s.get R.PU_STILL_still [ch] * 1000000 → Yields (.standstillTimeout ch) s (fun t => t = s)))

/-- R95, R103, R104, R108: a count load moves the count and every count kept beside it by one difference, and is refused while a
deadline or a pending entry hangs on the channel. PU_CH_CTL and PU_SSI are written while the channel is off, journalled, and
refused and reported while it is on. Reads of PU_IDX_LO and PU_STATUS clear idx_new. A threshold scan of 6.4 ms moves the threshold one code
toward the middle of the swing; a swing below 8 codes while another input toggles is reported once. -/
def Obligations.CountLoadsControlAndThresholds : Prop :=
  ∀ (s : State) (ch : Nat), s.Sound → ch < s.cfg.posChannels → s.puClocked = true →
    (∀ hi, let lo := s.loHeld.get (R.PU_LOAD_LO.addr [ch]) (s.regWord R.PU_LOAD_LO [ch])
      let v := lo + (hi % 2 ^ 16) * 2 ^ 32
      let d := cntDiff v (s.ch ch).cnt
      lo < 2 ^ 32 →
      (s.deadlineOn ch = false → s.cntPending ch = false → Yields (.countLoad ch hi) s (fun t => (t.ch ch).cnt = v
        ∧ t.ch ch = (s.ch ch).relabel d ∧ (∀ k, k ≠ ch → t.ch k = s.ch k) ∧ t.pair R.PU_CNT_LO R.PU_CNT_HI [ch] = v
        ∧ t = { s with regs := t.regs, pu := t.pu }
        ∧ SameRegs s t ([R.PU_CNT_LO, R.PU_CNT_HI, R.PU_LOAD_LO, R.PU_LOAD_HI].map (·.addr [ch]))))
      ∧ (s.deadlineOn ch = true ∨ s.cntPending ch = true → Yields (.countLoad ch hi) s (fun t => t.pu = s.pu
        ∧ PostedLim s t E.CNT_LOAD_REFUSED 0 (some ch) [(.en, b2n (s.deadlineOn ch)), (.en, b2n (s.cntPending ch))]
        ∧ t = { s with regs := t.regs, ev := t.ev }
        ∧ SameRegs s t [R.PU_LOAD_LO.addr [ch], R.PU_LOAD_HI.addr [ch], R.HP_BOOT_STATUS.off])))
    ∧ (∀ src v, v < 2 ^ 32 → ∀ r ssi, ((ssi = false ∧ r = R.PU_CH_CTL) ∨ (ssi = true ∧ r = R.PU_SSI)) →
      let old := s.regWord r [ch]
      let new := fieldsWrite old v r.fields
      s.Takes src r [ch] v →
      (s.get R.PU_CH_CTL_mode [ch] = 0 → (ssi = false → bits new 1 0 ≠ 3) → Yields (.puChCtlWrite src ch ssi v) s (fun t =>
        t.regWord r [ch] = new ∧ Journalled s t src 0 (if anyOutOfRange v r.fields then 1 else 0) (r.addr [ch]) old v
        ∧ (∀ k, k ≠ ch → t.ch k = s.ch k) ∧ (t.ch ch).cnt = (s.ch ch).cnt
        ∧ (ssi = false → bits new 1 0 ≠ 0 → (t.ch ch).start = (s.ch ch).cnt ∧ (t.ch ch).edges = 0
            ∧ t.flag R.PU_STATUS_dir_valid [ch] = false)))
      ∧ (s.get R.PU_CH_CTL_mode [ch] ≠ 0 → old ≠ new → (ssi = false → bits old 31 2 ≠ bits new 31 2) →
        Yields (.puChCtlWrite src ch ssi v) s (fun t => t.regWord r [ch] = old ∧ t.pu = s.pu
          ∧ Journalled s t src 2 causeBlock (r.addr [ch]) old v
          ∧ (¬ s.Recent E.PU_CFG_REFUSED (r.addr [ch]) (some ch) →
              PostedFirst s t E.PU_CFG_REFUSED (some ch) [(.val, r.addr [ch])]))))
    ∧ Yields (.puIdxLoRead ch) s (fun t => FieldsSet s t [(R.PU_STATUS_idx_new, [ch], 0)]
        ∧ t = { s with regs := t.regs, rdata := s.regWord R.PU_IDX_LO [ch],
                       hiLatch := s.hiLatch.set (R.PU_IDX_HI.addr [ch]) (s.regWord R.PU_IDX_HI [ch]) })
    ∧ Yields (.puStatusRead ch) s (fun t => FieldsSet s t [(R.PU_STATUS_idx_new, [ch], 0)]
        ∧ t = { s with regs := t.regs, rdata := s.regWord R.PU_STATUS [ch] })
    ∧ (∀ (i : Fin 3) (low high : Nat), s.flag R.PU_GLOBAL_thr_loop = true → vget (s.ch ch).scan i + 6400000 ≤ s.up →
      let lo := (toggledCodes (scanCodes low high)).1
      let hi := (toggledCodes (scanCodes low high)).2
      let f := if i = 0 then R.PU_THR_thr_a else if i = 1 then R.PU_THR_thr_b else R.PU_THR_thr_z
      let cur := s.get f [ch]
      let mid := (hi + lo) / 2
      (lo + 8 ≤ hi → s.toggled ch i = true → Yields (.thresholdScanComplete ch i.val low high) s (fun t =>
        t.get f [ch] = (if cur < mid then cur + 1 else if mid < cur then cur - 1 else cur)
        ∧ bit (t.ch ch).lost i.val = false ∧ vget (t.ch ch).scan i = s.up ∧ t = { s with regs := t.regs, pu := t.pu }
        ∧ SameRegs s t [R.PU_THR.addr [ch], R.PU_STATUS.addr [ch]]))
      ∧ (hi < lo + 8 → s.toggled ch i = false → (∃ k, k ≠ i ∧ s.toggled ch k = true) → bit (s.ch ch).lost i.val = false →
        Yields (.thresholdScanComplete ch i.val low high) s (fun t => FieldsSet s t [(R.PU_STATUS_los, [ch], 1)]
          ∧ bit (t.ch ch).lost i.val = true ∧ PostedLim s t E.INPUT_LOS i.val (some ch) [(.ix, i.val), (.val, hi - lo)]
          ∧ t = { s with regs := t.regs, pu := t.pu, ev := t.ev })))

/-! ### Camera ingress and pixel pipelines (chapter 5) -/

/-- R118 to R120, R127, R132, R136, R137: a packet with a bad CRC or of another stream is reported and taken no further; the
first good packet of a one-lane camera brings its group up; a packet with a header, a marker and a whole line fills one slot with
the line and its stamps. Loss of lock takes the group down. The oldest strip's bytes land in memory when its writes are
acknowledged, PP_PROD advances and every running recipe on the pipeline is told. With no line for stall_us, since the last line
or since en was set, the partial strip is closed and the pipeline stalls. -/
def Obligations.CameraLinesBecomeStrips : Prop :=
  ∀ (s : State) (p : Nat), s.Sound → p < s.cfg.camPipes →
    let x := s.pipe p
    let others := fun t : State => ∀ q, q ≠ p → t.pipe q = s.pipe q
    (∀ lane, s.laneCam lane = some p →
      let m := lane - s.get R.CX_CAM_CTL_base_lane [p]
      let locked := s.get R.CX_CAM_STATUS_lock [p] ||| 2 ^ m
      (∀ tag stream items,
        Yields (.cxpStreamPacket lane tag stream false items) s (fun t => FieldsSet s t [(R.CX_CAM_STATUS_lock, [p], locked)]
          ∧ t = { s with regs := t.regs, ev := t.ev, tune := t.tune } ∧ PostedLim s t E.CX_CRC_ERROR 0 (some p) [(.ix, lane), (.en, 1)])
        ∧ (stream ≠ s.get R.CX_CAM_CTL_stream_id [p] → Yields (.cxpStreamPacket lane tag stream true items) s (fun t =>
            FieldsSet s t [(R.CX_CAM_STATUS_lock, [p], locked)] ∧ t = { s with regs := t.regs, ev := t.ev, tune := t.tune }
            ∧ PostedLim s t E.CX_PACKET_DISCARDED 2 (some p) [(.en, 2), (.num, stream)])))
      ∧ (∀ tag, tag < 256 → s.get R.CX_CAM_CTL_conns [p] = 0 → x.buf = [] → x.nextTag = none ∨ x.nextTag = some tag →
        let stream := s.get R.CX_CAM_CTL_stream_id [p]
        (s.flag R.CX_CAM_STATUS_group_up [p] = false → s.get R.CX_CAM_STATUS_lock [p] = 0 → x.delivered = 0 → x.cur = none →
          Yields (.cxpStreamPacket lane tag stream true []) s (fun t => t.flag R.CX_CAM_STATUS_group_up [p] = true
            ∧ t.get R.CX_CAM_STATUS_lock [p] = 1 ∧ (t.pipe p).wasUp = true ∧ (t.pipe p).nextTag = some ((tag + 1) % 256)
            ∧ (t.pipe p).slots = x.slots ∧ others t ∧ SameRegs s t [R.CX_CAM_STATUS.addr [p], R.HP_BOOT_STATUS.off]
            ∧ PostedLim s t E.CX_GROUP_UP 0 (some p) [(.num, 1)]
            ∧ t = { s with regs := t.regs, ev := t.ev, pipes := t.pipes, tune := t.tune }))
        ∧ (∀ h bytes, s.flag R.CX_CAM_STATUS_group_up [p] = true → s.flag R.CX_CAM_STATUS_stalled [p] = false →
          x.img = none → x.cur = none → x.busy ≤ s.up → x.slots.length < 15 → (x.slots = [] → x.swap = false ∧ s.ringFull p = false) →
          0 < s.get R.PP_CTL_width [p] →
          bytes.length = s.get R.PP_CTL_width [p] * fmtBytes (s.get R.PP_CTL_fmt [p]) →
          Yields (.cxpStreamPacket lane tag stream true
              [.header (s.get R.PP_CTL_fmt [p]) (s.get R.PP_CTL_width [p]) h, .marker, .data bytes]) s (fun t =>
            (t.pipe p).slots = x.slots ++ [{ bytes := bytes, tt := s.stampTt p, cnt := s.stampCnt p (s.stampTt p), replaced := false }]
            ∧ (t.pipe p).prev = some bytes ∧ (t.pipe p).lastAcc = some s.up ∧ (t.pipe p).seq = x.seq
            ∧ (t.pipe p).img = some { fmt := s.get R.PP_CTL_fmt [p], width := s.get R.PP_CTL_width [p], height := h, seen := 1 }
            ∧ others t ∧ t.tt = s.tt ∧ t.mem = s.mem ∧ t.ev = s.ev
            ∧ SameBut s t [R.CX_CAM_STATUS.addr [p]])))
      ∧ (bit (s.get R.CX_CAM_STATUS_lock [p]) m = true → x.cur = none → Yields (.cxpLaneLockLoss lane) s (fun t =>
          FieldsSet s t [(R.CX_CAM_STATUS_lock, [p], s.get R.CX_CAM_STATUS_lock [p] - 2 ^ m), (R.CX_CAM_STATUS_group_up, [p], 0)]
          ∧ t.pipe p = { x with delivered := 0, buf := [], nextTag := none, img := none, cur := none, gap := false } ∧ others t
          ∧ t = { s with regs := t.regs, ev := t.ev, pipes := t.pipes } ∧ PostedLim s t E.CX_LANE_DOWN 0 (some p) [(.ix, lane)]))
      ∧ (bit (s.get R.CX_CAM_STATUS_lock [p]) m = false → Yields (.cxpLaneLockLoss lane) s (fun t => t = s)))
    ∧ (∀ o rest, x.out = o :: rest → o.strip.pipe = p → Yields (.stripWritesAcknowledged p) s (fun t =>
        t.mem = (s.writeMem o.strip.addr o.bytes).mem ∧ (t.pipe p).out = rest ∧ others t
        ∧ t.get R.PP_PROD_seq [p] = (match rest with | y :: _ => y.strip.seq | [] => x.seq) % 2 ^ 32
        ∧ (∀ n r d, n < 16 → s.rcp.get? n = some r → r.recipe = some d → bit d.pipes p = true → s.flag R.DS_RCP_CTL_run [n] = true →
            t.rcp.get? n = some { r with strips := r.strips ++ [{ o.strip with prodTt := s.tt }] })
        ∧ SameBut s t [R.PP_PROD.addr [p], R.PP_CONS.addr [p]] ∧ t.ev = s.ev ∧ t.tt = s.tt))
    ∧ (∀ n, s.pipeOn p = true → s.flag R.CX_CAM_STATUS_stalled [p] = false → s.decBound p = none → x.lastAcc = some n →
      (n + s.get R.PP_STALL_stall_us [p] * 1000 ≤ s.up →
        (x.slots = [] → Yields (.pipelineStallTimeout p) s (fun t => FieldsSet s t [(R.CX_CAM_STATUS_stalled, [p], 1)]
          ∧ (t.pipe p) = { x with stallAt := s.up } ∧ others t
          ∧ PostedLim s t E.PP_STALL 0 (some p) [(.val, (x.seq + 2 ^ 32 - 1) % 2 ^ 32)]
          ∧ t = { s with regs := t.regs, ev := t.ev, pipes := t.pipes }))
        ∧ (x.slots ≠ [] → x.slots.length < 16 → Yields (.pipelineStallTimeout p) s (fun t => (t.pipe p).slots = []
          ∧ (t.pipe p).seq = (x.seq + 1) % 2 ^ 32 ∧ t.flag R.CX_CAM_STATUS_stalled [p] = true ∧ others t)))
      ∧ (s.up < n + s.get R.PP_STALL_stall_us [p] * 1000 → Yields (.pipelineStallTimeout p) s (fun t => t = s)))

/-- R128, R129, R130, R134, R138, R140: a control packet of the master connection lands in the receive ring with its length,
camera and type and rx_prod advances; a full ring drops and reports it. The next transmit entry goes out and tx_cons advances, whether or not en is set (R139). A
shadow bank that fails the check is refused and reported; one that passes is journalled with its CRC and waits for the next
strip. A camera parameter is refused and reported while the camera is enabled and applied while it is off; clearing en stops the
pipeline without advancing seq. -/
def Obligations.CameraControlBanksAndConfiguration : Prop :=
  ∀ (s : State) (p : Nat), s.Sound → p < s.cfg.camPipes →
    let x := s.pipe p
    (∀ lane ptype bytes, ∀ kind ∈ [CxpCtrl.ack, .event, .heartbeat], s.ctrlCam lane = some p → lane = s.get R.CX_CAM_CTL_base_lane [p] → bytes.length ≤ 1020 →
      let prod := s.get R.CX_CTRL_IDX_rx_prod [p]
      Yields (.cxpControlPacketRx lane kind ptype false bytes) s (fun t => t = { s with regs := t.regs, ev := t.ev }
        ∧ SameRegs s t [R.HP_BOOT_STATUS.off] ∧ PostedLim s t E.CX_CRC_ERROR 0 (some p) [(.ix, lane), (.en, 2)])
      ∧ ((prod + 1) % 256 = s.get R.CX_CTRL_IDX_rx_cons [p] → Yields (.cxpControlPacketRx lane kind ptype true bytes) s (fun t =>
          t = { s with regs := t.regs, ev := t.ev } ∧ SameRegs s t [R.HP_BOOT_STATUS.off]
          ∧ PostedLim s t E.CX_CTRL_RX_FULL 0 (some p) []))
      ∧ ((prod + 1) % 256 ≠ s.get R.CX_CTRL_IDX_rx_cons [p] → Yields (.cxpControlPacketRx lane kind ptype true bytes) s (fun t =>
          let u := s.writeMem (hoardBase + s.get R.CX_CTRL_RX_base [p] + 1024 * prod)
            (leBytes 2 bytes.length ++ leBytes 1 p ++ leBytes 1 ptype ++ bytes)
          t = { s with mem := u.mem, badWords := u.badWords, regs := t.regs }
          ∧ FieldsSet s t [(R.CX_CTRL_IDX_rx_prod, [p], (prod + 1) % 256)])))
    ∧ (let cons := s.get R.CX_CTRL_IDX_tx_cons [p]
       let a := hoardBase + s.get R.CX_CTRL_TX_base [p] + 1024 * cons
       s.ctrlOn p = true →
       (cons ≠ s.get R.CX_CTRL_IDX_tx_prod [p] → Yields (.cxCtrlTxSend p) s (fun t =>
          t.pipe p = { x with upOn := true, uplink := s.readMem (a + 4) (min (s.readLe a 2) 1020) } ∧ (∀ q, q ≠ p → t.pipe q = s.pipe q)
          ∧ FieldsSet s t [(R.CX_CTRL_IDX_tx_cons, [p], (cons + 1) % 256)] ∧ t = { s with regs := t.regs, pipes := t.pipes }))
       ∧ (cons = s.get R.CX_CTRL_IDX_tx_prod [p] → Yields (.cxCtrlTxSend p) s (fun t => t = s)))
    ∧ (∀ src v, bit v 0 = true → s.hostShut src = false → s.regHeld (R.PP_CAL_SWAP.addr [p]) = false →
      let shadow := 1 - s.get R.PP_CAL_SWAP_active [p]
      let b := if shadow = 0 then x.bank0 else x.bank1
      (∀ item ix, b.check (s.get R.PP_STAMP_out_width [p]) = some (item, ix) → Yields (.calBankSwap src p v) s (fun t =>
          t.pipes = s.pipes ∧ Journalled s t src 2 causeBlock (R.PP_CAL_SWAP.addr [p]) 0 v
          ∧ PostedLim s t E.PP_TABLE_REFUSED item (some p) [(.en, item), (.num, ix)] ∧ t.mem = s.mem))
      ∧ (b.check (s.get R.PP_STAMP_out_width [p]) = none → Yields (.calBankSwap src p v) s (fun t =>
          t.pipe p = { x with swap := true } ∧ (∀ q, q ≠ p → t.pipe q = s.pipe q)
          ∧ Journalled s t src 0 0 (R.PP_CAL_SWAP.addr [p]) 0 v ∧ t.get R.PP_CAL_SWAP_active [p] = s.get R.PP_CAL_SWAP_active [p]
          ∧ PostedLim s t E.PP_BANK_SWAPPED 0 (some p) [(.en, shadow), (.val, crc32 b.bytes)] ∧ t.mem = s.mem)))
    ∧ ∀ (src : Src) (v : Nat), v < 2 ^ 32 → s.hostShut src = false →
      (∀ r ∈ [CamReg.ppCtl, .stamp, .ring],
        let spec := camRegSpec r
        let off := spec.addr [p]
        let old := s.regWord spec [p]
        let eff := camEff r old v
        let new := fieldsWrite old eff spec.fields
        s.regHeld off = false → s.gate src off old new = none →
        (s.flag R.CX_CAM_CTL_en [p] = true → new ≠ old → Yields (.cameraConfigWrite src p r v) s (fun t =>
          t.regWord spec [p] = old ∧ t.pipes = s.pipes ∧ Journalled s t src 2 causeBlock off old v
          ∧ PostedLim s t E.PP_CFG_REFUSED off (some p) [(.val, off)]))
        ∧ (s.flag R.CX_CAM_CTL_en [p] = false → s.camCheck p r old new = none → Yields (.cameraConfigWrite src p r v) s (fun t =>
          t.regWord spec [p] = new ∧ t.pipes = s.pipes ∧ t.ev = s.ev ∧ SameRegs s t (off :: R.HP_JRN_HEAD.off :: R.HP_JRN_UNJ.off
            :: (List.range 8).map (fun k => R.HP_JRN_FAULT.addr [k]) ++ [R.HP_JRN_STATUS.off])
          ∧ Journalled s t src 0 (if anyOutOfRange v spec.fields || eff != v then 1 else 0) off old v)))
      ∧ (let old := s.regWord R.CX_CAM_CTL [p]
         s.regHeld (R.CX_CAM_CTL.addr [p]) = false →
         s.gate src (R.CX_CAM_CTL.addr [p]) old (old - 1) = none → s.flag R.CX_CAM_CTL_en [p] = true →
         fieldsWrite old (old - 1) R.CX_CAM_CTL.fields = old - 1 →
         Yields (.cameraConfigWrite src p .camCtl (old - 1)) s (fun t => t.regWord R.CX_CAM_CTL [p] = old - 1
          ∧ t.regWord R.CX_CAM_STATUS [p] = 0 ∧ (t.pipe p).slots = [] ∧ (t.pipe p).cur = none ∧ (t.pipe p).img = none
          ∧ (t.pipe p).seq = x.seq ∧ (∀ q, q ≠ p → t.pipe q = s.pipe q)
          ∧ (∃ cause, Journalled s t src 0 cause (R.CX_CAM_CTL.addr [p]) old (old - 1))))

/-! ### Record and still-image decoder (chapter 6) -/

/-- R142 to R144, R147 to R149, R151, R154: a source descriptor is fetched with its bytes, or skipped for a bad address; a file
header opens the stream or refuses it with its first failing field. The next record of lines, good in every check, enters the
pipeline with the pipeline's stamps, is used up, and last_seq and the expected sequence follow it; a record of another kind is
skipped, counted and reported. A paced line enters at its stamp TT and not before, a waiting channel once a buffer is free. -/
def Obligations.DecoderFeedsThePipeline : Prop :=
  ∀ (s : State) (c : Nat), s.Sound → s.decOn c = true →
    let d := s.dec c
    let p := s.get R.PP_DEC_CTL_pipe [c]
    let x := s.pipe p
    let mine := fun t : State => (∀ k, k ≠ c → t.dec k = s.dec k) ∧ t.mem = s.mem ∧ t.tt = s.tt
    let room := s.flag R.CX_CAM_STATUS_stalled [p] = false ∧ x.slots.length < 15 ∧ (x.slots = [] → x.swap = false ∧ s.ringFull p = false)
      ∧ s.flag R.PP_DEC_CTL_stamp_rec [c] = false ∧ d.resume = none ∧ x.busy ≤ s.up
      ∧ d.fmt = s.get R.PP_CTL_fmt [p] ∧ d.width = s.get R.PP_CTL_width [p]
    let enters := fun (bytes : List Byte) (t : State) => mine t ∧ (t.pipe p).lastAcc = some s.up ∧ (∀ q, q ≠ p → t.pipe q = s.pipe q)
      ∧ (t.pipe p).slots = x.slots ++ [{ bytes := bytes, tt := s.stampTt p, cnt := s.stampCnt p (s.stampTt p), replaced := false }]
      ∧ SameBut s t [R.PP_DEC_STATUS.addr [c], R.PP_DEC_IDX.addr [c]] ∧ t.ev = s.ev
    (let cons := s.get R.PP_DEC_IDX_src_cons [c]
     let i := (cons + d.ends.length) % 4096
     let a := hoardBase + s.get R.PP_DEC_SRC_base [c] + 16 * i
     let addr := s.readLe a 8 % 2 ^ 40
     let n := s.readLe (a + 8) 4
     (i = s.get R.PP_DEC_IDX_src_prod [c] → Yields (.decDescriptorFetch c) s (fun t => t = s))
     ∧ (i ≠ s.get R.PP_DEC_IDX_src_prod [c] →
        (s.inHoardOrBurrow addr n = true → (∀ e ∈ d.ends ++ [n], 0 < e) → Yields (.decDescriptorFetch c) s (fun t => mine t
          ∧ t.dec c = { d with buf := d.buf ++ s.readMem addr n, ends := d.ends ++ [n] } ∧ t.get R.PP_DEC_IDX_src_cons [c] = cons
          ∧ t = { s with regs := t.regs, decs := t.decs } ∧ SameRegs s t [R.PP_DEC_IDX.addr [c]]))
        ∧ (s.inHoardOrBurrow addr n = false → d.ends = [] → Yields (.decDescriptorFetch c) s (fun t => mine t
          ∧ t.dec c = d ∧ FieldsSet s t [(R.PP_DEC_IDX_src_cons, [c], (cons + 1) % 4096),
              (R.PP_DEC_ERR_skipped, [c], satTo 65535 (s.get R.PP_DEC_ERR_skipped [c] + 1))]
          ∧ PostedLim s t E.DEC_RECORD_SKIPPED 9 (some c) [(.val, d.nextSeq), (.en, 9), (.val, 0)]))))
    ∧ (d.refused = false → (s.decState c = 1 ∨ s.decState c = 4) → 64 ≤ d.buf.length →
      let bad := fileHeaderBad (d.buf.take 64) (s.get R.PP_CTL_fmt [p]) (s.get R.PP_CTL_width [p])
      (bad = none → ∀ n, d.ends = [n] → 64 < n → Yields (.decFileHeader c) s (fun t => mine t ∧ t.decState c = 2
        ∧ t.dec c = { d with buf := d.buf.drop 64, ends := [n - 64], fmt := s.get R.PP_CTL_fmt [p],
                             width := s.get R.PP_CTL_width [p], period := leVal ((d.buf.drop 16).take 4), nextSeq := 0,
                             expTt := none, records := 0, strips := x.seq }
        ∧ t = { s with regs := t.regs, decs := t.decs } ∧ SameRegs s t [R.PP_DEC_STATUS.addr [c], R.PP_DEC_IDX.addr [c]]))
      ∧ (∀ f, bad = some f → Yields (.decFileHeader c) s (fun t => mine t ∧ t.dec c = { d with refused := true }
        ∧ FieldsSet s t [(R.PP_DEC_STATUS_state, [c], 4)] ∧ PostedLim s t E.DEC_FILE_REFUSED f (some c) [(.val, 0), (.en, f)])))
    ∧ (s.decState c = 2 → d.queue = [] → d.skip = 0 → hdrValid d.buf = true → d.searching = false →
      let r := recHdr d.buf
      (r.kind = 1 → r.reserved = false → r.lines = 1 → r.len = s.get R.PP_CTL_width [p] * fmtBytes (s.get R.PP_CTL_fmt [p]) →
        d.expTt.getD 0 ≤ r.tt → r.seq = d.nextSeq → 48 + r.padded ≤ d.buf.length →
        crc32 ((d.buf.drop 48).take r.len) = r.crc → s.flag R.PP_DEC_CTL_pace [c] = false → room →
        Yields (.decRecord c) s (fun t => enters ((d.buf.drop 48).take r.len) t ∧ t.get R.PP_DEC_STATUS_last_seq [c] = r.seq % 65536
          ∧ (t.dec c).nextSeq = (r.seq + 1) % 2 ^ 32 ∧ (t.dec c).records = d.records + 1
          ∧ (t.dec c).buf = d.buf.drop (48 + r.padded) ∧ (t.dec c).queue = [] ∧ t.decState c = 2))
      ∧ (r.kind ∉ [1, 2, 3, 15] → Yields (.decRecord c) s (fun t => mine t ∧ t.pipes = s.pipes
          ∧ t.get R.PP_DEC_ERR_skipped [c] = satTo 65535 (s.get R.PP_DEC_ERR_skipped [c] + 1)
          ∧ (t.dec c).nextSeq = (r.seq + 1) % 2 ^ 32 ∧ t.get R.PP_DEC_STATUS_last_seq [c] = s.get R.PP_DEC_STATUS_last_seq [c]
          ∧ PostedLim s t E.DEC_RECORD_SKIPPED 1 (some c) [(.val, r.seq), (.en, 1), (.val, 0)])))
    ∧ (∀ b tt cnt rest, d.queue = .line b tt cnt :: rest → s.flag R.PP_DEC_CTL_pace [c] = true →
      (s.tt < s.decDue c tt → Yields (.decPacedLineEntry c) s (fun t => t = s))
      ∧ (s.decDue c tt ≤ s.tt → rest = [] → s.lineFits p b = true → room → Yields (.decPacedLineEntry c) s (fun t => enters b t ∧ (t.dec c).queue = [])))
    ∧ (∀ b tt cnt, d.queue = [.line b tt cnt] → s.flag R.PP_DEC_CTL_pace [c] = false → s.decState c = 3 →
      (s.lineFits p b = true → room → Yields (.decRingSpaceResume c) s (fun t => enters b t ∧ t.decState c = 2 ∧ (t.dec c).queue = []))
      ∧ (x.slots = [] → s.ringFull p = true → Yields (.decRingSpaceResume c) s (fun t => t.decState c = 3 ∧ t.decs = s.decs
          ∧ t.pipes = s.pipes ∧ t = { s with regs := t.regs })))

/-- R152, R156 to R159: a source base is taken while the channel is off and refused, with a report, while it is on; the work
area's two words apply together or are both refused. Setting en starts the channel at its file header and clearing it stops the
channel, discarding what is in progress, unless another channel has the pipeline. A substitute record is taken when it passes
every check, cleared by address 0, and refused otherwise. -/
def Obligations.DecoderConfiguration : Prop :=
  ∀ (s : State) (src : Src) (c v : Nat), s.Sound → c < 4 → v < 2 ^ 32 →
    let on := s.flag R.PP_DEC_CTL_en [c]
    let refused := fun (off : Nat) (t : State) => t.decs = s.decs ∧ t.pipes = s.pipes
      ∧ PostedLim s t E.DEC_CFG_REFUSED off (some c) [(.val, s.get R.PP_DEC_STATUS_last_seq [c]), (.val, off)]
    let open' := s.hostShut src = false ∧ s.regHeld (R.PP_DEC_SRC.addr [c]) = false
    (open' → on = true → v ≠ s.regWord R.PP_DEC_SRC [c] → Yields (.decConfigWrite src c .src v) s (fun t => refused (R.PP_DEC_SRC.addr [c]) t
        ∧ t = { s with regs := t.regs, ev := t.ev } ∧ SameRegs s t [R.HP_BOOT_STATUS.off]))
    ∧ (open' → on = false → v % 16 = 0 → Yields (.decConfigWrite src c .src v) s (fun t => t = s.setRegWord R.PP_DEC_SRC [c] v))
    ∧ (let old := s.regWord R.PP_DEC_CTL [c]
       let new := fieldsWrite old v R.PP_DEC_CTL.fields
       let taken := ∃ k < 4, k ≠ c ∧ s.flag R.PP_DEC_CTL_en [k] = true ∧ s.get R.PP_DEC_CTL_pipe [k] = bits new 5 1
       s.Takes src R.PP_DEC_CTL [c] v →
       ((bit old 0 = true ∧ old / 2 ≠ new / 2) ∨ ((bit new 0 = true ∨ bits new 5 1 ≠ bits old 5 1) ∧ taken) → Yields (.decConfigWrite src c .ctl v) s (fun t =>
          refused (R.PP_DEC_CTL.addr [c]) t ∧ t.regWord R.PP_DEC_CTL [c] = old
          ∧ Journalled s t src 2 causeBlock (R.PP_DEC_CTL.addr [c]) old v))
       ∧ (bit old 0 = false → bit new 0 = true → ¬ taken → Yields (.decConfigWrite src c .ctl v) s (fun t =>
          t.regWord R.PP_DEC_CTL [c] = new ∧ t.decState c = 1 ∧ t.dec c = { DecCh.init with subst := (s.dec c).subst }
          ∧ (∀ k, k ≠ c → t.dec k = s.dec k) ∧ t.get R.PP_DEC_IDX_src_cons [c] = s.get R.PP_DEC_IDX_src_cons [c]
          ∧ Journalled s t src 0 (if anyOutOfRange v R.PP_DEC_CTL.fields then 1 else 0) (R.PP_DEC_CTL.addr [c]) old v))
       ∧ (bit old 0 = true → bit new 0 = false → old / 2 = new / 2 → Yields (.decConfigWrite src c .ctl v) s (fun t =>
          t.regWord R.PP_DEC_CTL [c] = new ∧ t.decState c = 0 ∧ t.dec c = { DecCh.init with subst := (s.dec c).subst }
          ∧ t.get R.PP_DEC_IDX_src_cons [c] = s.get R.PP_DEC_IDX_src_cons [c]
          ∧ Journalled s t src 0 (if anyOutOfRange v R.PP_DEC_CTL.fields then 1 else 0) (R.PP_DEC_CTL.addr [c]) old v)))
    ∧ (∀ lo hi : RegSpec, ∀ c' : Instr, ((lo = R.PP_DEC_WORK_LO ∧ hi = R.PP_DEC_WORK_HI ∧ c' = .decConfigWrite src c .work v)
          ∨ (lo = R.PP_DEC_SUBST_LO ∧ hi = R.PP_DEC_SUBST_HI ∧ c' = .decSubstWrite src c v)) →
      let vl := s.loHeld.get (lo.addr [c]) (s.regWord lo [c])
      let nl := fieldsWrite (s.regWord lo [c]) vl lo.fields
      let nh := fieldsWrite (s.regWord hi [c]) v hi.fields
      let new := nl + nh * 2 ^ 32
      let fits : Prop := if lo.off = R.PP_DEC_WORK_LO.off then (on = false ∨ new = s.pair lo hi [c])
        else (new = 0 ∨ (s.substLines c new).isSome = true)
      s.Takes src hi [c] v →
      (fits → Yields c' s (fun t => t.regWord lo [c] = nl ∧ t.regWord hi [c] = nh
        ∧ Journalled s t src 0 0 (lo.addr [c]) (s.regWord lo [c]) vl ∧ t.ev = s.ev ∧ t.mem = s.mem
        ∧ (∀ k, k ≠ c → t.dec k = s.dec k)
        ∧ (lo = R.PP_DEC_SUBST_LO → t.dec c = { s.dec c with subst := if new = 0 then [] else (s.substLines c new).getD [] })))
      ∧ (¬ fits → Yields c' s (fun t => refused (lo.addr [c]) t ∧ t.regWord lo [c] = s.regWord lo [c]
        ∧ t.regWord hi [c] = s.regWord hi [c] ∧ Journalled s t src 2 causeBlock (lo.addr [c]) (s.regWord lo [c]) vl)))

/-! ### Cores and synchronisation (chapter 7) -/

/-- R165 to R167, R193: a free engine of a running core starts, of its ready entries, the one of lowest rank, then the one posted
first, with fresh registers and slot 15 at batch_addr; with none ready nothing changes. A segment that has ended frees the engine
and waits for its writes; when they are acknowledged the oldest is reported to its job, which ends with status ok at its last. -/
def Obligations.SegmentsStartEndAndComplete : Prop :=
  ∀ (s : State) (c e : Nat), s.Sound → c < s.cfg.cores → e < s.cfg.engines →
    let x := s.eng c e
    let ready := x.queue.filter (s.entryReady c e)
    (s.coreRuns c = true → s.flag R.CR_CORE_CTL_drain [c] = false → x.stopped = false → x.run = none →
      (ready = [] → Yields (.segmentStart c e) s (fun t => t = s))
      ∧ (∀ d ∈ ready, (∀ q ∈ ready, q ≠ d → d.rank < q.rank ∨ (d.rank = q.rank ∧ d.order < q.order)) →
        ∀ j, s.ds.jobs.get? d.job = some j → Yields (.segmentStart c e) s (fun t =>
          t.eng c e = { x with queue := x.queue.filter (fun q => q.order ≠ d.order),
                               run := some { desc := d, start := s.tt, issue := none, pc := 0, wait := none, ended := false,
                                             below := decide (s.get R.CR_CORE_STATUS_freq_mhz [c] < s.floorOf d.job), hung := false,
                                             sent := none },
                               sreg := (Tbl.empty : Tbl Nat).set 15 d.batchAddr, vreg := Tbl.empty, mask := Tbl.empty,
                               modq := Tbl.empty, asked := [], fetched := [], listed := [], loads := [] }
          ∧ SameEngines s t c e ∧ SameRegs s t (engRegs c e) ∧ t.ds.jobs.get? d.job = some { j with started := true, stall := none }
          ∧ (j.lc = true → t.ds.credit = s.ds.credit)
          ∧ (j.lc = false → t.ds.credit.get j.group.ring 0 = s.ds.credit.get j.group.ring 0 - 1)
          ∧ t = { s with regs := t.regs, cores := t.cores, ds := t.ds })))
    ∧ (∀ r, x.run = some r →
      (r.ended = false → r.pc < r.desc.codeLen → Yields (.segmentEnd c e) s (fun t => t = s))
      ∧ (r.ended = true ∨ r.desc.codeLen ≤ r.pc → ∀ j, s.ds.jobs.get? r.desc.job = some j → Yields (.segmentEnd c e) s (fun t =>
          t.eng c e = { x with run := none, ending := x.ending ++ [(r.desc, x.nextW)] } ∧ SameEngines s t c e
          ∧ SameRegs s t (engRegs c e)
          ∧ t.ds.jobs.get? r.desc.job = some { j with busy := j.busy + (s.tt - r.start), stall := none }
          ∧ t = { s with regs := t.regs, cores := t.cores, ds := t.ds })))
    ∧ (∀ d mark rest, x.ending = (d, mark) :: rest →
      ((∃ w ∈ x.outW, w < mark) → Yields (.segmentComplete c e) s (fun t => t = s))
      ∧ ((∀ w ∈ x.outW, mark ≤ w) → ∀ j, s.ds.jobs.get? d.job = some j → s.jobExpired j = false →
        (j.todo ≠ [] ∨ 1 < j.inFlight → Yields (.segmentComplete c e) s (fun t => (t.eng c e).ending = rest
          ∧ t.ds.jobs.get? d.job = some { j with inFlight := j.inFlight - 1 } ∧ t.ds.dones = s.ds.dones
          ∧ SameEngines s t c e ∧ SameBut s t (engRegs c e) ∧ t.mem = s.mem ∧ t.ev = s.ev))
        ∧ (j.todo = [] → j.inFlight = 1 → j.fault = 0 → j.cancelled = false → j.dropped = false → j.expired = false → j.lost = 0 →
          Yields (.segmentComplete c e) s (fun t => (t.eng c e).ending = rest ∧ t.ds.jobs.get? d.job = none ∧ t.ev = s.ev
            ∧ ∃ f, t.ds.dones = s.ds.dones ++ [f] ∧ f.group = j.group ∧ f.job = d.job ∧ f.status = 0 ∧ f.tt = s.tt
              ∧ f.busy = j.busy))))

/-- R162, R169, R173, R175, R176, R182, R183, R338: a signal whose earlier writes are acknowledged adds to its counter, modulo
2^32, and leaves every other counter; before that it waits, and without Quill one for a chip is reported. An engine in a wait goes
on when the counter has come. 20 µs without the end of a segment is a watchdog fault; 65,536 ns of the stall watch freeze the job;
an error response is an exception of an LE or SE. Before its time each of the watches changes nothing. -/
def Obligations.SignalsWaitsAndWatches : Prop :=
  ∀ (s : State) (c e : Nat), s.Sound → c < s.cfg.cores → e < s.cfg.engines →
    let x := s.eng c e
    (∀ k g, s.signals[k]? = some g →
      (s.signalDue g = false → Yields (.syncSignalApply k) s (fun t => t = s))
      ∧ (s.signalDue g = true →
        (∀ h, g.chip = some h → s.cfg.quillPorts = 0 → (∀ w ∈ (s.core g.core).win.vals, w.closing = false) →
          Yields (.syncSignalApply k) s (fun t => t.signals = s.signals.eraseIdx k ∧ (∀ c' n, t.sync c' n = s.sync c' n)
            ∧ Posted s t E.SIGNAL_NO_ROUTE (some (engInst g.fromCore g.fromEng)) (g.owner.toList.map (fun t => (.num, t)) ++ [(.num, h)])))
        ∧ (g.chip = none → s.coreRuns g.core = true ∨ s.wroteNow g = true → s.signalHome g = none →
          (∀ w ∈ (s.core g.core).win.vals, w.closing = false) → Yields (.syncSignalApply k) s (fun t =>
            t.sync g.core g.ctr = (s.sync g.core g.ctr + g.n) % 2 ^ 32
            ∧ (∀ c' n, c' ≠ g.core ∨ n ≠ g.ctr → t.sync c' n = s.sync c' n) ∧ (∀ c' e', t.eng c' e' = s.eng c' e')
            ∧ t.signals = s.signals.eraseIdx k ∧ t.regs = s.regs
            ∧ t = { s with cores := t.cores, signals := t.signals, ds := t.ds }))))
    ∧ (∀ r ctr v, x.stopped = false → x.run = some r → r.wait = some (ctr, v) →
      (waitMet (s.sync c ctr) v = false → Yields (.waitSatisfied c e) s (fun t => t = s))
      ∧ (waitMet (s.sync c ctr) v = true → e ≤ 2 → s.fetchCode r 64 % 256 = 0x04 → Yields (.waitSatisfied c e) s (fun t =>
          t.eng c e = { x with run := some (r.after s.tt (r.pc + 64) (bit (s.fetchCode r 64) 8)), asked := [], fetched := [], listed := [] }
          ∧ SameEngines s t c e ∧ SameBut s t (engRegs c e) ∧ t.mem = s.mem ∧ t.signals = s.signals ∧ t.ev = s.ev)))
    ∧ (∀ r hung done, x.run = some r → r.ended = false →
      (s.tt < r.issue.getD r.start + 20000 → Yields (.segmentWatchdogExpiry c e ⟨hung, done⟩) s (fun t => t = s))
      ∧ (r.issue.getD r.start + 20000 ≤ s.tt → s.fab.soft = [] → ∀ j, s.ds.jobs.get? r.desc.job = some j → j.cancelled = true →
        j.cancelTt = s.tt → Yields (.segmentWatchdogExpiry c e ⟨hung, done⟩) s (fun t => (t.eng c e).run = none ∧ t.ev = s.ev))
      ∧ (r.issue.getD r.start + 20000 ≤ s.tt → s.fab.soft = [] → ∀ j, s.ds.jobs.get? r.desc.job = some j → j.cancelled = false →
        j.fault = 0 → Yields (.segmentWatchdogExpiry c e ⟨hung, done⟩) s (fun t => (t.eng c e).run = none
          ∧ (t.eng c e).stopped = (hung || !x.asked.isEmpty || r.sent.isSome)
          ∧ (s.cores.keys = [c] → (s.core c).eng.keys = [e] → (s.core c).win = Tbl.empty →
              t.get R.CR_ERR_watchdog [c] = satTo 65535 (s.get R.CR_ERR_watchdog [c] + 1))
          ∧ PostedFirst s t E.SEG_WATCHDOG (some (engInst c e)) [(.num, r.desc.job), (.val, r.desc.segId),
              (.en, if r.below then 2 else if hung || !x.asked.isEmpty || r.sent.isSome then 3 else 1)]
          ∧ (∀ j', t.ds.jobs.get? r.desc.job = some j' → j'.fault = E.SEG_WATCHDOG ∧ j'.todo = [])
          ∧ t.mem = (s.nestAbandon c e done).mem ∧ (done = 0 ∨ 2 < e → t.mem = s.mem))))
    ∧ (∀ job j a, s.ds.jobs.get? job = some j → j.stall = some a →
      (s.stalled job = true → j.frozen = false → a + 65536 ≤ s.tt → Yields (.stallWatchExpiry job) s (fun t =>
          t.ds.jobs.get? job = some { j with frozen := true, frozenTt := s.tt }
          ∧ (∃ v, t.ev.mgmt = s.ev.mgmt ++ [v] ∧ v.code = E.JOB_DEADLOCK ∧ v.tt = s.tt) ∧ t.cores = s.cores ∧ t.mem = s.mem))
      ∧ (s.stalled job = false ∨ j.frozen = true ∨ s.tt < a + 65536 → Yields (.stallWatchExpiry job) s (fun t => t = s)))
    ∧ (e ≠ 1 → e ≠ 2 → Yields (.engineFabricError c e) s (fun t => t = s))
    ∧ (∀ r, e = 1 ∨ e = 2 → x.run = some r → Yields (.engineFabricError c e) s (fun t => (t.eng c e).run = none
        ∧ PostedFirst s t E.ENGINE_EXCEPTION (some (engInst c e)) [(.num, r.desc.job), (.num, 0x0A), (.val, r.pc)]
        ∧ t.mem = s.mem))

/-! ### Nest-form instructions (chapter 8) -/

/-- R169, R189, R190, R193, R194, R205: the control instructions of the nest form. Each retires: the pc moves on by 64, and the
segment ends with the end bit or past the code. nop and end do nothing more; base loads its slots as its modes say; signal sends one
signal after the writes issued so far; a wait whose counter has come retires, another leaves the engine waiting at its pc. -/
def Obligations.NestControlInstructions : Prop :=
  ∀ (s : State) (c e w : Nat) (r : Running), s.Sound → s.NestIssues c e r w →
    let x := s.eng c e
    let next := r.after s.tt (r.pc + 64) (bit w 8)
    let frame := fun t : State => SameEngines s t c e ∧ SameBut s t (engRegs c e) ∧ t.ev = s.ev
      ∧ t = { s with regs := t.regs, pc := t.pc, cores := t.cores, host := t.host, signals := t.signals }
    let retired := fun t : State => t.eng c e = { x with run := some next, asked := [], fetched := [], listed := [] } ∧ frame t
    (w % 256 = 0x00 → Yields (.nop c e) s (fun t => retired t ∧ t.signals = s.signals))
    ∧ (w % 256 = 0x01 → Yields (.endInstr c e) s (fun t => retired t ∧ t.signals = s.signals))
    ∧ (w % 256 = 0x02 → Yields (.base c e) s (fun t => frame t ∧ t.signals = s.signals
        ∧ t.eng c e = { x with run := some next, asked := [], fetched := [], listed := [], sreg := (t.eng c e).sreg }
        ∧ (∀ k, (k < bits w 12 9 ∨ bits w 12 9 + bits w 15 13 ≤ k) → (t.eng c e).sreg.get k 0 = x.sreg.get k 0)
        ∧ ∀ j < bits w 15 13,
          let v := bits w (64 + 64 * j + 63) (64 + 64 * j)
          let local_ := v % 2 ^ 40
          (bits v 62 61 = 1 → (t.eng c e).sreg.get (bits w 12 9 + j) 0 = (coreScratch c + local_) % 2 ^ 40)
          ∧ (bits v 62 61 = 2 → (t.eng c e).sreg.get (bits w 12 9 + j) 0 = (r.desc.batchAddr + local_) % 2 ^ 40)
          ∧ (bits v 62 61 = 0 → (t.eng c e).sreg.get (bits w 12 9 + j) 0
              = if bit v 63 ∧ bits v 51 40 = s.chipNo then local_ else v)))
    ∧ (w % 256 = 0x03 →
      let g : Signal := { core := c, ctr := bits w 31 24, n := bits w 47 32, job := none, fromCore := c, fromEng := e,
                          after := x.nextW, chip := none, owner := some r.desc.job }
      (bit w 10 = false → bit w 11 = false → Yields (.signal c e) s (fun t => retired t ∧ t.signals = s.signals
          ++ [if bit w 9 then g else { g with ctr := r.desc.winBase + bits w 31 24, job := some r.desc.job }]))
      ∧ (bit w 10 = true → bit w 11 = false → bit w 9 = true → Yields (.signal c e) s (fun t => retired t
          ∧ t.signals = s.signals ++ [{ g with core := bits w 16 12 }]))
      ∧ (bit w 11 = true → bits w 59 48 ≠ s.chipNo → Yields (.signal c e) s (fun t => retired t
          ∧ t.signals = s.signals ++ [{ g with core := bits w 16 12, chip := some (bits w 59 48) }])))
    ∧ (w % 256 = 0x04 →
      let ctr := if bit w 9 then bits w 31 24 else r.desc.winBase + bits w 31 24
      (waitMet (s.sync c ctr) (bits w 63 32) = true → Yields (.wait c e) s (fun t => retired t ∧ t.signals = s.signals))
      ∧ (waitMet (s.sync c ctr) (bits w 63 32) = false → Yields (.wait c e) s (fun t => frame t ∧ t.signals = s.signals
          ∧ t.eng c e = { x with run := some { r with issue := some (r.issue.getD s.tt), wait := some (ctr, bits w 63 32) } })))

/-- R191, R192, R195, R196, R200, R201, R202, R206: the compute instructions of the nest form. One that passes the check of its
operands, needs no remote data and meets no error retires with the memory that the procedure of R200 leaves, and sends its
post-signal. With one level and no gather: fill writes the low bytes of its slot to every element of D; copy writes every converted
element of A where the ranges do not meet; an integer mma stores the sums of its products row by row. All other bytes stay. -/
def Obligations.NestComputeInstructions : Prop :=
  ∀ (s : State) (c e w : Nat) (r : Running), s.Sound → s.NestIssues c e r w → (s.eng c e).asked = [] →
    s.fab.soft = [] →
    let x := s.eng c e
    let u := s.atIssue c e w
    let frame := fun t : State => SameEngines s t c e ∧ SameBut s t (engRegs c e) ∧ t.ev = s.ev
      ∧ t.eng c e = { x with run := some (r.after s.tt (r.pc + 64) (bit w 8)), asked := [], fetched := [], listed := [],
                              acc := (t.eng c e).acc }
      ∧ (w % 256 ≠ 0x10 → (t.eng c e).acc = x.acc)
      ∧ t = { s with regs := t.regs, pc := t.pc, cores := t.cores, host := t.host, signals := t.signals, mem := t.mem,
                     badWords := t.badWords }
      ∧ t.signals = (if bit w 9 then s.signals ++ [{ core := c, ctr := if bit w 10 then bits w 23 16 else r.desc.winBase + bits w 23 16,
                                                     n := 1, job := if bit w 10 then none else some r.desc.job, fromCore := c,
                                                     fromEng := e, after := x.nextW, chip := none,
                                                     owner := some r.desc.job }] else s.signals)
    let wordA := x.sreg.get (nestBase w 0) 0
    let wordB := x.sreg.get (nestBase w 1) 0
    let wordD := x.sreg.get (nestBase w 2) 0
    let a := ((wordA % 2 ^ 40 : Nat) : Int) + nestOff w 0
    let b := ((wordB % 2 ^ 40 : Nat) : Int) + nestOff w 1
    let d := ((wordD % 2 ^ 40 : Nat) : Int) + nestOff w 2
    let nd := tyBytes (nestType w 2)
    let na := tyBytes (nestType w 0)
    let elemD := fun i : Nat => (d + nestStride w 0 2 * (i : Int)).toNat
    let elemA := fun i : Nat => (a + nestStride w 0 0 * (i : Int)).toNat
    let clean := s.badWords = [] ∧ s.heldIsl = [] ∧ s.fab.trst = Tbl.empty
      ∧ s.remoteChip wordD = none
    (∀ cmd, ((w % 256 = 0x10 ∧ cmd = Instr.mma c e) ∨ (w % 256 = 0x20 ∧ cmd = .copy c e) ∨ (w % 256 = 0x21 ∧ cmd = .fill c e)) →
      u.checkCompute c e w = none →
      let y := u.runCompute c e w
      y.need = [] → y.exc = none → y.ecc = none →
      (y.writes = [] → Yields cmd s (fun t => frame t ∧ t.mem = y.s.mem ∧ t.badWords = y.s.badWords))
      ∧ (y.writes ≠ [] → Yields cmd s (fun t => t.mem = y.s.mem ∧ t.signals = s.signals ∧ t.ev = s.ev ∧ SameEngines s t c e
          ∧ (t.eng c e).run = some { r with issue := some (r.issue.getD s.tt), sent := some (w, x.nextW) })))
    ∧ (clean → nestLev w = 1 → bit w 11 = false → s.checkCompute c e w = none → nd ≤ (nestStride w 0 2).natAbs ∨ nestCnt w 0 = 1 →
      (w % 256 = 0x21 → Yields (.fill c e) s (fun t => frame t
        ∧ (∀ i < nestCnt w 0, t.readLe (elemD i) nd = wordB % 2 ^ (8 * nd))
        ∧ ∀ o, (∀ i < nestCnt w 0, o < elemD i ∨ elemD i + nd ≤ o) → t.mem.read o = s.mem.read o))
      ∧ (w % 256 = 0x20 → s.remoteChip wordA = none → (∀ i < nestCnt w 0, ∀ k < nestCnt w 0, elemA i + na ≤ elemD k ∨ elemD k + nd ≤ elemA i) →
        Yields (.copy c e) s (fun t => frame t
          ∧ (∀ i < nestCnt w 0, t.readLe (elemD i) nd
              = convertTo (bits w 125 124) (nestType w 0) (nestType w 2) (s.readLe (elemA i) na) % 2 ^ (8 * nd))
          ∧ ∀ o, (∀ i < nestCnt w 0, o < elemD i ∨ elemD i + nd ≤ o) → t.mem.read o = s.mem.read o)))
    ∧ (clean → s.remoteChip wordA = none → s.remoteChip wordB = none → nestLev w = 1 → bit w 11 = false → w % 256 = 0x10 → nestType w 2 = 3 → bits w 127 126 = 0 →
      s.checkCompute c e w = none → (4 * s.cfg.macDim : Int) ≤ nestStride w 0 2 →
      let prod := fun (i p q : Nat) => tyIntVal (nestType w 0) (s.readLe (elemA i + p) 1)
        * tyIntVal (nestType w 1) (s.readLe ((b + nestStride w 0 1 * (i : Int)).toNat + q) 1)
      Yields (.mma c e) s (fun t => frame t ∧ ∀ p < s.cfg.macDim, ∀ q < s.cfg.macDim,
        t.readLe (elemD p + 4 * q) 4
          = wrapInt 32 ((List.range (nestCnt w 0)).foldl (fun acc i => acc + prod i p q) 0)
        ∧ (((t.eng c e).acc.get 0 []).getD p []).getD q 0
          = wrapInt 32 ((List.range (nestCnt w 0)).foldl (fun acc i => acc + prod i p q) 0)))

/-! ### Bundle-form instructions (chapter 9) -/

/-- R213 to R217, R222, R225, R228, R234: a bundle that issues retires, whatever syllables it holds and whichever of their rows
names it: the engine's pc moves to the next bundle or to the branch target, and the segment ends with the end bit or past the code.
So does a bundle that holds no syllable, which changes no register. Every other engine, counter and window stays, and memory stays
where the bundle stores nothing. -/
def Obligations.BundlesRetire : Prop :=
  ∀ (s : State) (c e : Nat) (r : Running) (b : Bundle), s.Sound → (e = 3 ∨ e = 4) → s.Issues c e r b →
    let x := s.eng c e
    let next := (b.next x r.pc r.desc.codeLen).getD r.pc
    let retired := fun t : State => (t.eng c e).run = some (r.after s.tt next (bit b.hdr 4)) ∧ (t.eng c e).asked = []
      ∧ (t.eng c e).queue = x.queue ∧ (t.eng c e).ending = x.ending ∧ (t.eng c e).outW = x.outW
      ∧ SameEngines s t c e ∧ SameBut s t (engRegs c e) ∧ t.ev = s.ev
      ∧ t = { s with regs := t.regs, pc := t.pc, cores := t.cores, host := t.host, signals := t.signals, mem := t.mem,
                     badWords := t.badWords, free := t.free }
      ∧ ((∀ w, b.m = some w → mLoad w = true) → t.mem = s.mem ∧ t.badWords = s.badWords)
      ∧ ((∀ w, b.c = some w → w % 256 ≠ 0x18) → t.signals = s.signals)
    (∀ cmd slot op, (cmd, slot, op) ∈ syllableRows c e → b.has slot op = true → Yields cmd s retired)
    ∧ (b.mask = 0 → b.m = none → b.x = none → b.y = none → b.c = none → Yields (.emptyBundle c e) s (fun t => retired t
        ∧ t.eng c e = { x with run := (t.eng c e).run, asked := [], fetched := [], listed := [] }))

/-- R185, R218 to R221, R236: the memory syllables. A load gives its register the little-endian lanes at the scalar base plus the
scaled offset in the core's scratch and changes no memory; ldmod gives a modulus slot q and the Barrett constant; a store writes the
lanes that its mask admits and no other byte. Data that arrive uncorrectable fault the job and are counted and reported. -/
def Obligations.BundleMemorySyllables : Prop :=
  ∀ (s : State) (c e w : Nat) (r : Running) (b : Bundle), s.Sound → s.Issues c e r b → b.m = some w → b.x = none → b.y = none →
    b.c = none →
    let x := s.eng c e
    let reg := bits w 13 8
    let a := coreScratch c + mOffset x w
    let only := fun t : State => t.eng c e = { x with sreg := (t.eng c e).sreg, vreg := (t.eng c e).vreg, modq := (t.eng c e).modq,
                                                      run := (t.eng c e).run, asked := [], fetched := [], listed := [],
                                                      loads := (t.eng c e).loads }
      ∧ (t.eng c e).run = some (r.after s.tt (r.pc + 8) (bit b.hdr 4))
    let loads := fun t : State => only t ∧ t.mem = s.mem ∧ (t.eng c e).loads.head? = some (r.pc, a) ∧ (∀ k, k ≠ reg → (t.eng c e).vreg.get? k = x.vreg.get? k)
    let stores := fun (n : Nat) (t : State) => only t ∧ t.eng c e = { x with run := (t.eng c e).run, asked := [], fetched := [], listed := [] }
      ∧ ∀ o, o < a ∨ a + n ≤ o → t.mem.read o = s.mem.read o
    (e = 3 → w % 256 = 0x01 → Yields (.vld c e) s (fun t => loads t ∧ (t.eng c e).sreg = x.sreg
        ∧ ((t.eng c e).v reg).length = 64 ∧ ∀ i < 64, ((t.eng c e).v reg)[i]? = some (s.readLe (a + 4 * i) 4)))
    ∧ (e = 3 → w % 256 = 0x03 → Yields (.vldb c e) s (fun t => loads t ∧ (t.eng c e).sreg = x.sreg
        ∧ (t.eng c e).v reg = List.replicate 64 (s.readLe a 4)))
    ∧ (e = 3 ∨ e = 4 → w % 256 = 0x04 → Yields (.sld c e) s (fun t => only t ∧ t.mem = s.mem ∧ (t.eng c e).vreg = x.vreg
        ∧ (∀ k, k ≠ reg % 16 → (t.eng c e).sreg.get? k = x.sreg.get? k)
        ∧ (reg % 16 ≠ 0 → (t.eng c e).s (reg % 16) = s.readLe a 8) ∧ (reg % 16 = 0 → (t.eng c e).sreg = x.sreg)))
    ∧ (e = 4 → w % 256 = 0x11 → Yields (.rld c e) s (fun t => loads t ∧ (t.eng c e).sreg = x.sreg
        ∧ ((t.eng c e).r reg).length = 16 ∧ ∀ i < 16, ((t.eng c e).r reg)[i]? = some (s.readLe (a + 8 * i) 8)))
    ∧ (e = 4 → w % 256 = 0x16 → Yields (.ldmod c e) s (fun t => only t ∧ t.mem = s.mem ∧ (t.eng c e).vreg = x.vreg
        ∧ (t.eng c e).sreg = x.sreg ∧ (t.eng c e).modq.get? reg = some (s.readLe a 8, s.readLe (a + 8) 16)
        ∧ ∀ k, k ≠ reg → (t.eng c e).modq.get? k = x.modq.get? k))
    ∧ (e = 3 ∨ e = 4 → w % 256 = 0x05 → s.badWords = [] → Yields (.sst c e) s (fun t => stores 8 t
        ∧ t.readLe a 8 = x.s (reg % 16) % 2 ^ 64))
    ∧ (e = 3 → w % 256 = 0x02 → s.badWords = [] → (x.v reg).length = 64 → Yields (.vst c e) s (fun t => stores 256 t ∧ ∀ i < 64,
        t.readLe (a + 4 * i) 4 = if bit (x.m (bits w 20 18)) i then (x.v reg).getD i 0 % 2 ^ 32 else s.readLe (a + 4 * i) 4))
    ∧ (e = 4 → w % 256 = 0x12 → s.badWords = [] → (x.r reg).length = 16 → Yields (.rst c e) s (fun t => stores 128 t ∧ ∀ i < 16,
        t.readLe (a + 8 * i) 8 = (x.r reg).getD i 0 % 2 ^ 64))
    ∧ (e = 3 ∨ e = 4 → mLoad w = true → (a / 8 * 8 + 8 ≤ r.desc.codeAddr + r.pc ∨ r.desc.codeAddr + r.pc + 8 ≤ a / 8 * 8) →
        Yields (.loadDataUncorrectable c ⟨e, 0⟩) s (fun t => (t.eng c e).run = none ∧ t.mem = s.mem ∧ a / 8 ∈ t.badWords
          ∧ (s.cores.keys = [c] → (s.core c).eng.keys = [e] → (s.core c).win = Tbl.empty →
              t.get R.CR_ECC_uncorrected [c] = satTo 65535 (s.get R.CR_ECC_uncorrected [c] + 1))
          ∧ PostedFirst s t E.SCRATCH_ECC (some (engInst c e))
              [(.num, r.desc.job), (.wide, r.desc.codeAddr + r.pc), (.en, 2)]))
    ∧ (e = 3 ∨ e = 4 → ∀ k pc a', x.loads[k]? = some (pc, a') →
        Yields (.loadDataUncorrectable c ⟨e, k + 1⟩) s (fun t => (t.eng c e).run = none ∧ t.mem = s.mem ∧ a' / 8 ∈ t.badWords
          ∧ PostedFirst s t E.SCRATCH_ECC (some (engInst c e)) [(.num, r.desc.job), (.wide, r.desc.codeAddr + pc), (.en, 2)]))

/-- R222 to R224: the arithmetic of the VE, lane by lane under mask and type, on a bundle with one arithmetic syllable. Each
admitted lane of the destination is the opcode's value of the old lane, a and b; the other lanes keep theirs; vsel takes a or b by
the mask; a compare writes one mask bit per lane; vred puts the sum, greatest or least of the admitted lanes in lane 0 and zeros
after it. No other register of the engine and no memory changes. -/
def Obligations.VectorArithmetic : Prop :=
  ∀ (s : State) (c w : Nat) (r : Running) (b : Bundle), s.Sound → s.Issues c 3 r b → b.m = none → b.x = some w → b.y = none →
    b.c = none →
    let x := s.eng c 3
    let dn := bits w 13 8
    let va := x.v (bits w 19 14)
    let vb := vOperandB x b.imm w
    let m := x.m (bits w 28 26)
    let ty := bits w 30 29
    let code := bits w 23 20
    let rnd := bits w 25 24
    let only := fun t : State => t.mem = s.mem ∧ t.eng c 3 = { x with vreg := (t.eng c 3).vreg, mask := (t.eng c 3).mask,
                                                                      run := (t.eng c 3).run, asked := [], fetched := [], listed := [] }
      ∧ (∀ k, k ≠ dn → (t.eng c 3).v k = x.v k)
    let lanewise := fun (f : Nat → Nat → Nat → Nat) (t : State) => only t ∧ (t.eng c 3).mask = x.mask
      ∧ ∀ (i d p q : Nat), (x.v dn)[i]? = some d → va[i]? = some p → vb[i]? = some q →
        ((t.eng c 3).v dn)[i]? = some (if bit m i then f d p q else d)
    let compares := fun (f : Nat → Nat → Bool) (t : State) => t.mem = s.mem ∧ (t.eng c 3).vreg = x.vreg
      ∧ (∀ k, k ≠ bits w 10 8 → (t.eng c 3).m k = x.m k)
      ∧ ∀ i < 64, ∀ p q, (x.v dn)[i]?.isSome = true → va[i]? = some p → vb[i]? = some q →
        bit ((t.eng c 3).m (bits w 10 8)) i = if bit m i then f p q else bit (x.m (bits w 10 8)) i
    (∀ cmd op t f, (cmd, op, t, f) ∈ ([(.vadd c 3, 0x01, 0, fun _ p q => (p + q) % 2 ^ 32),
          (.vadd c 3, 0x01, 1, fun _ p q => (p + q) % 2 ^ 32), (.vadd c 3, 0x01, 2, fun _ p q => f32Add p q),
          (.vsub c 3, 0x02, 0, fun _ p q => (p + 2 ^ 32 - q) % 2 ^ 32), (.vsub c 3, 0x02, 1, fun _ p q => (p + 2 ^ 32 - q) % 2 ^ 32),
          (.vsub c 3, 0x02, 2, fun _ p q => f32Sub p q), (.vmul c 3, 0x03, 0, fun _ p q => p * q % 2 ^ 32),
          (.vmul c 3, 0x03, 1, fun _ p q => p * q % 2 ^ 32), (.vmul c 3, 0x03, 2, fun _ p q => f32Mul p q),
          (.vfma c 3, 0x04, 0, fun d p q => (d + p * q) % 2 ^ 32), (.vfma c 3, 0x04, 1, fun d p q => (d + p * q) % 2 ^ 32),
          (.vfma c 3, 0x04, 2, fun d p q => f32Fma d p q),
          (.vmax c 3, 0x05, 0, fun _ p q => if signedOf 32 p < signedOf 32 q then q else p),
          (.vmax c 3, 0x05, 1, fun _ p q => max p q), (.vmax c 3, 0x05, 2, fun _ p q => f32Max p q),
          (.vmin c 3, 0x06, 0, fun _ p q => if signedOf 32 q < signedOf 32 p then q else p),
          (.vmin c 3, 0x06, 1, fun _ p q => min p q), (.vmin c 3, 0x06, 2, fun _ p q => f32Min p q)]
          : List (Instr × Nat × Nat × (Nat → Nat → Nat → Nat))) → w % 256 = op → ty = t → Yields cmd s (lanewise f))
    ∧ (∀ cmd op f, (cmd, op, f) ∈ ([(.vand c 3, 0x07, fun _ p q => p &&& q), (.vor c 3, 0x08, fun _ p q => p ||| q),
          (.vxor c 3, 0x09, fun _ p q => p ^^^ q), (.vshl c 3, 0x0A, fun _ p q => p * 2 ^ (q % 32) % 2 ^ 32),
          (.vshr c 3, 0x0B, fun _ p q => if ty = 0 then wrapInt 32 (signedOf 32 p / ((2 ^ (q % 32) : Nat) : Int)) else p / 2 ^ (q % 32)),
          (.vcvt c 3, 0x10, fun d p _ => if code = 5 ∨ code = 7 then canonNan (vCvtLane code rnd d p) else vCvtLane code rnd d p),
          (.vexp c 3, 0x11, fun _ p _ => f32Exp p), (.vrcp c 3, 0x12, fun _ p _ => f32Rcp p),
          (.vrsqrt c 3, 0x13, fun _ p _ => f32Rsqrt p), (.vperm c 3, 0x15, fun _ _ q => va.getD (q % 64) 0),
          (.vbcast c 3, 0x16, fun _ _ _ => va.getD (bits w 25 20) 0), (.vmov c 3, 0x17, fun _ p _ => p)]
          : List (Instr × Nat × (Nat → Nat → Nat → Nat))) → w % 256 = op → x.v dn ≠ [] → (x.v dn).length ≤ 64 →
          Yields cmd s (lanewise f))
    ∧ (∀ f, ((ty = 0 ∧ f = fun p q => decide (signedOf 32 p < signedOf 32 q)) ∨ (ty = 1 ∧ f = fun p q => decide (p < q))
          ∨ (ty = 2 ∧ f = fun p q => Fv.lt (f32 p) (f32 q))) →
        (w % 256 = 0x0C → Yields (.vcmplt c 3) s (compares f))
        ∧ (w % 256 = 0x0D → Yields (.vcmple c 3) s (compares (fun p q => f p q || vEq ty p q)))
        ∧ (w % 256 = 0x0E → Yields (.vcmpeq c 3) s (compares (fun p q => vEq ty p q))))
    ∧ (w % 256 = 0x0F → Yields (.vsel c 3) s (fun t => only t ∧ ∀ (i p q : Nat), (x.v dn)[i]?.isSome = true → va[i]? = some p →
          vb[i]? = some q → ((t.eng c 3).v dn)[i]? = some (if bit m i then p else q)))
    ∧ (w % 256 = 0x14 → Yields (.vred c 3) s (fun t => only t ∧ ((t.eng c 3).v dn).tail = List.replicate 63 0
          ∧ (va.length = 64 → bits w 21 20 = 0 → ty ≠ 2 → ((t.eng c 3).v dn).head?
              = some (((List.range 64).foldl (fun acc i => acc + if bit m i then va.getD i 0 else 0) 0) % 2 ^ 32))
          ∧ (va.length = 64 → bits w 21 20 = 1 → ty = 1 → ((t.eng c 3).v dn).head?
              = some ((List.range 64).foldl (fun acc i => max acc (if bit m i then va.getD i 0 else 0)) 0))))

/-- R220, R225, R226: the arithmetic of the RE on a bundle with one arithmetic syllable: sums, differences, products and
negatives modulo the q of the slot, the two butterflies and the reduction, the wrapping 64-bit operations, moves and broadcasts,
and the exchange of lanes at distance 1, 2, 4 or 8. No other register of the engine and no memory changes. A butterfly of one
register with itself, which the manual leaves open, is not stated here (log 41). -/
def Obligations.RingArithmetic : Prop :=
  ∀ (s : State) (c w : Nat) (r : Running) (b : Bundle), s.Sound → s.Issues c 4 r b → b.m = none → b.x = some w → b.y = none →
    b.c = none →
    let x := s.eng c 4
    let dn := bits w 12 8
    let an := bits w 17 13
    let bn := bits w 22 18
    let vb := rOperandB x b.imm w
    let only := fun (l : List Nat) (t : State) => t.mem = s.mem ∧ t.free = s.free
      ∧ t.eng c 4 = { x with vreg := (t.eng c 4).vreg, run := (t.eng c 4).run, asked := [], fetched := [], listed := [] }
      ∧ (∀ k, k ∉ l → (t.eng c 4).r k = x.r k)
    (∀ cmd op f, (cmd, op, f) ∈ ([(.radd c 4, 0x01, fun q _ p v => (p + v) % q), (.rsub c 4, 0x02, fun q _ p v => (p + q - v) % q),
          (.rmul c 4, 0x03, fun q _ p v => p * v % q), (.rmac c 4, 0x04, fun q d p v => (d + p * v) % q),
          (.rneg c 4, 0x05, fun q _ p _ => (q - p) % q), (.raddw c 4, 0x09, fun _ _ p v => (p + v) % 2 ^ 64),
          (.rsubw c 4, 0x0A, fun _ _ p v => (p + (2 ^ 64 - v)) % 2 ^ 64), (.rmulw c 4, 0x0B, fun _ _ p v => p * v % 2 ^ 64),
          (.rmov c 4, 0x0C, fun _ _ p _ => p), (.rmod c 4, 0x0E, fun q _ p _ => p % q)]
          : List (Instr × Nat × (Nat → Nat → Nat → Nat → Nat))) → w % 256 = op →
        Yields cmd s (fun t => only [dn] t ∧ ∀ (i d p v : Nat), (x.r dn)[i]? = some d → (x.r an)[i]? = some p → vb[i]? = some v →
          ((t.eng c 4).r dn)[i]? = some (f (x.modq.get (bits w 28 23) (1, 0)).1 d p v)))
    ∧ (w % 256 = 0x0D → Yields (.rbcast c 4) s (fun t => only [dn] t
          ∧ (t.eng c 4).r dn = List.replicate 16 ((x.r an).getD (bn % 16) 0)))
    ∧ (an ≠ bn → ∀ q mu, x.modq.get? (bits w 28 23) = some (q, mu) → ∀ (i d p v : Nat), (x.r dn)[i]? = some d →
        (x.r an)[i]? = some p → (x.r bn)[i]? = some v →
        (w % 256 = 0x06 → Yields (.rbfly c 4) s (fun t => only [an, bn] t ∧ ((t.eng c 4).r an)[i]? = some ((p + d * v % q) % q)
          ∧ ((t.eng c 4).r bn)[i]? = some ((p + q - d * v % q) % q)))
        ∧ (w % 256 = 0x07 → Yields (.rbflyi c 4) s (fun t => only [an, bn] t ∧ ((t.eng c 4).r an)[i]? = some ((p + v) % q)
          ∧ ((t.eng c 4).r bn)[i]? = some ((p + q - v) * d % q))))
    ∧ (w % 256 = 0x08 → (x.r an).length = 16 → (x.r bn).length = 16 →
      let h := 2 ^ (dn % 4)
      (an ≠ bn → Yields (.rxch c 4) s (fun t => only [an, bn] t ∧ ∀ i < 16,
        ((t.eng c 4).r an)[i]? = some (if i / h % 2 = 1 then (x.r bn).getD (i - h) 0 else (x.r an).getD i 0)
        ∧ ((t.eng c 4).r bn)[i]? = some (if i / h % 2 = 0 then (x.r an).getD (i + h) 0 else (x.r bn).getD i 0)))
      ∧ (an = bn → Yields (.rxch c 4) s (fun t => only [an] t ∧ ∀ i < 16,
        ((t.eng c 4).r an)[i]? = some (if i / h % 2 = 1 then (x.r an).getD (i - h) 0 else (x.r an).getD (i + h) 0))))

/-- R162, R169, R217, R228 to R230: the control slot. A scalar result is taken modulo 2^64 and discarded for s0; sput changes one
lane; the mask operations change one lane mask of the VE; jmp, brz, brnz and loop set the pc by their condition; signal sends one
signal after the writes so far; a wait that has not come holds its whole bundle. -/
def Obligations.BundleControlSyllables : Prop :=
  ∀ (s : State) (c e w : Nat) (r : Running) (b : Bundle), s.Sound → (e = 3 ∨ e = 4) → b.m = none → b.x = none → b.y = none →
    b.c = some w →
    let x := s.eng c e
    let a := x.s (bits w 15 12)
    let n := x.s (bits w 19 16)
    let ext := bits w 27 20
    let seq := r.pc + 8
    let only := fun t : State => t.mem = s.mem ∧ t.eng c e = { x with sreg := (t.eng c e).sreg, vreg := (t.eng c e).vreg,
                                                                      mask := (t.eng c e).mask, run := (t.eng c e).run, asked := [],
                                                                      fetched := [], listed := [] }
    let scalar := fun (d v : Nat) (t : State) => only t ∧ (t.eng c e).vreg = x.vreg ∧ (t.eng c e).mask = x.mask
      ∧ (∀ k, k ≠ d → (t.eng c e).s k = x.s k) ∧ (t.eng c e).s d = (if d = 0 then 0 else v % 2 ^ 64)
    let goes := fun (p : Nat) (t : State) => only t ∧ (t.eng c e).run = some (r.after s.tt p (bit b.hdr 4))
    (s.Issues c e r b →
      (∀ cmd op v, (cmd, op, v) ∈ ([(.smov c e, 0x01, wrapInt 64 b.simm), (.sshl c e, 0x02, a * 2 ^ (b.imm % 64)),
            (.sadd c e, 0x03, a + n), (.saddi c e, 0x04, wrapInt 64 ((a : Int) + b.simm)), (.smul c e, 0x05, a * n),
            (.sget c e, 0x06, (if e = 3 then x.v (ext % 64) else x.r (ext % 64)).getD b.imm 0)] : List (Instr × Nat × Nat)) →
          w % 256 = op → Yields cmd s (fun t => scalar (bits w 11 8) v t ∧ goes seq t))
      ∧ (w % 256 = 0x07 → Yields (.sput c e) s (fun t => only t ∧ goes seq t ∧ (t.eng c e).sreg = x.sreg
            ∧ (∀ k, k ≠ ext % 64 → (t.eng c e).vreg.get? k = x.vreg.get? k)
            ∧ (t.eng c e).vreg.get? (ext % 64)
              = some (if e = 3 then (x.v (ext % 64)).set b.imm (a % 2 ^ 32) else (x.r (ext % 64)).set b.imm a)))
      ∧ (e = 3 →
        (w % 256 = 0x09 → Yields (.mget c e) s (fun t => scalar (bits w 11 8) (x.m (bits w 25 23)) t ∧ goes seq t))
        ∧ ∀ cmd op v, (cmd, op, v) ∈ ([(.mset c e, 0x08, a), (.mand c e, 0x0A, x.m (bits w 25 23) &&& x.m (bits w 28 26)),
              (.mor c e, 0x0B, x.m (bits w 25 23) ||| x.m (bits w 28 26)),
              (.mandn c e, 0x0C, x.m (bits w 25 23) &&& (2 ^ 64 - 1 - x.m (bits w 28 26)))] : List (Instr × Nat × Nat)) →
            w % 256 = op → Yields cmd s (fun t => only t ∧ goes seq t ∧ (t.eng c e).sreg = x.sreg ∧ (t.eng c e).vreg = x.vreg
              ∧ (t.eng c e).m (ext % 8) = v % 2 ^ 64 ∧ ∀ k, k ≠ ext % 8 → (t.eng c e).m k = x.m k))
      ∧ (bit b.hdr 4 = false →
        let target := ((r.pc : Int) + b.simm * 4).toNat
        (w % 256 = 0x10 → Yields (.jmp c e) s (goes target))
        ∧ (w % 256 = 0x11 → Yields (.brz c e) s (goes (if a = 0 then target else seq)))
        ∧ (w % 256 = 0x12 → Yields (.brnz c e) s (goes (if a = 0 then seq else target)))
        ∧ (w % 256 = 0x13 → Yields (.loopInstr c e) s (fun t => goes (if a = 1 then seq else target) t
              ∧ scalar (bits w 15 12) (a + 2 ^ 64 - 1) t)))
      ∧ (w % 256 = 0x18 →
        let g : Signal := { core := c, ctr := ext, n := b.imm, job := none, fromCore := c, fromEng := e, after := x.nextW, chip := none,
                            owner := some r.desc.job }
        (bit w 29 = false → bit w 30 = false → Yields (.bundleSignal c e) s (fun t => goes seq t
            ∧ t.signals = s.signals ++ [if bit w 28 then g else { g with ctr := r.desc.winBase + ext, job := some r.desc.job }]))
        ∧ (bit w 29 = true → bit w 30 = false → bit w 28 = true → Yields (.bundleSignal c e) s (fun t => goes seq t
            ∧ t.signals = s.signals ++ [{ g with core := a % 32 }]))
        ∧ (bit w 29 = false → bit w 30 = true → n % 4096 ≠ s.chipNo → Yields (.bundleSignal c e) s (fun t => goes seq t
            ∧ t.signals = s.signals ++ [{ g with chip := some (n % 4096) }])))
      ∧ (w % 256 = 0x19 → Yields (.bundleWait c e) s (fun t => goes seq t ∧ t.signals = s.signals)))
    ∧ (s.canIssue c e = some r → s.fetchBundle r = .inr b → b.decode e r.desc.winSize = none → w % 256 = 0x19 →
      let q := (if bit w 28 then ext else r.desc.winBase + ext, a % 2 ^ 32)
      waitMet (s.sync c q.1) q.2 = false → Yields (.bundleWait c e) s (fun t => t.mem = s.mem ∧ t.signals = s.signals
        ∧ t.eng c e = { x with run := some { r with wait := some q } } ∧ SameEngines s t c e ∧ SameRegs s t (engRegs c e)))

/-! ### The dispatcher (chapters 10 and 22) -/

/-- R240, R243, R244, R250, R255, R545 to R547: a doorbell inside its ring moves prod, one out of range or on a step ring is
refused, counted and reported. The entry at the head of a ring that is served fails the first check of Table 10-4 that fails and
completes with its status (MALFORMED where it could not be read), or becomes a job with a free tag and a window on each core it
names, its counters 0, or waits where a tag or window is missing; a load is taken up. exec posts the first segment of the job it
admits. A descriptor post moves the job's next segment to the queue of its engine. -/
def Obligations.DoorbellsAdmissionAndPosting : Prop :=
  ∀ (s : State) (r : Nat), s.Sound → r < s.cfg.submitRings → s.islandHeld 52 = false →
    let head := s.get R.HP_SQ_HEAD_head [r]
    let served := s.flag R.DS_SCHED_CTL_en = true ∧ s.flag R.DS_RING_CTL_en [r] = true ∧ s.ds.loads.get? r = none
      ∧ s.isStepRing r = false
    (∀ v, s.hostShut .host = false → v < 2 ^ 16 →
      let ahead := fun x => (x + 2 ^ 16 - head) % 2 ^ 16
      let bad := 2 ^ s.get R.HP_SQ_CFG_log2_len [r] < ahead v ∨ ahead v < ahead (s.get R.HP_SQ_DB_prod [r])
      let refused := fun (cause : Nat) (t : State) => t = { s with regs := t.regs, ev := t.ev }
        ∧ FieldsSet s t [(R.HP_DB_ERR_refused, [], satTo 65535 (s.get R.HP_DB_ERR_refused + 1))]
        ∧ PostedLim s t E.HP_DOORBELL_REFUSED (cause + 4 * r) none [(.ix, r), (.val, v), (.en, cause)]
      (s.isStepRing r = true → Yields (.doorbell r v) s (refused 2))
      ∧ (s.isStepRing r = false → bad → Yields (.doorbell r v) s (refused 1))
      ∧ (s.isStepRing r = false → ¬ bad → Yields (.doorbell r v) s (fun t => t.get R.HP_SQ_DB_prod [r] = v
          ∧ t = { s with regs := t.regs, host := t.host } ∧ SameBut s t [R.HP_SQ_DB.addr [r]])))
    ∧ (served → head = s.get R.HP_SQ_DB_prod [r] → ∀ e, Yields (.groupAdmission r e) s (fun t => t = s)
        ∧ Yields (.exec r e) s (fun t => t = s))
    ∧ (∀ e, served → head ≠ s.get R.HP_SQ_DB_prod [r] → (r, head) ∉ s.ds.skips →
      let g := s.entryAt r head e
      let moved := fun t : State => t.get R.HP_SQ_HEAD_head [r] = (head + 1) % 2 ^ 16 ∧ t.ds.waiting = s.ds.waiting.del r
      let refused := fun (q : Nat) (t : State) => moved t ∧ t.ds.jobs = s.ds.jobs ∧ t.cores = s.cores ∧ t.mem = s.mem
        ∧ t.ds.dones = s.ds.dones ++ [{ group := g, job := 0, admitted := false, adm := 0, deadline := none, busy := 0,
                                        status := q, cause := 0, tt := s.tt }]
        ∧ Posted s t E.GROUP_REFUSED none [(.ix, r), (.num, head), (.en, q)]
        ∧ t.get R.DS_ERR_refused = satTo 65535 (s.get R.DS_ERR_refused + 1)
        ∧ SameBut s t [R.HP_SQ_HEAD.addr [r], R.DS_ERR.off, R.HP_BOOT_STATUS.off]
      let admitted := fun (t : State) (k : Nat) (j : Job) => moved t ∧ k < 4096 ∧ s.ds.jobs.get? k = none
        ∧ t.ds.jobs.get? k = some j ∧ j.group = g ∧ j.lc = (s.ringMode r != 0) ∧ j.adm = s.tt ∧ j.seq = s.ds.seq
        ∧ j.deadline = s.admDeadline g ∧ (∀ i, i ≠ k → t.ds.jobs.get? i = s.ds.jobs.get? i) ∧ t.ds.dones = s.ds.dones
        ∧ t.mem = s.mem ∧ t.ev = s.ev
        ∧ ∀ c < 32, (bit g.cores c = false ∨ g.win16 = 0 → (t.core c).win = (s.core c).win)
          ∧ (bit g.cores c = true → g.win16 ≠ 0 → ∃ i w, (s.core c).win.get? i = none ∧ (t.core c).win.get? i = some w
              ∧ w.job = k ∧ w.size = g.win16 * 16 ∧ w.closing = false ∧ w.base + w.size ≤ 192
              ∧ ∀ n, w.base ≤ n → n < w.base + w.size → t.sync c n = 0)
      (∀ q, s.admissionCheck g = some q → Yields (.groupAdmission r e) s (refused q))
      ∧ (e = true → Yields (.groupAdmission r e) s (refused 5))
      ∧ (s.admissionCheck g = none → g.op ≠ 1 → Yields (.groupAdmission r e) s (fun t => moved t ∧ t.ds.jobs = s.ds.jobs
          ∧ t.ds.loads.get? r = some (g, s.tt) ∧ t = { s with regs := t.regs, ds := t.ds }
          ∧ SameRegs s t [R.HP_SQ_HEAD.addr [r]]))
      ∧ (s.admissionCheck g = none → g.op = 1 →
        let me := (s.ringMode r != 0, (s.admDeadline g).getD 0, g.cores, g.win16)
        (s.hasRoom g = false ∨ s.mustYield g me = true → Yields (.groupAdmission r e) s (fun t =>
            t = { s with ds := { s.ds with waiting := s.ds.waiting.set r me } }))
        ∧ (s.hasRoom g = true → s.mustYield g me = false →
            Yields (.groupAdmission r e) s (fun t => ∃ k j, admitted t k j
              ∧ j.todo = (List.range g.segs.length).zip g.segs ∧ j.inFlight = 0)
            ∧ ∀ sg rest, g.segs = sg :: rest → (∀ j ∈ s.ds.jobs.vals, j.seq < s.ds.seq) →
              let x := s.eng sg.core sg.engine
              (∀ d ∈ x.queue, (s.ds.jobs.get? d.job).isSome = true) → sg.engine < s.cfg.engines → s.coreRuns sg.core = true →
              x.stopped = false → x.queue.length + s.get R.DS_SCHED_CTL_lc_reserve < 64 → 1 ≤ s.get R.DS_SCHED_CTL_seg_ahead →
              Yields (.exec r e) s (fun t => ∃ k j, admitted t k j ∧ (∀ y ∈ j.todo, y.1 ≠ 0)
                ∧ ∃ d ∈ (t.eng sg.core sg.engine).queue, d.job = k ∧ d.segId = 0 ∧ d.codeAddr = sg.codeAddr
                    ∧ d.codeLen = sg.codeLen ∧ d.lc = (s.ringMode r != 0)))))
    ∧ (∀ job j, s.ds.jobs.get? job = some j →
      (j.cancelled = true ∨ j.fault ≠ 0 ∨ j.dropped = true ∨ s.nextToPost job j [] j.todo = none →
        Yields (.descriptorPost job) s (fun t => t = s))
      ∧ (∀ k sg rest, j.cancelled = false → j.fault = 0 → j.dropped = false → j.todo = (k, sg) :: rest →
          s.mayPost job j sg = true → Yields (.descriptorPost job) s (fun t =>
            t.eng sg.core sg.engine
              = { s.eng sg.core sg.engine with queue := (s.eng sg.core sg.engine).queue ++ [s.descOf job j k sg] }
            ∧ SameEngines s t sg.core sg.engine ∧ SameRegs s t (engRegs sg.core sg.engine)
            ∧ t.ds.jobs.get? job = some { j with todo := j.todo.filter (fun y => y.1 ≠ k), inFlight := j.inFlight + 1, stall := none }
            ∧ t = { s with regs := t.regs, cores := t.cores, ds := t.ds })))

/-- R245 to R247, R249, R252, R255, R550, R554: a rank refresh gives each queued descriptor its job's rank, LC jobs 0 to 191 in
deadline order and BE jobs 192 to 255. A recomputation converts each encoder deadline anew, at most the horizon ahead, and reports
one that cannot be converted. A deadline that has passed is reported; under finish the job goes on, under drop what is queued goes
and the group completes. A starved BE ring is reported once. A completed group gets its record in its ring, in the hold store, or
is counted as lost. -/
def Obligations.RanksDeadlinesAndRecords : Prop :=
  ∀ s : State, s.Sound →
    Yields .rankRefresh s (fun t => t.mem = s.mem ∧ t.ev = s.ev ∧ t.ds.jobs = s.ds.jobs ∧ SameBut s t []
        ∧ (∀ c n, t.sync c n = s.sync c n)
        ∧ (∀ c e, t.eng c e = { s.eng c e with
              queue := (s.eng c e).queue.map (fun d =>
                { d with rank := if (s.ds.jobs.get? d.job).any (·.frozen) then d.rank else t.jobRank d.job }) })
        ∧ (∀ k j, s.ds.jobs.get? k = some j → if j.lc then t.jobRank k ≤ 191 else 192 ≤ t.jobRank k ∧ t.jobRank k ≤ 255)
        ∧ (s.ds.jobs.keys.Nodup → ∀ a b i j, s.ds.jobs.get? a = some i → s.ds.jobs.get? b = some j → i.lc = true → j.lc = true →
            i.deadline.getD 0 < j.deadline.getD 0 → t.jobRank a ≤ t.jobRank b))
    ∧ (s.ds.jobs.keys.Nodup → Yields .deadlineRecompute s (fun t => t.mem = s.mem ∧ t.cores = s.cores
        ∧ SameRegs s t [R.HP_BOOT_STATUS.off]
        ∧ ∀ k j, s.ds.jobs.get? k = some j →
          (s.encDeadline j.group = false → t.ds.jobs.get? k = some j)
          ∧ (s.encDeadline j.group = true → ∃ j' d, t.ds.jobs.get? k = some { j with deadline := some d, unconv := j' }
              ∧ d = s.encConvert j.group j.fwd s.tt ∧ d ≤ s.tt + s.get R.DS_HORIZON_horizon_ms * 1000000)))
    ∧ (∀ k j q, s.ds.jobs.cells = [(k, j)] → s.encDeadline j.group = true → s.unconvertible j = some q →
      (q ∉ j.unconv → Yields .deadlineRecompute s (fun t =>
          Posted s t E.DEADLINE_UNCONVERTIBLE none [(.ix, j.group.ring), (.num, j.group.index), (.ix, j.group.dlCh), (.en, q)]))
      ∧ (q ∈ j.unconv → Yields .deadlineRecompute s (fun t => t.ev = s.ev)))
    ∧ (∀ k j d, s.ds.jobs.get? k = some j → s.encDeadline j.group = false → j.deadline = some d →
      (s.tt < d ∨ j.expired = true ∨ j.cancelled = true → Yields (.deadlineExpiry k) s (fun t => t = s))
      ∧ (d ≤ s.tt → j.expired = false → j.cancelled = false →
        let event := fun (p : Nat) (t : State) =>
          Posted s t E.DEADLINE_MISSED none [(.ix, j.group.ring), (.num, j.group.index), (.num, k), (.en, p)]
        let counted := fun t : State => t.get R.DS_ERR_missed = satTo 65535 (s.get R.DS_ERR_missed + 1)
        (s.flag R.DS_RING_CTL_miss_policy [j.group.ring] = true → j.lost = 0 → Yields (.deadlineExpiry k) s (fun t => event 2 t ∧ counted t
            ∧ t.ds.jobs.get? k = some { j with expired := true, dropped := false } ∧ t.cores = s.cores
            ∧ SameBut s t [R.DS_ERR.off, R.HP_BOOT_STATUS.off]))
        ∧ (s.flag R.DS_RING_CTL_miss_policy [j.group.ring] = false ∨ j.lost ≠ 0 → j.inFlight = 0 → j.fault = 0 →
          Yields (.deadlineExpiry k) s (fun t => event 1 t ∧ (s.cores = Tbl.empty → counted t) ∧ t.ds.jobs.get? k = none
            ∧ (∀ c e, ∀ q ∈ (t.eng c e).queue, q.job ≠ k)
            ∧ ∃ f, t.ds.dones = s.ds.dones ++ [f] ∧ f.group = j.group ∧ f.job = k ∧ f.status = 2 ∧ f.tt = s.tt))))
    ∧ (∀ r a posted, s.ds.starve.get? r = some (a, posted) → r ∈ s.beRings →
      let due := a + s.get R.DS_STARVE_starve_ms * 1000000
      (posted = true ∨ s.tt < due → Yields (.beStarveTimeout r) s (fun t => t = s))
      ∧ (posted = false → due ≤ s.tt → Yields (.beStarveTimeout r) s (fun t => FieldsSet s t []
          ∧ Posted s t E.BE_STARVED none [(.ix, r), (.val, (s.tt - a) / 1000000)]
          ∧ t = { s with regs := t.regs, ev := t.ev, ds := { s.ds with starve := s.ds.starve.set r (a, true) } })))
    ∧ (s.ds.dones = [] → Yields .groupCompletion s (fun t => t = s))
    ∧ (∀ d rest, s.ds.dones = d :: rest → d.group.ring < s.cfg.submitRings →
      let r := d.group.ring
      let tail := s.get R.HP_CQ_TAIL_tail [r]
      let rec' : CRec := { ring := r, bytes := doneRecord d }
      let free := s.flag R.HP_CQ_CFG_en [r] = true ∧ s.cqFull r = false ∧ ∀ h ∈ s.host.held, h.ring ≠ r
      let addr := s.pair R.HP_CQ_BASE_LO R.HP_CQ_BASE_HI [r] + 64 * (tail % 2 ^ s.get R.HP_CQ_CFG_log2_len [r])
      let bytes := withPhase (s.get R.HP_CQ_TAIL_phase [r]) rec'.bytes
      (free → Yields .groupCompletion s (fun t => t.host.held = s.host.held
          ∧ t.host.writes = s.host.writes ++ [{ item := .record r, addr := addr, bytes := bytes, tt := s.tt }]
          ∧ rec'.bytes.length = 64
          ∧ (tail + 1 < 2 ^ s.get R.HP_CQ_CFG_log2_len [r] → t.get R.HP_CQ_TAIL_tail [r] = (tail + 1) % 2 ^ 16
              ∧ t.get R.HP_CQ_TAIL_phase [r] = s.get R.HP_CQ_TAIL_phase [r])
          ∧ (2 ^ s.get R.HP_CQ_CFG_log2_len [r] ≤ tail + 1 → t.get R.HP_CQ_TAIL_tail [r] = 0
              ∧ t.get R.HP_CQ_TAIL_phase [r] = 1 - s.get R.HP_CQ_TAIL_phase [r])
          ∧ SameBut s t [R.HP_CQ_TAIL.addr [r]]
          ∧ t = { s with regs := t.regs, host := t.host, ds := { s.ds with dones := rest } }))
      ∧ (¬ free → s.host.held.length < 512 → Yields .groupCompletion s (fun t => t.host.held = s.host.held ++ [rec']
          ∧ t.host.writes = s.host.writes ∧ t.get R.HP_HOLD_used = s.host.held.length + 1 ∧ SameBut s t [R.HP_HOLD.off]
          ∧ t = { s with regs := t.regs, host := t.host, ds := { s.ds with dones := rest } }))
      ∧ (¬ free → 512 ≤ s.host.held.length →
        let n := satTo (2 ^ 32 - 1) (s.get R.HP_CQ_LOST_count [r] + 1)
        Yields .groupCompletion s (fun t => FieldsSet s t [(R.HP_CQ_LOST_count, [r], n)] ∧ t.host = s.host
          ∧ PostedLim s t E.HP_CQ_OVERFLOW r none [(.ix, r), (.val, n)] ∧ t.ds = { s.ds with dones := rest })))

/-- R253, R254, R256: a cancel of a group that has started leaves its running segments and ends it with CANCELLED; of one that has
not, at once with CANCELLED_BEFORE_START; one that finds nothing reports result 3; each posts GROUP_CANCELLED with its origin.
Firmware cancels a frozen job after its delay and not before. A write to DS_RING_CTL is journalled; one that changes the mode of a
ring with admitted groups is refused and reported. -/
def Obligations.CancelsAndRingControl : Prop :=
  ∀ (s : State) (src : Src), s.Sound → s.hostShut src = false → s.islandHeld 52 = false →
    let origin := fun src : Src => if src = .host then 1 else 2
    let nothing := fun (ring index job : Nat) (t : State) => FieldsSet s t [(R.DS_CANCEL_RESULT_result, [], 3)]
      ∧ Posted s t E.GROUP_CANCELLED none [(.ix, ring), (.num, index), (.num, job), (.en, origin src), (.en, 3)]
      ∧ t = { s with regs := t.regs, ev := t.ev }
    let started := fun (src : Src) (k : Nat) (j : Job) (t : State) => t.get R.DS_CANCEL_RESULT_result = 2
      ∧ Posted s t E.GROUP_CANCELLED none [(.ix, j.group.ring), (.num, j.group.index), (.num, k), (.en, origin src), (.en, 2)]
      ∧ (∀ c e, (t.eng c e).run = (s.eng c e).run ∧ ∀ q ∈ (t.eng c e).queue, q.job ≠ k) ∧ t.mem = s.mem
      ∧ (∀ j', t.ds.jobs.get? k = some j' → j'.cancelled = true ∧ j'.todo = [] ∧ j'.group = j.group
          ∧ ∀ c, (t.core c).win = (s.core c).win)
      ∧ (j.inFlight = 0 → t.ds.jobs.get? k = none
          ∧ ∃ f, t.ds.dones = s.ds.dones ++ [f] ∧ f.group = j.group ∧ f.status = 4 ∧ f.tt = s.tt)
    let before := fun (k : Nat) (j : Job) (t : State) => t.get R.DS_CANCEL_RESULT_result = 1 ∧ t.ds.jobs.get? k = none ∧ t.mem = s.mem
      ∧ Posted s t E.GROUP_CANCELLED none [(.ix, j.group.ring), (.num, j.group.index), (.num, k), (.en, origin src), (.en, 1)]
      ∧ ∃ f, t.ds.dones = s.ds.dones ++ [f] ∧ f.group = j.group ∧ f.status = 3 ∧ f.tt = s.tt
    (∀ k, (s.ds.jobs.get? k = none → Yields (.dsCancelJob src k) s (nothing 0 0 k))
      ∧ ∀ j, s.ds.jobs.get? k = some j →
        (j.cancelled = true → Yields (.dsCancelJob src k) s (nothing 0 0 k))
        ∧ (j.cancelled = false → j.started = true ∨ j.frozen = true → Yields (.dsCancelJob src k) s (started src k j)
            ∧ (j.frozen = true → s.ds.frozenMs ≠ 0 → j.frozenTt + s.ds.frozenMs * 1000000 ≤ s.tt →
                Yields (.frozenCancelTimeout k) s (started .fw k j)))
        ∧ (j.cancelled = false → j.started = false → j.frozen = false → Yields (.dsCancelJob src k) s (before k j))
        ∧ (s.ds.frozenMs = 0 ∨ j.frozen = false ∨ s.tt < j.frozenTt + s.ds.frozenMs * 1000000 →
            Yields (.frozenCancelTimeout k) s (fun t => t = s)))
    ∧ (∀ r index all, (∀ g ∈ s.waitingEntries r, all = false ∧ g.index ≠ index) →
      let picked := s.ds.jobs.cells.filter (fun x => x.2.group.ring = r ∧ (all = true ∨ x.2.group.index = index))
      (picked = [] → (∀ g adm, s.ds.loads.get? r = some (g, adm) → all = false ∧ g.index ≠ index) →
        Yields (.dsCancel src r index all) s (nothing r index 0))
      ∧ (picked = [] → ∀ g adm, s.ds.loads.get? r = some (g, adm) → (all = true ∨ g.index = index) →
        Yields (.dsCancel src r index all) s (fun t => t.get R.DS_CANCEL_RESULT_result = 1 ∧ t.ds.loads.get? r = none
          ∧ t.ds.jobs = s.ds.jobs ∧ t.rcp = s.rcp ∧ t.mem = s.mem
          ∧ Posted s t E.GROUP_CANCELLED none [(.ix, g.ring), (.num, g.index), (.num, 0), (.en, origin src), (.en, 1)]
          ∧ ∃ f, t.ds.dones = s.ds.dones ++ [f] ∧ f.group = g ∧ f.status = 3 ∧ f.tt = s.tt))
      ∧ (s.ds.loads.get? r = none → ∀ k j, picked = [(k, j)] → s.ds.jobs.get? k = some j → j.cancelled = false →
        (j.started = true ∨ j.frozen = true → Yields (.dsCancel src r index all) s (started src k j))
        ∧ (j.started = false → j.frozen = false → Yields (.dsCancel src r index all) s (before k j))))
    ∧ (∀ r v, r < s.cfg.submitRings → v < 2 ^ 32 → s.Takes src R.DS_RING_CTL [r] v →
      let old := s.regWord R.DS_RING_CTL [r]
      let new := fieldsWrite old v R.DS_RING_CTL.fields
      let off := R.DS_RING_CTL.addr [r]
      let based := s.get R.HP_SQ_BASE_base [r] < s.cfg.hoardBytes
      (((bits old 3 1 ≠ bits new 3 1 ∨ bits old 31 12 ≠ bits new 31 12) ∧ s.ringBusy r = true)
          ∨ (bit old 0 = false ∧ bit new 0 = true ∧ ¬ based) →
        Yields (.dsRingCtlWrite src r v) s (fun t => t.regWord R.DS_RING_CTL [r] = old ∧ t.ds = s.ds ∧ t.cores = s.cores
          ∧ Journalled s t src 2 causeBlock off old v ∧ PostedFirst s t E.DS_CFG_REFUSED none [(.val, off)]))
      ∧ (s.ringBusy r = false → s.isStepRing r = false → bit old 0 = true ∨ bit new 0 = false ∨ based →
        Yields (.dsRingCtlWrite src r v) s (fun t => t.regWord R.DS_RING_CTL [r] = new ∧ t.ev = s.ev ∧ t.mem = s.mem
          ∧ t.ds.jobs = s.ds.jobs
          ∧ Journalled s t src 0 (if anyOutOfRange v R.DS_RING_CTL.fields then 1 else 0) off old v)))

/-- R42, R43, R171, R265, R268, R443, R547, R549: an image or recipe whose CMAC or format fails is refused, with nothing placed;
one that passes has its section placed byte for byte and nothing else written, its floor kept, and completes OK. A recipe that
fails its checks leaves its slot; one that passes fills it, shows its status and reserves its static counters at 0. An unload
frees slot and counters, and of an empty or running slot is refused. -/
def Obligations.LoadsPlaceAndRegister : Prop :=
  ∀ (s : State) (r : Nat) (g : Group) (adm : Nat), s.Sound → s.ds.loads.get? r = some (g, adm) →
    let a := g.src % 2 ^ 40
    let k := g.rcpSlot
    let ends := fun (status : Nat) (t : State) => t.ds.loads.get? r = none ∧ t.ds.jobs = s.ds.jobs
      ∧ t.ds.dones = s.ds.dones ++ [{ group := g, job := 0, admitted := true, adm := adm, deadline := none, busy := 0,
                                      status := status, cause := 0, tt := s.tt }]
    let refused := fun (status : Nat) (t : State) => ends status t ∧ t.mem = s.mem ∧ t.rcp = s.rcp ∧ t.cores = s.cores
      ∧ t.ds.floors = s.ds.floors ∧ t.get R.DS_ERR_refused = satTo 65535 (s.get R.DS_ERR_refused + 1)
      ∧ ∃ l, t.ev.mgmt = s.ev.mgmt ++ l ++ [{ code := E.GROUP_REFUSED, tt := s.tt,
                                              detail := mkDetail none [(.ix, g.ring), (.num, g.index), (.en, status)] }]
    (g.op = 2 →
      (∀ q, s.imageCheck a g.len g.keySlot = some q → Yields (.imageLoad r) s (fun t => refused 5 t
          ∧ { code := E.IMAGE_AUTH_FAIL, tt := s.tt, detail := mkDetail none [(.wide, a), (.ix, g.keySlot), (.en, q)] } ∈ t.ev.mgmt))
      ∧ (s.imageCheck a g.len g.keySlot = none →
        let n := g.len - 16
        (s.imgHeaderOk a n 1 = false → Yields (.imageLoad r) s (refused 5))
        ∧ (s.imgHeaderOk a n 1 = true → s.findVariant a = none → Yields (.imageLoad r) s (refused 12))
        ∧ (∀ v, s.imgHeaderOk a n 1 = true → s.findVariant a = some v → s.variantOk v n 1 = true → s.readLe (v + 10) 2 = 1 →
          let x := s.sectionAt (a + s.readLe (v + 12) 4) n
          (x.ok = false ∨ s.destsOk [x] = false → Yields (.imageLoad r) s (refused 5))
          ∧ (x.ok = true → s.destsOk [x] = true → 0x80000 ≤ a → Yields (.imageLoad r) s (fun t => ends 0 t ∧ t.ev = s.ev
              ∧ (∀ i < x.len, t.mem.read (x.dest + i) = if x.zero then 0#8 else s.mem.read (a + x.ofs + i))
              ∧ (∀ o, o < x.dest ∨ x.dest + x.len ≤ o → t.mem.read o = s.mem.read o)
              ∧ t.ds.floors = s.ds.floors.set s.nextFloor (s.readLe (v + 8) 2)
              ∧ ∀ c < s.cfg.cores, t.get R.EM_CORE_TGT_floor_code [c] = (t.floorMhz + 24) / 25 % 2 ^ 7)))))
    ∧ (g.op ≠ 2 → Yields (.imageLoad r) s (fun t => t = s))
    ∧ (g.op = 3 → ∀ d,
      ((s.rslot k).recipe.isSome = true → Yields (.recipeLoad r d) s (refused 5))
      ∧ ((s.rslot k).recipe = none → k < 16 → (s.loadImage g 2).2.1 = 0 →
        let u := (s.loadImage g 2).1
        (∀ q, u.recipeCheck d = some q → Yields (.recipeLoad r d) s (fun t => ends q t ∧ t.rcp = s.rcp ∧ t.cores = s.cores
            ∧ t.mem = u.mem ∧ Posted s t E.GROUP_REFUSED none [(.ix, g.ring), (.num, g.index), (.en, q)]))
        ∧ (u.recipeCheck d = none → Yields (.recipeLoad r d) s (fun t => ends 0 t ∧ t.ev = s.ev ∧ t.mem = u.mem
            ∧ (t.rslot k).recipe = some d ∧ (t.rslot k).parts = [] ∧ (∀ i, i ≠ k → t.rslot i = s.rslot i)
            ∧ t.get R.DS_RCP_STATUS_loaded [k] = 1 ∧ t.get R.DS_RCP_STATUS_owner [k] = b2n (d.owner == s.chipNo)
            ∧ ∀ x ∈ heldStatics d, t.sync x.1 x.2 = 0 ∧ (t.core x.1).statics.get? x.2 = some k))))
    ∧ (g.op = 4 →
      (((s.rslot k).recipe = none ∨ s.flag R.DS_RCP_CTL_run [k] = true ∨ (s.rslot k).parts ≠ []) →
        Yields (.recipeUnload r) s (refused 5))
      ∧ ((s.rslot k).recipe.isSome = true → s.flag R.DS_RCP_CTL_run [k] = false → (s.rslot k).parts = [] → k < 16 →
        Yields (.recipeUnload r) s (fun t => ends 0 t ∧ t.rcp.get? k = none ∧ (∀ i, i ≠ k → t.rcp.get? i = s.rcp.get? i)
          ∧ t.ev = s.ev ∧ t.mem = s.mem ∧ t.regWord R.DS_RCP_STATUS [k] = 0 ∧ t.ds.floors.get? k = none
          ∧ (∀ c n, (t.core c).statics.get? n ≠ some k)
          ∧ ∀ c n i, i ≠ k → (s.core c).statics.get? n = some i → (t.core c).statics.get? n = some i)))

/-! ### The batch builder (chapter 11) -/

/-- R266 to R275, R290: DS_RCP_CTL is journalled, and run is refused while loaded reads 0. A step triggers when every pipeline has a strip, or
step_wait_us after the first, then reporting the missing one; the owner takes the strips and puts its detect group on the step ring,
a peer awaits its marks. Marks are applied once the detect group has ended: an open mark opens a part in the lowest free slot with
the next ordinal and its line's stamps, a close mark closes it, a bad one is refused and reported; then the infer group is put on
the ring. A peer builds with its batch, or without it after mark_wait_us; a batch that comes late is counted and reported. -/
def Obligations.StepsTriggerAndMarksApply : Prop :=
  ∀ (s : State) (n : Nat), s.Sound → n < 16 →
    (∀ src v, v < 2 ^ 32 → s.Takes src R.DS_RCP_CTL [n] v →
      let old := s.regWord R.DS_RCP_CTL [n]
      let new := fieldsWrite old v R.DS_RCP_CTL.fields
      let off := R.DS_RCP_CTL.addr [n]
      (bit new 0 = true → s.flag R.DS_RCP_STATUS_loaded [n] = false → Yields (.rcpRunWrite src n v) s (fun t =>
          t.regWord R.DS_RCP_CTL [n] = old ∧ t.rcp = s.rcp ∧ t.ds = s.ds ∧ Journalled s t src 2 causeBlock off old v
          ∧ PostedFirst s t E.DS_CFG_REFUSED none [(.val, off)]))
      ∧ (bit new 0 = true → s.flag R.DS_RCP_STATUS_loaded [n] = true → Yields (.rcpRunWrite src n v) s (fun t =>
          t.regWord R.DS_RCP_CTL [n] = new ∧ t.ds = s.ds ∧ t.ev = s.ev ∧ t.mem = s.mem
          ∧ Journalled s t src 0 (if anyOutOfRange v R.DS_RCP_CTL.fields then 1 else 0) off old v)))
    ∧ (∀ r d, s.rcp.get? n = some r → r.recipe = some d →
      let owner := s.ownsRecipe d
      let open_ := r.phase = .idle ∧ (s.flag R.DS_RCP_CTL_run [n] = true ∨ r.parts ≠ [])
      let grouped := fun (kind deadline : Nat) (segs : List ProgSeg) (t : State) => ∃ g, t.ds.steps = s.ds.steps ++ [g]
        ∧ g.ring = d.stepRing ∧ g.step = some (n, 2 * (t.rslot n).k + kind) ∧ g.dlKind = 1 ∧ g.dlTt = deadline ∧ g.op = 1
        ∧ g.ringWork = false ∧ ∀ x ∈ segs, x ∈ g.segs
      let inferred := fun t : State => (t.rslot n).phase = .infer ∧ (t.rslot n).k = r.k ∧ (∀ i, i ≠ n → t.rslot i = s.rslot i)
        ∧ grouped 1 (r.tk + meanPeriod r.starts * d.stepDlPct / 100) d.infer t
      (s.stepDue n r d = false → Yields (.stepTrigger n) s (fun t => t = s))
      ∧ (∀ x : StripIn, open_ → r.strips = [x] → pipesOf d = [x.pipe] → x.lost = 0 → x.resumed = false →
        Yields (.stepTrigger n) s (fun t => t.ev = s.ev ∧ t.get R.DS_RCP_STEP_step [n] = (r.k + 1) % 2 ^ 32
          ∧ SameRegs s t [R.DS_RCP_STEP.addr [n]]
          ∧ t.rslot n = { r with k := r.k + 1, tk := s.tt, strips := [], taken := [x], starts := (x.ttFirst :: r.starts).take 9,
                                 missed := [], ended := none, lastTt := r.lastTt.set x.pipe x.ttFirst, dropped := false,
                                 phase := if owner then .detect else .marks }
          ∧ (owner = true → grouped 0 (s.tt + 50000) d.detect t) ∧ (owner = false → t.ds = s.ds ∧ t.mem = s.mem)))
      ∧ (∀ (x : StripIn) q, open_ → r.strips = [x] → pipesOf d = [x.pipe, q] → q ≠ x.pipe → x.lost = 0 → x.resumed = false →
        (s.tt < x.prodTt + d.stepWaitUs * 1000 → Yields (.stepTrigger n) s (fun t => t = s))
        ∧ (x.prodTt + d.stepWaitUs * 1000 ≤ s.tt → Yields (.stepTrigger n) s (fun t => (t.rslot n).taken = [x]
            ∧ (t.rslot n).missed = [q] ∧ PostedLim s t E.STEP_INPUT 1 (some n) [(.num, r.k + 1), (.ix, q), (.en, 1)])))
      ∧ (∀ ctx, r.phase ≠ .detect ∨ s.stepOver n r 0 = false → Yields (.marksApply n ctx) s (fun t => t = s))
      ∧ (r.phase = .detect → r.ended = some 0 → r.ctxq = [] →
        (s.readMarks n r.k = [] → Yields (.marksApply n []) s (fun t => inferred t ∧ t.ev = s.ev ∧ (t.rslot n).nextOrdinal = r.nextOrdinal))
        ∧ ∀ w, s.readMarks n r.k = [w] →
          let kind := w % 4
          let h := bits w 23 8
          let lo := bits w 39 32
          let hi := bits w 47 40
          let plain := bits w 7 2 = 0 ∧ bits w 31 28 = 0 ∧ bits w 127 80 = 0
          let isOpen := ∃ p ∈ r.parts, p.handle = h ∧ p.stage = .active
          let bad := fun (cause : Nat) (t : State) => inferred t ∧ (t.rslot n).nextOrdinal = r.nextOrdinal
            ∧ PostedLim s t E.MARK_REFUSED cause (some n) [(.num, r.k), (.num, h), (.en, cause)]
          (kind = 0 ∨ kind = 3 ∨ ¬ plain → Yields (.marksApply n []) s (bad 1))
          ∧ (kind = 1 → plain → isOpen → Yields (.marksApply n []) s (bad 2))
          ∧ (kind = 2 → plain → ¬ isOpen → Yields (.marksApply n []) s (bad 3))
          ∧ (kind = 1 → plain → ¬ isOpen → bit d.pipes lo = false ∨ bit d.pipes hi = false → Yields (.marksApply n []) s (bad 4))
          ∧ (∀ i, kind = 1 → plain → ¬ isOpen → bit d.pipes lo = true → bit d.pipes hi = true → s.flag R.DS_RCP_CTL_run [n] = true →
              i < d.maxParts → (∀ p ∈ r.parts, p.slot ≠ some i) → (∀ j < i, ∃ p ∈ r.parts, p.slot = some j) →
              Yields (.marksApply n []) s (fun t => inferred t ∧ (t.rslot n).nextOrdinal = r.nextOrdinal + 1
                ∧ ∃ p ∈ (t.rslot n).parts, p.ordinal = r.nextOrdinal ∧ p.handle = h ∧ p.slot = some i ∧ p.stage = .active
                  ∧ p.gen = (r.gens.get i 0 + 1) % 2 ^ 32 ∧ p.pipeLo = lo ∧ p.pipeHi = hi ∧ p.close = none
                  ∧ (p.openTt, p.openCnt) = lineStamp (markStrip r.taken lo) (bits w 27 24)))
          ∧ (∀ p ∈ r.parts, kind = 2 → plain → p.handle = h → p.stage = .active → Yields (.marksApply n []) s (fun t => inferred t
                ∧ ∃ q ∈ (t.rslot n).parts, q.ordinal = p.ordinal ∧ q.stage = .closing
                  ∧ q.close = some (lineStamp (markStrip r.taken ((s.partPipes d p).headD 0)) (bits w 27 24)))))
      ∧ (∀ (b : MarkBatch) ctx,
        (owner = true → Yields (.markBatchReceived n b ctx) s (fun t => t = s))
        ∧ (owner = false → b.step = r.k → r.phase = .marks → Yields (.markBatchReceived n b ctx) s inferred)
        ∧ (owner = false → r.k < b.step → Yields (.markBatchReceived n b ctx) s (fun t =>
            t = s.setRslot n { r with batches := r.batches ++ [b], lateSteps := r.lateSteps.filter (· ≠ b.step) }))
        ∧ (owner = false → b.step < r.k → b.step ∈ r.lateSteps → Yields (.markBatchReceived n b ctx) s (fun t =>
            (t.rslot n).batches = r.batches ++ [b]
            ∧ FieldsSet s t [(R.DS_RCP_ERR_marks_late, [n], satTo 255 (s.get R.DS_RCP_ERR_marks_late [n] + 1))]
            ∧ PostedLim s t E.MARKS_LATE 0 (some n) [(.num, b.step), (.num, d.owner)])))
      ∧ (∀ ctx,
        (r.phase ≠ .marks → Yields (.markWaitTimeout n ctx) s (fun t => t = s))
        ∧ (r.batches = [] → s.tt < r.tk + d.markWaitUs * 1000 → Yields (.markWaitTimeout n ctx) s (fun t => t = s))
        ∧ (r.phase = .marks → r.batches = [] → r.tk + d.markWaitUs * 1000 ≤ s.tt → Yields (.markWaitTimeout n ctx) s (fun t =>
            inferred t ∧ (t.rslot n).lateSteps = r.lateSteps ++ [r.k]))))

/-- R266, R271, R279, R281 to R285, R293: at the end of the infer group the strips are released, a part's tokens are taken up, and a
closing part decides on the owner and ends with PASS on a peer. A verdict word is written to its cell; with the wrong gen, a code
that is not 0, 1 or 5, or a word before it, it is ignored and reported; an early one is kept; one for a deciding part ends the part
with its code. A part whose deadline has come ends with its word's code, or with DEFAULT_DEADLINE: counted, reported and recorded,
the record waiting while its decide segments run; a stopped recipe whose last part so ends releases the strips that wait. -/
def Obligations.PartsAreDecidedAndRecorded : Prop :=
  ∀ (s : State) (n : Nat) (r : RcpSlot) (d : RecipeDesc), s.Sound → n < 16 → s.rcp.get? n = some r → r.recipe = some d →
    let owner := s.ownsRecipe d
    let room := s.flag R.HP_CQ_CFG_en [d.partRing] = false ∧ s.host.held.length < 512
    let recorded := fun (p : Part) (code reason : Nat) (t : State) => t.host.writes = s.host.writes
      ∧ t.host.held = s.host.held ++ [{ ring := d.partRing, bytes := partRecord n (!owner) false p code reason }]
    (r.phase ≠ .infer ∨ s.stepOver n r 1 = false → Yields (.inferGroupEnd n) s (fun t => t = s))
    ∧ (r.phase = .infer → r.ended = some 1 → r.dropped = false → r.lateSteps = [] → s.flag R.DS_RCP_CTL_run [n] = true →
      (∀ x, r.taken = [x] → x.pipe < 32 → r.parts = [] → Yields (.inferGroupEnd n) s (fun t => t = { s with regs := t.regs, rcp := t.rcp }
          ∧ FieldsSet s t [(R.PP_CONS_seq, [x.pipe], (x.seq + 1) % 2 ^ 32)]
          ∧ t.rslot n = { r with parts := [], phase := .idle, taken := [], ended := none, missed := [] }))
      ∧ (∀ p, r.taken = [] → r.parts = [p] → p.owed = none →
        let took := fun q : Part => q.ordinal = p.ordinal ∧ q.slot = p.slot ∧ q.tokPos = p.tokPos + p.stepStrip + p.stepCtx
          ∧ q.stripTok = p.stripTok + p.stepStrip ∧ q.ctxTok = p.ctxTok + p.stepCtx
        let good := p.slot.isSome = true ∧ p.replaced ≤ d.tolLines ∧ p.inputFailed = false ∧ p.overlength = false
          ∧ (d.ctxRequired = false ∨ p.ctx.isSome = true)
        (p.stage ≠ .closing → Yields (.inferGroupEnd n) s (fun t => ∃ q, (t.rslot n).parts = [q] ∧ took q ∧ q.stage = p.stage
            ∧ t.ev = s.ev ∧ t.host = s.host ∧ t.regs = s.regs))
        ∧ (p.stage = .closing → good → owner = true → p.word = none → Yields (.inferGroupEnd n) s (fun t => ∃ q,
            (t.rslot n).parts = [q] ∧ took q ∧ q.stage = .deciding ∧ t.ev = s.ev ∧ t.host = s.host))
        ∧ (p.stage = .closing → good → owner = false → p.close.isSome = true → room → Yields (.inferGroupEnd n) s (fun t =>
            (t.rslot n).parts = [] ∧ t.ev = s.ev ∧ ∃ q, took q ∧ recorded q 0 0 t))))
    ∧ (∀ i w, w < 2 ^ 64 → 0x80000 ≤ d.slotBase →
      let landed := fun t : State => t.readLe (verdictCell d i) 8 = w
        ∧ ∀ o, verdictCell d i > o ∨ verdictCell d i + 8 ≤ o → t.mem.read o = s.mem.read o
      (d.maxParts ≤ i ∨ owner = false → Yields (.verdictWordWrite n i w) s (fun t => t = s))
      ∧ (i < d.maxParts → owner = true →
        ((∀ p ∈ r.parts, p.slot ≠ some i) → (∀ x ∈ r.spent, x.1 ≠ i) → Yields (.verdictWordWrite n i w) s (fun t => landed t
            ∧ t = { s with mem := t.mem, badWords := t.badWords }))
        ∧ ∀ p, r.parts = [p] → p.slot = some i →
          let ignored := fun (cause : Nat) (t : State) => landed t ∧ (t.rslot n).parts = [{ p with ignored := true }]
            ∧ PostedLim s t E.VERDICT_WORD_IGNORED cause (some n) [(.ix, i), (.en, cause)] ∧ t.host = s.host ∧ t.au = s.au
          let ok := w / 2 ^ 32 = p.gen ∧ (w % 8 = 0 ∨ w % 8 = 1 ∨ w % 8 = 5)
          (w / 2 ^ 32 ≠ p.gen → Yields (.verdictWordWrite n i w) s (ignored 1))
          ∧ (w / 2 ^ 32 = p.gen → w % 8 ≠ 0 → w % 8 ≠ 1 → w % 8 ≠ 5 → Yields (.verdictWordWrite n i w) s (ignored 2))
          ∧ (ok → p.word.isSome = true → Yields (.verdictWordWrite n i w) s (ignored 3))
          ∧ (ok → p.word = none → d.peers = [] → p.owed = none → s.partExpired d p = false →
            (p.stage ≠ .deciding → Yields (.verdictWordWrite n i w) s (fun t => landed t
              ∧ t.rcp = s.rcp.set n { r with parts := [{ p with word := some w }] } ∧ t.ev = s.ev ∧ t.host = s.host ∧ t.au = s.au))
            ∧ (p.stage = .deciding → w % 8 = 0 → p.close.isSome = true → room → Yields (.verdictWordWrite n i w) s (fun t => landed t
              ∧ recorded { p with word := some w } 0 0 t ∧ (t.rslot n).parts = [] ∧ (t.rslot n).spent = (i, p.gen) :: r.spent
              ∧ t.ev = s.ev ∧ t.au = s.au)))))
    ∧ (∀ p, r.parts = [p] →
      (s.partExpired d p = false ∨ p.owed.isSome = true → Yields (.partDeadlineExpiry n p.ordinal) s (fun t => t = s))
      ∧ (s.partExpired d p = true → p.owed = none → p.slot.isSome = true → owner = true → d.peers = [] → d.defaultEject = false → room →
        let q := s.deadlineReason d p
        (p.word = none → p.inDecide = false → (∀ x ∈ r.strips, x.pipe < 32) → Yields (.partDeadlineExpiry n p.ordinal) s (fun t =>
            recorded (forcedEnd d p) 2 q t ∧ (t.rslot n).parts = [] ∧ t.au = s.au ∧ t.mem = s.mem
            ∧ (s.flag R.DS_RCP_CTL_run [n] = false → r.phase = .idle → ∀ x, r.strips = [x] → (t.rslot n).strips = []
                ∧ t.get R.PP_CONS_seq [x.pipe] = (x.seq + 1) % 2 ^ 32)
            ∧ PostedLim s t E.PART_DEFAULT (16 + q) (some n) [(.wide, p.ordinal), (.en, 2), (.en, q)]
            ∧ t.get R.DS_RCP_ERR_deadline [n] = satTo 255 (s.get R.DS_RCP_ERR_deadline [n] + 1)))
        ∧ (p.word = none → p.inDecide = true → Yields (.partDeadlineExpiry n p.ordinal) s (fun t =>
            t = s.setRslot n { r with parts := [{ forcedEnd d p with owed := some (q, false) }] }))
        ∧ (∀ w, p.word = some w → p.late = false → w % 8 = 0 → Yields (.partDeadlineExpiry n p.ordinal) s (fun t =>
            recorded (forcedEnd d p) 0 0 t ∧ (t.rslot n).parts = [] ∧ t.ev = s.ev ∧ t.au = s.au))))

/-! ### The actuation unit (chapter 12) -/

/-- R295 to R303, R305, R308: a post is refused with status 7, 4, 5 or 6 (unit off, bad, output off, channel off), 2 (late) or 3
(table full), counted and reported, with nothing changed in the unit; one ahead of its trigger takes the lowest free entry, in its
guard when its count is near; one late within the limit fires at once. A count or TT trigger fires when it has come and not before;
a prediction fires a disagreeing entry whose estimate has reached the trigger while the channel runs. Firing makes the output
active and counts the actuation. -/
def Obligations.PostsAndTriggersFire : Prop :=
  ∀ s : State, s.Sound →
    let fired := fun (e : AuEntry) (from_ : Nat) (i : Nat) (t : State) =>
      let o := postOut e.post
      t.au.table.get? i = some { e with state := .firing, anchor := none, start := s.tt, base := from_,
                                        stop := from_ + postWidth e.post * 1000,
                                        minOn := s.get R.AU_OUT_CFG_min_on_us [o] * 1000,
                                        maxOn := s.get R.AU_OUT_CFG_max_on [o] * 10000000,
                                        gap := s.get R.AU_OUT_CFG_min_gap_us [o] * 1000 }
      ∧ (t.out o).active = true ∧ (∀ k, k ≠ o → t.out k = s.out k) ∧ t.mem = s.mem
      ∧ (o < s.cfg.actOutputs → (s.out o).active = false → (s.out o).lastEnd = none →
          t.pair R.AU_WEAR_LO R.AU_WEAR_HI [o] = (s.pair R.AU_WEAR_LO R.AU_WEAR_HI [o] + 1) % 2 ^ 48
          ∧ (t.out o).level = s.flag R.AU_OUT_CFG_active_high [o]
          ∧ (o < 32 → bit (t.get R.AU_OUT_STATE_LO_active) o = true)
          ∧ (32 ≤ o → bit (t.get R.AU_OUT_STATE_HI_active) (o - 32) = true))
      ∧ (o < s.cfg.actOutputs → (s.out o).active = true → t.get R.AU_ERR_merged = satTo 255 (s.get R.AU_ERR_merged + 1))
    (s.hostShut .host = true → ∀ w7, Yields (.auPostSubmit w7) s (fun t => t.au = s.au
        ∧ FieldsSet s t [(R.HP_ERR_abandoned, [], satTo 65535 (s.get R.HP_ERR_abandoned + 1))]))
    ∧ (s.hostShut .host = false → s.islandHeld 53 = true → ∀ w7, Yields (.auPostSubmit w7) s (fun t => t = s)
        ∧ Yields (.auMpostSubmit w7) s (fun t => t = s))
    ∧ (s.hostShut .host = false → s.islandHeld 53 = false → ∀ w7, w7 < 2 ^ 32 → ∀ cmd src reg fs fe,
      (cmd, src, reg, fs, fe) ∈ ([(.auPostSubmit w7, 1, R.AU_POST, R.AU_POST_STATUS_status, R.AU_POST_STATUS_entry),
        (.auMpostSubmit w7, 2, R.AU_MPOST, R.AU_MPOST_STATUS_status, R.AU_MPOST_STATUS_entry)]
        : List (Instr × Nat × RegSpec × Fld × Fld)) →
      let p := (List.range 7).foldl (fun a k => a + s.regWord reg [k] * 2 ^ (32 * k)) 0 + w7 * 2 ^ 224
      let o := postOut p
      let ch := postCh p
      let own := [reg.addr [7], fs.reg.off]
      let refused := fun (st : Nat) (t : State) => t.get fs = st ∧ t.get fe = 0 ∧ t.au = s.au ∧ t.mem = s.mem
        ∧ SameRegs s t (own ++ [R.AU_ERR.off, R.HP_BOOT_STATUS.off])
      let said := fun (st : Nat) (t : State) => PostedLim s t E.POST_REFUSED (st * 4 + src) (some o)
        [(.en, src + 1), (.num, 0), (.en, st)] ∧ t.get R.AU_ERR_discarded = satTo 255 (s.get R.AU_ERR_discarded + 1)
      let valid := s.flag R.AU_CTL_en = true ∧ postBad s p = false ∧ s.flag R.AU_OUT_CFG_en [o] = true
        ∧ (postKind p = 1 → s.chOn ch = true)
      let fwd := !s.flag R.PU_STATUS_dir_valid [ch] || s.flag R.PU_STATUS_dir [ch]
      let e : AuEntry := { post := p, state := .armed, source := src, chip := 0, acc := s.tt, fwd := fwd, anchor := none,
                           start := 0, base := 0, stop := 0, minOn := 0, maxOn := 0, gap := 0, cut := false }
      (s.flag R.AU_CTL_en = false → Yields cmd s (fun t => refused 7 t ∧ said 7 t))
      ∧ (s.flag R.AU_CTL_en = true → postBad s p = true → Yields cmd s (fun t => refused 4 t ∧ said 4 t))
      ∧ (s.flag R.AU_CTL_en = true → postBad s p = false → s.flag R.AU_OUT_CFG_en [o] = false →
          Yields cmd s (fun t => refused 5 t ∧ said 5 t))
      ∧ (s.flag R.AU_CTL_en = true → postBad s p = false → s.flag R.AU_OUT_CFG_en [o] = true → postKind p = 1 → s.chOn ch = false →
          Yields cmd s (fun t => refused 6 t ∧ said 6 t))
      ∧ (valid →
        let ahead_ := (postKind p = 2 ∧ s.tt < postTrig p) ∨ (postKind p = 1 ∧ 0 < ahead fwd (postTrig p) (s.ch ch).cnt)
        (ahead_ → s.au.table.lowestFree s.cfg.eventTable = none → Yields cmd s (refused 3))
        ∧ (∀ i, ahead_ → s.au.table.lowestFree s.cfg.eventTable = some i →
          let near := postKind p = 1 ∧ s.flag R.AU_GUARD_en [ch] = true
            ∧ ahead fwd (postTrig p) (s.ch ch).cnt ≤ s.get R.AU_GUARD_guard_cnt [ch]
          let taken := fun (e' : AuEntry) (t : State) => t.get fs = 0 ∧ t.get fe = i ∧ t.ev = s.ev
            ∧ t.au = { s.au with table := s.au.table.set i e' } ∧ SameRegs s t (own ++ [R.AU_STATUS.off])
          (¬ near → Yields cmd s (taken e))
          ∧ (near → Yields cmd s (taken { e with state := .guard, anchor := some (s.anchorNow ch) })))
        ∧ (postKind p = 2 → postTrig p ≤ s.tt →
          let late := s.tt - postTrig p
          let onFor := min (max (postWidth p * 1000) (s.get R.AU_OUT_CFG_min_on_us [o] * 1000)) (s.get R.AU_OUT_CFG_max_on [o] * 10000000)
          let tooLate := postNoLate p = true ∨ postTrig p + onFor ≤ s.tt ∨ s.get R.AU_OUT_LATE_late_us [o] * 1000 < late
          (tooLate → Yields cmd s (fun t => refused 2 t
              ∧ (¬ s.Recent E.POST_REFUSED (8 + src) (some o) →
                  PostedFirst s t E.POST_REFUSED (some o) [(.en, src + 1), (.num, 0), (.en, 2)])))
          ∧ (∀ i, ¬ tooLate → s.au.table.lowestFree s.cfg.eventTable = some i → Yields cmd s (fun t => t.get fs = 1 ∧ t.get fe = i
              ∧ fired e (postTrig p) i t ∧ (∀ k, k ≠ i → t.au.table.get? k = s.au.table.get? k)
              ∧ (s.get R.AU_WEAR_WARN_warn [o] = 0 → PostedLim s t E.EVENT_LATE 0 (some o) [(.val, late), (.wide, postTag p)]))))))
    ∧ (∀ i e, s.au.table.get? i = some e →
      let o := postOut e.post
      let ch := postCh e.post
      let others := fun t : State => (∀ k, k ≠ i → t.au.table.get? k = s.au.table.get? k)
        ∧ (e.state ≠ .disagreeing → s.get R.AU_WEAR_WARN_warn [o] = 0 → t.ev = s.ev)
      (∀ cmd (due : Prop), (cmd, due) ∈ ([(.countTriggerFire i, e.isPending = true ∧ postKind e.post = 1 ∧ entryAhead s e ≤ 0),
          (.ttTriggerFire i, e.isPending = true ∧ postKind e.post = 2 ∧ postTrig e.post ≤ s.tt)] : List (Instr × Prop)) →
        (due → Yields cmd s (fun t => fired e s.tt i t ∧ others t)) ∧ (¬ due → Yields cmd s (fun t => t = s)))
      ∧ (∀ a, e.state = .disagreeing → e.anchor = some a → postKind e.post = 1 → s.flag R.AU_GUARD_en [ch] = true →
          a.v = (s.ch ch).speed → s.flag R.PU_STATUS_standstill [ch] = false →
        let go := s.approachMatches e = true ∧ 0 < entryAhead s e ∧ predAhead e a s.tt ≤ 0
        (go → Yields (.predictionTriggerFire i) s (fun t => fired e s.tt i t
            ∧ (s.get R.AU_WEAR_WARN_warn [o] = 0 → PostedLim s t E.POSITION_DISAGREE 2 (some ch)
                [sval (predError e a (s.ch ch).cnt s.tt), (.en, 2), (.wide, postTag e.post)])))
        ∧ (¬ go → Yields (.predictionTriggerFire i) s (fun t => t.au.table.get? i = some e ∧ t.au.outs = s.au.outs
            ∧ t = { s with au := t.au })))
      ∧ (e.isPending = true → postKind e.post = 1 → s.flag R.AU_GUARD_en [ch] = false → Yields (.predictionTriggerFire i) s (fun t =>
          t.au.table.get? i = some { e with state := .armed, anchor := none } ∧ t.au.outs = s.au.outs ∧ t = { s with au := t.au })))
    ∧ (∀ i, s.au.table.get? i = none → ∀ c ∈ [Instr.countTriggerFire i, .ttTriggerFire i, .predictionTriggerFire i],
        Yields c s (fun t => t = s))

/-- R300, R304, R306, R307, R310, R311, R313: a pulse that is over frees its entry and idles its output, whose on-time grows, unless
another pulse runs on it; before that nothing changes. A pulse at its greatest length is cut and reported, a gap without its entry
ends. A cancel frees a pending entry (result 1), ends a running pulse at its least length or now (2), or finds nothing (3). An entry
older than expire_s is discarded and reported. Setting AU_CTL.en drives ACT_OE, clearing it ends every pulse and discards every
entry; clearing an output's en does so for that output; a field out of range is reported. -/
def Obligations.PulsesEndAndCancels : Prop :=
  ∀ s : State, s.Sound →
    (∀ i e, s.au.table.get? i = some e →
      let o := postOut e.post
      let x := s.out o
      let freed := fun t : State => t.au.table.get? i = none ∧ (∀ k, k ≠ i → t.au.table.get? k = s.au.table.get? k) ∧ t.mem = s.mem
      let idle := fun t : State => (t.out o).active = false ∧ (t.out o).bridge = none ∧ (t.out o).lastEnd = some s.tt
        ∧ (∀ k, k ≠ o → t.out k = s.out k)
        ∧ (x.active = true → o < s.cfg.actOutputs → t.get R.AU_ONTIME_ms [o]
            = (s.get R.AU_ONTIME_ms [o] + (x.onNs + (s.tt - x.onTt)) / 1000000) % 2 ^ 32)
      let alone := ∀ k q, (k, q) ∈ s.au.table.cells → k ≠ i → ¬ (q.state = .firing ∧ postOut q.post = o)
      let shared := ∃ k q, (k, q) ∈ s.au.table.cells ∧ k ≠ i ∧ q.state = .firing ∧ postOut q.post = o
      (e.isPending = false → s.pulseOver e = true →
        (alone → e.gap = 0 → Yields (.pulseEnd i) s (fun t => freed t ∧ idle t ∧ t.ev = s.ev))
        ∧ (shared → Yields (.pulseEnd i) s (fun t => freed t ∧ t.au.outs = s.au.outs ∧ t.ev = s.ev)))
      ∧ (e.isPending = true ∨ s.pulseOver e = false → Yields (.pulseEnd i) s (fun t => t = s))
      ∧ (e.isPending = true ∨ s.tt < e.base + e.maxOn → Yields (.pulseTruncated i) s (fun t => t = s))
      ∧ (e.isPending = false → e.base + e.maxOn ≤ s.tt → alone → e.gap = 0 → Yields (.pulseTruncated i) s (fun t => freed t ∧ idle t
          ∧ PostedLim s t E.PULSE_TRUNCATED 0 (some o) [(.val, e.maxOn / 1000000), (.wide, postTag e.post)]))
      ∧ (s.islandHeld 53 = true → ∀ all, Yields (.auCancel i all) s (fun t => t = s))
      ∧ (e.isPending = true → s.islandHeld 53 = false → Yields (.auCancel i false) s (fun t => freed t ∧ t.au.outs = s.au.outs
          ∧ t.get R.AU_CANCEL_RESULT_result = 1 ∧ t.ev = s.ev))
      ∧ (e.isPending = false → s.islandHeld 53 = false → s.tt < e.start + e.minOn → s.pulseOver e = false → Yields (.auCancel i false) s (fun t => t.get R.AU_CANCEL_RESULT_result = 2
          ∧ t.au = { s.au with table := s.au.table.set i { e with stop := e.start + e.minOn, cut := true } }))
      ∧ (e.isPending = false → s.islandHeld 53 = false → e.start + e.minOn ≤ s.tt ∨ s.pulseOver e = true → alone → e.gap = 0 →
          Yields (.auCancel i false) s (fun t =>
          t.get R.AU_CANCEL_RESULT_result = 2 ∧ freed t ∧ idle t))
      ∧ (let lim := s.get R.AU_CTL_expire_s * 1000000000
         (e.isPending = true → lim ≠ 0 → e.acc + lim < s.tt → Yields (.entryExpire i) s (fun t => freed t ∧ t.au.outs = s.au.outs
            ∧ PostedLim s t E.EVENT_DISCARDED 3 (some o) [(.en, 3), (.wide, postTag e.post)]
            ∧ FieldsSet s t [(R.AU_STATUS_used, [], (s.au.table.del i).cells.length),
                             (R.AU_ERR_discarded, [], satTo 255 (s.get R.AU_ERR_discarded + 1))]))
         ∧ (e.isPending = false ∨ lim = 0 ∨ s.tt ≤ e.acc + lim → Yields (.entryExpire i) s (fun t => t = s))))
    ∧ (∀ i, s.au.table.get? i = none →
        (s.islandHeld 53 = false →
          Yields (.auCancel i false) s (fun t => FieldsSet s t [(R.AU_CANCEL_RESULT_result, [], 3)] ∧ t = { s with regs := t.regs }))
        ∧ ∀ c ∈ [Instr.pulseEnd i, .pulseTruncated i, .entryExpire i], Yields c s (fun t => t = s))
    ∧ (s.islandHeld 53 = false → s.au.table.cells ≠ [] → (∀ e ∈ s.au.table.vals, e.isPending = true) → ∀ i, Yields (.auCancel i true) s (fun t =>
        (∀ k, t.au.table.get? k = none) ∧ t.get R.AU_CANCEL_RESULT_result = 1 ∧ t.au.outs = s.au.outs))
    ∧ (∀ o, s.islandHeld 53 = false → s.au.table.keys.Nodup → (∀ e ∈ s.au.table.vals, postOut e.post = o → e.isPending = true) →
        Yields (.auCancelOut o) s (fun t => t.au.outs = s.au.outs
          ∧ (∀ k e, s.au.table.get? k = some e → t.au.table.get? k = if postOut e.post = o then none else some e)
          ∧ t.get R.AU_CANCEL_RESULT_result = if ∃ e ∈ s.au.table.vals, postOut e.post = o then 1 else 3))
    ∧ (∀ o b, (s.out o).bridge = some b →
        (s.tt < b + (s.out o).gap → Yields (.minGapExpiry o) s (fun t => t = s))
        ∧ (b + (s.out o).gap ≤ s.tt → Yields (.minGapExpiry o) s (fun t => (t.out o).active = false ∧ (t.out o).bridge = none
            ∧ (∀ k, k ≠ o → t.out k = s.out k) ∧ t.au.table = s.au.table ∧ t.ev = s.ev)))
    ∧ (∀ o, (s.out o).bridge = none → Yields (.minGapExpiry o) s (fun t => t = s))
    ∧ (∀ src v, v < 2 ^ 32 →
      let old := s.regWord R.AU_CTL []
      let new := fieldsWrite old v R.AU_CTL.fields
      let cause := if anyOutOfRange v R.AU_CTL.fields then 1 else 0
      s.Takes src R.AU_CTL [] v →
      (bit old 0 = false → bit new 0 = true → Yields (.auCtlWrite src v) s (fun t => t.regWord R.AU_CTL [] = new
          ∧ t.au = { s.au with oe := s.get R.EM_VMON_STATUS_fault == 0 } ∧ Journalled s t src 0 cause R.AU_CTL.off old v))
      ∧ (bit old 0 = true → bit new 0 = false → Yields (.auCtlWrite src v) s (fun t => t.regWord R.AU_CTL [] = new ∧ t.au.oe = false
          ∧ (∀ i, t.au.table.get? i = none) ∧ (∀ o < s.cfg.actOutputs, (t.out o).active = false)
          ∧ Journalled s t src 0 cause R.AU_CTL.off old v))
      ∧ (bit old 0 = bit new 0 → Yields (.auCtlWrite src v) s (fun t => t.regWord R.AU_CTL [] = new ∧ t.au = s.au
          ∧ (cause = 1 → PostedLim s t E.AU_CFG_REFUSED R.AU_CTL.off none [(.val, R.AU_CTL.off)]) ∧ (cause = 0 → t.ev = s.ev))))
    ∧ (∀ src o v, o < s.cfg.actOutputs → v < 2 ^ 32 →
      let old := s.regWord R.AU_OUT_CFG [o]
      let new := fieldsWrite old v R.AU_OUT_CFG.fields
      let off := R.AU_OUT_CFG.addr [o]
      let cause := if anyOutOfRange v R.AU_OUT_CFG.fields then 1 else 0
      s.Takes src R.AU_OUT_CFG [o] v →
      (bit old 0 = true → bit new 0 = false → s.au.table.keys.Nodup → Yields (.auOutCfgWrite src o v) s (fun t =>
          t.regWord R.AU_OUT_CFG [o] = new ∧ (t.out o).active = false ∧ Journalled s t src 0 cause off old v
          ∧ ∀ k e, s.au.table.get? k = some e → t.au.table.get? k = if postOut e.post = o then none else some e))
      ∧ (bit old 0 = false ∨ bit new 0 = true → Yields (.auOutCfgWrite src o v) s (fun t => t.regWord R.AU_OUT_CFG [o] = new
          ∧ t.au = s.au ∧ Journalled s t src 0 cause off old v
          ∧ (cause = 1 → PostedLim s t E.AU_CFG_REFUSED off none [(.val, off)]) ∧ (cause = 0 → t.ev = s.ev))))

/-! ### The fabric, the Hoard and the Burrow ports (chapter 13) -/

/-- R317 to R322, R325, R326, R330, R331, R339, R409: an access that its master may not present is not taken; one to an address that
no target maps hangs and is recorded and reported; one into a guarded audit region, or for a chip without Quill, is answered with an
error; any other waits for its target. A granted write beat commits exactly its enabled bytes and answers; a partial write over an
uncorrectable word is answered with an error and leaves the word. A granted read beat answers the bytes of memory. The scrubber reads
its next block when it is due, the Hoard is zeroed once after power-on, and REMAP applies when no boot access is outstanding. -/
def Obligations.FabricTransactionsComplete : Prop :=
  ∀ s : State, s.Sound →
    (∀ m wr word len eng data,
      let a := word % 2 ^ 40
      let n := if wr then data.length else len
      let x : FabTxn :=
        { n := s.fab.next, mst := m, write := wr, addr := a, len := n, chip := none, data := data, qos := s.masterQos m eng,
          tt := s.tt, left := blocksOf a n, got := Tbl.empty, err := false, tag := none, sent := 0, hung := false,
          waits := false, dead := false, remap := false }
      let cmd := Instr.fabricTransaction m wr word len eng data
      let answered := fun t : State => t.fab.txns = s.fab.txns ∧ t.mem = s.mem
        ∧ t.fab.answers.get? m = some { n := s.fab.next, write := wr, err := true, bytes := [] }
      let entered := fun (y : FabTxn) (t : State) => t.fab.txns = s.fab.txns ++ [y] ∧ t.fab.next = s.fab.next + 1 ∧ t.mem = s.mem
        ∧ t.fab.answers = s.fab.answers
      (s.islandHeld 52 = true ∨ s.masterExists m = false ∨ txnShape a n = false → Yields cmd s (fun t => t = s))
      ∧ (s.islandHeld 52 = false → s.masterExists m = true → txnShape a n = true → s.fab.mrst.get? m = none → m ≠ 0x2A →
        (s.fab.txns = [] → bit word 63 = true → bits word 51 40 ≠ s.chipNo → s.cfg.quillPorts = 0 → Yields cmd s answered)
        ∧ (bit word 63 = false →
          (∀ y, s.fab.txns = [y] → y.samePort m wr = true → y.hung = true → Yields cmd s (entered { x with waits := true }))
          ∧ (s.fab.txns = [] →
            ((∃ b ∈ x.left, s.blockTarget b = 0x7F) → Yields cmd s (fun t => entered { x with hung := true } t
                ∧ t.get R.FB_PORT_STATUS_hung [m] = 1 ∧ t.get R.FB_UNMAPPED_INFO_master = m
                ∧ t.get R.FB_UNMAPPED_INFO_write = b2n wr ∧ t.get R.FB_UNMAPPED_INFO_valid = 1
                ∧ t.get R.FB_UNMAPPED_ADDR_LO_addr = a % 2 ^ 32 ∧ t.get R.FB_UNMAPPED_ADDR_HI_addr = a / 2 ^ 32
                ∧ PostedLim s t E.UNMAPPED_ACCESS m none [(.ix, m), (.wide, a), (.en, b2n wr)]))
            ∧ ((∀ b ∈ x.left, s.blockTarget b ≠ 0x7F) →
              (∀ k, guardedMaster m = true → s.audGuard a n = some k → Yields cmd s (fun t => answered t
                  ∧ PostedLim s t E.AUDIT_ACCESS_REFUSED 0 (some k) [(.num, m), (.wide, a)]))
              ∧ (guardedMaster m = false ∨ s.audGuard a n = none →
                ((∃ b ∈ x.left, s.scratchHeld b = true) → Yields cmd s answered)
                ∧ ((∀ b ∈ x.left, s.fab.trst.get? (s.blockTarget b) = none ∧ s.scratchHeld b = false) → a < burrowBase →
                    s.fab.remap = none → Yields cmd s (fun t => entered x t ∧ t.ev = s.ev
                      ∧ FieldsSet s t [(R.FB_PORT_STATUS_outstanding, [m], 1), (R.FB_PORT_STATUS_hung, [m], 0),
                                       (R.FB_PORT_STATUS_in_reset, [m], 0)]))))))))
    ∧ (∀ g bad fixed, s.granted g = none → Yields (.writeAcknowledgement g bad) s (fun t => t = s)
        ∧ Yields (.readResponse g fixed bad) s (fun t => t = s))
    ∧ (∀ g x b, s.fab.txns = [x] → s.granted g = some (x, b) → x.left = [b] → x.dead = false → x.err = false → s.fab.remap = none →
      let answered := fun (err : Bool) (bytes : List Byte) (t : State) => t.fab.txns = []
        ∧ t.fab.answers.get? x.mst = some { n := x.n, write := x.write, err := err, bytes := bytes }
      (x.write = true → g ≠ tgtReg → 0x80000 ≤ 64 * b → s.badWords = [] →
        Yields (.writeAcknowledgement g []) s (fun t => answered false [] t ∧ t.ev = s.ev
          ∧ (∀ i < 64, t.mem.read (64 * b + i) = (((x.blockData b)[i]?).getD none).getD (s.mem.read (64 * b + i)))
          ∧ ∀ o, o < 64 * b ∨ 64 * b + 64 ≤ o → t.mem.read o = s.mem.read o)
        ∧ (∀ k < 8, partialWords (x.blockData b) = [k] → s.region (64 * b + 8 * k) = .hoard →
          let w := 64 * b + 8 * k
          Yields (.writeAcknowledgement g [k]) s (fun t => answered true [] t ∧ w / 8 ∈ t.badWords
            ∧ (∀ i < 8, t.mem.read (w + i) = s.mem.read (w + i)) ∧ t.get R.FB_HOARD_ECC_ADDR_offset = (w - hoardBase) % 2 ^ 32
            ∧ PostedLim s t E.HOARD_ECC 2 none [(.val, w - hoardBase), (.en, 2)])))
      ∧ (x.write = false → g ≠ tgtReg → x.got = Tbl.empty → s.badWords = [] → s.fab.soft = [] →
        let lo := max x.addr (64 * b)
        let hi := min (x.addr + x.len) (64 * b + 64)
        Yields (.readResponse g [] []) s (fun t => answered false (s.readMem lo (hi - lo)) t ∧ t.mem = s.mem ∧ t.ev = s.ev)
        ∧ (∀ k < 8, lo < 64 * b + 8 * k + 8 → 64 * b + 8 * k < hi → s.region (64 * b + 8 * k) = .hoard →
          let w := 64 * b + 8 * k
          Yields (.readResponse g [] [k]) s (fun t => answered true [] t ∧ t.mem = s.mem ∧ w / 8 ∈ t.badWords
            ∧ PostedLim s t E.HOARD_ECC 1 none [(.val, w - hoardBase), (.en, 1)]))
        ∧ (∀ k < 8, ∀ c, lo < 64 * b + 8 * k + 8 → 64 * b + 8 * k < hi → s.region (64 * b + 8 * k) = .scratch c →
          Yields (.readResponse g [k] []) s (fun t => answered false (s.readMem lo (hi - lo)) t ∧ t.mem = s.mem
            ∧ t.get R.CR_ECC_corrected [c] = satTo 65535 (s.get R.CR_ECC_corrected [c] + 1)
            ∧ Posted s t E.SCRATCH_ECC (some (engInst c 0xFF)) [(.wide, 64 * b + 8 * k), (.en, 1)])))
      ∧ (x.write = false → g = tgtReg → x.got = Tbl.empty → x.mst = 0x2C → x.addr = regBase + (x.addr - regBase) → x.len = 4 →
        x.addr % 4 = 0 → 64 * b ≤ x.addr → x.addr < 64 * b + 64 →
        Yields (.readResponse g [] []) s (fun t => answered false (leBytes 4 (s.readAt (x.addr - regBase)).1) t)))
    ∧ (∀ bank, Yields (.hoardEccWriteback bank) s (fun t => t = { s with fab := { s.fab with
          wback := if (s.granted (tgtHoard bank)).isSome then s.fab.wback else s.fab.wback.del bank } }))
    ∧ (let x := s.fab.scrub.get 0 { pos := 0, start := 0, behind := false }
       let n := s.cfg.hoardBytes / 64
       let period := s.get R.FB_SCRUB_hoard_s * 1000000000
       let due := s.islandHeld 52 = false ∧ s.fab.ready = true ∧ x.start + x.pos * period / n ≤ s.tt
       let a := hoardBase + 64 * x.pos
       (¬ due → ∀ f b r, Yields (.scrubRead 0 f b r) s (fun t => t = s))
       ∧ (due → s.badWords = [] → s.fab.soft = [] → ∀ r,
         (x.pos + 1 < n → Yields (.scrubRead 0 [] [] r) s (fun t => t = { s with fab := { s.fab with
              scrub := s.fab.scrub.set 0 { x with pos := x.pos + 1 } } }))
         ∧ (n ≤ x.pos + 1 → Yields (.scrubRead 0 [] [] r) s (fun t =>
              t.fab.scrub.get? 0 = some { pos := 0, start := s.tt, behind := false }
              ∧ FieldsSet s t [(R.FB_SCRUB_STATUS_hoard_passes, [], (s.get R.FB_SCRUB_STATUS_hoard_passes + 1) % 2 ^ 16)]))
         ∧ (∀ j < 8, x.pos < n → Yields (.scrubRead 0 [] [j] r) s (fun t => t.mem = s.mem ∧ (a + 8 * j) / 8 ∈ t.badWords
              ∧ PostedLim s t E.HOARD_ECC 3 none [(.val, 64 * x.pos + 8 * j), (.en, 3)])))
       ∧ (s.islandHeld 52 = true ∨ x.behind = true ∨ s.tt < x.start + 2 * period → Yields (.scrubBehind 0) s (fun t => t = s))
       ∧ (s.islandHeld 52 = false → x.behind = false → x.start + 2 * period ≤ s.tt → Yields (.scrubBehind 0) s (fun t =>
            t.fab = { s.fab with scrub := s.fab.scrub.set 0 { x with behind := true } } ∧ t.mem = s.mem
            ∧ PostedLim s t E.SCRUB_BEHIND 0 (some 0) [(.val, (s.tt - x.start) / 1000000000)])))
    ∧ (∀ src v,
      (src = .host ∨ s.islandHeld 52 = true → Yields (.remapWrite src v) s (fun t => t = s))
      ∧ (src ≠ .host → s.islandHeld 52 = false → s.fab.txns = [] → Yields (.remapWrite src v) s (fun t => FieldsSet s t [(R.FB_REMAP_remap, [], v % 2)]
          ∧ t.fab.remap = none ∧ t = { s with regs := t.regs, fab := t.fab }))
      ∧ (∀ x, src ≠ .host → s.islandHeld 52 = false → s.fab.txns = [x] → (∃ b ∈ x.left, s.blockTarget b = tgtBoot) → x.remap = false → x.waits = false →
          x.hung = false → x.chip = none → Yields (.remapWrite src v) s (fun t =>
            t = { s with fab := { s.fab with remap := some (v % 2) } })))
    ∧ (s.fab.ready = true ∨ s.por = true ∨ s.islandHeld 52 = true ∨ s.tt < s.cfg.hoardMib * 256 → Yields .hoardZeroDone s (fun t => t = s))
    ∧ (s.fab.ready = false → s.por = false → s.islandHeld 52 = false → s.cfg.hoardMib * 256 ≤ s.tt → Yields .hoardZeroDone s (fun t => t.fab.ready = true
        ∧ (∀ a, t.mem.read a = if hoardBase ≤ a ∧ a < hoardBase + s.cfg.hoardBytes then 0#8 else s.mem.read a)
        ∧ (∀ w ∈ t.badWords, w ∈ s.badWords ∧ ¬ (hoardBase ≤ 8 * w ∧ 8 * w < hoardBase + s.cfg.hoardBytes))
        ∧ t = { s with mem := t.mem, badWords := t.badWords, fab := t.fab }))

/-- R327 to R329, R332, R333, R337: the memory's answer to a tag ends its transaction with the data of memory, or with an error that is
counted and reported; resp 1 counts a correction and marks the blocks for a rewrite, which clears the oldest; an acknowledged write
commits its enabled bytes. A port opens or is filled with zeros only in a state that allows it. A tag unanswered for 65,536 cycles is
reported once. A port reset makes its transactions dead or answers them, and ends when nothing is outstanding, reported with the
count. -/
def Obligations.BurrowPortsAndPortResets : Prop :=
  ∀ (s : State) (p : Nat), s.Sound → p < s.cfg.burrowPorts →
    (∀ tag resp, (s.tagged p tag false = none → Yields (.burrowReadData p tag resp) s (fun t => t = s))
      ∧ (s.tagged p tag true = none → Yields (.burrowWriteAck p tag resp) s (fun t => t = s)))
    ∧ (∀ tag resp x, s.fab.txns = [x] → x.dead = false →
      let answered := fun (err : Bool) (bytes : List Byte) (t : State) => t.fab.txns = []
        ∧ t.fab.answers.get? x.mst = some { n := x.n, write := x.write, err := err, bytes := bytes }
      let failed := fun (blk : Nat) (t : State) => answered true [] t ∧ t.mem = s.mem
        ∧ t.get R.FB_BRW_ERR_uncorrected [p] = satTo 65535 (s.get R.FB_BRW_ERR_uncorrected [p] + 1)
        ∧ PostedLim s t (if resp = 2 then E.BURROW_ECC else E.BURROW_ERROR) resp (some p) [(.wide, blk), (.en, resp)]
      let blk := 64 * (x.addr / 64) % burrowBase / 64
      (s.tagged p tag false = some x → x.write = false →
        (resp = 0 → Yields (.burrowReadData p tag resp) s (fun t => answered false (s.readMem x.addr x.len) t ∧ t.mem = s.mem
            ∧ t.ev = s.ev))
        ∧ (resp = 1 → Yields (.burrowReadData p tag resp) s (fun t => answered false (s.readMem x.addr x.len) t ∧ t.mem = s.mem
            ∧ t.fab.rewrites.get p [] = s.fab.rewrites.get p [] ++ x.left
            ∧ t.get R.FB_BRW_ERR_corrected [p] = satTo 65535 (s.get R.FB_BRW_ERR_corrected [p] + 1)))
        ∧ (2 ≤ resp → Yields (.burrowReadData p tag resp) s (failed blk)))
      ∧ (s.tagged p tag true = some x → x.write = true →
        (2 ≤ resp → Yields (.burrowWriteAck p tag resp) s (failed blk))
        ∧ (∀ b, resp < 2 → x.left = [b] → 0x80000 ≤ 64 * b → Yields (.burrowWriteAck p tag resp) s (fun t => answered false [] t
            ∧ (∀ i < 64, t.mem.read (64 * b + i) = (((x.blockData b)[i]?).getD none).getD (s.mem.read (64 * b + i)))
            ∧ (∀ o, o < 64 * b ∨ 64 * b + 64 ≤ o → t.mem.read o = s.mem.read o) ∧ t.ev = s.ev))))
    ∧ Yields (.burrowCorrectedRewrite p) s (fun t => t = { s with fab := { s.fab with
        rewrites := s.fab.rewrites.set p ((s.fab.rewrites.get p []).drop 1) } })
    ∧ (∀ ready size, Yields (.burrowPhyReady p ready size) s (fun t => t = { s with regs := t.regs }
        ∧ FieldsSet s t [(R.FB_BRW_STATUS_phy_ready, [p], b2n ready), (R.FB_BRW_STATUS_size_in, [p], size)]))
    ∧ (∀ src v, v < 2 ^ 32 → s.Takes src R.FB_BRW_CFG [p] v → bit (s.regWord R.FB_BRW_CFG [p]) 8 = false →
      let old := s.regWord R.FB_BRW_CFG [p]
      let new := fieldsWrite old v R.FB_BRW_CFG.fields
      let off := R.FB_BRW_CFG.addr [p]
      let size := bits new 6 0
      let fit := s.flag R.FB_BRW_STATUS_phy_ready [p] = true ∧ size ≠ 0 ∧ s.flag R.FB_BRW_STATUS_init_busy [p] = false
      let cause := if anyOutOfRange v R.FB_BRW_CFG.fields then 1 else 0
      (bit new 8 = true → ¬ (fit ∧ size ≤ s.get R.FB_BRW_STATUS_size_in [p] ∧ bit v 9 = false) → Yields (.fbBrwCfgWrite src p v) s
        (fun t => t.regWord R.FB_BRW_CFG [p] = old ∧ t.fab = s.fab ∧ Journalled s t src 2 causeBlock off old v
          ∧ PostedLim s t E.FB_CFG_REFUSED off none [(.val, off)]))
      ∧ (bit new 8 = true → fit → size ≤ s.get R.FB_BRW_STATUS_size_in [p] → bit v 9 = false → Yields (.fbBrwCfgWrite src p v) s
        (fun t => t.regWord R.FB_BRW_CFG [p] = new ∧ t.burrowOpen p = true ∧ Journalled s t src 0 cause off old v ∧ t.ev = s.ev
          ∧ t.fab = { s.fab with scrub := s.fab.scrub.set (1 + p) { pos := 0, start := s.tt, behind := false } }))
      ∧ (bit new 8 = false → bit v 9 = true → fit → Yields (.fbBrwCfgWrite src p v) s (fun t => t.regWord R.FB_BRW_CFG [p] = new
          ∧ t.get R.FB_BRW_STATUS_init_busy [p] = 1 ∧ t.fab = { s.fab with fill := s.fab.fill.set p s.tt }
          ∧ Journalled s t src 0 cause off old v)))
    ∧ (s.fab.fill.get? p = none → Yields (.burrowFillDone p) s (fun t => t = s))
    ∧ (∀ b, s.fab.fill.get? p = some b →
      let n := s.get R.FB_BRW_CFG_size [p] * 2 ^ 30
      (s.tt < b + n / 64 → Yields (.burrowFillDone p) s (fun t => t = s))
      ∧ (b + n / 64 ≤ s.tt → Yields (.burrowFillDone p) s (fun t => FieldsSet s t [(R.FB_BRW_STATUS_init_busy, [p], 0)]
          ∧ t.fab = { s.fab with fill := s.fab.fill.del p } ∧ t.ev = s.ev
          ∧ ∀ o, t.mem.read o = if burrowBase * (1 + p) ≤ o ∧ o < burrowBase * (1 + p) + n then 0#8 else s.mem.read o)))
    ∧ (∀ x, s.fab.txns = [x] → x.left.any (fun b => s.blockTarget b == tgtBurrow p) = true → ∀ g, x.tag = some g →
      (s.tt < x.sent + 65536 ∨ s.flag R.FB_BRW_STATUS_stalled [p] = true → Yields (.burrowStallTimeout p) s (fun t => t = s))
      ∧ (x.sent + 65536 ≤ s.tt → s.flag R.FB_BRW_STATUS_stalled [p] = false → Yields (.burrowStallTimeout p) s (fun t =>
          FieldsSet s t [(R.FB_BRW_STATUS_stalled, [p], 1)] ∧ PostedLim s t E.BURROW_STALL 0 (some p) [(.num, g)]
          ∧ t = { s with regs := t.regs, ev := t.ev })))
    ∧ (∀ r, s.fab.trst.get? (tgtBurrow p) = some r →
      let due := r.down = false ∧ s.flag R.FB_BRW_STATUS_phy_ready [p] = false ∧ r.tt + 100000000 ≤ s.tt
      (¬ due → Yields (.burrowRecoveryTimeout p) s (fun t => t = s))
      ∧ (due → Yields (.burrowRecoveryTimeout p) s (fun t => PostedLim s t E.BURROW_DOWN 0 (some p) [] ∧ FieldsSet s t []
          ∧ t.fab = { s.fab with trst := s.fab.trst.set (tgtBurrow p) { r with down := true } })))
    ∧ (∀ src v, let id := bits v 6 0
      (src = .host ∨ bit v 31 = false ∨ s.islandHeld 52 = true → Yields (.portReset src v) s (fun t => t = s))
      ∧ (src ≠ .host → bit v 31 = true → s.islandHeld 52 = false → bit v 7 = false → s.masterExists id = true → 0x20 ≤ id → id ≠ 0x2A →
          s.fab.mrst.get? id = none → s.remote = [] → ∀ x, s.fab.txns = [x] → x.mst = id → Yields (.portReset src v) s (fun t =>
            t.fab.mrst.get? id = some { count := 1, ordered := true, tt := s.tt, down := false } ∧ t.mem = s.mem ∧ t.ev = s.ev
            ∧ t.fab.txns = (if x.hung || x.waits || x.chip.isSome then [] else [{ x with dead := true }])
            ∧ t.fab.answers.get? id = some { n := x.n, write := x.write, err := true, bytes := [] }
            ∧ t.get R.FB_PORT_STATUS_in_reset [id] = 1))
      ∧ (src ≠ .host → bit v 31 = true → s.islandHeld 52 = false → bit v 7 = true → s.targetExists id = true → id ≠ tgtQuill → s.fab.trst.get? id = none →
          ∀ x, s.fab.txns = [x] → x.waits = false → x.hung = false → x.chip = none → x.dead = false → (∃ b ∈ x.left, s.blockTarget b = id) →
          Yields (.portReset src v) s (fun t => t.fab.txns = [] ∧ t.mem = s.mem ∧ t.ev = s.ev
            ∧ t.fab.trst.get? id = some { count := 1, ordered := true, tt := s.tt, down := false }
            ∧ t.fab.answers.get? x.mst = some { n := x.n, write := x.write, err := true, bytes := [] })))
    ∧ (∀ id,
      (s.fab.mrst.get? id = none → Yields (.portResetDone false id) s (fun t => t = s))
      ∧ (s.fab.trst.get? id = none → Yields (.portResetDone true id) s (fun t => t = s))
      ∧ (∀ r, s.fab.mrst.get? id = some r →
        ((∃ x ∈ s.fab.txns, x.mst = id) → Yields (.portResetDone false id) s (fun t => t = s))
        ∧ ((∀ x ∈ s.fab.txns, x.mst ≠ id) → r.ordered = true ∨ 0 < r.count → Yields (.portResetDone false id) s (fun t =>
            t.fab = { s.fab with mrst := s.fab.mrst.del id }
            ∧ (id < 0x20 → ∀ e < s.cfg.engines, (t.eng id e).stopped = false)
            ∧ PostedLim s t E.PORT_RESET id none [(.ix, id), (.en, 0), (.num, r.count)])))
      ∧ (∀ r, s.fab.trst.get? id = some r → id < 0x62 → Yields (.portResetDone true id) s (fun t =>
          t.fab = { s.fab with trst := s.fab.trst.del id } ∧ PostedLim s t E.PORT_RESET (256 + id) none [(.ix, id), (.en, 1), (.num, r.count)]
          ∧ FieldsSet s t []))
      ∧ (∀ r, s.fab.trst.get? (tgtBurrow p) = some r → s.flag R.FB_BRW_STATUS_phy_ready [p] = false →
          Yields (.portResetDone true (tgtBurrow p)) s (fun t => t = s)))

/-! ### Quill link framing (chapter 14) -/

/-- R343 to R352, R361, R364, R369: the frame search goes from HUNT to PRESYNC on a good FAW, to SYNC on the third, back to HUNT on a
bad one in PRESYNC and on the fourth bad one in a row in SYNC, declaring OOF; a frame in SYNC adds its parity errors and its REI and
keeps its parity. A frame sent is 3,000 bytes with FAW, MFI and SIG, and carries the oldest slot frame of each member. LOS enters
and leaves, masks the others and fails the members of its port; LOF enters after 256 µs of OOF and leaves after 1 ms of SYNC. A port
is enabled only with a good deskew base, then searches; disabled it is off; QP_DESKEW is refused while it is on. -/
def Obligations.QuillFramesAndDefects : Prop :=
  ∀ (s : State) (p : Nat), s.Sound → p < s.cfg.quillPorts →
    let x := s.qrx p
    let fsm := s.get R.QP_STATUS_fsm [p]
    (∀ stamp f, s.qpOn p = false ∨ f.length ≠ 3000 → Yields (.quillFrameReceived p stamp f) s (fun t => t = s))
    ∧ (∀ stamp f, s.qpOn p = true → f.length = 3000 →
      let cmd := Instr.quillFrameReceived p stamp f
      let good := f.take 4 = faw
      let r := s.laneReady (128 + p)
      (fsm = 1 → ¬ good → Yields cmd s (fun t => t = r))
      ∧ (fsm = 1 → good → Yields cmd s (fun t => t = (r.setQrx p { x with cnt := 1 }).put R.QP_STATUS_fsm [p] 2))
      ∧ (fsm = 2 → ¬ good → Yields cmd s (fun t => t = r.put R.QP_STATUS_fsm [p] 1))
      ∧ (fsm = 2 → good → x.cnt < 2 → Yields cmd s (fun t => t = r.setQrx p { x with cnt := x.cnt + 1 }))
      ∧ (fsm = 2 → good → 2 ≤ x.cnt → Yields cmd s (fun t => t.get R.QP_STATUS_fsm [p] = 3 ∧ bit (t.qrx p).raw 1 = false
          ∧ (t.qrx p).parity = some (parityOf f)))
      ∧ (fsm = 3 → ¬ good → 3 ≤ x.cnt → Yields cmd s (fun t => t.get R.QP_STATUS_fsm [p] = 1 ∧ bit (t.qrx p).raw 1 = true
          ∧ (t.qrx p).oofTt = some s.tt ∧ t.get R.QP_ERR_faw_err [p] = satTo 255 (s.get R.QP_ERR_faw_err [p] + 1)))
      ∧ (fsm = 3 → good →
        let d := scramble f
        Yields cmd s (fun t => t.get R.QP_STATUS_fsm [p] = 3 ∧ (t.qrx p).cnt = 0 ∧ (t.qrx p).parity = some (parityOf f)
          ∧ (∀ v, x.parity = some v → t.get R.QP_BIP_count [p] = satTo (2 ^ 32 - 1) (s.get R.QP_BIP_count [p]
              + popCount 8 (v ^^^ ((d[7]?).getD 0#8).toNat)))
          ∧ t.get R.QP_REI_count [p] = satTo (2 ^ 32 - 1) (s.get R.QP_REI_count [p] + ((d[8]?).getD 0#8).toNat % 16)
          ∧ (crc8 ((d.drop 26).take 16) ≠ ((d[42]?).getD 0#8).toNat →
              t.get R.QP_ERR_crc [p] = satTo 65535 (s.get R.QP_ERR_crc [p] + 1)))))
    ∧ (s.qpOn p = false → Yields (.quillFrameTransmit p) s (fun t => t = s))
    ∧ (s.qpOn p = true →
      let y := s.qtx p
      let ais := s.flag R.QP_CTL_ais_force [p]
      let sent := fun t : State => let f := (t.qtx p).frame
        f.length = 3000 ∧ f.take 4 = faw ∧ f[4]? = some (BitVec.ofNat 8 y.mfi) ∧ f[5]? = some (if ais then 7#8 else 0#8)
        ∧ (t.qtx p).mfi = (y.mfi + 1) % 64 ∧ (t.qtx p).parity = parityOf f ∧ (∀ q, q ≠ p → t.qtx q = s.qtx q)
        ∧ t.quill.rx = s.quill.rx ∧ SameBut s t [] ∧ t.mem = s.mem ∧ t.ev = s.ev
      Yields (.quillFrameTransmit p) s sent
      ∧ (∀ sl i k m n b rest, sl < 24 → (∀ c ∈ s.quill.relays.cells, ¬ (c.2.port = p ∧ c.2.slot = sl)) →
          s.memberAt p sl = some (i, k, m) → (s.qg i).members.get? k = some m → s.stuffs y = false → ais = false →
          m.txq = (n, b) :: rest → b.length = 123 → Yields (.quillFrameTransmit p) s (fun t => sent t
            ∧ slotBytes (scramble (t.qtx p).frame) sl = b ∧ bit (vmapOf (scramble (t.qtx p).frame)) sl = true)))
    ∧ (let losing := fun t : State => (t.qrx p).raw = 1 ∧ t.get R.QP_STATUS_defects [p] = 1 ∧ t.get R.QP_STATUS_rdi_tx [p] = 1
        ∧ (∀ i k m, (t.qg i).members.get? k = some m → m.port = p → m.healthy = false) ∧ t.mem = s.mem
        ∧ (¬ s.Recent E.QP_DEFECT 1 (some p) → PostedFirst s t E.QP_DEFECT (some p) [(.en, 1), (.en, 1)])
       (s.qpOn p = true → x.raw = 0 → Yields (.quillReceiveLockLoss p) s losing ∧ Yields (.qpDefectTimer p 0 true) s losing)
       ∧ (s.qpOn p = false ∨ bit x.raw 0 = true → Yields (.quillReceiveLockLoss p) s (fun t => t = s)
          ∧ Yields (.qpDefectTimer p 0 true) s (fun t => t = s))
       ∧ (s.qpOn p = true → x.raw = 1 → fsm = 3 → Yields (.qpDefectTimer p 0 false) s (fun t => (t.qrx p).raw = 0
          ∧ t.get R.QP_STATUS_defects [p] = 0))
       ∧ (s.qpOn p = true → bit x.raw 2 = false → (∀ b, x.oofTt = some b → s.tt < b + 256000) →
          Yields (.qpDefectTimer p 2 true) s (fun t => t = s))
       ∧ (∀ b, s.qpOn p = true → x.raw = 2 → x.oofTt = some b → b + 256000 ≤ s.tt → Yields (.qpDefectTimer p 2 true) s (fun t =>
          (t.qrx p).raw = 6 ∧ t.get R.QP_STATUS_defects [p] = 4))
       ∧ (s.qpOn p = true → bit x.raw 2 = true → (∀ b, x.syncTt = some b → s.tt < b + 1000000) →
          Yields (.qpDefectTimer p 2 false) s (fun t => t = s)))
    ∧ (∀ src v, v < 2 ^ 32 →
      (s.Takes src R.QP_DESKEW [p] v →
        let old := s.regWord R.QP_DESKEW [p]
        let new := fieldsWrite old v R.QP_DESKEW.fields
        let off := R.QP_DESKEW.addr [p]
        (s.qpOn p = true → old ≠ new → Yields (.qpConfigWrite src p true v) s (fun t => t.regWord R.QP_DESKEW [p] = old
            ∧ t.quill = s.quill ∧ Journalled s t src 2 causeBlock off old v
            ∧ PostedLim s t E.QP_CFG_REFUSED off (some p) [(.val, off)]))
        ∧ (s.qpOn p = false → Yields (.qpConfigWrite src p true v) s (fun t => t.regWord R.QP_DESKEW [p] = new ∧ t.quill = s.quill
            ∧ t.ev = s.ev ∧ Journalled s t src 0 (if anyOutOfRange v R.QP_DESKEW.fields then 1 else 0) off old v)))
      ∧ (s.Takes src R.QP_CTL [p] v →
        let old := s.regWord R.QP_CTL [p]
        let new := fieldsWrite old v R.QP_CTL.fields
        let off := R.QP_CTL.addr [p]
        let cause := if anyOutOfRange v R.QP_CTL.fields then 1 else 0
        let base := s.get R.QP_DESKEW_base [p]
        let fits := base % 65536 = 0 ∧ base + 768 * 1024 ≤ s.cfg.hoardBytes
        (bit old 0 = false → bit new 0 = true → ¬ fits → Yields (.qpConfigWrite src p false v) s (fun t =>
            t.regWord R.QP_CTL [p] = old ∧ t.quill = s.quill ∧ Journalled s t src 2 causeBlock off old v
            ∧ PostedLim s t E.QP_CFG_REFUSED off (some p) [(.val, off)]))
        ∧ (bit old 0 = false → bit new 0 = true → fits → Yields (.qpConfigWrite src p false v) s (fun t =>
            t.regWord R.QP_CTL [p] = new ∧ t.get R.QP_STATUS_fsm [p] = 1 ∧ bit (t.qrx p).raw 1 = true ∧ t.qtx p = QTx.init
            ∧ Journalled s t src 0 cause off old v))
        ∧ (bit old 0 = true → bit new 0 = false → Yields (.qpConfigWrite src p false v) s (fun t =>
            t.regWord R.QP_CTL [p] = new ∧ t.get R.QP_STATUS_fsm [p] = 0 ∧ t.qrx p = QRx.init ∧ t.qtx p = QTx.init
            ∧ Journalled s t src 0 cause off old v))))

/-- R356 to R359, R366, R367, R376, R377: a healthy member without a valid control word for 96 µs fails and is reported; one that
has met every condition for restore_ms is healthy again. A source starts a change when its desired map differs, effective lead group
frames on, and gives it up at 2 × lead without a toggle. A sink applies a pending map at its group frame, toggling rs_ack. A group
frame whose shares are all there is released and its stream bytes taken; a lost share or a gap asks for a resend; at dd_max the frame
is released without the missing shares, whose members fail. -/
def Obligations.MembersMapsAndGroupFrames : Prop :=
  ∀ (s : State) (i : Nat), i < 12 →
    let g := s.qg i
    let lead := s.get R.QP_GRP_CFG_lead
    (∀ k, g.members.get? k = none → Yields (.memberControlTimeout i k) s (fun t => t = s)
        ∧ Yields (.memberRestore i k) s (fun t => t = s))
    ∧ (∀ k m, g.members.get? k = some m →
      let overdue := ∀ b, m.gcTt = some b → b + 96000 < s.tt
      let due := ∃ b, m.okTt = some b ∧ b + s.get R.QP_GRP_CFG_restore_ms * 1000000 ≤ s.tt
      (¬ overdue → Yields (.memberControlTimeout i k) s (fun t => t = s))
      ∧ (overdue → Yields (.memberControlTimeout i k) s (fun t =>
          (t.qg i).members.get? k = some { m with healthy := false, okTt := none }
          ∧ (∀ k', k' ≠ k → (t.qg i).members.get? k' = g.members.get? k') ∧ (∀ i', i' ≠ i → t.qg i' = s.qg i')
          ∧ (m.healthy = false → t.ev = s.ev)
          ∧ (m.healthy = true → ¬ s.Recent E.QP_MEMBER_FAILED 3 (some m.port) →
              PostedFirst s t E.QP_MEMBER_FAILED (some m.port) [(.ix, i), (.num, m.slot), (.num, k), (.en, 3)])))
      ∧ (m.healthy = true ∨ s.memberOk m = false ∨ ¬ due → Yields (.memberRestore i k) s (fun t => t = s))
      ∧ (m.healthy = false → s.memberOk m = true → due → Yields (.memberRestore i k) s (fun t =>
          (t.qg i).members.get? k = some { m with healthy := true } ∧ (∀ i', i' ≠ i → t.qg i' = s.qg i')
          ∧ t.flag R.QM_DIM_STATUS_up [i] = (g.rxMap != 0)
          ∧ (¬ s.Recent E.QP_MEMBER_HEALTHY k (some m.port) →
              PostedFirst s t E.QP_MEMBER_HEALTHY (some m.port) [(.ix, i), (.num, m.slot), (.num, k)]))))
    ∧ (g.change.isSome = true ∨ (g.desired = g.txMap ∧ g.drop = 0) → Yields (.mapChangeStart i) s (fun t => t = s))
    ∧ (g.change = none → g.desired ≠ g.txMap → Yields (.mapChangeStart i) s (fun t =>
        let eff := (g.txNext + lead) % 4096
        t = s.setQg i { g with change := some { d := g.desired, eff := eff, rs := g.rsIn, age := 0 }, ann := (g.desired, eff) }))
    ∧ (g.rxPend = none → Yields (.mapApply i) s (fun t => t = s))
    ∧ (∀ d eff, g.rxPend = some (d, eff) →
      (g.rxNext ≠ eff → Yields (.mapApply i) s (fun t => t = s))
      ∧ (g.rxNext = eff → Yields (.mapApply i) s (fun t => (t.qg i).rxMap = d ∧ (t.qg i).rxPend = none ∧ (t.qg i).rsOut = !g.rsOut
          ∧ t.get R.QM_DIM_STATUS_map [i] = d % 2 ^ 24 ∧ (∀ i', i' ≠ i → t.qg i' = s.qg i')
          ∧ (¬ s.Recent E.QP_MAP_CHANGED 0 (some i) →
              PostedFirst s t E.QP_MAP_CHANGED (some i) [(.ix, i), (.val, g.rxMap), (.val, d), (.num, eff)]))))
    ∧ (g.change = none → Yields (.mapChangeLate i) s (fun t => t = s))
    ∧ (∀ c, g.change = some c →
      (c.age < 2 * lead → Yields (.mapChangeLate i) s (fun t => t = s))
      ∧ (2 * lead ≤ c.age → Yields (.mapChangeLate i) s (fun t => (t.qg i).change = none
          ∧ (¬ s.Recent E.QP_MAP_LATE 1 (some i) → PostedFirst s t E.QP_MAP_LATE (some i) [(.ix, i), (.val, c.d), (.num, c.eff)]))))
    ∧ (g.rxPend = none → g.rxMap ≠ 0 →
      let sqs := bitIndices 24 g.rxMap
      let shares := g.shares g.rxNext
      let whole := ∀ k ∈ sqs, (shares.get? k).isSome = true
      let f := sqs.flatMap (fun k => (shares.get k (0, List.replicate 123 0#8)).2)
      let g1 := { g with rxNext := (g.rxNext + 1) % 4096, arr := g.arr.del (g.rxNext % 256) }
      let l := f.drop 4
      let resent := fun t : State => t.qg i = { g1 with resend := true }
        ∧ (g.resend = true → t.ev = s.ev) ∧ (g.resend = false → PostedLim s t E.QM_RESEND 0 (some i) [(.ix, i), (.val, g.e)])
      (¬ whole → ∀ bad, Yields (.groupFrameRelease i bad) s (fun t => t = s))
      ∧ (whole → 4 ≤ f.length →
        (∀ k ∈ sqs, Yields (.groupFrameRelease i [k]) s resent)
        ∧ (0 < (leVal (f.take 4) + 2 ^ 32 - g.e) % 2 ^ 32 → (leVal (f.take 4) + 2 ^ 32 - g.e) % 2 ^ 32 < 2 ^ 31 →
            Yields (.groupFrameRelease i []) s resent)
        ∧ (leVal (f.take 4) = g.e →
          (streamLen 256 g.part l = 0 → Yields (.groupFrameRelease i []) s (fun t => t = s.setQg i { g1 with resend := false }))
          ∧ (∀ n, streamLen 256 g.part l = n → 0 < n → Yields (.groupFrameRelease i []) s (fun t =>
              t = s.setQg i { g1 with e := (g.e + n) % 2 ^ 32, resend := false, part := (splitMsgs 256 (g.part ++ l.take n)).2,
                                      inbox := g.inbox ++ (splitMsgs 256 (g.part ++ l.take n)).1 }))))
      ∧ (let first := earliest shares (fun k => bit g.rxMap k)
         (first = none ∨ (∃ b, first = some b ∧ s.tt < b + s.get R.QP_GRP_CFG_dd_max * 1000) → ∀ bad,
            Yields (.deskewDelayExpiry i bad) s (fun t => t = s))
         ∧ (∀ b, first = some b → b + s.get R.QP_GRP_CFG_dd_max * 1000 ≤ s.tt → ¬ whole → 4 ≤ f.length → ∀ bad,
            Yields (.deskewDelayExpiry i bad) s (fun t => (t.qg i).rxNext = (g.rxNext + 1) % 4096 ∧ (t.qg i).resend = true
              ∧ (∀ k ∈ sqs, shares.get? k = none → ∀ m, (t.qg i).members.get? k = some m → m.healthy = false)
              ∧ (g.resend = false → ¬ s.Recent E.QM_RESEND 0 (some i) →
                  PostedFirst s t E.QM_RESEND (some i) [(.ix, i), (.val, g.e)])))))

/-! ### The Quill machine (chapter 15) -/

/-- R378 to R385, R395: an acknowledgement drops what it covers from the send buffer and gives credit; a resend word, or rto_us without
an advance, sends again. A remote access takes the next free tid and leaves as its message; it completes at its master with the
response of its own tid, or with an error at e2e_ms. An inbound write or read is checked, done and answered with its result; a signal
is applied; a post is submitted and its status returned. A message for another chip takes its next hop or is dropped and reported. -/
def Obligations.StreamsAndRemoteAccesses : Prop :=
  ∀ (s : State) (i : Nat), i < 12 →
    let g := s.qg i
    let e2e := s.get R.QM_TIMERS_e2e_ms * 1000000
    let calm := fun q : RemoteReq => q.mst < 0x30 ∧ (0x20 ≤ q.mst ∨ (q.eng < 5 ∧ q.eng ≠ 1 ∧ q.eng ≠ 2))
    (∀ w : Option (Nat × Nat × Nat), g.ackIn = w →
      ((∀ k q a, w = some (k, q, a) → k ≠ 1) → Yields (.ack i) s (fun t => t = s))
      ∧ ((∀ k q a, w = some (k, q, a) → k ≠ 2) → Yields (.resend i) s (fun t => t = s)))
    ∧ (∀ seq aux, g.ackIn = some (1, seq, aux) →
      let n := (seq + 2 ^ 32 - g.acked % 2 ^ 32) % 2 ^ 32
      (n = 0 ∨ g.sent < n → Yields (.ack i) s (fun t => t = s.setQg i { g with ackIn := none, credit := aux }))
      ∧ (0 < n → n ≤ g.sent → g.msgs = [] → Yields (.ack i) s (fun t =>
          t = s.setQg i { g with ackIn := none, credit := aux, acked := (g.acked + n) % 2 ^ 32, buf := g.buf.drop n,
                                 sent := g.sent - n, ends := (g.ends.filter (fun e => decide (n < e))).map (fun e => e - n),
                                 advTt := s.tt })))
    ∧ (∀ seq aux, g.ackIn = some (2, seq, aux) →
      let n := (seq + 2 ^ 32 - g.acked % 2 ^ 32) % 2 ^ 32
      (g.sent ≤ n → Yields (.resend i) s (fun t => t = s.setQg i { g with ackIn := none }))
      ∧ (n < g.sent → Yields (.resend i) s (fun t => (t.qg i).sent = 0 ∧ (t.qg i).acked = (if n = 0 then g.acked else
            (g.acked + n) % 2 ^ 32) ∧ (t.qg i).credit = aux ∧ (t.qg i).ackIn = none ∧ (g.msgs = [] → (t.qg i).buf = g.buf.drop n)
          ∧ (∀ i', i' ≠ i → t.qg i' = s.qg i') ∧ t.get R.QM_RESENDS_count [i] = satTo (2 ^ 32 - 1) (s.get R.QM_RESENDS_count [i] + 1)
          ∧ t.mem = s.mem ∧ SameBut s t [R.QM_RESENDS.addr [i]])))
    ∧ (let due := g.sent ≠ 0 ∧ g.advTt + s.get R.QM_TIMERS_rto_us * 1000 ≤ s.tt
       (¬ due → Yields (.resendTimeout i) s (fun t => t = s))
       ∧ (due → Yields (.resendTimeout i) s (fun t => t.qg i = { g with sent := 0, advTt := s.tt }
          ∧ (∀ i', i' ≠ i → t.qg i' = s.qg i') ∧ t.get R.QM_RESENDS_count [i] = satTo (2 ^ 32 - 1) (s.get R.QM_RESENDS_count [i] + 1)
          ∧ t.mem = s.mem ∧ SameBut s t [R.QM_RESENDS.addr [i]])))
    ∧ (s.remote = [] → Yields .remoteAccessSend s (fun t => t = s) ∧ Yields .tidWaitTimeout s (fun t => t = s))
    ∧ (∀ q, s.remote = [q] → q.kind < 4 →
      (s.noHop q = true → q.kind = 2 → Yields .remoteAccessSend s (fun t => t.remote = [] ∧ t.quill = s.quill
          ∧ Posted s t E.SIGNAL_NO_ROUTE (some (engInst q.mst q.eng)) (q.job.toList.map (fun t => (.num, t)) ++ [(.num, q.chip)])))
      ∧ (s.noHop q = true → q.kind = 0 → q.mst < 0x20 → q.eng < 5 → q.eng ≠ 1 → q.eng ≠ 2 → Yields .remoteAccessSend s (fun t =>
          t.remote = [] ∧ t.quill = s.quill ∧ t.ev = s.ev ∧ (t.eng q.mst q.eng).outW = (s.eng q.mst q.eng).outW.filter (· ≠ q.id)))
      ∧ (∀ j d, s.noHop q = false → s.route q.chip 0 none = some (j, d) →
        (q.kind = 2 → Yields .remoteAccessSend s (fun t => t = ({ s with remote := [] }).streamPut j
            (oneHop (qMsg mkSignal q.chip s.chipNo 0 (q.core + q.ctr * 2 ^ 8) q.n []) d)))
        ∧ (q.kind ≠ 2 → s.freeTid 65536 s.quill.tidNext = none → Yields .remoteAccessSend s (fun t => t = s))
        ∧ (q.kind ≠ 2 → s.quill.tids.get? s.quill.tidNext = none → s.quill.freed.get? s.quill.tidNext = none →
          let k := s.quill.tidNext
          let m := if q.kind = 0 then qMsg mkWrite q.chip s.chipNo k q.addr 0 q.bytes
            else if q.kind = 1 then qMsg mkReadReq q.chip s.chipNo k q.addr (q.len - 1) []
            else qMsg mkActPost q.chip s.chipNo k 0 0 q.bytes
          (q.kind < 2 → (∃ o ∈ s.quill.tids.vals, o.req.mst = q.mst ∧ o.req.sameBlock q = true) →
            Yields .remoteAccessSend s (fun t => t = s))
          ∧ ((q.kind < 2 → ∀ o ∈ s.quill.tids.vals, o.req.mst = q.mst → o.req.sameBlock q = false) →
            Yields .remoteAccessSend s (fun t => t = ({ s with remote := [], quill := { s.quill with
              tids := s.quill.tids.set k { req := q, tt := s.tt }, tidNext := (k + 1) % 65536 } }).streamPut j (oneHop m d)))))
      ∧ (q.kind = 2 ∨ s.tt < q.tt + e2e → Yields .tidWaitTimeout s (fun t => t = s))
      ∧ (q.kind ≠ 2 → q.tt + e2e ≤ s.tt → Yields .tidWaitTimeout s (fun t => t.remote = []
          ∧ (calm q → t.get R.QM_ERR_timeout = satTo 65535 (s.get R.QM_ERR_timeout + 1)) ∧ t.quill = s.quill
          ∧ (¬ s.Recent E.QM_REMOTE_TIMEOUT 2 none → PostedFirst s t E.QM_REMOTE_TIMEOUT none [(.num, q.chip),
              (.en, if q.kind = 1 then 3 else if q.kind = 3 then 6 else 1), (.num, 0), (.en, 2)]))))
    ∧ (∀ k, s.quill.tids.get? k = none → Yields (.remoteTimeout k) s (fun t => t = s))
    ∧ (∀ k o, s.quill.tids.get? k = some o →
      (s.tt < o.tt + e2e → Yields (.remoteTimeout k) s (fun t => t = s))
      ∧ (o.tt + e2e ≤ s.tt → Yields (.remoteTimeout k) s (fun t => TidFreed s t k
          ∧ (calm o.req → t.get R.QM_ERR_timeout = satTo 65535 (s.get R.QM_ERR_timeout + 1))
          ∧ (¬ s.Recent E.QM_REMOTE_TIMEOUT 1 none → PostedFirst s t E.QM_REMOTE_TIMEOUT none [(.num, o.req.chip),
              (.en, if o.req.kind = 1 then 3 else if o.req.kind = 3 then 6 else 1), (.num, k), (.en, 1)]))))
    ∧ (∀ err l ph tick id st,
      let kinds : List (Instr × Nat) :=
        [(.write i err, 1), (.writeAck i, 2), (.readReq i err, 3), (.readResp i, 4), (.quillSignal i, 5), (.actPost i, 6),
         (.actStatus i, 7), (.bcast i l, 8), (.undeliverable i, 9), (.detourReq i, 10), (.detourGrant i, 10),
         (.detourRefuse i, 10), (.detourEnd i, 10), (.time i ph tick, 11), (.distDone i id st, 12)]
      (∀ x ∈ kinds, g.inbox = [] ∨ s.flag R.QM_CTL_en = false ∨ (∃ m r, g.inbox = m :: r ∧ qKind m ≠ x.2) →
        Yields x.1 s (fun t => t = s))
      ∧ (∀ m r, g.inbox = m :: r → s.flag R.QM_CTL_en = true → qDst m ≠ s.chipNo →
        let s1 := s.setQg i { g with inbox := r }
        ∀ x ∈ kinds, qKind m = x.2 → x.2 ≠ 8 → x.2 ≠ 10 →
          (∀ j d, s.route (qDst m) (bits (qHdr m) 5 4) (some i) = some (j, d) → bits (qHdr m) 11 8 + 1 ≤ s.qd + 4 →
            Yields x.1 s (fun t => t = s1.streamPut j (oneHop m d)))
          ∧ (s.route (qDst m) (bits (qHdr m) 5 4) (some i) = none →
            let reason := if s.present? (qDst m) then 1 else 3
            Yields x.1 s (fun t => t.get R.QM_ERR_undeliverable = satTo 65535 (s.get R.QM_ERR_undeliverable + 1) ∧ t.mem = s.mem
              ∧ PostedLim s t E.QM_UNDELIVERABLE reason (some i) [(.num, qSrc m), (.num, qDst m), (.en, qKind m), (.en, reason)]
              ∧ (qKind m = 9 ∨ qSrc m = s.chipNo → t.quill = s1.quill)
              ∧ (qKind m ≠ 9 → qSrc m ≠ s.chipNo → ∀ j d, s.route (qSrc m) 0 none = some (j, d) → t.quill = (s1.streamPut j
                  (oneHop (qMsg mkUndeliverable (qSrc m) s.chipNo (qTid m)
                    (if qKind m = 5 then qAddr m % 2 ^ 16 + qDst m * 2 ^ 16 else qAddr m) (qKind m + reason * 16) []) d)).quill))))
      ∧ (∀ m r, g.inbox = m :: r → (qKind m < 13 → Yields (.reservedMessage i) s (fun t => t = s))
          ∧ (13 ≤ qKind m → Yields (.reservedMessage i) s (fun t =>
              t.quill = { (s.setQg i { g with inbox := r }).quill with reserved := s.quill.reserved + 1 }
              ∧ t = { s with quill := t.quill })))
      ∧ (g.inbox = [] → Yields (.reservedMessage i) s (fun t => t = s)))
    ∧ (∀ m r, g.inbox = m :: r → s.flag R.QM_CTL_en = true → qDst m = s.chipNo →
      let s1 := s.setQg i { g with inbox := r }
      let a := qAddr m
      (∀ j d, s.route (qSrc m) 0 none = some (j, d) →
        let acked := fun (x : Nat) (u : State) => u.streamPut j (oneHop (qMsg mkWriteAck (qSrc m) s.chipNo (qTid m) a x []) d)
        let answer := fun (x : Nat) (b : List Byte) => s1.streamPut j (oneHop (qMsg mkReadResp (qSrc m) s.chipNo (qTid m) a x b) d)
        let refusal := fun t : State => PostedLim s t E.QM_INBOUND_REFUSED 0 (some i) [(.num, qSrc m), (.wide, a)] ∧ t.mem = s.mem
        (qKind m = 1 →
          let b := qPayload m
          (s.inboundOk a b.length = false → ∀ e, Yields (.write i e) s (fun t => refusal t ∧ t.quill = (acked 2 s1).quill))
          ∧ (s.inboundOk a b.length = true → s.audGuard a b.length = none → s.fab.mrst.get? 0x2B = none →
            Yields (.write i true) s (fun t => t = acked 1 s1)
            ∧ (s.badMerge a b.length = true → Yields (.write i false) s (fun t => t = acked 1 s1))
            ∧ (s.badMerge a b.length = false → s.mem.wf = true → Yields (.write i false) s (fun t => t.quill = (acked 0 s1).quill
                ∧ t = { s with mem := t.mem, badWords := t.badWords, quill := t.quill }
                ∧ (∀ k, k < b.length → t.mem.read (a + k) = (b[k]?).getD 0#8)
                ∧ ∀ o, o < a ∨ a + b.length ≤ o → t.mem.read o = s.mem.read o))))
        ∧ (qKind m = 3 →
          let n := qArg m % 4096 + 1
          (s.inboundOk a n = false → ∀ e, Yields (.readReq i e) s (fun t => refusal t ∧ t.quill = (answer 2 []).quill))
          ∧ (s.inboundOk a n = true → s.audGuard a n = none → s.fab.mrst.get? 0x2B = none →
            Yields (.readReq i true) s (fun t => t = answer 1 [])
            ∧ (s.badIn a n = true → Yields (.readReq i false) s (fun t => t = answer 1 []))
            ∧ (s.badIn a n = false → Yields (.readReq i false) s (fun t => t = answer 0 (s.readMem a n)))))
)
      ∧ (qKind m = 6 →
        let u := s1.submitPost 3 (qSrc m) (leVal (qPayload m))
        (∀ j d, u.2.2.route (qSrc m) 0 none = some (j, d) → Yields (.actPost i) s (fun t =>
            t = u.2.2.streamPut j (oneHop (qMsg mkActStatus (qSrc m) s.chipNo (qTid m) 0 (u.1 + u.2.1 * 16) []) d)))
        ∧ (s.flag R.AU_CTL_en = false → u.1 = 7 ∧ u.2.1 = 0))
      ∧ (qKind m = 5 → ∀ c n,
        let sig : Signal := { core := c, ctr := n, n := qArg m % 2 ^ 16, job := none, fromCore := 0xFF, fromEng := 0, after := 0,
                              chip := none }
        bits (qHdr m) 68 64 = c → bits (qHdr m) 79 72 = n →
        (s.coreRuns c = true ∨ s.wroteNow sig = true → s.signalHome sig = none → Yields (.quillSignal i) s (fun t =>
            t = s1.setSync c n (s.sync c n + qArg m % 2 ^ 16)))
        ∧ (s.coreRuns c = false → s.wroteNow sig = false → Yields (.quillSignal i) s (fun t => (∀ c' n', t.sync c' n' = s.sync c' n') ∧ t.quill = s1.quill
            ∧ Posted s t E.SYNC_STRAY (some (engInst c 0)) [(.num, n), (.en, 3)])))
      ∧ ((qKind m = 9 ∧ qArg m % 16 = 5) → Yields (.undeliverable i) s (fun t => t.quill = s1.quill ∧ t.mem = s.mem
          ∧ Posted s t E.SIGNAL_NO_ROUTE none [(.num, bits (qAddr m) 27 16)]))
      ∧ (∀ cmd kind results, (cmd, kind, results) ∈ [(Instr.writeAck i, 2, (qArg m % 4, ([] : List Byte))),
            (.readResp i, 4, (qArg m % 4, qPayload m)), (.actStatus i, 7, (0, [])), (.undeliverable i, 9, (1, []))] → qKind m = kind →
        (kind = 9 → qArg m % 16 ≠ 5) →
        let mine := fun (o : QOut) =>
          (kind = 9 ∧ (qArg m % 16 = 3 ↔ o.req.kind = 1) ∧ (qArg m % 16 = 6 ↔ o.req.kind = 3)
              ∧ (qArg m % 16 = 1 ↔ (o.req.kind ≠ 1 ∧ o.req.kind ≠ 3)))
          ∨ (kind ≠ 9 ∧ o.req.chip = qSrc m ∧ s.tt < o.tt + e2e
              ∧ ((kind = 2 ∧ (o.req.kind = 0 ∨ o.req.kind = 4)) ∨ (kind = 4 ∧ o.req.kind = 1) ∨ (kind = 7 ∧ o.req.kind = 3)))
        (s.quill.tids.get? (qTid m) = none → Yields cmd s (fun t => t = s1))
        ∧ (∀ o, s.quill.tids.get? (qTid m) = some o →
          (kind ≠ 9 → ¬ mine o → Yields cmd s (fun t => t = s1))
          ∧ (mine o → Yields cmd s (fun t => TidFreed s t (qTid m) ∧ (t.qg i).inbox = r
            ∧ (results.1 = 0 → t.ev = s.ev ∧ t.mem = s.mem)
            ∧ (results.1 = 0 → o.req.mst < 0x20 → o.req.eng < 5 → o.req.kind = 0 → (t.eng o.req.mst o.req.eng).outW =
                (s.eng o.req.mst o.req.eng).outW.filter (· ≠ o.req.id))
            ∧ (results.1 = 0 → o.req.mst < 0x20 → o.req.eng < 5 → o.req.kind = 1 →
                (o.req.chip, o.req.addr, o.req.len) ∈ (s.eng o.req.mst o.req.eng).asked →
                (t.eng o.req.mst o.req.eng).fetched =
                  (s.eng o.req.mst o.req.eng).fetched ++ [(o.req.chip, o.req.addr, results.2)])
            ∧ (∀ x, 0x20 ≤ o.req.mst → s.fab.txns = [x] → x.mst = o.req.mst → x.n = o.req.id → x.chip.isSome = true → x.dead = false →
                t.fab.txns = [] ∧ t.fab.answers.get? x.mst =
                  some { n := x.n, write := x.write, err := decide (results.1 ≠ 0), bytes := results.2 }))))))

/-- R365, R374, R386 to R391: a DETOUR message of this chip is granted, refused or passed along the path and the lenders of a commit give
up sq 12 to 23; END and the two holds end or start detours. A TIME message is adopted from the lowest lead. A distribution starts,
waits or is refused, each chip takes an index once, writes it and reports; the root counts reports and ends at the last or at dist_s.
QM_MEMBER_CMD starts, waits or is BUSY. QM_ID and QM_PRESENT change only while QM_CTL.en is 0. -/
def Obligations.DetoursAndDistributions : Prop :=
  ∀ (s : State) (i : Nat), s.Sound → i < 12 →
    let g := s.qg i
    let me := s.chipNo
    let ask := fun (k op fi j c : Nat) => qMsg mkDetour (me ^^^ 2 ^ k) me 0 0 (op + fi * 2 ^ 2 + j * 2 ^ 6 + c * 2 ^ 10) []
    let mine := fun (fi k : Nat) => ({ i := fi, j := k, chip := me, place := 0, stage := 0 } : QDetour)
    let seeking := s.quill.detours.filter (fun x => !(x.i == i && x.place == 0))
    let having := fun (l : List QDetour) => ({ s with quill := { s.quill with detours := l } } : State)
    (∀ m r, g.inbox = m :: r → s.flag R.QM_CTL_en = true → qDst m = me →
      let s1 := s.setQg i { g with inbox := r }
      let fi := bits (qArg m) 5 2
      let j := bits (qArg m) 9 6
      let c := bits (qArg m) 21 10
      let keep := fun (l : List QDetour) => ({ s1 with quill := { s1.quill with detours := l } } : State)
      (qKind m = 10 → qArg m % 4 = 0 →
        let place := if me = c then 0 else if me ^^^ c = 2 ^ j then 1 else if me ^^^ c = 2 ^ fi ^^^ 2 ^ j then 2 else 3
        let d : QDetour := { i := fi, j := j, chip := c, place := place, stage := 0 }
        let others := s.quill.detours.filter (fun x => !(x.i == fi && x.chip == c))
        (s.detFree d = false → Yields (.detourReq i) s (fun t =>
            t = s1.streamPut (if place = 2 then fi else j) (ask (if place = 2 then fi else j) 2 fi j c)))
        ∧ (s.detFree d = true → place ≠ 3 → Yields (.detourReq i) s (fun t => t = (keep (others ++ [d])).streamPut
            (if place = 1 then fi else j) (ask (if place = 1 then fi else j) 0 fi j c)))
        ∧ (s.detFree d = true → place = 3 → Yields (.detourReq i) s (fun t => t.quill.detours = others ++ [{ d with stage := 1 }]
            ∧ FieldsSet s t [(R.QM_DIM_STATUS_lending, [j], 1)] ∧ (t.qg j).drop = (s.qg j).drop ||| 0xFFF000 ∧ t.ev = s.ev)))
      ∧ (qKind m = 10 → qArg m % 4 = 1 →
        ((s.detFind fi c = none ∨ ∃ d, s.detFind fi c = some d ∧ d.stage ≠ 0) → Yields (.detourGrant i) s (fun t => t = s1))
        ∧ (∀ d, s.detFind fi c = some d → d.stage = 0 → Yields (.detourGrant i) s (fun t =>
            { d with stage := 1 } ∈ t.quill.detours ∧ FieldsSet s t (d.lends.map (fun k => (R.QM_DIM_STATUS_lending, [k], 1)))
            ∧ (∀ k ∈ d.lends, (t.qg k).drop = (s.qg k).drop ||| 0xFFF000) ∧ t.ev = s.ev)))
      ∧ (qKind m = 10 → qArg m % 4 = 2 →
        ((s.detFind fi c = none ∨ ∃ d, s.detFind fi c = some d ∧ d.stage ≠ 0) → Yields (.detourRefuse i) s (fun t => t = s1))
        ∧ (∀ d, s.detFind fi c = some d → d.stage = 0 →
          (d.place ≠ 0 → Yields (.detourRefuse i) s (fun t => t = (keep (s.quill.detours.filter (fun x => x ≠ d))).streamPut
              (if d.place = 2 then fi else j) (ask (if d.place = 2 then fi else j) 2 fi j c)))
          ∧ (d.place = 0 → c = me → (∀ k < s.qd, j < k → k = fi ∨ s.detFree (mine fi k) = false) → Yields (.detourRefuse i) s (fun t =>
              (t.qg fi).downTt = some s.tt ∧ PostedLim s t E.QM_DETOUR 3 (some fi) [(.ix, fi), (.num, 0), (.en, 3)]))
          ∧ (∀ k, d.place = 0 → c = me → k < s.qd → j < k → k ≠ fi → s.detFree (mine fi k) = true →
              (∀ k' < k, j < k' → k' = fi ∨ s.detFree (mine fi k') = false) → Yields (.detourRefuse i) s (fun t =>
              t = (keep ((s.quill.detours.filter (fun x => x ≠ d)).filter (fun x => !(x.i == fi && x.place == 0)) ++ [mine fi k])).streamPut
                k (ask k 0 fi k me)))))
      ∧ (qKind m = 10 → qArg m % 4 = 3 →
        (s.detFind fi c = none → Yields (.detourEnd i) s (fun t => t = s1))
        ∧ (∀ d, s.detFind fi c = some d → d.stage < 2 → Yields (.detourEnd i) s (fun t =>
            t.quill.detours = s.quill.detours.filter (fun x => x ≠ d) ∧ t.mem = s.mem
            ∧ (d.place = 0 ∨ d.place = 3 → t.quill.relays = s.quill.relays
                ∧ FieldsSet s t [(R.QM_DIM_STATUS_detoured, [fi], 0), (R.QM_DIM_STATUS_j, [fi], 0), (R.QM_DIM_STATUS_lending, [d.j], 0)]
                ∧ PostedLim s t E.QM_DETOUR 2 (some fi) [(.ix, fi), (.num, d.j), (.en, 2)])
            ∧ (d.place ≠ 0 → d.place ≠ 3 → t.ev = s.ev
                ∧ FieldsSet s t [(R.QM_DIM_STATUS_lending, [d.j], 0), (R.QM_DIM_STATUS_lending, [fi], 0)]
                ∧ ∀ x ∈ t.quill.relays.cells, x ∈ s.quill.relays.cells
                    ∧ ¬ ((x.1 / 24 = fi ∨ x.1 / 24 = d.j) ∧ 12 ≤ x.1 % 24)))))
      ∧ (∀ ph tick, qKind m = 11 →
        let adopted : TbState := { s.tb with adopt := some { phase := ph, tick := tick, lead := qSrc m }, lead := some (qSrc m) }
        (s.tb.lead = none ∨ s.tb.lead = some (qSrc m) → Yields (.time i ph tick) s (fun t => t = { s1 with tb := adopted }))
        ∧ (∀ l, s.tb.lead = some l → qSrc m < l → Yields (.time i ph tick) s (fun t => t.tb = adopted
            ∧ Posted s t E.ALIGN_FAULT none [(.num, l), (.en, 2)]))
        ∧ (∀ l, s.tb.lead = some l → l < qSrc m → Yields (.time i ph tick) s (fun t => t.tb = s.tb
            ∧ Posted s t E.ALIGN_FAULT none [(.num, qSrc m), (.en, 2)])))
      ∧ (∀ id st, qKind m = 12 →
        (s.quill.running = none ∨ (∃ d, s.quill.running = some d ∧ (d.id ≠ id ∨ qSrc m ∈ d.reports)) →
          Yields (.distDone i id st) s (fun t => t = s1))
        ∧ (∀ d, s.quill.running = some d → d.id = id → qSrc m ∉ d.reports →
          let d1 := { d with reports := d.reports ++ [qSrc m] }
          let f := if st = 0 then R.QM_DIST_STATUS_ok else R.QM_DIST_STATUS_failed
          let chips := s.scopeChips me d.rack
          ((∃ x ∈ chips, x ∉ d1.reports) → Yields (.distDone i id st) s (fun t => t.quill.running = some d1 ∧ t.ev = s.ev
              ∧ FieldsSet s t [(f, [], s.get f + 1)]))
          ∧ ((∀ x ∈ chips, x ∈ d1.reports) → s.quill.waiting = none → Yields (.distDone i id st) s (fun t =>
              t.quill.running = none ∧ FieldsSet s t [(f, [], s.get f + 1)]
              ∧ PostedLim s t E.QM_DIST 1 none [(.en, id), (.en, 1), (.num, t.get R.QM_DIST_STATUS_ok),
                  (.num, chips.length - d1.reports.length)])))))
    ∧ (∀ m r len, g.inbox = m :: r → s.flag R.QM_CTL_en = true → qKind m = 8 →
      let s1 := s.setQg i { g with inbox := r }
      let root := qDst m
      let id := qTid m / 2 ^ 8
      let ix := qArg m % 2 ^ 16
      let rack := bit (qArg m) 16
      let x := me ^^^ root
      let base := qAddr m - 4096 * ix
      let known := s.quill.recv.find? (fun r => r.root == root && r.id == id)
      let top := topBit (s.scopeDims rack) x
      let u := s1.bcastDown me m top
      let report := fun (st : Nat) (w : State) =>
        (w.qSend (qMsg mkDistDone root me 0 0 (Config.distDone id st).toNat [])).2
      (x = 0 ∨ (∃ k, known = some k ∧ ix ∈ k.held) → Yields (.bcast i len) s (fun t => t = s1))
      ∧ (x ≠ 0 → known = none →
        (top = 0 → u = s1)
        ∧ (∀ k d, top = 1 → s.present? (me ^^^ 1) = true → s.route (me ^^^ 1) 0 none = some (k, d) → u = s1.streamPut k m)
        ∧ (s.quill.recv = [] → s.inboundOk base len = false → Yields (.bcast i len) s (fun t => t.mem = s.mem ∧ t.quill = (report 2
            { u with quill := { u.quill with recv := [{ root := root, id := id, dst := base, len := len, held := [ix],
                                                        refused := true }] } }).quill))
        ∧ (∀ y, s.quill.recv = [y] → y.refused = false → (y.len + 4095) / 4096 ≠ y.held.length → overlaps y.dst y.len base len = true →
            Yields (.bcast i len) s (fun t => t.mem = s.mem ∧ t.quill = (report 1
            { u with quill := { u.quill with recv := [y, { root := root, id := id, dst := base, len := len, held := [ix],
                                                           refused := true }] } }).quill))
        ∧ (s.quill.recv = [] → s.inboundOk base len = true → s.inboundOk (qAddr m) (qPayload m).length = true →
            s.audGuard (qAddr m) (qPayload m).length = none → Yields (.bcast i len) s (fun t =>
            (∀ k, k < (qPayload m).length → t.mem.read (qAddr m + k) = ((qPayload m)[k]?).getD 0#8)
            ∧ (∀ o, o < qAddr m ∨ qAddr m + (qPayload m).length ≤ o → t.mem.read o = s.mem.read o)
            ∧ (let v := { u with quill := { u.quill with recv := [{ root := root, id := id, dst := base, len := len, held := [ix],
                                                                    refused := false }] } }
               t.quill = if (len + 4095) / 4096 = 1 then (report 0 v).quill else v.quill)))))
    ∧ (let due := ∃ b, g.downTt = some b ∧ b + s.get R.QM_TIMERS_plan_hold_ms * 1000000 ≤ s.tt
       let able := i < s.qd ∧ s.flag R.QM_CTL_en = true ∧ bit me i = false ∧ s.present? (me ^^^ 2 ^ i) = true
       (¬ (able ∧ due) → Yields (.detourPlanHoldExpiry i) s (fun t => t = s))
       ∧ (able → due → s.detFind i me = none →
         ((∀ k < s.qd, k = i ∨ s.detFree (mine i k) = false) → Yields (.detourPlanHoldExpiry i) s (fun t =>
            (t.qg i).downTt = some s.tt ∧ PostedLim s t E.QM_DETOUR 3 (some i) [(.ix, i), (.num, 0), (.en, 3)]))
         ∧ (∀ k < s.qd, k ≠ i → s.detFree (mine i k) = true → (∀ k' < k, k' = i ∨ s.detFree (mine i k') = false) →
            Yields (.detourPlanHoldExpiry i) s (fun t => t = (having (seeking ++ [mine i k])).streamPut k (ask k 0 i k me))))
       ∧ (∀ d, able → due → s.detFind i me = some d →
         (d.stage ≠ 2 → (∀ k ∈ d.lends, s.usable k = true) → Yields (.detourPlanHoldExpiry i) s (fun t => t = s))
         ∧ (d.stage = 2 → Yields (.detourPlanHoldExpiry i) s (fun t => d ∉ t.quill.detours ∧ t.mem = s.mem))))
    ∧ (let due := ∃ b, g.directTt = some b ∧ b + s.get R.QM_TIMERS_plan_hold_ms * 1000000 ≤ s.tt
       (s.detFind i me = none ∨ (∃ d, s.detFind i me = some d ∧ ¬ (d.stage = 2 ∧ d.place = 0 ∧ due)) →
          Yields (.directRestoreHoldExpiry i) s (fun t => t = s))
       ∧ (∀ d, s.detFind i me = some d → d.stage = 2 → d.place = 0 → due → Yields (.directRestoreHoldExpiry i) s (fun t =>
          t.quill.detours = s.quill.detours.filter (fun x => x ≠ d)
          ∧ FieldsSet s t [(R.QM_DIM_STATUS_detoured, [i], 0), (R.QM_DIM_STATUS_j, [i], 0), (R.QM_DIM_STATUS_lending, [d.j], 0)]
          ∧ PostedLim s t E.QM_DETOUR 2 (some i) [(.ix, i), (.num, d.j), (.en, 2)])))
    ∧ (∀ src dst len id rack,
      let d : QDist := { id := id, src := src, dst := dst, len := len, rack := rack, next := 0, reports := [], tt := s.tt }
      let bad := len = 0 ∨ 2 ^ 28 < len ∨ 256 ≤ id ∨ s.inboundOk src len = false ∨ s.flag R.QM_CTL_en = false
      let cmd := Instr.qmDistCmd src dst len id rack
      let here := s.islandHeld 52 = false ∧ s.cfg.quillPorts ≠ 0
      let only := fun (n : Nat) (t : State) => FieldsSet s t [(R.QM_DIST_RESULT_result, [], n)]
      (¬ here → Yields cmd s (fun t => t = s)) ∧ (here → bad → Yields cmd s (fun t => only 4 t ∧ t = { s with regs := t.regs }))
      ∧ (here → ¬ bad → s.quill.running = none → Yields cmd s (fun t => t.mem = s.mem ∧ t.ev = s.ev
          ∧ FieldsSet s t [(R.QM_DIST_RESULT_result, [], 1), (R.QM_DIST_STATUS_ok, [], 0), (R.QM_DIST_STATUS_failed, [], 0)]
          ∧ ∃ n, t.quill.running = some { d with next := n } ∧ ((∀ k < s.qd, (s.qg k).msgs = []) → 0 < n)))
      ∧ (here → ¬ bad → s.quill.running.isSome = true → s.quill.waiting = none → Yields cmd s (fun t => only 2 t
          ∧ t = { s with regs := t.regs, quill := { s.quill with waiting := some d } }))
      ∧ (here → ¬ bad → s.quill.running.isSome = true → s.quill.waiting.isSome = true → Yields cmd s (fun t => only 3 t
          ∧ t = { s with regs := t.regs })))
    ∧ (s.quill.running = none → Yields .distTimeout s (fun t => t = s))
    ∧ (∀ d, s.quill.running = some d →
      let late := d.tt + s.get R.QM_DIST_TIME_dist_s * 1000000000
      (s.tt < late → Yields .distTimeout s (fun t => t = s))
      ∧ (late ≤ s.tt → s.quill.waiting = none → Yields .distTimeout s (fun t => t.quill = { s.quill with running := none }
          ∧ t = { s with regs := t.regs, ev := t.ev, quill := t.quill } ∧ FieldsSet s t []
          ∧ PostedLim s t E.QM_DIST 2 none [(.en, d.id), (.en, 2), (.num, s.get R.QM_DIST_STATUS_ok),
              (.num, (s.scopeChips me d.rack).length - d.reports.length)])))
    ∧ (∀ v, bits v 3 0 = i →
      let sq := bits v 8 4
      let q := (sq, bit v 9)
      let only := fun (n : Nat) (t : State) => FieldsSet s t [(R.QM_MEMBER_RESULT_result, [], n)]
      (bit v 31 = false ∨ s.qd ≤ i ∨ 24 ≤ sq ∨ s.islandHeld 52 = true → Yields (.qmMemberCmd v) s (fun t => t = s))
      ∧ (bit v 31 = true → i < s.qd → sq < 24 → s.islandHeld 52 = false →
        (g.reqWait.isSome = true → Yields (.qmMemberCmd v) s (fun t => only 3 t ∧ t = { s with regs := t.regs }))
        ∧ (g.reqWait = none → g.req.isSome = true ∨ g.change.isSome = true → Yields (.qmMemberCmd v) s (fun t => only 2 t
            ∧ t.quill = (s.setQg i { g with reqWait := some q }).quill ∧ t = { s with regs := t.regs, quill := t.quill }))
        ∧ (g.reqWait = none → g.req = none → g.change = none → Yields (.qmMemberCmd v) s (fun t => only 1 t
            ∧ (t.qg i).req = (if g.reqDone q then none else some q) ∧ (∀ k, k ≠ i → t.qg k = s.qg k)
            ∧ (bit v 9 = true → ((t.qg i).members.get? sq).isSome = true) ∧ (bit v 9 = false → bit (t.qg i).drop sq = true)))))
    ∧ (∀ src v, v < 2 ^ 32 →
      ((s.cfg.quillPorts = 0 → ∀ w, Yields (.qmIdWrite src w v) s (fun t => t = s))
        ∧ ∀ k, 128 ≤ k → Yields (.qmIdWrite src (some k) v) s (fun t => t = s))
      ∧ (∀ w : Option Nat, (∀ k, w = some k → k < 128) →
        let reg := if w.isSome then R.QM_PRESENT else R.QM_ID
        let ix := w.toList
        let off := reg.addr ix
        let old := s.regWord reg ix
        let bad := w = none ∧ s.cfg.quillPorts < bits v 15 12
        let new := fieldsWrite old (if bad then setBits v 15 12 s.qd else v) reg.fields
        s.cfg.quillPorts ≠ 0 → s.Takes src reg ix v →
        (s.flag R.QM_CTL_en = true → Yields (.qmIdWrite src w v) s (fun t => t.regWord reg ix = old ∧ t.quill = s.quill
            ∧ Journalled s t src 2 causeBlock off old v ∧ PostedLim s t E.QM_CFG_REFUSED off none [(.val, off)]))
        ∧ (s.flag R.QM_CTL_en = false → Yields (.qmIdWrite src w v) s (fun t => t.regWord reg ix = new ∧ t.quill = s.quill
            ∧ t.ev = s.ev ∧ Journalled s t src 0 (if bad then 1 else 0) off old v))))

/-! ### Private computation: the audit contexts (chapter 16) -/

/-- R408, R411 to R414, R417, Tables 16-5, 16-6, 16-7: open, seal and close are refused with their result, posted and journalled, the
context as it was, or take the context to OPENING, SEALING (its slot's seal counter advanced, in boot flash too) or CLOSING. The
cipher unit's end of an open leaves the body in the region and OPEN, or nothing and IDLE with AUTH, KEY or MEMORY; that of a seal
leaves the result record and SEALED, or OPEN; a close ends with the region zeroed and IDLE. -/
def Obligations.AuditContextsOpenSealAndClose : Prop :=
  ∀ (s : State) (src : Src) (k : Nat),
    (4 ≤ k ∨ s.islandHeld 52 = true → Yields (.auditOpen src k) s (fun t => t = s) ∧ Yields (.auditClose src k) s (fun t => t = s)
      ∧ ∀ ok, Yields (.auditSeal src k ok) s (fun t => t = s))
    ∧ (k < 4 → s.islandHeld 52 = false →
      let x := s.audCtx k
      let st := s.audState k
      let loc := fun (c : Src) => if c = .sdo then dictLoc 0x2900 (0x33 + 8 * k) else R.RG_AUD_CMD.addr [k]
      let refused := fun (cmd q : Nat) (y : AudCtx) (t : State) => t.audState k = st ∧ t.get R.RG_AUD_STATUS_result [k] = q
        ∧ t.mem = s.mem ∧ t.aud = s.aud ∧ t.cu = s.cu ∧ t.boot = s.boot
        ∧ Posted s t E.AUDIT_REFUSED (some k) [(.en, cmd), (.en, q)]
        ∧ Journalled s t src 2 causeBlock (loc src) (y.auditId % 2 ^ 32) (y.auditId / 2 ^ 32)
      let ended := fun (state q : Nat) (t : State) => t.audState k = state ∧ t.get R.RG_AUD_STATUS_result [k] = q
        ∧ Journalled s t x.src (if q = 1 then 0 else 2) (if q = 1 then 0 else causeBlock) (loc x.src) (x.auditId % 2 ^ 32)
            (x.auditId / 2 ^ 32)
      let two := fun (op q : Nat) (last : Event) (t : State) => t.ev.mgmt = s.ev.mgmt
        ++ [{ code := E.CU_OP_FAILED, tt := s.tt, detail := mkDetail none [(.ix, 1), (.en, op), (.en, q)] }, last]
      let note := fun (cmd q : Nat) => ({ code := E.AUDIT_REFUSED, tt := s.tt, detail := mkDetail (some k) [(.en, cmd), (.en, q)] } : Event)
      let out := s.ctxAddr R.RG_AUD_OUT_LO R.RG_AUD_OUT_HI k
      let outLen := hdrField x.hdr 60 4
      let win := x.region + hdrField x.hdr 56 4
      let done := s.cu.turn = some 1 ∧ s.cu.audit.head? = some k
      -- open
      (st ≠ 0 → Yields (.auditOpen src k) s (refused 1 2 x))
      ∧ (st = 0 →
        let y := s.audOpenCtx src k
        y.hdr = s.readMem (s.ctxAddr R.RG_AUD_PKG_LO R.RG_AUD_PKG_HI k) 64
        ∧ (∀ q, s.audOpenCheck k y = some q → Yields (.auditOpen src k) s (refused 1 q y))
        ∧ (s.audOpenCheck k y = none → Yields (.auditOpen src k) s (fun t => t.audState k = 1 ∧ t.audCtx k = y
            ∧ (∀ j, j ≠ k → t.audCtx j = s.audCtx j) ∧ t.cu.audit = s.cu.audit ++ [k] ∧ t.cu.fw = s.cu.fw ∧ t.mem = s.mem
            ∧ t.ev = s.ev ∧ SameRegs s t [R.RG_AUD_STATUS.addr [k]])))
      ∧ (st ≠ 1 ∨ ¬ done → ∀ err, Yields (.auditOpenComplete k err) s (fun t => t = s))
      ∧ (st = 1 → done → s.cu.test = 1 →
        let op := if x.gcm then 2 else 4
        let body := s.readMem (x.pkg + 64) x.bodyLen
        let tag := s.readMem (x.pkg + 64 + x.bodyLen) 16
        let clear := s.badIn x.pkg (80 + x.bodyLen) = false ∧ s.badMerge x.region x.bodyLen = false
        let plain := if x.gcm then (gcmOpen (s.slotKey x.keySlot) x.iv x.hdr body tag).1 else body
        let good := if x.gcm then (gcmOpen (s.slotKey x.keySlot) x.iv x.hdr body tag).2 = true
          else cmac (s.slotKey x.keySlot) (x.hdr ++ body) = tag
        let gone := fun (t : State) => t.audCtx k = AudCtx.empty ∧ t.cu.audit = s.cu.audit.filter (· ≠ k)
        (s.keyFor x.keySlot 1 = false → ∀ err, Yields (.auditOpenComplete k err) s (fun t => ended 0 4 t ∧ gone t ∧ t.mem = s.mem
            ∧ two op 4 (note 1 4) t))
        ∧ (s.keyFor x.keySlot 1 = true →
          (∀ err, err = true ∨ ¬ clear → Yields (.auditOpenComplete k err) s (fun t => ended 0 9 t ∧ gone t
              ∧ t.mem = (s.zeroMem x.region x.regionLen).mem ∧ two op 8 (note 1 9) t))
          ∧ (clear → ¬ good → Yields (.auditOpenComplete k false) s (fun t => ended 0 6 t ∧ gone t
              ∧ t.mem = (s.zeroMem x.region x.regionLen).mem ∧ t.get R.RG_ERR_auth = satTo 65535 (s.get R.RG_ERR_auth + 1)
              ∧ two op 6 { code := E.AUDIT_AUTH_FAIL, tt := s.tt, detail := mkDetail (some k) [(.wide, x.auditId)] } t))
          ∧ (clear → good → Yields (.auditOpenComplete k false) s (fun t => ended 2 1 t ∧ t.audCtx k = x
              ∧ t.cu.audit = s.cu.audit.filter (· ≠ k) ∧ t.mem = (s.writeMem x.region plain).mem
              ∧ t.regWord R.RG_AUD_ID_LO [k] = x.auditId % 2 ^ 32 ∧ t.regWord R.RG_AUD_ID_HI [k] = x.auditId / 2 ^ 32 % 2 ^ 32
              ∧ Posted s t E.AUDIT_OPENED (some k) [(.wide, x.auditId), (.en, hdrField x.hdr 5 1)]))))
      -- seal
      ∧ (∀ ok, (st ≠ 2 ∧ st ≠ 4 → Yields (.auditSeal src k ok) s (refused 2 2 x))
        ∧ (st = 2 ∨ st = 4 →
          (s.keyFor x.keySlot 1 = false → Yields (.auditSeal src k ok) s (refused 2 4 x))
          ∧ (s.keyFor x.keySlot 1 = true →
            (s.inHoardOrBurrow out (80 + outLen) = false → Yields (.auditSeal src k ok) s (refused 2 5 x))
            ∧ (s.inHoardOrBurrow out (80 + outLen) = true →
              (s.aud.restored = false ∨ ok = false → Yields (.auditSeal src k ok) s (refused 2 8 x))
              ∧ (s.aud.restored = true → ok = true → Yields (.auditSeal src k ok) s (fun t =>
                let n := s.aud.sealCtr.get x.keySlot 0 + 1
                t.audState k = 3 ∧ t.audCtx k = { x with src := src, out := out, ctr := n, was := st }
                ∧ t.aud.sealCtr.get? x.keySlot = some n ∧ t.boot.flash.seals.get? x.keySlot = some n
                ∧ (∀ j, j ≠ x.keySlot → t.aud.sealCtr.get? j = s.aud.sealCtr.get? j)
                ∧ t.cu.audit = s.cu.audit ++ [k] ∧ t.mem = s.mem ∧ t.ev = s.ev ∧ SameRegs s t [R.RG_AUD_STATUS.addr [k]]))))))
      ∧ (st ≠ 3 ∨ ¬ done → ∀ err, Yields (.auditSealComplete k err) s (fun t => t = s))
      ∧ (st = 3 → done →
        let op := if x.gcm then 1 else 3
        let clear := s.badIn win outLen = false ∧ s.badMerge x.out (80 + outLen) = false
        (s.keyFor x.keySlot 1 = false → ∀ err, Yields (.auditSealComplete k err) s (fun t => ended 2 4 t ∧ t.mem = s.mem
            ∧ two op 4 (note 2 4) t))
        ∧ (s.keyFor x.keySlot 1 = true →
          (∀ err, err = true ∨ ¬ clear → Yields (.auditSealComplete k err) s (fun t => ended 2 9 t ∧ t.mem = s.mem
              ∧ two op 8 (note 2 9) t))
          ∧ (clear → Yields (.auditSealComplete k false) s (fun t => ended 4 1 t ∧ t.audCtx k = x
              ∧ t.cu.audit = s.cu.audit.filter (· ≠ k) ∧ t.mem = (s.writeMem x.out (s.resultRecord x)).mem
              ∧ Posted s t E.AUDIT_SEALED (some k) [(.wide, x.auditId), (.wide, x.ctr)]))))
      -- close
      ∧ (st ≠ 2 ∧ st ≠ 4 → Yields (.auditClose src k) s (refused 3 2 x))
      ∧ (st = 2 ∨ st = 4 → Yields (.auditClose src k) s (fun t => t.audState k = 5 ∧ t.audCtx k = { x with src := src }
          ∧ (∀ j, j ≠ k → t.audCtx j = s.audCtx j) ∧ t.mem = s.mem ∧ t.ev = s.ev ∧ t.cu = s.cu
          ∧ SameRegs s t [R.RG_AUD_STATUS.addr [k]]))
      ∧ (st ≠ 5 → Yields (.auditCloseComplete k) s (fun t => t = s))
      ∧ (st = 5 → Yields (.auditCloseComplete k) s (fun t => ended 0 1 t ∧ t.audCtx k = AudCtx.empty
          ∧ (∀ j, j ≠ k → t.audCtx j = s.audCtx j) ∧ t.mem = (s.zeroMem x.region x.regionLen).mem
          ∧ t.regWord R.RG_AUD_ID_LO [k] = 0 ∧ t.regWord R.RG_AUD_ID_HI [k] = 0
          ∧ Posted s t E.AUDIT_CLOSED (some k) [(.wide, x.auditId), (.en, 1)])))

/-! ### The cipher unit (chapter 17) -/

/-- R421 to R425, R427 to R429, R431 to R436: an operation of the firmware port is refused with its status, posted and counted, or
starts; its end writes the tag, or checks it, and a decryption that fails leaves zeros. A suspended operation is saved, restored and
resumed; a quantum moves the datapath to the port that waits. A key load or clear fills or empties its slot, is posted and journalled,
or is refused. The self-tests open or close the unit. -/
def Obligations.CipherOperationsAndKeys : Prop :=
  ∀ (s : State) (src : Src) (slot rsvd : Nat) (wrap fwkey : Bool),
    let ops : List (Instr × Nat) :=
      [(.gcmEncrypt src slot wrap fwkey rsvd, 1), (.gcmDecrypt src slot wrap fwkey rsvd, 2),
       (.cmacGenerate src slot wrap fwkey rsvd, 3), (.cmacVerify src slot wrap fwkey rsvd, 4),
       (.contextSave src slot wrap fwkey rsvd, 5), (.contextRestore src slot wrap fwkey rsvd, 6)]
    let failed := fun (op q : Nat) (t : State) => Posted s t E.CU_OP_FAILED none [(.ix, 0), (.en, op), (.en, q)]
    let dst := s.cuAddr R.CU_OP_DST_LO R.CU_OP_DST_HI
    let from_ := s.cuAddr R.CU_OP_SRC_LO R.CU_OP_SRC_HI
    let size := if wrap then 128 else 96
    (∀ x ∈ ops,
      let n := x.2
      let v := n + slot % 16 * 2 ^ 3 + b2n wrap * 2 ^ 7 + b2n fwkey * 2 ^ 8 + rsvd % 2 ^ 22 * 2 ^ 9 + 2 ^ 31
      let ctl := [(R.CU_OP_CTL_op, [], n), (R.CU_OP_CTL_slot, [], slot % 16), (R.CU_OP_CTL_wrap, [], b2n wrap),
                  (R.CU_OP_CTL_fwkey, [], b2n fwkey)]
      let refused := fun (q : Nat) => Yields x.1 s (fun t => t.mem = s.mem ∧ t.cu = s.cu ∧ failed n q t
        ∧ FieldsSet s t (ctl ++ [(R.CU_OP_STATUS_status, [], q),
            (R.CU_ERR_refused, [], satTo 65535 (s.get R.CU_ERR_refused + 1))]))
      (src = .host → Yields x.1 s (fun t => t = s))
      ∧ (src ≠ .host →
        (s.cu.test = 0 → refused 11) ∧ (s.cu.test = 2 → refused 10)
        ∧ (s.cu.test = 1 → n ≤ 4 →
          let o := s.cuOpOf v
          (s.cu.fw.isSome = true → refused 2)
          ∧ (s.cu.fw = none → rsvd % 2 ^ 22 ≠ 0 ∨ (fwkey = true ∧ n ≠ 4) ∨ (3 ≤ n ∧ o.aadLen ≠ 0) → refused 3)
          ∧ (∀ q, s.cuCheck v o = some q → refused q)
          ∧ (s.cuCheck v o = none → Yields x.1 s (fun t =>
            let iv := leBytes 12 (s.regWord R.CU_OP_IV [0] + s.regWord R.CU_OP_IV [1] * 2 ^ 32 + s.regWord R.CU_OP_IV [2] * 2 ^ 64)
            t.cu.fw = some (if n ≤ 2 then { o with ek := aes (s.opKey o) (j0 iv), ctr := incr32 (j0 iv) } else o)
            ∧ (s.cu.turn = none → t.cu.turn = some 0) ∧ (∀ p, s.cu.turn = some p → t.cu.turn = some p)
            ∧ t.cu.keys = s.cu.keys ∧ t.cu.audit = s.cu.audit ∧ t.mem = s.mem ∧ t.ev = s.ev
            ∧ FieldsSet s t (ctl ++ [(R.CU_OP_STATUS_busy, [], 1), (R.CU_OP_STATUS_suspended, [], 0),
                (R.CU_OP_STATUS_status, [], 0)]))))
        ∧ (s.cu.test = 1 → n = 5 →
          (s.cu.fw = none → refused 9)
          ∧ (∀ o, s.cu.fw = some o →
            (o.suspended = false → refused 2)
            ∧ (o.suspended = true → rsvd % 2 ^ 22 = 0 → fwkey = false →
              (s.cuRangeOk true dst size = false → refused 7)
              ∧ (s.cuRangeOk true dst size = true →
                (wrap = true → s.cu.devBad = true → refused 10)
                ∧ ((wrap = true → s.cu.devBad = false) → s.badMerge dst size = false → Yields x.1 s (fun t =>
                    t.mem = (s.writeMem dst (if wrap then s.wrapContext o else o.context)).mem ∧ t.cu.fw = none
                    ∧ t.cu.saves = (if wrap then (s.cu.saves + 1) % 2 ^ 64 else s.cu.saves) ∧ t.ev = s.ev
                    ∧ FieldsSet s t (ctl ++ [(R.CU_OP_STATUS_busy, [], 0), (R.CU_OP_STATUS_suspended, [], 0),
                        (R.CU_OP_STATUS_status, [], 1)])))))))
        ∧ (s.cu.test = 1 → n = 6 →
          (s.cu.fw.isSome = true → refused 2)
          ∧ (s.cu.fw = none → rsvd % 2 ^ 22 = 0 → fwkey = false → s.cuRangeOk true from_ size = true →
            (wrap = true → s.cu.devBad = false) → s.badIn from_ size = false →
            (s.readContext wrap from_ = none → refused 9)
            ∧ (∀ l, s.readContext wrap from_ = some l →
              (s.contextOk l = false → refused 9)
              ∧ (s.contextOk l = true → Yields x.1 s (fun t => t.cu = { s.cu with fw := some (CuOp.ofContext l) } ∧ t.mem = s.mem
                  ∧ t.ev = s.ev ∧ FieldsSet s t (ctl ++ [(R.CU_OP_STATUS_busy, [], 0), (R.CU_OP_STATUS_suspended, [], 1),
                      (R.CU_OP_STATUS_status, [], 1)]))))))))
    ∧ (s.cu.turn ≠ some 0 ∨ s.cu.fw = none → ∀ err, Yields (.cipherOpComplete err) s (fun t => t = s))
    ∧ (∀ o, s.cu.turn = some 0 → s.cu.fw = some o → 1 ≤ o.op → o.op ≤ 4 →
      let p := s.cuAdvance o o.blocks
      let left := (p.2.src + p.2.done, p.2.len - p.2.done)
      let reads := o.op = 2 ∨ o.op = 4
      let clear := p.2.bad = false ∧ (reads → p.1.badIn o.tag 16 = false) ∧ (¬ reads → p.1.badMerge o.tag 16 = false)
        ∧ (2 < o.op → p.1.badIn left.1 left.2 = false)
      let ends := fun (q : Nat) (t : State) => t.cu.fw = none ∧ t.get R.CU_OP_STATUS_status = q ∧ t.get R.CU_OP_STATUS_busy = 0
        ∧ t.cu.keys = s.cu.keys ∧ (q = 1 → t.ev = s.ev) ∧ (q ≠ 1 → failed o.op q t)
      (∀ err, err = true ∨ ¬ clear → Yields (.cipherOpComplete err) s (fun t => ends 8 t
          ∧ t.mem = if o.op = 2 then (p.1.zeroMem o.dst p.2.done).mem else p.1.mem))
      ∧ (clear → ¬ reads → Yields (.cipherOpComplete false) s (fun t => ends 1 t ∧ t.mem = (p.1.writeMem o.tag (p.1.cuTag p.2)).mem))
      ∧ (clear → reads → p.1.readMem o.tag 16 = p.1.cuTag p.2 → Yields (.cipherOpComplete false) s (fun t => ends 1 t
          ∧ t.mem = p.1.mem))
      ∧ (clear → reads → p.1.readMem o.tag 16 ≠ p.1.cuTag p.2 → Yields (.cipherOpComplete false) s (fun t => ends 6 t
          ∧ t.get R.CU_ERR_auth = satTo 65535 (s.get R.CU_ERR_auth + 1)
          ∧ t.mem = if o.op = 2 then (p.1.zeroMem o.dst p.2.len).mem else p.1.mem)))
    ∧ (∀ o, s.cu.turn = some 0 → s.cu.fw = some o → o.op = 3 → o.acc = 0 → o.done = 0 → o.part = [] → o.len ≤ 16 → o.bad = false →
      s.badWords = [] → Yields (.cipherOpComplete false) s (fun t =>
        t.mem = (s.writeMem o.tag (cmac (s.opKey o) (s.readMem o.src o.len))).mem))
    ∧ (∀ n,
      let still := (s.cu.turn = none ∨ (s.cu.turn = some 0 ∧ s.cu.audit = []) ∨ (s.cu.turn = some 1 ∧ s.cuFwWaits = false))
      (still → Yields (.cipherQuantumExpiry n) s (fun t => t = s))
      ∧ (s.cu.turn = some 1 → s.cuFwWaits = true → Yields (.cipherQuantumExpiry n) s (fun t =>
          t = { s with cu := { s.cu with turn := some 0 } }))
      ∧ ((s.cu.fw = none ∨ ∃ o, s.cu.fw = some o ∧ o.suspended = true) → Yields (.cipherSuspend n) s (fun t => t = s))
      ∧ (∀ o, s.cu.fw = some o → o.suspended = false →
        let p := s.cuAdvance o n
        (p.2.bad = false →
          (s.cu.turn = some 0 → s.cu.audit ≠ [] → Yields (.cipherQuantumExpiry n) s (fun t =>
              t.cu.fw = some { p.2 with suspended := false } ∧ t.cu.turn = some 1 ∧ t.mem = p.1.mem ∧ t.ev = s.ev))
          ∧ Yields (.cipherSuspend n) s (fun t => t.cu.fw = some { p.2 with suspended := true } ∧ t.mem = p.1.mem ∧ t.ev = s.ev
              ∧ FieldsSet s t [(R.CU_OP_STATUS_busy, [], 0), (R.CU_OP_STATUS_suspended, [], 1)]))
        ∧ (p.2.bad = true → Yields (.cipherSuspend n) s (fun t => t.cu.fw = none ∧ t.get R.CU_OP_STATUS_status = 8
            ∧ failed o.op 8 t ∧ t.mem = if o.op = 2 then (p.1.zeroMem o.dst p.2.done).mem else p.1.mem))))
    ∧ ((s.cu.fw = none ∨ ∃ o, s.cu.fw = some o ∧ o.suspended = false) → Yields .cipherResume s (fun t => t = s))
    ∧ (∀ o, s.cu.fw = some o → o.suspended = true →
      let a := s.cuOpOf 0
      let o1 := if o.restored then { o with src := a.src, dst := a.dst, aad := a.aad, tag := a.tag, restored := false } else o
      let fits := s.cuRangeOk true o1.src o1.len = true ∧ s.cuRangeOk true o1.tag 16 = true
        ∧ (o.op = 1 ∨ o.op = 2 → s.cuRangeOk true o1.dst o1.len = true ∧ s.cuRangeOk true o1.aad o1.aadLen = true)
      (fits → Yields .cipherResume s (fun t => t.cu.fw = some { o1 with suspended := false } ∧ t.mem = s.mem ∧ t.ev = s.ev
          ∧ (s.cu.turn = none → t.cu.turn = some 0)
          ∧ FieldsSet s t [(R.CU_OP_STATUS_busy, [], 1), (R.CU_OP_STATUS_suspended, [], 0)]))
      ∧ (¬ fits → Yields .cipherResume s (fun t => t.cu.fw = none ∧ t.mem = s.mem ∧ t.get R.CU_OP_STATUS_status = 7
          ∧ failed o.op 7 t)))
    ∧ (∀ (clear : Bool) (v : Nat), v < 2 ^ 32 →
      let cmd := if clear then Instr.keyClear src v else .keyLoad src v
      let k := v % 16
      let w := setBits v 8 8 (b2n clear)
      let loc := if src = .sdo then dictLoc 0x2900 2 else R.CU_KEY_LOAD.off
      let data := (List.range (if bit v 4 then 8 else 4)).flatMap (fun i => leBytes 4 (s.cu.data.get i 0))
      let used := (∃ o, s.cu.fw = some o ∧ o.fwkey = false ∧ o.slot = k)
        ∨ (∃ c x, s.cu.audit.head? = some c ∧ s.aud.ctx.get? c = some x ∧ x.keySlot = k)
      let refused := fun (cause jc : Nat) => Yields cmd s (fun t => t.cu = s.cu ∧ t.boot = s.boot
        ∧ (∀ j, t.regWord R.CU_KEY_INFO [j] = s.regWord R.CU_KEY_INFO [j] ∨ 16 ≤ j)
        ∧ Posted s t E.CU_KEY_REFUSED none [(.ix, k), (.en, cause)] ∧ Journalled s t src 2 jc loc 0 w)
      (src = .host ∨ bit v 31 = false → Yields cmd s (fun t => t = s))
      ∧ (src ≠ .host → bit v 31 = true →
        (s.cu.test ≠ 1 → refused 2 causeBlock)
        ∧ (s.cu.test = 1 → used → refused 1 causeInUse)
        ∧ (s.cu.test = 1 → ¬ used → Yields cmd s (fun t =>
            let kcv := if clear then 0 else aes data 0 / 2 ^ 104
            let use := if clear then 0 else bits v 7 5
            t.cu.keys.get? k = (if clear then none else some data) ∧ (∀ j, j ≠ k → t.cu.keys.get? j = s.cu.keys.get? j)
            ∧ t.get R.CU_KEY_INFO_valid [k] = b2n (!clear) ∧ t.get R.CU_KEY_INFO_use [k] = use
            ∧ t.get R.CU_KEY_INFO_k256 [k] = (if clear then 0 else b2n (bit v 4))
            ∧ t.get R.CU_KEY_INFO_gen [k] = (s.get R.CU_KEY_INFO_gen [k] + 1) % 256 ∧ t.get R.CU_KEY_KCV_kcv [k] = kcv % 2 ^ 24
            ∧ t.mem = s.mem ∧ t.cu.fw = s.cu.fw ∧ Journalled s t src 0 0 loc 0 w
            ∧ Posted s t E.CU_KEY_CHANGED none [(.ix, k), (.en, use), (.val, kcv), (.en, if clear then 2 else 1)]))))
    ∧ (s.cu.test ≠ 0 ∨ s.por = true → ∀ f, Yields (.cipherSelftestDone f) s (fun t => t = s))
    ∧ (s.cu.test = 0 → s.por = false →
      Yields (.cipherSelftestDone none) s (fun t =>
        t = { s with cu := { s.cu with test := 1 }, ecatHold := s.ecatHold || decide (s.get R.EM_VMON_STATUS_fault = 0) })
      ∧ ∀ n, Yields (.cipherSelftestDone (some n)) s (fun t => t.cu = { s.cu with test := 2 } ∧ t.mem = s.mem
          ∧ Posted s t E.CU_SELFTEST_FAIL none [(.en, n)]))

/-! ### The mailbox: SDO and FoE (chapters 20 and 21) -/

/-- R470, R495 to R497, R500, R515 to R519, R541: no request is served in INIT or by a halted plane; a repeat is answered from the stored
response and executed no second time. An upload answers the entry's value, the rest in segments, or an abort code; a download is
checked in full, then applied and answered, or aborted; a segment out of step or size ends the transfer, as does 1 s without one. SDO
Information answers what the dictionary has. FoE opens one transfer at a time, takes or sends its packets, and ends with its effect. -/
def Obligations.MailboxRequestsAndFiles : Prop :=
  ∀ (s : State) (cnt index sub : Nat) (ca : Bool) (l : List Byte),
    let fresh := s.Fresh cnt
    let u := s.taken cnt none
    let only := fun (t : State) => t = { s with ecat := t.ecat }
    let aborted := fun (i k c : Nat) (t : State) => Answered s t (.abort i k c) ∧ t.ecat.seg = none ∧ only t
    let failed := fun (c : Nat) (t : State) => Answered s t (.foeError c) ∧ only t ∧ t.ecat.foe = s.ecat.foe
    (∀ size toggle last q step ok,
      let cmds : List Instr := [.sdoUpload cnt index sub ca, .sdoDownload cnt index sub ca size l, .sdoSegment cnt toggle last l,
        .sdoInformation cnt q, .foeWrite cnt step ok, .foeRead cnt step]
      (∀ c ∈ cmds, s.mailOn = false → Yields c s (fun t => t = s))
      ∧ (∀ c ∈ cmds, s.mailOn = true → cnt % 8 ≠ 0 → cnt % 8 = s.ecat.lastCnt → s.ecat.stored.isSome = true →
          Yields c s (fun t => t.ecat.sm1 = s.ecat.stored ∧ t.ecat.sm0 = none ∧ t.ecat.stored = s.ecat.stored
            ∧ t.ecat.lastCnt = s.ecat.lastCnt ∧ t.ecat.seg = s.ecat.seg ∧ t.ecat.foe = s.ecat.foe ∧ only t)))
    -- upload
    ∧ (fresh →
      (s.earlyShut index = true → Yields (.sdoUpload cnt index sub ca) s (aborted index sub 0x08000022))
      ∧ (s.earlyShut index = false → dictTop s.cfg index = none →
          Yields (.sdoUpload cnt index sub ca) s (aborted index sub 0x06020000))
      ∧ (s.earlyShut index = false → (dictTop s.cfg index).isSome = true →
        (dictEnt s.cfg index sub = none → Yields (.sdoUpload cnt index sub false) s (aborted index sub 0x06090011))
        ∧ (∀ e, dictEnt s.cfg index sub = some e →
          (e.acc = .wo → Yields (.sdoUpload cnt index sub false) s (aborted index sub 0x06010001))
          ∧ (e.acc ≠ .wo → s.notHeld e = false →
            let v := u.sdoRead index sub e
            v.length ≤ 240 → Yields (.sdoUpload cnt index sub false) s (fun t => Answered s t (.upload index sub v 0)
                ∧ t.ecat.seg = none ∧ only t)))
        ∧ (1 < sub → Yields (.sdoUpload cnt index sub true) s (aborted index sub 0x06010000))
        ∧ (∀ v, sub ≤ 1 → u.sdoValue index sub true = .ok v →
          (v.length ≤ 240 → Yields (.sdoUpload cnt index sub true) s (fun t => Answered s t (.upload index sub v 0)
              ∧ t.ecat.seg = none ∧ only t))
          ∧ (240 < v.length → Yields (.sdoUpload cnt index sub true) s (fun t =>
              Answered s t (.upload index sub (v.take 240) (v.length - 240)) ∧ only t ∧ t.ecat.seg = some
                { upload := true, index := index, sub := sub, ca := true, toggle := false, size := v.length,
                  data := v.drop 240, tt := s.tt })))))
    -- download
    ∧ (fresh →
      (s.limited = true → ∀ size, Yields (.sdoDownload cnt index sub ca size l) s (aborted index sub 0x08000022))
      ∧ (s.limited = false →
        (∀ n, n < l.length ∨ (n ≠ l.length ∧ 2 ^ 20 < n) → Yields (.sdoDownload cnt index sub ca (some n) l) s
            (aborted index sub 0x06070010))
        ∧ (∀ n, l.length < n → n ≤ 2 ^ 20 → Yields (.sdoDownload cnt index sub ca (some n) l) s (fun t =>
            Answered s t (.download index sub) ∧ only t ∧ t.ecat.seg = some
              { upload := false, index := index, sub := sub, ca := ca, toggle := false, size := n, data := l, tt := s.tt }))
        ∧ (∀ size, size = none ∨ size = some l.length →
          let cmd := Instr.sdoDownload cnt index sub ca size l
          (¬ (index = 0x2000 ∧ sub = 5 ∧ ca = false) →
            (∀ c, u.sdoPieces index sub ca l = .error c → Yields cmd s (aborted index sub c))
            ∧ (∀ xs, u.sdoPieces index sub ca l = .ok xs →
              let fault := xs.findSome? (fun x => (u.pieceFault index x).map (fun f => (x, f)))
              (∀ x f, fault = some (x, f) → Yields cmd s (fun t => Answered s t (.abort index sub f.2) ∧ t.boot = s.boot
                  ∧ t.emcyMask = s.emcyMask ∧ t.ds = s.ds ∧ t.mem = s.mem ∧ t.ev = s.ev
                  ∧ (isJournalled index x.2.1 = true →
                      Journalled s t .sdo 2 f.1 (dictLoc index x.1) (leVal (u.dictRead x.2.1)) (leVal x.2.2))))
              ∧ (fault = none → Yields cmd s (fun t =>
                  let r := u.applyPieces index xs
                  Answered r.1 t (if r.2 then .download index sub else .abort index sub 0x08000020)
                  ∧ t = { r.1 with ecat := t.ecat }))))
          ∧ (index = 0x2000 → sub = 3 → ca = false → l.length = 2 → leVal l ||| 0x0FFE = 0x0FFE → s.get R.HP_JRN_STATUS_copy = 0 →
              Yields cmd s (fun t => Answered s t (.download 0x2000 3) ∧ t.emcyMask = leVal l ∧ t.mem = s.mem
                ∧ Journalled s t .sdo 0 0 (dictLoc 0x2000 3) (s.emcyMask % 2 ^ 16) (leVal l)))
          ∧ (index = 0x2000 → sub = 5 → ca = false →
            (l.length ≠ 4 → Yields cmd s (aborted 0x2000 5 0x06070010))
            ∧ (l.length = 4 → leVal l = 0x53544F50 → Yields cmd s (fun t =>
                Answered (u.lifeStop .sdo) t (if s.boot.stop ≠ 0 ∨ s.phase < 2 ∨ 12 < s.phase then .abort 0x2000 5 0x08000022
                  else .download 0x2000 5) ∧ t = { u.lifeStop .sdo with ecat := t.ecat }))
            ∧ (l.length = 4 → leVal l = 0x5741524D → Yields cmd s (fun t =>
                let a := u.reply (.download 0x2000 5)
                t = { a.lifeWarm .sdo with ecat := t.ecat } ∧ t.ecat.lastRead = a.ecat.stored))
            ∧ (l.length = 4 → leVal l ≠ 0x53544F50 → leVal l ≠ 0x5741524D → Yields cmd s (fun t =>
                Answered s t (.abort 0x2000 5 0x06090030) ∧ t.get R.HP_BOOT_STATUS_lc_result = 3 ∧ t.mem = s.mem
                ∧ t.boot = s.boot))))))
    -- segments
    ∧ (fresh → ∀ toggle last,
      let cmd := Instr.sdoSegment cnt toggle last l
      (s.ecat.seg = none → Yields cmd s (aborted 0 0 0x05040001))
      ∧ (∀ x, s.ecat.seg = some x →
        (toggle ≠ x.toggle → Yields cmd s (aborted x.index x.sub 0x05030000))
        ∧ (toggle = x.toggle → x.upload = true → Yields cmd s (fun t =>
            Answered s t (.segment toggle (x.data.take 247) (decide (x.data.length ≤ 247))) ∧ only t
            ∧ t.ecat.seg = if x.data.length ≤ 247 then none
                else some { x with data := x.data.drop 247, toggle := !x.toggle, tt := s.tt }))
        ∧ (toggle = x.toggle → x.upload = false →
          let all := x.data ++ l
          (x.size < all.length ∨ (last = true ∧ all.length ≠ x.size) → Yields cmd s (aborted x.index x.sub 0x06070010))
          ∧ (last = true → all.length = x.size → Yields cmd s (fun t =>
              t = u.sdoApply x.index x.sub x.ca all (.segment toggle [] true)))
          ∧ (last = false → all.length ≤ x.size → Yields cmd s (fun t => Answered s t (.segment toggle [] false) ∧ only t
              ∧ t.ecat.seg = some { x with data := all, toggle := !x.toggle, tt := s.tt })))))
    ∧ (let due := fun (x : SegXfer) => s.mailOn = true ∧ x.tt + 1000000000 ≤ s.tt
       ((s.ecat.seg = none ∨ ∃ x, s.ecat.seg = some x ∧ ¬ due x) → Yields .sdoSegmentTimeout s (fun t => t = s))
       ∧ (∀ x, s.ecat.seg = some x → due x → Yields .sdoSegmentTimeout s (fun t => t.ecat.seg = none ∧ only t
          ∧ t.ecat.sm1.toList ++ t.ecat.replies = s.ecat.sm1.toList ++ s.ecat.replies
              ++ [(.abort x.index x.sub 0x05040000, s.ecat.nextCnt)])))
    ∧ (s.escOn = false ∨ s.ecat.al = 1 → Yields .mailboxRepeat s (fun t => t = s))
    ∧ (s.escOn = true → s.ecat.al ≠ 1 → Yields .mailboxRepeat s (fun t => t.ecat.rep = !s.ecat.rep ∧ only t
        ∧ t.ecat.stored = s.ecat.stored ∧ t.ecat.lastCnt = s.ecat.lastCnt
        ∧ t.ecat.sm1 = if s.ecat.stored.isSome then s.ecat.stored else s.ecat.sm1))
    -- SDO Information
    ∧ (fresh →
      let told := fun (a : List Nat) (b : String) (t : State) => Answered s t (.info a b) ∧ t.ecat.seg = none ∧ only t
      Yields (.sdoInformation cnt .list) s
        (told (allObjects.filter (fun i => (dictTop s.cfg i).isSome && !s.earlyShut i)) "")
      ∧ (s.earlyShut index = true → Yields (.sdoInformation cnt (.object index)) s (aborted index 0 0x08000022)
          ∧ Yields (.sdoInformation cnt (.entry index sub)) s (aborted index sub 0x08000022))
      ∧ (s.earlyShut index = false →
        (dictTop s.cfg index = none → Yields (.sdoInformation cnt (.object index)) s (aborted index 0 0x06020000)
            ∧ Yields (.sdoInformation cnt (.entry index sub)) s (aborted index sub 0x06020000))
        ∧ (∀ n, dictTop s.cfg index = some n →
          (dictSingle index = none → Yields (.sdoInformation cnt (.object index)) s (told [index, 0, n, 9] (dictName index)))
          ∧ (∀ e, dictSingle index = some e → Yields (.sdoInformation cnt (.object index)) s (told [index, e.ty, n, 7] (dictName index)))
          ∧ (dictEnt s.cfg index sub = none → Yields (.sdoInformation cnt (.entry index sub)) s (aborted index sub 0x06090011))
          ∧ (∀ e, dictEnt s.cfg index sub = some e → Yields (.sdoInformation cnt (.entry index sub)) s
              (told [index, sub, e.ty, 8 * (u.dictRead e).length, accessWord e] e.name)))))
    -- FoE
    ∧ (fresh → ∀ (f : FoeFile) (rd ok : Bool),
      let cmd := if rd then Instr.foeRead cnt (.opened f) else .foeWrite cnt (.opened f) ok
      (s.ecat.foe.isSome = true → Yields cmd s (failed 0x8002))
      ∧ (s.ecat.foe = none →
        (f = .unknown → Yields cmd s (failed 0x8001))
        ∧ (f = .fw → rd = false → s.ecat.al ≠ 3 → Yields cmd s (failed 0x8008))
        ∧ (f = .params ∨ (f = .journal ∧ rd = true) → s.alUp = false → Yields cmd s (failed 0x8009))
        ∧ (s.foeRefusal f false = none → rd = false → Yields cmd s (fun t => Answered s t (.foeAck 0) ∧ only t
            ∧ t.ecat.foe = some { file := f, read := false, data := [], packet := 0, final := false }))
        ∧ (s.foeRefusal f true = none → rd = true → Yields cmd s (fun t =>
            let d := if f = .params then s.boot.flash.parBytes else s.journalFile
            Answered s t (.foeData 1 (d.take 244)) ∧ only t ∧ t.ecat.foe =
              some { file := f, read := true, data := d.drop 244, packet := 1, final := decide (d.length < 244) }))))
    ∧ (fresh → ∀ (last ok : Bool) (ps : Option (List Param)),
      let put := Instr.foeWrite cnt (.data l last ps) ok
      let ack := Instr.foeRead cnt .ack
      let done := fun (x : FoeXfer) (r : Nat) => (E.FOE_DONE, [(FK.en, fileNo x.file), (FK.en, (Config.foeResult r).toNat)])
      Yields (.foeWrite cnt .ack ok) s (failed 0x8004) ∧ Yields (.foeRead cnt (.data l last ps)) s (failed 0x8004)
      ∧ (s.ecat.foe = none → Yields put s (failed 0x8004) ∧ Yields ack s (failed 0x8004))
      ∧ (∀ x, s.ecat.foe = some x →
        (x.read = true → Yields put s (failed 0x8004)
          ∧ (x.final = true → Yields ack s (fun t => t.ecat.foe = none ∧ Posted s t (done x 0).1 none (done x 0).2
              ∧ t.ecat.stored = none ∧ t.ecat.sm1 = s.ecat.sm1))
          ∧ (x.final = false → Yields ack s (fun t => Answered s t (.foeData (x.packet + 1) (x.data.take 244)) ∧ only t
              ∧ t.ecat.foe = some { x with data := x.data.drop 244, packet := x.packet + 1,
                                           final := decide (x.data.length < 244) })))
        ∧ (x.read = false → Yields ack s (failed 0x8004)
          ∧ (let all := x.data ++ l
             let limit := if x.file = .fw then 229376 else 131072
             let ended := fun (r : Nat) (t : State) => t.ecat.foe = none ∧ Answered s t (.foeError r)
             (limit < all.length → Yields put s (fun t => ended 0x8003 t ∧ Posted s t (done x 0x8003).1 none (done x 0x8003).2
                ∧ t.boot = s.boot))
             ∧ (all.length ≤ limit →
               (last = false → Yields put s (fun t => Answered s t (.foeAck (x.packet + 1)) ∧ t.ev = s.ev
                  ∧ t.ecat.foe = some { x with data := all, packet := x.packet + 1 }
                  ∧ (x.file ≠ .fw ∨ s.phase = 15 → only t)))
               ∧ (last = true → x.file ≠ .fw →
                 (ps = none → Yields put s (fun t => ended 0x800B t ∧ t.boot = s.boot
                    ∧ Posted s t (done x 0x800B).1 none (done x 0x800B).2))
                 ∧ (∀ p, ps = some p → ok = false → Yields put s (fun t => ended 0x800B t ∧ t.boot = s.boot
                    ∧ PostedFirst s t E.FLASH_FAULT none [(.val, 0xA0000), (.en, 2)]))
                 ∧ (∀ p, ps = some p → ok = true → Yields put s (fun t => t.ecat.foe = none
                    ∧ Answered s t (.foeAck (x.packet + 1)) ∧ t.boot.flash.parBytes = all ∧ t.boot.flash.params = some p
                    ∧ Journalled s t .foe 0 0 Config.foeWhere.toNat (crc32 s.boot.flash.parBytes) (crc32 all)
                    ∧ Posted s t (done x 0).1 none (done x 0).2)))
               ∧ (last = true → x.file = .fw → s.phase ≠ 15 →
                 (∀ q, s.imageCause all = some q → Yields put s (fun t => ended 0x800B t
                    ∧ newestCopy t.boot.flash.dir0 t.boot.flash.dir1 = newestCopy s.boot.flash.dir0 s.boot.flash.dir1))
                 ∧ (s.imageCause all = none → ok = true → Yields put s (fun t => t.ecat.foe = none
                    ∧ Answered s t (.foeAck (x.packet + 1)) ∧ t.boot.flash.image s.updatePlace = all
                    ∧ newestCopy t.boot.flash.dir0 t.boot.flash.dir1 = some (b2n s.updatePlace)
                    ∧ Posted s t (done x 0).1 none (done x 0).2))))))))

/-! ### The EtherCAT port, the images, the watchdogs and the unit table (chapter 20) -/

/-- R492 to R494, R498, R501, R504 to R506, R510, R511: a frame's accesses act in turn while the port forwards; a request of the state
machine is refused with its code or entered and reported. The output image is read, the input image assembled once a millisecond from
what the machine shows, the oldest emergency sent when SM1 is free. A service and 100 ms without one clear and set the halt. A link
change is reported; a mismatch of 1,000 ms is reported once; the cursor takes the host's word. -/
def Obligations.EcatStatesImagesAndUnits : Prop :=
  ∀ s : State, s.Sound →
    let only := fun (t : State) => t = { s with ecat := t.ecat }
    let frame := fun (l : List EcatAccess) => Instr.ecatFrame l
    let data := s.ecat.al = 4 ∨ s.ecat.al = 8
    let runs := s.escOn = true ∧ s.ecatHold = true
    (¬ runs → ∀ l, Yields (frame l) s (fun t => t = s))
    ∧ (runs →
      Yields (frame []) s (fun t => t = s)
      ∧ (∀ a l, Yields (frame [a]) s (fun t => exec (frame (a :: l)) s = exec (frame l) t))
      ∧ (∀ b,
        (s.ecat.al = 1 ∨ s.ecat.sm0.isSome = true → Yields (frame [.mailOut b]) s (fun t => t = s))
        ∧ (s.ecat.al ≠ 1 → s.ecat.sm0 = none →
          (mailFault b = none ∨ s.mailOn = false → Yields (frame [.mailOut b]) s (fun t => only t
              ∧ t.ecat = { s.ecat with sm0 := some b }))
          ∧ (∀ c, mailFault b = some c → s.mailOn = true → Yields (frame [.mailOut b]) s (fun t => only t ∧ t.ecat.sm0 = none
              ∧ t.ecat.stored = s.ecat.stored ∧ t.ecat.sm1.toList ++ t.ecat.replies = s.ecat.sm1.toList ++ s.ecat.replies
                  ++ [(.mailError c, s.ecat.nextCnt)])))
        ∧ ((data ∧ b.length = 4) → Yields (frame [.outputs b]) s (fun t => only t
            ∧ t.ecat = { s.ecat with out := b, sm2Tt := s.tt }))
        ∧ (¬ (data ∧ b.length = 4) → Yields (frame [.outputs b]) s (fun t => t = s))
        ∧ (∀ n, (n < 3 → Yields (frame [.fmmu n b]) s (fun t => only t ∧ t.ecat = { s.ecat with fmmu := s.ecat.fmmu.set n b }))
            ∧ (3 ≤ n → Yields (frame [.fmmu n b]) s (fun t => t = s))))
      ∧ (∀ len, Yields (frame [.syncManager 2 len]) s (fun t => only t ∧ t.ecat = { s.ecat with sm2 := len })
          ∧ Yields (frame [.syncManager 3 len]) s (fun t => only t ∧ t.ecat = { s.ecat with sm3 := len })
          ∧ ∀ n, n ≠ 2 → n ≠ 3 → Yields (frame [.syncManager n len]) s (fun t => t = s))
      ∧ (data → Yields (frame [.inputs]) s (fun t => only t ∧ t.ecat = { s.ecat with lastIn := s.ecat.image }))
      ∧ (¬ data → Yields (frame [.inputs]) s (fun t => t = s))
      ∧ (s.ecat.al = 1 → Yields (frame [.mailIn]) s (fun t => t = s))
      ∧ (s.ecat.al ≠ 1 →
        (∀ x r, s.ecat.replies = x :: r → Yields (frame [.mailIn]) s (fun t => only t ∧ t.ecat.lastRead = s.ecat.sm1
            ∧ t.ecat.sm1 = some x ∧ t.ecat.replies = r))
        ∧ (s.ecat.replies = [] →
          (s.ev.emcyQ = [] → Yields (frame [.mailIn]) s (fun t => only t ∧ t.ecat.lastRead = s.ecat.sm1 ∧ t.ecat.sm1 = none))
          ∧ (∀ e q, s.ev.emcyQ = e :: q → s.mailOn = true → s.alUp = true → s.fwRuns = true → s.ev.emcyDropped = 0 →
            Yields (frame [.mailIn]) s (fun t => t.ecat.lastRead = s.ecat.sm1 ∧ t.ev.emcyQ = q ∧ t.mem = s.mem ∧ t.regs = s.regs
              ∧ t.ev.sent = (s.ev.sent + 1) % 2 ^ 32 ∧ t.ecat.sm1 = some (.emergency (leBytes 2 0xFF00 ++ leBytes 1 s.errorReg
                  ++ leBytes 2 e.code ++ leBytes 3 (e.detail % 2 ^ 24)), s.ecat.nextCnt))))))
    -- the state machine
    ∧ (∀ v,
      let al := v % 16
      let cmd := Instr.alControlRequest v
      let barred := s.ecat.alErr = true ∧ bit v 4 = false ∧ al ≠ 1
      let refused := fun (c : Nat) (t : State) => only t ∧ t.ecat = { s.ecat with alErr := true, alCode := c }
      (¬ runs ∨ barred → Yields cmd s (fun t => t = s))
      ∧ (runs → ¬ barred →
        (al ∉ [1, 2, 3, 4, 8] → Yields cmd s (refused 0x0012))
        ∧ (al ∈ [1, 2, 3, 4, 8] → al ∉ alNext s.ecat.al → Yields cmd s (refused 0x0011))
        ∧ (al ∈ alNext s.ecat.al →
          ((al = 4 ∨ al = 8) → s.phase ≤ 11 ∨ s.phase = 13 ∨ s.phase = 15 → Yields cmd s (refused 0x8001))
          ∧ (al = 2 → s.phase = 15 → Yields cmd s (refused 0x8001))
          ∧ (al = 3 → s.phase ≠ 12 → s.phase ≠ 14 → s.phase ≠ 15 → Yields cmd s (refused 0x8001))
          ∧ (al = 8 → s.phase = 12 ∨ s.phase = 14 →
            (s.ecat.sm2 ≠ 4 → Yields cmd s (refused 0x001D))
            ∧ (s.ecat.sm2 = 4 → s.ecat.sm3 ≠ 48 → Yields cmd s (refused 0x001E))))
        ∧ (s.alRefusal al = none → al ≠ 1 ∨ s.ecat.foe = none → Yields cmd s (fun t => t.ecat.al = al ∧ t.ecat.alErr = false
            ∧ t.ecat.alCode = 0 ∧ t.mem = s.mem ∧ t.quill = s.quill ∧ t.au = s.au
            ∧ (al = 1 → t.ecat.sm0 = none ∧ t.ecat.sm1 = none ∧ t.ecat.replies = [] ∧ t.ecat.seg = none ∧ t.ecat.stored = none)
            ∧ (al = s.ecat.al → t.ev = s.ev)
            ∧ (al ≠ s.ecat.al → Posted s t E.ECAT_STATE none [(.en, alNo s.ecat.al), (.en, alNo al), (.num, 0)])))))
    -- the images
    ∧ (let on := s.fwRuns = true ∧ s.mgmtHalted = false
       let read := on ∧ s.ecat.out.length = 4 ∧ data
       let ms := s.tt / 1000000
       (¬ read → Yields .rxpdoReceived s (fun t => t = s))
       ∧ (read → Yields .rxpdoReceived s (fun t => only t
          ∧ t.ecat = { s.ecat with mhb := leVal (s.ecat.out.take 2), tlmSel := leVal (s.ecat.out.drop 2) }))
       ∧ (¬ on ∨ s.ecat.imageMs = some ms → Yields .pdoAssembly s (fun t => t = s))
       ∧ (on → s.ecat.imageMs ≠ some ms → Yields .pdoAssembly s (fun t =>
          let u := s.unitsUpdate
          let img := t.ecat.image
          t.ecat.imageMs = some ms ∧ t.mem = s.mem ∧ img.length = 48
          ∧ img.take 2 = leBytes 2 u.statusWord ∧ (img.drop 2).take 2 = leBytes 2 s.ecat.mhb
          ∧ (img.drop 4).take 8 = leBytes 8 s.tt ∧ (img.drop 12).take 1 = leBytes 1 s.tbSt
          ∧ (img.drop 16).take 12 = leBytes 4 (s.partRecords 0xFF) ++ leBytes 4 (s.partRecords 0x02) ++ leBytes 4 (s.partRecords 0x1C)
          ∧ (img.drop 28).take 4 = leBytes 4 u.ev.posted ∧ img.drop 32 = u.page s.ecat.tlmSel
          ∧ (u.ev.emcyQ = [] → t.ev = { u.ev with mgmt := [] })
          ∧ ∀ k < unitCount, t.ecat.units.get? k =
              if s.unitMismatch k then some ((s.ecat.units.get? k).getD (s.tt, false)) else none))
       -- the unit table
       ∧ (∀ k < unitCount,
          let u := s.unitsUpdate
          (s.unitMismatch k = false → Yields (.unitMismatchTimeout k) s (fun t => t = u ∧ t.ecat.units.get? k = none))
          ∧ (s.unitMismatch k = true →
            let x := (s.ecat.units.get? k).getD (s.tt, false)
            (x.2 = true ∨ s.tt < x.1 + 1000000000 → Yields (.unitMismatchTimeout k) s (fun t => t = u
                ∧ t.ecat.units.get? k = some x))
            ∧ (x.2 = false → x.1 + 1000000000 ≤ s.tt → Yields (.unitMismatchTimeout k) s (fun t =>
                t.ecat.units.get? k = some (x.1, true)
                ∧ Posted u t E.UNIT_STATE_MISMATCH none [(.ix, k), (.en, s.unitCmd k), (.en, s.unitObs k)]))))
       -- the watchdogs
       ∧ (s.fwRuns = false ∨ s.boot.sramBad = true → Yields .mgmtWatchdogService s (fun t => t = s))
       ∧ (s.fwRuns = true → s.boot.sramBad = false → Yields .mgmtWatchdogService s (fun t =>
          t = { s with mgmtHalted := false, ecat := { s.ecat with wdTt := s.tt } }))
       ∧ (¬ on ∨ s.tt < s.ecat.wdTt + 100000000 → Yields .mgmtWatchdogExpiry s (fun t => t = s))
       ∧ (on → s.ecat.wdTt + 100000000 ≤ s.tt → Yields .mgmtWatchdogExpiry s (fun t => t.mgmtHalted = true
          ∧ t.ecat.alCode = 0x8002 ∧ t.ecat.image = setImageBit s.ecat.image 1 3 ∧ t.mem = s.mem
          ∧ (s.ecat.al ≠ 8 → t.ecat.al = s.ecat.al ∧ Posted s t E.MGMT_HALTED none [])
          ∧ (s.ecat.al = 8 → t.ecat.al = 4 ∧ t.ecat.alErr = true
              ∧ PostedFirst s t E.ECAT_STATE none [(.en, 4), (.en, 3), (.num, 0x8002)]))))
    ∧ (∀ port up,
      let old := if port = 0 then s.ecat.link0 else s.ecat.link1
      (s.escOn = false ∨ 2 ≤ port ∨ old = up → Yields (.ecatLinkChange port up) s (fun t => t = s))
      ∧ (s.escOn = true → port < 2 → old ≠ up → Yields (.ecatLinkChange port up) s (fun t =>
          t.ecat = (if port = 0 then { s.ecat with link0 := up } else { s.ecat with link1 := up }) ∧ t.mem = s.mem
          ∧ Posted s t E.ECAT_LINK none [(.ix, port), (.en, if up then 1 else 2)])))
    ∧ (∀ v, v < 2 ^ 32 →
      (s.hostShut .host = true → Yields (.hpJrnReadWrite v) s (fun t => t = { s with regs := t.regs, ev := t.ev }
          ∧ FieldsSet s t [(R.HP_ERR_abandoned, [], satTo 65535 (s.get R.HP_ERR_abandoned + 1))]))
      ∧ (s.hostShut .host = false → s.heldIsl.contains 54 = false → Yields (.hpJrnReadWrite v) s (fun t =>
          FieldsSet s t [(R.HP_JRN_READ_seq, [], v)] ∧ t = { s with regs := t.regs })))

/-! ### The host rings and the background work of the management plane (chapters 22 and 24) -/

/-- R554 to R557, R563: a record held for a ring that has space again is written to it; an event goes to the host event ring, or is
dropped and counted; an acknowledged write counts toward its ring's vector, and its status bit sets at the count or when time_us is
over; a write that fails, or has no answer for 1 ms, is counted and stops its ring alone. A ring's registers take a write, or refuse
it and report it. R587, R588, R591 to R593, R599: checkpoints are written when they are due and not before, and the sweeps report
what they find. -/
def Obligations.HostRingsAndCheckpoints : Prop :=
  ∀ s : State, s.Sound →
    (∀ r, (s.cfg.submitRings ≤ r ∨ s.flag R.HP_CQ_CFG_en [r] = false ∨ s.cqFull r = true ∨ ∀ h ∈ s.host.held, h.ring ≠ r) →
      Yields (.heldRecordFlush r) s (fun t => t = s))
    ∧ (∀ r c, r < s.cfg.submitRings → s.flag R.HP_CQ_CFG_en [r] = true → s.cqFull r = false → s.host.held.length ≤ 512 →
      s.host.held.filter (fun h => h.ring = r) = [c] →
      let tail := s.get R.HP_CQ_TAIL_tail [r]
      let len := 2 ^ s.get R.HP_CQ_CFG_log2_len [r]
      let addr := s.pair R.HP_CQ_BASE_LO R.HP_CQ_BASE_HI [r] + 64 * (tail % len)
      let w : HostWrite := { item := .record r, addr := addr, bytes := withPhase (s.get R.HP_CQ_TAIL_phase [r]) c.bytes, tt := s.tt }
      Yields (.heldRecordFlush r) s (fun t => t.host.held = s.host.held.filter (fun h => h.ring ≠ r)
        ∧ t.host.writes = s.host.writes ++ [w] ∧ t.get R.HP_HOLD_used = s.host.held.length - 1
        ∧ (tail + 1 < len → t.get R.HP_CQ_TAIL_tail [r] = (tail + 1) % 2 ^ 16
            ∧ t.get R.HP_CQ_TAIL_phase [r] = s.get R.HP_CQ_TAIL_phase [r])
        ∧ (len ≤ tail + 1 → t.get R.HP_CQ_TAIL_tail [r] = 0
            ∧ t.get R.HP_CQ_TAIL_phase [r] = 1 - s.get R.HP_CQ_TAIL_phase [r])
        ∧ SameBut s t [R.HP_CQ_TAIL.addr [r], R.HP_HOLD.off]
        ∧ t = { s with regs := t.regs, host := t.host, pc := t.pc }))
    -- the host event ring
    ∧ (let cmd := Instr.hostEventWrite
       (s.ev.hostq = [] ∨ s.controlDone = false ∨ s.flag R.HP_EVQ_CFG_en = false ∨ s.islandHeld 52 = true → Yields cmd s (fun t => t = s))
       ∧ (∀ e rest, s.ev.hostq = e :: rest → s.controlDone = true → s.flag R.HP_EVQ_CFG_en = true → s.islandHeld 52 = false →
         (s.evqFull = true → Yields cmd s (fun t =>
            FieldsSet s t [(R.HP_EVQ_LOST_count, [], satTo (2 ^ 32 - 1) (s.get R.HP_EVQ_LOST_count + 1))]
            ∧ t = { s with regs := t.regs, ev := { s.ev with hostq := rest, lost := true } }))
         ∧ (s.evqFull = false →
           let tail := s.get R.HP_EVQ_TAIL_tail
           let ph := s.get R.HP_EVQ_TAIL_phase
           let len := 2 ^ s.get R.HP_EVQ_CFG_log2_len
           let w : HostWrite := { item := .event, tt := s.tt, bytes := eventEntry e s.ev.lost ph,
                                  addr := s.pair R.HP_EVQ_BASE_LO R.HP_EVQ_BASE_HI + 32 * (tail % len) }
           Yields cmd s (fun t => w.bytes.length = 32 ∧ t.host = { s.host with writes := s.host.writes ++ [w] }
            ∧ FieldsSet s t (if len ≤ tail + 1 then [(R.HP_EVQ_TAIL_tail, [], 0), (R.HP_EVQ_TAIL_phase, [], 1 - ph)]
                else [(R.HP_EVQ_TAIL_tail, [], tail + 1)])
            ∧ t = { s with regs := t.regs, host := t.host, ev := { s.ev with hostq := rest, lost := false } }))))
    -- answers of host memory
    ∧ (s.host.writes = [] → ∀ err, Yields (.hostWriteResponse err) s (fun t => t = s) ∧ Yields .hostWriteTimeout s (fun t => t = s))
    ∧ (∀ w rest, s.host.writes = w :: rest →
      let irq := match w.item with | .record r => s.flag R.HP_CQ_CFG_irq_en [r] | .event => s.flag R.HP_EVQ_CFG_irq_en
      let v := match w.item with | .record r => s.get R.HP_CQ_CFG_vector [r] | .event => s.get R.HP_IRQ_MAP_evq_vec
      let items := s.host.vec.get v [] ++ [s.tt]
      (irq = false → Yields (.hostWriteResponse false) s (fun t => t = { s with host := { s.host with writes := rest } }))
      ∧ (irq = true → Yields (.hostWriteResponse false) s (fun t => t.host.writes = rest ∧ t.host.vec.get v [] = items
          ∧ (∀ k, k ≠ v → t.host.vec.get k [] = s.host.vec.get k [])
          ∧ t.get R.HP_IRQ_RAW_pending = s.get R.HP_IRQ_RAW_pending ||| 2 ^ v
          ∧ (s.get R.HP_IRQ_MOD_count [v] ≤ items.length ∨ s.get R.HP_IRQ_MOD_time_us [v] = 0 →
              t.get R.HP_IRQ_STATUS_status = s.get R.HP_IRQ_STATUS_status ||| 2 ^ v)
          ∧ (items.length < s.get R.HP_IRQ_MOD_count [v] → s.get R.HP_IRQ_MOD_time_us [v] ≠ 0 →
              t.get R.HP_IRQ_STATUS_status = s.get R.HP_IRQ_STATUS_status)
          ∧ SameRegs s t [R.HP_IRQ_RAW.off, R.HP_IRQ_STATUS.off] ∧ t = { s with regs := t.regs, host := t.host }))
      ∧ (s.tt < w.tt + 1000000 → Yields .hostWriteTimeout s (fun t => t = s))
      ∧ (∀ cmd cause, (cmd = .hostWriteResponse true ∧ cause = 1) ∨ (cmd = .hostWriteTimeout ∧ cause = 2 ∧ w.tt + 1000000 ≤ s.tt) →
        let lost := fun (r : Nat) (t : State) => t.host = { s.host with writes := rest }
          ∧ t.get R.HP_ERR_master_err = satTo 65535 (s.get R.HP_ERR_master_err + 1)
          ∧ t.pair R.HP_ERR_ADDR_LO R.HP_ERR_ADDR_HI = w.addr % 2 ^ 64
          ∧ PostedLim s t E.HP_MASTER_ERROR (4 * r + cause) none [(.ix, r), (.wide, w.addr), (.en, cause)]
          ∧ t = { s with regs := t.regs, host := t.host, ev := t.ev }
        let regs := [R.HP_ERR.off, R.HP_ERR_ADDR_LO.off, R.HP_ERR_ADDR_HI.off, R.HP_BOOT_STATUS.off]
        (∀ r, w.item = .record r → r < s.cfg.submitRings → Yields cmd s (fun t => lost r t
            ∧ t.get R.HP_CQ_LOST_count [r] = satTo (2 ^ 32 - 1) (s.get R.HP_CQ_LOST_count [r] + 1)
            ∧ t.flag R.HP_CQ_CFG_en [r] = false ∧ SameRegs s t (regs ++ [R.HP_CQ_LOST.addr [r], R.HP_CQ_CFG.addr [r]])))
        ∧ (w.item = .event → Yields cmd s (fun t => lost 0xFFFF t
            ∧ t.get R.HP_EVQ_LOST_count = satTo (2 ^ 32 - 1) (s.get R.HP_EVQ_LOST_count + 1) ∧ t.ev.lost = true
            ∧ t.flag R.HP_EVQ_CFG_en = false ∧ SameRegs s t (regs ++ [R.HP_EVQ_LOST.off, R.HP_EVQ_CFG.off])))))
    ∧ (∀ v,
      let due := v < 32 ∧ ∃ a rest, s.host.vec.get v [] = a :: rest ∧ a + 1000 * s.get R.HP_IRQ_MOD_time_us [v] ≤ s.tt
      (¬ due → Yields (.irqModerationTimeout v) s (fun t => t = s))
      ∧ (due → Yields (.irqModerationTimeout v) s (fun t => t = { s with regs := t.regs }
          ∧ FieldsSet s t [(R.HP_IRQ_STATUS_status, [], s.get R.HP_IRQ_STATUS_status ||| 2 ^ v)])))
    -- the registers of the rings
    ∧ (∀ src reg ring v, s.hostShut src = true → Yields (.hpRingConfigWrite src reg ring v) s (fun t =>
        let n := satTo 65535 (s.get R.HP_ERR_abandoned + 1)
        FieldsSet s t [(R.HP_ERR_abandoned, [], n)] ∧ PostedLim s t E.HP_ACCESS_ABANDONED 0 none [(.val, n)]
        ∧ t = { s with regs := t.regs, ev := t.ev }))
    ∧ (∀ src reg ring v, s.hostShut src = false → s.islandHeld 52 = true →
        Yields (.hpRingConfigWrite src reg ring v) s (fun t => t = s))
    ∧ (∀ src ring v, s.hostShut src = false → s.islandHeld 52 = false → ring < s.cfg.submitRings →
      let refused := fun (off : Nat) (t : State) => FieldsSet s t [] ∧ t = { s with regs := t.regs, ev := t.ev }
        ∧ PostedLim s t E.HP_CFG_REFUSED off none [(.val, off)]
      let taken := fun (l : List Nat) (t : State) => SameRegs s t l ∧ t = { s with regs := t.regs }
      let len := bits v 4 0
      let bad := len < 4 ∨ 16 < len
      let serving := s.flag R.DS_RING_CTL_en [ring] = true
      let cmd := fun reg : RingReg => Instr.hpRingConfigWrite src reg ring v
      let base := fun (lo hi : RegSpec) (ix : List Nat) => s.loHeld.get (lo.addr ix) (s.regWord lo ix) + v % 2 ^ 32 * 2 ^ 32
      let wide := fun (reg : RingReg) (lo hi : RegSpec) (ix : List Nat) (en : Bool) =>
        (en = true → base lo hi ix ≠ s.pair lo hi ix → Yields (cmd reg) s (refused (hi.addr ix)))
        ∧ (en = false ∨ base lo hi ix = s.pair lo hi ix → Yields (cmd reg) s (fun t =>
            t.pair lo hi ix = base lo hi ix % 2 ^ 64 ∧ taken [lo.addr ix, hi.addr ix] t))
      (serving → Yields (cmd .sqBase) s (refused (R.HP_SQ_BASE.addr [ring])))
      ∧ (¬ serving → Yields (cmd .sqBase) s (fun t => t.get R.HP_SQ_BASE_base [ring] = v % 2 ^ 32 ∧ taken [R.HP_SQ_BASE.addr [ring]] t))
      ∧ (serving ∨ bad → Yields (cmd .sqCfg) s (refused (R.HP_SQ_CFG.addr [ring])))
      ∧ (¬ serving → ¬ bad → Yields (cmd .sqCfg) s (fun t => t.get R.HP_SQ_CFG_log2_len [ring] = len ∧ taken [R.HP_SQ_CFG.addr [ring]] t))
      ∧ wide .cqBase R.HP_CQ_BASE_LO R.HP_CQ_BASE_HI [ring] (s.flag R.HP_CQ_CFG_en [ring])
      ∧ wide .evqBase R.HP_EVQ_BASE_LO R.HP_EVQ_BASE_HI [] (s.flag R.HP_EVQ_CFG_en)
      ∧ (let held := s.flag R.HP_CQ_CFG_en [ring] = true ∧ s.get R.HP_CQ_CFG_log2_len [ring] ≠ len
         (bad ∨ held → Yields (cmd .cqCfg) s (refused (R.HP_CQ_CFG.addr [ring])))
         ∧ (¬ bad → ¬ held → Yields (cmd .cqCfg) s (fun t => t.get R.HP_CQ_CFG_log2_len [ring] = len
            ∧ t.get R.HP_CQ_CFG_vector [ring] = bits v 9 5 ∧ t.flag R.HP_CQ_CFG_en [ring] = bit v 10
            ∧ t.flag R.HP_CQ_CFG_irq_en [ring] = bit v 11 ∧ taken [R.HP_CQ_CFG.addr [ring]] t)))
      ∧ (let held := s.flag R.HP_EVQ_CFG_en = true ∧ s.get R.HP_EVQ_CFG_log2_len ≠ len
         (bad ∨ held → Yields (cmd .evqCfg) s (refused R.HP_EVQ_CFG.off))
         ∧ (¬ bad → ¬ held → Yields (cmd .evqCfg) s (fun t => t.get R.HP_EVQ_CFG_log2_len = len
            ∧ t.flag R.HP_EVQ_CFG_en = bit v 10 ∧ t.flag R.HP_EVQ_CFG_irq_en = bit v 11 ∧ taken [R.HP_EVQ_CFG.off] t))))
    -- checkpoints
    ∧ (let due := s.fwRuns = true ∧ s.mgmtHalted = false ∧ s.journalDue = true
       let only := fun t : State => FieldsSet s t [] ∧ t = { s with regs := t.regs, ev := t.ev, boot := t.boot, jrn := t.jrn }
       ∀ ok1 ok2,
        (¬ due → Yields (.journalCheckpoint ok1 ok2) s (fun t => t = s))
        ∧ (due → s.usableSectors < 64 → Yields (.journalCheckpoint ok1 ok2) s (fun t => only t
            ∧ t.boot = { s.boot with jrnTt := some s.tt } ∧ t.jrn = s.jrn
            ∧ ∃ age, Posted s t E.CHECKPOINT_LATE none [(.en, 1), (.val, age)]
                ∧ ∀ e rest, s.unsaved = e :: rest → age = (s.tt - e.tt) / 1000000000))
        ∧ (due → 64 ≤ s.usableSectors → s.wearAhead ((68 + 32 * s.unsaved.length) / 4080 + 3) = false →
          (ok1 = true → Yields (.journalCheckpoint ok1 ok2) s (fun t => only t ∧ t.boot.jrnTt = some s.tt
            ∧ t.jrn = { s.jrn with saved := s.get R.HP_JRN_HEAD_seq }
            ∧ ∃ c : CkRec, t.log.recs.getLast? = some c ∧ c.kind = 1 ∧ c.seq = s.log.recSeq ∧ c.tt = s.tt
                ∧ c.count = s.unsaved.length ∧ c.payload = s.unsaved.flatMap (fun e => leBytes 32 e.encode)
                ∧ ∀ e rest, s.unsaved = e :: rest → c.first = e.seq))
          ∧ (ok1 = false → ok2 = false → Yields (.journalCheckpoint ok1 ok2) s (fun t => only t ∧ t.boot.jrnTt = some s.tt
            ∧ t.jrn = s.jrn ∧ t.log.recSeq = s.log.recSeq ∧ ∃ l, t.ev.mgmt = s.ev.mgmt ++ l ∧ ∃ e ∈ l, e.code = E.FLASH_FAULT))))
    ∧ (let due := s.fwRuns = true ∧ s.mgmtHalted = false ∧ s.boot.wearTt + 600000000000 ≤ s.tt
       let only := fun t : State => FieldsSet s t [] ∧ t = { s with regs := t.regs, ev := t.ev, boot := t.boot }
       ∀ ok1 ok2,
        (¬ due → Yields (.wearCheckpoint ok1 ok2) s (fun t => t = s))
        ∧ (due → s.wearBytes = s.boot.wear → Yields (.wearCheckpoint ok1 ok2) s (fun t =>
            t = { s with boot := { s.boot with wearTt := s.tt } }))
        ∧ (due → s.wearBytes ≠ s.boot.wear →
          (s.usableSectors = 0 → Yields (.wearCheckpoint ok1 ok2) s (fun t => only t
            ∧ Posted s t E.CHECKPOINT_LATE none [(.en, 2), (.val, (s.tt - s.boot.wearTt) / 1000000000)]
            ∧ t.boot = { s.boot with wearTt := s.tt }))
          ∧ (s.usableSectors ≠ 0 → ok1 = true → Yields (.wearCheckpoint ok1 ok2) s (fun t => only t ∧ t.boot.wearTt = s.tt
            ∧ t.boot.wear = s.wearBytes ∧ ∃ c : CkRec, t.log.recs.getLast? = some c ∧ c.kind = 2 ∧ c.tt = s.tt
                ∧ c.seq = s.log.recSeq ∧ c.first = 0 ∧ c.count = s.cfg.actOutputs ∧ c.payload = s.wearBytes))
          ∧ (s.usableSectors ≠ 0 → ok1 = false → ok2 = false → Yields (.wearCheckpoint ok1 ok2) s (fun t => only t
            ∧ t.boot.wearTt = s.tt ∧ t.boot.wear = s.boot.wear ∧ t.log.recSeq = s.log.recSeq))))
    -- sweeps
    ∧ (∀ fixed bad,
      (s.fwRuns = false ∨ s.tt < s.boot.sramTt + 1000000000 → Yields (.sramSweep fixed bad) s (fun t => t = s))
      ∧ (s.fwRuns = true → s.boot.sramTt + 1000000000 ≤ s.tt → Yields (.sramSweep fixed bad) s (fun t =>
          let e := fun (k a : Nat) => ({ code := E.MGMT_SRAM_ECC, tt := s.tt, detail := mkDetail none [(.wide, a), (.en, k)] } : Event)
          t.ev.mgmt = s.ev.mgmt ++ fixed.map (e 1) ++ bad.map (e 2) ∧ FieldsSet s t []
          ∧ t.boot = { s.boot with sramTt := s.tt, sramBad := s.boot.sramBad || !bad.isEmpty }
          ∧ t = { s with regs := t.regs, ev := t.ev, boot := t.boot })))
    ∧ (let next := { s.jrn with sweep := (s.jrn.sweep + 1) % 16384 }
       let copy := s.get R.HP_JRN_STATUS_copy
       (∀ badP badM, (badP = true → copy = 2 ∨ copy = 3) → (badM = true → copy = 1 ∨ copy = 3) →
          Yields (.journalSweepRead badP badM) s (fun t => t = { s with jrn := next }))
       ∧ (∀ e, s.jrn.primary.get? s.jrn.sweep = some e → copy = 0 → Yields (.journalSweepRead true false) s (fun t =>
          t.get R.HP_JRN_STATUS_copy = 2 ∧ t.flag R.HP_JRN_STATUS_fault_valid = true
          ∧ (∀ k < 8, t.regWord R.HP_JRN_FAULT [k] = e.encode / 2 ^ (32 * k) % 2 ^ 32)
          ∧ Posted s t E.JOURNAL_FAULT none [(.en, 1), (.val, e.seq)] ∧ t.jrn = next
          ∧ SameRegs s t ((List.range 8).map (fun k => R.HP_JRN_FAULT.addr [k]) ++ [R.HP_JRN_STATUS.off, R.HP_BOOT_STATUS.off])
          ∧ t = { s with regs := t.regs, ev := t.ev, jrn := t.jrn }))
       ∧ (∀ e, s.jrn.mirror.get? s.jrn.sweep = some e → copy = 2 → Yields (.journalSweepRead false true) s (fun t =>
          t.get R.HP_JRN_STATUS_copy = 3 ∧ PostedFirst s t E.JOURNAL_FAULT none [(.en, 2), (.val, e.seq)] ∧ t.jrn = next
          ∧ t.get R.HP_JRN_UNJ_count = (s.get R.HP_JRN_UNJ_count + 1) % 2 ^ 32
          ∧ t = { s with regs := t.regs, ev := t.ev, jrn := t.jrn })))

/-! ### The performance counters (chapter 23) -/

/-- R567 to R571, R574, R575, R577, R579: at an instant every bank is latched and the record begins, is dropped where its ring is
full, or, while a record is being written, is skipped and counted; instants passed over by a step of TT are skipped too. A record is
complete once its counters and its header are written, and PROD counts it; a write error drops it. A sample goes to its ring in the
same way. The overflow capture notes where its engine is. A selector takes what Table 23-3 allows; PC_CTL.clear clears every count. -/
def Obligations.SnapshotsSamplesAndSelectors : Prop :=
  ∀ s : State, s.Sound →
    let p := 1000000 * s.get R.PC_SNAP_CTL_period_ms
    let last := s.pc.lastInst
    let at_ := s.pair R.PC_SNAP_AT_LO R.PC_SNAP_AT_HI
    let shot := s.flag R.PC_SNAP_CTL_at_arm = true ∧ last < at_ ∧ at_ ≤ s.tt
    let periods := if p = 0 then 0 else s.tt / p - last / p
    let latch := s.bankList.flatMap s.bankWords
    let same := fun t : State => FieldsSet s t []
    let skipped := fun (n cause inst : Nat) (t : State) =>
      FieldsSet s t [(R.PC_ERR_snap_skipped, [], satTo 255 (s.get R.PC_ERR_snap_skipped + n))]
      ∧ PostedLim s t E.PC_SNAP_SKIPPED cause none [(.wide, inst), (.en, cause)]
    let ring := fun (prod cons : Nat) (len : Nat) => 2 ^ len ≤ (prod + 2 ^ 16 - cons) % 2 ^ 16
    let full := ring (s.get R.PC_SNAP_PROD_prod) (s.get R.PC_SNAP_CONS_cons) (s.get R.PC_SNAP_CFG_log2_len)
    let entry := hoardBase + s.get R.PC_SNAP_BASE_base
      + s.get R.PC_SNAP_PROD_prod % 2 ^ s.get R.PC_SNAP_CFG_log2_len * snapStride s.cfg
    let wrong := fun (a : Nat) (t : State) => t.mem = s.mem
      ∧ FieldsSet s t [(R.PC_ERR_write_err, [], satTo 255 (s.get R.PC_ERR_write_err + 1))]
      ∧ PostedLim s t E.PC_WRITE_ERROR 0 none [(.val, a - hoardBase)]
    -- instants
    (¬ shot → periods = 0 → Yields .snapshotInstant s (fun t => t = s))
    ∧ (¬ shot → 1 ≤ periods → s.pc.busy.isSome = true → Yields .snapshotInstant s (fun t =>
        skipped periods 1 ((last / p + 1) * p) t ∧ t =
              { s with
                regs := t.regs, ev := t.ev,
                pc := { s.pc with lastInst := s.tt, skipped := s.pc.skipped + periods } }))
    ∧ (¬ shot → 2 ≤ periods → s.pc.busy = none → s.flag R.PC_SNAP_CFG_en = false → Yields .snapshotInstant s (fun t =>
        skipped (periods - 1) 2 (s.tt / p * p) t ∧ t =
              { s with
                regs := t.regs, ev := t.ev,
                pc := { s.pc with lastInst := s.tt, latch := latch, skipped := s.pc.skipped + (periods - 1) } }))
    ∧ (∀ i, (¬ shot ∧ periods = 1 ∧ i = (last / p + 1) * p) ∨ (shot ∧ periods = 0 ∧ i = at_ ∧ (p = 0 ∨ at_ % p ≠ 0)) →
        s.pc.busy = none →
        let armed := fun l : List (Fld × List Nat × Nat) => if periods = 0 then (R.PC_SNAP_CTL_at_arm, [], 0) :: l else l
        (s.flag R.PC_SNAP_CFG_en = false → Yields .snapshotInstant s (fun t => FieldsSet s t (armed [])
            ∧ t = { s with regs := t.regs, pc := { s.pc with lastInst := s.tt, latch := latch } }))
        ∧ (s.flag R.PC_SNAP_CFG_en = true → s.flag R.PC_SNAP_CFG_overwrite = false → full → Yields .snapshotInstant s (fun t =>
            FieldsSet s t (armed [(R.PC_ERR_snap_dropped, [], satTo 255 (s.get R.PC_ERR_snap_dropped + 1))])
            ∧ PostedLim s t E.PC_RING_FULL 1 none [(.en, 1)]
            ∧ t = { s with regs := t.regs, ev := t.ev, pc := { s.pc with lastInst := s.tt, latch := latch } }))
        ∧ (s.flag R.PC_SNAP_CFG_en = true → (s.flag R.PC_SNAP_CFG_overwrite = true ∨ ¬ full) → Yields .snapshotInstant s (fun t =>
            FieldsSet s t (armed []) ∧ (∀ k < 4, t.mem.read (entry + k) = 0xFF#8)
            ∧ (∀ a, a < entry ∨ entry + 4 ≤ a → t.mem.read a = s.mem.read a)
            ∧ t =
              { s with
                regs := t.regs, mem := t.mem, badWords := t.badWords,
                pc := { s.pc with lastInst := s.tt, latch := latch, busy := some (i, s.heldMap, s.pc.skipped), skipped := 0 } })))
    -- the record
    ∧ (s.pc.busy = none → ∀ err, Yields (.snapshotRecordWritten err) s (fun t => t = s))
    ∧ (∀ i held n, s.pc.busy = some (i, held, n) →
      Yields (.snapshotRecordWritten true) s (fun t => wrong entry t ∧ t =
              { s with
                regs := t.regs, ev := t.ev,
                pc := { s.pc with busy := none, skipped := s.pc.skipped + n } })
      ∧ Yields (.snapshotRecordWritten false) s (fun t =>
          let head := leBytes 4 s.pc.seq ++ leBytes 2 s.chipNo ++ leBytes 2 0 ++ leBytes 8 i ++ leBytes 4 (snapCounters s.cfg)
            ++ leBytes 4 n ++ leBytes 8 held ++ leBytes 32 0
          let body := head ++ s.pc.latch.flatMap (leBytes 8)
          (∀ k < body.length, t.mem.read (entry + k) = body.getD k 0)
          ∧ (∀ a, a < entry ∨ entry + body.length ≤ a → t.mem.read a = s.mem.read a)
          ∧ FieldsSet s t [(R.PC_SNAP_PROD_prod, [], s.get R.PC_SNAP_PROD_prod + 1)]
          ∧ t =
              { s with
                regs := t.regs, mem := t.mem, badWords := t.badWords,
                pc := { s.pc with busy := none, seq := (s.pc.seq + 1) % 2 ^ 32 } }))
    -- samples
    ∧ (∀ c e, let key := c * 8 + e
       (s.pc.tag.get? key = none → ∀ err, Yields (.tagSampleWrite c e err) s (fun t => t = s))
       ∧ (∀ tag, s.pc.tag.get? key = some tag →
         let prod := s.get R.PC_SMP_PROD_prod
         let full := ring prod (s.get R.PC_SMP_CONS_cons) (s.get R.PC_SMP_CFG_log2_len)
         let cell := hoardBase + s.get R.PC_SMP_BASE_base + 256 * (prod % 2 ^ s.get R.PC_SMP_CFG_log2_len)
         let gone := { s.pc with tag := s.pc.tag.del key }
         (s.flag R.PC_SMP_CFG_en = false → ∀ err, Yields (.tagSampleWrite c e err) s (fun t => t = { s with pc := gone }))
         ∧ (s.flag R.PC_SMP_CFG_en = true → full → ∀ err, Yields (.tagSampleWrite c e err) s (fun t =>
            FieldsSet s t [(R.PC_ERR_smp_dropped, [], satTo 255 (s.get R.PC_ERR_smp_dropped + 1))]
            ∧ PostedLim s t E.PC_RING_FULL 2 none [(.en, 2)] ∧ t = { s with regs := t.regs, ev := t.ev, pc := gone }))
         ∧ (s.flag R.PC_SMP_CFG_en = true → ¬ full →
           Yields (.tagSampleWrite c e true) s (fun t => wrong cell t ∧ t = { s with regs := t.regs, ev := t.ev, pc := gone })
           ∧ Yields (.tagSampleWrite c e false) s (fun t => (∃ times : List Nat, times.length = 5
                ∧ ∀ k < 64, t.mem.read (cell + k) = (sampleRecord c e tag times).getD k 0)
              ∧ (∀ a, a < cell ∨ cell + 64 ≤ a → t.mem.read a = s.mem.read a)
              ∧ FieldsSet s t [(R.PC_SMP_PROD_prod, [], prod + 1)]
              ∧ t = { s with regs := t.regs, mem := t.mem, badWords := t.badWords, pc := gone, free := s.free + 5 }))))
    -- overflow
    ∧ (∀ c e, let bank := pcEngBank c e
       (s.pc.capture.get? bank = none ∨ (s.eng c e).run = none → Yields (.overflowCapture c e) s (fun t => t = s))
       ∧ (∀ freeze r, s.pc.capture.get? bank = some freeze → (s.eng c e).run = some r → Yields (.overflowCapture c e) s (fun t =>
          t.raw (bank + 0x90) = r.pc % 2 ^ 32 ∧ t.raw (bank + 0x94) = r.desc.job % 2 ^ 12 + r.desc.segId % 2 ^ 20 * 2 ^ 12
          ∧ t.raw bank = (if freeze then s.raw bank ||| 2 ^ 8 else s.raw bank)
          ∧ SameRegs s t [bank, bank + 0x90, bank + 0x94]
          ∧ t = { s with regs := t.regs, pc := { s.pc with capture := s.pc.capture.del bank } })))
    -- selectors and the clear
    ∧ (∀ src, s.hostShut src = true → ∀ cmd ∈ [Instr.pcClear src, Instr.pcSelWrite src 0x300010 0], Yields cmd s (fun t =>
        let n := satTo 65535 (s.get R.HP_ERR_abandoned + 1)
        FieldsSet s t [(R.HP_ERR_abandoned, [], n)] ∧ PostedLim s t E.HP_ACCESS_ABANDONED 0 none [(.val, n)]
        ∧ t = { s with regs := t.regs, ev := t.ev }))
    ∧ (∀ src b k v, s.hostShut src = false → b ∈ s.bankList → k < b.count →
      let off := b.base + 0x10 + 0x10 * k
      let cmd := Instr.pcSelWrite src off v
      let ev := bits v 7 0
      let mode := bits v 9 8
      let bad := (b.kind.codes.1 < ev ∧ (ev < 0x10 ∨ b.kind.codes.2 < ev)) ∨ mode = 3 ∨ (mode = 0 ∧ 0x10 ≤ ev)
        ∨ ((mode = 1 ∨ mode = 2) ∧ ev < 0x10)
      (b.isl ∈ s.heldIsl → Yields cmd s (fun t => t = s))
      ∧ (b.isl ∉ s.heldIsl → bad → Yields cmd s (fun t => same t ∧ PostedLim s t E.PC_CFG_REFUSED 0 none [(.val, off)]
          ∧ t = { s with regs := t.regs, ev := t.ev }))
      ∧ (b.isl ∉ s.heldIsl → ¬ bad → Yields cmd s (fun t => t.raw off = bits v 12 0 + bits v 27 16 * 2 ^ 16
          ∧ SameRegs s t [off] ∧ t = { s with regs := t.regs })))
    ∧ (∀ src, s.hostShut src = false → Yields (.pcClear src) s (fun t => t = { s with regs := t.regs }
        ∧ (∀ b ∈ s.bankList, t.raw b.base = s.raw b.base / 2 ^ 8 * 2 ^ 8
            ∧ ∀ k < b.count, t.raw (b.base + 0x14 + 0x10 * k) = 0 ∧ t.raw (b.base + 0x18 + 0x10 * k) = 0
              ∧ t.raw (b.base + 0x10 + 0x10 * k) = s.raw (b.base + 0x10 + 0x10 * k))
        ∧ t.get R.PC_OVF_PEND_banks = 0
        ∧ ∀ o, o < 0x300000 ∨ 0x330200 ≤ o → o ≠ R.PC_OVF_PEND.off → t.regs.get? o = s.regs.get? o))

/-! ### The step, its invariant, and two rules stated word for word -/

/-- R68: a write to TB_TT_LOAD_HI loads HI:LO into TT, in FREE_RUN with no part slot open and no TT-compare event pending; else TT is
unchanged and TT_LOAD_REFUSED is posted. (While the position island is held, R49: nothing.) REF2's frame interval is not measured
across the load. -/
def Obligations.TtLoadAppliesOnlyInFreeRun : Prop :=
  ∀ (s : State) (hi : Nat),
    let lo := s.loHeld.get R.TB_TT_LOAD_LO.off (s.regWord R.TB_TT_LOAD_LO)
    let free := s.get R.TB_STATUS_state = 0 ∧ (∀ r ∈ s.rcp.vals, ∀ p ∈ r.parts, p.slot = none)
      ∧ ∀ e ∈ s.au.table.vals, e.isPending = true → postKind e.post ≠ 2
    (s.islandHeld 53 = true → Yields (.ttLoad hi) s (fun t => t = s))
    ∧ (s.islandHeld 53 = false → free → Yields (.ttLoad hi) s (fun t => t.tt = lo + hi % 2 ^ 32 * 2 ^ 32
        ∧ t.regWord R.TB_TT_LOAD_LO = lo % 2 ^ 32 ∧ t.regWord R.TB_TT_LOAD_HI = hi % 2 ^ 32 ∧ t.ev = s.ev
        ∧ SameRegs s t [R.TB_TT_LOAD_LO.off, R.TB_TT_LOAD_HI.off]
        ∧ t = { s with regs := t.regs, tt := t.tt, ttFrac := 0, pc := { s.pc with lastInst := min s.pc.lastInst t.tt },
                       tb := (s.setRef 2 { s.ref 2 with lastTick := none }).tb }))
    ∧ (s.islandHeld 53 = false → ¬ free → Yields (.ttLoad hi) s (fun t => t.tt = s.tt
        ∧ Posted s t E.TT_LOAD_REFUSED none [(.en, s.get R.TB_STATUS_state), (.en, b2n s.slotOpen)]
        ∧ t.regWord R.TB_TT_LOAD_LO = lo % 2 ^ 32 ∧ t.regWord R.TB_TT_LOAD_HI = hi % 2 ^ 32
        ∧ SameRegs s t [R.TB_TT_LOAD_LO.off, R.TB_TT_LOAD_HI.off, R.HP_BOOT_STATUS.off]
        ∧ t = { s with regs := t.regs, ev := t.ev }))

/-- R499: 100 ms without outputs in OP put the ESC into SAFEOP with AL status code 0x001B and post PDO_WATCHDOG; nothing else
changes. Before that, and in another state, nothing changes at all. -/
def Obligations.Sm2WatchdogEntersSafeop : Prop :=
  ∀ s : State,
    let expired := s.por = false ∧ s.warm = false ∧ s.ecat.al = 8 ∧ s.ecat.sm2Tt + 100000000 ≤ s.tt
    (expired → Yields .sm2WatchdogExpiry s (fun t =>
        t.ecat = { s.ecat with al := 4, alCode := 0x001B, alErr := true }
        ∧ t.ev.mgmt = s.ev.mgmt
            ++ [{ code := E.ECAT_STATE, tt := s.tt, detail := mkDetail none [(.en, 4), (.en, 3), (.num, 0x001B)] },
                { code := E.PDO_WATCHDOG, tt := s.tt, detail := mkDetail none [] }]
        ∧ FieldsSet s t [] ∧ t = { s with regs := t.regs, ev := t.ev, ecat := t.ecat }))
    ∧ (¬ expired → Yields .sm2WatchdogExpiry s (fun t => t = s))

/-- A step executes the command at the front of the queue, with the rest of the queue waiting. -/
def Obligations.StepRunsTheFrontCommand : Prop :=
  ∀ (s : State) (c : Instr) (l : List Instr), step { s with pending := c :: l } = exec c { s with pending := l }

/-- The model's choice (log 8): with no command waiting a step is one position cycle. TT advances by its step (R57); every 400 cycles,
1 µs, QREF_OUT's rate follows TT's by at most 1 ppb (R72), 125 MHz at rate 0 (R83, R87); of the rest only the count of cycles, the
guards of table entries (R301) and the jobs' stall marks (R176) may change. While the position island does not run, nothing changes. -/
def Obligations.IdleStepIsAPositionCycle : Prop :=
  ∀ s : State, s.pending = [] →
    ∃ t, step s = .next t
      ∧ (s.por = true ∨ 53 ∈ s.heldIsl → t = s)
      ∧ (s.por = false → 53 ∉ s.heldIsl →
          t.tt = (s.tt + (s.ttFrac + s.ttStep) / 2 ^ 32) % 2 ^ 64 ∧ t.ttFrac = (s.ttFrac + s.ttStep) % 2 ^ 32
          ∧ (s.get R.TB_RATE_rate = 0 → s.ttFrac = 0 → t.tt = (s.tt + 2) % 2 ^ 64 ∧ t.ttFrac = 2 ^ 31)
          ∧ (let rate := signedOf 32 (s.get R.TB_RATE_rate)
             let q := s.tb.qref
             t.tb = { s.tb with cycles := s.tb.cycles + 1, qref := t.tb.qref }
             ∧ (s.tb.cycles % 400 ≠ 399 → t.tb.qref = q)
             ∧ (s.tb.cycles % 400 = 399 → (t.tb.qref - q).natAbs ≤ 1000
                 ∧ ((rate - q).natAbs ≤ 1000 → t.tb.qref = rate)
                 ∧ (q + 1000 < rate → t.tb.qref = q + 1000) ∧ (rate + 1000 < q → t.tb.qref = q - 1000))
             ∧ (t.tb.qref = 0 → t.qrefMicroHz = 125 * 10 ^ 12))
          ∧ t.au.table.keys = s.au.table.keys ∧ t.ds.jobs.keys = s.ds.jobs.keys
          ∧ (∀ k e, t.au.table.get? k = some e → ∃ e', s.au.table.get? k = some e'
              ∧ e = { e' with state := e.state, anchor := e.anchor })
          ∧ (∀ k j, t.ds.jobs.get? k = some j → ∃ j', s.ds.jobs.get? k = some j' ∧ j = { j' with stall := j.stall })
          ∧ t = { s with tt := t.tt, ttFrac := t.ttFrac, tb := t.tb, au := { s.au with table := t.au.table },
                         ds := { s.ds with jobs := t.ds.jobs } })

/-- Every command completes: from every state and with every operand each of the 307 constructors answers a next state, with no
fault and no refusal, the same configuration and the same queue. Every step keeps memory in its canonical form and the
configuration one that the generator delivers (R38); it changes no parameter of the configuration, and it takes the front
command from the queue and nothing else. -/
def Obligations.StepKeepsSound : Prop :=
  (∀ (c : Instr) (s : State), ∃ t, exec c s = .next t ∧ t.cfg = s.cfg ∧ t.pending = s.pending ∧ (s.Sound → t.Sound))
  ∧ ∀ s t : State, s.Sound → step s = .next t → t.Sound ∧ t.cfg = s.cfg ∧ t.pending = s.pending.tail

/-- The invariant holds at reset: memory lists nothing, and the configuration that the model delivers is a valid one. -/
def Obligations.ResetIsSound : Prop := State.reset.Sound ∧ State.reset.mem.cells = [] ∧ State.reset.pending = []
end

