-- ==== Sys2Proof/Laws/State.lean ====
section
/-! SUPPORT. The fields of State under each update: one lemma per field and update. -/

namespace Sys2Proof.Machine
/-! setRegWord -/
@[simp] theorem State.setRegWord_cfg (s : State) (r : RegSpec) (ix : List Nat) (v : Nat) : (s.setRegWord r ix v).cfg = s.cfg := rfl
@[simp] theorem State.setRegWord_hiLatch (s : State) (r : RegSpec) (ix : List Nat) (v : Nat) : (s.setRegWord r ix v).hiLatch = s.hiLatch := rfl
@[simp] theorem State.setRegWord_loHeld (s : State) (r : RegSpec) (ix : List Nat) (v : Nat) : (s.setRegWord r ix v).loHeld = s.loHeld := rfl
@[simp] theorem State.setRegWord_rdata (s : State) (r : RegSpec) (ix : List Nat) (v : Nat) : (s.setRegWord r ix v).rdata = s.rdata := rfl
@[simp] theorem State.setRegWord_tt (s : State) (r : RegSpec) (ix : List Nat) (v : Nat) : (s.setRegWord r ix v).tt = s.tt := rfl
@[simp] theorem State.setRegWord_ttFrac (s : State) (r : RegSpec) (ix : List Nat) (v : Nat) : (s.setRegWord r ix v).ttFrac = s.ttFrac := rfl
@[simp] theorem State.setRegWord_free (s : State) (r : RegSpec) (ix : List Nat) (v : Nat) : (s.setRegWord r ix v).free = s.free := rfl
@[simp] theorem State.setRegWord_mem (s : State) (r : RegSpec) (ix : List Nat) (v : Nat) : (s.setRegWord r ix v).mem = s.mem := rfl
@[simp] theorem State.setRegWord_badWords (s : State) (r : RegSpec) (ix : List Nat) (v : Nat) : (s.setRegWord r ix v).badWords = s.badWords := rfl
@[simp] theorem State.setRegWord_por (s : State) (r : RegSpec) (ix : List Nat) (v : Nat) : (s.setRegWord r ix v).por = s.por := rfl
@[simp] theorem State.setRegWord_warm (s : State) (r : RegSpec) (ix : List Nat) (v : Nat) : (s.setRegWord r ix v).warm = s.warm := rfl
@[simp] theorem State.setRegWord_powered (s : State) (r : RegSpec) (ix : List Nat) (v : Nat) : (s.setRegWord r ix v).powered = s.powered := rfl
@[simp] theorem State.setRegWord_heldIsl (s : State) (r : RegSpec) (ix : List Nat) (v : Nat) : (s.setRegWord r ix v).heldIsl = s.heldIsl := rfl
@[simp] theorem State.setRegWord_phaseDone (s : State) (r : RegSpec) (ix : List Nat) (v : Nat) : (s.setRegWord r ix v).phaseDone = s.phaseDone := rfl
@[simp] theorem State.setRegWord_bypassHold (s : State) (r : RegSpec) (ix : List Nat) (v : Nat) : (s.setRegWord r ix v).bypassHold = s.bypassHold := rfl
@[simp] theorem State.setRegWord_ecatHold (s : State) (r : RegSpec) (ix : List Nat) (v : Nat) : (s.setRegWord r ix v).ecatHold = s.ecatHold := rfl
@[simp] theorem State.setRegWord_mgmtHalted (s : State) (r : RegSpec) (ix : List Nat) (v : Nat) : (s.setRegWord r ix v).mgmtHalted = s.mgmtHalted := rfl
@[simp] theorem State.setRegWord_ev (s : State) (r : RegSpec) (ix : List Nat) (v : Nat) : (s.setRegWord r ix v).ev = s.ev := rfl
@[simp] theorem State.setRegWord_jrn (s : State) (r : RegSpec) (ix : List Nat) (v : Nat) : (s.setRegWord r ix v).jrn = s.jrn := rfl
@[simp] theorem State.setRegWord_host (s : State) (r : RegSpec) (ix : List Nat) (v : Nat) : (s.setRegWord r ix v).host = s.host := rfl
@[simp] theorem State.setRegWord_tb (s : State) (r : RegSpec) (ix : List Nat) (v : Nat) : (s.setRegWord r ix v).tb = s.tb := rfl
@[simp] theorem State.setRegWord_pu (s : State) (r : RegSpec) (ix : List Nat) (v : Nat) : (s.setRegWord r ix v).pu = s.pu := rfl
@[simp] theorem State.setRegWord_au (s : State) (r : RegSpec) (ix : List Nat) (v : Nat) : (s.setRegWord r ix v).au = s.au := rfl
@[simp] theorem State.setRegWord_pc (s : State) (r : RegSpec) (ix : List Nat) (v : Nat) : (s.setRegWord r ix v).pc = s.pc := rfl
@[simp] theorem State.setRegWord_pipes (s : State) (r : RegSpec) (ix : List Nat) (v : Nat) : (s.setRegWord r ix v).pipes = s.pipes := rfl
@[simp] theorem State.setRegWord_decs (s : State) (r : RegSpec) (ix : List Nat) (v : Nat) : (s.setRegWord r ix v).decs = s.decs := rfl
@[simp] theorem State.setRegWord_tune (s : State) (r : RegSpec) (ix : List Nat) (v : Nat) : (s.setRegWord r ix v).tune = s.tune := rfl
@[simp] theorem State.setRegWord_cores (s : State) (r : RegSpec) (ix : List Nat) (v : Nat) : (s.setRegWord r ix v).cores = s.cores := rfl
@[simp] theorem State.setRegWord_signals (s : State) (r : RegSpec) (ix : List Nat) (v : Nat) : (s.setRegWord r ix v).signals = s.signals := rfl
@[simp] theorem State.setRegWord_remote (s : State) (r : RegSpec) (ix : List Nat) (v : Nat) : (s.setRegWord r ix v).remote = s.remote := rfl
@[simp] theorem State.setRegWord_ds (s : State) (r : RegSpec) (ix : List Nat) (v : Nat) : (s.setRegWord r ix v).ds = s.ds := rfl
@[simp] theorem State.setRegWord_rcp (s : State) (r : RegSpec) (ix : List Nat) (v : Nat) : (s.setRegWord r ix v).rcp = s.rcp := rfl
@[simp] theorem State.setRegWord_cu (s : State) (r : RegSpec) (ix : List Nat) (v : Nat) : (s.setRegWord r ix v).cu = s.cu := rfl
@[simp] theorem State.setRegWord_aud (s : State) (r : RegSpec) (ix : List Nat) (v : Nat) : (s.setRegWord r ix v).aud = s.aud := rfl
@[simp] theorem State.setRegWord_fab (s : State) (r : RegSpec) (ix : List Nat) (v : Nat) : (s.setRegWord r ix v).fab = s.fab := rfl
@[simp] theorem State.setRegWord_quill (s : State) (r : RegSpec) (ix : List Nat) (v : Nat) : (s.setRegWord r ix v).quill = s.quill := rfl
@[simp] theorem State.setRegWord_env (s : State) (r : RegSpec) (ix : List Nat) (v : Nat) : (s.setRegWord r ix v).env = s.env := rfl
@[simp] theorem State.setRegWord_boot (s : State) (r : RegSpec) (ix : List Nat) (v : Nat) : (s.setRegWord r ix v).boot = s.boot := rfl
@[simp] theorem State.setRegWord_ecat (s : State) (r : RegSpec) (ix : List Nat) (v : Nat) : (s.setRegWord r ix v).ecat = s.ecat := rfl
@[simp] theorem State.setRegWord_emcyMask (s : State) (r : RegSpec) (ix : List Nat) (v : Nat) : (s.setRegWord r ix v).emcyMask = s.emcyMask := rfl
@[simp] theorem State.setRegWord_pending (s : State) (r : RegSpec) (ix : List Nat) (v : Nat) : (s.setRegWord r ix v).pending = s.pending := rfl
/-! put -/
@[simp] theorem State.put_cfg (s : State) (f : Fld) (ix : List Nat) (v : Nat) : (s.put f ix v).cfg = s.cfg := rfl
@[simp] theorem State.put_hiLatch (s : State) (f : Fld) (ix : List Nat) (v : Nat) : (s.put f ix v).hiLatch = s.hiLatch := rfl
@[simp] theorem State.put_loHeld (s : State) (f : Fld) (ix : List Nat) (v : Nat) : (s.put f ix v).loHeld = s.loHeld := rfl
@[simp] theorem State.put_rdata (s : State) (f : Fld) (ix : List Nat) (v : Nat) : (s.put f ix v).rdata = s.rdata := rfl
@[simp] theorem State.put_tt (s : State) (f : Fld) (ix : List Nat) (v : Nat) : (s.put f ix v).tt = s.tt := rfl
@[simp] theorem State.put_ttFrac (s : State) (f : Fld) (ix : List Nat) (v : Nat) : (s.put f ix v).ttFrac = s.ttFrac := rfl
@[simp] theorem State.put_free (s : State) (f : Fld) (ix : List Nat) (v : Nat) : (s.put f ix v).free = s.free := rfl
@[simp] theorem State.put_mem (s : State) (f : Fld) (ix : List Nat) (v : Nat) : (s.put f ix v).mem = s.mem := rfl
@[simp] theorem State.put_badWords (s : State) (f : Fld) (ix : List Nat) (v : Nat) : (s.put f ix v).badWords = s.badWords := rfl
@[simp] theorem State.put_por (s : State) (f : Fld) (ix : List Nat) (v : Nat) : (s.put f ix v).por = s.por := rfl
@[simp] theorem State.put_warm (s : State) (f : Fld) (ix : List Nat) (v : Nat) : (s.put f ix v).warm = s.warm := rfl
@[simp] theorem State.put_powered (s : State) (f : Fld) (ix : List Nat) (v : Nat) : (s.put f ix v).powered = s.powered := rfl
@[simp] theorem State.put_heldIsl (s : State) (f : Fld) (ix : List Nat) (v : Nat) : (s.put f ix v).heldIsl = s.heldIsl := rfl
@[simp] theorem State.put_phaseDone (s : State) (f : Fld) (ix : List Nat) (v : Nat) : (s.put f ix v).phaseDone = s.phaseDone := rfl
@[simp] theorem State.put_bypassHold (s : State) (f : Fld) (ix : List Nat) (v : Nat) : (s.put f ix v).bypassHold = s.bypassHold := rfl
@[simp] theorem State.put_ecatHold (s : State) (f : Fld) (ix : List Nat) (v : Nat) : (s.put f ix v).ecatHold = s.ecatHold := rfl
@[simp] theorem State.put_mgmtHalted (s : State) (f : Fld) (ix : List Nat) (v : Nat) : (s.put f ix v).mgmtHalted = s.mgmtHalted := rfl
@[simp] theorem State.put_ev (s : State) (f : Fld) (ix : List Nat) (v : Nat) : (s.put f ix v).ev = s.ev := rfl
@[simp] theorem State.put_jrn (s : State) (f : Fld) (ix : List Nat) (v : Nat) : (s.put f ix v).jrn = s.jrn := rfl
@[simp] theorem State.put_host (s : State) (f : Fld) (ix : List Nat) (v : Nat) : (s.put f ix v).host = s.host := rfl
@[simp] theorem State.put_tb (s : State) (f : Fld) (ix : List Nat) (v : Nat) : (s.put f ix v).tb = s.tb := rfl
@[simp] theorem State.put_pu (s : State) (f : Fld) (ix : List Nat) (v : Nat) : (s.put f ix v).pu = s.pu := rfl
@[simp] theorem State.put_au (s : State) (f : Fld) (ix : List Nat) (v : Nat) : (s.put f ix v).au = s.au := rfl
@[simp] theorem State.put_pc (s : State) (f : Fld) (ix : List Nat) (v : Nat) : (s.put f ix v).pc = s.pc := rfl
@[simp] theorem State.put_pipes (s : State) (f : Fld) (ix : List Nat) (v : Nat) : (s.put f ix v).pipes = s.pipes := rfl
@[simp] theorem State.put_decs (s : State) (f : Fld) (ix : List Nat) (v : Nat) : (s.put f ix v).decs = s.decs := rfl
@[simp] theorem State.put_tune (s : State) (f : Fld) (ix : List Nat) (v : Nat) : (s.put f ix v).tune = s.tune := rfl
@[simp] theorem State.put_cores (s : State) (f : Fld) (ix : List Nat) (v : Nat) : (s.put f ix v).cores = s.cores := rfl
@[simp] theorem State.put_signals (s : State) (f : Fld) (ix : List Nat) (v : Nat) : (s.put f ix v).signals = s.signals := rfl
@[simp] theorem State.put_remote (s : State) (f : Fld) (ix : List Nat) (v : Nat) : (s.put f ix v).remote = s.remote := rfl
@[simp] theorem State.put_ds (s : State) (f : Fld) (ix : List Nat) (v : Nat) : (s.put f ix v).ds = s.ds := rfl
@[simp] theorem State.put_rcp (s : State) (f : Fld) (ix : List Nat) (v : Nat) : (s.put f ix v).rcp = s.rcp := rfl
@[simp] theorem State.put_cu (s : State) (f : Fld) (ix : List Nat) (v : Nat) : (s.put f ix v).cu = s.cu := rfl
@[simp] theorem State.put_aud (s : State) (f : Fld) (ix : List Nat) (v : Nat) : (s.put f ix v).aud = s.aud := rfl
@[simp] theorem State.put_fab (s : State) (f : Fld) (ix : List Nat) (v : Nat) : (s.put f ix v).fab = s.fab := rfl
@[simp] theorem State.put_quill (s : State) (f : Fld) (ix : List Nat) (v : Nat) : (s.put f ix v).quill = s.quill := rfl
@[simp] theorem State.put_env (s : State) (f : Fld) (ix : List Nat) (v : Nat) : (s.put f ix v).env = s.env := rfl
@[simp] theorem State.put_boot (s : State) (f : Fld) (ix : List Nat) (v : Nat) : (s.put f ix v).boot = s.boot := rfl
@[simp] theorem State.put_ecat (s : State) (f : Fld) (ix : List Nat) (v : Nat) : (s.put f ix v).ecat = s.ecat := rfl
@[simp] theorem State.put_emcyMask (s : State) (f : Fld) (ix : List Nat) (v : Nat) : (s.put f ix v).emcyMask = s.emcyMask := rfl
@[simp] theorem State.put_pending (s : State) (f : Fld) (ix : List Nat) (v : Nat) : (s.put f ix v).pending = s.pending := rfl
/-! bump -/
@[simp] theorem State.bump_cfg (s : State) (f : Fld) (ix : List Nat) (n : Nat) : (s.bump f ix n).cfg = s.cfg := rfl
@[simp] theorem State.bump_hiLatch (s : State) (f : Fld) (ix : List Nat) (n : Nat) : (s.bump f ix n).hiLatch = s.hiLatch := rfl
@[simp] theorem State.bump_loHeld (s : State) (f : Fld) (ix : List Nat) (n : Nat) : (s.bump f ix n).loHeld = s.loHeld := rfl
@[simp] theorem State.bump_rdata (s : State) (f : Fld) (ix : List Nat) (n : Nat) : (s.bump f ix n).rdata = s.rdata := rfl
@[simp] theorem State.bump_tt (s : State) (f : Fld) (ix : List Nat) (n : Nat) : (s.bump f ix n).tt = s.tt := rfl
@[simp] theorem State.bump_ttFrac (s : State) (f : Fld) (ix : List Nat) (n : Nat) : (s.bump f ix n).ttFrac = s.ttFrac := rfl
@[simp] theorem State.bump_free (s : State) (f : Fld) (ix : List Nat) (n : Nat) : (s.bump f ix n).free = s.free := rfl
@[simp] theorem State.bump_mem (s : State) (f : Fld) (ix : List Nat) (n : Nat) : (s.bump f ix n).mem = s.mem := rfl
@[simp] theorem State.bump_badWords (s : State) (f : Fld) (ix : List Nat) (n : Nat) : (s.bump f ix n).badWords = s.badWords := rfl
@[simp] theorem State.bump_por (s : State) (f : Fld) (ix : List Nat) (n : Nat) : (s.bump f ix n).por = s.por := rfl
@[simp] theorem State.bump_warm (s : State) (f : Fld) (ix : List Nat) (n : Nat) : (s.bump f ix n).warm = s.warm := rfl
@[simp] theorem State.bump_powered (s : State) (f : Fld) (ix : List Nat) (n : Nat) : (s.bump f ix n).powered = s.powered := rfl
@[simp] theorem State.bump_heldIsl (s : State) (f : Fld) (ix : List Nat) (n : Nat) : (s.bump f ix n).heldIsl = s.heldIsl := rfl
@[simp] theorem State.bump_phaseDone (s : State) (f : Fld) (ix : List Nat) (n : Nat) : (s.bump f ix n).phaseDone = s.phaseDone := rfl
@[simp] theorem State.bump_bypassHold (s : State) (f : Fld) (ix : List Nat) (n : Nat) : (s.bump f ix n).bypassHold = s.bypassHold := rfl
@[simp] theorem State.bump_ecatHold (s : State) (f : Fld) (ix : List Nat) (n : Nat) : (s.bump f ix n).ecatHold = s.ecatHold := rfl
@[simp] theorem State.bump_mgmtHalted (s : State) (f : Fld) (ix : List Nat) (n : Nat) : (s.bump f ix n).mgmtHalted = s.mgmtHalted := rfl
@[simp] theorem State.bump_ev (s : State) (f : Fld) (ix : List Nat) (n : Nat) : (s.bump f ix n).ev = s.ev := rfl
@[simp] theorem State.bump_jrn (s : State) (f : Fld) (ix : List Nat) (n : Nat) : (s.bump f ix n).jrn = s.jrn := rfl
@[simp] theorem State.bump_host (s : State) (f : Fld) (ix : List Nat) (n : Nat) : (s.bump f ix n).host = s.host := rfl
@[simp] theorem State.bump_tb (s : State) (f : Fld) (ix : List Nat) (n : Nat) : (s.bump f ix n).tb = s.tb := rfl
@[simp] theorem State.bump_pu (s : State) (f : Fld) (ix : List Nat) (n : Nat) : (s.bump f ix n).pu = s.pu := rfl
@[simp] theorem State.bump_au (s : State) (f : Fld) (ix : List Nat) (n : Nat) : (s.bump f ix n).au = s.au := rfl
@[simp] theorem State.bump_pc (s : State) (f : Fld) (ix : List Nat) (n : Nat) : (s.bump f ix n).pc = s.pc := rfl
@[simp] theorem State.bump_pipes (s : State) (f : Fld) (ix : List Nat) (n : Nat) : (s.bump f ix n).pipes = s.pipes := rfl
@[simp] theorem State.bump_decs (s : State) (f : Fld) (ix : List Nat) (n : Nat) : (s.bump f ix n).decs = s.decs := rfl
@[simp] theorem State.bump_tune (s : State) (f : Fld) (ix : List Nat) (n : Nat) : (s.bump f ix n).tune = s.tune := rfl
@[simp] theorem State.bump_cores (s : State) (f : Fld) (ix : List Nat) (n : Nat) : (s.bump f ix n).cores = s.cores := rfl
@[simp] theorem State.bump_signals (s : State) (f : Fld) (ix : List Nat) (n : Nat) : (s.bump f ix n).signals = s.signals := rfl
@[simp] theorem State.bump_remote (s : State) (f : Fld) (ix : List Nat) (n : Nat) : (s.bump f ix n).remote = s.remote := rfl
@[simp] theorem State.bump_ds (s : State) (f : Fld) (ix : List Nat) (n : Nat) : (s.bump f ix n).ds = s.ds := rfl
@[simp] theorem State.bump_rcp (s : State) (f : Fld) (ix : List Nat) (n : Nat) : (s.bump f ix n).rcp = s.rcp := rfl
@[simp] theorem State.bump_cu (s : State) (f : Fld) (ix : List Nat) (n : Nat) : (s.bump f ix n).cu = s.cu := rfl
@[simp] theorem State.bump_aud (s : State) (f : Fld) (ix : List Nat) (n : Nat) : (s.bump f ix n).aud = s.aud := rfl
@[simp] theorem State.bump_fab (s : State) (f : Fld) (ix : List Nat) (n : Nat) : (s.bump f ix n).fab = s.fab := rfl
@[simp] theorem State.bump_quill (s : State) (f : Fld) (ix : List Nat) (n : Nat) : (s.bump f ix n).quill = s.quill := rfl
@[simp] theorem State.bump_env (s : State) (f : Fld) (ix : List Nat) (n : Nat) : (s.bump f ix n).env = s.env := rfl
@[simp] theorem State.bump_boot (s : State) (f : Fld) (ix : List Nat) (n : Nat) : (s.bump f ix n).boot = s.boot := rfl
@[simp] theorem State.bump_ecat (s : State) (f : Fld) (ix : List Nat) (n : Nat) : (s.bump f ix n).ecat = s.ecat := rfl
@[simp] theorem State.bump_emcyMask (s : State) (f : Fld) (ix : List Nat) (n : Nat) : (s.bump f ix n).emcyMask = s.emcyMask := rfl
@[simp] theorem State.bump_pending (s : State) (f : Fld) (ix : List Nat) (n : Nat) : (s.bump f ix n).pending = s.pending := rfl
/-! setRaw -/
@[simp] theorem State.setRaw_cfg (s : State) (o v : Nat) : (s.setRaw o v).cfg = s.cfg := rfl
@[simp] theorem State.setRaw_hiLatch (s : State) (o v : Nat) : (s.setRaw o v).hiLatch = s.hiLatch := rfl
@[simp] theorem State.setRaw_loHeld (s : State) (o v : Nat) : (s.setRaw o v).loHeld = s.loHeld := rfl
@[simp] theorem State.setRaw_rdata (s : State) (o v : Nat) : (s.setRaw o v).rdata = s.rdata := rfl
@[simp] theorem State.setRaw_tt (s : State) (o v : Nat) : (s.setRaw o v).tt = s.tt := rfl
@[simp] theorem State.setRaw_ttFrac (s : State) (o v : Nat) : (s.setRaw o v).ttFrac = s.ttFrac := rfl
@[simp] theorem State.setRaw_free (s : State) (o v : Nat) : (s.setRaw o v).free = s.free := rfl
@[simp] theorem State.setRaw_mem (s : State) (o v : Nat) : (s.setRaw o v).mem = s.mem := rfl
@[simp] theorem State.setRaw_badWords (s : State) (o v : Nat) : (s.setRaw o v).badWords = s.badWords := rfl
@[simp] theorem State.setRaw_por (s : State) (o v : Nat) : (s.setRaw o v).por = s.por := rfl
@[simp] theorem State.setRaw_warm (s : State) (o v : Nat) : (s.setRaw o v).warm = s.warm := rfl
@[simp] theorem State.setRaw_powered (s : State) (o v : Nat) : (s.setRaw o v).powered = s.powered := rfl
@[simp] theorem State.setRaw_heldIsl (s : State) (o v : Nat) : (s.setRaw o v).heldIsl = s.heldIsl := rfl
@[simp] theorem State.setRaw_phaseDone (s : State) (o v : Nat) : (s.setRaw o v).phaseDone = s.phaseDone := rfl
@[simp] theorem State.setRaw_bypassHold (s : State) (o v : Nat) : (s.setRaw o v).bypassHold = s.bypassHold := rfl
@[simp] theorem State.setRaw_ecatHold (s : State) (o v : Nat) : (s.setRaw o v).ecatHold = s.ecatHold := rfl
@[simp] theorem State.setRaw_mgmtHalted (s : State) (o v : Nat) : (s.setRaw o v).mgmtHalted = s.mgmtHalted := rfl
@[simp] theorem State.setRaw_ev (s : State) (o v : Nat) : (s.setRaw o v).ev = s.ev := rfl
@[simp] theorem State.setRaw_jrn (s : State) (o v : Nat) : (s.setRaw o v).jrn = s.jrn := rfl
@[simp] theorem State.setRaw_host (s : State) (o v : Nat) : (s.setRaw o v).host = s.host := rfl
@[simp] theorem State.setRaw_tb (s : State) (o v : Nat) : (s.setRaw o v).tb = s.tb := rfl
@[simp] theorem State.setRaw_pu (s : State) (o v : Nat) : (s.setRaw o v).pu = s.pu := rfl
@[simp] theorem State.setRaw_au (s : State) (o v : Nat) : (s.setRaw o v).au = s.au := rfl
@[simp] theorem State.setRaw_pc (s : State) (o v : Nat) : (s.setRaw o v).pc = s.pc := rfl
@[simp] theorem State.setRaw_pipes (s : State) (o v : Nat) : (s.setRaw o v).pipes = s.pipes := rfl
@[simp] theorem State.setRaw_decs (s : State) (o v : Nat) : (s.setRaw o v).decs = s.decs := rfl
@[simp] theorem State.setRaw_tune (s : State) (o v : Nat) : (s.setRaw o v).tune = s.tune := rfl
@[simp] theorem State.setRaw_cores (s : State) (o v : Nat) : (s.setRaw o v).cores = s.cores := rfl
@[simp] theorem State.setRaw_signals (s : State) (o v : Nat) : (s.setRaw o v).signals = s.signals := rfl
@[simp] theorem State.setRaw_remote (s : State) (o v : Nat) : (s.setRaw o v).remote = s.remote := rfl
@[simp] theorem State.setRaw_ds (s : State) (o v : Nat) : (s.setRaw o v).ds = s.ds := rfl
@[simp] theorem State.setRaw_rcp (s : State) (o v : Nat) : (s.setRaw o v).rcp = s.rcp := rfl
@[simp] theorem State.setRaw_cu (s : State) (o v : Nat) : (s.setRaw o v).cu = s.cu := rfl
@[simp] theorem State.setRaw_aud (s : State) (o v : Nat) : (s.setRaw o v).aud = s.aud := rfl
@[simp] theorem State.setRaw_fab (s : State) (o v : Nat) : (s.setRaw o v).fab = s.fab := rfl
@[simp] theorem State.setRaw_quill (s : State) (o v : Nat) : (s.setRaw o v).quill = s.quill := rfl
@[simp] theorem State.setRaw_env (s : State) (o v : Nat) : (s.setRaw o v).env = s.env := rfl
@[simp] theorem State.setRaw_boot (s : State) (o v : Nat) : (s.setRaw o v).boot = s.boot := rfl
@[simp] theorem State.setRaw_ecat (s : State) (o v : Nat) : (s.setRaw o v).ecat = s.ecat := rfl
@[simp] theorem State.setRaw_emcyMask (s : State) (o v : Nat) : (s.setRaw o v).emcyMask = s.emcyMask := rfl
@[simp] theorem State.setRaw_pending (s : State) (o v : Nat) : (s.setRaw o v).pending = s.pending := rfl
/-! setPair -/
@[simp] theorem State.setPair_cfg (s : State) (lo hi : RegSpec) (ix : List Nat) (v : Nat) : (s.setPair lo hi ix v).cfg = s.cfg := rfl
@[simp] theorem State.setPair_hiLatch (s : State) (lo hi : RegSpec) (ix : List Nat) (v : Nat) : (s.setPair lo hi ix v).hiLatch = s.hiLatch := rfl
@[simp] theorem State.setPair_loHeld (s : State) (lo hi : RegSpec) (ix : List Nat) (v : Nat) : (s.setPair lo hi ix v).loHeld = s.loHeld := rfl
@[simp] theorem State.setPair_rdata (s : State) (lo hi : RegSpec) (ix : List Nat) (v : Nat) : (s.setPair lo hi ix v).rdata = s.rdata := rfl
@[simp] theorem State.setPair_tt (s : State) (lo hi : RegSpec) (ix : List Nat) (v : Nat) : (s.setPair lo hi ix v).tt = s.tt := rfl
@[simp] theorem State.setPair_ttFrac (s : State) (lo hi : RegSpec) (ix : List Nat) (v : Nat) : (s.setPair lo hi ix v).ttFrac = s.ttFrac := rfl
@[simp] theorem State.setPair_free (s : State) (lo hi : RegSpec) (ix : List Nat) (v : Nat) : (s.setPair lo hi ix v).free = s.free := rfl
@[simp] theorem State.setPair_mem (s : State) (lo hi : RegSpec) (ix : List Nat) (v : Nat) : (s.setPair lo hi ix v).mem = s.mem := rfl
@[simp] theorem State.setPair_badWords (s : State) (lo hi : RegSpec) (ix : List Nat) (v : Nat) : (s.setPair lo hi ix v).badWords = s.badWords := rfl
@[simp] theorem State.setPair_por (s : State) (lo hi : RegSpec) (ix : List Nat) (v : Nat) : (s.setPair lo hi ix v).por = s.por := rfl
@[simp] theorem State.setPair_warm (s : State) (lo hi : RegSpec) (ix : List Nat) (v : Nat) : (s.setPair lo hi ix v).warm = s.warm := rfl
@[simp] theorem State.setPair_powered (s : State) (lo hi : RegSpec) (ix : List Nat) (v : Nat) : (s.setPair lo hi ix v).powered = s.powered := rfl
@[simp] theorem State.setPair_heldIsl (s : State) (lo hi : RegSpec) (ix : List Nat) (v : Nat) : (s.setPair lo hi ix v).heldIsl = s.heldIsl := rfl
@[simp] theorem State.setPair_phaseDone (s : State) (lo hi : RegSpec) (ix : List Nat) (v : Nat) : (s.setPair lo hi ix v).phaseDone = s.phaseDone := rfl
@[simp] theorem State.setPair_bypassHold (s : State) (lo hi : RegSpec) (ix : List Nat) (v : Nat) : (s.setPair lo hi ix v).bypassHold = s.bypassHold := rfl
@[simp] theorem State.setPair_ecatHold (s : State) (lo hi : RegSpec) (ix : List Nat) (v : Nat) : (s.setPair lo hi ix v).ecatHold = s.ecatHold := rfl
@[simp] theorem State.setPair_mgmtHalted (s : State) (lo hi : RegSpec) (ix : List Nat) (v : Nat) : (s.setPair lo hi ix v).mgmtHalted = s.mgmtHalted := rfl
@[simp] theorem State.setPair_ev (s : State) (lo hi : RegSpec) (ix : List Nat) (v : Nat) : (s.setPair lo hi ix v).ev = s.ev := rfl
@[simp] theorem State.setPair_jrn (s : State) (lo hi : RegSpec) (ix : List Nat) (v : Nat) : (s.setPair lo hi ix v).jrn = s.jrn := rfl
@[simp] theorem State.setPair_host (s : State) (lo hi : RegSpec) (ix : List Nat) (v : Nat) : (s.setPair lo hi ix v).host = s.host := rfl
@[simp] theorem State.setPair_tb (s : State) (lo hi : RegSpec) (ix : List Nat) (v : Nat) : (s.setPair lo hi ix v).tb = s.tb := rfl
@[simp] theorem State.setPair_pu (s : State) (lo hi : RegSpec) (ix : List Nat) (v : Nat) : (s.setPair lo hi ix v).pu = s.pu := rfl
@[simp] theorem State.setPair_au (s : State) (lo hi : RegSpec) (ix : List Nat) (v : Nat) : (s.setPair lo hi ix v).au = s.au := rfl
@[simp] theorem State.setPair_pc (s : State) (lo hi : RegSpec) (ix : List Nat) (v : Nat) : (s.setPair lo hi ix v).pc = s.pc := rfl
@[simp] theorem State.setPair_pipes (s : State) (lo hi : RegSpec) (ix : List Nat) (v : Nat) : (s.setPair lo hi ix v).pipes = s.pipes := rfl
@[simp] theorem State.setPair_decs (s : State) (lo hi : RegSpec) (ix : List Nat) (v : Nat) : (s.setPair lo hi ix v).decs = s.decs := rfl
@[simp] theorem State.setPair_tune (s : State) (lo hi : RegSpec) (ix : List Nat) (v : Nat) : (s.setPair lo hi ix v).tune = s.tune := rfl
@[simp] theorem State.setPair_cores (s : State) (lo hi : RegSpec) (ix : List Nat) (v : Nat) : (s.setPair lo hi ix v).cores = s.cores := rfl
@[simp] theorem State.setPair_signals (s : State) (lo hi : RegSpec) (ix : List Nat) (v : Nat) : (s.setPair lo hi ix v).signals = s.signals := rfl
@[simp] theorem State.setPair_remote (s : State) (lo hi : RegSpec) (ix : List Nat) (v : Nat) : (s.setPair lo hi ix v).remote = s.remote := rfl
@[simp] theorem State.setPair_ds (s : State) (lo hi : RegSpec) (ix : List Nat) (v : Nat) : (s.setPair lo hi ix v).ds = s.ds := rfl
@[simp] theorem State.setPair_rcp (s : State) (lo hi : RegSpec) (ix : List Nat) (v : Nat) : (s.setPair lo hi ix v).rcp = s.rcp := rfl
@[simp] theorem State.setPair_cu (s : State) (lo hi : RegSpec) (ix : List Nat) (v : Nat) : (s.setPair lo hi ix v).cu = s.cu := rfl
@[simp] theorem State.setPair_aud (s : State) (lo hi : RegSpec) (ix : List Nat) (v : Nat) : (s.setPair lo hi ix v).aud = s.aud := rfl
@[simp] theorem State.setPair_fab (s : State) (lo hi : RegSpec) (ix : List Nat) (v : Nat) : (s.setPair lo hi ix v).fab = s.fab := rfl
@[simp] theorem State.setPair_quill (s : State) (lo hi : RegSpec) (ix : List Nat) (v : Nat) : (s.setPair lo hi ix v).quill = s.quill := rfl
@[simp] theorem State.setPair_env (s : State) (lo hi : RegSpec) (ix : List Nat) (v : Nat) : (s.setPair lo hi ix v).env = s.env := rfl
@[simp] theorem State.setPair_boot (s : State) (lo hi : RegSpec) (ix : List Nat) (v : Nat) : (s.setPair lo hi ix v).boot = s.boot := rfl
@[simp] theorem State.setPair_ecat (s : State) (lo hi : RegSpec) (ix : List Nat) (v : Nat) : (s.setPair lo hi ix v).ecat = s.ecat := rfl
@[simp] theorem State.setPair_emcyMask (s : State) (lo hi : RegSpec) (ix : List Nat) (v : Nat) : (s.setPair lo hi ix v).emcyMask = s.emcyMask := rfl
@[simp] theorem State.setPair_pending (s : State) (lo hi : RegSpec) (ix : List Nat) (v : Nat) : (s.setPair lo hi ix v).pending = s.pending := rfl
/-! post -/
@[simp] theorem State.post_cfg (s : State) (code : Nat) (inst : Option Nat) (fs : List (FK × Nat)) : (s.post code inst fs).cfg = s.cfg := by
  unfold State.post; dsimp only; split <;> rfl
@[simp] theorem State.post_hiLatch (s : State) (code : Nat) (inst : Option Nat) (fs : List (FK × Nat)) : (s.post code inst fs).hiLatch = s.hiLatch := by
  unfold State.post; dsimp only; split <;> rfl
@[simp] theorem State.post_loHeld (s : State) (code : Nat) (inst : Option Nat) (fs : List (FK × Nat)) : (s.post code inst fs).loHeld = s.loHeld := by
  unfold State.post; dsimp only; split <;> rfl
@[simp] theorem State.post_rdata (s : State) (code : Nat) (inst : Option Nat) (fs : List (FK × Nat)) : (s.post code inst fs).rdata = s.rdata := by
  unfold State.post; dsimp only; split <;> rfl
@[simp] theorem State.post_tt (s : State) (code : Nat) (inst : Option Nat) (fs : List (FK × Nat)) : (s.post code inst fs).tt = s.tt := by
  unfold State.post; dsimp only; split <;> rfl
@[simp] theorem State.post_ttFrac (s : State) (code : Nat) (inst : Option Nat) (fs : List (FK × Nat)) : (s.post code inst fs).ttFrac = s.ttFrac := by
  unfold State.post; dsimp only; split <;> rfl
@[simp] theorem State.post_free (s : State) (code : Nat) (inst : Option Nat) (fs : List (FK × Nat)) : (s.post code inst fs).free = s.free := by
  unfold State.post; dsimp only; split <;> rfl
@[simp] theorem State.post_mem (s : State) (code : Nat) (inst : Option Nat) (fs : List (FK × Nat)) : (s.post code inst fs).mem = s.mem := by
  unfold State.post; dsimp only; split <;> rfl
@[simp] theorem State.post_badWords (s : State) (code : Nat) (inst : Option Nat) (fs : List (FK × Nat)) : (s.post code inst fs).badWords = s.badWords := by
  unfold State.post; dsimp only; split <;> rfl
@[simp] theorem State.post_por (s : State) (code : Nat) (inst : Option Nat) (fs : List (FK × Nat)) : (s.post code inst fs).por = s.por := by
  unfold State.post; dsimp only; split <;> rfl
@[simp] theorem State.post_warm (s : State) (code : Nat) (inst : Option Nat) (fs : List (FK × Nat)) : (s.post code inst fs).warm = s.warm := by
  unfold State.post; dsimp only; split <;> rfl
@[simp] theorem State.post_powered (s : State) (code : Nat) (inst : Option Nat) (fs : List (FK × Nat)) : (s.post code inst fs).powered = s.powered := by
  unfold State.post; dsimp only; split <;> rfl
@[simp] theorem State.post_heldIsl (s : State) (code : Nat) (inst : Option Nat) (fs : List (FK × Nat)) : (s.post code inst fs).heldIsl = s.heldIsl := by
  unfold State.post; dsimp only; split <;> rfl
@[simp] theorem State.post_phaseDone (s : State) (code : Nat) (inst : Option Nat) (fs : List (FK × Nat)) : (s.post code inst fs).phaseDone = s.phaseDone := by
  unfold State.post; dsimp only; split <;> rfl
@[simp] theorem State.post_bypassHold (s : State) (code : Nat) (inst : Option Nat) (fs : List (FK × Nat)) : (s.post code inst fs).bypassHold = s.bypassHold := by
  unfold State.post; dsimp only; split <;> rfl
@[simp] theorem State.post_ecatHold (s : State) (code : Nat) (inst : Option Nat) (fs : List (FK × Nat)) : (s.post code inst fs).ecatHold = s.ecatHold := by
  unfold State.post; dsimp only; split <;> rfl
@[simp] theorem State.post_mgmtHalted (s : State) (code : Nat) (inst : Option Nat) (fs : List (FK × Nat)) : (s.post code inst fs).mgmtHalted = s.mgmtHalted := by
  unfold State.post; dsimp only; split <;> rfl
@[simp] theorem State.post_jrn (s : State) (code : Nat) (inst : Option Nat) (fs : List (FK × Nat)) : (s.post code inst fs).jrn = s.jrn := by
  unfold State.post; dsimp only; split <;> rfl
@[simp] theorem State.post_host (s : State) (code : Nat) (inst : Option Nat) (fs : List (FK × Nat)) : (s.post code inst fs).host = s.host := by
  unfold State.post; dsimp only; split <;> rfl
@[simp] theorem State.post_tb (s : State) (code : Nat) (inst : Option Nat) (fs : List (FK × Nat)) : (s.post code inst fs).tb = s.tb := by
  unfold State.post; dsimp only; split <;> rfl
@[simp] theorem State.post_pu (s : State) (code : Nat) (inst : Option Nat) (fs : List (FK × Nat)) : (s.post code inst fs).pu = s.pu := by
  unfold State.post; dsimp only; split <;> rfl
@[simp] theorem State.post_au (s : State) (code : Nat) (inst : Option Nat) (fs : List (FK × Nat)) : (s.post code inst fs).au = s.au := by
  unfold State.post; dsimp only; split <;> rfl
@[simp] theorem State.post_pc (s : State) (code : Nat) (inst : Option Nat) (fs : List (FK × Nat)) : (s.post code inst fs).pc = s.pc := by
  unfold State.post; dsimp only; split <;> rfl
@[simp] theorem State.post_pipes (s : State) (code : Nat) (inst : Option Nat) (fs : List (FK × Nat)) : (s.post code inst fs).pipes = s.pipes := by
  unfold State.post; dsimp only; split <;> rfl
@[simp] theorem State.post_decs (s : State) (code : Nat) (inst : Option Nat) (fs : List (FK × Nat)) : (s.post code inst fs).decs = s.decs := by
  unfold State.post; dsimp only; split <;> rfl
@[simp] theorem State.post_tune (s : State) (code : Nat) (inst : Option Nat) (fs : List (FK × Nat)) : (s.post code inst fs).tune = s.tune := by
  unfold State.post; dsimp only; split <;> rfl
@[simp] theorem State.post_cores (s : State) (code : Nat) (inst : Option Nat) (fs : List (FK × Nat)) : (s.post code inst fs).cores = s.cores := by
  unfold State.post; dsimp only; split <;> rfl
@[simp] theorem State.post_signals (s : State) (code : Nat) (inst : Option Nat) (fs : List (FK × Nat)) : (s.post code inst fs).signals = s.signals := by
  unfold State.post; dsimp only; split <;> rfl
@[simp] theorem State.post_remote (s : State) (code : Nat) (inst : Option Nat) (fs : List (FK × Nat)) : (s.post code inst fs).remote = s.remote := by
  unfold State.post; dsimp only; split <;> rfl
@[simp] theorem State.post_ds (s : State) (code : Nat) (inst : Option Nat) (fs : List (FK × Nat)) : (s.post code inst fs).ds = s.ds := by
  unfold State.post; dsimp only; split <;> rfl
@[simp] theorem State.post_rcp (s : State) (code : Nat) (inst : Option Nat) (fs : List (FK × Nat)) : (s.post code inst fs).rcp = s.rcp := by
  unfold State.post; dsimp only; split <;> rfl
@[simp] theorem State.post_cu (s : State) (code : Nat) (inst : Option Nat) (fs : List (FK × Nat)) : (s.post code inst fs).cu = s.cu := by
  unfold State.post; dsimp only; split <;> rfl
@[simp] theorem State.post_aud (s : State) (code : Nat) (inst : Option Nat) (fs : List (FK × Nat)) : (s.post code inst fs).aud = s.aud := by
  unfold State.post; dsimp only; split <;> rfl
@[simp] theorem State.post_fab (s : State) (code : Nat) (inst : Option Nat) (fs : List (FK × Nat)) : (s.post code inst fs).fab = s.fab := by
  unfold State.post; dsimp only; split <;> rfl
@[simp] theorem State.post_quill (s : State) (code : Nat) (inst : Option Nat) (fs : List (FK × Nat)) : (s.post code inst fs).quill = s.quill := by
  unfold State.post; dsimp only; split <;> rfl
@[simp] theorem State.post_env (s : State) (code : Nat) (inst : Option Nat) (fs : List (FK × Nat)) : (s.post code inst fs).env = s.env := by
  unfold State.post; dsimp only; split <;> rfl
@[simp] theorem State.post_boot (s : State) (code : Nat) (inst : Option Nat) (fs : List (FK × Nat)) : (s.post code inst fs).boot = s.boot := by
  unfold State.post; dsimp only; split <;> rfl
@[simp] theorem State.post_ecat (s : State) (code : Nat) (inst : Option Nat) (fs : List (FK × Nat)) : (s.post code inst fs).ecat = s.ecat := by
  unfold State.post; dsimp only; split <;> rfl
@[simp] theorem State.post_emcyMask (s : State) (code : Nat) (inst : Option Nat) (fs : List (FK × Nat)) : (s.post code inst fs).emcyMask = s.emcyMask := by
  unfold State.post; dsimp only; split <;> rfl
@[simp] theorem State.post_pending (s : State) (code : Nat) (inst : Option Nat) (fs : List (FK × Nat)) : (s.post code inst fs).pending = s.pending := by
  unfold State.post; dsimp only; split <;> rfl
/-! postLim -/
@[simp] theorem State.postLim_cfg (s : State) (code cause : Nat) (inst : Option Nat) (fs : List (FK × Nat)) : (s.postLim code cause inst fs).cfg = s.cfg := by
  unfold State.postLim; dsimp only; repeat (split; try rfl) <;> simp
@[simp] theorem State.postLim_hiLatch (s : State) (code cause : Nat) (inst : Option Nat) (fs : List (FK × Nat)) : (s.postLim code cause inst fs).hiLatch = s.hiLatch := by
  unfold State.postLim; dsimp only; repeat (split; try rfl) <;> simp
@[simp] theorem State.postLim_loHeld (s : State) (code cause : Nat) (inst : Option Nat) (fs : List (FK × Nat)) : (s.postLim code cause inst fs).loHeld = s.loHeld := by
  unfold State.postLim; dsimp only; repeat (split; try rfl) <;> simp
@[simp] theorem State.postLim_rdata (s : State) (code cause : Nat) (inst : Option Nat) (fs : List (FK × Nat)) : (s.postLim code cause inst fs).rdata = s.rdata := by
  unfold State.postLim; dsimp only; repeat (split; try rfl) <;> simp
@[simp] theorem State.postLim_tt (s : State) (code cause : Nat) (inst : Option Nat) (fs : List (FK × Nat)) : (s.postLim code cause inst fs).tt = s.tt := by
  unfold State.postLim; dsimp only; repeat (split; try rfl) <;> simp
@[simp] theorem State.postLim_ttFrac (s : State) (code cause : Nat) (inst : Option Nat) (fs : List (FK × Nat)) : (s.postLim code cause inst fs).ttFrac = s.ttFrac := by
  unfold State.postLim; dsimp only; repeat (split; try rfl) <;> simp
@[simp] theorem State.postLim_free (s : State) (code cause : Nat) (inst : Option Nat) (fs : List (FK × Nat)) : (s.postLim code cause inst fs).free = s.free := by
  unfold State.postLim; dsimp only; repeat (split; try rfl) <;> simp
@[simp] theorem State.postLim_mem (s : State) (code cause : Nat) (inst : Option Nat) (fs : List (FK × Nat)) : (s.postLim code cause inst fs).mem = s.mem := by
  unfold State.postLim; dsimp only; repeat (split; try rfl) <;> simp
@[simp] theorem State.postLim_badWords (s : State) (code cause : Nat) (inst : Option Nat) (fs : List (FK × Nat)) : (s.postLim code cause inst fs).badWords = s.badWords := by
  unfold State.postLim; dsimp only; repeat (split; try rfl) <;> simp
@[simp] theorem State.postLim_por (s : State) (code cause : Nat) (inst : Option Nat) (fs : List (FK × Nat)) : (s.postLim code cause inst fs).por = s.por := by
  unfold State.postLim; dsimp only; repeat (split; try rfl) <;> simp
@[simp] theorem State.postLim_warm (s : State) (code cause : Nat) (inst : Option Nat) (fs : List (FK × Nat)) : (s.postLim code cause inst fs).warm = s.warm := by
  unfold State.postLim; dsimp only; repeat (split; try rfl) <;> simp
@[simp] theorem State.postLim_powered (s : State) (code cause : Nat) (inst : Option Nat) (fs : List (FK × Nat)) : (s.postLim code cause inst fs).powered = s.powered := by
  unfold State.postLim; dsimp only; repeat (split; try rfl) <;> simp
@[simp] theorem State.postLim_heldIsl (s : State) (code cause : Nat) (inst : Option Nat) (fs : List (FK × Nat)) : (s.postLim code cause inst fs).heldIsl = s.heldIsl := by
  unfold State.postLim; dsimp only; repeat (split; try rfl) <;> simp
@[simp] theorem State.postLim_phaseDone (s : State) (code cause : Nat) (inst : Option Nat) (fs : List (FK × Nat)) : (s.postLim code cause inst fs).phaseDone = s.phaseDone := by
  unfold State.postLim; dsimp only; repeat (split; try rfl) <;> simp
@[simp] theorem State.postLim_bypassHold (s : State) (code cause : Nat) (inst : Option Nat) (fs : List (FK × Nat)) : (s.postLim code cause inst fs).bypassHold = s.bypassHold := by
  unfold State.postLim; dsimp only; repeat (split; try rfl) <;> simp
@[simp] theorem State.postLim_ecatHold (s : State) (code cause : Nat) (inst : Option Nat) (fs : List (FK × Nat)) : (s.postLim code cause inst fs).ecatHold = s.ecatHold := by
  unfold State.postLim; dsimp only; repeat (split; try rfl) <;> simp
@[simp] theorem State.postLim_mgmtHalted (s : State) (code cause : Nat) (inst : Option Nat) (fs : List (FK × Nat)) : (s.postLim code cause inst fs).mgmtHalted = s.mgmtHalted := by
  unfold State.postLim; dsimp only; repeat (split; try rfl) <;> simp
@[simp] theorem State.postLim_jrn (s : State) (code cause : Nat) (inst : Option Nat) (fs : List (FK × Nat)) : (s.postLim code cause inst fs).jrn = s.jrn := by
  unfold State.postLim; dsimp only; repeat (split; try rfl) <;> simp
@[simp] theorem State.postLim_host (s : State) (code cause : Nat) (inst : Option Nat) (fs : List (FK × Nat)) : (s.postLim code cause inst fs).host = s.host := by
  unfold State.postLim; dsimp only; repeat (split; try rfl) <;> simp
@[simp] theorem State.postLim_tb (s : State) (code cause : Nat) (inst : Option Nat) (fs : List (FK × Nat)) : (s.postLim code cause inst fs).tb = s.tb := by
  unfold State.postLim; dsimp only; repeat (split; try rfl) <;> simp
@[simp] theorem State.postLim_pu (s : State) (code cause : Nat) (inst : Option Nat) (fs : List (FK × Nat)) : (s.postLim code cause inst fs).pu = s.pu := by
  unfold State.postLim; dsimp only; repeat (split; try rfl) <;> simp
@[simp] theorem State.postLim_au (s : State) (code cause : Nat) (inst : Option Nat) (fs : List (FK × Nat)) : (s.postLim code cause inst fs).au = s.au := by
  unfold State.postLim; dsimp only; repeat (split; try rfl) <;> simp
@[simp] theorem State.postLim_pc (s : State) (code cause : Nat) (inst : Option Nat) (fs : List (FK × Nat)) : (s.postLim code cause inst fs).pc = s.pc := by
  unfold State.postLim; dsimp only; repeat (split; try rfl) <;> simp
@[simp] theorem State.postLim_pipes (s : State) (code cause : Nat) (inst : Option Nat) (fs : List (FK × Nat)) : (s.postLim code cause inst fs).pipes = s.pipes := by
  unfold State.postLim; dsimp only; repeat (split; try rfl) <;> simp
@[simp] theorem State.postLim_decs (s : State) (code cause : Nat) (inst : Option Nat) (fs : List (FK × Nat)) : (s.postLim code cause inst fs).decs = s.decs := by
  unfold State.postLim; dsimp only; repeat (split; try rfl) <;> simp
@[simp] theorem State.postLim_tune (s : State) (code cause : Nat) (inst : Option Nat) (fs : List (FK × Nat)) : (s.postLim code cause inst fs).tune = s.tune := by
  unfold State.postLim; dsimp only; repeat (split; try rfl) <;> simp
@[simp] theorem State.postLim_cores (s : State) (code cause : Nat) (inst : Option Nat) (fs : List (FK × Nat)) : (s.postLim code cause inst fs).cores = s.cores := by
  unfold State.postLim; dsimp only; repeat (split; try rfl) <;> simp
@[simp] theorem State.postLim_signals (s : State) (code cause : Nat) (inst : Option Nat) (fs : List (FK × Nat)) : (s.postLim code cause inst fs).signals = s.signals := by
  unfold State.postLim; dsimp only; repeat (split; try rfl) <;> simp
@[simp] theorem State.postLim_remote (s : State) (code cause : Nat) (inst : Option Nat) (fs : List (FK × Nat)) : (s.postLim code cause inst fs).remote = s.remote := by
  unfold State.postLim; dsimp only; repeat (split; try rfl) <;> simp
@[simp] theorem State.postLim_ds (s : State) (code cause : Nat) (inst : Option Nat) (fs : List (FK × Nat)) : (s.postLim code cause inst fs).ds = s.ds := by
  unfold State.postLim; dsimp only; repeat (split; try rfl) <;> simp
@[simp] theorem State.postLim_rcp (s : State) (code cause : Nat) (inst : Option Nat) (fs : List (FK × Nat)) : (s.postLim code cause inst fs).rcp = s.rcp := by
  unfold State.postLim; dsimp only; repeat (split; try rfl) <;> simp
@[simp] theorem State.postLim_cu (s : State) (code cause : Nat) (inst : Option Nat) (fs : List (FK × Nat)) : (s.postLim code cause inst fs).cu = s.cu := by
  unfold State.postLim; dsimp only; repeat (split; try rfl) <;> simp
@[simp] theorem State.postLim_aud (s : State) (code cause : Nat) (inst : Option Nat) (fs : List (FK × Nat)) : (s.postLim code cause inst fs).aud = s.aud := by
  unfold State.postLim; dsimp only; repeat (split; try rfl) <;> simp
@[simp] theorem State.postLim_fab (s : State) (code cause : Nat) (inst : Option Nat) (fs : List (FK × Nat)) : (s.postLim code cause inst fs).fab = s.fab := by
  unfold State.postLim; dsimp only; repeat (split; try rfl) <;> simp
@[simp] theorem State.postLim_quill (s : State) (code cause : Nat) (inst : Option Nat) (fs : List (FK × Nat)) : (s.postLim code cause inst fs).quill = s.quill := by
  unfold State.postLim; dsimp only; repeat (split; try rfl) <;> simp
@[simp] theorem State.postLim_env (s : State) (code cause : Nat) (inst : Option Nat) (fs : List (FK × Nat)) : (s.postLim code cause inst fs).env = s.env := by
  unfold State.postLim; dsimp only; repeat (split; try rfl) <;> simp
@[simp] theorem State.postLim_boot (s : State) (code cause : Nat) (inst : Option Nat) (fs : List (FK × Nat)) : (s.postLim code cause inst fs).boot = s.boot := by
  unfold State.postLim; dsimp only; repeat (split; try rfl) <;> simp
@[simp] theorem State.postLim_ecat (s : State) (code cause : Nat) (inst : Option Nat) (fs : List (FK × Nat)) : (s.postLim code cause inst fs).ecat = s.ecat := by
  unfold State.postLim; dsimp only; repeat (split; try rfl) <;> simp
@[simp] theorem State.postLim_emcyMask (s : State) (code cause : Nat) (inst : Option Nat) (fs : List (FK × Nat)) : (s.postLim code cause inst fs).emcyMask = s.emcyMask := by
  unfold State.postLim; dsimp only; repeat (split; try rfl) <;> simp
@[simp] theorem State.postLim_pending (s : State) (code cause : Nat) (inst : Option Nat) (fs : List (FK × Nat)) : (s.postLim code cause inst fs).pending = s.pending := by
  unfold State.postLim; dsimp only; repeat (split; try rfl) <;> simp
/-! irqItem -/
@[simp] theorem State.irqItem_cfg (s : State) (v : Nat) : (s.irqItem v).cfg = s.cfg := by
  unfold State.irqItem; dsimp only; split <;> rfl
@[simp] theorem State.irqItem_hiLatch (s : State) (v : Nat) : (s.irqItem v).hiLatch = s.hiLatch := by
  unfold State.irqItem; dsimp only; split <;> rfl
@[simp] theorem State.irqItem_loHeld (s : State) (v : Nat) : (s.irqItem v).loHeld = s.loHeld := by
  unfold State.irqItem; dsimp only; split <;> rfl
@[simp] theorem State.irqItem_rdata (s : State) (v : Nat) : (s.irqItem v).rdata = s.rdata := by
  unfold State.irqItem; dsimp only; split <;> rfl
@[simp] theorem State.irqItem_tt (s : State) (v : Nat) : (s.irqItem v).tt = s.tt := by
  unfold State.irqItem; dsimp only; split <;> rfl
@[simp] theorem State.irqItem_ttFrac (s : State) (v : Nat) : (s.irqItem v).ttFrac = s.ttFrac := by
  unfold State.irqItem; dsimp only; split <;> rfl
@[simp] theorem State.irqItem_free (s : State) (v : Nat) : (s.irqItem v).free = s.free := by
  unfold State.irqItem; dsimp only; split <;> rfl
@[simp] theorem State.irqItem_mem (s : State) (v : Nat) : (s.irqItem v).mem = s.mem := by
  unfold State.irqItem; dsimp only; split <;> rfl
@[simp] theorem State.irqItem_badWords (s : State) (v : Nat) : (s.irqItem v).badWords = s.badWords := by
  unfold State.irqItem; dsimp only; split <;> rfl
@[simp] theorem State.irqItem_por (s : State) (v : Nat) : (s.irqItem v).por = s.por := by
  unfold State.irqItem; dsimp only; split <;> rfl
@[simp] theorem State.irqItem_warm (s : State) (v : Nat) : (s.irqItem v).warm = s.warm := by
  unfold State.irqItem; dsimp only; split <;> rfl
@[simp] theorem State.irqItem_powered (s : State) (v : Nat) : (s.irqItem v).powered = s.powered := by
  unfold State.irqItem; dsimp only; split <;> rfl
@[simp] theorem State.irqItem_heldIsl (s : State) (v : Nat) : (s.irqItem v).heldIsl = s.heldIsl := by
  unfold State.irqItem; dsimp only; split <;> rfl
@[simp] theorem State.irqItem_phaseDone (s : State) (v : Nat) : (s.irqItem v).phaseDone = s.phaseDone := by
  unfold State.irqItem; dsimp only; split <;> rfl
@[simp] theorem State.irqItem_bypassHold (s : State) (v : Nat) : (s.irqItem v).bypassHold = s.bypassHold := by
  unfold State.irqItem; dsimp only; split <;> rfl
@[simp] theorem State.irqItem_ecatHold (s : State) (v : Nat) : (s.irqItem v).ecatHold = s.ecatHold := by
  unfold State.irqItem; dsimp only; split <;> rfl
@[simp] theorem State.irqItem_mgmtHalted (s : State) (v : Nat) : (s.irqItem v).mgmtHalted = s.mgmtHalted := by
  unfold State.irqItem; dsimp only; split <;> rfl
@[simp] theorem State.irqItem_ev (s : State) (v : Nat) : (s.irqItem v).ev = s.ev := by
  unfold State.irqItem; dsimp only; split <;> rfl
@[simp] theorem State.irqItem_jrn (s : State) (v : Nat) : (s.irqItem v).jrn = s.jrn := by
  unfold State.irqItem; dsimp only; split <;> rfl
@[simp] theorem State.irqItem_tb (s : State) (v : Nat) : (s.irqItem v).tb = s.tb := by
  unfold State.irqItem; dsimp only; split <;> rfl
@[simp] theorem State.irqItem_pu (s : State) (v : Nat) : (s.irqItem v).pu = s.pu := by
  unfold State.irqItem; dsimp only; split <;> rfl
@[simp] theorem State.irqItem_au (s : State) (v : Nat) : (s.irqItem v).au = s.au := by
  unfold State.irqItem; dsimp only; split <;> rfl
@[simp] theorem State.irqItem_pc (s : State) (v : Nat) : (s.irqItem v).pc = s.pc := by
  unfold State.irqItem; dsimp only; split <;> rfl
@[simp] theorem State.irqItem_pipes (s : State) (v : Nat) : (s.irqItem v).pipes = s.pipes := by
  unfold State.irqItem; dsimp only; split <;> rfl
@[simp] theorem State.irqItem_decs (s : State) (v : Nat) : (s.irqItem v).decs = s.decs := by
  unfold State.irqItem; dsimp only; split <;> rfl
@[simp] theorem State.irqItem_tune (s : State) (v : Nat) : (s.irqItem v).tune = s.tune := by
  unfold State.irqItem; dsimp only; split <;> rfl
@[simp] theorem State.irqItem_cores (s : State) (v : Nat) : (s.irqItem v).cores = s.cores := by
  unfold State.irqItem; dsimp only; split <;> rfl
@[simp] theorem State.irqItem_signals (s : State) (v : Nat) : (s.irqItem v).signals = s.signals := by
  unfold State.irqItem; dsimp only; split <;> rfl
@[simp] theorem State.irqItem_remote (s : State) (v : Nat) : (s.irqItem v).remote = s.remote := by
  unfold State.irqItem; dsimp only; split <;> rfl
@[simp] theorem State.irqItem_ds (s : State) (v : Nat) : (s.irqItem v).ds = s.ds := by
  unfold State.irqItem; dsimp only; split <;> rfl
@[simp] theorem State.irqItem_rcp (s : State) (v : Nat) : (s.irqItem v).rcp = s.rcp := by
  unfold State.irqItem; dsimp only; split <;> rfl
@[simp] theorem State.irqItem_cu (s : State) (v : Nat) : (s.irqItem v).cu = s.cu := by
  unfold State.irqItem; dsimp only; split <;> rfl
@[simp] theorem State.irqItem_aud (s : State) (v : Nat) : (s.irqItem v).aud = s.aud := by
  unfold State.irqItem; dsimp only; split <;> rfl
@[simp] theorem State.irqItem_fab (s : State) (v : Nat) : (s.irqItem v).fab = s.fab := by
  unfold State.irqItem; dsimp only; split <;> rfl
@[simp] theorem State.irqItem_quill (s : State) (v : Nat) : (s.irqItem v).quill = s.quill := by
  unfold State.irqItem; dsimp only; split <;> rfl
@[simp] theorem State.irqItem_env (s : State) (v : Nat) : (s.irqItem v).env = s.env := by
  unfold State.irqItem; dsimp only; split <;> rfl
@[simp] theorem State.irqItem_boot (s : State) (v : Nat) : (s.irqItem v).boot = s.boot := by
  unfold State.irqItem; dsimp only; split <;> rfl
@[simp] theorem State.irqItem_ecat (s : State) (v : Nat) : (s.irqItem v).ecat = s.ecat := by
  unfold State.irqItem; dsimp only; split <;> rfl
@[simp] theorem State.irqItem_emcyMask (s : State) (v : Nat) : (s.irqItem v).emcyMask = s.emcyMask := by
  unfold State.irqItem; dsimp only; split <;> rfl
@[simp] theorem State.irqItem_pending (s : State) (v : Nat) : (s.irqItem v).pending = s.pending := by
  unfold State.irqItem; dsimp only; split <;> rfl
/-! writeMem -/
@[simp] theorem State.writeMem_cfg (s : State) (a : Nat) (l : List Byte) : (s.writeMem a l).cfg = s.cfg := by
  unfold State.writeMem; split <;> rfl
@[simp] theorem State.writeMem_regs (s : State) (a : Nat) (l : List Byte) : (s.writeMem a l).regs = s.regs := by
  unfold State.writeMem; split <;> rfl
@[simp] theorem State.writeMem_hiLatch (s : State) (a : Nat) (l : List Byte) : (s.writeMem a l).hiLatch = s.hiLatch := by
  unfold State.writeMem; split <;> rfl
@[simp] theorem State.writeMem_loHeld (s : State) (a : Nat) (l : List Byte) : (s.writeMem a l).loHeld = s.loHeld := by
  unfold State.writeMem; split <;> rfl
@[simp] theorem State.writeMem_rdata (s : State) (a : Nat) (l : List Byte) : (s.writeMem a l).rdata = s.rdata := by
  unfold State.writeMem; split <;> rfl
@[simp] theorem State.writeMem_tt (s : State) (a : Nat) (l : List Byte) : (s.writeMem a l).tt = s.tt := by
  unfold State.writeMem; split <;> rfl
@[simp] theorem State.writeMem_ttFrac (s : State) (a : Nat) (l : List Byte) : (s.writeMem a l).ttFrac = s.ttFrac := by
  unfold State.writeMem; split <;> rfl
@[simp] theorem State.writeMem_free (s : State) (a : Nat) (l : List Byte) : (s.writeMem a l).free = s.free := by
  unfold State.writeMem; split <;> rfl
@[simp] theorem State.writeMem_por (s : State) (a : Nat) (l : List Byte) : (s.writeMem a l).por = s.por := by
  unfold State.writeMem; split <;> rfl
@[simp] theorem State.writeMem_warm (s : State) (a : Nat) (l : List Byte) : (s.writeMem a l).warm = s.warm := by
  unfold State.writeMem; split <;> rfl
@[simp] theorem State.writeMem_powered (s : State) (a : Nat) (l : List Byte) : (s.writeMem a l).powered = s.powered := by
  unfold State.writeMem; split <;> rfl
@[simp] theorem State.writeMem_heldIsl (s : State) (a : Nat) (l : List Byte) : (s.writeMem a l).heldIsl = s.heldIsl := by
  unfold State.writeMem; split <;> rfl
@[simp] theorem State.writeMem_phaseDone (s : State) (a : Nat) (l : List Byte) : (s.writeMem a l).phaseDone = s.phaseDone := by
  unfold State.writeMem; split <;> rfl
@[simp] theorem State.writeMem_bypassHold (s : State) (a : Nat) (l : List Byte) : (s.writeMem a l).bypassHold = s.bypassHold := by
  unfold State.writeMem; split <;> rfl
@[simp] theorem State.writeMem_ecatHold (s : State) (a : Nat) (l : List Byte) : (s.writeMem a l).ecatHold = s.ecatHold := by
  unfold State.writeMem; split <;> rfl
@[simp] theorem State.writeMem_mgmtHalted (s : State) (a : Nat) (l : List Byte) : (s.writeMem a l).mgmtHalted = s.mgmtHalted := by
  unfold State.writeMem; split <;> rfl
@[simp] theorem State.writeMem_ev (s : State) (a : Nat) (l : List Byte) : (s.writeMem a l).ev = s.ev := by
  unfold State.writeMem; split <;> rfl
@[simp] theorem State.writeMem_jrn (s : State) (a : Nat) (l : List Byte) : (s.writeMem a l).jrn = s.jrn := by
  unfold State.writeMem; split <;> rfl
@[simp] theorem State.writeMem_host (s : State) (a : Nat) (l : List Byte) : (s.writeMem a l).host = s.host := by
  unfold State.writeMem; split <;> rfl
@[simp] theorem State.writeMem_tb (s : State) (a : Nat) (l : List Byte) : (s.writeMem a l).tb = s.tb := by
  unfold State.writeMem; split <;> rfl
@[simp] theorem State.writeMem_pu (s : State) (a : Nat) (l : List Byte) : (s.writeMem a l).pu = s.pu := by
  unfold State.writeMem; split <;> rfl
@[simp] theorem State.writeMem_au (s : State) (a : Nat) (l : List Byte) : (s.writeMem a l).au = s.au := by
  unfold State.writeMem; split <;> rfl
@[simp] theorem State.writeMem_pc (s : State) (a : Nat) (l : List Byte) : (s.writeMem a l).pc = s.pc := by
  unfold State.writeMem; split <;> rfl
@[simp] theorem State.writeMem_pipes (s : State) (a : Nat) (l : List Byte) : (s.writeMem a l).pipes = s.pipes := by
  unfold State.writeMem; split <;> rfl
@[simp] theorem State.writeMem_decs (s : State) (a : Nat) (l : List Byte) : (s.writeMem a l).decs = s.decs := by
  unfold State.writeMem; split <;> rfl
@[simp] theorem State.writeMem_tune (s : State) (a : Nat) (l : List Byte) : (s.writeMem a l).tune = s.tune := by
  unfold State.writeMem; split <;> rfl
@[simp] theorem State.writeMem_cores (s : State) (a : Nat) (l : List Byte) : (s.writeMem a l).cores = s.cores := by
  unfold State.writeMem; split <;> rfl
@[simp] theorem State.writeMem_signals (s : State) (a : Nat) (l : List Byte) : (s.writeMem a l).signals = s.signals := by
  unfold State.writeMem; split <;> rfl
@[simp] theorem State.writeMem_remote (s : State) (a : Nat) (l : List Byte) : (s.writeMem a l).remote = s.remote := by
  unfold State.writeMem; split <;> rfl
@[simp] theorem State.writeMem_ds (s : State) (a : Nat) (l : List Byte) : (s.writeMem a l).ds = s.ds := by
  unfold State.writeMem; split <;> rfl
@[simp] theorem State.writeMem_rcp (s : State) (a : Nat) (l : List Byte) : (s.writeMem a l).rcp = s.rcp := by
  unfold State.writeMem; split <;> rfl
@[simp] theorem State.writeMem_cu (s : State) (a : Nat) (l : List Byte) : (s.writeMem a l).cu = s.cu := by
  unfold State.writeMem; split <;> rfl
@[simp] theorem State.writeMem_aud (s : State) (a : Nat) (l : List Byte) : (s.writeMem a l).aud = s.aud := by
  unfold State.writeMem; split <;> rfl
@[simp] theorem State.writeMem_fab (s : State) (a : Nat) (l : List Byte) : (s.writeMem a l).fab = s.fab := by
  unfold State.writeMem; split <;> rfl
@[simp] theorem State.writeMem_quill (s : State) (a : Nat) (l : List Byte) : (s.writeMem a l).quill = s.quill := by
  unfold State.writeMem; split <;> rfl
@[simp] theorem State.writeMem_env (s : State) (a : Nat) (l : List Byte) : (s.writeMem a l).env = s.env := by
  unfold State.writeMem; split <;> rfl
@[simp] theorem State.writeMem_boot (s : State) (a : Nat) (l : List Byte) : (s.writeMem a l).boot = s.boot := by
  unfold State.writeMem; split <;> rfl
@[simp] theorem State.writeMem_ecat (s : State) (a : Nat) (l : List Byte) : (s.writeMem a l).ecat = s.ecat := by
  unfold State.writeMem; split <;> rfl
@[simp] theorem State.writeMem_emcyMask (s : State) (a : Nat) (l : List Byte) : (s.writeMem a l).emcyMask = s.emcyMask := by
  unfold State.writeMem; split <;> rfl
@[simp] theorem State.writeMem_pending (s : State) (a : Nat) (l : List Byte) : (s.writeMem a l).pending = s.pending := by
  unfold State.writeMem; split <;> rfl
/-! zeroMem -/
@[simp] theorem State.zeroMem_cfg (s : State) (a n : Nat) : (s.zeroMem a n).cfg = s.cfg := by
  unfold State.zeroMem; split <;> rfl
@[simp] theorem State.zeroMem_regs (s : State) (a n : Nat) : (s.zeroMem a n).regs = s.regs := by
  unfold State.zeroMem; split <;> rfl
@[simp] theorem State.zeroMem_hiLatch (s : State) (a n : Nat) : (s.zeroMem a n).hiLatch = s.hiLatch := by
  unfold State.zeroMem; split <;> rfl
@[simp] theorem State.zeroMem_loHeld (s : State) (a n : Nat) : (s.zeroMem a n).loHeld = s.loHeld := by
  unfold State.zeroMem; split <;> rfl
@[simp] theorem State.zeroMem_rdata (s : State) (a n : Nat) : (s.zeroMem a n).rdata = s.rdata := by
  unfold State.zeroMem; split <;> rfl
@[simp] theorem State.zeroMem_tt (s : State) (a n : Nat) : (s.zeroMem a n).tt = s.tt := by
  unfold State.zeroMem; split <;> rfl
@[simp] theorem State.zeroMem_ttFrac (s : State) (a n : Nat) : (s.zeroMem a n).ttFrac = s.ttFrac := by
  unfold State.zeroMem; split <;> rfl
@[simp] theorem State.zeroMem_free (s : State) (a n : Nat) : (s.zeroMem a n).free = s.free := by
  unfold State.zeroMem; split <;> rfl
@[simp] theorem State.zeroMem_por (s : State) (a n : Nat) : (s.zeroMem a n).por = s.por := by
  unfold State.zeroMem; split <;> rfl
@[simp] theorem State.zeroMem_warm (s : State) (a n : Nat) : (s.zeroMem a n).warm = s.warm := by
  unfold State.zeroMem; split <;> rfl
@[simp] theorem State.zeroMem_powered (s : State) (a n : Nat) : (s.zeroMem a n).powered = s.powered := by
  unfold State.zeroMem; split <;> rfl
@[simp] theorem State.zeroMem_heldIsl (s : State) (a n : Nat) : (s.zeroMem a n).heldIsl = s.heldIsl := by
  unfold State.zeroMem; split <;> rfl
@[simp] theorem State.zeroMem_phaseDone (s : State) (a n : Nat) : (s.zeroMem a n).phaseDone = s.phaseDone := by
  unfold State.zeroMem; split <;> rfl
@[simp] theorem State.zeroMem_bypassHold (s : State) (a n : Nat) : (s.zeroMem a n).bypassHold = s.bypassHold := by
  unfold State.zeroMem; split <;> rfl
@[simp] theorem State.zeroMem_ecatHold (s : State) (a n : Nat) : (s.zeroMem a n).ecatHold = s.ecatHold := by
  unfold State.zeroMem; split <;> rfl
@[simp] theorem State.zeroMem_mgmtHalted (s : State) (a n : Nat) : (s.zeroMem a n).mgmtHalted = s.mgmtHalted := by
  unfold State.zeroMem; split <;> rfl
@[simp] theorem State.zeroMem_ev (s : State) (a n : Nat) : (s.zeroMem a n).ev = s.ev := by
  unfold State.zeroMem; split <;> rfl
@[simp] theorem State.zeroMem_jrn (s : State) (a n : Nat) : (s.zeroMem a n).jrn = s.jrn := by
  unfold State.zeroMem; split <;> rfl
@[simp] theorem State.zeroMem_host (s : State) (a n : Nat) : (s.zeroMem a n).host = s.host := by
  unfold State.zeroMem; split <;> rfl
@[simp] theorem State.zeroMem_tb (s : State) (a n : Nat) : (s.zeroMem a n).tb = s.tb := by
  unfold State.zeroMem; split <;> rfl
@[simp] theorem State.zeroMem_pu (s : State) (a n : Nat) : (s.zeroMem a n).pu = s.pu := by
  unfold State.zeroMem; split <;> rfl
@[simp] theorem State.zeroMem_au (s : State) (a n : Nat) : (s.zeroMem a n).au = s.au := by
  unfold State.zeroMem; split <;> rfl
@[simp] theorem State.zeroMem_pc (s : State) (a n : Nat) : (s.zeroMem a n).pc = s.pc := by
  unfold State.zeroMem; split <;> rfl
@[simp] theorem State.zeroMem_pipes (s : State) (a n : Nat) : (s.zeroMem a n).pipes = s.pipes := by
  unfold State.zeroMem; split <;> rfl
@[simp] theorem State.zeroMem_decs (s : State) (a n : Nat) : (s.zeroMem a n).decs = s.decs := by
  unfold State.zeroMem; split <;> rfl
@[simp] theorem State.zeroMem_tune (s : State) (a n : Nat) : (s.zeroMem a n).tune = s.tune := by
  unfold State.zeroMem; split <;> rfl
@[simp] theorem State.zeroMem_cores (s : State) (a n : Nat) : (s.zeroMem a n).cores = s.cores := by
  unfold State.zeroMem; split <;> rfl
@[simp] theorem State.zeroMem_signals (s : State) (a n : Nat) : (s.zeroMem a n).signals = s.signals := by
  unfold State.zeroMem; split <;> rfl
@[simp] theorem State.zeroMem_remote (s : State) (a n : Nat) : (s.zeroMem a n).remote = s.remote := by
  unfold State.zeroMem; split <;> rfl
@[simp] theorem State.zeroMem_ds (s : State) (a n : Nat) : (s.zeroMem a n).ds = s.ds := by
  unfold State.zeroMem; split <;> rfl
@[simp] theorem State.zeroMem_rcp (s : State) (a n : Nat) : (s.zeroMem a n).rcp = s.rcp := by
  unfold State.zeroMem; split <;> rfl
@[simp] theorem State.zeroMem_cu (s : State) (a n : Nat) : (s.zeroMem a n).cu = s.cu := by
  unfold State.zeroMem; split <;> rfl
@[simp] theorem State.zeroMem_aud (s : State) (a n : Nat) : (s.zeroMem a n).aud = s.aud := by
  unfold State.zeroMem; split <;> rfl
@[simp] theorem State.zeroMem_fab (s : State) (a n : Nat) : (s.zeroMem a n).fab = s.fab := by
  unfold State.zeroMem; split <;> rfl
@[simp] theorem State.zeroMem_quill (s : State) (a n : Nat) : (s.zeroMem a n).quill = s.quill := by
  unfold State.zeroMem; split <;> rfl
@[simp] theorem State.zeroMem_env (s : State) (a n : Nat) : (s.zeroMem a n).env = s.env := by
  unfold State.zeroMem; split <;> rfl
@[simp] theorem State.zeroMem_boot (s : State) (a n : Nat) : (s.zeroMem a n).boot = s.boot := by
  unfold State.zeroMem; split <;> rfl
@[simp] theorem State.zeroMem_ecat (s : State) (a n : Nat) : (s.zeroMem a n).ecat = s.ecat := by
  unfold State.zeroMem; split <;> rfl
@[simp] theorem State.zeroMem_emcyMask (s : State) (a n : Nat) : (s.zeroMem a n).emcyMask = s.emcyMask := by
  unfold State.zeroMem; split <;> rfl
@[simp] theorem State.zeroMem_pending (s : State) (a n : Nat) : (s.zeroMem a n).pending = s.pending := by
  unfold State.zeroMem; split <;> rfl
/-! setOut -/
@[simp] theorem State.setOut_cfg (s : State) (o : Nat) (x : AuOut) : (s.setOut o x).cfg = s.cfg := rfl
@[simp] theorem State.setOut_regs (s : State) (o : Nat) (x : AuOut) : (s.setOut o x).regs = s.regs := rfl
@[simp] theorem State.setOut_hiLatch (s : State) (o : Nat) (x : AuOut) : (s.setOut o x).hiLatch = s.hiLatch := rfl
@[simp] theorem State.setOut_loHeld (s : State) (o : Nat) (x : AuOut) : (s.setOut o x).loHeld = s.loHeld := rfl
@[simp] theorem State.setOut_rdata (s : State) (o : Nat) (x : AuOut) : (s.setOut o x).rdata = s.rdata := rfl
@[simp] theorem State.setOut_tt (s : State) (o : Nat) (x : AuOut) : (s.setOut o x).tt = s.tt := rfl
@[simp] theorem State.setOut_ttFrac (s : State) (o : Nat) (x : AuOut) : (s.setOut o x).ttFrac = s.ttFrac := rfl
@[simp] theorem State.setOut_free (s : State) (o : Nat) (x : AuOut) : (s.setOut o x).free = s.free := rfl
@[simp] theorem State.setOut_mem (s : State) (o : Nat) (x : AuOut) : (s.setOut o x).mem = s.mem := rfl
@[simp] theorem State.setOut_badWords (s : State) (o : Nat) (x : AuOut) : (s.setOut o x).badWords = s.badWords := rfl
@[simp] theorem State.setOut_por (s : State) (o : Nat) (x : AuOut) : (s.setOut o x).por = s.por := rfl
@[simp] theorem State.setOut_warm (s : State) (o : Nat) (x : AuOut) : (s.setOut o x).warm = s.warm := rfl
@[simp] theorem State.setOut_powered (s : State) (o : Nat) (x : AuOut) : (s.setOut o x).powered = s.powered := rfl
@[simp] theorem State.setOut_heldIsl (s : State) (o : Nat) (x : AuOut) : (s.setOut o x).heldIsl = s.heldIsl := rfl
@[simp] theorem State.setOut_phaseDone (s : State) (o : Nat) (x : AuOut) : (s.setOut o x).phaseDone = s.phaseDone := rfl
@[simp] theorem State.setOut_bypassHold (s : State) (o : Nat) (x : AuOut) : (s.setOut o x).bypassHold = s.bypassHold := rfl
@[simp] theorem State.setOut_ecatHold (s : State) (o : Nat) (x : AuOut) : (s.setOut o x).ecatHold = s.ecatHold := rfl
@[simp] theorem State.setOut_mgmtHalted (s : State) (o : Nat) (x : AuOut) : (s.setOut o x).mgmtHalted = s.mgmtHalted := rfl
@[simp] theorem State.setOut_ev (s : State) (o : Nat) (x : AuOut) : (s.setOut o x).ev = s.ev := rfl
@[simp] theorem State.setOut_jrn (s : State) (o : Nat) (x : AuOut) : (s.setOut o x).jrn = s.jrn := rfl
@[simp] theorem State.setOut_host (s : State) (o : Nat) (x : AuOut) : (s.setOut o x).host = s.host := rfl
@[simp] theorem State.setOut_tb (s : State) (o : Nat) (x : AuOut) : (s.setOut o x).tb = s.tb := rfl
@[simp] theorem State.setOut_pu (s : State) (o : Nat) (x : AuOut) : (s.setOut o x).pu = s.pu := rfl
@[simp] theorem State.setOut_pc (s : State) (o : Nat) (x : AuOut) : (s.setOut o x).pc = s.pc := rfl
@[simp] theorem State.setOut_pipes (s : State) (o : Nat) (x : AuOut) : (s.setOut o x).pipes = s.pipes := rfl
@[simp] theorem State.setOut_decs (s : State) (o : Nat) (x : AuOut) : (s.setOut o x).decs = s.decs := rfl
@[simp] theorem State.setOut_tune (s : State) (o : Nat) (x : AuOut) : (s.setOut o x).tune = s.tune := rfl
@[simp] theorem State.setOut_cores (s : State) (o : Nat) (x : AuOut) : (s.setOut o x).cores = s.cores := rfl
@[simp] theorem State.setOut_signals (s : State) (o : Nat) (x : AuOut) : (s.setOut o x).signals = s.signals := rfl
@[simp] theorem State.setOut_remote (s : State) (o : Nat) (x : AuOut) : (s.setOut o x).remote = s.remote := rfl
@[simp] theorem State.setOut_ds (s : State) (o : Nat) (x : AuOut) : (s.setOut o x).ds = s.ds := rfl
@[simp] theorem State.setOut_rcp (s : State) (o : Nat) (x : AuOut) : (s.setOut o x).rcp = s.rcp := rfl
@[simp] theorem State.setOut_cu (s : State) (o : Nat) (x : AuOut) : (s.setOut o x).cu = s.cu := rfl
@[simp] theorem State.setOut_aud (s : State) (o : Nat) (x : AuOut) : (s.setOut o x).aud = s.aud := rfl
@[simp] theorem State.setOut_fab (s : State) (o : Nat) (x : AuOut) : (s.setOut o x).fab = s.fab := rfl
@[simp] theorem State.setOut_quill (s : State) (o : Nat) (x : AuOut) : (s.setOut o x).quill = s.quill := rfl
@[simp] theorem State.setOut_env (s : State) (o : Nat) (x : AuOut) : (s.setOut o x).env = s.env := rfl
@[simp] theorem State.setOut_boot (s : State) (o : Nat) (x : AuOut) : (s.setOut o x).boot = s.boot := rfl
@[simp] theorem State.setOut_ecat (s : State) (o : Nat) (x : AuOut) : (s.setOut o x).ecat = s.ecat := rfl
@[simp] theorem State.setOut_emcyMask (s : State) (o : Nat) (x : AuOut) : (s.setOut o x).emcyMask = s.emcyMask := rfl
@[simp] theorem State.setOut_pending (s : State) (o : Nat) (x : AuOut) : (s.setOut o x).pending = s.pending := rfl
/-! setTable -/
@[simp] theorem State.setTable_cfg (s : State) (x : Tbl AuEntry) : (s.setTable x).cfg = s.cfg := rfl
@[simp] theorem State.setTable_hiLatch (s : State) (x : Tbl AuEntry) : (s.setTable x).hiLatch = s.hiLatch := rfl
@[simp] theorem State.setTable_loHeld (s : State) (x : Tbl AuEntry) : (s.setTable x).loHeld = s.loHeld := rfl
@[simp] theorem State.setTable_rdata (s : State) (x : Tbl AuEntry) : (s.setTable x).rdata = s.rdata := rfl
@[simp] theorem State.setTable_tt (s : State) (x : Tbl AuEntry) : (s.setTable x).tt = s.tt := rfl
@[simp] theorem State.setTable_ttFrac (s : State) (x : Tbl AuEntry) : (s.setTable x).ttFrac = s.ttFrac := rfl
@[simp] theorem State.setTable_free (s : State) (x : Tbl AuEntry) : (s.setTable x).free = s.free := rfl
@[simp] theorem State.setTable_mem (s : State) (x : Tbl AuEntry) : (s.setTable x).mem = s.mem := rfl
@[simp] theorem State.setTable_badWords (s : State) (x : Tbl AuEntry) : (s.setTable x).badWords = s.badWords := rfl
@[simp] theorem State.setTable_por (s : State) (x : Tbl AuEntry) : (s.setTable x).por = s.por := rfl
@[simp] theorem State.setTable_warm (s : State) (x : Tbl AuEntry) : (s.setTable x).warm = s.warm := rfl
@[simp] theorem State.setTable_powered (s : State) (x : Tbl AuEntry) : (s.setTable x).powered = s.powered := rfl
@[simp] theorem State.setTable_heldIsl (s : State) (x : Tbl AuEntry) : (s.setTable x).heldIsl = s.heldIsl := rfl
@[simp] theorem State.setTable_phaseDone (s : State) (x : Tbl AuEntry) : (s.setTable x).phaseDone = s.phaseDone := rfl
@[simp] theorem State.setTable_bypassHold (s : State) (x : Tbl AuEntry) : (s.setTable x).bypassHold = s.bypassHold := rfl
@[simp] theorem State.setTable_ecatHold (s : State) (x : Tbl AuEntry) : (s.setTable x).ecatHold = s.ecatHold := rfl
@[simp] theorem State.setTable_mgmtHalted (s : State) (x : Tbl AuEntry) : (s.setTable x).mgmtHalted = s.mgmtHalted := rfl
@[simp] theorem State.setTable_ev (s : State) (x : Tbl AuEntry) : (s.setTable x).ev = s.ev := rfl
@[simp] theorem State.setTable_jrn (s : State) (x : Tbl AuEntry) : (s.setTable x).jrn = s.jrn := rfl
@[simp] theorem State.setTable_host (s : State) (x : Tbl AuEntry) : (s.setTable x).host = s.host := rfl
@[simp] theorem State.setTable_tb (s : State) (x : Tbl AuEntry) : (s.setTable x).tb = s.tb := rfl
@[simp] theorem State.setTable_pu (s : State) (x : Tbl AuEntry) : (s.setTable x).pu = s.pu := rfl
@[simp] theorem State.setTable_pc (s : State) (x : Tbl AuEntry) : (s.setTable x).pc = s.pc := rfl
@[simp] theorem State.setTable_pipes (s : State) (x : Tbl AuEntry) : (s.setTable x).pipes = s.pipes := rfl
@[simp] theorem State.setTable_decs (s : State) (x : Tbl AuEntry) : (s.setTable x).decs = s.decs := rfl
@[simp] theorem State.setTable_tune (s : State) (x : Tbl AuEntry) : (s.setTable x).tune = s.tune := rfl
@[simp] theorem State.setTable_cores (s : State) (x : Tbl AuEntry) : (s.setTable x).cores = s.cores := rfl
@[simp] theorem State.setTable_signals (s : State) (x : Tbl AuEntry) : (s.setTable x).signals = s.signals := rfl
@[simp] theorem State.setTable_remote (s : State) (x : Tbl AuEntry) : (s.setTable x).remote = s.remote := rfl
@[simp] theorem State.setTable_ds (s : State) (x : Tbl AuEntry) : (s.setTable x).ds = s.ds := rfl
@[simp] theorem State.setTable_rcp (s : State) (x : Tbl AuEntry) : (s.setTable x).rcp = s.rcp := rfl
@[simp] theorem State.setTable_cu (s : State) (x : Tbl AuEntry) : (s.setTable x).cu = s.cu := rfl
@[simp] theorem State.setTable_aud (s : State) (x : Tbl AuEntry) : (s.setTable x).aud = s.aud := rfl
@[simp] theorem State.setTable_fab (s : State) (x : Tbl AuEntry) : (s.setTable x).fab = s.fab := rfl
@[simp] theorem State.setTable_quill (s : State) (x : Tbl AuEntry) : (s.setTable x).quill = s.quill := rfl
@[simp] theorem State.setTable_env (s : State) (x : Tbl AuEntry) : (s.setTable x).env = s.env := rfl
@[simp] theorem State.setTable_boot (s : State) (x : Tbl AuEntry) : (s.setTable x).boot = s.boot := rfl
@[simp] theorem State.setTable_ecat (s : State) (x : Tbl AuEntry) : (s.setTable x).ecat = s.ecat := rfl
@[simp] theorem State.setTable_emcyMask (s : State) (x : Tbl AuEntry) : (s.setTable x).emcyMask = s.emcyMask := rfl
@[simp] theorem State.setTable_pending (s : State) (x : Tbl AuEntry) : (s.setTable x).pending = s.pending := rfl
/-! setCh -/
@[simp] theorem State.setCh_cfg (s : State) (c : Nat) (x : PuCh) : (s.setCh c x).cfg = s.cfg := rfl
@[simp] theorem State.setCh_regs (s : State) (c : Nat) (x : PuCh) : (s.setCh c x).regs = s.regs := rfl
@[simp] theorem State.setCh_hiLatch (s : State) (c : Nat) (x : PuCh) : (s.setCh c x).hiLatch = s.hiLatch := rfl
@[simp] theorem State.setCh_loHeld (s : State) (c : Nat) (x : PuCh) : (s.setCh c x).loHeld = s.loHeld := rfl
@[simp] theorem State.setCh_rdata (s : State) (c : Nat) (x : PuCh) : (s.setCh c x).rdata = s.rdata := rfl
@[simp] theorem State.setCh_tt (s : State) (c : Nat) (x : PuCh) : (s.setCh c x).tt = s.tt := rfl
@[simp] theorem State.setCh_ttFrac (s : State) (c : Nat) (x : PuCh) : (s.setCh c x).ttFrac = s.ttFrac := rfl
@[simp] theorem State.setCh_free (s : State) (c : Nat) (x : PuCh) : (s.setCh c x).free = s.free := rfl
@[simp] theorem State.setCh_mem (s : State) (c : Nat) (x : PuCh) : (s.setCh c x).mem = s.mem := rfl
@[simp] theorem State.setCh_badWords (s : State) (c : Nat) (x : PuCh) : (s.setCh c x).badWords = s.badWords := rfl
@[simp] theorem State.setCh_por (s : State) (c : Nat) (x : PuCh) : (s.setCh c x).por = s.por := rfl
@[simp] theorem State.setCh_warm (s : State) (c : Nat) (x : PuCh) : (s.setCh c x).warm = s.warm := rfl
@[simp] theorem State.setCh_powered (s : State) (c : Nat) (x : PuCh) : (s.setCh c x).powered = s.powered := rfl
@[simp] theorem State.setCh_heldIsl (s : State) (c : Nat) (x : PuCh) : (s.setCh c x).heldIsl = s.heldIsl := rfl
@[simp] theorem State.setCh_phaseDone (s : State) (c : Nat) (x : PuCh) : (s.setCh c x).phaseDone = s.phaseDone := rfl
@[simp] theorem State.setCh_bypassHold (s : State) (c : Nat) (x : PuCh) : (s.setCh c x).bypassHold = s.bypassHold := rfl
@[simp] theorem State.setCh_ecatHold (s : State) (c : Nat) (x : PuCh) : (s.setCh c x).ecatHold = s.ecatHold := rfl
@[simp] theorem State.setCh_mgmtHalted (s : State) (c : Nat) (x : PuCh) : (s.setCh c x).mgmtHalted = s.mgmtHalted := rfl
@[simp] theorem State.setCh_ev (s : State) (c : Nat) (x : PuCh) : (s.setCh c x).ev = s.ev := rfl
@[simp] theorem State.setCh_jrn (s : State) (c : Nat) (x : PuCh) : (s.setCh c x).jrn = s.jrn := rfl
@[simp] theorem State.setCh_host (s : State) (c : Nat) (x : PuCh) : (s.setCh c x).host = s.host := rfl
@[simp] theorem State.setCh_tb (s : State) (c : Nat) (x : PuCh) : (s.setCh c x).tb = s.tb := rfl
@[simp] theorem State.setCh_au (s : State) (c : Nat) (x : PuCh) : (s.setCh c x).au = s.au := rfl
@[simp] theorem State.setCh_pc (s : State) (c : Nat) (x : PuCh) : (s.setCh c x).pc = s.pc := rfl
@[simp] theorem State.setCh_pipes (s : State) (c : Nat) (x : PuCh) : (s.setCh c x).pipes = s.pipes := rfl
@[simp] theorem State.setCh_decs (s : State) (c : Nat) (x : PuCh) : (s.setCh c x).decs = s.decs := rfl
@[simp] theorem State.setCh_tune (s : State) (c : Nat) (x : PuCh) : (s.setCh c x).tune = s.tune := rfl
@[simp] theorem State.setCh_cores (s : State) (c : Nat) (x : PuCh) : (s.setCh c x).cores = s.cores := rfl
@[simp] theorem State.setCh_signals (s : State) (c : Nat) (x : PuCh) : (s.setCh c x).signals = s.signals := rfl
@[simp] theorem State.setCh_remote (s : State) (c : Nat) (x : PuCh) : (s.setCh c x).remote = s.remote := rfl
@[simp] theorem State.setCh_ds (s : State) (c : Nat) (x : PuCh) : (s.setCh c x).ds = s.ds := rfl
@[simp] theorem State.setCh_rcp (s : State) (c : Nat) (x : PuCh) : (s.setCh c x).rcp = s.rcp := rfl
@[simp] theorem State.setCh_cu (s : State) (c : Nat) (x : PuCh) : (s.setCh c x).cu = s.cu := rfl
@[simp] theorem State.setCh_aud (s : State) (c : Nat) (x : PuCh) : (s.setCh c x).aud = s.aud := rfl
@[simp] theorem State.setCh_fab (s : State) (c : Nat) (x : PuCh) : (s.setCh c x).fab = s.fab := rfl
@[simp] theorem State.setCh_quill (s : State) (c : Nat) (x : PuCh) : (s.setCh c x).quill = s.quill := rfl
@[simp] theorem State.setCh_env (s : State) (c : Nat) (x : PuCh) : (s.setCh c x).env = s.env := rfl
@[simp] theorem State.setCh_boot (s : State) (c : Nat) (x : PuCh) : (s.setCh c x).boot = s.boot := rfl
@[simp] theorem State.setCh_ecat (s : State) (c : Nat) (x : PuCh) : (s.setCh c x).ecat = s.ecat := rfl
@[simp] theorem State.setCh_emcyMask (s : State) (c : Nat) (x : PuCh) : (s.setCh c x).emcyMask = s.emcyMask := rfl
@[simp] theorem State.setCh_pending (s : State) (c : Nat) (x : PuCh) : (s.setCh c x).pending = s.pending := rfl
/-! setPipe -/
@[simp] theorem State.setPipe_cfg (s : State) (p : Nat) (x : Pipe) : (s.setPipe p x).cfg = s.cfg := rfl
@[simp] theorem State.setPipe_regs (s : State) (p : Nat) (x : Pipe) : (s.setPipe p x).regs = s.regs := rfl
@[simp] theorem State.setPipe_hiLatch (s : State) (p : Nat) (x : Pipe) : (s.setPipe p x).hiLatch = s.hiLatch := rfl
@[simp] theorem State.setPipe_loHeld (s : State) (p : Nat) (x : Pipe) : (s.setPipe p x).loHeld = s.loHeld := rfl
@[simp] theorem State.setPipe_rdata (s : State) (p : Nat) (x : Pipe) : (s.setPipe p x).rdata = s.rdata := rfl
@[simp] theorem State.setPipe_tt (s : State) (p : Nat) (x : Pipe) : (s.setPipe p x).tt = s.tt := rfl
@[simp] theorem State.setPipe_ttFrac (s : State) (p : Nat) (x : Pipe) : (s.setPipe p x).ttFrac = s.ttFrac := rfl
@[simp] theorem State.setPipe_free (s : State) (p : Nat) (x : Pipe) : (s.setPipe p x).free = s.free := rfl
@[simp] theorem State.setPipe_mem (s : State) (p : Nat) (x : Pipe) : (s.setPipe p x).mem = s.mem := rfl
@[simp] theorem State.setPipe_badWords (s : State) (p : Nat) (x : Pipe) : (s.setPipe p x).badWords = s.badWords := rfl
@[simp] theorem State.setPipe_por (s : State) (p : Nat) (x : Pipe) : (s.setPipe p x).por = s.por := rfl
@[simp] theorem State.setPipe_warm (s : State) (p : Nat) (x : Pipe) : (s.setPipe p x).warm = s.warm := rfl
@[simp] theorem State.setPipe_powered (s : State) (p : Nat) (x : Pipe) : (s.setPipe p x).powered = s.powered := rfl
@[simp] theorem State.setPipe_heldIsl (s : State) (p : Nat) (x : Pipe) : (s.setPipe p x).heldIsl = s.heldIsl := rfl
@[simp] theorem State.setPipe_phaseDone (s : State) (p : Nat) (x : Pipe) : (s.setPipe p x).phaseDone = s.phaseDone := rfl
@[simp] theorem State.setPipe_bypassHold (s : State) (p : Nat) (x : Pipe) : (s.setPipe p x).bypassHold = s.bypassHold := rfl
@[simp] theorem State.setPipe_ecatHold (s : State) (p : Nat) (x : Pipe) : (s.setPipe p x).ecatHold = s.ecatHold := rfl
@[simp] theorem State.setPipe_mgmtHalted (s : State) (p : Nat) (x : Pipe) : (s.setPipe p x).mgmtHalted = s.mgmtHalted := rfl
@[simp] theorem State.setPipe_ev (s : State) (p : Nat) (x : Pipe) : (s.setPipe p x).ev = s.ev := rfl
@[simp] theorem State.setPipe_jrn (s : State) (p : Nat) (x : Pipe) : (s.setPipe p x).jrn = s.jrn := rfl
@[simp] theorem State.setPipe_host (s : State) (p : Nat) (x : Pipe) : (s.setPipe p x).host = s.host := rfl
@[simp] theorem State.setPipe_tb (s : State) (p : Nat) (x : Pipe) : (s.setPipe p x).tb = s.tb := rfl
@[simp] theorem State.setPipe_pu (s : State) (p : Nat) (x : Pipe) : (s.setPipe p x).pu = s.pu := rfl
@[simp] theorem State.setPipe_au (s : State) (p : Nat) (x : Pipe) : (s.setPipe p x).au = s.au := rfl
@[simp] theorem State.setPipe_pc (s : State) (p : Nat) (x : Pipe) : (s.setPipe p x).pc = s.pc := rfl
@[simp] theorem State.setPipe_decs (s : State) (p : Nat) (x : Pipe) : (s.setPipe p x).decs = s.decs := rfl
@[simp] theorem State.setPipe_tune (s : State) (p : Nat) (x : Pipe) : (s.setPipe p x).tune = s.tune := rfl
@[simp] theorem State.setPipe_cores (s : State) (p : Nat) (x : Pipe) : (s.setPipe p x).cores = s.cores := rfl
@[simp] theorem State.setPipe_signals (s : State) (p : Nat) (x : Pipe) : (s.setPipe p x).signals = s.signals := rfl
@[simp] theorem State.setPipe_remote (s : State) (p : Nat) (x : Pipe) : (s.setPipe p x).remote = s.remote := rfl
@[simp] theorem State.setPipe_ds (s : State) (p : Nat) (x : Pipe) : (s.setPipe p x).ds = s.ds := rfl
@[simp] theorem State.setPipe_rcp (s : State) (p : Nat) (x : Pipe) : (s.setPipe p x).rcp = s.rcp := rfl
@[simp] theorem State.setPipe_cu (s : State) (p : Nat) (x : Pipe) : (s.setPipe p x).cu = s.cu := rfl
@[simp] theorem State.setPipe_aud (s : State) (p : Nat) (x : Pipe) : (s.setPipe p x).aud = s.aud := rfl
@[simp] theorem State.setPipe_fab (s : State) (p : Nat) (x : Pipe) : (s.setPipe p x).fab = s.fab := rfl
@[simp] theorem State.setPipe_quill (s : State) (p : Nat) (x : Pipe) : (s.setPipe p x).quill = s.quill := rfl
@[simp] theorem State.setPipe_env (s : State) (p : Nat) (x : Pipe) : (s.setPipe p x).env = s.env := rfl
@[simp] theorem State.setPipe_boot (s : State) (p : Nat) (x : Pipe) : (s.setPipe p x).boot = s.boot := rfl
@[simp] theorem State.setPipe_ecat (s : State) (p : Nat) (x : Pipe) : (s.setPipe p x).ecat = s.ecat := rfl
@[simp] theorem State.setPipe_emcyMask (s : State) (p : Nat) (x : Pipe) : (s.setPipe p x).emcyMask = s.emcyMask := rfl
@[simp] theorem State.setPipe_pending (s : State) (p : Nat) (x : Pipe) : (s.setPipe p x).pending = s.pending := rfl
/-! setDec -/
@[simp] theorem State.setDec_cfg (s : State) (c : Nat) (x : DecCh) : (s.setDec c x).cfg = s.cfg := rfl
@[simp] theorem State.setDec_regs (s : State) (c : Nat) (x : DecCh) : (s.setDec c x).regs = s.regs := rfl
@[simp] theorem State.setDec_hiLatch (s : State) (c : Nat) (x : DecCh) : (s.setDec c x).hiLatch = s.hiLatch := rfl
@[simp] theorem State.setDec_loHeld (s : State) (c : Nat) (x : DecCh) : (s.setDec c x).loHeld = s.loHeld := rfl
@[simp] theorem State.setDec_rdata (s : State) (c : Nat) (x : DecCh) : (s.setDec c x).rdata = s.rdata := rfl
@[simp] theorem State.setDec_tt (s : State) (c : Nat) (x : DecCh) : (s.setDec c x).tt = s.tt := rfl
@[simp] theorem State.setDec_ttFrac (s : State) (c : Nat) (x : DecCh) : (s.setDec c x).ttFrac = s.ttFrac := rfl
@[simp] theorem State.setDec_free (s : State) (c : Nat) (x : DecCh) : (s.setDec c x).free = s.free := rfl
@[simp] theorem State.setDec_mem (s : State) (c : Nat) (x : DecCh) : (s.setDec c x).mem = s.mem := rfl
@[simp] theorem State.setDec_badWords (s : State) (c : Nat) (x : DecCh) : (s.setDec c x).badWords = s.badWords := rfl
@[simp] theorem State.setDec_por (s : State) (c : Nat) (x : DecCh) : (s.setDec c x).por = s.por := rfl
@[simp] theorem State.setDec_warm (s : State) (c : Nat) (x : DecCh) : (s.setDec c x).warm = s.warm := rfl
@[simp] theorem State.setDec_powered (s : State) (c : Nat) (x : DecCh) : (s.setDec c x).powered = s.powered := rfl
@[simp] theorem State.setDec_heldIsl (s : State) (c : Nat) (x : DecCh) : (s.setDec c x).heldIsl = s.heldIsl := rfl
@[simp] theorem State.setDec_phaseDone (s : State) (c : Nat) (x : DecCh) : (s.setDec c x).phaseDone = s.phaseDone := rfl
@[simp] theorem State.setDec_bypassHold (s : State) (c : Nat) (x : DecCh) : (s.setDec c x).bypassHold = s.bypassHold := rfl
@[simp] theorem State.setDec_ecatHold (s : State) (c : Nat) (x : DecCh) : (s.setDec c x).ecatHold = s.ecatHold := rfl
@[simp] theorem State.setDec_mgmtHalted (s : State) (c : Nat) (x : DecCh) : (s.setDec c x).mgmtHalted = s.mgmtHalted := rfl
@[simp] theorem State.setDec_ev (s : State) (c : Nat) (x : DecCh) : (s.setDec c x).ev = s.ev := rfl
@[simp] theorem State.setDec_jrn (s : State) (c : Nat) (x : DecCh) : (s.setDec c x).jrn = s.jrn := rfl
@[simp] theorem State.setDec_host (s : State) (c : Nat) (x : DecCh) : (s.setDec c x).host = s.host := rfl
@[simp] theorem State.setDec_tb (s : State) (c : Nat) (x : DecCh) : (s.setDec c x).tb = s.tb := rfl
@[simp] theorem State.setDec_pu (s : State) (c : Nat) (x : DecCh) : (s.setDec c x).pu = s.pu := rfl
@[simp] theorem State.setDec_au (s : State) (c : Nat) (x : DecCh) : (s.setDec c x).au = s.au := rfl
@[simp] theorem State.setDec_pc (s : State) (c : Nat) (x : DecCh) : (s.setDec c x).pc = s.pc := rfl
@[simp] theorem State.setDec_pipes (s : State) (c : Nat) (x : DecCh) : (s.setDec c x).pipes = s.pipes := rfl
@[simp] theorem State.setDec_tune (s : State) (c : Nat) (x : DecCh) : (s.setDec c x).tune = s.tune := rfl
@[simp] theorem State.setDec_cores (s : State) (c : Nat) (x : DecCh) : (s.setDec c x).cores = s.cores := rfl
@[simp] theorem State.setDec_signals (s : State) (c : Nat) (x : DecCh) : (s.setDec c x).signals = s.signals := rfl
@[simp] theorem State.setDec_remote (s : State) (c : Nat) (x : DecCh) : (s.setDec c x).remote = s.remote := rfl
@[simp] theorem State.setDec_ds (s : State) (c : Nat) (x : DecCh) : (s.setDec c x).ds = s.ds := rfl
@[simp] theorem State.setDec_rcp (s : State) (c : Nat) (x : DecCh) : (s.setDec c x).rcp = s.rcp := rfl
@[simp] theorem State.setDec_cu (s : State) (c : Nat) (x : DecCh) : (s.setDec c x).cu = s.cu := rfl
@[simp] theorem State.setDec_aud (s : State) (c : Nat) (x : DecCh) : (s.setDec c x).aud = s.aud := rfl
@[simp] theorem State.setDec_fab (s : State) (c : Nat) (x : DecCh) : (s.setDec c x).fab = s.fab := rfl
@[simp] theorem State.setDec_quill (s : State) (c : Nat) (x : DecCh) : (s.setDec c x).quill = s.quill := rfl
@[simp] theorem State.setDec_env (s : State) (c : Nat) (x : DecCh) : (s.setDec c x).env = s.env := rfl
@[simp] theorem State.setDec_boot (s : State) (c : Nat) (x : DecCh) : (s.setDec c x).boot = s.boot := rfl
@[simp] theorem State.setDec_ecat (s : State) (c : Nat) (x : DecCh) : (s.setDec c x).ecat = s.ecat := rfl
@[simp] theorem State.setDec_emcyMask (s : State) (c : Nat) (x : DecCh) : (s.setDec c x).emcyMask = s.emcyMask := rfl
@[simp] theorem State.setDec_pending (s : State) (c : Nat) (x : DecCh) : (s.setDec c x).pending = s.pending := rfl
/-! setCore -/
@[simp] theorem State.setCore_cfg (s : State) (c : Nat) (x : Core) : (s.setCore c x).cfg = s.cfg := rfl
@[simp] theorem State.setCore_regs (s : State) (c : Nat) (x : Core) : (s.setCore c x).regs = s.regs := rfl
@[simp] theorem State.setCore_hiLatch (s : State) (c : Nat) (x : Core) : (s.setCore c x).hiLatch = s.hiLatch := rfl
@[simp] theorem State.setCore_loHeld (s : State) (c : Nat) (x : Core) : (s.setCore c x).loHeld = s.loHeld := rfl
@[simp] theorem State.setCore_rdata (s : State) (c : Nat) (x : Core) : (s.setCore c x).rdata = s.rdata := rfl
@[simp] theorem State.setCore_tt (s : State) (c : Nat) (x : Core) : (s.setCore c x).tt = s.tt := rfl
@[simp] theorem State.setCore_ttFrac (s : State) (c : Nat) (x : Core) : (s.setCore c x).ttFrac = s.ttFrac := rfl
@[simp] theorem State.setCore_free (s : State) (c : Nat) (x : Core) : (s.setCore c x).free = s.free := rfl
@[simp] theorem State.setCore_mem (s : State) (c : Nat) (x : Core) : (s.setCore c x).mem = s.mem := rfl
@[simp] theorem State.setCore_badWords (s : State) (c : Nat) (x : Core) : (s.setCore c x).badWords = s.badWords := rfl
@[simp] theorem State.setCore_por (s : State) (c : Nat) (x : Core) : (s.setCore c x).por = s.por := rfl
@[simp] theorem State.setCore_warm (s : State) (c : Nat) (x : Core) : (s.setCore c x).warm = s.warm := rfl
@[simp] theorem State.setCore_powered (s : State) (c : Nat) (x : Core) : (s.setCore c x).powered = s.powered := rfl
@[simp] theorem State.setCore_heldIsl (s : State) (c : Nat) (x : Core) : (s.setCore c x).heldIsl = s.heldIsl := rfl
@[simp] theorem State.setCore_phaseDone (s : State) (c : Nat) (x : Core) : (s.setCore c x).phaseDone = s.phaseDone := rfl
@[simp] theorem State.setCore_bypassHold (s : State) (c : Nat) (x : Core) : (s.setCore c x).bypassHold = s.bypassHold := rfl
@[simp] theorem State.setCore_ecatHold (s : State) (c : Nat) (x : Core) : (s.setCore c x).ecatHold = s.ecatHold := rfl
@[simp] theorem State.setCore_mgmtHalted (s : State) (c : Nat) (x : Core) : (s.setCore c x).mgmtHalted = s.mgmtHalted := rfl
@[simp] theorem State.setCore_ev (s : State) (c : Nat) (x : Core) : (s.setCore c x).ev = s.ev := rfl
@[simp] theorem State.setCore_jrn (s : State) (c : Nat) (x : Core) : (s.setCore c x).jrn = s.jrn := rfl
@[simp] theorem State.setCore_host (s : State) (c : Nat) (x : Core) : (s.setCore c x).host = s.host := rfl
@[simp] theorem State.setCore_tb (s : State) (c : Nat) (x : Core) : (s.setCore c x).tb = s.tb := rfl
@[simp] theorem State.setCore_pu (s : State) (c : Nat) (x : Core) : (s.setCore c x).pu = s.pu := rfl
@[simp] theorem State.setCore_au (s : State) (c : Nat) (x : Core) : (s.setCore c x).au = s.au := rfl
@[simp] theorem State.setCore_pc (s : State) (c : Nat) (x : Core) : (s.setCore c x).pc = s.pc := rfl
@[simp] theorem State.setCore_pipes (s : State) (c : Nat) (x : Core) : (s.setCore c x).pipes = s.pipes := rfl
@[simp] theorem State.setCore_decs (s : State) (c : Nat) (x : Core) : (s.setCore c x).decs = s.decs := rfl
@[simp] theorem State.setCore_tune (s : State) (c : Nat) (x : Core) : (s.setCore c x).tune = s.tune := rfl
@[simp] theorem State.setCore_signals (s : State) (c : Nat) (x : Core) : (s.setCore c x).signals = s.signals := rfl
@[simp] theorem State.setCore_remote (s : State) (c : Nat) (x : Core) : (s.setCore c x).remote = s.remote := rfl
@[simp] theorem State.setCore_ds (s : State) (c : Nat) (x : Core) : (s.setCore c x).ds = s.ds := rfl
@[simp] theorem State.setCore_rcp (s : State) (c : Nat) (x : Core) : (s.setCore c x).rcp = s.rcp := rfl
@[simp] theorem State.setCore_cu (s : State) (c : Nat) (x : Core) : (s.setCore c x).cu = s.cu := rfl
@[simp] theorem State.setCore_aud (s : State) (c : Nat) (x : Core) : (s.setCore c x).aud = s.aud := rfl
@[simp] theorem State.setCore_fab (s : State) (c : Nat) (x : Core) : (s.setCore c x).fab = s.fab := rfl
@[simp] theorem State.setCore_quill (s : State) (c : Nat) (x : Core) : (s.setCore c x).quill = s.quill := rfl
@[simp] theorem State.setCore_env (s : State) (c : Nat) (x : Core) : (s.setCore c x).env = s.env := rfl
@[simp] theorem State.setCore_boot (s : State) (c : Nat) (x : Core) : (s.setCore c x).boot = s.boot := rfl
@[simp] theorem State.setCore_ecat (s : State) (c : Nat) (x : Core) : (s.setCore c x).ecat = s.ecat := rfl
@[simp] theorem State.setCore_emcyMask (s : State) (c : Nat) (x : Core) : (s.setCore c x).emcyMask = s.emcyMask := rfl
@[simp] theorem State.setCore_pending (s : State) (c : Nat) (x : Core) : (s.setCore c x).pending = s.pending := rfl
/-! showEng -/
@[simp] theorem State.showEng_cfg (s : State) (c e : Nat) : (s.showEng c e).cfg = s.cfg := by
  unfold State.showEng; dsimp only; split <;> rfl
@[simp] theorem State.showEng_hiLatch (s : State) (c e : Nat) : (s.showEng c e).hiLatch = s.hiLatch := by
  unfold State.showEng; dsimp only; split <;> rfl
@[simp] theorem State.showEng_loHeld (s : State) (c e : Nat) : (s.showEng c e).loHeld = s.loHeld := by
  unfold State.showEng; dsimp only; split <;> rfl
@[simp] theorem State.showEng_rdata (s : State) (c e : Nat) : (s.showEng c e).rdata = s.rdata := by
  unfold State.showEng; dsimp only; split <;> rfl
@[simp] theorem State.showEng_tt (s : State) (c e : Nat) : (s.showEng c e).tt = s.tt := by
  unfold State.showEng; dsimp only; split <;> rfl
@[simp] theorem State.showEng_ttFrac (s : State) (c e : Nat) : (s.showEng c e).ttFrac = s.ttFrac := by
  unfold State.showEng; dsimp only; split <;> rfl
@[simp] theorem State.showEng_free (s : State) (c e : Nat) : (s.showEng c e).free = s.free := by
  unfold State.showEng; dsimp only; split <;> rfl
@[simp] theorem State.showEng_mem (s : State) (c e : Nat) : (s.showEng c e).mem = s.mem := by
  unfold State.showEng; dsimp only; split <;> rfl
@[simp] theorem State.showEng_badWords (s : State) (c e : Nat) : (s.showEng c e).badWords = s.badWords := by
  unfold State.showEng; dsimp only; split <;> rfl
@[simp] theorem State.showEng_por (s : State) (c e : Nat) : (s.showEng c e).por = s.por := by
  unfold State.showEng; dsimp only; split <;> rfl
@[simp] theorem State.showEng_warm (s : State) (c e : Nat) : (s.showEng c e).warm = s.warm := by
  unfold State.showEng; dsimp only; split <;> rfl
@[simp] theorem State.showEng_powered (s : State) (c e : Nat) : (s.showEng c e).powered = s.powered := by
  unfold State.showEng; dsimp only; split <;> rfl
@[simp] theorem State.showEng_heldIsl (s : State) (c e : Nat) : (s.showEng c e).heldIsl = s.heldIsl := by
  unfold State.showEng; dsimp only; split <;> rfl
@[simp] theorem State.showEng_phaseDone (s : State) (c e : Nat) : (s.showEng c e).phaseDone = s.phaseDone := by
  unfold State.showEng; dsimp only; split <;> rfl
@[simp] theorem State.showEng_bypassHold (s : State) (c e : Nat) : (s.showEng c e).bypassHold = s.bypassHold := by
  unfold State.showEng; dsimp only; split <;> rfl
@[simp] theorem State.showEng_ecatHold (s : State) (c e : Nat) : (s.showEng c e).ecatHold = s.ecatHold := by
  unfold State.showEng; dsimp only; split <;> rfl
@[simp] theorem State.showEng_mgmtHalted (s : State) (c e : Nat) : (s.showEng c e).mgmtHalted = s.mgmtHalted := by
  unfold State.showEng; dsimp only; split <;> rfl
@[simp] theorem State.showEng_ev (s : State) (c e : Nat) : (s.showEng c e).ev = s.ev := by
  unfold State.showEng; dsimp only; split <;> rfl
@[simp] theorem State.showEng_jrn (s : State) (c e : Nat) : (s.showEng c e).jrn = s.jrn := by
  unfold State.showEng; dsimp only; split <;> rfl
@[simp] theorem State.showEng_host (s : State) (c e : Nat) : (s.showEng c e).host = s.host := by
  unfold State.showEng; dsimp only; split <;> rfl
@[simp] theorem State.showEng_tb (s : State) (c e : Nat) : (s.showEng c e).tb = s.tb := by
  unfold State.showEng; dsimp only; split <;> rfl
@[simp] theorem State.showEng_pu (s : State) (c e : Nat) : (s.showEng c e).pu = s.pu := by
  unfold State.showEng; dsimp only; split <;> rfl
@[simp] theorem State.showEng_au (s : State) (c e : Nat) : (s.showEng c e).au = s.au := by
  unfold State.showEng; dsimp only; split <;> rfl
@[simp] theorem State.showEng_pc (s : State) (c e : Nat) : (s.showEng c e).pc = s.pc := by
  unfold State.showEng; dsimp only; split <;> rfl
@[simp] theorem State.showEng_pipes (s : State) (c e : Nat) : (s.showEng c e).pipes = s.pipes := by
  unfold State.showEng; dsimp only; split <;> rfl
@[simp] theorem State.showEng_decs (s : State) (c e : Nat) : (s.showEng c e).decs = s.decs := by
  unfold State.showEng; dsimp only; split <;> rfl
@[simp] theorem State.showEng_tune (s : State) (c e : Nat) : (s.showEng c e).tune = s.tune := by
  unfold State.showEng; dsimp only; split <;> rfl
@[simp] theorem State.showEng_cores (s : State) (c e : Nat) : (s.showEng c e).cores = s.cores := by
  unfold State.showEng; dsimp only; split <;> rfl
@[simp] theorem State.showEng_signals (s : State) (c e : Nat) : (s.showEng c e).signals = s.signals := by
  unfold State.showEng; dsimp only; split <;> rfl
@[simp] theorem State.showEng_remote (s : State) (c e : Nat) : (s.showEng c e).remote = s.remote := by
  unfold State.showEng; dsimp only; split <;> rfl
@[simp] theorem State.showEng_ds (s : State) (c e : Nat) : (s.showEng c e).ds = s.ds := by
  unfold State.showEng; dsimp only; split <;> rfl
@[simp] theorem State.showEng_rcp (s : State) (c e : Nat) : (s.showEng c e).rcp = s.rcp := by
  unfold State.showEng; dsimp only; split <;> rfl
@[simp] theorem State.showEng_cu (s : State) (c e : Nat) : (s.showEng c e).cu = s.cu := by
  unfold State.showEng; dsimp only; split <;> rfl
@[simp] theorem State.showEng_aud (s : State) (c e : Nat) : (s.showEng c e).aud = s.aud := by
  unfold State.showEng; dsimp only; split <;> rfl
@[simp] theorem State.showEng_fab (s : State) (c e : Nat) : (s.showEng c e).fab = s.fab := by
  unfold State.showEng; dsimp only; split <;> rfl
@[simp] theorem State.showEng_quill (s : State) (c e : Nat) : (s.showEng c e).quill = s.quill := by
  unfold State.showEng; dsimp only; split <;> rfl
@[simp] theorem State.showEng_env (s : State) (c e : Nat) : (s.showEng c e).env = s.env := by
  unfold State.showEng; dsimp only; split <;> rfl
@[simp] theorem State.showEng_boot (s : State) (c e : Nat) : (s.showEng c e).boot = s.boot := by
  unfold State.showEng; dsimp only; split <;> rfl
@[simp] theorem State.showEng_ecat (s : State) (c e : Nat) : (s.showEng c e).ecat = s.ecat := by
  unfold State.showEng; dsimp only; split <;> rfl
@[simp] theorem State.showEng_emcyMask (s : State) (c e : Nat) : (s.showEng c e).emcyMask = s.emcyMask := by
  unfold State.showEng; dsimp only; split <;> rfl
@[simp] theorem State.showEng_pending (s : State) (c e : Nat) : (s.showEng c e).pending = s.pending := by
  unfold State.showEng; dsimp only; split <;> rfl
/-! showCore -/
@[simp] theorem State.showCore_cfg (s : State) (c : Nat) : (s.showCore c).cfg = s.cfg := rfl
@[simp] theorem State.showCore_hiLatch (s : State) (c : Nat) : (s.showCore c).hiLatch = s.hiLatch := rfl
@[simp] theorem State.showCore_loHeld (s : State) (c : Nat) : (s.showCore c).loHeld = s.loHeld := rfl
@[simp] theorem State.showCore_rdata (s : State) (c : Nat) : (s.showCore c).rdata = s.rdata := rfl
@[simp] theorem State.showCore_tt (s : State) (c : Nat) : (s.showCore c).tt = s.tt := rfl
@[simp] theorem State.showCore_ttFrac (s : State) (c : Nat) : (s.showCore c).ttFrac = s.ttFrac := rfl
@[simp] theorem State.showCore_free (s : State) (c : Nat) : (s.showCore c).free = s.free := rfl
@[simp] theorem State.showCore_mem (s : State) (c : Nat) : (s.showCore c).mem = s.mem := rfl
@[simp] theorem State.showCore_badWords (s : State) (c : Nat) : (s.showCore c).badWords = s.badWords := rfl
@[simp] theorem State.showCore_por (s : State) (c : Nat) : (s.showCore c).por = s.por := rfl
@[simp] theorem State.showCore_warm (s : State) (c : Nat) : (s.showCore c).warm = s.warm := rfl
@[simp] theorem State.showCore_powered (s : State) (c : Nat) : (s.showCore c).powered = s.powered := rfl
@[simp] theorem State.showCore_heldIsl (s : State) (c : Nat) : (s.showCore c).heldIsl = s.heldIsl := rfl
@[simp] theorem State.showCore_phaseDone (s : State) (c : Nat) : (s.showCore c).phaseDone = s.phaseDone := rfl
@[simp] theorem State.showCore_bypassHold (s : State) (c : Nat) : (s.showCore c).bypassHold = s.bypassHold := rfl
@[simp] theorem State.showCore_ecatHold (s : State) (c : Nat) : (s.showCore c).ecatHold = s.ecatHold := rfl
@[simp] theorem State.showCore_mgmtHalted (s : State) (c : Nat) : (s.showCore c).mgmtHalted = s.mgmtHalted := rfl
@[simp] theorem State.showCore_ev (s : State) (c : Nat) : (s.showCore c).ev = s.ev := rfl
@[simp] theorem State.showCore_jrn (s : State) (c : Nat) : (s.showCore c).jrn = s.jrn := rfl
@[simp] theorem State.showCore_host (s : State) (c : Nat) : (s.showCore c).host = s.host := rfl
@[simp] theorem State.showCore_tb (s : State) (c : Nat) : (s.showCore c).tb = s.tb := rfl
@[simp] theorem State.showCore_pu (s : State) (c : Nat) : (s.showCore c).pu = s.pu := rfl
@[simp] theorem State.showCore_au (s : State) (c : Nat) : (s.showCore c).au = s.au := rfl
@[simp] theorem State.showCore_pc (s : State) (c : Nat) : (s.showCore c).pc = s.pc := rfl
@[simp] theorem State.showCore_pipes (s : State) (c : Nat) : (s.showCore c).pipes = s.pipes := rfl
@[simp] theorem State.showCore_decs (s : State) (c : Nat) : (s.showCore c).decs = s.decs := rfl
@[simp] theorem State.showCore_tune (s : State) (c : Nat) : (s.showCore c).tune = s.tune := rfl
@[simp] theorem State.showCore_cores (s : State) (c : Nat) : (s.showCore c).cores = s.cores := rfl
@[simp] theorem State.showCore_signals (s : State) (c : Nat) : (s.showCore c).signals = s.signals := rfl
@[simp] theorem State.showCore_remote (s : State) (c : Nat) : (s.showCore c).remote = s.remote := rfl
@[simp] theorem State.showCore_ds (s : State) (c : Nat) : (s.showCore c).ds = s.ds := rfl
@[simp] theorem State.showCore_rcp (s : State) (c : Nat) : (s.showCore c).rcp = s.rcp := rfl
@[simp] theorem State.showCore_cu (s : State) (c : Nat) : (s.showCore c).cu = s.cu := rfl
@[simp] theorem State.showCore_aud (s : State) (c : Nat) : (s.showCore c).aud = s.aud := rfl
@[simp] theorem State.showCore_fab (s : State) (c : Nat) : (s.showCore c).fab = s.fab := rfl
@[simp] theorem State.showCore_quill (s : State) (c : Nat) : (s.showCore c).quill = s.quill := rfl
@[simp] theorem State.showCore_env (s : State) (c : Nat) : (s.showCore c).env = s.env := rfl
@[simp] theorem State.showCore_boot (s : State) (c : Nat) : (s.showCore c).boot = s.boot := rfl
@[simp] theorem State.showCore_ecat (s : State) (c : Nat) : (s.showCore c).ecat = s.ecat := rfl
@[simp] theorem State.showCore_emcyMask (s : State) (c : Nat) : (s.showCore c).emcyMask = s.emcyMask := rfl
@[simp] theorem State.showCore_pending (s : State) (c : Nat) : (s.showCore c).pending = s.pending := rfl
/-! setEng -/
@[simp] theorem State.setEng_cfg (s : State) (c e : Nat) (x : Engine) : (s.setEng c e x).cfg = s.cfg := by simp [State.setEng]
@[simp] theorem State.setEng_hiLatch (s : State) (c e : Nat) (x : Engine) : (s.setEng c e x).hiLatch = s.hiLatch := by simp [State.setEng]
@[simp] theorem State.setEng_loHeld (s : State) (c e : Nat) (x : Engine) : (s.setEng c e x).loHeld = s.loHeld := by simp [State.setEng]
@[simp] theorem State.setEng_rdata (s : State) (c e : Nat) (x : Engine) : (s.setEng c e x).rdata = s.rdata := by simp [State.setEng]
@[simp] theorem State.setEng_tt (s : State) (c e : Nat) (x : Engine) : (s.setEng c e x).tt = s.tt := by simp [State.setEng]
@[simp] theorem State.setEng_ttFrac (s : State) (c e : Nat) (x : Engine) : (s.setEng c e x).ttFrac = s.ttFrac := by simp [State.setEng]
@[simp] theorem State.setEng_free (s : State) (c e : Nat) (x : Engine) : (s.setEng c e x).free = s.free := by simp [State.setEng]
@[simp] theorem State.setEng_mem (s : State) (c e : Nat) (x : Engine) : (s.setEng c e x).mem = s.mem := by simp [State.setEng]
@[simp] theorem State.setEng_badWords (s : State) (c e : Nat) (x : Engine) : (s.setEng c e x).badWords = s.badWords := by simp [State.setEng]
@[simp] theorem State.setEng_por (s : State) (c e : Nat) (x : Engine) : (s.setEng c e x).por = s.por := by simp [State.setEng]
@[simp] theorem State.setEng_warm (s : State) (c e : Nat) (x : Engine) : (s.setEng c e x).warm = s.warm := by simp [State.setEng]
@[simp] theorem State.setEng_powered (s : State) (c e : Nat) (x : Engine) : (s.setEng c e x).powered = s.powered := by simp [State.setEng]
@[simp] theorem State.setEng_heldIsl (s : State) (c e : Nat) (x : Engine) : (s.setEng c e x).heldIsl = s.heldIsl := by simp [State.setEng]
@[simp] theorem State.setEng_phaseDone (s : State) (c e : Nat) (x : Engine) : (s.setEng c e x).phaseDone = s.phaseDone := by simp [State.setEng]
@[simp] theorem State.setEng_bypassHold (s : State) (c e : Nat) (x : Engine) : (s.setEng c e x).bypassHold = s.bypassHold := by simp [State.setEng]
@[simp] theorem State.setEng_ecatHold (s : State) (c e : Nat) (x : Engine) : (s.setEng c e x).ecatHold = s.ecatHold := by simp [State.setEng]
@[simp] theorem State.setEng_mgmtHalted (s : State) (c e : Nat) (x : Engine) : (s.setEng c e x).mgmtHalted = s.mgmtHalted := by simp [State.setEng]
@[simp] theorem State.setEng_ev (s : State) (c e : Nat) (x : Engine) : (s.setEng c e x).ev = s.ev := by simp [State.setEng]
@[simp] theorem State.setEng_jrn (s : State) (c e : Nat) (x : Engine) : (s.setEng c e x).jrn = s.jrn := by simp [State.setEng]
@[simp] theorem State.setEng_host (s : State) (c e : Nat) (x : Engine) : (s.setEng c e x).host = s.host := by simp [State.setEng]
@[simp] theorem State.setEng_tb (s : State) (c e : Nat) (x : Engine) : (s.setEng c e x).tb = s.tb := by simp [State.setEng]
@[simp] theorem State.setEng_pu (s : State) (c e : Nat) (x : Engine) : (s.setEng c e x).pu = s.pu := by simp [State.setEng]
@[simp] theorem State.setEng_au (s : State) (c e : Nat) (x : Engine) : (s.setEng c e x).au = s.au := by simp [State.setEng]
@[simp] theorem State.setEng_pc (s : State) (c e : Nat) (x : Engine) : (s.setEng c e x).pc = s.pc := by simp [State.setEng]
@[simp] theorem State.setEng_pipes (s : State) (c e : Nat) (x : Engine) : (s.setEng c e x).pipes = s.pipes := by simp [State.setEng]
@[simp] theorem State.setEng_decs (s : State) (c e : Nat) (x : Engine) : (s.setEng c e x).decs = s.decs := by simp [State.setEng]
@[simp] theorem State.setEng_tune (s : State) (c e : Nat) (x : Engine) : (s.setEng c e x).tune = s.tune := by simp [State.setEng]
@[simp] theorem State.setEng_signals (s : State) (c e : Nat) (x : Engine) : (s.setEng c e x).signals = s.signals := by simp [State.setEng]
@[simp] theorem State.setEng_remote (s : State) (c e : Nat) (x : Engine) : (s.setEng c e x).remote = s.remote := by simp [State.setEng]
@[simp] theorem State.setEng_ds (s : State) (c e : Nat) (x : Engine) : (s.setEng c e x).ds = s.ds := by simp [State.setEng]
@[simp] theorem State.setEng_rcp (s : State) (c e : Nat) (x : Engine) : (s.setEng c e x).rcp = s.rcp := by simp [State.setEng]
@[simp] theorem State.setEng_cu (s : State) (c e : Nat) (x : Engine) : (s.setEng c e x).cu = s.cu := by simp [State.setEng]
@[simp] theorem State.setEng_aud (s : State) (c e : Nat) (x : Engine) : (s.setEng c e x).aud = s.aud := by simp [State.setEng]
@[simp] theorem State.setEng_fab (s : State) (c e : Nat) (x : Engine) : (s.setEng c e x).fab = s.fab := by simp [State.setEng]
@[simp] theorem State.setEng_quill (s : State) (c e : Nat) (x : Engine) : (s.setEng c e x).quill = s.quill := by simp [State.setEng]
@[simp] theorem State.setEng_env (s : State) (c e : Nat) (x : Engine) : (s.setEng c e x).env = s.env := by simp [State.setEng]
@[simp] theorem State.setEng_boot (s : State) (c e : Nat) (x : Engine) : (s.setEng c e x).boot = s.boot := by simp [State.setEng]
@[simp] theorem State.setEng_ecat (s : State) (c e : Nat) (x : Engine) : (s.setEng c e x).ecat = s.ecat := by simp [State.setEng]
@[simp] theorem State.setEng_emcyMask (s : State) (c e : Nat) (x : Engine) : (s.setEng c e x).emcyMask = s.emcyMask := by simp [State.setEng]
@[simp] theorem State.setEng_pending (s : State) (c e : Nat) (x : Engine) : (s.setEng c e x).pending = s.pending := by simp [State.setEng]
/-! setSync -/
@[simp] theorem State.setSync_cfg (s : State) (c n v : Nat) : (s.setSync c n v).cfg = s.cfg := rfl
@[simp] theorem State.setSync_regs (s : State) (c n v : Nat) : (s.setSync c n v).regs = s.regs := rfl
@[simp] theorem State.setSync_hiLatch (s : State) (c n v : Nat) : (s.setSync c n v).hiLatch = s.hiLatch := rfl
@[simp] theorem State.setSync_loHeld (s : State) (c n v : Nat) : (s.setSync c n v).loHeld = s.loHeld := rfl
@[simp] theorem State.setSync_rdata (s : State) (c n v : Nat) : (s.setSync c n v).rdata = s.rdata := rfl
@[simp] theorem State.setSync_tt (s : State) (c n v : Nat) : (s.setSync c n v).tt = s.tt := rfl
@[simp] theorem State.setSync_ttFrac (s : State) (c n v : Nat) : (s.setSync c n v).ttFrac = s.ttFrac := rfl
@[simp] theorem State.setSync_free (s : State) (c n v : Nat) : (s.setSync c n v).free = s.free := rfl
@[simp] theorem State.setSync_mem (s : State) (c n v : Nat) : (s.setSync c n v).mem = s.mem := rfl
@[simp] theorem State.setSync_badWords (s : State) (c n v : Nat) : (s.setSync c n v).badWords = s.badWords := rfl
@[simp] theorem State.setSync_por (s : State) (c n v : Nat) : (s.setSync c n v).por = s.por := rfl
@[simp] theorem State.setSync_warm (s : State) (c n v : Nat) : (s.setSync c n v).warm = s.warm := rfl
@[simp] theorem State.setSync_powered (s : State) (c n v : Nat) : (s.setSync c n v).powered = s.powered := rfl
@[simp] theorem State.setSync_heldIsl (s : State) (c n v : Nat) : (s.setSync c n v).heldIsl = s.heldIsl := rfl
@[simp] theorem State.setSync_phaseDone (s : State) (c n v : Nat) : (s.setSync c n v).phaseDone = s.phaseDone := rfl
@[simp] theorem State.setSync_bypassHold (s : State) (c n v : Nat) : (s.setSync c n v).bypassHold = s.bypassHold := rfl
@[simp] theorem State.setSync_ecatHold (s : State) (c n v : Nat) : (s.setSync c n v).ecatHold = s.ecatHold := rfl
@[simp] theorem State.setSync_mgmtHalted (s : State) (c n v : Nat) : (s.setSync c n v).mgmtHalted = s.mgmtHalted := rfl
@[simp] theorem State.setSync_ev (s : State) (c n v : Nat) : (s.setSync c n v).ev = s.ev := rfl
@[simp] theorem State.setSync_jrn (s : State) (c n v : Nat) : (s.setSync c n v).jrn = s.jrn := rfl
@[simp] theorem State.setSync_host (s : State) (c n v : Nat) : (s.setSync c n v).host = s.host := rfl
@[simp] theorem State.setSync_tb (s : State) (c n v : Nat) : (s.setSync c n v).tb = s.tb := rfl
@[simp] theorem State.setSync_pu (s : State) (c n v : Nat) : (s.setSync c n v).pu = s.pu := rfl
@[simp] theorem State.setSync_au (s : State) (c n v : Nat) : (s.setSync c n v).au = s.au := rfl
@[simp] theorem State.setSync_pc (s : State) (c n v : Nat) : (s.setSync c n v).pc = s.pc := rfl
@[simp] theorem State.setSync_pipes (s : State) (c n v : Nat) : (s.setSync c n v).pipes = s.pipes := rfl
@[simp] theorem State.setSync_decs (s : State) (c n v : Nat) : (s.setSync c n v).decs = s.decs := rfl
@[simp] theorem State.setSync_tune (s : State) (c n v : Nat) : (s.setSync c n v).tune = s.tune := rfl
@[simp] theorem State.setSync_signals (s : State) (c n v : Nat) : (s.setSync c n v).signals = s.signals := rfl
@[simp] theorem State.setSync_remote (s : State) (c n v : Nat) : (s.setSync c n v).remote = s.remote := rfl
@[simp] theorem State.setSync_ds (s : State) (c n v : Nat) : (s.setSync c n v).ds = s.ds := rfl
@[simp] theorem State.setSync_rcp (s : State) (c n v : Nat) : (s.setSync c n v).rcp = s.rcp := rfl
@[simp] theorem State.setSync_cu (s : State) (c n v : Nat) : (s.setSync c n v).cu = s.cu := rfl
@[simp] theorem State.setSync_aud (s : State) (c n v : Nat) : (s.setSync c n v).aud = s.aud := rfl
@[simp] theorem State.setSync_fab (s : State) (c n v : Nat) : (s.setSync c n v).fab = s.fab := rfl
@[simp] theorem State.setSync_quill (s : State) (c n v : Nat) : (s.setSync c n v).quill = s.quill := rfl
@[simp] theorem State.setSync_env (s : State) (c n v : Nat) : (s.setSync c n v).env = s.env := rfl
@[simp] theorem State.setSync_boot (s : State) (c n v : Nat) : (s.setSync c n v).boot = s.boot := rfl
@[simp] theorem State.setSync_ecat (s : State) (c n v : Nat) : (s.setSync c n v).ecat = s.ecat := rfl
@[simp] theorem State.setSync_emcyMask (s : State) (c n v : Nat) : (s.setSync c n v).emcyMask = s.emcyMask := rfl
@[simp] theorem State.setSync_pending (s : State) (c n v : Nat) : (s.setSync c n v).pending = s.pending := rfl
/-! setAud -/
@[simp] theorem State.setAud_cfg (s : State) (k : Nat) (x : AudCtx) : (s.setAud k x).cfg = s.cfg := rfl
@[simp] theorem State.setAud_regs (s : State) (k : Nat) (x : AudCtx) : (s.setAud k x).regs = s.regs := rfl
@[simp] theorem State.setAud_hiLatch (s : State) (k : Nat) (x : AudCtx) : (s.setAud k x).hiLatch = s.hiLatch := rfl
@[simp] theorem State.setAud_loHeld (s : State) (k : Nat) (x : AudCtx) : (s.setAud k x).loHeld = s.loHeld := rfl
@[simp] theorem State.setAud_rdata (s : State) (k : Nat) (x : AudCtx) : (s.setAud k x).rdata = s.rdata := rfl
@[simp] theorem State.setAud_tt (s : State) (k : Nat) (x : AudCtx) : (s.setAud k x).tt = s.tt := rfl
@[simp] theorem State.setAud_ttFrac (s : State) (k : Nat) (x : AudCtx) : (s.setAud k x).ttFrac = s.ttFrac := rfl
@[simp] theorem State.setAud_free (s : State) (k : Nat) (x : AudCtx) : (s.setAud k x).free = s.free := rfl
@[simp] theorem State.setAud_mem (s : State) (k : Nat) (x : AudCtx) : (s.setAud k x).mem = s.mem := rfl
@[simp] theorem State.setAud_badWords (s : State) (k : Nat) (x : AudCtx) : (s.setAud k x).badWords = s.badWords := rfl
@[simp] theorem State.setAud_por (s : State) (k : Nat) (x : AudCtx) : (s.setAud k x).por = s.por := rfl
@[simp] theorem State.setAud_warm (s : State) (k : Nat) (x : AudCtx) : (s.setAud k x).warm = s.warm := rfl
@[simp] theorem State.setAud_powered (s : State) (k : Nat) (x : AudCtx) : (s.setAud k x).powered = s.powered := rfl
@[simp] theorem State.setAud_heldIsl (s : State) (k : Nat) (x : AudCtx) : (s.setAud k x).heldIsl = s.heldIsl := rfl
@[simp] theorem State.setAud_phaseDone (s : State) (k : Nat) (x : AudCtx) : (s.setAud k x).phaseDone = s.phaseDone := rfl
@[simp] theorem State.setAud_bypassHold (s : State) (k : Nat) (x : AudCtx) : (s.setAud k x).bypassHold = s.bypassHold := rfl
@[simp] theorem State.setAud_ecatHold (s : State) (k : Nat) (x : AudCtx) : (s.setAud k x).ecatHold = s.ecatHold := rfl
@[simp] theorem State.setAud_mgmtHalted (s : State) (k : Nat) (x : AudCtx) : (s.setAud k x).mgmtHalted = s.mgmtHalted := rfl
@[simp] theorem State.setAud_ev (s : State) (k : Nat) (x : AudCtx) : (s.setAud k x).ev = s.ev := rfl
@[simp] theorem State.setAud_jrn (s : State) (k : Nat) (x : AudCtx) : (s.setAud k x).jrn = s.jrn := rfl
@[simp] theorem State.setAud_host (s : State) (k : Nat) (x : AudCtx) : (s.setAud k x).host = s.host := rfl
@[simp] theorem State.setAud_tb (s : State) (k : Nat) (x : AudCtx) : (s.setAud k x).tb = s.tb := rfl
@[simp] theorem State.setAud_pu (s : State) (k : Nat) (x : AudCtx) : (s.setAud k x).pu = s.pu := rfl
@[simp] theorem State.setAud_au (s : State) (k : Nat) (x : AudCtx) : (s.setAud k x).au = s.au := rfl
@[simp] theorem State.setAud_pc (s : State) (k : Nat) (x : AudCtx) : (s.setAud k x).pc = s.pc := rfl
@[simp] theorem State.setAud_pipes (s : State) (k : Nat) (x : AudCtx) : (s.setAud k x).pipes = s.pipes := rfl
@[simp] theorem State.setAud_decs (s : State) (k : Nat) (x : AudCtx) : (s.setAud k x).decs = s.decs := rfl
@[simp] theorem State.setAud_tune (s : State) (k : Nat) (x : AudCtx) : (s.setAud k x).tune = s.tune := rfl
@[simp] theorem State.setAud_cores (s : State) (k : Nat) (x : AudCtx) : (s.setAud k x).cores = s.cores := rfl
@[simp] theorem State.setAud_signals (s : State) (k : Nat) (x : AudCtx) : (s.setAud k x).signals = s.signals := rfl
@[simp] theorem State.setAud_remote (s : State) (k : Nat) (x : AudCtx) : (s.setAud k x).remote = s.remote := rfl
@[simp] theorem State.setAud_ds (s : State) (k : Nat) (x : AudCtx) : (s.setAud k x).ds = s.ds := rfl
@[simp] theorem State.setAud_rcp (s : State) (k : Nat) (x : AudCtx) : (s.setAud k x).rcp = s.rcp := rfl
@[simp] theorem State.setAud_cu (s : State) (k : Nat) (x : AudCtx) : (s.setAud k x).cu = s.cu := rfl
@[simp] theorem State.setAud_fab (s : State) (k : Nat) (x : AudCtx) : (s.setAud k x).fab = s.fab := rfl
@[simp] theorem State.setAud_quill (s : State) (k : Nat) (x : AudCtx) : (s.setAud k x).quill = s.quill := rfl
@[simp] theorem State.setAud_env (s : State) (k : Nat) (x : AudCtx) : (s.setAud k x).env = s.env := rfl
@[simp] theorem State.setAud_boot (s : State) (k : Nat) (x : AudCtx) : (s.setAud k x).boot = s.boot := rfl
@[simp] theorem State.setAud_ecat (s : State) (k : Nat) (x : AudCtx) : (s.setAud k x).ecat = s.ecat := rfl
@[simp] theorem State.setAud_emcyMask (s : State) (k : Nat) (x : AudCtx) : (s.setAud k x).emcyMask = s.emcyMask := rfl
@[simp] theorem State.setAud_pending (s : State) (k : Nat) (x : AudCtx) : (s.setAud k x).pending = s.pending := rfl
/-! setRef -/
@[simp] theorem State.setRef_cfg (s : State) (n : Nat) (x : RefSt) : (s.setRef n x).cfg = s.cfg := rfl
@[simp] theorem State.setRef_regs (s : State) (n : Nat) (x : RefSt) : (s.setRef n x).regs = s.regs := rfl
@[simp] theorem State.setRef_hiLatch (s : State) (n : Nat) (x : RefSt) : (s.setRef n x).hiLatch = s.hiLatch := rfl
@[simp] theorem State.setRef_loHeld (s : State) (n : Nat) (x : RefSt) : (s.setRef n x).loHeld = s.loHeld := rfl
@[simp] theorem State.setRef_rdata (s : State) (n : Nat) (x : RefSt) : (s.setRef n x).rdata = s.rdata := rfl
@[simp] theorem State.setRef_tt (s : State) (n : Nat) (x : RefSt) : (s.setRef n x).tt = s.tt := rfl
@[simp] theorem State.setRef_ttFrac (s : State) (n : Nat) (x : RefSt) : (s.setRef n x).ttFrac = s.ttFrac := rfl
@[simp] theorem State.setRef_free (s : State) (n : Nat) (x : RefSt) : (s.setRef n x).free = s.free := rfl
@[simp] theorem State.setRef_mem (s : State) (n : Nat) (x : RefSt) : (s.setRef n x).mem = s.mem := rfl
@[simp] theorem State.setRef_badWords (s : State) (n : Nat) (x : RefSt) : (s.setRef n x).badWords = s.badWords := rfl
@[simp] theorem State.setRef_por (s : State) (n : Nat) (x : RefSt) : (s.setRef n x).por = s.por := rfl
@[simp] theorem State.setRef_warm (s : State) (n : Nat) (x : RefSt) : (s.setRef n x).warm = s.warm := rfl
@[simp] theorem State.setRef_powered (s : State) (n : Nat) (x : RefSt) : (s.setRef n x).powered = s.powered := rfl
@[simp] theorem State.setRef_heldIsl (s : State) (n : Nat) (x : RefSt) : (s.setRef n x).heldIsl = s.heldIsl := rfl
@[simp] theorem State.setRef_phaseDone (s : State) (n : Nat) (x : RefSt) : (s.setRef n x).phaseDone = s.phaseDone := rfl
@[simp] theorem State.setRef_bypassHold (s : State) (n : Nat) (x : RefSt) : (s.setRef n x).bypassHold = s.bypassHold := rfl
@[simp] theorem State.setRef_ecatHold (s : State) (n : Nat) (x : RefSt) : (s.setRef n x).ecatHold = s.ecatHold := rfl
@[simp] theorem State.setRef_mgmtHalted (s : State) (n : Nat) (x : RefSt) : (s.setRef n x).mgmtHalted = s.mgmtHalted := rfl
@[simp] theorem State.setRef_ev (s : State) (n : Nat) (x : RefSt) : (s.setRef n x).ev = s.ev := rfl
@[simp] theorem State.setRef_jrn (s : State) (n : Nat) (x : RefSt) : (s.setRef n x).jrn = s.jrn := rfl
@[simp] theorem State.setRef_host (s : State) (n : Nat) (x : RefSt) : (s.setRef n x).host = s.host := rfl
@[simp] theorem State.setRef_pu (s : State) (n : Nat) (x : RefSt) : (s.setRef n x).pu = s.pu := rfl
@[simp] theorem State.setRef_au (s : State) (n : Nat) (x : RefSt) : (s.setRef n x).au = s.au := rfl
@[simp] theorem State.setRef_pc (s : State) (n : Nat) (x : RefSt) : (s.setRef n x).pc = s.pc := rfl
@[simp] theorem State.setRef_pipes (s : State) (n : Nat) (x : RefSt) : (s.setRef n x).pipes = s.pipes := rfl
@[simp] theorem State.setRef_decs (s : State) (n : Nat) (x : RefSt) : (s.setRef n x).decs = s.decs := rfl
@[simp] theorem State.setRef_tune (s : State) (n : Nat) (x : RefSt) : (s.setRef n x).tune = s.tune := rfl
@[simp] theorem State.setRef_cores (s : State) (n : Nat) (x : RefSt) : (s.setRef n x).cores = s.cores := rfl
@[simp] theorem State.setRef_signals (s : State) (n : Nat) (x : RefSt) : (s.setRef n x).signals = s.signals := rfl
@[simp] theorem State.setRef_remote (s : State) (n : Nat) (x : RefSt) : (s.setRef n x).remote = s.remote := rfl
@[simp] theorem State.setRef_ds (s : State) (n : Nat) (x : RefSt) : (s.setRef n x).ds = s.ds := rfl
@[simp] theorem State.setRef_rcp (s : State) (n : Nat) (x : RefSt) : (s.setRef n x).rcp = s.rcp := rfl
@[simp] theorem State.setRef_cu (s : State) (n : Nat) (x : RefSt) : (s.setRef n x).cu = s.cu := rfl
@[simp] theorem State.setRef_aud (s : State) (n : Nat) (x : RefSt) : (s.setRef n x).aud = s.aud := rfl
@[simp] theorem State.setRef_fab (s : State) (n : Nat) (x : RefSt) : (s.setRef n x).fab = s.fab := rfl
@[simp] theorem State.setRef_quill (s : State) (n : Nat) (x : RefSt) : (s.setRef n x).quill = s.quill := rfl
@[simp] theorem State.setRef_env (s : State) (n : Nat) (x : RefSt) : (s.setRef n x).env = s.env := rfl
@[simp] theorem State.setRef_boot (s : State) (n : Nat) (x : RefSt) : (s.setRef n x).boot = s.boot := rfl
@[simp] theorem State.setRef_ecat (s : State) (n : Nat) (x : RefSt) : (s.setRef n x).ecat = s.ecat := rfl
@[simp] theorem State.setRef_emcyMask (s : State) (n : Nat) (x : RefSt) : (s.setRef n x).emcyMask = s.emcyMask := rfl
@[simp] theorem State.setRef_pending (s : State) (n : Nat) (x : RefSt) : (s.setRef n x).pending = s.pending := rfl
/-! setTxns -/
@[simp] theorem State.setTxns_cfg (s : State) (l : List FabTxn) : (s.setTxns l).cfg = s.cfg := rfl
@[simp] theorem State.setTxns_regs (s : State) (l : List FabTxn) : (s.setTxns l).regs = s.regs := rfl
@[simp] theorem State.setTxns_hiLatch (s : State) (l : List FabTxn) : (s.setTxns l).hiLatch = s.hiLatch := rfl
@[simp] theorem State.setTxns_loHeld (s : State) (l : List FabTxn) : (s.setTxns l).loHeld = s.loHeld := rfl
@[simp] theorem State.setTxns_rdata (s : State) (l : List FabTxn) : (s.setTxns l).rdata = s.rdata := rfl
@[simp] theorem State.setTxns_tt (s : State) (l : List FabTxn) : (s.setTxns l).tt = s.tt := rfl
@[simp] theorem State.setTxns_ttFrac (s : State) (l : List FabTxn) : (s.setTxns l).ttFrac = s.ttFrac := rfl
@[simp] theorem State.setTxns_free (s : State) (l : List FabTxn) : (s.setTxns l).free = s.free := rfl
@[simp] theorem State.setTxns_mem (s : State) (l : List FabTxn) : (s.setTxns l).mem = s.mem := rfl
@[simp] theorem State.setTxns_badWords (s : State) (l : List FabTxn) : (s.setTxns l).badWords = s.badWords := rfl
@[simp] theorem State.setTxns_por (s : State) (l : List FabTxn) : (s.setTxns l).por = s.por := rfl
@[simp] theorem State.setTxns_warm (s : State) (l : List FabTxn) : (s.setTxns l).warm = s.warm := rfl
@[simp] theorem State.setTxns_powered (s : State) (l : List FabTxn) : (s.setTxns l).powered = s.powered := rfl
@[simp] theorem State.setTxns_heldIsl (s : State) (l : List FabTxn) : (s.setTxns l).heldIsl = s.heldIsl := rfl
@[simp] theorem State.setTxns_phaseDone (s : State) (l : List FabTxn) : (s.setTxns l).phaseDone = s.phaseDone := rfl
@[simp] theorem State.setTxns_bypassHold (s : State) (l : List FabTxn) : (s.setTxns l).bypassHold = s.bypassHold := rfl
@[simp] theorem State.setTxns_ecatHold (s : State) (l : List FabTxn) : (s.setTxns l).ecatHold = s.ecatHold := rfl
@[simp] theorem State.setTxns_mgmtHalted (s : State) (l : List FabTxn) : (s.setTxns l).mgmtHalted = s.mgmtHalted := rfl
@[simp] theorem State.setTxns_ev (s : State) (l : List FabTxn) : (s.setTxns l).ev = s.ev := rfl
@[simp] theorem State.setTxns_jrn (s : State) (l : List FabTxn) : (s.setTxns l).jrn = s.jrn := rfl
@[simp] theorem State.setTxns_host (s : State) (l : List FabTxn) : (s.setTxns l).host = s.host := rfl
@[simp] theorem State.setTxns_tb (s : State) (l : List FabTxn) : (s.setTxns l).tb = s.tb := rfl
@[simp] theorem State.setTxns_pu (s : State) (l : List FabTxn) : (s.setTxns l).pu = s.pu := rfl
@[simp] theorem State.setTxns_au (s : State) (l : List FabTxn) : (s.setTxns l).au = s.au := rfl
@[simp] theorem State.setTxns_pc (s : State) (l : List FabTxn) : (s.setTxns l).pc = s.pc := rfl
@[simp] theorem State.setTxns_pipes (s : State) (l : List FabTxn) : (s.setTxns l).pipes = s.pipes := rfl
@[simp] theorem State.setTxns_decs (s : State) (l : List FabTxn) : (s.setTxns l).decs = s.decs := rfl
@[simp] theorem State.setTxns_tune (s : State) (l : List FabTxn) : (s.setTxns l).tune = s.tune := rfl
@[simp] theorem State.setTxns_cores (s : State) (l : List FabTxn) : (s.setTxns l).cores = s.cores := rfl
@[simp] theorem State.setTxns_signals (s : State) (l : List FabTxn) : (s.setTxns l).signals = s.signals := rfl
@[simp] theorem State.setTxns_remote (s : State) (l : List FabTxn) : (s.setTxns l).remote = s.remote := rfl
@[simp] theorem State.setTxns_ds (s : State) (l : List FabTxn) : (s.setTxns l).ds = s.ds := rfl
@[simp] theorem State.setTxns_rcp (s : State) (l : List FabTxn) : (s.setTxns l).rcp = s.rcp := rfl
@[simp] theorem State.setTxns_cu (s : State) (l : List FabTxn) : (s.setTxns l).cu = s.cu := rfl
@[simp] theorem State.setTxns_aud (s : State) (l : List FabTxn) : (s.setTxns l).aud = s.aud := rfl
@[simp] theorem State.setTxns_quill (s : State) (l : List FabTxn) : (s.setTxns l).quill = s.quill := rfl
@[simp] theorem State.setTxns_env (s : State) (l : List FabTxn) : (s.setTxns l).env = s.env := rfl
@[simp] theorem State.setTxns_boot (s : State) (l : List FabTxn) : (s.setTxns l).boot = s.boot := rfl
@[simp] theorem State.setTxns_ecat (s : State) (l : List FabTxn) : (s.setTxns l).ecat = s.ecat := rfl
@[simp] theorem State.setTxns_emcyMask (s : State) (l : List FabTxn) : (s.setTxns l).emcyMask = s.emcyMask := rfl
@[simp] theorem State.setTxns_pending (s : State) (l : List FabTxn) : (s.setTxns l).pending = s.pending := rfl
/-! setRslot -/
@[simp] theorem State.setRslot_cfg (s : State) (k : Nat) (x : RcpSlot) : (s.setRslot k x).cfg = s.cfg := rfl
@[simp] theorem State.setRslot_regs (s : State) (k : Nat) (x : RcpSlot) : (s.setRslot k x).regs = s.regs := rfl
@[simp] theorem State.setRslot_hiLatch (s : State) (k : Nat) (x : RcpSlot) : (s.setRslot k x).hiLatch = s.hiLatch := rfl
@[simp] theorem State.setRslot_loHeld (s : State) (k : Nat) (x : RcpSlot) : (s.setRslot k x).loHeld = s.loHeld := rfl
@[simp] theorem State.setRslot_rdata (s : State) (k : Nat) (x : RcpSlot) : (s.setRslot k x).rdata = s.rdata := rfl
@[simp] theorem State.setRslot_tt (s : State) (k : Nat) (x : RcpSlot) : (s.setRslot k x).tt = s.tt := rfl
@[simp] theorem State.setRslot_ttFrac (s : State) (k : Nat) (x : RcpSlot) : (s.setRslot k x).ttFrac = s.ttFrac := rfl
@[simp] theorem State.setRslot_free (s : State) (k : Nat) (x : RcpSlot) : (s.setRslot k x).free = s.free := rfl
@[simp] theorem State.setRslot_mem (s : State) (k : Nat) (x : RcpSlot) : (s.setRslot k x).mem = s.mem := rfl
@[simp] theorem State.setRslot_badWords (s : State) (k : Nat) (x : RcpSlot) : (s.setRslot k x).badWords = s.badWords := rfl
@[simp] theorem State.setRslot_por (s : State) (k : Nat) (x : RcpSlot) : (s.setRslot k x).por = s.por := rfl
@[simp] theorem State.setRslot_warm (s : State) (k : Nat) (x : RcpSlot) : (s.setRslot k x).warm = s.warm := rfl
@[simp] theorem State.setRslot_powered (s : State) (k : Nat) (x : RcpSlot) : (s.setRslot k x).powered = s.powered := rfl
@[simp] theorem State.setRslot_heldIsl (s : State) (k : Nat) (x : RcpSlot) : (s.setRslot k x).heldIsl = s.heldIsl := rfl
@[simp] theorem State.setRslot_phaseDone (s : State) (k : Nat) (x : RcpSlot) : (s.setRslot k x).phaseDone = s.phaseDone := rfl
@[simp] theorem State.setRslot_bypassHold (s : State) (k : Nat) (x : RcpSlot) : (s.setRslot k x).bypassHold = s.bypassHold := rfl
@[simp] theorem State.setRslot_ecatHold (s : State) (k : Nat) (x : RcpSlot) : (s.setRslot k x).ecatHold = s.ecatHold := rfl
@[simp] theorem State.setRslot_mgmtHalted (s : State) (k : Nat) (x : RcpSlot) : (s.setRslot k x).mgmtHalted = s.mgmtHalted := rfl
@[simp] theorem State.setRslot_ev (s : State) (k : Nat) (x : RcpSlot) : (s.setRslot k x).ev = s.ev := rfl
@[simp] theorem State.setRslot_jrn (s : State) (k : Nat) (x : RcpSlot) : (s.setRslot k x).jrn = s.jrn := rfl
@[simp] theorem State.setRslot_host (s : State) (k : Nat) (x : RcpSlot) : (s.setRslot k x).host = s.host := rfl
@[simp] theorem State.setRslot_tb (s : State) (k : Nat) (x : RcpSlot) : (s.setRslot k x).tb = s.tb := rfl
@[simp] theorem State.setRslot_pu (s : State) (k : Nat) (x : RcpSlot) : (s.setRslot k x).pu = s.pu := rfl
@[simp] theorem State.setRslot_au (s : State) (k : Nat) (x : RcpSlot) : (s.setRslot k x).au = s.au := rfl
@[simp] theorem State.setRslot_pc (s : State) (k : Nat) (x : RcpSlot) : (s.setRslot k x).pc = s.pc := rfl
@[simp] theorem State.setRslot_pipes (s : State) (k : Nat) (x : RcpSlot) : (s.setRslot k x).pipes = s.pipes := rfl
@[simp] theorem State.setRslot_decs (s : State) (k : Nat) (x : RcpSlot) : (s.setRslot k x).decs = s.decs := rfl
@[simp] theorem State.setRslot_tune (s : State) (k : Nat) (x : RcpSlot) : (s.setRslot k x).tune = s.tune := rfl
@[simp] theorem State.setRslot_cores (s : State) (k : Nat) (x : RcpSlot) : (s.setRslot k x).cores = s.cores := rfl
@[simp] theorem State.setRslot_signals (s : State) (k : Nat) (x : RcpSlot) : (s.setRslot k x).signals = s.signals := rfl
@[simp] theorem State.setRslot_remote (s : State) (k : Nat) (x : RcpSlot) : (s.setRslot k x).remote = s.remote := rfl
@[simp] theorem State.setRslot_ds (s : State) (k : Nat) (x : RcpSlot) : (s.setRslot k x).ds = s.ds := rfl
@[simp] theorem State.setRslot_cu (s : State) (k : Nat) (x : RcpSlot) : (s.setRslot k x).cu = s.cu := rfl
@[simp] theorem State.setRslot_aud (s : State) (k : Nat) (x : RcpSlot) : (s.setRslot k x).aud = s.aud := rfl
@[simp] theorem State.setRslot_fab (s : State) (k : Nat) (x : RcpSlot) : (s.setRslot k x).fab = s.fab := rfl
@[simp] theorem State.setRslot_quill (s : State) (k : Nat) (x : RcpSlot) : (s.setRslot k x).quill = s.quill := rfl
@[simp] theorem State.setRslot_env (s : State) (k : Nat) (x : RcpSlot) : (s.setRslot k x).env = s.env := rfl
@[simp] theorem State.setRslot_boot (s : State) (k : Nat) (x : RcpSlot) : (s.setRslot k x).boot = s.boot := rfl
@[simp] theorem State.setRslot_ecat (s : State) (k : Nat) (x : RcpSlot) : (s.setRslot k x).ecat = s.ecat := rfl
@[simp] theorem State.setRslot_emcyMask (s : State) (k : Nat) (x : RcpSlot) : (s.setRslot k x).emcyMask = s.emcyMask := rfl
@[simp] theorem State.setRslot_pending (s : State) (k : Nat) (x : RcpSlot) : (s.setRslot k x).pending = s.pending := rfl
/-! setQrx -/
@[simp] theorem State.setQrx_cfg (s : State) (p : Nat) (x : QRx) : (s.setQrx p x).cfg = s.cfg := rfl
@[simp] theorem State.setQrx_regs (s : State) (p : Nat) (x : QRx) : (s.setQrx p x).regs = s.regs := rfl
@[simp] theorem State.setQrx_hiLatch (s : State) (p : Nat) (x : QRx) : (s.setQrx p x).hiLatch = s.hiLatch := rfl
@[simp] theorem State.setQrx_loHeld (s : State) (p : Nat) (x : QRx) : (s.setQrx p x).loHeld = s.loHeld := rfl
@[simp] theorem State.setQrx_rdata (s : State) (p : Nat) (x : QRx) : (s.setQrx p x).rdata = s.rdata := rfl
@[simp] theorem State.setQrx_tt (s : State) (p : Nat) (x : QRx) : (s.setQrx p x).tt = s.tt := rfl
@[simp] theorem State.setQrx_ttFrac (s : State) (p : Nat) (x : QRx) : (s.setQrx p x).ttFrac = s.ttFrac := rfl
@[simp] theorem State.setQrx_free (s : State) (p : Nat) (x : QRx) : (s.setQrx p x).free = s.free := rfl
@[simp] theorem State.setQrx_mem (s : State) (p : Nat) (x : QRx) : (s.setQrx p x).mem = s.mem := rfl
@[simp] theorem State.setQrx_badWords (s : State) (p : Nat) (x : QRx) : (s.setQrx p x).badWords = s.badWords := rfl
@[simp] theorem State.setQrx_por (s : State) (p : Nat) (x : QRx) : (s.setQrx p x).por = s.por := rfl
@[simp] theorem State.setQrx_warm (s : State) (p : Nat) (x : QRx) : (s.setQrx p x).warm = s.warm := rfl
@[simp] theorem State.setQrx_powered (s : State) (p : Nat) (x : QRx) : (s.setQrx p x).powered = s.powered := rfl
@[simp] theorem State.setQrx_heldIsl (s : State) (p : Nat) (x : QRx) : (s.setQrx p x).heldIsl = s.heldIsl := rfl
@[simp] theorem State.setQrx_phaseDone (s : State) (p : Nat) (x : QRx) : (s.setQrx p x).phaseDone = s.phaseDone := rfl
@[simp] theorem State.setQrx_bypassHold (s : State) (p : Nat) (x : QRx) : (s.setQrx p x).bypassHold = s.bypassHold := rfl
@[simp] theorem State.setQrx_ecatHold (s : State) (p : Nat) (x : QRx) : (s.setQrx p x).ecatHold = s.ecatHold := rfl
@[simp] theorem State.setQrx_mgmtHalted (s : State) (p : Nat) (x : QRx) : (s.setQrx p x).mgmtHalted = s.mgmtHalted := rfl
@[simp] theorem State.setQrx_ev (s : State) (p : Nat) (x : QRx) : (s.setQrx p x).ev = s.ev := rfl
@[simp] theorem State.setQrx_jrn (s : State) (p : Nat) (x : QRx) : (s.setQrx p x).jrn = s.jrn := rfl
@[simp] theorem State.setQrx_host (s : State) (p : Nat) (x : QRx) : (s.setQrx p x).host = s.host := rfl
@[simp] theorem State.setQrx_tb (s : State) (p : Nat) (x : QRx) : (s.setQrx p x).tb = s.tb := rfl
@[simp] theorem State.setQrx_pu (s : State) (p : Nat) (x : QRx) : (s.setQrx p x).pu = s.pu := rfl
@[simp] theorem State.setQrx_au (s : State) (p : Nat) (x : QRx) : (s.setQrx p x).au = s.au := rfl
@[simp] theorem State.setQrx_pc (s : State) (p : Nat) (x : QRx) : (s.setQrx p x).pc = s.pc := rfl
@[simp] theorem State.setQrx_pipes (s : State) (p : Nat) (x : QRx) : (s.setQrx p x).pipes = s.pipes := rfl
@[simp] theorem State.setQrx_decs (s : State) (p : Nat) (x : QRx) : (s.setQrx p x).decs = s.decs := rfl
@[simp] theorem State.setQrx_tune (s : State) (p : Nat) (x : QRx) : (s.setQrx p x).tune = s.tune := rfl
@[simp] theorem State.setQrx_cores (s : State) (p : Nat) (x : QRx) : (s.setQrx p x).cores = s.cores := rfl
@[simp] theorem State.setQrx_signals (s : State) (p : Nat) (x : QRx) : (s.setQrx p x).signals = s.signals := rfl
@[simp] theorem State.setQrx_remote (s : State) (p : Nat) (x : QRx) : (s.setQrx p x).remote = s.remote := rfl
@[simp] theorem State.setQrx_ds (s : State) (p : Nat) (x : QRx) : (s.setQrx p x).ds = s.ds := rfl
@[simp] theorem State.setQrx_rcp (s : State) (p : Nat) (x : QRx) : (s.setQrx p x).rcp = s.rcp := rfl
@[simp] theorem State.setQrx_cu (s : State) (p : Nat) (x : QRx) : (s.setQrx p x).cu = s.cu := rfl
@[simp] theorem State.setQrx_aud (s : State) (p : Nat) (x : QRx) : (s.setQrx p x).aud = s.aud := rfl
@[simp] theorem State.setQrx_fab (s : State) (p : Nat) (x : QRx) : (s.setQrx p x).fab = s.fab := rfl
@[simp] theorem State.setQrx_env (s : State) (p : Nat) (x : QRx) : (s.setQrx p x).env = s.env := rfl
@[simp] theorem State.setQrx_boot (s : State) (p : Nat) (x : QRx) : (s.setQrx p x).boot = s.boot := rfl
@[simp] theorem State.setQrx_ecat (s : State) (p : Nat) (x : QRx) : (s.setQrx p x).ecat = s.ecat := rfl
@[simp] theorem State.setQrx_emcyMask (s : State) (p : Nat) (x : QRx) : (s.setQrx p x).emcyMask = s.emcyMask := rfl
@[simp] theorem State.setQrx_pending (s : State) (p : Nat) (x : QRx) : (s.setQrx p x).pending = s.pending := rfl
/-! setQtx -/
@[simp] theorem State.setQtx_cfg (s : State) (p : Nat) (x : QTx) : (s.setQtx p x).cfg = s.cfg := rfl
@[simp] theorem State.setQtx_regs (s : State) (p : Nat) (x : QTx) : (s.setQtx p x).regs = s.regs := rfl
@[simp] theorem State.setQtx_hiLatch (s : State) (p : Nat) (x : QTx) : (s.setQtx p x).hiLatch = s.hiLatch := rfl
@[simp] theorem State.setQtx_loHeld (s : State) (p : Nat) (x : QTx) : (s.setQtx p x).loHeld = s.loHeld := rfl
@[simp] theorem State.setQtx_rdata (s : State) (p : Nat) (x : QTx) : (s.setQtx p x).rdata = s.rdata := rfl
@[simp] theorem State.setQtx_tt (s : State) (p : Nat) (x : QTx) : (s.setQtx p x).tt = s.tt := rfl
@[simp] theorem State.setQtx_ttFrac (s : State) (p : Nat) (x : QTx) : (s.setQtx p x).ttFrac = s.ttFrac := rfl
@[simp] theorem State.setQtx_free (s : State) (p : Nat) (x : QTx) : (s.setQtx p x).free = s.free := rfl
@[simp] theorem State.setQtx_mem (s : State) (p : Nat) (x : QTx) : (s.setQtx p x).mem = s.mem := rfl
@[simp] theorem State.setQtx_badWords (s : State) (p : Nat) (x : QTx) : (s.setQtx p x).badWords = s.badWords := rfl
@[simp] theorem State.setQtx_por (s : State) (p : Nat) (x : QTx) : (s.setQtx p x).por = s.por := rfl
@[simp] theorem State.setQtx_warm (s : State) (p : Nat) (x : QTx) : (s.setQtx p x).warm = s.warm := rfl
@[simp] theorem State.setQtx_powered (s : State) (p : Nat) (x : QTx) : (s.setQtx p x).powered = s.powered := rfl
@[simp] theorem State.setQtx_heldIsl (s : State) (p : Nat) (x : QTx) : (s.setQtx p x).heldIsl = s.heldIsl := rfl
@[simp] theorem State.setQtx_phaseDone (s : State) (p : Nat) (x : QTx) : (s.setQtx p x).phaseDone = s.phaseDone := rfl
@[simp] theorem State.setQtx_bypassHold (s : State) (p : Nat) (x : QTx) : (s.setQtx p x).bypassHold = s.bypassHold := rfl
@[simp] theorem State.setQtx_ecatHold (s : State) (p : Nat) (x : QTx) : (s.setQtx p x).ecatHold = s.ecatHold := rfl
@[simp] theorem State.setQtx_mgmtHalted (s : State) (p : Nat) (x : QTx) : (s.setQtx p x).mgmtHalted = s.mgmtHalted := rfl
@[simp] theorem State.setQtx_ev (s : State) (p : Nat) (x : QTx) : (s.setQtx p x).ev = s.ev := rfl
@[simp] theorem State.setQtx_jrn (s : State) (p : Nat) (x : QTx) : (s.setQtx p x).jrn = s.jrn := rfl
@[simp] theorem State.setQtx_host (s : State) (p : Nat) (x : QTx) : (s.setQtx p x).host = s.host := rfl
@[simp] theorem State.setQtx_tb (s : State) (p : Nat) (x : QTx) : (s.setQtx p x).tb = s.tb := rfl
@[simp] theorem State.setQtx_pu (s : State) (p : Nat) (x : QTx) : (s.setQtx p x).pu = s.pu := rfl
@[simp] theorem State.setQtx_au (s : State) (p : Nat) (x : QTx) : (s.setQtx p x).au = s.au := rfl
@[simp] theorem State.setQtx_pc (s : State) (p : Nat) (x : QTx) : (s.setQtx p x).pc = s.pc := rfl
@[simp] theorem State.setQtx_pipes (s : State) (p : Nat) (x : QTx) : (s.setQtx p x).pipes = s.pipes := rfl
@[simp] theorem State.setQtx_decs (s : State) (p : Nat) (x : QTx) : (s.setQtx p x).decs = s.decs := rfl
@[simp] theorem State.setQtx_tune (s : State) (p : Nat) (x : QTx) : (s.setQtx p x).tune = s.tune := rfl
@[simp] theorem State.setQtx_cores (s : State) (p : Nat) (x : QTx) : (s.setQtx p x).cores = s.cores := rfl
@[simp] theorem State.setQtx_signals (s : State) (p : Nat) (x : QTx) : (s.setQtx p x).signals = s.signals := rfl
@[simp] theorem State.setQtx_remote (s : State) (p : Nat) (x : QTx) : (s.setQtx p x).remote = s.remote := rfl
@[simp] theorem State.setQtx_ds (s : State) (p : Nat) (x : QTx) : (s.setQtx p x).ds = s.ds := rfl
@[simp] theorem State.setQtx_rcp (s : State) (p : Nat) (x : QTx) : (s.setQtx p x).rcp = s.rcp := rfl
@[simp] theorem State.setQtx_cu (s : State) (p : Nat) (x : QTx) : (s.setQtx p x).cu = s.cu := rfl
@[simp] theorem State.setQtx_aud (s : State) (p : Nat) (x : QTx) : (s.setQtx p x).aud = s.aud := rfl
@[simp] theorem State.setQtx_fab (s : State) (p : Nat) (x : QTx) : (s.setQtx p x).fab = s.fab := rfl
@[simp] theorem State.setQtx_env (s : State) (p : Nat) (x : QTx) : (s.setQtx p x).env = s.env := rfl
@[simp] theorem State.setQtx_boot (s : State) (p : Nat) (x : QTx) : (s.setQtx p x).boot = s.boot := rfl
@[simp] theorem State.setQtx_ecat (s : State) (p : Nat) (x : QTx) : (s.setQtx p x).ecat = s.ecat := rfl
@[simp] theorem State.setQtx_emcyMask (s : State) (p : Nat) (x : QTx) : (s.setQtx p x).emcyMask = s.emcyMask := rfl
@[simp] theorem State.setQtx_pending (s : State) (p : Nat) (x : QTx) : (s.setQtx p x).pending = s.pending := rfl
/-! setQg -/
@[simp] theorem State.setQg_cfg (s : State) (i : Nat) (x : QGroup) : (s.setQg i x).cfg = s.cfg := rfl
@[simp] theorem State.setQg_regs (s : State) (i : Nat) (x : QGroup) : (s.setQg i x).regs = s.regs := rfl
@[simp] theorem State.setQg_hiLatch (s : State) (i : Nat) (x : QGroup) : (s.setQg i x).hiLatch = s.hiLatch := rfl
@[simp] theorem State.setQg_loHeld (s : State) (i : Nat) (x : QGroup) : (s.setQg i x).loHeld = s.loHeld := rfl
@[simp] theorem State.setQg_rdata (s : State) (i : Nat) (x : QGroup) : (s.setQg i x).rdata = s.rdata := rfl
@[simp] theorem State.setQg_tt (s : State) (i : Nat) (x : QGroup) : (s.setQg i x).tt = s.tt := rfl
@[simp] theorem State.setQg_ttFrac (s : State) (i : Nat) (x : QGroup) : (s.setQg i x).ttFrac = s.ttFrac := rfl
@[simp] theorem State.setQg_free (s : State) (i : Nat) (x : QGroup) : (s.setQg i x).free = s.free := rfl
@[simp] theorem State.setQg_mem (s : State) (i : Nat) (x : QGroup) : (s.setQg i x).mem = s.mem := rfl
@[simp] theorem State.setQg_badWords (s : State) (i : Nat) (x : QGroup) : (s.setQg i x).badWords = s.badWords := rfl
@[simp] theorem State.setQg_por (s : State) (i : Nat) (x : QGroup) : (s.setQg i x).por = s.por := rfl
@[simp] theorem State.setQg_warm (s : State) (i : Nat) (x : QGroup) : (s.setQg i x).warm = s.warm := rfl
@[simp] theorem State.setQg_powered (s : State) (i : Nat) (x : QGroup) : (s.setQg i x).powered = s.powered := rfl
@[simp] theorem State.setQg_heldIsl (s : State) (i : Nat) (x : QGroup) : (s.setQg i x).heldIsl = s.heldIsl := rfl
@[simp] theorem State.setQg_phaseDone (s : State) (i : Nat) (x : QGroup) : (s.setQg i x).phaseDone = s.phaseDone := rfl
@[simp] theorem State.setQg_bypassHold (s : State) (i : Nat) (x : QGroup) : (s.setQg i x).bypassHold = s.bypassHold := rfl
@[simp] theorem State.setQg_ecatHold (s : State) (i : Nat) (x : QGroup) : (s.setQg i x).ecatHold = s.ecatHold := rfl
@[simp] theorem State.setQg_mgmtHalted (s : State) (i : Nat) (x : QGroup) : (s.setQg i x).mgmtHalted = s.mgmtHalted := rfl
@[simp] theorem State.setQg_ev (s : State) (i : Nat) (x : QGroup) : (s.setQg i x).ev = s.ev := rfl
@[simp] theorem State.setQg_jrn (s : State) (i : Nat) (x : QGroup) : (s.setQg i x).jrn = s.jrn := rfl
@[simp] theorem State.setQg_host (s : State) (i : Nat) (x : QGroup) : (s.setQg i x).host = s.host := rfl
@[simp] theorem State.setQg_tb (s : State) (i : Nat) (x : QGroup) : (s.setQg i x).tb = s.tb := rfl
@[simp] theorem State.setQg_pu (s : State) (i : Nat) (x : QGroup) : (s.setQg i x).pu = s.pu := rfl
@[simp] theorem State.setQg_au (s : State) (i : Nat) (x : QGroup) : (s.setQg i x).au = s.au := rfl
@[simp] theorem State.setQg_pc (s : State) (i : Nat) (x : QGroup) : (s.setQg i x).pc = s.pc := rfl
@[simp] theorem State.setQg_pipes (s : State) (i : Nat) (x : QGroup) : (s.setQg i x).pipes = s.pipes := rfl
@[simp] theorem State.setQg_decs (s : State) (i : Nat) (x : QGroup) : (s.setQg i x).decs = s.decs := rfl
@[simp] theorem State.setQg_tune (s : State) (i : Nat) (x : QGroup) : (s.setQg i x).tune = s.tune := rfl
@[simp] theorem State.setQg_cores (s : State) (i : Nat) (x : QGroup) : (s.setQg i x).cores = s.cores := rfl
@[simp] theorem State.setQg_signals (s : State) (i : Nat) (x : QGroup) : (s.setQg i x).signals = s.signals := rfl
@[simp] theorem State.setQg_remote (s : State) (i : Nat) (x : QGroup) : (s.setQg i x).remote = s.remote := rfl
@[simp] theorem State.setQg_ds (s : State) (i : Nat) (x : QGroup) : (s.setQg i x).ds = s.ds := rfl
@[simp] theorem State.setQg_rcp (s : State) (i : Nat) (x : QGroup) : (s.setQg i x).rcp = s.rcp := rfl
@[simp] theorem State.setQg_cu (s : State) (i : Nat) (x : QGroup) : (s.setQg i x).cu = s.cu := rfl
@[simp] theorem State.setQg_aud (s : State) (i : Nat) (x : QGroup) : (s.setQg i x).aud = s.aud := rfl
@[simp] theorem State.setQg_fab (s : State) (i : Nat) (x : QGroup) : (s.setQg i x).fab = s.fab := rfl
@[simp] theorem State.setQg_env (s : State) (i : Nat) (x : QGroup) : (s.setQg i x).env = s.env := rfl
@[simp] theorem State.setQg_boot (s : State) (i : Nat) (x : QGroup) : (s.setQg i x).boot = s.boot := rfl
@[simp] theorem State.setQg_ecat (s : State) (i : Nat) (x : QGroup) : (s.setQg i x).ecat = s.ecat := rfl
@[simp] theorem State.setQg_emcyMask (s : State) (i : Nat) (x : QGroup) : (s.setQg i x).emcyMask = s.emcyMask := rfl
@[simp] theorem State.setQg_pending (s : State) (i : Nat) (x : QGroup) : (s.setQg i x).pending = s.pending := rfl
/-! setEc -/
@[simp] theorem State.setEc_cfg (s : State) (c : Nat) (x : EnvCore) : (s.setEc c x).cfg = s.cfg := rfl
@[simp] theorem State.setEc_regs (s : State) (c : Nat) (x : EnvCore) : (s.setEc c x).regs = s.regs := rfl
@[simp] theorem State.setEc_hiLatch (s : State) (c : Nat) (x : EnvCore) : (s.setEc c x).hiLatch = s.hiLatch := rfl
@[simp] theorem State.setEc_loHeld (s : State) (c : Nat) (x : EnvCore) : (s.setEc c x).loHeld = s.loHeld := rfl
@[simp] theorem State.setEc_rdata (s : State) (c : Nat) (x : EnvCore) : (s.setEc c x).rdata = s.rdata := rfl
@[simp] theorem State.setEc_tt (s : State) (c : Nat) (x : EnvCore) : (s.setEc c x).tt = s.tt := rfl
@[simp] theorem State.setEc_ttFrac (s : State) (c : Nat) (x : EnvCore) : (s.setEc c x).ttFrac = s.ttFrac := rfl
@[simp] theorem State.setEc_free (s : State) (c : Nat) (x : EnvCore) : (s.setEc c x).free = s.free := rfl
@[simp] theorem State.setEc_mem (s : State) (c : Nat) (x : EnvCore) : (s.setEc c x).mem = s.mem := rfl
@[simp] theorem State.setEc_badWords (s : State) (c : Nat) (x : EnvCore) : (s.setEc c x).badWords = s.badWords := rfl
@[simp] theorem State.setEc_por (s : State) (c : Nat) (x : EnvCore) : (s.setEc c x).por = s.por := rfl
@[simp] theorem State.setEc_warm (s : State) (c : Nat) (x : EnvCore) : (s.setEc c x).warm = s.warm := rfl
@[simp] theorem State.setEc_powered (s : State) (c : Nat) (x : EnvCore) : (s.setEc c x).powered = s.powered := rfl
@[simp] theorem State.setEc_heldIsl (s : State) (c : Nat) (x : EnvCore) : (s.setEc c x).heldIsl = s.heldIsl := rfl
@[simp] theorem State.setEc_phaseDone (s : State) (c : Nat) (x : EnvCore) : (s.setEc c x).phaseDone = s.phaseDone := rfl
@[simp] theorem State.setEc_bypassHold (s : State) (c : Nat) (x : EnvCore) : (s.setEc c x).bypassHold = s.bypassHold := rfl
@[simp] theorem State.setEc_ecatHold (s : State) (c : Nat) (x : EnvCore) : (s.setEc c x).ecatHold = s.ecatHold := rfl
@[simp] theorem State.setEc_mgmtHalted (s : State) (c : Nat) (x : EnvCore) : (s.setEc c x).mgmtHalted = s.mgmtHalted := rfl
@[simp] theorem State.setEc_ev (s : State) (c : Nat) (x : EnvCore) : (s.setEc c x).ev = s.ev := rfl
@[simp] theorem State.setEc_jrn (s : State) (c : Nat) (x : EnvCore) : (s.setEc c x).jrn = s.jrn := rfl
@[simp] theorem State.setEc_host (s : State) (c : Nat) (x : EnvCore) : (s.setEc c x).host = s.host := rfl
@[simp] theorem State.setEc_tb (s : State) (c : Nat) (x : EnvCore) : (s.setEc c x).tb = s.tb := rfl
@[simp] theorem State.setEc_pu (s : State) (c : Nat) (x : EnvCore) : (s.setEc c x).pu = s.pu := rfl
@[simp] theorem State.setEc_au (s : State) (c : Nat) (x : EnvCore) : (s.setEc c x).au = s.au := rfl
@[simp] theorem State.setEc_pc (s : State) (c : Nat) (x : EnvCore) : (s.setEc c x).pc = s.pc := rfl
@[simp] theorem State.setEc_pipes (s : State) (c : Nat) (x : EnvCore) : (s.setEc c x).pipes = s.pipes := rfl
@[simp] theorem State.setEc_decs (s : State) (c : Nat) (x : EnvCore) : (s.setEc c x).decs = s.decs := rfl
@[simp] theorem State.setEc_tune (s : State) (c : Nat) (x : EnvCore) : (s.setEc c x).tune = s.tune := rfl
@[simp] theorem State.setEc_cores (s : State) (c : Nat) (x : EnvCore) : (s.setEc c x).cores = s.cores := rfl
@[simp] theorem State.setEc_signals (s : State) (c : Nat) (x : EnvCore) : (s.setEc c x).signals = s.signals := rfl
@[simp] theorem State.setEc_remote (s : State) (c : Nat) (x : EnvCore) : (s.setEc c x).remote = s.remote := rfl
@[simp] theorem State.setEc_ds (s : State) (c : Nat) (x : EnvCore) : (s.setEc c x).ds = s.ds := rfl
@[simp] theorem State.setEc_rcp (s : State) (c : Nat) (x : EnvCore) : (s.setEc c x).rcp = s.rcp := rfl
@[simp] theorem State.setEc_cu (s : State) (c : Nat) (x : EnvCore) : (s.setEc c x).cu = s.cu := rfl
@[simp] theorem State.setEc_aud (s : State) (c : Nat) (x : EnvCore) : (s.setEc c x).aud = s.aud := rfl
@[simp] theorem State.setEc_fab (s : State) (c : Nat) (x : EnvCore) : (s.setEc c x).fab = s.fab := rfl
@[simp] theorem State.setEc_quill (s : State) (c : Nat) (x : EnvCore) : (s.setEc c x).quill = s.quill := rfl
@[simp] theorem State.setEc_boot (s : State) (c : Nat) (x : EnvCore) : (s.setEc c x).boot = s.boot := rfl
@[simp] theorem State.setEc_ecat (s : State) (c : Nat) (x : EnvCore) : (s.setEc c x).ecat = s.ecat := rfl
@[simp] theorem State.setEc_emcyMask (s : State) (c : Nat) (x : EnvCore) : (s.setEc c x).emcyMask = s.emcyMask := rfl
@[simp] theorem State.setEc_pending (s : State) (c : Nat) (x : EnvCore) : (s.setEc c x).pending = s.pending := rfl
/-! setMon -/
@[simp] theorem State.setMon_cfg (s : State) (m : Nat) (x : EnvMon) : (s.setMon m x).cfg = s.cfg := rfl
@[simp] theorem State.setMon_regs (s : State) (m : Nat) (x : EnvMon) : (s.setMon m x).regs = s.regs := rfl
@[simp] theorem State.setMon_hiLatch (s : State) (m : Nat) (x : EnvMon) : (s.setMon m x).hiLatch = s.hiLatch := rfl
@[simp] theorem State.setMon_loHeld (s : State) (m : Nat) (x : EnvMon) : (s.setMon m x).loHeld = s.loHeld := rfl
@[simp] theorem State.setMon_rdata (s : State) (m : Nat) (x : EnvMon) : (s.setMon m x).rdata = s.rdata := rfl
@[simp] theorem State.setMon_tt (s : State) (m : Nat) (x : EnvMon) : (s.setMon m x).tt = s.tt := rfl
@[simp] theorem State.setMon_ttFrac (s : State) (m : Nat) (x : EnvMon) : (s.setMon m x).ttFrac = s.ttFrac := rfl
@[simp] theorem State.setMon_free (s : State) (m : Nat) (x : EnvMon) : (s.setMon m x).free = s.free := rfl
@[simp] theorem State.setMon_mem (s : State) (m : Nat) (x : EnvMon) : (s.setMon m x).mem = s.mem := rfl
@[simp] theorem State.setMon_badWords (s : State) (m : Nat) (x : EnvMon) : (s.setMon m x).badWords = s.badWords := rfl
@[simp] theorem State.setMon_por (s : State) (m : Nat) (x : EnvMon) : (s.setMon m x).por = s.por := rfl
@[simp] theorem State.setMon_warm (s : State) (m : Nat) (x : EnvMon) : (s.setMon m x).warm = s.warm := rfl
@[simp] theorem State.setMon_powered (s : State) (m : Nat) (x : EnvMon) : (s.setMon m x).powered = s.powered := rfl
@[simp] theorem State.setMon_heldIsl (s : State) (m : Nat) (x : EnvMon) : (s.setMon m x).heldIsl = s.heldIsl := rfl
@[simp] theorem State.setMon_phaseDone (s : State) (m : Nat) (x : EnvMon) : (s.setMon m x).phaseDone = s.phaseDone := rfl
@[simp] theorem State.setMon_bypassHold (s : State) (m : Nat) (x : EnvMon) : (s.setMon m x).bypassHold = s.bypassHold := rfl
@[simp] theorem State.setMon_ecatHold (s : State) (m : Nat) (x : EnvMon) : (s.setMon m x).ecatHold = s.ecatHold := rfl
@[simp] theorem State.setMon_mgmtHalted (s : State) (m : Nat) (x : EnvMon) : (s.setMon m x).mgmtHalted = s.mgmtHalted := rfl
@[simp] theorem State.setMon_ev (s : State) (m : Nat) (x : EnvMon) : (s.setMon m x).ev = s.ev := rfl
@[simp] theorem State.setMon_jrn (s : State) (m : Nat) (x : EnvMon) : (s.setMon m x).jrn = s.jrn := rfl
@[simp] theorem State.setMon_host (s : State) (m : Nat) (x : EnvMon) : (s.setMon m x).host = s.host := rfl
@[simp] theorem State.setMon_tb (s : State) (m : Nat) (x : EnvMon) : (s.setMon m x).tb = s.tb := rfl
@[simp] theorem State.setMon_pu (s : State) (m : Nat) (x : EnvMon) : (s.setMon m x).pu = s.pu := rfl
@[simp] theorem State.setMon_au (s : State) (m : Nat) (x : EnvMon) : (s.setMon m x).au = s.au := rfl
@[simp] theorem State.setMon_pc (s : State) (m : Nat) (x : EnvMon) : (s.setMon m x).pc = s.pc := rfl
@[simp] theorem State.setMon_pipes (s : State) (m : Nat) (x : EnvMon) : (s.setMon m x).pipes = s.pipes := rfl
@[simp] theorem State.setMon_decs (s : State) (m : Nat) (x : EnvMon) : (s.setMon m x).decs = s.decs := rfl
@[simp] theorem State.setMon_tune (s : State) (m : Nat) (x : EnvMon) : (s.setMon m x).tune = s.tune := rfl
@[simp] theorem State.setMon_cores (s : State) (m : Nat) (x : EnvMon) : (s.setMon m x).cores = s.cores := rfl
@[simp] theorem State.setMon_signals (s : State) (m : Nat) (x : EnvMon) : (s.setMon m x).signals = s.signals := rfl
@[simp] theorem State.setMon_remote (s : State) (m : Nat) (x : EnvMon) : (s.setMon m x).remote = s.remote := rfl
@[simp] theorem State.setMon_ds (s : State) (m : Nat) (x : EnvMon) : (s.setMon m x).ds = s.ds := rfl
@[simp] theorem State.setMon_rcp (s : State) (m : Nat) (x : EnvMon) : (s.setMon m x).rcp = s.rcp := rfl
@[simp] theorem State.setMon_cu (s : State) (m : Nat) (x : EnvMon) : (s.setMon m x).cu = s.cu := rfl
@[simp] theorem State.setMon_aud (s : State) (m : Nat) (x : EnvMon) : (s.setMon m x).aud = s.aud := rfl
@[simp] theorem State.setMon_fab (s : State) (m : Nat) (x : EnvMon) : (s.setMon m x).fab = s.fab := rfl
@[simp] theorem State.setMon_quill (s : State) (m : Nat) (x : EnvMon) : (s.setMon m x).quill = s.quill := rfl
@[simp] theorem State.setMon_boot (s : State) (m : Nat) (x : EnvMon) : (s.setMon m x).boot = s.boot := rfl
@[simp] theorem State.setMon_ecat (s : State) (m : Nat) (x : EnvMon) : (s.setMon m x).ecat = s.ecat := rfl
@[simp] theorem State.setMon_emcyMask (s : State) (m : Nat) (x : EnvMon) : (s.setMon m x).emcyMask = s.emcyMask := rfl
@[simp] theorem State.setMon_pending (s : State) (m : Nat) (x : EnvMon) : (s.setMon m x).pending = s.pending := rfl
/-! setFan -/
@[simp] theorem State.setFan_cfg (s : State) (f : Nat) (x : EnvFan) : (s.setFan f x).cfg = s.cfg := rfl
@[simp] theorem State.setFan_regs (s : State) (f : Nat) (x : EnvFan) : (s.setFan f x).regs = s.regs := rfl
@[simp] theorem State.setFan_hiLatch (s : State) (f : Nat) (x : EnvFan) : (s.setFan f x).hiLatch = s.hiLatch := rfl
@[simp] theorem State.setFan_loHeld (s : State) (f : Nat) (x : EnvFan) : (s.setFan f x).loHeld = s.loHeld := rfl
@[simp] theorem State.setFan_rdata (s : State) (f : Nat) (x : EnvFan) : (s.setFan f x).rdata = s.rdata := rfl
@[simp] theorem State.setFan_tt (s : State) (f : Nat) (x : EnvFan) : (s.setFan f x).tt = s.tt := rfl
@[simp] theorem State.setFan_ttFrac (s : State) (f : Nat) (x : EnvFan) : (s.setFan f x).ttFrac = s.ttFrac := rfl
@[simp] theorem State.setFan_free (s : State) (f : Nat) (x : EnvFan) : (s.setFan f x).free = s.free := rfl
@[simp] theorem State.setFan_mem (s : State) (f : Nat) (x : EnvFan) : (s.setFan f x).mem = s.mem := rfl
@[simp] theorem State.setFan_badWords (s : State) (f : Nat) (x : EnvFan) : (s.setFan f x).badWords = s.badWords := rfl
@[simp] theorem State.setFan_por (s : State) (f : Nat) (x : EnvFan) : (s.setFan f x).por = s.por := rfl
@[simp] theorem State.setFan_warm (s : State) (f : Nat) (x : EnvFan) : (s.setFan f x).warm = s.warm := rfl
@[simp] theorem State.setFan_powered (s : State) (f : Nat) (x : EnvFan) : (s.setFan f x).powered = s.powered := rfl
@[simp] theorem State.setFan_heldIsl (s : State) (f : Nat) (x : EnvFan) : (s.setFan f x).heldIsl = s.heldIsl := rfl
@[simp] theorem State.setFan_phaseDone (s : State) (f : Nat) (x : EnvFan) : (s.setFan f x).phaseDone = s.phaseDone := rfl
@[simp] theorem State.setFan_bypassHold (s : State) (f : Nat) (x : EnvFan) : (s.setFan f x).bypassHold = s.bypassHold := rfl
@[simp] theorem State.setFan_ecatHold (s : State) (f : Nat) (x : EnvFan) : (s.setFan f x).ecatHold = s.ecatHold := rfl
@[simp] theorem State.setFan_mgmtHalted (s : State) (f : Nat) (x : EnvFan) : (s.setFan f x).mgmtHalted = s.mgmtHalted := rfl
@[simp] theorem State.setFan_ev (s : State) (f : Nat) (x : EnvFan) : (s.setFan f x).ev = s.ev := rfl
@[simp] theorem State.setFan_jrn (s : State) (f : Nat) (x : EnvFan) : (s.setFan f x).jrn = s.jrn := rfl
@[simp] theorem State.setFan_host (s : State) (f : Nat) (x : EnvFan) : (s.setFan f x).host = s.host := rfl
@[simp] theorem State.setFan_tb (s : State) (f : Nat) (x : EnvFan) : (s.setFan f x).tb = s.tb := rfl
@[simp] theorem State.setFan_pu (s : State) (f : Nat) (x : EnvFan) : (s.setFan f x).pu = s.pu := rfl
@[simp] theorem State.setFan_au (s : State) (f : Nat) (x : EnvFan) : (s.setFan f x).au = s.au := rfl
@[simp] theorem State.setFan_pc (s : State) (f : Nat) (x : EnvFan) : (s.setFan f x).pc = s.pc := rfl
@[simp] theorem State.setFan_pipes (s : State) (f : Nat) (x : EnvFan) : (s.setFan f x).pipes = s.pipes := rfl
@[simp] theorem State.setFan_decs (s : State) (f : Nat) (x : EnvFan) : (s.setFan f x).decs = s.decs := rfl
@[simp] theorem State.setFan_tune (s : State) (f : Nat) (x : EnvFan) : (s.setFan f x).tune = s.tune := rfl
@[simp] theorem State.setFan_cores (s : State) (f : Nat) (x : EnvFan) : (s.setFan f x).cores = s.cores := rfl
@[simp] theorem State.setFan_signals (s : State) (f : Nat) (x : EnvFan) : (s.setFan f x).signals = s.signals := rfl
@[simp] theorem State.setFan_remote (s : State) (f : Nat) (x : EnvFan) : (s.setFan f x).remote = s.remote := rfl
@[simp] theorem State.setFan_ds (s : State) (f : Nat) (x : EnvFan) : (s.setFan f x).ds = s.ds := rfl
@[simp] theorem State.setFan_rcp (s : State) (f : Nat) (x : EnvFan) : (s.setFan f x).rcp = s.rcp := rfl
@[simp] theorem State.setFan_cu (s : State) (f : Nat) (x : EnvFan) : (s.setFan f x).cu = s.cu := rfl
@[simp] theorem State.setFan_aud (s : State) (f : Nat) (x : EnvFan) : (s.setFan f x).aud = s.aud := rfl
@[simp] theorem State.setFan_fab (s : State) (f : Nat) (x : EnvFan) : (s.setFan f x).fab = s.fab := rfl
@[simp] theorem State.setFan_quill (s : State) (f : Nat) (x : EnvFan) : (s.setFan f x).quill = s.quill := rfl
@[simp] theorem State.setFan_boot (s : State) (f : Nat) (x : EnvFan) : (s.setFan f x).boot = s.boot := rfl
@[simp] theorem State.setFan_ecat (s : State) (f : Nat) (x : EnvFan) : (s.setFan f x).ecat = s.ecat := rfl
@[simp] theorem State.setFan_emcyMask (s : State) (f : Nat) (x : EnvFan) : (s.setFan f x).emcyMask = s.emcyMask := rfl
@[simp] theorem State.setFan_pending (s : State) (f : Nat) (x : EnvFan) : (s.setFan f x).pending = s.pending := rfl
/-! setLane -/
@[simp] theorem State.setLane_cfg (s : State) (n : Nat) (x : TuneLane) : (s.setLane n x).cfg = s.cfg := rfl
@[simp] theorem State.setLane_regs (s : State) (n : Nat) (x : TuneLane) : (s.setLane n x).regs = s.regs := rfl
@[simp] theorem State.setLane_hiLatch (s : State) (n : Nat) (x : TuneLane) : (s.setLane n x).hiLatch = s.hiLatch := rfl
@[simp] theorem State.setLane_loHeld (s : State) (n : Nat) (x : TuneLane) : (s.setLane n x).loHeld = s.loHeld := rfl
@[simp] theorem State.setLane_rdata (s : State) (n : Nat) (x : TuneLane) : (s.setLane n x).rdata = s.rdata := rfl
@[simp] theorem State.setLane_tt (s : State) (n : Nat) (x : TuneLane) : (s.setLane n x).tt = s.tt := rfl
@[simp] theorem State.setLane_ttFrac (s : State) (n : Nat) (x : TuneLane) : (s.setLane n x).ttFrac = s.ttFrac := rfl
@[simp] theorem State.setLane_free (s : State) (n : Nat) (x : TuneLane) : (s.setLane n x).free = s.free := rfl
@[simp] theorem State.setLane_mem (s : State) (n : Nat) (x : TuneLane) : (s.setLane n x).mem = s.mem := rfl
@[simp] theorem State.setLane_badWords (s : State) (n : Nat) (x : TuneLane) : (s.setLane n x).badWords = s.badWords := rfl
@[simp] theorem State.setLane_por (s : State) (n : Nat) (x : TuneLane) : (s.setLane n x).por = s.por := rfl
@[simp] theorem State.setLane_warm (s : State) (n : Nat) (x : TuneLane) : (s.setLane n x).warm = s.warm := rfl
@[simp] theorem State.setLane_powered (s : State) (n : Nat) (x : TuneLane) : (s.setLane n x).powered = s.powered := rfl
@[simp] theorem State.setLane_heldIsl (s : State) (n : Nat) (x : TuneLane) : (s.setLane n x).heldIsl = s.heldIsl := rfl
@[simp] theorem State.setLane_phaseDone (s : State) (n : Nat) (x : TuneLane) : (s.setLane n x).phaseDone = s.phaseDone := rfl
@[simp] theorem State.setLane_bypassHold (s : State) (n : Nat) (x : TuneLane) : (s.setLane n x).bypassHold = s.bypassHold := rfl
@[simp] theorem State.setLane_ecatHold (s : State) (n : Nat) (x : TuneLane) : (s.setLane n x).ecatHold = s.ecatHold := rfl
@[simp] theorem State.setLane_mgmtHalted (s : State) (n : Nat) (x : TuneLane) : (s.setLane n x).mgmtHalted = s.mgmtHalted := rfl
@[simp] theorem State.setLane_ev (s : State) (n : Nat) (x : TuneLane) : (s.setLane n x).ev = s.ev := rfl
@[simp] theorem State.setLane_jrn (s : State) (n : Nat) (x : TuneLane) : (s.setLane n x).jrn = s.jrn := rfl
@[simp] theorem State.setLane_host (s : State) (n : Nat) (x : TuneLane) : (s.setLane n x).host = s.host := rfl
@[simp] theorem State.setLane_tb (s : State) (n : Nat) (x : TuneLane) : (s.setLane n x).tb = s.tb := rfl
@[simp] theorem State.setLane_pu (s : State) (n : Nat) (x : TuneLane) : (s.setLane n x).pu = s.pu := rfl
@[simp] theorem State.setLane_au (s : State) (n : Nat) (x : TuneLane) : (s.setLane n x).au = s.au := rfl
@[simp] theorem State.setLane_pc (s : State) (n : Nat) (x : TuneLane) : (s.setLane n x).pc = s.pc := rfl
@[simp] theorem State.setLane_pipes (s : State) (n : Nat) (x : TuneLane) : (s.setLane n x).pipes = s.pipes := rfl
@[simp] theorem State.setLane_decs (s : State) (n : Nat) (x : TuneLane) : (s.setLane n x).decs = s.decs := rfl
@[simp] theorem State.setLane_cores (s : State) (n : Nat) (x : TuneLane) : (s.setLane n x).cores = s.cores := rfl
@[simp] theorem State.setLane_signals (s : State) (n : Nat) (x : TuneLane) : (s.setLane n x).signals = s.signals := rfl
@[simp] theorem State.setLane_remote (s : State) (n : Nat) (x : TuneLane) : (s.setLane n x).remote = s.remote := rfl
@[simp] theorem State.setLane_ds (s : State) (n : Nat) (x : TuneLane) : (s.setLane n x).ds = s.ds := rfl
@[simp] theorem State.setLane_rcp (s : State) (n : Nat) (x : TuneLane) : (s.setLane n x).rcp = s.rcp := rfl
@[simp] theorem State.setLane_cu (s : State) (n : Nat) (x : TuneLane) : (s.setLane n x).cu = s.cu := rfl
@[simp] theorem State.setLane_aud (s : State) (n : Nat) (x : TuneLane) : (s.setLane n x).aud = s.aud := rfl
@[simp] theorem State.setLane_fab (s : State) (n : Nat) (x : TuneLane) : (s.setLane n x).fab = s.fab := rfl
@[simp] theorem State.setLane_quill (s : State) (n : Nat) (x : TuneLane) : (s.setLane n x).quill = s.quill := rfl
@[simp] theorem State.setLane_env (s : State) (n : Nat) (x : TuneLane) : (s.setLane n x).env = s.env := rfl
@[simp] theorem State.setLane_boot (s : State) (n : Nat) (x : TuneLane) : (s.setLane n x).boot = s.boot := rfl
@[simp] theorem State.setLane_ecat (s : State) (n : Nat) (x : TuneLane) : (s.setLane n x).ecat = s.ecat := rfl
@[simp] theorem State.setLane_emcyMask (s : State) (n : Nat) (x : TuneLane) : (s.setLane n x).emcyMask = s.emcyMask := rfl
@[simp] theorem State.setLane_pending (s : State) (n : Nat) (x : TuneLane) : (s.setLane n x).pending = s.pending := rfl
/-! setLog -/
@[simp] theorem State.setLog_cfg (s : State) (l : CkLog) : (s.setLog l).cfg = s.cfg := rfl
@[simp] theorem State.setLog_regs (s : State) (l : CkLog) : (s.setLog l).regs = s.regs := rfl
@[simp] theorem State.setLog_hiLatch (s : State) (l : CkLog) : (s.setLog l).hiLatch = s.hiLatch := rfl
@[simp] theorem State.setLog_loHeld (s : State) (l : CkLog) : (s.setLog l).loHeld = s.loHeld := rfl
@[simp] theorem State.setLog_rdata (s : State) (l : CkLog) : (s.setLog l).rdata = s.rdata := rfl
@[simp] theorem State.setLog_tt (s : State) (l : CkLog) : (s.setLog l).tt = s.tt := rfl
@[simp] theorem State.setLog_ttFrac (s : State) (l : CkLog) : (s.setLog l).ttFrac = s.ttFrac := rfl
@[simp] theorem State.setLog_free (s : State) (l : CkLog) : (s.setLog l).free = s.free := rfl
@[simp] theorem State.setLog_mem (s : State) (l : CkLog) : (s.setLog l).mem = s.mem := rfl
@[simp] theorem State.setLog_badWords (s : State) (l : CkLog) : (s.setLog l).badWords = s.badWords := rfl
@[simp] theorem State.setLog_por (s : State) (l : CkLog) : (s.setLog l).por = s.por := rfl
@[simp] theorem State.setLog_warm (s : State) (l : CkLog) : (s.setLog l).warm = s.warm := rfl
@[simp] theorem State.setLog_powered (s : State) (l : CkLog) : (s.setLog l).powered = s.powered := rfl
@[simp] theorem State.setLog_heldIsl (s : State) (l : CkLog) : (s.setLog l).heldIsl = s.heldIsl := rfl
@[simp] theorem State.setLog_phaseDone (s : State) (l : CkLog) : (s.setLog l).phaseDone = s.phaseDone := rfl
@[simp] theorem State.setLog_bypassHold (s : State) (l : CkLog) : (s.setLog l).bypassHold = s.bypassHold := rfl
@[simp] theorem State.setLog_ecatHold (s : State) (l : CkLog) : (s.setLog l).ecatHold = s.ecatHold := rfl
@[simp] theorem State.setLog_mgmtHalted (s : State) (l : CkLog) : (s.setLog l).mgmtHalted = s.mgmtHalted := rfl
@[simp] theorem State.setLog_ev (s : State) (l : CkLog) : (s.setLog l).ev = s.ev := rfl
@[simp] theorem State.setLog_jrn (s : State) (l : CkLog) : (s.setLog l).jrn = s.jrn := rfl
@[simp] theorem State.setLog_host (s : State) (l : CkLog) : (s.setLog l).host = s.host := rfl
@[simp] theorem State.setLog_tb (s : State) (l : CkLog) : (s.setLog l).tb = s.tb := rfl
@[simp] theorem State.setLog_pu (s : State) (l : CkLog) : (s.setLog l).pu = s.pu := rfl
@[simp] theorem State.setLog_au (s : State) (l : CkLog) : (s.setLog l).au = s.au := rfl
@[simp] theorem State.setLog_pc (s : State) (l : CkLog) : (s.setLog l).pc = s.pc := rfl
@[simp] theorem State.setLog_pipes (s : State) (l : CkLog) : (s.setLog l).pipes = s.pipes := rfl
@[simp] theorem State.setLog_decs (s : State) (l : CkLog) : (s.setLog l).decs = s.decs := rfl
@[simp] theorem State.setLog_tune (s : State) (l : CkLog) : (s.setLog l).tune = s.tune := rfl
@[simp] theorem State.setLog_cores (s : State) (l : CkLog) : (s.setLog l).cores = s.cores := rfl
@[simp] theorem State.setLog_signals (s : State) (l : CkLog) : (s.setLog l).signals = s.signals := rfl
@[simp] theorem State.setLog_remote (s : State) (l : CkLog) : (s.setLog l).remote = s.remote := rfl
@[simp] theorem State.setLog_ds (s : State) (l : CkLog) : (s.setLog l).ds = s.ds := rfl
@[simp] theorem State.setLog_rcp (s : State) (l : CkLog) : (s.setLog l).rcp = s.rcp := rfl
@[simp] theorem State.setLog_cu (s : State) (l : CkLog) : (s.setLog l).cu = s.cu := rfl
@[simp] theorem State.setLog_aud (s : State) (l : CkLog) : (s.setLog l).aud = s.aud := rfl
@[simp] theorem State.setLog_fab (s : State) (l : CkLog) : (s.setLog l).fab = s.fab := rfl
@[simp] theorem State.setLog_quill (s : State) (l : CkLog) : (s.setLog l).quill = s.quill := rfl
@[simp] theorem State.setLog_env (s : State) (l : CkLog) : (s.setLog l).env = s.env := rfl
@[simp] theorem State.setLog_ecat (s : State) (l : CkLog) : (s.setLog l).ecat = s.ecat := rfl
@[simp] theorem State.setLog_emcyMask (s : State) (l : CkLog) : (s.setLog l).emcyMask = s.emcyMask := rfl
@[simp] theorem State.setLog_pending (s : State) (l : CkLog) : (s.setLog l).pending = s.pending := rfl

end Sys2Proof.Machine
end

