-- ==== Sys2Proof/Laws/Regs.lean ====
section
/-! SUPPORT. The laws of tables, bit fields, registers and memory: what a read gives after a write. -/

namespace Sys2Proof.Machine

/-! ### Tables -/

theorem lookupCells_insertCell_same {α : Type} (l : List (Nat × α)) (k : Nat) (v : α) :
    lookupCells (insertCell l k v) k = some v := by
  induction l with
  | nil => simp [insertCell, lookupCells]
  | cons x t ih =>
    obtain ⟨a, b⟩ := x
    unfold insertCell
    split
    · simp [lookupCells]
    · split
      · simp [lookupCells]
      · next h _ => simp [lookupCells, h, ih]

theorem lookupCells_insertCell_other {α : Type} (l : List (Nat × α)) (k j : Nat) (v : α) (h : j ≠ k) :
    lookupCells (insertCell l k v) j = lookupCells l j := by
  induction l with
  | nil => simp [insertCell, lookupCells, Ne.symm h]
  | cons x t ih =>
    obtain ⟨a, b⟩ := x
    unfold insertCell
    split
    · next hk => subst hk; simp [lookupCells, Ne.symm h]
    · split
      · simp [lookupCells, Ne.symm h]
      · simp only [lookupCells]; split <;> simp [ih]

@[simp] theorem Tbl.get?_set_same {α : Type} (t : Tbl α) (k : Nat) (v : α) : (t.set k v).get? k = some v :=
  lookupCells_insertCell_same _ _ _

theorem Tbl.get?_set_other {α : Type} (t : Tbl α) (k j : Nat) (v : α) (h : j ≠ k) : (t.set k v).get? j = t.get? j :=
  lookupCells_insertCell_other _ _ _ _ h

@[simp] theorem Tbl.get_set_same {α : Type} (t : Tbl α) (k : Nat) (v d : α) : (t.set k v).get k d = v := by
  simp [Tbl.get]

theorem Tbl.get_set_other {α : Type} (t : Tbl α) (k j : Nat) (v d : α) (h : j ≠ k) : (t.set k v).get j d = t.get j d := by
  simp [Tbl.get, Tbl.get?_set_other _ _ _ _ h]

/-- Rows are kept or dropped by their number alone. -/
theorem Tbl.get?_filterRows {α : Type} (t : Tbl α) (p : Nat → Bool) (k : Nat) :
    (t.filterRows (fun o _ => p o)).get? k = if p k then t.get? k else none := by
  unfold Tbl.get? Tbl.filterRows
  generalize t.cells = l
  induction l with
  | nil => simp [lookupCells]
  | cons x l ih =>
    obtain ⟨a, b⟩ := x
    simp only [List.filter_cons]
    by_cases ha : a = k
    · subst ha
      cases hp : p a
      · simpa [lookupCells, hp] using ih
      · simp [lookupCells]
    · cases hp : p a
      · simp [lookupCells, ha, ih]
      · simp [lookupCells, ha, ih]

/-! ### Bit fields -/

theorem bits_mod (x n hi lo : Nat) (h : hi < n) (hl : lo ≤ hi) : bits (x % 2 ^ n) hi lo = bits x hi lo := by
  apply Nat.eq_of_testBit_eq
  intro i
  simp only [bits, Nat.testBit_mod_two_pow, Nat.testBit_shiftRight]
  by_cases hi' : i < hi + 1 - lo
  · have : lo + i < n := by omega
    simp [this]
  · simp [hi']

theorem setBits_testBit (x hi lo v i : Nat) (h : lo ≤ hi) :
    (setBits x hi lo v).testBit i = if lo ≤ i ∧ i ≤ hi then v.testBit (i - lo) else x.testBit i := by
  have hp : 2 ^ (hi + 1) = 2 ^ lo * 2 ^ (hi + 1 - lo) := by rw [← Nat.pow_add]; congr 1; omega
  have hx : x % 2 ^ lo < 2 ^ lo := Nat.mod_lt _ (Nat.two_pow_pos _)
  have hv : v % 2 ^ (hi + 1 - lo) < 2 ^ (hi + 1 - lo) := Nat.mod_lt _ (Nat.two_pow_pos _)
  have e : setBits x hi lo v = 2 ^ lo * (2 ^ (hi + 1 - lo) * (x >>> (hi + 1)) + v % 2 ^ (hi + 1 - lo)) + x % 2 ^ lo := by
    unfold setBits
    rw [hp, Nat.mul_add, Nat.mul_comm (v % _) (2 ^ lo), Nat.mul_comm (x >>> _), Nat.mul_assoc]
    omega
  rw [e, Nat.testBit_two_pow_mul_add _ hx]
  by_cases h1 : i < lo
  · have : ¬ (lo ≤ i ∧ i ≤ hi) := by omega
    simp [h1, this, Nat.testBit_mod_two_pow]
  · rw [if_neg h1, Nat.testBit_two_pow_mul_add _ hv]
    by_cases h2 : i - lo < hi + 1 - lo
    · have : lo ≤ i ∧ i ≤ hi := by omega
      simp only [h2, if_true, this, and_self, Nat.testBit_mod_two_pow, decide_true, Bool.true_and]
    · have : ¬ (lo ≤ i ∧ i ≤ hi) := by omega
      rw [if_neg h2, if_neg this, Nat.testBit_shiftRight]
      congr 1
      omega

theorem bits_setBits_same (x hi lo v : Nat) (h : lo ≤ hi) : bits (setBits x hi lo v) hi lo = v % 2 ^ (hi + 1 - lo) := by
  apply Nat.eq_of_testBit_eq
  intro i
  simp only [bits, Nat.testBit_mod_two_pow, Nat.testBit_shiftRight, setBits_testBit _ _ _ _ _ h]
  by_cases hi' : i < hi + 1 - lo
  · have h2 : lo ≤ lo + i ∧ lo + i ≤ hi := by omega
    simp [hi', h2]
  · simp [hi']

theorem bits_setBits_other (x hi lo v hj lj : Nat) (h : lo ≤ hi) (hd : hj < lo ∨ hi < lj) :
    bits (setBits x hi lo v) hj lj = bits x hj lj := by
  apply Nat.eq_of_testBit_eq
  intro i
  simp only [bits, Nat.testBit_mod_two_pow, Nat.testBit_shiftRight, setBits_testBit _ _ _ _ _ h]
  by_cases hi' : i < hj + 1 - lj
  · have : ¬ (lo ≤ lj + i ∧ lj + i ≤ hi) := by omega
    rw [if_neg this]
  · simp [hi']

/-! ### Registers -/

@[simp] theorem State.setRegWord_regs (s : State) (r : RegSpec) (ix : List Nat) (v : Nat) :
    (s.setRegWord r ix v).regs = s.regs.set (r.addr ix) (BitVec.ofNat 32 v) := rfl

@[simp] theorem State.setRaw_regs (s : State) (o v : Nat) : (s.setRaw o v).regs = s.regs.set o (BitVec.ofNat 32 v) := rfl

theorem State.regWord_setRegWord_same (s : State) (r : RegSpec) (ix : List Nat) (v : Nat) :
    (s.setRegWord r ix v).regWord r ix = v % 2 ^ 32 := by
  simp [State.regWord]

theorem State.regWord_setRegWord_other (s : State) (r q : RegSpec) (ix iy : List Nat) (v : Nat) (h : q.addr iy ≠ r.addr ix) :
    (s.setRegWord r ix v).regWord q iy = s.regWord q iy := by
  simp [State.regWord, Tbl.get?_set_other _ _ _ _ h]

/-- A register word is unchanged where the table of words is. -/
theorem State.regWord_congr {s t : State} (hc : t.cfg = s.cfg) (r : RegSpec) (ix : List Nat)
    (hr : t.regs.get? (r.addr ix) = s.regs.get? (r.addr ix)) : t.regWord r ix = s.regWord r ix := by
  simp [State.regWord, hc, hr]

theorem State.get_put_same (s : State) (f : Fld) (ix : List Nat) (v : Nat) (h : f.hi < 32) (hl : f.lo ≤ f.hi) :
    (s.put f ix v).get f ix = v % 2 ^ (f.hi + 1 - f.lo) := by
  unfold State.get State.put
  rw [State.regWord_setRegWord_same, bits_mod _ _ _ _ h hl, bits_setBits_same _ _ _ _ hl]

theorem State.get_put_field (s : State) (f g : Fld) (ix : List Nat) (v : Nat) (hr : g.reg = f.reg) (hl : f.lo ≤ f.hi)
    (hg : g.hi < 32) (hgl : g.lo ≤ g.hi) (hd : g.hi < f.lo ∨ f.hi < g.lo) : (s.put f ix v).get g ix = s.get g ix := by
  unfold State.get State.put
  rw [hr, State.regWord_setRegWord_same, bits_mod _ _ _ _ hg hgl, bits_setBits_other _ _ _ _ _ _ hl hd]

theorem State.get_put_other (s : State) (f g : Fld) (ix iy : List Nat) (v : Nat) (h : g.reg.addr iy ≠ f.reg.addr ix) :
    (s.put f ix v).get g iy = s.get g iy := by
  unfold State.get State.put
  rw [State.regWord_setRegWord_other _ _ _ _ _ _ h]

/-- A field write leaves every word at another offset alone. -/
theorem State.put_get?_other (s : State) (f : Fld) (ix : List Nat) (v o : Nat) (h : o ≠ f.reg.addr ix) :
    (s.put f ix v).regs.get? o = s.regs.get? o := by
  simp [State.put, Tbl.get?_set_other _ _ _ _ h]

/-! ### Events -/

/-- An event goes onto the management event ring whatever the host ring does (R15, R594). -/
theorem State.post_mgmt (s : State) (code : Nat) (inst : Option Nat) (fs : List (FK × Nat)) :
    (s.post code inst fs).ev.mgmt = s.ev.mgmt ++ [{ code := code, tt := s.tt, detail := mkDetail inst fs }] := by
  have h : ∀ (v : EvState) (m now : Nat) (e : Event), (v.emergency m now e).mgmt = v.mgmt := by
    intro v m now e
    unfold EvState.emergency
    dsimp only
    repeat' split
    all_goals rfl
  unfold State.post
  dsimp only
  split <;> simp [State.bump, State.put, State.setRegWord, h]

/-- An event changes no register word but HP_BOOT_STATUS. -/
theorem State.post_get?_other (s : State) (code : Nat) (inst : Option Nat) (fs : List (FK × Nat)) (o : Nat)
    (h : o ≠ R.HP_BOOT_STATUS.off) : (s.post code inst fs).regs.get? o = s.regs.get? o := by
  unfold State.post
  dsimp only
  split
  · rfl
  · exact State.put_get?_other _ _ _ _ _ h

/-! ### Memory -/

theorem lookupCells_putCell_same (l : List Host.Cell) (lo a : Nat) (b : Byte) (h : cellsWf lo l = true) :
    (lookupCells (putCell l a b) a).getD Memory.unlisted = b := by
  induction l generalizing lo with
  | nil => by_cases hb : b = Memory.unlisted <;> simp [putCell, lookupCells, hb]
  | cons x t ih =>
    obtain ⟨k, c⟩ := x
    simp only [cellsWf, Bool.and_eq_true, decide_eq_true_eq] at h
    have low : ∀ (l : List Host.Cell) (n : Nat), cellsWf n l = true → a < n → lookupCells l a = none := by
      intro l
      induction l with
      | nil => intros; rfl
      | cons y u ihu =>
        obtain ⟨j, d⟩ := y
        intro n hn han
        simp only [cellsWf, Bool.and_eq_true, decide_eq_true_eq] at hn
        have : j ≠ a := by omega
        simp [lookupCells, this, ihu _ hn.2 (by omega)]
    unfold putCell
    split
    · next hlt =>
      split
      · next hb =>
        have hk : k ≠ a := by omega
        simp [lookupCells, hk, low t (k + 1) h.2 (by omega), hb]
      · simp [lookupCells]
    · split
      · next hk =>
        split
        · next hb => subst hk; simp [low t (a + 1) h.2 (by omega), hb]
        · simp [lookupCells]
      · next hk =>
        have hk' : k ≠ a := fun e => hk e.symm
        simp only [lookupCells, if_neg hk']
        exact ih _ h.2

theorem lookupCells_putCell_other (l : List Host.Cell) (a j : Nat) (b : Byte) (hj : j ≠ a) :
    lookupCells (putCell l a b) j = lookupCells l j := by
  induction l with
  | nil => by_cases hb : b = Memory.unlisted <;> simp [putCell, lookupCells, hb, Ne.symm hj]
  | cons x t ih =>
    obtain ⟨k, c⟩ := x
    unfold putCell
    split
    · split <;> simp [lookupCells, Ne.symm hj]
    · split
      · next hk =>
        subst hk
        split <;> simp [lookupCells, Ne.symm hj]
      · simp only [lookupCells]; split <;> simp [ih]

theorem Memory.read_write_other (m : Memory) (a j : Nat) (b : Byte) (h : j ≠ a) : (m.write a b).read j = m.read j := by
  simp [Memory.read, Memory.write, lookupCells_putCell_other _ _ _ _ h]

theorem Memory.read_write_same (m : Memory) (a : Nat) (b : Byte) (h : m.wf = true) : (m.write a b).read a = b :=
  lookupCells_putCell_same _ _ _ _ h

theorem Memory.read_writeList_other (m : Memory) (a j : Nat) (l : List Byte) (h : j < a ∨ a + l.length ≤ j) :
    (m.writeList a l).read j = m.read j := by
  induction l generalizing m a with
  | nil => rfl
  | cons b t ih =>
    simp only [List.length_cons] at h
    rw [Memory.writeList, ih _ _ (by omega), Memory.read_write_other _ _ _ _ (by omega)]

end Sys2Proof.Machine
end

