-- ==== Sys2Proof/Laws/Frames.lean ====
section
/-! SUPPORT. How register writes and events show in a next state: the steps by which FieldsSet, Posted and PostedLim are shown. -/

namespace Sys2Proof.Machine

/-- Two states are equal when every field is. -/
theorem State.eq_of {s t : State} (h1 : s.cfg = t.cfg) (h2 : s.regs = t.regs) (h3 : s.hiLatch = t.hiLatch)
    (h4 : s.loHeld = t.loHeld) (h5 : s.rdata = t.rdata) (h6 : s.tt = t.tt) (h7 : s.ttFrac = t.ttFrac)
    (h8 : s.free = t.free) (h9 : s.mem = t.mem) (h10 : s.badWords = t.badWords) (h11 : s.por = t.por)
    (h12 : s.warm = t.warm) (h13 : s.powered = t.powered) (h14 : s.heldIsl = t.heldIsl)
    (h15 : s.phaseDone = t.phaseDone) (h16 : s.bypassHold = t.bypassHold) (h17 : s.ecatHold = t.ecatHold)
    (h18 : s.mgmtHalted = t.mgmtHalted) (h19 : s.ev = t.ev) (h20 : s.jrn = t.jrn) (h21 : s.host = t.host)
    (h22 : s.tb = t.tb) (h23 : s.pu = t.pu) (h24 : s.au = t.au) (h25 : s.pc = t.pc) (h26 : s.pipes = t.pipes)
    (h27 : s.decs = t.decs) (h28 : s.tune = t.tune) (h29 : s.cores = t.cores) (h30 : s.signals = t.signals)
    (h31 : s.remote = t.remote) (h32 : s.ds = t.ds) (h33 : s.rcp = t.rcp) (h34 : s.cu = t.cu) (h35 : s.aud = t.aud)
    (h36 : s.fab = t.fab) (h37 : s.quill = t.quill) (h38 : s.env = t.env) (h39 : s.boot = t.boot)
    (h40 : s.ecat = t.ecat) (h41 : s.emcyMask = t.emcyMask) (h42 : s.pending = t.pending) : s = t := by
  cases s; cases t
  cases h1
  cases h2
  cases h3
  cases h4
  cases h5
  cases h6
  cases h7
  cases h8
  cases h9
  cases h10
  cases h11
  cases h12
  cases h13
  cases h14
  cases h15
  cases h16
  cases h17
  cases h18
  cases h19
  cases h20
  cases h21
  cases h22
  cases h23
  cases h24
  cases h25
  cases h26
  cases h27
  cases h28
  cases h29
  cases h30
  cases h31
  cases h32
  cases h33
  cases h34
  cases h35
  cases h36
  cases h37
  cases h38
  cases h39
  cases h40
  cases h41
  cases h42
  rfl

/-! ### Registers -/

/-- What a field write leaves at any offset. -/
theorem State.put_get? (s : State) (f : Fld) (ix : List Nat) (v o : Nat) :
    (s.put f ix v).regs.get? o
      = if o = f.reg.addr ix then some (BitVec.ofNat 32 (setBits (s.regWord f.reg ix) f.hi f.lo v)) else s.regs.get? o := by
  split
  · next h => subst h; simp [State.put]
  · next h => exact State.put_get?_other s f ix v o h

/-- The registers after `l` and one field more. -/
theorem State.puts_append (s : State) (l m : List (Fld × List Nat × Nat)) : s.puts (l ++ m) = (s.puts l).puts m := by
  simp [State.puts, List.foldl_append]

@[simp] theorem State.puts_nil (s : State) : s.puts [] = s := rfl

@[simp] theorem State.puts_cons (s : State) (x : Fld × List Nat × Nat) (l : List (Fld × List Nat × Nat)) :
    s.puts (x :: l) = (s.put x.1 x.2.1 x.2.2).puts l := rfl

@[simp] theorem State.puts_cfg (s : State) (l : List (Fld × List Nat × Nat)) : (s.puts l).cfg = s.cfg := by
  induction l generalizing s with
  | nil => rfl
  | cons x l ih => rw [State.puts_cons, ih]; rfl

theorem FieldsSet.nil {s t : State} (h : t.regs = s.regs) : FieldsSet s t [] := by
  intro o _; simp [h]

/-- A change outside the registers. -/
theorem FieldsSet.congr {s t u : State} {l : List (Fld × List Nat × Nat)} (h : FieldsSet s t l) (hr : u.regs = t.regs) :
    FieldsSet s u l := by
  intro o ho; rw [hr]; exact h o ho

/-- One field more. -/
theorem FieldsSet.put {s t : State} {l : List (Fld × List Nat × Nat)} (h : FieldsSet s t l) (hc : t.cfg = s.cfg) (f : Fld)
    (ix : List Nat) (v : Nat) (hb : f.reg.addr ix ≠ R.HP_BOOT_STATUS.off) : FieldsSet s (t.put f ix v) (l ++ [(f, ix, v)]) := by
  intro o ho
  rw [State.puts_append, State.puts_cons, State.puts_nil, State.put_get?, State.put_get?, h o ho,
    State.regWord_congr (s := s.puts l) (t := t) (by rw [hc, State.puts_cfg]) f.reg ix (h _ hb)]

/-- The last of the fields. -/
theorem FieldsSet.put_last {s t : State} {l : List (Fld × List Nat × Nat)} {f : Fld} {ix : List Nat} {v : Nat}
    (h : FieldsSet s t l.dropLast) (hl : l = l.dropLast ++ [(f, ix, v)]) (hc : t.cfg = s.cfg)
    (hb : f.reg.addr ix ≠ R.HP_BOOT_STATUS.off) : FieldsSet s (t.put f ix v) l := by
  rw [hl]; exact h.put hc f ix v hb

/-- An event. -/
theorem FieldsSet.post {s t : State} {l : List (Fld × List Nat × Nat)} (h : FieldsSet s t l) (code : Nat) (inst : Option Nat)
    (fs : List (FK × Nat)) : FieldsSet s (t.post code inst fs) l := by
  intro o ho; rw [State.post_get?_other _ _ _ _ _ ho]; exact h o ho

/-- What a limited event does: only its count, where one was posted within the millisecond; else the event besides. -/
theorem State.postLim_eq (s : State) (code cause : Nat) (inst : Option Nat) (fs : List (FK × Nat)) :
    (s.Recent code cause inst ∧ ∃ o, s.postLim code cause inst fs = { s with ev := { s.ev with occ := o } })
      ∨ (¬ s.Recent code cause inst ∧ ∃ o l, s.postLim code cause inst fs
          = ({ s with ev := { s.ev with occ := o, last := l } } : State).post code inst fs) := by
  have hu : ∀ v : EvState, ({ s with ev := v } : State).up = s.up := fun _ => rfl
  unfold State.postLim State.Recent
  cases hf : s.ev.last.find? (fun x => decide (x.1 = (code, cause, inst.getD 65535))) with
  | none =>
    refine Or.inr ⟨fun ⟨_, h, _⟩ => (nomatch h), ?_⟩
    simp only [hf]
    exact ⟨_, _, rfl⟩
  | some x =>
    simp only [hf, hu]
    by_cases h : s.up < x.2 + 1000000
    · rw [if_pos h]
      exact Or.inl ⟨⟨x, rfl, h⟩, _, rfl⟩
    · rw [if_neg h]
      refine Or.inr ⟨?_, _, _, rfl⟩
      rintro ⟨y, hy, h2⟩
      cases hy
      exact h h2

/-- A limited event changes no register word but HP_BOOT_STATUS. -/
theorem State.postLim_get?_other (s : State) (code cause : Nat) (inst : Option Nat) (fs : List (FK × Nat)) (o : Nat)
    (h : o ≠ R.HP_BOOT_STATUS.off) : (s.postLim code cause inst fs).regs.get? o = s.regs.get? o := by
  obtain ⟨-, x, e⟩ | ⟨-, x, y, e⟩ := State.postLim_eq s code cause inst fs
  · rw [e]
  · rw [e, State.post_get?_other _ _ _ _ _ h]

/-- A limited event. -/
theorem FieldsSet.postLim {s t : State} {l : List (Fld × List Nat × Nat)} (h : FieldsSet s t l) (code cause : Nat)
    (inst : Option Nat) (fs : List (FK × Nat)) : FieldsSet s (t.postLim code cause inst fs) l := by
  intro o ho; rw [State.postLim_get?_other _ _ _ _ _ _ ho]; exact h o ho

/-! ### Events -/

/-- An event shows after a state with the same event ring and TT. -/
theorem Posted.of_post {s t : State} (he : t.ev.mgmt = s.ev.mgmt) (ht : t.tt = s.tt) (code : Nat) (inst : Option Nat)
    (fs : List (FK × Nat)) : Posted s (t.post code inst fs) code inst fs := by
  unfold Posted; rw [State.post_mgmt, he, ht]

/-- A limited event likewise. -/
theorem PostedLim.of_postLim {s t : State} (he : t.ev = s.ev) (ht : t.tt = s.tt) (hu : t.up = s.up) (code cause : Nat) (inst : Option Nat)
    (fs : List (FK × Nat)) : PostedLim s (t.postLim code cause inst fs) code cause inst fs := by
  have hr : t.Recent code cause inst ↔ s.Recent code cause inst := by unfold State.Recent; rw [he, hu]
  unfold PostedLim
  obtain ⟨h, x, e⟩ | ⟨h, x, y, e⟩ := State.postLim_eq t code cause inst fs
  · exact ⟨fun _ => by rw [e, he], fun g => absurd (hr.mp h) g⟩
  · refine ⟨fun g => absurd (hr.mpr g) h, fun _ => ?_⟩
    rw [e]
    apply Posted.of_post
    · show t.ev.mgmt = _; rw [he]
    · exact ht

end Sys2Proof.Machine
end

