-- ==== Sys2Proof/Laws/Kept.lean ====
section
/-! SUPPORT. What every operation keeps: the configuration, the queue and the canonical form of memory; and the laws of
memory that this rests on. -/

namespace Sys2Proof.Machine

/-- The state has configuration `c`, waiting commands `q`, and memory in its canonical form. -/
def Kept (c : Cfg) (q : List Instr) (s : State) : Prop := s.cfg = c ∧ s.pending = q ∧ s.mem.wf = true

theorem Kept.mk_iff {c : Cfg} {q : List Instr} {x : State} (regs1 : Tbl Word) (hiLatch1 : Tbl Nat) (loHeld1 : Tbl Nat) (rdata1 : Nat) (tt1 : Nat) (ttFrac1 : Nat) (free1 : Nat) (badWords1 : List Nat) (por1 : Bool) (warm1 : Bool) (powered1 : Bool) (heldIsl1 : List Nat) (phaseDone1 : Nat) (bypassHold1 : Bool) (ecatHold1 : Bool) (mgmtHalted1 : Bool) (ev1 : EvState) (jrn1 : Journal) (host1 : HostPort) (tb1 : TbState) (pu1 : Tbl PuCh) (au1 : AuState) (pc1 : PcState) (pipes1 : Tbl Pipe) (decs1 : Tbl DecCh) (tune1 : Tbl TuneLane) (cores1 : Tbl Core) (signals1 : List Signal) (remote1 : List RemoteReq) (ds1 : DsState) (rcp1 : Tbl RcpSlot) (cu1 : CuState) (aud1 : AudState) (fab1 : FabState) (quill1 : QState) (env1 : EnvState) (boot1 : BootState) (ecat1 : EcatState) (emcyMask1 : Nat) :
    Kept c q (State.mk x.cfg regs1 hiLatch1 loHeld1 rdata1 tt1 ttFrac1 free1 x.mem badWords1 por1 warm1 powered1 heldIsl1 phaseDone1 bypassHold1 ecatHold1 mgmtHalted1 ev1 jrn1 host1 tb1 pu1 au1 pc1 pipes1 decs1 tune1 cores1 signals1 remote1 ds1 rcp1 cu1 aud1 fab1 quill1 env1 boot1 ecat1 emcyMask1 x.pending) ↔ Kept c q x := Iff.rfl

theorem Kept.cut {P Q : Prop} (h : P) (k : P → Q) : Q := k h

theorem Kept.ite {c : Cfg} {q : List Instr} {p : Prop} [Decidable p] {a b : State} (ha : Kept c q a) (hb : Kept c q b) :
    Kept c q (if p then a else b) := by
  split <;> assumption

theorem foldS_cons {α : Type} (a : α) (l : List α) (f : α → State → State) (s : State) :
    foldS (a :: l) f s = foldS l f (f a s) := rfl

theorem Kept.foldS {c : Cfg} {q : List Instr} {α : Type} {l : List α} {f : α → State → State} {s : State}
    (hf : ∀ a x, Kept c q x → Kept c q (f a x)) (hs : Kept c q s) : Kept c q (foldS l f s) := by
  induction l generalizing s with
  | nil => exact hs
  | cons a l ih => exact ih (hf a s hs)


theorem cellsWf_mono {lo lo' : Nat} {l : List Host.Cell} (h : cellsWf lo l = true) (hle : lo' ≤ lo) :
    cellsWf lo' l = true := by
  cases l with
  | nil => rfl
  | cons x t =>
    obtain ⟨k, b⟩ := x
    simp only [cellsWf, Bool.and_eq_true, decide_eq_true_eq] at h ⊢
    exact ⟨⟨Nat.le_trans hle h.1.1, h.1.2⟩, h.2⟩

theorem cellsWf_putCell {lo : Nat} {l : List Host.Cell} (h : cellsWf lo l = true) {a : Nat} {b : Byte} (ha : lo ≤ a) :
    cellsWf lo (putCell l a b) = true := by
  induction l generalizing lo with
  | nil => by_cases hb : b = Memory.unlisted <;> simp [putCell, cellsWf, hb, ha]
  | cons x t ih =>
    obtain ⟨k, v⟩ := x
    simp only [cellsWf, Bool.and_eq_true, decide_eq_true_eq] at h
    obtain ⟨⟨hk, hv⟩, ht⟩ := h
    unfold putCell
    split
    · split
      · simp [cellsWf, hk, hv, ht]
      · next hlt hb => simp [cellsWf, ha, hb, hv, ht]; omega
    · split
      · subst a
        split
        · exact cellsWf_mono ht (by omega)
        · next hb => simp [cellsWf, hk, hb, ht]
      · simp only [cellsWf, Bool.and_eq_true, decide_eq_true_eq]
        exact ⟨⟨hk, hv⟩, ih ht (by omega)⟩

theorem cellsWf_filter {lo : Nat} {l : List Host.Cell} (p : Host.Cell → Bool) (h : cellsWf lo l = true) :
    cellsWf lo (l.filter p) = true := by
  induction l generalizing lo with
  | nil => rfl
  | cons x t ih =>
    obtain ⟨k, v⟩ := x
    simp only [cellsWf, Bool.and_eq_true, decide_eq_true_eq] at h
    obtain ⟨⟨hk, hv⟩, ht⟩ := h
    rw [List.filter_cons]
    split
    · simp only [cellsWf, Bool.and_eq_true, decide_eq_true_eq]
      exact ⟨⟨hk, hv⟩, ih ht⟩
    · exact ih (cellsWf_mono ht (by omega))

theorem Memory.wf_write (m : Memory) (a : Nat) (b : Byte) (h : m.wf = true) : (m.write a b).wf = true :=
  cellsWf_putCell h (Nat.zero_le a)

theorem Memory.wf_writeList (m : Memory) (a : Nat) (l : List Byte) (h : m.wf = true) : (m.writeList a l).wf = true := by
  induction l generalizing m a with
  | nil => exact h
  | cons b t ih => exact ih _ _ (m.wf_write a b h)

theorem Memory.wf_zero (m : Memory) (a n : Nat) (h : m.wf = true) : (m.zero a n).wf = true :=
  cellsWf_filter _ h

end Sys2Proof.Machine
end

