-- ==== Sys2Proof/Laws/KeptShared.lean ====
section
/-! SUPPORT. What every operation keeps (`Kept`): the shared operations, the actuation unit, the job and engine operations. -/

namespace Sys2Proof.Machine

theorem foldS_kept {c0 : Cfg} {q0 : List Instr} {α : Type} {l : List α} {f : α → State → State} {s : State}
    (hf : ∀ a x, Kept c0 q0 x → Kept c0 q0 (f a x)) (h0 : Kept c0 q0 s) : Kept c0 q0 (foldS l f s) :=
  Kept.foldS hf h0

theorem State.setRegWord_kept {c0 : Cfg} {q0 : List Instr} (s : State) (r : RegSpec) (ix : List Nat) (v : Nat) (h0 : Kept c0 q0 s) :
    Kept c0 q0 (State.setRegWord s r ix v) :=
  h0

theorem State.put_kept {c0 : Cfg} {q0 : List Instr} (s : State) (f : Fld) (ix : List Nat) (v : Nat) (h0 : Kept c0 q0 s) :
    Kept c0 q0 (State.put s f ix v) := by
  unfold State.put
  repeat' (with_reducible first | assumption | apply State.setRegWord_kept)

theorem State.bump_kept {c0 : Cfg} {q0 : List Instr} (s : State) (f : Fld) (ix : List Nat) (n : Nat) (h0 : Kept c0 q0 s) :
    Kept c0 q0 (State.bump s f ix n) := by
  unfold State.bump
  repeat' (with_reducible first | assumption | apply State.put_kept)

theorem State.keepRegs_kept {c0 : Cfg} {q0 : List Instr} (s : State) (keep : Nat → Bool) (h0 : Kept c0 q0 s) :
    Kept c0 q0 (State.keepRegs s keep) := by
  unfold State.keepRegs
  repeat' (with_reducible first | assumption | intro _ | apply Kept.ite | apply Kept.foldS | simp -zeta only [↓Kept.mk_iff] | split)

theorem State.setRaw_kept {c0 : Cfg} {q0 : List Instr} (s : State) (off v : Nat) (h0 : Kept c0 q0 s) :
    Kept c0 q0 (State.setRaw s off v) :=
  h0

theorem State.setPair_kept {c0 : Cfg} {q0 : List Instr} (s : State) (lo hi : RegSpec) (ix : List Nat) (v : Nat) (h0 : Kept c0 q0 s) :
    Kept c0 q0 (State.setPair s lo hi ix v) := by
  unfold State.setPair
  repeat' (with_reducible first | assumption | apply State.setRegWord_kept)

theorem State.writeMem_kept {c0 : Cfg} {q0 : List Instr} (s : State) (a : Nat) (l : List Byte) (h0 : Kept c0 q0 s) :
    Kept c0 q0 (s.writeMem a l) := by
  unfold State.writeMem
  split
  · exact h0
  · exact ⟨h0.1, h0.2.1, Memory.wf_writeList _ _ _ h0.2.2⟩

theorem State.writeLe_kept {c0 : Cfg} {q0 : List Instr} (s : State) (a n v : Nat) (h0 : Kept c0 q0 s) :
    Kept c0 q0 (State.writeLe s a n v) := by
  unfold State.writeLe
  repeat' (with_reducible first | assumption | apply State.writeMem_kept)

theorem State.zeroMem_kept {c0 : Cfg} {q0 : List Instr} (s : State) (a n : Nat) (h0 : Kept c0 q0 s) :
    Kept c0 q0 (s.zeroMem a n) := by
  unfold State.zeroMem
  split
  · exact h0
  · exact ⟨h0.1, h0.2.1, Memory.wf_zero _ _ _ h0.2.2⟩

theorem State.post_kept {c0 : Cfg} {q0 : List Instr} (s : State) (code : Nat) (inst : Option Nat) (fs : List (FK × Nat)) (h0 : Kept c0 q0 s) :
    Kept c0 q0 (State.post s code inst fs) := by
  unfold State.post
  repeat' (with_reducible first | assumption | apply State.bump_kept | intro _ | apply Kept.ite | apply Kept.foldS | simp -zeta only [↓Kept.mk_iff] | split)

theorem State.postLim_kept {c0 : Cfg} {q0 : List Instr} (s : State) (code cause : Nat) (inst : Option Nat) (fs : List (FK × Nat)) (h0 : Kept c0 q0 s) :
    Kept c0 q0 (State.postLim s code cause inst fs) := by
  unfold State.postLim
  repeat' (with_reducible first | assumption | apply State.post_kept | intro _ | apply Kept.ite | apply Kept.foldS | simp -zeta only [↓Kept.mk_iff] | (extract_lets +onlyGivenNames x; first | (refine Kept.cut (P := Kept c0 q0 x) ?_ ?_; rotate_left; (intro _; clear_value x); rotate_left; unfold x; clear x) | clear_value x) | split)

theorem State.irqItem_kept {c0 : Cfg} {q0 : List Instr} (s : State) (v : Nat) (h0 : Kept c0 q0 s) :
    Kept c0 q0 (State.irqItem s v) := by
  unfold State.irqItem
  repeat' (with_reducible first | assumption | apply State.put_kept | intro _ | apply Kept.ite | apply Kept.foldS | simp -zeta only [↓Kept.mk_iff] | split)

theorem State.pcAdd_kept {c0 : Cfg} {q0 : List Instr} (s : State) (bank k n : Nat) (h0 : Kept c0 q0 s) :
    Kept c0 q0 (State.pcAdd s bank k n) := by
  unfold State.pcAdd
  repeat' (with_reducible first | assumption | apply State.put_kept | apply State.setRaw_kept | apply State.irqItem_kept | intro _ | apply Kept.ite | apply Kept.foldS | simp -zeta only [↓Kept.mk_iff] | split)

theorem State.pcCount_kept {c0 : Cfg} {q0 : List Instr} (s : State) (bank nctr code : Nat) (n : Nat) (h0 : Kept c0 q0 s) :
    Kept c0 q0 (State.pcCount s bank nctr code n) := by
  unfold State.pcCount
  repeat' (with_reducible first | assumption | apply State.pcAdd_kept | intro _ | apply Kept.ite | apply Kept.foldS | split)

theorem State.jrnFaultRegs_kept {c0 : Cfg} {q0 : List Instr} (s : State) (e : JEntry) (h0 : Kept c0 q0 s) :
    Kept c0 q0 (State.jrnFaultRegs s e) := by
  unfold State.jrnFaultRegs
  repeat' (with_reducible first | assumption | apply State.setRegWord_kept | apply State.put_kept | intro _ | apply Kept.ite | apply Kept.foldS | split)

theorem State.jrnCopyFault_kept {c0 : Cfg} {q0 : List Instr} (s : State) (copy : Nat) (e : JEntry) (h0 : Kept c0 q0 s) :
    Kept c0 q0 (State.jrnCopyFault s copy e) := by
  unfold State.jrnCopyFault
  repeat' (with_reducible first | assumption | apply State.put_kept | apply State.post_kept | apply State.jrnFaultRegs_kept | intro _ | apply Kept.ite | apply Kept.foldS | split)

theorem State.jrnEntry_kept {c0 : Cfg} {q0 : List Instr} (s : State) (source status cause : Nat) (loc old new : Nat) (command : Bool) (detail : Nat) (long : Bool) (badP : Bool) (badM : Bool) (h0 : Kept c0 q0 s) :
    Kept c0 q0 (State.jrnEntry s source status cause loc old new command detail long badP badM) := by
  unfold State.jrnEntry
  repeat' (with_reducible first | assumption | apply State.put_kept | apply State.jrnFaultRegs_kept | apply State.jrnCopyFault_kept | intro _ | apply Kept.ite | apply Kept.foldS | simp -zeta only [↓Kept.mk_iff] | split)

theorem State.jrnApplied_kept {c0 : Cfg} {q0 : List Instr} (s : State) (src : Src) (cause off old new : Nat) (h0 : Kept c0 q0 s) :
    Kept c0 q0 (State.jrnApplied s src cause off old new) := by
  unfold State.jrnApplied
  repeat' (with_reducible first | assumption | apply State.jrnEntry_kept)

theorem State.jrnRefused_kept {c0 : Cfg} {q0 : List Instr} (s : State) (src : Src) (cause off old new : Nat) (h0 : Kept c0 q0 s) :
    Kept c0 q0 (State.jrnRefused s src cause off old new) := by
  unfold State.jrnRefused
  repeat' (with_reducible first | assumption | apply State.jrnEntry_kept)

theorem State.cqSend_kept {c0 : Cfg} {q0 : List Instr} (s : State) (c : CRec) (h0 : Kept c0 q0 s) :
    Kept c0 q0 (State.cqSend s c) := by
  unfold State.cqSend
  repeat' (with_reducible first | assumption | apply State.put_kept | apply State.pcCount_kept | intro _ | apply Kept.ite | apply Kept.foldS | simp -zeta only [↓Kept.mk_iff] | split)

theorem State.completion_kept {c0 : Cfg} {q0 : List Instr} (s : State) (c : CRec) (h0 : Kept c0 q0 s) :
    Kept c0 q0 (State.completion s c) := by
  unfold State.completion
  repeat' (with_reducible first | assumption | apply State.put_kept | apply State.postLim_kept | apply State.pcCount_kept | apply State.cqSend_kept | intro _ | apply Kept.ite | apply Kept.foldS | simp -zeta only [↓Kept.mk_iff] | split)

theorem State.laneReady_kept {c0 : Cfg} {q0 : List Instr} (s : State) (lane : Nat) (h0 : Kept c0 q0 s) :
    Kept c0 q0 (State.laneReady s lane) := by
  unfold State.laneReady
  repeat' (with_reducible first | assumption | intro _ | apply Kept.ite | apply Kept.foldS | simp -zeta only [↓Kept.mk_iff] | split)

theorem State.draw_kept {c0 : Cfg} {q0 : List Instr} (s : State) (w : Nat) (h0 : Kept c0 q0 s) :
    Kept c0 q0 (State.draw s w).2 :=
  h0

theorem State.setCh_kept {c0 : Cfg} {q0 : List Instr} (s : State) (c : Nat) (p : PuCh) (h0 : Kept c0 q0 s) :
    Kept c0 q0 (State.setCh s c p) :=
  h0

theorem State.hostAbandon_kept {c0 : Cfg} {q0 : List Instr} (s : State) (h0 : Kept c0 q0 s) :
    Kept c0 q0 (State.hostAbandon s) := by
  unfold State.hostAbandon
  repeat' (with_reducible first | assumption | apply State.bump_kept | apply State.postLim_kept)

theorem State.gateRefuse_kept {c0 : Cfg} {q0 : List Instr} (s : State) (src : Src) (cause off old v : Nat) (h0 : Kept c0 q0 s) :
    Kept c0 q0 (State.gateRefuse s src cause off old v) := by
  unfold State.gateRefuse
  repeat' (with_reducible first | assumption | apply State.bump_kept | apply State.jrnRefused_kept | intro _ | apply Kept.ite | apply Kept.foldS | split)

theorem State.paramWriteEff_kept {c0 : Cfg} {q0 : List Instr} (s : State) (src : Src) (r : RegSpec) (ix : List Nat) (v eff : Nat) (range : Bool) (check : State → Nat → Nat → Option Nat) (onRefuse : State → State) (after : State → Nat → Nat → State) (honRefuse : ∀ onRefuse0, Kept c0 q0 onRefuse0 → Kept c0 q0 (onRefuse onRefuse0)) (hafter : ∀ after0 after1 after2, Kept c0 q0 after0 → Kept c0 q0 (after after0 after1 after2)) (h0 : Kept c0 q0 s) :
    Kept c0 q0 (State.paramWriteEff s src r ix v eff range check onRefuse after) := by
  unfold State.paramWriteEff
  repeat' (with_reducible first | assumption | apply State.setRegWord_kept | apply State.jrnApplied_kept | apply State.jrnRefused_kept | apply State.hostAbandon_kept | apply State.gateRefuse_kept | apply honRefuse | apply hafter | intro _ | apply Kept.ite | apply Kept.foldS | split)

theorem State.paramWrite_kept {c0 : Cfg} {q0 : List Instr} (s : State) (src : Src) (r : RegSpec) (ix : List Nat) (v : Nat) (check : State → Nat → Nat → Option Nat) (onRefuse : State → State) (after : State → Nat → Nat → State) (honRefuse : ∀ onRefuse0, Kept c0 q0 onRefuse0 → Kept c0 q0 (onRefuse onRefuse0)) (hafter : ∀ after0 after1 after2, Kept c0 q0 after0 → Kept c0 q0 (after after0 after1 after2)) (h0 : Kept c0 q0 s) :
    Kept c0 q0 (State.paramWrite s src r ix v check onRefuse after) := by
  unfold State.paramWrite
  repeat' (with_reducible first | assumption | apply State.paramWriteEff_kept | apply honRefuse | apply hafter)

theorem State.pairWrite_kept {c0 : Cfg} {q0 : List Instr} (s : State) (src : Src) (lo hi : RegSpec) (ix : List Nat) (vh : Nat) (check : State → Nat → Nat → Option Nat) (onRefuse : State → State) (after : State → Nat → Nat → State) (honRefuse : ∀ onRefuse0, Kept c0 q0 onRefuse0 → Kept c0 q0 (onRefuse onRefuse0)) (hafter : ∀ after0 after1 after2, Kept c0 q0 after0 → Kept c0 q0 (after after0 after1 after2)) (h0 : Kept c0 q0 s) :
    Kept c0 q0 (State.pairWrite s src lo hi ix vh check onRefuse after) := by
  unfold State.pairWrite
  repeat' (with_reducible first | assumption | apply State.setRegWord_kept | apply State.jrnApplied_kept | apply State.jrnRefused_kept | apply State.hostAbandon_kept | apply State.gateRefuse_kept | apply honRefuse | apply hafter | intro _ | apply Kept.ite | apply Kept.foldS | split)

theorem State.setOut_kept {c0 : Cfg} {q0 : List Instr} (s : State) (o : Nat) (x : AuOut) (h0 : Kept c0 q0 s) :
    Kept c0 q0 (State.setOut s o x) :=
  h0

theorem State.setTable_kept {c0 : Cfg} {q0 : List Instr} (s : State) (t : Tbl AuEntry) (h0 : Kept c0 q0 s) :
    Kept c0 q0 (State.setTable s t) := by
  unfold State.setTable
  repeat' (with_reducible first | assumption | apply State.put_kept | simp -zeta only [↓Kept.mk_iff])

theorem State.showOut_kept {c0 : Cfg} {q0 : List Instr} (s : State) (o : Nat) (on : Bool) (h0 : Kept c0 q0 s) :
    Kept c0 q0 (State.showOut s o on) := by
  unfold State.showOut
  repeat' (with_reducible first | assumption | apply State.put_kept | intro _ | apply Kept.ite | apply Kept.foldS | split)

theorem State.onTime_kept {c0 : Cfg} {q0 : List Instr} (s : State) (o : Nat) (h0 : Kept c0 q0 s) :
    Kept c0 q0 (State.onTime s o) := by
  unfold State.onTime
  repeat' (with_reducible first | assumption | apply State.put_kept | apply State.setOut_kept | intro _ | apply Kept.ite | apply Kept.foldS | split)

theorem State.outIdle_kept {c0 : Cfg} {q0 : List Instr} (s : State) (o : Nat) (h0 : Kept c0 q0 s) :
    Kept c0 q0 (State.outIdle s o) := by
  unfold State.outIdle
  repeat' (with_reducible first | assumption | apply State.setOut_kept | apply State.showOut_kept | apply State.onTime_kept)

theorem State.wearCheck_kept {c0 : Cfg} {q0 : List Instr} (s : State) (o : Nat) (h0 : Kept c0 q0 s) :
    Kept c0 q0 (State.wearCheck s o) := by
  unfold State.wearCheck
  repeat' (with_reducible first | assumption | apply State.postLim_kept | apply State.setOut_kept | intro _ | apply Kept.ite | apply Kept.foldS | split)

theorem State.outStart_kept {c0 : Cfg} {q0 : List Instr} (s : State) (o : Nat) (h0 : Kept c0 q0 s) :
    Kept c0 q0 (State.outStart s o) := by
  unfold State.outStart
  repeat' (with_reducible first | assumption | apply State.bump_kept | apply State.setPair_kept | apply State.setOut_kept | apply State.showOut_kept | apply State.wearCheck_kept | intro _ | apply Kept.ite | apply Kept.foldS | split)

theorem State.firePulse_kept {c0 : Cfg} {q0 : List Instr} (s : State) (i : Nat) (e : AuEntry) (from_ : Nat) (h0 : Kept c0 q0 s) :
    Kept c0 q0 (State.firePulse s i e from_) := by
  unfold State.firePulse
  repeat' (with_reducible first | assumption | apply State.post_kept | apply State.setTable_kept | apply State.outStart_kept)

theorem State.discardEvent_kept {c0 : Cfg} {q0 : List Instr} (s : State) (o cause : Nat) (tag : Nat) (h0 : Kept c0 q0 s) :
    Kept c0 q0 (State.discardEvent s o cause tag) := by
  unfold State.discardEvent
  repeat' (with_reducible first | assumption | apply State.bump_kept | apply State.postLim_kept)

theorem State.refusePost_kept {c0 : Cfg} {q0 : List Instr} (s : State) (src chip p st : Nat) (h0 : Kept c0 q0 s) :
    Kept c0 q0 (State.refusePost s src chip p st) := by
  unfold State.refusePost
  repeat' (with_reducible first | assumption | apply State.bump_kept | apply State.postLim_kept | apply State.discardEvent_kept | intro _ | apply Kept.ite | apply Kept.foldS | split)

theorem State.submitPost_kept {c0 : Cfg} {q0 : List Instr} (s : State) (src chip p : Nat) (h0 : Kept c0 q0 s) :
    Kept c0 q0 (State.submitPost s src chip p).2.2 := by
  unfold State.submitPost
  repeat' (with_reducible first | assumption | apply hx | apply State.bump_kept | apply State.post_kept | apply State.postLim_kept | apply State.setTable_kept | apply State.firePulse_kept | apply State.refusePost_kept | intro _ | apply Kept.ite | apply Kept.foldS | simp -zeta only [↓Kept.mk_iff] | (extract_lets +onlyGivenNames x; first | (refine Kept.cut (P := Kept c0 q0 x) ?_ ?_; rotate_left; (intro _; clear_value x); rotate_left; unfold x; clear x) | (refine Kept.cut (P := ∀ y, Kept c0 q0 y → Kept c0 q0 (x y)) ?_ ?_; rotate_left; (intro hx; clear_value x); rotate_left; unfold x; clear x) | (refine Kept.cut (P := ∀ y a, Kept c0 q0 y → Kept c0 q0 (x y a)) ?_ ?_; rotate_left; (intro hx; clear_value x); rotate_left; unfold x; clear x) | (refine Kept.cut (P := ∀ a y, Kept c0 q0 y → Kept c0 q0 (x a y)) ?_ ?_; rotate_left; (intro hx; clear_value x); rotate_left; unfold x; clear x) | (refine Kept.cut (P := ∀ a, Kept c0 q0 (x a)) ?_ ?_; rotate_left; (intro hx; clear_value x); rotate_left; unfold x; clear x) | (refine Kept.cut (P := ∀ a, Kept c0 q0 (x a).2.2) ?_ ?_; rotate_left; (intro hx; clear_value x); rotate_left; unfold x; clear x) | (refine Kept.cut (P := ∀ a, Kept c0 q0 (x a).2) ?_ ?_; rotate_left; (intro hx; clear_value x); rotate_left; unfold x; clear x) | (refine Kept.cut (P := ∀ a b, Kept c0 q0 (x a b)) ?_ ?_; rotate_left; (intro hx; clear_value x); rotate_left; unfold x; clear x) | (refine Kept.cut (P := ∀ y a b, Kept c0 q0 y → Kept c0 q0 (x y a b)) ?_ ?_; rotate_left; (intro hx; clear_value x); rotate_left; unfold x; clear x) | (refine Kept.cut (P := Kept c0 q0 x.2) ?_ ?_; rotate_left; (intro hx; clear_value x); rotate_left; unfold x; clear x) | (refine Kept.cut (P := Kept c0 q0 x.1) ?_ ?_; rotate_left; (intro hx; clear_value x); rotate_left; unfold x; clear x) | (refine Kept.cut (P := Kept c0 q0 x.2.2) ?_ ?_; rotate_left; (intro hx; clear_value x); rotate_left; unfold x; clear x) | (refine Kept.cut (P := Kept c0 q0 x.2.1) ?_ ?_; rotate_left; (intro hx; clear_value x); rotate_left; unfold x; clear x) | clear_value x) | split)

theorem State.guardCycle_kept {c0 : Cfg} {q0 : List Instr} (s : State) (ch : Nat) (reanchor : Bool) (h0 : Kept c0 q0 s) :
    Kept c0 q0 (State.guardCycle s ch reanchor) := by
  unfold State.guardCycle
  repeat' (with_reducible first | assumption | apply State.post_kept | intro _ | apply Kept.ite | apply Kept.foldS | simp -zeta only [↓Kept.mk_iff] | (extract_lets +onlyGivenNames x; first | (refine Kept.cut (P := Kept c0 q0 x) ?_ ?_; rotate_left; (intro _; clear_value x); rotate_left; unfold x; clear x) | clear_value x) | split)

theorem State.holdPredictions_kept {c0 : Cfg} {q0 : List Instr} (s : State) (ch : Nat) (h0 : Kept c0 q0 s) :
    Kept c0 q0 (State.holdPredictions s ch) := by
  unfold State.holdPredictions
  repeat' (with_reducible first | assumption | apply State.post_kept | simp -zeta only [↓Kept.mk_iff])

theorem State.fireEntry_kept {c0 : Cfg} {q0 : List Instr} (s : State) (i : Nat) (e : AuEntry) (source : Nat) (h0 : Kept c0 q0 s) :
    Kept c0 q0 (State.fireEntry s i e source) := by
  unfold State.fireEntry
  repeat' (with_reducible first | assumption | apply State.bump_kept | apply State.post_kept | apply State.postLim_kept | apply State.firePulse_kept | intro _ | apply Kept.ite | apply Kept.foldS | split)

theorem State.endPulse_kept {c0 : Cfg} {q0 : List Instr} (s : State) (i : Nat) (e : AuEntry) (h0 : Kept c0 q0 s) :
    Kept c0 q0 (State.endPulse s i e) := by
  unfold State.endPulse
  repeat' (with_reducible first | assumption | apply State.post_kept | apply State.setOut_kept | apply State.setTable_kept | apply State.outIdle_kept | intro _ | apply Kept.ite | apply Kept.foldS | split)

theorem State.freeEntries_kept {c0 : Cfg} {q0 : List Instr} (s : State) (p : AuEntry → Bool) (h0 : Kept c0 q0 s) :
    Kept c0 q0 (State.freeEntries s p).2 := by
  unfold State.freeEntries
  repeat' (with_reducible first | assumption | apply State.setTable_kept)

theorem State.discardPending_kept {c0 : Cfg} {q0 : List Instr} (s : State) (p : AuEntry → Bool) (cause : Nat) (o : Option Nat) (h0 : Kept c0 q0 s) :
    Kept c0 q0 (State.discardPending s p cause o) := by
  unfold State.discardPending
  repeat' (with_reducible first | assumption | apply State.bump_kept | apply State.postLim_kept | apply State.freeEntries_kept | intro _ | apply Kept.ite | apply Kept.foldS | split)

theorem State.endAllPulses_kept {c0 : Cfg} {q0 : List Instr} (s : State) (h0 : Kept c0 q0 s) :
    Kept c0 q0 (State.endAllPulses s) := by
  unfold State.endAllPulses
  repeat' (with_reducible first | assumption | apply State.setOut_kept | apply State.outIdle_kept | apply State.freeEntries_kept | intro _ | apply Kept.ite | apply Kept.foldS | split)

theorem State.actStop_kept {c0 : Cfg} {q0 : List Instr} (s : State) (report : Bool) (h0 : Kept c0 q0 s) :
    Kept c0 q0 (State.actStop s report) := by
  unfold State.actStop
  repeat' (with_reducible first | assumption | apply hx | apply State.bump_kept | apply State.freeEntries_kept | apply State.discardPending_kept | apply State.endAllPulses_kept | intro _ | apply Kept.ite | apply Kept.foldS | simp -zeta only [↓Kept.mk_iff] | (extract_lets +onlyGivenNames x; first | (refine Kept.cut (P := Kept c0 q0 x) ?_ ?_; rotate_left; (intro _; clear_value x); rotate_left; unfold x; clear x) | (refine Kept.cut (P := ∀ y, Kept c0 q0 y → Kept c0 q0 (x y)) ?_ ?_; rotate_left; (intro hx; clear_value x); rotate_left; unfold x; clear x) | (refine Kept.cut (P := ∀ y a, Kept c0 q0 y → Kept c0 q0 (x y a)) ?_ ?_; rotate_left; (intro hx; clear_value x); rotate_left; unfold x; clear x) | (refine Kept.cut (P := ∀ a y, Kept c0 q0 y → Kept c0 q0 (x a y)) ?_ ?_; rotate_left; (intro hx; clear_value x); rotate_left; unfold x; clear x) | (refine Kept.cut (P := ∀ a, Kept c0 q0 (x a)) ?_ ?_; rotate_left; (intro hx; clear_value x); rotate_left; unfold x; clear x) | (refine Kept.cut (P := ∀ a, Kept c0 q0 (x a).2.2) ?_ ?_; rotate_left; (intro hx; clear_value x); rotate_left; unfold x; clear x) | (refine Kept.cut (P := ∀ a, Kept c0 q0 (x a).2) ?_ ?_; rotate_left; (intro hx; clear_value x); rotate_left; unfold x; clear x) | (refine Kept.cut (P := ∀ a b, Kept c0 q0 (x a b)) ?_ ?_; rotate_left; (intro hx; clear_value x); rotate_left; unfold x; clear x) | (refine Kept.cut (P := ∀ y a b, Kept c0 q0 y → Kept c0 q0 (x y a b)) ?_ ?_; rotate_left; (intro hx; clear_value x); rotate_left; unfold x; clear x) | (refine Kept.cut (P := Kept c0 q0 x.2) ?_ ?_; rotate_left; (intro hx; clear_value x); rotate_left; unfold x; clear x) | (refine Kept.cut (P := Kept c0 q0 x.1) ?_ ?_; rotate_left; (intro hx; clear_value x); rotate_left; unfold x; clear x) | (refine Kept.cut (P := Kept c0 q0 x.2.2) ?_ ?_; rotate_left; (intro hx; clear_value x); rotate_left; unfold x; clear x) | (refine Kept.cut (P := Kept c0 q0 x.2.1) ?_ ?_; rotate_left; (intro hx; clear_value x); rotate_left; unfold x; clear x) | clear_value x) | split)

theorem State.reportResetDiscards_kept {c0 : Cfg} {q0 : List Instr} (s : State) (h0 : Kept c0 q0 s) :
    Kept c0 q0 (State.reportResetDiscards s) := by
  unfold State.reportResetDiscards
  repeat' (with_reducible first | assumption | apply State.post_kept | intro _ | apply Kept.ite | apply Kept.foldS | simp -zeta only [↓Kept.mk_iff] | split)

theorem State.cancelEntry_kept {c0 : Cfg} {q0 : List Instr} (s : State) (i : Nat) (h0 : Kept c0 q0 s) :
    Kept c0 q0 (State.cancelEntry s i).2 := by
  unfold State.cancelEntry
  repeat' (with_reducible first | assumption | apply State.setTable_kept | apply State.endPulse_kept | intro _ | apply Kept.ite | apply Kept.foldS | split)

theorem State.cancelMany_kept {c0 : Cfg} {q0 : List Instr} (s : State) (l : List Nat) (h0 : Kept c0 q0 s) :
    Kept c0 q0 (s.cancelMany l).2 := by
  unfold State.cancelMany
  have key : ∀ (l : List Nat) (r : Nat × State), Kept c0 q0 r.2 →
      Kept c0 q0 (l.foldl (fun r i => let q := r.2.cancelEntry i; (worseCancel r.1 q.1, q.2)) r).2 := by
    intro l
    induction l with
    | nil => exact fun _ h => h
    | cons a l ih => exact fun r h => ih _ (State.cancelEntry_kept _ _ h)
  exact key l _ h0

theorem State.auRange_kept {c0 : Cfg} {q0 : List Instr} (s : State) (r : RegSpec) (ix : List Nat) (v : Nat) (h0 : Kept c0 q0 s) :
    Kept c0 q0 (State.auRange s r ix v) := by
  unfold State.auRange
  repeat' (with_reducible first | assumption | apply State.postLim_kept | intro _ | apply Kept.ite | apply Kept.foldS | split)

theorem State.auCtlWrite_kept {c0 : Cfg} {q0 : List Instr} (s : State) (src : Src) (v : Nat) (h0 : Kept c0 q0 s) :
    Kept c0 q0 (State.auCtlWrite s src v) := by
  unfold State.auCtlWrite
  repeat' (with_reducible first | assumption | apply State.paramWrite_kept | apply State.discardPending_kept | apply State.endAllPulses_kept | apply State.auRange_kept | intro _ | apply Kept.ite | apply Kept.foldS | simp -zeta only [↓Kept.mk_iff] | split)

theorem State.auOutCfgWrite_kept {c0 : Cfg} {q0 : List Instr} (s : State) (src : Src) (o v : Nat) (h0 : Kept c0 q0 s) :
    Kept c0 q0 (State.auOutCfgWrite s src o v) := by
  unfold State.auOutCfgWrite
  repeat' (with_reducible first | assumption | apply State.post_kept | apply State.paramWrite_kept | apply State.setOut_kept | apply State.outIdle_kept | apply State.freeEntries_kept | apply State.discardPending_kept | apply State.auRange_kept | intro _ | apply Kept.ite | apply Kept.foldS | split)

theorem State.auPost_kept {c0 : Cfg} {q0 : List Instr} (s : State) (w7 : Nat) (h0 : Kept c0 q0 s) :
    Kept c0 q0 (State.auPost s w7) := by
  unfold State.auPost
  repeat' (with_reducible first | assumption | apply State.setRegWord_kept | apply State.put_kept | apply State.hostAbandon_kept | apply State.submitPost_kept | intro _ | apply Kept.ite | apply Kept.foldS | split)

theorem State.auMpost_kept {c0 : Cfg} {q0 : List Instr} (s : State) (w7 : Nat) (h0 : Kept c0 q0 s) :
    Kept c0 q0 (State.auMpost s w7) := by
  unfold State.auMpost
  repeat' (with_reducible first | assumption | apply State.submitPost_kept | apply State.setRegWord_kept | apply State.put_kept | intro _ | apply Kept.ite | apply Kept.foldS | simp -zeta only [↓Kept.mk_iff] | split)

theorem State.auCancel_kept {c0 : Cfg} {q0 : List Instr} (s : State) (entry : Nat) (all : Bool) (h0 : Kept c0 q0 s) :
    Kept c0 q0 (State.auCancel s entry all) := by
  unfold State.auCancel
  repeat' (with_reducible first | assumption | apply State.put_kept | apply State.cancelEntry_kept | apply State.cancelMany_kept | intro _ | apply Kept.ite | apply Kept.foldS | split)

theorem State.auCancelOut_kept {c0 : Cfg} {q0 : List Instr} (s : State) (o : Nat) (h0 : Kept c0 q0 s) :
    Kept c0 q0 (State.auCancelOut s o) := by
  unfold State.auCancelOut
  repeat' (with_reducible first | assumption | apply State.cancelMany_kept | apply State.put_kept | apply State.post_kept | intro _ | apply Kept.ite | apply Kept.foldS | simp -zeta only [↓Kept.mk_iff] | split)

theorem State.setCore_kept {c0 : Cfg} {q0 : List Instr} (s : State) (c : Nat) (x : Core) (h0 : Kept c0 q0 s) :
    Kept c0 q0 (State.setCore s c x) :=
  h0

theorem State.showCore_kept {c0 : Cfg} {q0 : List Instr} (s : State) (c : Nat) (h0 : Kept c0 q0 s) :
    Kept c0 q0 (State.showCore s c) := by
  unfold State.showCore
  repeat' (with_reducible first | assumption | apply State.put_kept)

theorem State.showEng_kept {c0 : Cfg} {q0 : List Instr} (s : State) (c e : Nat) (h0 : Kept c0 q0 s) :
    Kept c0 q0 (State.showEng s c e) := by
  unfold State.showEng
  repeat' (with_reducible first | assumption | apply State.put_kept | intro _ | apply Kept.ite | apply Kept.foldS | simp -zeta only [↓Kept.mk_iff] | (extract_lets +onlyGivenNames x; first | (refine Kept.cut (P := Kept c0 q0 x) ?_ ?_; rotate_left; (intro _; clear_value x); rotate_left; unfold x; clear x) | clear_value x) | split)

theorem State.setEng_kept {c0 : Cfg} {q0 : List Instr} (s : State) (c e : Nat) (x : Engine) (h0 : Kept c0 q0 s) :
    Kept c0 q0 (State.setEng s c e x) := by
  unfold State.setEng
  repeat' (with_reducible first | assumption | apply State.setCore_kept | apply State.showCore_kept | apply State.showEng_kept)

theorem State.noteFreq_kept {c0 : Cfg} {q0 : List Instr} (s : State) (c : Nat) (h0 : Kept c0 q0 s) :
    Kept c0 q0 (State.noteFreq s c) := by
  unfold State.noteFreq
  repeat' (with_reducible first | assumption | apply State.setCore_kept | intro _ | apply Kept.ite | apply Kept.foldS | simp -zeta only [↓Kept.mk_iff] | split)

theorem State.setSync_kept {c0 : Cfg} {q0 : List Instr} (s : State) (c n v : Nat) (h0 : Kept c0 q0 s) :
    Kept c0 q0 (State.setSync s c n v) := by
  unfold State.setSync
  repeat' (with_reducible first | assumption | apply State.setCore_kept)

theorem State.syncWrite_kept {c0 : Cfg} {q0 : List Instr} (s : State) (c n v : Nat) (h0 : Kept c0 q0 s) :
    Kept c0 q0 (State.syncWrite s c n v) := by
  unfold State.syncWrite
  repeat' (with_reducible first | assumption | apply State.setCore_kept | apply State.setSync_kept | intro _ | apply Kept.ite | apply Kept.foldS | simp -zeta only [↓Kept.mk_iff] | split)

theorem State.showWin_kept {c0 : Cfg} {q0 : List Instr} (s : State) (c k : Nat) (h0 : Kept c0 q0 s) :
    Kept c0 q0 (State.showWin s c k) := by
  unfold State.showWin
  repeat' (with_reducible first | assumption | apply State.setRegWord_kept | intro _ | apply Kept.ite | apply Kept.foldS | split)

theorem State.pick_kept {c0 : Cfg} {q0 : List Instr} (s : State) (l : List Nat) (h0 : Kept c0 q0 s) :
    Kept c0 q0 (State.pick s l).2 := by
  unfold State.pick
  repeat' (with_reducible first | assumption | apply State.draw_kept)

theorem State.zeroSync_kept {c0 : Cfg} {q0 : List Instr} (s : State) (c base n : Nat) (h0 : Kept c0 q0 s) :
    Kept c0 q0 (State.zeroSync s c base n) := by
  unfold State.zeroSync
  repeat' (with_reducible first | assumption | apply State.setCore_kept)

theorem State.lend_kept {c0 : Cfg} {q0 : List Instr} (s : State) (c job n : Nat) (h0 : Kept c0 q0 s) :
    Kept c0 q0 (State.lend s c job n) := by
  unfold State.lend
  repeat' (with_reducible first | assumption | apply State.setCore_kept | apply State.showWin_kept | apply State.pick_kept | apply State.zeroSync_kept | intro _ | apply Kept.ite | apply Kept.foldS | split)

theorem State.reclaim_kept {c0 : Cfg} {q0 : List Instr} (s : State) (c : Nat) (h0 : Kept c0 q0 s) :
    Kept c0 q0 (State.reclaim s c) := by
  unfold State.reclaim
  repeat' (with_reducible first | assumption | apply State.setCore_kept | apply State.showWin_kept | intro _ | apply Kept.ite | apply Kept.foldS | split)

theorem State.closeWindows_kept {c0 : Cfg} {q0 : List Instr} (s : State) (job : Nat) (h0 : Kept c0 q0 s) :
    Kept c0 q0 (State.closeWindows s job) := by
  unfold State.closeWindows
  repeat' (with_reducible first | assumption | apply State.setCore_kept | apply State.reclaim_kept | intro _ | apply Kept.ite | apply Kept.foldS | split)

theorem State.stepEnded_kept {c0 : Cfg} {q0 : List Instr} (s : State) (g : Group) (status : Nat) (h0 : Kept c0 q0 s) :
    Kept c0 q0 (State.stepEnded s g status) := by
  unfold State.stepEnded
  repeat' (with_reducible first | assumption | intro _ | apply Kept.ite | apply Kept.foldS | simp -zeta only [↓Kept.mk_iff] | (extract_lets +onlyGivenNames x; first | (refine Kept.cut (P := Kept c0 q0 x) ?_ ?_; rotate_left; (intro _; clear_value x); rotate_left; unfold x; clear x) | clear_value x) | split)

theorem State.finishGroup_kept {c0 : Cfg} {q0 : List Instr} (s : State) (g : Group) (job : Option (Nat × Job)) (status cause : Nat) (h0 : Kept c0 q0 s) :
    Kept c0 q0 (State.finishGroup s g job status cause) := by
  unfold State.finishGroup
  repeat' (with_reducible first | assumption | apply State.stepEnded_kept | simp -zeta only [↓Kept.mk_iff])

theorem State.refuseGroup_kept {c0 : Cfg} {q0 : List Instr} (s : State) (g : Group) (status : Nat) (h0 : Kept c0 q0 s) :
    Kept c0 q0 (State.refuseGroup s g status) := by
  unfold State.refuseGroup
  repeat' (with_reducible first | assumption | apply State.bump_kept | apply State.post_kept | apply State.pcCount_kept | apply State.finishGroup_kept)

theorem State.showDs_kept {c0 : Cfg} {q0 : List Instr} (s : State) (h0 : Kept c0 q0 s) :
    Kept c0 q0 (State.showDs s) := by
  unfold State.showDs
  repeat' (with_reducible first | assumption | apply State.put_kept)

theorem State.modJob_kept {c0 : Cfg} {q0 : List Instr} (s : State) (t : Nat) (f : Job → Job) (h0 : Kept c0 q0 s) :
    Kept c0 q0 (State.modJob s t f) := by
  unfold State.modJob
  repeat' (with_reducible first | assumption | intro _ | apply Kept.ite | apply Kept.foldS | simp -zeta only [↓Kept.mk_iff] | split)

theorem State.beRound_kept {c0 : Cfg} {q0 : List Instr} (s : State) (h0 : Kept c0 q0 s) :
    Kept c0 q0 (State.beRound s) := by
  unfold State.beRound
  repeat' (with_reducible first | assumption | intro _ | apply Kept.ite | apply Kept.foldS | simp -zeta only [↓Kept.mk_iff] | split)

theorem State.refreshRanks_kept {c0 : Cfg} {q0 : List Instr} (s : State) (h0 : Kept c0 q0 s) :
    Kept c0 q0 (State.refreshRanks s) := by
  unfold State.refreshRanks
  repeat' (with_reducible first | assumption | apply State.beRound_kept | intro _ | apply Kept.ite | apply Kept.foldS | simp -zeta only [↓Kept.mk_iff] | (extract_lets +onlyGivenNames x; first | (refine Kept.cut (P := Kept c0 q0 x) ?_ ?_; rotate_left; (intro _; clear_value x); rotate_left; unfold x; clear x) | clear_value x) | split)

theorem State.purgeQueues_kept {c0 : Cfg} {q0 : List Instr} (s : State) (t : Nat) (h0 : Kept c0 q0 s) :
    Kept c0 q0 (State.purgeQueues s t) := by
  unfold State.purgeQueues
  repeat' (with_reducible first | assumption | apply State.setEng_kept | apply State.modJob_kept | intro _ | apply Kept.ite | apply Kept.foldS | split)

theorem State.endJob_kept {c0 : Cfg} {q0 : List Instr} (s : State) (t : Nat) (j : Job) (status cause : Nat) (h0 : Kept c0 q0 s) :
    Kept c0 q0 (State.endJob s t j status cause) := by
  unfold State.endJob
  repeat' (with_reducible first | assumption | apply State.closeWindows_kept | apply State.finishGroup_kept | apply State.showDs_kept | apply State.refreshRanks_kept | simp -zeta only [↓Kept.mk_iff])

theorem State.jobCheck_kept {c0 : Cfg} {q0 : List Instr} (s : State) (t : Nat) (h0 : Kept c0 q0 s) :
    Kept c0 q0 (State.jobCheck s t) := by
  unfold State.jobCheck
  repeat' (with_reducible first | assumption | apply State.endJob_kept | intro _ | apply Kept.ite | apply Kept.foldS | split)

theorem State.faultJob_kept {c0 : Cfg} {q0 : List Instr} (s : State) (t code : Nat) (h0 : Kept c0 q0 s) :
    Kept c0 q0 (State.faultJob s t code) := by
  unfold State.faultJob
  repeat' (with_reducible first | assumption | apply State.modJob_kept | apply State.purgeQueues_kept | apply State.jobCheck_kept)

theorem State.expireJob_kept {c0 : Cfg} {q0 : List Instr} (s : State) (t : Nat) (h0 : Kept c0 q0 s) :
    Kept c0 q0 (State.expireJob s t) := by
  unfold State.expireJob
  repeat' (with_reducible first | assumption | apply State.bump_kept | apply State.post_kept | apply State.pcCount_kept | apply State.modJob_kept | apply State.purgeQueues_kept | apply State.jobCheck_kept | intro _ | apply Kept.ite | apply Kept.foldS | split)

theorem State.segmentDone_kept {c0 : Cfg} {q0 : List Instr} (s : State) (t : Nat) (h0 : Kept c0 q0 s) :
    Kept c0 q0 (State.segmentDone s t) := by
  unfold State.segmentDone
  repeat' (with_reducible first | assumption | apply State.modJob_kept | apply State.jobCheck_kept | apply State.expireJob_kept)

theorem State.dropRun_kept {c0 : Cfg} {q0 : List Instr} (s : State) (c e : Nat) (h0 : Kept c0 q0 s) :
    Kept c0 q0 (State.dropRun s c e) := by
  unfold State.dropRun
  repeat' (with_reducible first | assumption | apply State.setEng_kept)

theorem State.faultRun_kept {c0 : Cfg} {q0 : List Instr} (s : State) (c e code : Nat) (h0 : Kept c0 q0 s) :
    Kept c0 q0 (State.faultRun s c e code) := by
  unfold State.faultRun
  repeat' (with_reducible first | assumption | apply State.modJob_kept | apply State.faultJob_kept | apply State.dropRun_kept | intro _ | apply Kept.ite | apply Kept.foldS | split)

theorem State.exception_kept {c0 : Cfg} {q0 : List Instr} (s : State) (c e code : Nat) (ix : Nat) (h0 : Kept c0 q0 s) :
    Kept c0 q0 (State.exception s c e code ix) := by
  unfold State.exception
  repeat' (with_reducible first | assumption | apply State.post_kept | apply State.faultRun_kept | intro _ | apply Kept.ite | apply Kept.foldS | split)

theorem State.scratchEcc_kept {c0 : Cfg} {q0 : List Instr} (s : State) (c a cause : Nat) (h0 : Kept c0 q0 s) :
    Kept c0 q0 (State.scratchEcc s c a cause) := by
  unfold State.scratchEcc
  repeat' (with_reducible first | assumption | apply State.post_kept | intro _ | apply Kept.ite | apply Kept.foldS | simp -zeta only [↓Kept.mk_iff] | split)

theorem State.eccBad_kept {c0 : Cfg} {q0 : List Instr} (s : State) (a source : Nat) (h0 : Kept c0 q0 s) :
    Kept c0 q0 (State.eccBad s a source) := by
  unfold State.eccBad
  repeat' (with_reducible first | assumption | apply hx | apply State.scratchEcc_kept | apply State.put_kept | apply State.bump_kept | apply State.postLim_kept | intro _ | apply Kept.ite | apply Kept.foldS | simp -zeta only [↓Kept.mk_iff] | (extract_lets +onlyGivenNames x; first | (refine Kept.cut (P := Kept c0 q0 x) ?_ ?_; rotate_left; (intro _; clear_value x); rotate_left; unfold x; clear x) | (refine Kept.cut (P := ∀ y, Kept c0 q0 y → Kept c0 q0 (x y)) ?_ ?_; rotate_left; (intro hx; clear_value x); rotate_left; unfold x; clear x) | (refine Kept.cut (P := ∀ y a, Kept c0 q0 y → Kept c0 q0 (x y a)) ?_ ?_; rotate_left; (intro hx; clear_value x); rotate_left; unfold x; clear x) | (refine Kept.cut (P := ∀ a y, Kept c0 q0 y → Kept c0 q0 (x a y)) ?_ ?_; rotate_left; (intro hx; clear_value x); rotate_left; unfold x; clear x) | (refine Kept.cut (P := ∀ a, Kept c0 q0 (x a)) ?_ ?_; rotate_left; (intro hx; clear_value x); rotate_left; unfold x; clear x) | (refine Kept.cut (P := ∀ a, Kept c0 q0 (x a).2.2) ?_ ?_; rotate_left; (intro hx; clear_value x); rotate_left; unfold x; clear x) | (refine Kept.cut (P := ∀ a, Kept c0 q0 (x a).2) ?_ ?_; rotate_left; (intro hx; clear_value x); rotate_left; unfold x; clear x) | (refine Kept.cut (P := ∀ a b, Kept c0 q0 (x a b)) ?_ ?_; rotate_left; (intro hx; clear_value x); rotate_left; unfold x; clear x) | (refine Kept.cut (P := ∀ y a b, Kept c0 q0 y → Kept c0 q0 (x y a b)) ?_ ?_; rotate_left; (intro hx; clear_value x); rotate_left; unfold x; clear x) | (refine Kept.cut (P := Kept c0 q0 x.2) ?_ ?_; rotate_left; (intro hx; clear_value x); rotate_left; unfold x; clear x) | (refine Kept.cut (P := Kept c0 q0 x.1) ?_ ?_; rotate_left; (intro hx; clear_value x); rotate_left; unfold x; clear x) | (refine Kept.cut (P := Kept c0 q0 x.2.2) ?_ ?_; rotate_left; (intro hx; clear_value x); rotate_left; unfold x; clear x) | (refine Kept.cut (P := Kept c0 q0 x.2.1) ?_ ?_; rotate_left; (intro hx; clear_value x); rotate_left; unfold x; clear x) | clear_value x) | split)

theorem State.markSoft_kept {c0 : Cfg} {q0 : List Instr} (s : State) (w : Nat) (h0 : Kept c0 q0 s) :
    Kept c0 q0 (State.markSoft s w) := by
  unfold State.markSoft
  repeat' (with_reducible first | assumption | intro _ | apply Kept.ite | apply Kept.foldS | simp -zeta only [↓Kept.mk_iff] | split)

theorem State.eccFixed_kept {c0 : Cfg} {q0 : List Instr} (s : State) (a : Nat) (who : Option (Nat × Nat)) (h0 : Kept c0 q0 s) :
    Kept c0 q0 (State.eccFixed s a who) := by
  unfold State.eccFixed
  repeat' (with_reducible first | assumption | apply hx | apply State.scratchEcc_kept | apply State.bump_kept | apply State.post_kept | intro _ | apply Kept.ite | apply Kept.foldS | simp -zeta only [↓Kept.mk_iff] | (extract_lets +onlyGivenNames x; first | (refine Kept.cut (P := Kept c0 q0 x) ?_ ?_; rotate_left; (intro _; clear_value x); rotate_left; unfold x; clear x) | (refine Kept.cut (P := ∀ y, Kept c0 q0 y → Kept c0 q0 (x y)) ?_ ?_; rotate_left; (intro hx; clear_value x); rotate_left; unfold x; clear x) | (refine Kept.cut (P := ∀ y a, Kept c0 q0 y → Kept c0 q0 (x y a)) ?_ ?_; rotate_left; (intro hx; clear_value x); rotate_left; unfold x; clear x) | (refine Kept.cut (P := ∀ a y, Kept c0 q0 y → Kept c0 q0 (x a y)) ?_ ?_; rotate_left; (intro hx; clear_value x); rotate_left; unfold x; clear x) | (refine Kept.cut (P := ∀ a, Kept c0 q0 (x a)) ?_ ?_; rotate_left; (intro hx; clear_value x); rotate_left; unfold x; clear x) | (refine Kept.cut (P := ∀ a, Kept c0 q0 (x a).2.2) ?_ ?_; rotate_left; (intro hx; clear_value x); rotate_left; unfold x; clear x) | (refine Kept.cut (P := ∀ a, Kept c0 q0 (x a).2) ?_ ?_; rotate_left; (intro hx; clear_value x); rotate_left; unfold x; clear x) | (refine Kept.cut (P := ∀ a b, Kept c0 q0 (x a b)) ?_ ?_; rotate_left; (intro hx; clear_value x); rotate_left; unfold x; clear x) | (refine Kept.cut (P := ∀ y a b, Kept c0 q0 y → Kept c0 q0 (x y a b)) ?_ ?_; rotate_left; (intro hx; clear_value x); rotate_left; unfold x; clear x) | (refine Kept.cut (P := Kept c0 q0 x.2) ?_ ?_; rotate_left; (intro hx; clear_value x); rotate_left; unfold x; clear x) | (refine Kept.cut (P := Kept c0 q0 x.1) ?_ ?_; rotate_left; (intro hx; clear_value x); rotate_left; unfold x; clear x) | (refine Kept.cut (P := Kept c0 q0 x.2.2) ?_ ?_; rotate_left; (intro hx; clear_value x); rotate_left; unfold x; clear x) | (refine Kept.cut (P := Kept c0 q0 x.2.1) ?_ ?_; rotate_left; (intro hx; clear_value x); rotate_left; unfold x; clear x) | clear_value x) | split)

theorem State.eccRead_kept {c0 : Cfg} {q0 : List Instr} (s : State) (c e a n : Nat) (h0 : Kept c0 q0 s) :
    Kept c0 q0 (State.eccRead s c e a n) := by
  unfold State.eccRead
  repeat' (with_reducible first | assumption | apply State.eccFixed_kept | intro _ | apply Kept.ite | apply Kept.foldS | simp -zeta only [↓Kept.mk_iff] | split)

theorem State.eccWrite_kept {c0 : Cfg} {q0 : List Instr} (s : State) (c e a n : Nat) (h0 : Kept c0 q0 s) :
    Kept c0 q0 (State.eccWrite s c e a n) := by
  unfold State.eccWrite
  repeat' (with_reducible first | assumption | apply hx | apply State.eccFixed_kept | intro _ | apply Kept.ite | apply Kept.foldS | simp -zeta only [↓Kept.mk_iff] | (extract_lets +onlyGivenNames x; first | (refine Kept.cut (P := Kept c0 q0 x) ?_ ?_; rotate_left; (intro _; clear_value x); rotate_left; unfold x; clear x) | (refine Kept.cut (P := ∀ y, Kept c0 q0 y → Kept c0 q0 (x y)) ?_ ?_; rotate_left; (intro hx; clear_value x); rotate_left; unfold x; clear x) | (refine Kept.cut (P := ∀ y a, Kept c0 q0 y → Kept c0 q0 (x y a)) ?_ ?_; rotate_left; (intro hx; clear_value x); rotate_left; unfold x; clear x) | (refine Kept.cut (P := ∀ a y, Kept c0 q0 y → Kept c0 q0 (x a y)) ?_ ?_; rotate_left; (intro hx; clear_value x); rotate_left; unfold x; clear x) | (refine Kept.cut (P := ∀ a, Kept c0 q0 (x a)) ?_ ?_; rotate_left; (intro hx; clear_value x); rotate_left; unfold x; clear x) | (refine Kept.cut (P := ∀ a, Kept c0 q0 (x a).2.2) ?_ ?_; rotate_left; (intro hx; clear_value x); rotate_left; unfold x; clear x) | (refine Kept.cut (P := ∀ a, Kept c0 q0 (x a).2) ?_ ?_; rotate_left; (intro hx; clear_value x); rotate_left; unfold x; clear x) | (refine Kept.cut (P := ∀ a b, Kept c0 q0 (x a b)) ?_ ?_; rotate_left; (intro hx; clear_value x); rotate_left; unfold x; clear x) | (refine Kept.cut (P := ∀ y a b, Kept c0 q0 y → Kept c0 q0 (x y a b)) ?_ ?_; rotate_left; (intro hx; clear_value x); rotate_left; unfold x; clear x) | (refine Kept.cut (P := Kept c0 q0 x.2) ?_ ?_; rotate_left; (intro hx; clear_value x); rotate_left; unfold x; clear x) | (refine Kept.cut (P := Kept c0 q0 x.1) ?_ ?_; rotate_left; (intro hx; clear_value x); rotate_left; unfold x; clear x) | (refine Kept.cut (P := Kept c0 q0 x.2.2) ?_ ?_; rotate_left; (intro hx; clear_value x); rotate_left; unfold x; clear x) | (refine Kept.cut (P := Kept c0 q0 x.2.1) ?_ ?_; rotate_left; (intro hx; clear_value x); rotate_left; unfold x; clear x) | clear_value x) | split)

theorem State.fetchBad_kept {c0 : Cfg} {q0 : List Instr} (s : State) (c e a n : Nat) (h0 : Kept c0 q0 s) :
    Kept c0 q0 (State.fetchBad s c e a n) := by
  unfold State.fetchBad
  repeat' (with_reducible first | assumption | apply State.exception_kept | apply State.eccBad_kept | intro _ | apply Kept.ite | apply Kept.foldS | simp -zeta only [↓Kept.mk_iff] | split)

theorem State.eccFault_kept {c0 : Cfg} {q0 : List Instr} (s : State) (c e a : Nat) (h0 : Kept c0 q0 s) :
    Kept c0 q0 (State.eccFault s c e a) := by
  unfold State.eccFault
  repeat' (with_reducible first | assumption | apply State.bump_kept | apply State.post_kept | apply State.faultRun_kept | intro _ | apply Kept.ite | apply Kept.foldS | split)

theorem State.sendSignal_kept {c0 : Cfg} {q0 : List Instr} (s : State) (g : Signal) (h0 : Kept c0 q0 s) :
    Kept c0 q0 (State.sendSignal s g) :=
  h0

theorem State.engSignal_kept {c0 : Cfg} {q0 : List Instr} (s : State) (c e : Nat) (d : Desc) (static : Bool) (ctr n : Nat) (toCore : Option Nat) (toChip : Option Nat) (h0 : Kept c0 q0 s) :
    Kept c0 q0 (State.engSignal s c e d static ctr n toCore toChip) := by
  unfold State.engSignal
  repeat' (with_reducible first | assumption | apply State.sendSignal_kept | intro _ | apply Kept.ite | apply Kept.foldS | split)

theorem State.tagIssue_kept {c0 : Cfg} {q0 : List Instr} (s : State) (c e op : Nat) (held : Bool) (h0 : Kept c0 q0 s) :
    Kept c0 q0 (State.tagIssue s c e op held) := by
  unfold State.tagIssue
  repeat' (with_reducible first | assumption | apply State.bump_kept | intro _ | apply Kept.ite | apply Kept.foldS | simp -zeta only [↓Kept.mk_iff] | (extract_lets +onlyGivenNames x; first | (refine Kept.cut (P := Kept c0 q0 x) ?_ ?_; rotate_left; (intro _; clear_value x); rotate_left; unfold x; clear x) | clear_value x) | split)

theorem State.noteIssue_kept {c0 : Cfg} {q0 : List Instr} (s : State) (c e : Nat) (h0 : Kept c0 q0 s) :
    Kept c0 q0 (State.noteIssue s c e) := by
  unfold State.noteIssue
  repeat' (with_reducible first | assumption | apply State.setEng_kept | intro _ | apply Kept.ite | apply Kept.foldS | simp -zeta only [↓Kept.mk_iff] | (extract_lets +onlyGivenNames x; first | (refine Kept.cut (P := Kept c0 q0 x) ?_ ?_; rotate_left; (intro _; clear_value x); rotate_left; unfold x; clear x) | clear_value x) | split)

theorem State.retire_kept {c0 : Cfg} {q0 : List Instr} (s : State) (c e next : Nat) (fin : Bool) (h0 : Kept c0 q0 s) :
    Kept c0 q0 (State.retire s c e next fin) := by
  unfold State.retire
  repeat' (with_reducible first | assumption | apply State.pcCount_kept | apply State.setEng_kept | apply State.noteIssue_kept | intro _ | apply Kept.ite | apply Kept.foldS | simp -zeta only [↓Kept.mk_iff] | (extract_lets +onlyGivenNames x; first | (refine Kept.cut (P := Kept c0 q0 x) ?_ ?_; rotate_left; (intro _; clear_value x); rotate_left; unfold x; clear x) | clear_value x) | split)

end Sys2Proof.Machine
end

