-- ==== Sys2Proof/Laws/KeptCipher.lean ====
section
/-! SUPPORT. What every operation keeps (`Kept`): the cipher unit and the audit block. -/

namespace Sys2Proof.Machine

theorem State.cuFailed_kept {c0 : Cfg} {q0 : List Instr} (s : State) (port op status : Nat) (h0 : Kept c0 q0 s) :
    Kept c0 q0 (State.cuFailed s port op status) := by
  unfold State.cuFailed
  repeat' (with_reducible first | assumption | apply State.bump_kept | apply State.post_kept | intro _ | apply Kept.ite | apply Kept.foldS | split)

theorem State.cuRefused_kept {c0 : Cfg} {q0 : List Instr} (s : State) (port op status : Nat) (h0 : Kept c0 q0 s) :
    Kept c0 q0 (State.cuRefused s port op status) := by
  unfold State.cuRefused
  repeat' (with_reducible first | assumption | apply State.bump_kept | apply State.cuFailed_kept)

theorem State.cuShow_kept {c0 : Cfg} {q0 : List Instr} (s : State) (h0 : Kept c0 q0 s) :
    Kept c0 q0 (State.cuShow s) := by
  unfold State.cuShow
  repeat' (with_reducible first | assumption | apply State.put_kept)

theorem State.cuServe_kept {c0 : Cfg} {q0 : List Instr} (s : State) (h0 : Kept c0 q0 s) :
    Kept c0 q0 (State.cuServe s) := by
  unfold State.cuServe
  repeat' (with_reducible first | assumption | intro _ | apply Kept.ite | apply Kept.foldS | simp -zeta only [↓Kept.mk_iff] | split)

theorem State.cuYield_kept {c0 : Cfg} {q0 : List Instr} (s : State) (port : Nat) (h0 : Kept c0 q0 s) :
    Kept c0 q0 (State.cuYield s port) := by
  unfold State.cuYield
  repeat' (with_reducible first | assumption | apply State.cuServe_kept | intro _ | apply Kept.ite | apply Kept.foldS | simp -zeta only [↓Kept.mk_iff] | split)

theorem State.setFwOp_kept {c0 : Cfg} {q0 : List Instr} (s : State) (o : Option CuOp) (h0 : Kept c0 q0 s) :
    Kept c0 q0 (State.setFwOp s o) := by
  unfold State.setFwOp
  repeat' (with_reducible first | assumption | apply State.cuShow_kept | simp -zeta only [↓Kept.mk_iff])

theorem State.cuEnd_kept {c0 : Cfg} {q0 : List Instr} (s : State) (op status : Nat) (h0 : Kept c0 q0 s) :
    Kept c0 q0 (State.cuEnd s op status) := by
  unfold State.cuEnd
  repeat' (with_reducible first | assumption | apply State.put_kept | apply State.cuFailed_kept | apply State.cuYield_kept | apply State.setFwOp_kept | intro _ | apply Kept.ite | apply Kept.foldS | split)

theorem State.cuStartOp_kept {c0 : Cfg} {q0 : List Instr} (s : State) (o : CuOp) (h0 : Kept c0 q0 s) :
    Kept c0 q0 (State.cuStartOp s o) := by
  unfold State.cuStartOp
  repeat' (with_reducible first | assumption | apply State.put_kept | apply State.cuServe_kept | apply State.setFwOp_kept)

theorem State.cuBlock_kept {c0 : Cfg} {q0 : List Instr} (s : State) (ks : List (List Nat)) (h : Nat) (o : CuOp) (h0 : Kept c0 q0 s) :
    Kept c0 q0 (State.cuBlock s ks h o).1 := by
  unfold State.cuBlock
  repeat' (with_reducible first | assumption | apply State.writeMem_kept | intro _ | apply Kept.ite | apply Kept.foldS | simp -zeta only [↓Kept.mk_iff] | (extract_lets +onlyGivenNames x; first | (refine Kept.cut (P := Kept c0 q0 x) ?_ ?_; rotate_left; (intro _; clear_value x); rotate_left; unfold x; clear x) | clear_value x) | split)

theorem State.cuBlocks_kept {c0 : Cfg} {q0 : List Instr} (ks : List (List Nat)) (h n : Nat) (p : State × CuOp) (h0 : Kept c0 q0 p.1) :
    Kept c0 q0 (State.cuBlocks ks h n p).1 := by
  induction n generalizing p with
  | zero => exact h0
  | succ n ih =>
    unfold State.cuBlocks
    split
    · exact h0
    · exact ih _ (State.cuBlock_kept _ _ _ _ h0)

theorem State.cuAdvance_kept {c0 : Cfg} {q0 : List Instr} (s : State) (o : CuOp) (n : Nat) (h0 : Kept c0 q0 s) :
    Kept c0 q0 (s.cuAdvance o n).1 := by
  exact State.cuBlocks_kept _ _ _ (s, o) h0

theorem State.cuFinish_kept {c0 : Cfg} {q0 : List Instr} (s : State) (o : CuOp) (err : Bool) (h0 : Kept c0 q0 s) :
    Kept c0 q0 (State.cuFinish s o err) := by
  unfold State.cuFinish
  repeat' (with_reducible first | assumption | apply State.writeMem_kept | apply State.zeroMem_kept | apply State.cuEnd_kept | apply State.cuAdvance_kept | intro _ | apply Kept.ite | apply Kept.foldS | split)

theorem State.cuSave_kept {c0 : Cfg} {q0 : List Instr} (s : State) (v : Nat) (h0 : Kept c0 q0 s) :
    Kept c0 q0 (State.cuSave s v) := by
  unfold State.cuSave
  repeat' (with_reducible first | assumption | apply State.put_kept | apply State.writeMem_kept | apply State.cuFailed_kept | apply State.cuRefused_kept | apply State.cuEnd_kept | intro _ | apply Kept.ite | apply Kept.foldS | simp -zeta only [↓Kept.mk_iff] | split)

theorem State.cuRestore_kept {c0 : Cfg} {q0 : List Instr} (s : State) (v : Nat) (h0 : Kept c0 q0 s) :
    Kept c0 q0 (State.cuRestore s v) := by
  unfold State.cuRestore
  repeat' (with_reducible first | assumption | apply State.put_kept | apply State.cuFailed_kept | apply State.cuRefused_kept | apply State.setFwOp_kept | intro _ | apply Kept.ite | apply Kept.foldS | split)

theorem State.cuStart_kept {c0 : Cfg} {q0 : List Instr} (s : State) (src : Src) (v : Nat) (h0 : Kept c0 q0 s) :
    Kept c0 q0 (State.cuStart s src v) := by
  unfold State.cuStart
  repeat' (with_reducible first | assumption | apply hx | apply State.put_kept | apply State.cuRefused_kept | apply State.cuStartOp_kept | apply State.cuSave_kept | apply State.cuRestore_kept | intro _ | apply Kept.ite | apply Kept.foldS | simp -zeta only [↓Kept.mk_iff] | (extract_lets +onlyGivenNames x; first | (refine Kept.cut (P := Kept c0 q0 x) ?_ ?_; rotate_left; (intro _; clear_value x); rotate_left; unfold x; clear x) | (refine Kept.cut (P := ∀ y, Kept c0 q0 y → Kept c0 q0 (x y)) ?_ ?_; rotate_left; (intro hx; clear_value x); rotate_left; unfold x; clear x) | (refine Kept.cut (P := ∀ y a, Kept c0 q0 y → Kept c0 q0 (x y a)) ?_ ?_; rotate_left; (intro hx; clear_value x); rotate_left; unfold x; clear x) | (refine Kept.cut (P := ∀ a y, Kept c0 q0 y → Kept c0 q0 (x a y)) ?_ ?_; rotate_left; (intro hx; clear_value x); rotate_left; unfold x; clear x) | (refine Kept.cut (P := ∀ a, Kept c0 q0 (x a)) ?_ ?_; rotate_left; (intro hx; clear_value x); rotate_left; unfold x; clear x) | (refine Kept.cut (P := ∀ a, Kept c0 q0 (x a).2.2) ?_ ?_; rotate_left; (intro hx; clear_value x); rotate_left; unfold x; clear x) | (refine Kept.cut (P := ∀ a, Kept c0 q0 (x a).2) ?_ ?_; rotate_left; (intro hx; clear_value x); rotate_left; unfold x; clear x) | (refine Kept.cut (P := ∀ a b, Kept c0 q0 (x a b)) ?_ ?_; rotate_left; (intro hx; clear_value x); rotate_left; unfold x; clear x) | (refine Kept.cut (P := ∀ y a b, Kept c0 q0 y → Kept c0 q0 (x y a b)) ?_ ?_; rotate_left; (intro hx; clear_value x); rotate_left; unfold x; clear x) | (refine Kept.cut (P := Kept c0 q0 x.2) ?_ ?_; rotate_left; (intro hx; clear_value x); rotate_left; unfold x; clear x) | (refine Kept.cut (P := Kept c0 q0 x.1) ?_ ?_; rotate_left; (intro hx; clear_value x); rotate_left; unfold x; clear x) | (refine Kept.cut (P := Kept c0 q0 x.2.2) ?_ ?_; rotate_left; (intro hx; clear_value x); rotate_left; unfold x; clear x) | (refine Kept.cut (P := Kept c0 q0 x.2.1) ?_ ?_; rotate_left; (intro hx; clear_value x); rotate_left; unfold x; clear x) | clear_value x) | split)

theorem State.cuPause_kept {c0 : Cfg} {q0 : List Instr} (s : State) (n : Nat) (suspend : Bool) (h0 : Kept c0 q0 s) :
    Kept c0 q0 (State.cuPause s n suspend) := by
  unfold State.cuPause
  repeat' (with_reducible first | assumption | apply State.zeroMem_kept | apply State.cuYield_kept | apply State.setFwOp_kept | apply State.cuEnd_kept | apply State.cuAdvance_kept | intro _ | apply Kept.ite | apply Kept.foldS | split)

theorem State.cuQuantum_kept {c0 : Cfg} {q0 : List Instr} (s : State) (n : Nat) (h0 : Kept c0 q0 s) :
    Kept c0 q0 (State.cuQuantum s n) := by
  unfold State.cuQuantum
  repeat' (with_reducible first | assumption | apply State.cuPause_kept | intro _ | apply Kept.ite | apply Kept.foldS | simp -zeta only [↓Kept.mk_iff] | split)

theorem State.cuResume_kept {c0 : Cfg} {q0 : List Instr} (s : State) (h0 : Kept c0 q0 s) :
    Kept c0 q0 (State.cuResume s) := by
  unfold State.cuResume
  repeat' (with_reducible first | assumption | apply State.cuServe_kept | apply State.setFwOp_kept | apply State.cuEnd_kept | intro _ | apply Kept.ite | apply Kept.foldS | split)

theorem State.saveKeys_kept {c0 : Cfg} {q0 : List Instr} (s : State) (h0 : Kept c0 q0 s) :
    Kept c0 q0 (State.saveKeys s) :=
  h0

theorem State.keyRefused_kept {c0 : Cfg} {q0 : List Instr} (s : State) (src : Src) (slot cause v : Nat) (h0 : Kept c0 q0 s) :
    Kept c0 q0 (State.keyRefused s src slot cause v) := by
  unfold State.keyRefused
  repeat' (with_reducible first | assumption | apply State.post_kept | apply State.jrnEntry_kept)

theorem State.putKey_kept {c0 : Cfg} {q0 : List Instr} (s : State) (src : Src) (slot use k256 : Nat) (key : Option (List Byte)) (v : Nat) (save : Bool) (h0 : Kept c0 q0 s) :
    Kept c0 q0 (State.putKey s src slot use k256 key v save) := by
  unfold State.putKey
  repeat' (with_reducible first | assumption | apply State.put_kept | apply State.post_kept | apply State.jrnEntry_kept | apply State.saveKeys_kept | intro _ | apply Kept.ite | apply Kept.foldS | simp -zeta only [↓Kept.mk_iff] | split)

theorem State.setKey_kept {c0 : Cfg} {q0 : List Instr} (s : State) (src : Src) (slot use k256 : Nat) (key : Option (List Byte)) (v : Nat) (h0 : Kept c0 q0 s) :
    Kept c0 q0 (State.setKey s src slot use k256 key v) := by
  unfold State.setKey
  repeat' (with_reducible first | assumption | apply State.keyRefused_kept | apply State.putKey_kept | intro _ | apply Kept.ite | apply Kept.foldS | split)

theorem State.keyLoadWrite_kept {c0 : Cfg} {q0 : List Instr} (s : State) (src : Src) (v : Nat) (h0 : Kept c0 q0 s) :
    Kept c0 q0 (State.keyLoadWrite s src v) := by
  unfold State.keyLoadWrite
  repeat' (with_reducible first | assumption | apply State.setKey_kept | intro _ | apply Kept.ite | apply Kept.foldS | split)

theorem State.imageAuthFail_kept {c0 : Cfg} {q0 : List Instr} (s : State) (a slot status : Nat) (h0 : Kept c0 q0 s) :
    Kept c0 q0 (State.imageAuthFail s a slot status) := by
  unfold State.imageAuthFail
  repeat' (with_reducible first | assumption | apply State.post_kept | apply State.cuFailed_kept | apply State.cuRefused_kept | intro _ | apply Kept.ite | apply Kept.foldS | split)

theorem State.setAud_kept {c0 : Cfg} {q0 : List Instr} (s : State) (k : Nat) (x : AudCtx) (h0 : Kept c0 q0 s) :
    Kept c0 q0 (State.setAud s k x) :=
  h0

theorem State.audJournal_kept {c0 : Cfg} {q0 : List Instr} (s : State) (src : Src) (k cmd result : Nat) (x : AudCtx) (h0 : Kept c0 q0 s) :
    Kept c0 q0 (State.audJournal s src k cmd result x) := by
  unfold State.audJournal
  repeat' (with_reducible first | assumption | apply State.jrnEntry_kept)

theorem State.audRefuse_kept {c0 : Cfg} {q0 : List Instr} (s : State) (src : Src) (k cmd result : Nat) (x : AudCtx) (h0 : Kept c0 q0 s) :
    Kept c0 q0 (State.audRefuse s src k cmd result x) := by
  unfold State.audRefuse
  repeat' (with_reducible first | assumption | apply State.put_kept | apply State.post_kept | apply State.audJournal_kept)

theorem State.audEnd_kept {c0 : Cfg} {q0 : List Instr} (s : State) (k cmd state result : Nat) (h0 : Kept c0 q0 s) :
    Kept c0 q0 (State.audEnd s k cmd state result) := by
  unfold State.audEnd
  repeat' (with_reducible first | assumption | apply State.put_kept | apply State.audJournal_kept)

theorem State.audForget_kept {c0 : Cfg} {q0 : List Instr} (s : State) (k : Nat) (h0 : Kept c0 q0 s) :
    Kept c0 q0 (State.audForget s k) := by
  unfold State.audForget
  repeat' (with_reducible first | assumption | apply State.setPair_kept | simp -zeta only [↓Kept.mk_iff])

theorem State.audLeave_kept {c0 : Cfg} {q0 : List Instr} (s : State) (k : Nat) (h0 : Kept c0 q0 s) :
    Kept c0 q0 (State.audLeave s k) := by
  unfold State.audLeave
  repeat' (with_reducible first | assumption | apply State.cuServe_kept | simp -zeta only [↓Kept.mk_iff])

theorem State.audQueue_kept {c0 : Cfg} {q0 : List Instr} (s : State) (k : Nat) (h0 : Kept c0 q0 s) :
    Kept c0 q0 (State.audQueue s k) :=
  h0

theorem State.audOpenCmd_kept {c0 : Cfg} {q0 : List Instr} (s : State) (src : Src) (k : Nat) (h0 : Kept c0 q0 s) :
    Kept c0 q0 (State.audOpenCmd s src k) := by
  unfold State.audOpenCmd
  repeat' (with_reducible first | assumption | apply State.put_kept | apply State.cuServe_kept | apply State.setAud_kept | apply State.audRefuse_kept | apply State.audQueue_kept | intro _ | apply Kept.ite | apply Kept.foldS | simp -zeta only [↓Kept.mk_iff] | (extract_lets +onlyGivenNames x; first | (refine Kept.cut (P := Kept c0 q0 x) ?_ ?_; rotate_left; (intro _; clear_value x); rotate_left; unfold x; clear x) | clear_value x) | split)

theorem State.audOpenFail_kept {c0 : Cfg} {q0 : List Instr} (s : State) (k result : Nat) (zero : Bool) (h0 : Kept c0 q0 s) :
    Kept c0 q0 (State.audOpenFail s k result zero) := by
  unfold State.audOpenFail
  repeat' (with_reducible first | assumption | apply State.bump_kept | apply State.zeroMem_kept | apply State.post_kept | apply State.audEnd_kept | apply State.audForget_kept | apply State.audLeave_kept | intro _ | apply Kept.ite | apply Kept.foldS | split)

theorem State.audOpenDone_kept {c0 : Cfg} {q0 : List Instr} (s : State) (k : Nat) (err : Bool) (h0 : Kept c0 q0 s) :
    Kept c0 q0 (State.audOpenDone s k err) := by
  unfold State.audOpenDone
  repeat' (with_reducible first | assumption | apply State.setPair_kept | apply State.writeMem_kept | apply State.post_kept | apply State.cuFailed_kept | apply State.cuRefused_kept | apply State.audEnd_kept | apply State.audLeave_kept | apply State.audOpenFail_kept | intro _ | apply Kept.ite | apply Kept.foldS | split)

theorem State.audSealCmd_kept {c0 : Cfg} {q0 : List Instr} (s : State) (src : Src) (k : Nat) (flashOk : Bool) (h0 : Kept c0 q0 s) :
    Kept c0 q0 (State.audSealCmd s src k flashOk) := by
  unfold State.audSealCmd
  repeat' (with_reducible first | assumption | apply State.put_kept | apply State.cuServe_kept | apply State.setAud_kept | apply State.audRefuse_kept | intro _ | apply Kept.ite | apply Kept.foldS | simp -zeta only [↓Kept.mk_iff] | split)

theorem State.audSealDone_kept {c0 : Cfg} {q0 : List Instr} (s : State) (k : Nat) (err : Bool) (h0 : Kept c0 q0 s) :
    Kept c0 q0 (State.audSealDone s k err) := by
  unfold State.audSealDone
  repeat' (with_reducible first | assumption | apply State.writeMem_kept | apply State.post_kept | apply State.cuFailed_kept | apply State.cuRefused_kept | apply State.audEnd_kept | apply State.audLeave_kept | intro _ | apply Kept.ite | apply Kept.foldS | split)

theorem State.audCloseCmd_kept {c0 : Cfg} {q0 : List Instr} (s : State) (src : Src) (k : Nat) (h0 : Kept c0 q0 s) :
    Kept c0 q0 (State.audCloseCmd s src k) := by
  unfold State.audCloseCmd
  repeat' (with_reducible first | assumption | apply State.put_kept | apply State.setAud_kept | apply State.audRefuse_kept | intro _ | apply Kept.ite | apply Kept.foldS | split)

theorem State.audCloseDone_kept {c0 : Cfg} {q0 : List Instr} (s : State) (k : Nat) (h0 : Kept c0 q0 s) :
    Kept c0 q0 (State.audCloseDone s k) := by
  unfold State.audCloseDone
  repeat' (with_reducible first | assumption | apply State.zeroMem_kept | apply State.post_kept | apply State.audEnd_kept | apply State.audForget_kept | intro _ | apply Kept.ite | apply Kept.foldS | split)

theorem State.audReset_kept {c0 : Cfg} {q0 : List Instr} (s : State) (h0 : Kept c0 q0 s) :
    Kept c0 q0 (State.audReset s) := by
  unfold State.audReset
  repeat' (with_reducible first | assumption | apply State.zeroMem_kept | apply State.post_kept | apply State.audForget_kept | intro _ | apply Kept.ite | apply Kept.foldS | split)

theorem State.audDenied_kept {c0 : Cfg} {q0 : List Instr} (s : State) (k m a : Nat) (h0 : Kept c0 q0 s) :
    Kept c0 q0 (State.audDenied s k m a) := by
  unfold State.audDenied
  repeat' (with_reducible first | assumption | apply State.bump_kept | apply State.postLim_kept)

end Sys2Proof.Machine
end

