-- ==== Sys2Proof/Laws/KeptSched.lean ====
section
/-! SUPPORT. What every operation keeps (`Kept`): cores, scheduler, loader and batches. -/

namespace Sys2Proof.Machine

theorem State.startSegment_kept {c0 : Cfg} {q0 : List Instr} (s : State) (c e : Nat) (h0 : Kept c0 q0 s) :
    Kept c0 q0 (State.startSegment s c e) := by
  unfold State.startSegment
  repeat' (with_reducible first | assumption | apply State.setEng_kept | apply State.modJob_kept | intro _ | apply Kept.ite | apply Kept.foldS | simp -zeta only [↓Kept.mk_iff] | (extract_lets +onlyGivenNames x; first | (refine Kept.cut (P := Kept c0 q0 x) ?_ ?_; rotate_left; (intro _; clear_value x); rotate_left; unfold x; clear x) | clear_value x) | split)

theorem State.endSegment_kept {c0 : Cfg} {q0 : List Instr} (s : State) (c e : Nat) (h0 : Kept c0 q0 s) :
    Kept c0 q0 (State.endSegment s c e) := by
  unfold State.endSegment
  repeat' (with_reducible first | assumption | apply State.setEng_kept | apply State.modJob_kept | intro _ | apply Kept.ite | apply Kept.foldS | simp -zeta only [↓Kept.mk_iff] | (extract_lets +onlyGivenNames x; first | (refine Kept.cut (P := Kept c0 q0 x) ?_ ?_; rotate_left; (intro _; clear_value x); rotate_left; unfold x; clear x) | clear_value x) | split)

theorem State.completeSegment_kept {c0 : Cfg} {q0 : List Instr} (s : State) (c e : Nat) (h0 : Kept c0 q0 s) :
    Kept c0 q0 (State.completeSegment s c e) := by
  unfold State.completeSegment
  repeat' (with_reducible first | assumption | apply State.pcCount_kept | apply State.setEng_kept | apply State.segmentDone_kept | intro _ | apply Kept.ite | apply Kept.foldS | simp -zeta only [↓Kept.mk_iff] | (extract_lets +onlyGivenNames x; first | (refine Kept.cut (P := Kept c0 q0 x) ?_ ?_; rotate_left; (intro _; clear_value x); rotate_left; unfold x; clear x) | clear_value x) | split)

theorem State.stray_kept {c0 : Cfg} {q0 : List Instr} (s : State) (g : Signal) (cause : Nat) (h0 : Kept c0 q0 s) :
    Kept c0 q0 (State.stray s g cause) := by
  unfold State.stray
  repeat' (with_reducible first | assumption | apply State.bump_kept | apply State.post_kept | intro _ | apply Kept.ite | apply Kept.foldS | split)

theorem State.applySignal_kept {c0 : Cfg} {q0 : List Instr} (s : State) (g : Signal) (h0 : Kept c0 q0 s) :
    Kept c0 q0 (State.applySignal s g) := by
  unfold State.applySignal
  repeat' (with_reducible first | assumption | apply State.post_kept | apply State.setSync_kept | apply State.modJob_kept | apply State.stray_kept | intro _ | apply Kept.ite | apply Kept.foldS | simp -zeta only [↓Kept.mk_iff] | (extract_lets +onlyGivenNames x; first | (refine Kept.cut (P := Kept c0 q0 x) ?_ ?_; rotate_left; (intro _; clear_value x); rotate_left; unfold x; clear x) | clear_value x) | split)

theorem State.takeSignal_kept {c0 : Cfg} {q0 : List Instr} (s : State) (k : Nat) (h0 : Kept c0 q0 s) :
    Kept c0 q0 (State.takeSignal s k) := by
  unfold State.takeSignal
  repeat' (with_reducible first | assumption | apply State.reclaim_kept | apply State.applySignal_kept | intro _ | apply Kept.ite | apply Kept.foldS | simp -zeta only [↓Kept.mk_iff] | split)

theorem State.abandonTag_kept {c0 : Cfg} {q0 : List Instr} (s : State) (c e : Nat) (h0 : Kept c0 q0 s) :
    Kept c0 q0 (State.abandonTag s c e) := by
  unfold State.abandonTag
  repeat' (with_reducible first | assumption | intro _ | apply Kept.ite | apply Kept.foldS | simp -zeta only [↓Kept.mk_iff] | (extract_lets +onlyGivenNames x; first | (refine Kept.cut (P := Kept c0 q0 x) ?_ ?_; rotate_left; (intro _; clear_value x); rotate_left; unfold x; clear x) | clear_value x) | split)

theorem State.endCancelled_kept {c0 : Cfg} {q0 : List Instr} (s : State) (c e t : Nat) (h0 : Kept c0 q0 s) :
    Kept c0 q0 (State.endCancelled s c e t) := by
  unfold State.endCancelled
  repeat' (with_reducible first | assumption | apply State.modJob_kept | apply State.jobCheck_kept | apply State.dropRun_kept | intro _ | apply Kept.ite | apply Kept.foldS | simp -zeta only [↓Kept.mk_iff] | split)

theorem State.watchdog_kept {c0 : Cfg} {q0 : List Instr} (s : State) (c e : Nat) (hung : Bool) (h0 : Kept c0 q0 s) :
    Kept c0 q0 (State.watchdog s c e hung) := by
  unfold State.watchdog
  repeat' (with_reducible first | assumption | apply State.endCancelled_kept | apply State.bump_kept | apply State.post_kept | apply State.pcCount_kept | apply State.setEng_kept | apply State.modJob_kept | apply State.jobCheck_kept | apply State.dropRun_kept | apply State.faultRun_kept | apply State.abandonTag_kept | intro _ | apply Kept.ite | apply Kept.foldS | simp -zeta only [↓Kept.mk_iff] | (extract_lets +onlyGivenNames x; first | (refine Kept.cut (P := Kept c0 q0 x) ?_ ?_; rotate_left; (intro _; clear_value x); rotate_left; unfold x; clear x) | clear_value x) | split)

theorem State.stallTick_kept {c0 : Cfg} {q0 : List Instr} (s : State) (h0 : Kept c0 q0 s) :
    Kept c0 q0 (State.stallTick s) :=
  h0

theorem State.freeze_kept {c0 : Cfg} {q0 : List Instr} (s : State) (t : Nat) (h0 : Kept c0 q0 s) :
    Kept c0 q0 (State.freeze s t) := by
  unfold State.freeze
  repeat' (with_reducible first | assumption | apply State.post_kept | apply State.stepEnded_kept | apply State.modJob_kept | intro _ | apply Kept.ite | apply Kept.foldS | split)

theorem State.fabricError_kept {c0 : Cfg} {q0 : List Instr} (s : State) (c e : Nat) (id : Option Nat) (h0 : Kept c0 q0 s) :
    Kept c0 q0 (State.fabricError s c e id) := by
  unfold State.fabricError
  repeat' (with_reducible first | assumption | apply State.setEng_kept | apply State.modJob_kept | apply State.faultJob_kept | apply State.exception_kept | apply State.post_kept | intro _ | apply Kept.ite | apply Kept.foldS | simp -zeta only [↓Kept.mk_iff] | split)

theorem State.doorbellRefused_kept {c0 : Cfg} {q0 : List Instr} (s : State) (r v cause : Nat) (h0 : Kept c0 q0 s) :
    Kept c0 q0 (State.doorbellRefused s r v cause) := by
  unfold State.doorbellRefused
  repeat' (with_reducible first | assumption | apply State.bump_kept | apply State.postLim_kept)

theorem State.doorbell_kept {c0 : Cfg} {q0 : List Instr} (s : State) (r v : Nat) (h0 : Kept c0 q0 s) :
    Kept c0 q0 (State.doorbell s r v) := by
  unfold State.doorbell
  repeat' (with_reducible first | assumption | apply State.put_kept | apply State.pcCount_kept | apply State.hostAbandon_kept | apply State.doorbellRefused_kept | intro _ | apply Kept.ite | apply Kept.foldS | split)

theorem State.advanceHead_kept {c0 : Cfg} {q0 : List Instr} (s : State) (g : Group) (h0 : Kept c0 q0 s) :
    Kept c0 q0 (State.advanceHead s g) := by
  unfold State.advanceHead
  repeat' (with_reducible first | assumption | apply State.put_kept | intro _ | apply Kept.ite | apply Kept.foldS | simp -zeta only [↓Kept.mk_iff] | split)

theorem State.takeGroup_kept {c0 : Cfg} {q0 : List Instr} (s : State) (g : Group) (h0 : Kept c0 q0 s) :
    Kept c0 q0 (State.takeGroup s g) := by
  unfold State.takeGroup
  repeat' (with_reducible first | assumption | apply State.pcCount_kept | apply State.pick_kept | apply State.lend_kept | apply State.showDs_kept | apply State.refreshRanks_kept | apply State.jobCheck_kept | intro _ | apply Kept.ite | apply Kept.foldS | simp -zeta only [↓Kept.mk_iff] | split)

theorem State.admission_kept {c0 : Cfg} {q0 : List Instr} (s : State) (r : Nat) (readErr : Bool) (h0 : Kept c0 q0 s) :
    Kept c0 q0 (State.admission s r readErr) := by
  unfold State.admission
  repeat' (with_reducible first | assumption | apply State.refuseGroup_kept | apply State.advanceHead_kept | apply State.takeGroup_kept | intro _ | apply Kept.ite | apply Kept.foldS | simp -zeta only [↓Kept.mk_iff] | (extract_lets +onlyGivenNames x; first | (refine Kept.cut (P := Kept c0 q0 x) ?_ ?_; rotate_left; (intro _; clear_value x); rotate_left; unfold x; clear x) | clear_value x) | split)

theorem State.postDesc_kept {c0 : Cfg} {q0 : List Instr} (s : State) (t : Nat) (h0 : Kept c0 q0 s) :
    Kept c0 q0 (State.postDesc s t) := by
  unfold State.postDesc
  repeat' (with_reducible first | assumption | apply State.setEng_kept | apply State.modJob_kept | intro _ | apply Kept.ite | apply Kept.foldS | simp -zeta only [↓Kept.mk_iff] | split)

theorem postAll_kept {c0 : Cfg} {q0 : List Instr} (t n : Nat) (s : State) (h0 : Kept c0 q0 s) :
    Kept c0 q0 (postAll t n s) := by
  induction n generalizing s with
  | zero => exact h0
  | succ n ih => exact ih _ (State.postDesc_kept _ _ h0)

theorem State.execEntry_kept {c0 : Cfg} {q0 : List Instr} (s : State) (r : Nat) (readErr : Bool) (h0 : Kept c0 q0 s) :
    Kept c0 q0 (State.execEntry s r readErr) := by
  unfold State.execEntry
  repeat' (with_reducible first | assumption | apply State.admission_kept | apply postAll_kept | intro _ | apply Kept.ite | apply Kept.foldS | simp -zeta only [↓Kept.mk_iff] | (extract_lets +onlyGivenNames x; first | (refine Kept.cut (P := Kept c0 q0 x) ?_ ?_; rotate_left; (intro _; clear_value x); rotate_left; unfold x; clear x) | clear_value x) | split)

theorem State.recompute_kept {c0 : Cfg} {q0 : List Instr} (s : State) (t : Nat) (h0 : Kept c0 q0 s) :
    Kept c0 q0 (State.recompute s t) := by
  unfold State.recompute
  repeat' (with_reducible first | assumption | apply State.post_kept | apply State.modJob_kept | intro _ | apply Kept.ite | apply Kept.foldS | split)

theorem State.starveCheck_kept {c0 : Cfg} {q0 : List Instr} (s : State) (r : Nat) (h0 : Kept c0 q0 s) :
    Kept c0 q0 (State.starveCheck s r) := by
  unfold State.starveCheck
  repeat' (with_reducible first | assumption | apply State.post_kept | intro _ | apply Kept.ite | apply Kept.foldS | simp -zeta only [↓Kept.mk_iff] | split)

theorem State.groupCompletion_kept {c0 : Cfg} {q0 : List Instr} (s : State) (h0 : Kept c0 q0 s) :
    Kept c0 q0 (State.groupCompletion s) := by
  unfold State.groupCompletion
  repeat' (with_reducible first | assumption | apply State.completion_kept | intro _ | apply Kept.ite | apply Kept.foldS | simp -zeta only [↓Kept.mk_iff] | split)

theorem State.finishLoad_kept {c0 : Cfg} {q0 : List Instr} (s : State) (r : Nat) (g : Group) (adm status : Nat) (h0 : Kept c0 q0 s) :
    Kept c0 q0 (State.finishLoad s r g adm status) := by
  unfold State.finishLoad
  repeat' (with_reducible first | assumption | apply State.bump_kept | apply State.post_kept | apply State.pcCount_kept | intro _ | apply Kept.ite | apply Kept.foldS | simp -zeta only [↓Kept.mk_iff] | (extract_lets +onlyGivenNames x; first | (refine Kept.cut (P := Kept c0 q0 x) ?_ ?_; rotate_left; (intro _; clear_value x); rotate_left; unfold x; clear x) | clear_value x) | split)

theorem State.cancelEvent_kept {c0 : Cfg} {q0 : List Instr} (s : State) (ring index job origin result : Nat) (h0 : Kept c0 q0 s) :
    Kept c0 q0 (State.cancelEvent s ring index job origin result) := by
  unfold State.cancelEvent
  repeat' (with_reducible first | assumption | apply State.post_kept)

theorem State.cancelJob_kept {c0 : Cfg} {q0 : List Instr} (s : State) (t origin : Nat) (h0 : Kept c0 q0 s) :
    Kept c0 q0 (State.cancelJob s t origin).1 := by
  unfold State.cancelJob
  repeat' (with_reducible first | assumption | apply State.closeWindows_kept | apply State.modJob_kept | apply State.purgeQueues_kept | apply State.endJob_kept | apply State.jobCheck_kept | apply State.cancelEvent_kept | intro _ | apply Kept.ite | apply Kept.foldS | split)

theorem State.cancelLoad_kept {c0 : Cfg} {q0 : List Instr} (s : State) (r : Nat) (g : Group) (adm origin : Nat) (h0 : Kept c0 q0 s) :
    Kept c0 q0 (State.cancelLoad s r g adm origin) := by
  unfold State.cancelLoad
  repeat' (with_reducible first | assumption | apply State.cancelEvent_kept | intro _ | apply Kept.ite | apply Kept.foldS | simp -zeta only [↓Kept.mk_iff] | split)

theorem State.cancelWaiting_kept {c0 : Cfg} {q0 : List Instr} (s : State) (g : Group) (origin : Nat) (h0 : Kept c0 q0 s) :
    Kept c0 q0 (State.cancelWaiting s g origin) := by
  unfold State.cancelWaiting
  repeat' (with_reducible first | assumption | apply State.finishGroup_kept | apply State.cancelEvent_kept | intro _ | apply Kept.ite | apply Kept.foldS | simp -zeta only [↓Kept.mk_iff] | split)

theorem State.cancelRing_kept {c0 : Cfg} {q0 : List Instr} (s : State) (r origin : Nat) (p : Nat → Bool) (h0 : Kept c0 q0 s) :
    Kept c0 q0 (s.cancelRing r origin p).1 := by
  unfold State.cancelRing
  have key : ∀ (l : List Nat) (r : State × Nat), Kept c0 q0 r.1 →
      Kept c0 q0 (l.foldl (fun (a : State × Nat) t =>
        let b := a.1.cancelJob t origin; (b.1, worse a.2 b.2)) r).1 := by
    intro l
    induction l with
    | nil => exact fun _ h => h
    | cons a l ih => exact fun r h => ih _ (State.cancelJob_kept _ _ _ h)
  refine Kept.foldS (fun _ _ h => State.cancelWaiting_kept _ _ _ h) ?_
  repeat' (with_reducible first | apply key | assumption | apply State.cancelLoad_kept | split)

theorem State.cancelReport_kept {c0 : Cfg} {q0 : List Instr} (s : State) (p : State × Nat) (ring index job origin : Nat) (hp : Kept c0 q0 p.1) (h0 : Kept c0 q0 s) :
    Kept c0 q0 (s.cancelReport p ring index job origin) := by
  exact State.put_kept _ _ _ _ (Kept.ite (State.cancelEvent_kept _ _ _ _ _ _ h0) hp)

theorem State.dsCancel_kept {c0 : Cfg} {q0 : List Instr} (s : State) (src : Src) (ring index : Nat) (all : Bool) (h0 : Kept c0 q0 s) :
    Kept c0 q0 (State.dsCancel s src ring index all) := by
  unfold State.dsCancel
  repeat' (with_reducible first | assumption | apply State.hostAbandon_kept | apply State.cancelRing_kept | apply State.cancelReport_kept | intro _ | apply Kept.ite | apply Kept.foldS | split)

theorem State.dsCancelJob_kept {c0 : Cfg} {q0 : List Instr} (s : State) (src : Src) (job : Nat) (h0 : Kept c0 q0 s) :
    Kept c0 q0 (State.dsCancelJob s src job) := by
  unfold State.dsCancelJob
  repeat' (with_reducible first | assumption | apply State.hostAbandon_kept | apply State.cancelJob_kept | apply State.cancelReport_kept | intro _ | apply Kept.ite | apply Kept.foldS | split)

theorem State.dsRefused_kept {c0 : Cfg} {q0 : List Instr} (s : State) (off : Nat) (h0 : Kept c0 q0 s) :
    Kept c0 q0 (State.dsRefused s off) := by
  unfold State.dsRefused
  repeat' (with_reducible first | assumption | apply State.post_kept)

theorem State.ringCtlWrite_kept {c0 : Cfg} {q0 : List Instr} (s : State) (src : Src) (r v : Nat) (h0 : Kept c0 q0 s) :
    Kept c0 q0 (State.ringCtlWrite s src r v) := by
  unfold State.ringCtlWrite
  repeat' (with_reducible first | assumption | apply State.paramWrite_kept | apply State.refreshRanks_kept | apply State.dsRefused_kept | intro _ | apply Kept.ite | apply Kept.foldS | split)

theorem State.placeSections_kept {c0 : Cfg} {q0 : List Instr} (s : State) (a : Nat) (l : List Section) (h0 : Kept c0 q0 s) :
    Kept c0 q0 (State.placeSections s a l) := by
  unfold State.placeSections
  repeat' (with_reducible first | assumption | apply State.writeMem_kept | apply State.zeroMem_kept | intro _ | apply Kept.ite | apply Kept.foldS | split)

theorem State.loadImage_kept {c0 : Cfg} {q0 : List Instr} (s : State) (g : Group) (kind : Nat) (h0 : Kept c0 q0 s) :
    Kept c0 q0 (s.loadImage g kind).1 := by
  unfold State.loadImage
  repeat' (with_reducible first | assumption | apply State.imageAuthFail_kept | apply State.placeSections_kept | (extract_lets +onlyGivenNames x; first | (refine Kept.cut (P := Kept c0 q0 x) ?_ ?_; rotate_left; (intro _; clear_value x); rotate_left; unfold x; clear x) | clear_value x) | split)

theorem State.showFloor_kept {c0 : Cfg} {q0 : List Instr} (s : State) (h0 : Kept c0 q0 s) :
    Kept c0 q0 (State.showFloor s) := by
  unfold State.showFloor
  repeat' (with_reducible first | assumption | apply State.put_kept | intro _ | apply Kept.ite | apply Kept.foldS | split)

theorem State.setFloor_kept {c0 : Cfg} {q0 : List Instr} (s : State) (k mhz : Nat) (h0 : Kept c0 q0 s) :
    Kept c0 q0 (State.setFloor s k mhz) := by
  unfold State.setFloor
  repeat' (with_reducible first | assumption | apply State.showFloor_kept | simp -zeta only [↓Kept.mk_iff])

theorem State.imageLoad_kept {c0 : Cfg} {q0 : List Instr} (s : State) (r : Nat) (h0 : Kept c0 q0 s) :
    Kept c0 q0 (State.imageLoad s r) := by
  unfold State.imageLoad
  repeat' (with_reducible first | assumption | apply State.finishLoad_kept | apply State.loadImage_kept | apply State.setFloor_kept | intro _ | apply Kept.ite | apply Kept.foldS | split)

theorem State.setRslot_kept {c0 : Cfg} {q0 : List Instr} (s : State) (k : Nat) (x : RcpSlot) (h0 : Kept c0 q0 s) :
    Kept c0 q0 (State.setRslot s k x) :=
  h0

theorem State.reserve_kept {c0 : Cfg} {q0 : List Instr} (s : State) (k : Nat) (x : Nat × Nat) (h0 : Kept c0 q0 s) :
    Kept c0 q0 (State.reserve s k x) := by
  unfold State.reserve
  repeat' (with_reducible first | assumption | apply State.setCore_kept | apply State.setSync_kept)

theorem State.showLoaded_kept {c0 : Cfg} {q0 : List Instr} (s : State) (k : Nat) (h0 : Kept c0 q0 s) :
    Kept c0 q0 (State.showLoaded s k) := by
  unfold State.showLoaded
  repeat' (with_reducible first | assumption | apply State.put_kept | intro _ | apply Kept.ite | apply Kept.foldS | simp -zeta only [↓Kept.mk_iff] | split)

theorem State.recipeLoad_kept {c0 : Cfg} {q0 : List Instr} (s : State) (r : Nat) (d : RecipeDesc) (h0 : Kept c0 q0 s) :
    Kept c0 q0 (State.recipeLoad s r d) := by
  unfold State.recipeLoad
  repeat' (with_reducible first | assumption | apply State.showLoaded_kept | apply State.put_kept | apply State.finishLoad_kept | apply State.loadImage_kept | apply State.setFloor_kept | apply State.setRslot_kept | apply State.reserve_kept | intro _ | apply Kept.ite | apply Kept.foldS | simp -zeta only [↓Kept.mk_iff] | (extract_lets +onlyGivenNames x; first | (refine Kept.cut (P := Kept c0 q0 x) ?_ ?_; rotate_left; (intro _; clear_value x); rotate_left; unfold x; clear x) | clear_value x) | split)

theorem State.recipeUnload_kept {c0 : Cfg} {q0 : List Instr} (s : State) (r : Nat) (h0 : Kept c0 q0 s) :
    Kept c0 q0 (State.recipeUnload s r) := by
  unfold State.recipeUnload
  repeat' (with_reducible first | assumption | apply State.setRegWord_kept | apply State.finishLoad_kept | apply State.showFloor_kept | intro _ | apply Kept.ite | apply Kept.foldS | simp -zeta only [↓Kept.mk_iff] | (extract_lets +onlyGivenNames x; first | (refine Kept.cut (P := Kept c0 q0 x) ?_ ?_; rotate_left; (intro _; clear_value x); rotate_left; unfold x; clear x) | clear_value x) | split)

theorem State.modRslot_kept {c0 : Cfg} {q0 : List Instr} (s : State) (n : Nat) (f : RcpSlot → RcpSlot) (h0 : Kept c0 q0 s) :
    Kept c0 q0 (State.modRslot s n f) := by
  unfold State.modRslot
  repeat' (with_reducible first | assumption | intro _ | apply Kept.ite | apply Kept.foldS | simp -zeta only [↓Kept.mk_iff] | split)

theorem State.showRcp_kept {c0 : Cfg} {q0 : List Instr} (s : State) (n : Nat) (h0 : Kept c0 q0 s) :
    Kept c0 q0 (State.showRcp s n) := by
  unfold State.showRcp
  repeat' (with_reducible first | assumption | apply State.put_kept)

theorem State.releaseStrips_kept {c0 : Cfg} {q0 : List Instr} (s : State) (l : List StripIn) (h0 : Kept c0 q0 s) :
    Kept c0 q0 (State.releaseStrips s l) := by
  unfold State.releaseStrips
  repeat' (with_reducible first | assumption | apply State.put_kept | intro _ | apply Kept.ite | apply Kept.foldS | split)

theorem State.releaseIdle_kept {c0 : Cfg} {q0 : List Instr} (s : State) (n : Nat) (h0 : Kept c0 q0 s) :
    Kept c0 q0 (State.releaseIdle s n) := by
  unfold State.releaseIdle
  repeat' (with_reducible first | assumption | apply State.modRslot_kept | apply State.releaseStrips_kept | intro _ | apply Kept.ite | apply Kept.foldS | simp -zeta only [↓Kept.mk_iff] | split)

theorem State.rcpEvent_kept {c0 : Cfg} {q0 : List Instr} (s : State) (n code cause : Nat) (fs : List (FK × Nat)) (h0 : Kept c0 q0 s) :
    Kept c0 q0 (State.rcpEvent s n code cause fs) := by
  unfold State.rcpEvent
  repeat' (with_reducible first | assumption | apply State.postLim_kept)

theorem State.writeSlotRecord_kept {c0 : Cfg} {q0 : List Instr} (s : State) (d : RecipeDesc) (p : Part) (h0 : Kept c0 q0 s) :
    Kept c0 q0 (State.writeSlotRecord s d p) := by
  unfold State.writeSlotRecord
  repeat' (with_reducible first | assumption | apply State.writeMem_kept | intro _ | apply Kept.ite | apply Kept.foldS | split)

theorem State.stepGroup_kept {c0 : Cfg} {q0 : List Instr} (s : State) (n : Nat) (r : RcpSlot) (d : RecipeDesc) (kind deadline demand buf : Nat) (segs : List ProgSeg) (h0 : Kept c0 q0 s) :
    Kept c0 q0 (State.stepGroup s n r d kind deadline demand buf segs) :=
  h0

theorem State.writeList_kept {c0 : Cfg} {q0 : List Instr} (s : State) (a : Nat) (l : List Nat) (h0 : Kept c0 q0 s) :
    Kept c0 q0 (State.writeList s a l) := by
  unfold State.writeList
  repeat' (with_reducible first | assumption | apply State.writeMem_kept)

theorem State.writeTable_kept {c0 : Cfg} {q0 : List Instr} (s : State) (n : Nat) (r : RcpSlot) (d : RecipeDesc) (kind : Nat) (parts : List Part) (h0 : Kept c0 q0 s) :
    Kept c0 q0 (State.writeTable s n r d kind parts) := by
  unfold State.writeTable
  repeat' (with_reducible first | assumption | apply State.writeMem_kept | apply State.writeList_kept)

theorem State.stepInput_kept {c0 : Cfg} {q0 : List Instr} (s : State) (n k : Nat) (missing lost misaligned : List Nat) (h0 : Kept c0 q0 s) :
    Kept c0 q0 (State.stepInput s n k missing lost misaligned) := by
  unfold State.stepInput
  repeat' (with_reducible first | assumption | apply State.rcpEvent_kept | intro _ | apply Kept.ite | apply Kept.foldS | split)

theorem State.stepTrigger_kept {c0 : Cfg} {q0 : List Instr} (s : State) (n : Nat) (h0 : Kept c0 q0 s) :
    Kept c0 q0 (State.stepTrigger s n) := by
  unfold State.stepTrigger
  repeat' (with_reducible first | assumption | apply State.put_kept | apply State.setRslot_kept | apply State.stepGroup_kept | apply State.writeTable_kept | apply State.stepInput_kept | intro _ | apply Kept.ite | apply Kept.foldS | split)

theorem State.postPartEvent_kept {c0 : Cfg} {q0 : List Instr} (s : State) (n : Nat) (d : RecipeDesc) (p : Part) (code : Nat) (h0 : Kept c0 q0 s) :
    Kept c0 q0 (State.postPartEvent s n d p code).2 := by
  unfold State.postPartEvent
  repeat' (with_reducible first | assumption | apply State.post_kept | apply State.submitPost_kept | intro _ | apply Kept.ite | apply Kept.foldS | split)

theorem State.noteDefault_kept {c0 : Cfg} {q0 : List Instr} (s : State) (n : Nat) (p : Part) (code reason : Nat) (h0 : Kept c0 q0 s) :
    Kept c0 q0 (State.noteDefault s n p code reason) := by
  unfold State.noteDefault
  repeat' (with_reducible first | assumption | apply State.bump_kept | apply State.rcpEvent_kept | intro _ | apply Kept.ite | apply Kept.foldS | split)

theorem State.builderRemote_kept {c0 : Cfg} {q0 : List Instr} (s : State) (kind chip addr : Nat) (bytes : List Byte) (core ctr : Nat) (h0 : Kept c0 q0 s) :
    Kept c0 q0 (State.builderRemote s kind chip addr bytes core ctr) :=
  h0

theorem State.peerDefault_kept {c0 : Cfg} {q0 : List Instr} (s : State) (d : RecipeDesc) (p : Part) (status : Nat) (h0 : Kept c0 q0 s) :
    Kept c0 q0 (State.peerDefault s d p status) := by
  unfold State.peerDefault
  repeat' (with_reducible first | assumption | apply State.builderRemote_kept | intro _ | apply Kept.ite | apply Kept.foldS | split)

theorem State.partRec_kept {c0 : Cfg} {q0 : List Instr} (s : State) (code : Nat) (wait : Bool) (c : CRec) (h0 : Kept c0 q0 s) :
    Kept c0 q0 (State.partRec s code wait c) := by
  unfold State.partRec
  repeat' (with_reducible first | assumption | apply State.completion_kept | intro _ | apply Kept.ite | apply Kept.foldS | simp -zeta only [↓Kept.mk_iff] | split)

theorem State.recordPart_kept {c0 : Cfg} {q0 : List Instr} (s : State) (n : Nat) (d : RecipeDesc) (p : Part) (code reason : Nat) (posted : Bool) (h0 : Kept c0 q0 s) :
    Kept c0 q0 (State.recordPart s n d p code reason posted) := by
  unfold State.recordPart
  repeat' (with_reducible first | assumption | apply hx | apply State.modRslot_kept | apply State.showRcp_kept | apply State.releaseIdle_kept | apply State.noteDefault_kept | apply State.peerDefault_kept | apply State.partRec_kept | intro _ | apply Kept.ite | apply Kept.foldS | simp -zeta only [↓Kept.mk_iff] | (extract_lets +onlyGivenNames x; first | (refine Kept.cut (P := Kept c0 q0 x) ?_ ?_; rotate_left; (intro _; clear_value x); rotate_left; unfold x; clear x) | (refine Kept.cut (P := ∀ y, Kept c0 q0 y → Kept c0 q0 (x y)) ?_ ?_; rotate_left; (intro hx; clear_value x); rotate_left; unfold x; clear x) | (refine Kept.cut (P := ∀ y a, Kept c0 q0 y → Kept c0 q0 (x y a)) ?_ ?_; rotate_left; (intro hx; clear_value x); rotate_left; unfold x; clear x) | (refine Kept.cut (P := ∀ a y, Kept c0 q0 y → Kept c0 q0 (x a y)) ?_ ?_; rotate_left; (intro hx; clear_value x); rotate_left; unfold x; clear x) | (refine Kept.cut (P := ∀ a, Kept c0 q0 (x a)) ?_ ?_; rotate_left; (intro hx; clear_value x); rotate_left; unfold x; clear x) | (refine Kept.cut (P := ∀ a, Kept c0 q0 (x a).2.2) ?_ ?_; rotate_left; (intro hx; clear_value x); rotate_left; unfold x; clear x) | (refine Kept.cut (P := ∀ a, Kept c0 q0 (x a).2) ?_ ?_; rotate_left; (intro hx; clear_value x); rotate_left; unfold x; clear x) | (refine Kept.cut (P := ∀ a b, Kept c0 q0 (x a b)) ?_ ?_; rotate_left; (intro hx; clear_value x); rotate_left; unfold x; clear x) | (refine Kept.cut (P := ∀ y a b, Kept c0 q0 y → Kept c0 q0 (x y a b)) ?_ ?_; rotate_left; (intro hx; clear_value x); rotate_left; unfold x; clear x) | (refine Kept.cut (P := Kept c0 q0 x.2) ?_ ?_; rotate_left; (intro hx; clear_value x); rotate_left; unfold x; clear x) | (refine Kept.cut (P := Kept c0 q0 x.1) ?_ ?_; rotate_left; (intro hx; clear_value x); rotate_left; unfold x; clear x) | (refine Kept.cut (P := Kept c0 q0 x.2.2) ?_ ?_; rotate_left; (intro hx; clear_value x); rotate_left; unfold x; clear x) | (refine Kept.cut (P := Kept c0 q0 x.2.1) ?_ ?_; rotate_left; (intro hx; clear_value x); rotate_left; unfold x; clear x) | clear_value x) | split)

theorem State.endPart_kept {c0 : Cfg} {q0 : List Instr} (s : State) (n : Nat) (d : RecipeDesc) (p : Part) (code reason : Nat) (h0 : Kept c0 q0 s) :
    Kept c0 q0 (State.endPart s n d p code reason) := by
  unfold State.endPart
  repeat' (with_reducible first | assumption | apply State.postPartEvent_kept | apply State.recordPart_kept | intro _ | apply Kept.ite | apply Kept.foldS | split)

theorem State.openIt_kept {c0 : Cfg} {q0 : List Instr} (s : State) (n : Nat) (d : RecipeDesc) (busy : List Nat) (p : Part) (h0 : Kept c0 q0 s) :
    Kept c0 q0 (State.openIt s n d busy p).1 := by
  unfold State.openIt
  repeat' (with_reducible first | assumption | apply State.modRslot_kept | apply State.setRslot_kept | apply State.showRcp_kept | apply State.writeSlotRecord_kept | apply State.endPart_kept | intro _ | apply Kept.ite | apply Kept.foldS | simp -zeta only [↓Kept.mk_iff] | (extract_lets +onlyGivenNames x; first | (refine Kept.cut (P := Kept c0 q0 x) ?_ ?_; rotate_left; (intro _; clear_value x); rotate_left; unfold x; clear x) | clear_value x) | split)

theorem State.closeIt_kept {c0 : Cfg} {q0 : List Instr} (s : State) (n : Nat) (d : RecipeDesc) (taken : List StripIn) (own : Bool) (h line : Nat) (h0 : Kept c0 q0 s) :
    Kept c0 q0 (State.closeIt s n d taken own h line) := by
  unfold State.closeIt
  repeat' (with_reducible first | assumption | apply State.setRslot_kept | intro _ | apply Kept.ite | apply Kept.foldS | simp -zeta only [↓Kept.mk_iff] | split)

theorem applyForwarded_kept {c0 : Cfg} {q0 : List Instr} (n : Nat) (d : RecipeDesc) (busy : List Nat) (taken : List StripIn) (own : Bool) (f : MarkFwd) (s : State) (h0 : Kept c0 q0 s) :
    Kept c0 q0 (applyForwarded n d busy taken own f s) := by
  unfold applyForwarded
  repeat' (with_reducible first | assumption | apply State.openIt_kept | apply State.closeIt_kept | intro _ | apply Kept.ite | apply Kept.foldS | simp -zeta only [↓Kept.mk_iff] | split)

theorem State.forwardMarks_kept {c0 : Cfg} {q0 : List Instr} (s : State) (d : RecipeDesc) (k : Nat) (l : List MarkFwd) (h0 : Kept c0 q0 s) :
    Kept c0 q0 (State.forwardMarks s d k l) := by
  unfold State.forwardMarks
  repeat' (with_reducible first | assumption | apply State.builderRemote_kept | intro _ | apply Kept.ite | apply Kept.foldS | split)

theorem State.takeCtx_kept {c0 : Cfg} {q0 : List Instr} (s : State) (n : Nat) (d : RecipeDesc) (w : Nat) (h0 : Kept c0 q0 s) :
    Kept c0 q0 (State.takeCtx s n d w) := by
  unfold State.takeCtx
  repeat' (with_reducible first | assumption | apply State.modRslot_kept | apply State.rcpEvent_kept | intro _ | apply Kept.ite | apply Kept.foldS | split)

theorem State.matchContexts_kept {c0 : Cfg} {q0 : List Instr} (s : State) (n : Nat) (d : RecipeDesc) (h0 : Kept c0 q0 s) :
    Kept c0 q0 (State.matchContexts s n d) := by
  unfold State.matchContexts
  repeat' (with_reducible first | assumption | apply State.setRslot_kept | apply State.rcpEvent_kept | intro _ | apply Kept.ite | apply Kept.foldS | split)

theorem State.buildInfer_kept {c0 : Cfg} {q0 : List Instr} (s : State) (n : Nat) (ctx : List Nat) (h0 : Kept c0 q0 s) :
    Kept c0 q0 (State.buildInfer s n ctx) := by
  unfold State.buildInfer
  repeat' (with_reducible first | assumption | apply State.setRslot_kept | apply State.showRcp_kept | apply State.writeSlotRecord_kept | apply State.stepGroup_kept | apply State.writeTable_kept | apply State.takeCtx_kept | apply State.matchContexts_kept | intro _ | apply Kept.ite | apply Kept.foldS | split)

theorem State.noteDropped_kept {c0 : Cfg} {q0 : List Instr} (s : State) (n : Nat) (r : RcpSlot) (kind : Nat) (h0 : Kept c0 q0 s) :
    Kept c0 q0 (State.noteDropped s n r kind) := by
  unfold State.noteDropped
  repeat' (with_reducible first | assumption | apply State.modRslot_kept | intro _ | apply Kept.ite | apply Kept.foldS | split)

theorem MarkRun.refuse_kept {c0 : Cfg} {q0 : List Instr} (m : MarkRun) (n k h cause : Nat) (h0 : Kept c0 q0 m.s) : Kept c0 q0 (m.refuse n k h cause).s :=
  State.rcpEvent_kept _ _ _ _ _ h0

theorem applyMark_kept {c0 : Cfg} {q0 : List Instr} (n : Nat) (d : RecipeDesc) (busy : List Nat) (w : Nat) (m : MarkRun) (h0 : Kept c0 q0 m.s) :
    Kept c0 q0 (applyMark n d busy w m).s := by
  unfold applyMark
  dsimp only
  repeat' split
  all_goals first
    | exact h0
    | exact MarkRun.refuse_kept _ _ _ _ _ h0
    | exact State.openIt_kept _ _ _ _ _ (State.modRslot_kept _ _ _ h0)
    | exact State.closeIt_kept _ _ _ _ _ h0

theorem State.marksApply_kept {c0 : Cfg} {q0 : List Instr} (s : State) (n : Nat) (ctx : List Nat) (h0 : Kept c0 q0 s) :
    Kept c0 q0 (s.marksApply n ctx) := by
  have key : ∀ (d : RecipeDesc) (b l : List Nat) (m : MarkRun), Kept c0 q0 m.s →
      Kept c0 q0 (l.foldl (fun m w => applyMark n d b w m) m).s := by
    intro d b l
    induction l with
    | nil => exact fun _ h => h
    | cons a l ih => exact fun m h => ih _ (applyMark_kept _ _ _ _ _ h)
  unfold State.marksApply
  repeat' (with_reducible first | assumption | apply hx | apply key | apply State.buildInfer_kept | apply State.forwardMarks_kept | apply State.noteDropped_kept | intro _ | apply Kept.ite | apply Kept.foldS | simp -zeta only [↓Kept.mk_iff] | (extract_lets +onlyGivenNames x; first | (refine Kept.cut (P := Kept c0 q0 x) ?_ ?_; rotate_left; (intro _; clear_value x); rotate_left; unfold x; clear x) | (refine Kept.cut (P := ∀ y, Kept c0 q0 y → Kept c0 q0 (x y)) ?_ ?_; rotate_left; (intro hx; clear_value x); rotate_left; unfold x; clear x) | (refine Kept.cut (P := ∀ y a, Kept c0 q0 y → Kept c0 q0 (x y a)) ?_ ?_; rotate_left; (intro hx; clear_value x); rotate_left; unfold x; clear x) | (refine Kept.cut (P := ∀ a y, Kept c0 q0 y → Kept c0 q0 (x a y)) ?_ ?_; rotate_left; (intro hx; clear_value x); rotate_left; unfold x; clear x) | (refine Kept.cut (P := ∀ a, Kept c0 q0 (x a)) ?_ ?_; rotate_left; (intro hx; clear_value x); rotate_left; unfold x; clear x) | (refine Kept.cut (P := ∀ a, Kept c0 q0 (x a).2.2) ?_ ?_; rotate_left; (intro hx; clear_value x); rotate_left; unfold x; clear x) | (refine Kept.cut (P := ∀ a, Kept c0 q0 (x a).2) ?_ ?_; rotate_left; (intro hx; clear_value x); rotate_left; unfold x; clear x) | (refine Kept.cut (P := ∀ a b, Kept c0 q0 (x a b)) ?_ ?_; rotate_left; (intro hx; clear_value x); rotate_left; unfold x; clear x) | (refine Kept.cut (P := ∀ y a b, Kept c0 q0 y → Kept c0 q0 (x y a b)) ?_ ?_; rotate_left; (intro hx; clear_value x); rotate_left; unfold x; clear x) | (refine Kept.cut (P := Kept c0 q0 x.2) ?_ ?_; rotate_left; (intro hx; clear_value x); rotate_left; unfold x; clear x) | (refine Kept.cut (P := Kept c0 q0 x.1) ?_ ?_; rotate_left; (intro hx; clear_value x); rotate_left; unfold x; clear x) | (refine Kept.cut (P := Kept c0 q0 x.2.2) ?_ ?_; rotate_left; (intro hx; clear_value x); rotate_left; unfold x; clear x) | (refine Kept.cut (P := Kept c0 q0 x.2.1) ?_ ?_; rotate_left; (intro hx; clear_value x); rotate_left; unfold x; clear x) | clear_value x) | split)

theorem State.marksLate_kept {c0 : Cfg} {q0 : List Instr} (s : State) (n k : Nat) (d : RecipeDesc) (h0 : Kept c0 q0 s) :
    Kept c0 q0 (State.marksLate s n k d) := by
  unfold State.marksLate
  repeat' (with_reducible first | assumption | apply State.bump_kept | apply State.rcpEvent_kept)

theorem State.peerBuild_kept {c0 : Cfg} {q0 : List Instr} (s : State) (n : Nat) (ctx : List Nat) (h0 : Kept c0 q0 s) :
    Kept c0 q0 (State.peerBuild s n ctx) := by
  unfold State.peerBuild
  repeat' (with_reducible first | assumption | apply State.setRslot_kept | apply applyForwarded_kept | apply State.buildInfer_kept | intro _ | apply Kept.ite | apply Kept.foldS | simp -zeta only [↓Kept.mk_iff] | (extract_lets +onlyGivenNames x; first | (refine Kept.cut (P := Kept c0 q0 x) ?_ ?_; rotate_left; (intro _; clear_value x); rotate_left; unfold x; clear x) | clear_value x) | split)

theorem State.markBatch_kept {c0 : Cfg} {q0 : List Instr} (s : State) (n : Nat) (b : MarkBatch) (ctx : List Nat) (h0 : Kept c0 q0 s) :
    Kept c0 q0 (State.markBatch s n b ctx) := by
  unfold State.markBatch
  repeat' (with_reducible first | assumption | apply State.setRslot_kept | apply State.marksLate_kept | apply State.peerBuild_kept | intro _ | apply Kept.ite | apply Kept.foldS | split)

theorem State.markTimeout_kept {c0 : Cfg} {q0 : List Instr} (s : State) (n : Nat) (ctx : List Nat) (h0 : Kept c0 q0 s) :
    Kept c0 q0 (State.markTimeout s n ctx) := by
  unfold State.markTimeout
  repeat' (with_reducible first | assumption | apply State.setRslot_kept | apply State.peerBuild_kept | intro _ | apply Kept.ite | apply Kept.foldS | split)

theorem State.wordIgnored_kept {c0 : Cfg} {q0 : List Instr} (s : State) (n i : Nat) (p : Part) (cause : Nat) (h0 : Kept c0 q0 s) :
    Kept c0 q0 (State.wordIgnored s n i p cause) := by
  unfold State.wordIgnored
  repeat' (with_reducible first | assumption | apply State.modRslot_kept | apply State.rcpEvent_kept)

theorem State.wordEnd_kept {c0 : Cfg} {q0 : List Instr} (s : State) (n : Nat) (d : RecipeDesc) (p : Part) (w : Nat) (h0 : Kept c0 q0 s) :
    Kept c0 q0 (State.wordEnd s n d p w) := by
  unfold State.wordEnd
  repeat' (with_reducible first | assumption | apply State.endPart_kept | intro _ | apply Kept.ite | apply Kept.foldS | split)

theorem State.modPart_kept {c0 : Cfg} {q0 : List Instr} (s : State) (n ordinal : Nat) (f : Part → Part) (h0 : Kept c0 q0 s) :
    Kept c0 q0 (State.modPart s n ordinal f) := by
  unfold State.modPart
  repeat' (with_reducible first | assumption | apply State.modRslot_kept)

theorem State.expirePart_kept {c0 : Cfg} {q0 : List Instr} (s : State) (n : Nat) (d : RecipeDesc) (p : Part) (h0 : Kept c0 q0 s) :
    Kept c0 q0 (State.expirePart s n d p) := by
  unfold State.expirePart
  repeat' (with_reducible first | assumption | apply State.setSync_kept | apply State.postPartEvent_kept | apply State.endPart_kept | apply State.wordEnd_kept | apply State.modPart_kept | intro _ | apply Kept.ite | apply Kept.foldS | split)

theorem State.owedEnd_kept {c0 : Cfg} {q0 : List Instr} (s : State) (n : Nat) (d : RecipeDesc) (p : Part) (h0 : Kept c0 q0 s) :
    Kept c0 q0 (State.owedEnd s n d p) := by
  unfold State.owedEnd
  repeat' (with_reducible first | assumption | apply State.recordPart_kept | intro _ | apply Kept.ite | apply Kept.foldS | split)

theorem State.wordAfter_kept {c0 : Cfg} {q0 : List Instr} (s : State) (n i w : Nat) (h0 : Kept c0 q0 s) :
    Kept c0 q0 (State.wordAfter s n i w) := by
  unfold State.wordAfter
  repeat' (with_reducible first | assumption | apply State.rcpEvent_kept | intro _ | apply Kept.ite | apply Kept.foldS | split)

theorem State.verdictWrite_kept {c0 : Cfg} {q0 : List Instr} (s : State) (n i w : Nat) (h0 : Kept c0 q0 s) :
    Kept c0 q0 (State.verdictWrite s n i w) := by
  unfold State.verdictWrite
  repeat' (with_reducible first | assumption | apply State.writeLe_kept | apply State.wordIgnored_kept | apply State.wordEnd_kept | apply State.modPart_kept | apply State.expirePart_kept | apply State.wordAfter_kept | intro _ | apply Kept.ite | apply Kept.foldS | simp -zeta only [↓Kept.mk_iff] | (extract_lets +onlyGivenNames x; first | (refine Kept.cut (P := Kept c0 q0 x) ?_ ?_; rotate_left; (intro _; clear_value x); rotate_left; unfold x; clear x) | clear_value x) | split)

theorem State.closingEnd_kept {c0 : Cfg} {q0 : List Instr} (s : State) (n : Nat) (d : RecipeDesc) (p : Part) (h0 : Kept c0 q0 s) :
    Kept c0 q0 (State.closingEnd s n d p) := by
  unfold State.closingEnd
  repeat' (with_reducible first | assumption | apply State.endPart_kept | apply State.wordEnd_kept | apply State.modPart_kept | intro _ | apply Kept.ite | apply Kept.foldS | split)

theorem State.inferEnd_kept {c0 : Cfg} {q0 : List Instr} (s : State) (n : Nat) (h0 : Kept c0 q0 s) :
    Kept c0 q0 (State.inferEnd s n) := by
  unfold State.inferEnd
  repeat' (with_reducible first | assumption | apply State.releaseIdle_kept | apply State.setRslot_kept | apply State.noteDropped_kept | apply State.marksLate_kept | apply State.releaseStrips_kept | apply State.owedEnd_kept | apply State.closingEnd_kept | apply State.idle_kept | intro _ | apply Kept.ite | apply Kept.foldS | split)

theorem State.partDeadlineExpiry_kept {c0 : Cfg} {q0 : List Instr} (s : State) (n ordinal : Nat) (h0 : Kept c0 q0 s) :
    Kept c0 q0 (State.partDeadlineExpiry s n ordinal) := by
  unfold State.partDeadlineExpiry
  repeat' (with_reducible first | assumption | apply State.expirePart_kept | intro _ | apply Kept.ite | apply Kept.foldS | simp -zeta only [↓Kept.mk_iff] | (extract_lets +onlyGivenNames x; first | (refine Kept.cut (P := Kept c0 q0 x) ?_ ?_; rotate_left; (intro _; clear_value x); rotate_left; unfold x; clear x) | clear_value x) | split)

theorem State.resetParts_kept {c0 : Cfg} {q0 : List Instr} (s : State) (wait : Bool) (h0 : Kept c0 q0 s) :
    Kept c0 q0 (State.resetParts s wait) := by
  unfold State.resetParts
  repeat' (with_reducible first | assumption | apply State.showRcp_kept | apply State.releaseIdle_kept | apply State.noteDefault_kept | apply State.peerDefault_kept | apply State.setRslot_kept | apply State.partRec_kept | intro _ | apply Kept.ite | apply Kept.foldS | simp -zeta only [↓Kept.mk_iff] | (extract_lets +onlyGivenNames x; first | (refine Kept.cut (P := Kept c0 q0 x) ?_ ?_; rotate_left; (intro _; clear_value x); rotate_left; unfold x; clear x) | clear_value x) | split)

theorem State.runChanged_kept {c0 : Cfg} {q0 : List Instr} (s : State) (n old new : Nat) (h0 : Kept c0 q0 s) :
    Kept c0 q0 (State.runChanged s n old new) := by
  unfold State.runChanged
  repeat' (with_reducible first | assumption | apply State.releaseIdle_kept | apply State.modRslot_kept | apply State.releaseStrips_kept | apply State.idle_kept | intro _ | apply Kept.ite | apply Kept.foldS | split)

theorem State.rcpRunWrite_kept {c0 : Cfg} {q0 : List Instr} (s : State) (src : Src) (n v : Nat) (h0 : Kept c0 q0 s) :
    Kept c0 q0 (State.rcpRunWrite s src n v) := by
  unfold State.rcpRunWrite
  repeat' (with_reducible first | assumption | apply State.paramWrite_kept | apply State.dsRefused_kept | apply State.runChanged_kept | intro _ | apply Kept.ite | apply Kept.foldS | split)

end Sys2Proof.Machine
end

