-- ==== Sys2Proof/Laws/KeptFabric.lean ====
section
/-! SUPPORT. What every operation keeps (`Kept`): the fabric, the position unit and the timebase. -/

namespace Sys2Proof.Machine

theorem State.setTxns_kept {c0 : Cfg} {q0 : List Instr} (s : State) (l : List FabTxn) (h0 : Kept c0 q0 s) :
    Kept c0 q0 (State.setTxns s l) :=
  h0

theorem State.showPort_kept {c0 : Cfg} {q0 : List Instr} (s : State) (m : Nat) (h0 : Kept c0 q0 s) :
    Kept c0 q0 (State.showPort s m) := by
  unfold State.showPort
  repeat' (with_reducible first | assumption | apply State.put_kept | intro _ | apply Kept.ite | apply Kept.foldS | split)

theorem State.showBurrow_kept {c0 : Cfg} {q0 : List Instr} (s : State) (p : Nat) (h0 : Kept c0 q0 s) :
    Kept c0 q0 (State.showBurrow s p) := by
  unfold State.showBurrow
  repeat' (with_reducible first | assumption | apply State.put_kept | intro _ | apply Kept.ite | apply Kept.foldS | split)

theorem State.answer_kept {c0 : Cfg} {q0 : List Instr} (s : State) (t : FabTxn) (err : Bool) (bytes : List Byte) (h0 : Kept c0 q0 s) :
    Kept c0 q0 (State.answer s t err bytes) := by
  unfold State.answer
  repeat' (with_reducible first | assumption | apply State.setTxns_kept | apply State.showPort_kept | intro _ | apply Kept.ite | apply Kept.foldS | simp -zeta only [↓Kept.mk_iff] | split)

theorem State.beatDone_kept {c0 : Cfg} {q0 : List Instr} (s : State) (t : FabTxn) (b : Nat) (bytes : List Byte) (err : Bool) (h0 : Kept c0 q0 s) :
    Kept c0 q0 (State.beatDone s t b bytes err) := by
  unfold State.beatDone
  repeat' (with_reducible first | assumption | apply State.setTxns_kept | apply State.answer_kept | intro _ | apply Kept.ite | apply Kept.foldS | split)

theorem State.unmapped_kept {c0 : Cfg} {q0 : List Instr} (s : State) (m a : Nat) (wr : Bool) (h0 : Kept c0 q0 s) :
    Kept c0 q0 (State.unmapped s m a wr) := by
  unfold State.unmapped
  repeat' (with_reducible first | assumption | apply State.put_kept | apply State.bump_kept | apply State.postLim_kept)

theorem State.burrowPump_kept {c0 : Cfg} {q0 : List Instr} (s : State) (p n : Nat) (h0 : Kept c0 q0 s) :
    Kept c0 q0 (s.burrowPump p n) := by
  induction n generalizing s with
  | zero => exact h0
  | succ n ih =>
    unfold State.burrowPump
    repeat' (with_reducible first | assumption | apply ih | apply State.setTxns_kept | apply State.pcCount_kept | intro _ | apply Kept.ite | apply Kept.foldS | simp -zeta only [↓Kept.mk_iff] | (extract_lets +onlyGivenNames x; first | (refine Kept.cut (P := Kept c0 q0 x) ?_ ?_; rotate_left; (intro _; clear_value x); rotate_left; unfold x; clear x) | clear_value x) | split)

theorem State.enterTxn_kept {c0 : Cfg} {q0 : List Instr} (s : State) (t : FabTxn) (h0 : Kept c0 q0 s) :
    Kept c0 q0 (State.enterTxn s t) := by
  unfold State.enterTxn
  repeat' (with_reducible first | assumption | apply State.setTxns_kept | apply State.showPort_kept | simp -zeta only [↓Kept.mk_iff])

theorem State.present_kept {c0 : Cfg} {q0 : List Instr} (s : State) (m : Nat) (wr : Bool) (word len e : Nat) (data : List (Option Byte)) (h0 : Kept c0 q0 s) :
    Kept c0 q0 (State.present s m wr word len e data) := by
  unfold State.present
  repeat' (with_reducible first | assumption | apply hx | apply State.audDenied_kept | apply State.showBurrow_kept | apply State.answer_kept | apply State.unmapped_kept | apply State.burrowPump_kept | apply State.enterTxn_kept | apply State.hostAbandon_kept | intro _ | apply Kept.ite | apply Kept.foldS | simp -zeta only [↓Kept.mk_iff] | (extract_lets +onlyGivenNames x; first | (refine Kept.cut (P := Kept c0 q0 x) ?_ ?_; rotate_left; (intro _; clear_value x); rotate_left; unfold x; clear x) | (refine Kept.cut (P := ∀ y, Kept c0 q0 y → Kept c0 q0 (x y)) ?_ ?_; rotate_left; (intro hx; clear_value x); rotate_left; unfold x; clear x) | (refine Kept.cut (P := ∀ y a, Kept c0 q0 y → Kept c0 q0 (x y a)) ?_ ?_; rotate_left; (intro hx; clear_value x); rotate_left; unfold x; clear x) | (refine Kept.cut (P := ∀ a y, Kept c0 q0 y → Kept c0 q0 (x a y)) ?_ ?_; rotate_left; (intro hx; clear_value x); rotate_left; unfold x; clear x) | (refine Kept.cut (P := ∀ a, Kept c0 q0 (x a)) ?_ ?_; rotate_left; (intro hx; clear_value x); rotate_left; unfold x; clear x) | (refine Kept.cut (P := ∀ a, Kept c0 q0 (x a).2.2) ?_ ?_; rotate_left; (intro hx; clear_value x); rotate_left; unfold x; clear x) | (refine Kept.cut (P := ∀ a, Kept c0 q0 (x a).2) ?_ ?_; rotate_left; (intro hx; clear_value x); rotate_left; unfold x; clear x) | (refine Kept.cut (P := ∀ a b, Kept c0 q0 (x a b)) ?_ ?_; rotate_left; (intro hx; clear_value x); rotate_left; unfold x; clear x) | (refine Kept.cut (P := ∀ y a b, Kept c0 q0 y → Kept c0 q0 (x y a b)) ?_ ?_; rotate_left; (intro hx; clear_value x); rotate_left; unfold x; clear x) | (refine Kept.cut (P := Kept c0 q0 x.2) ?_ ?_; rotate_left; (intro hx; clear_value x); rotate_left; unfold x; clear x) | (refine Kept.cut (P := Kept c0 q0 x.1) ?_ ?_; rotate_left; (intro hx; clear_value x); rotate_left; unfold x; clear x) | (refine Kept.cut (P := Kept c0 q0 x.2.2) ?_ ?_; rotate_left; (intro hx; clear_value x); rotate_left; unfold x; clear x) | (refine Kept.cut (P := Kept c0 q0 x.2.1) ?_ ?_; rotate_left; (intro hx; clear_value x); rotate_left; unfold x; clear x) | clear_value x) | split)

theorem State.remapSettle_kept {c0 : Cfg} {q0 : List Instr} (s : State) (h0 : Kept c0 q0 s) :
    Kept c0 q0 (State.remapSettle s) := by
  unfold State.remapSettle
  repeat' (with_reducible first | assumption | apply State.put_kept | intro _ | apply Kept.ite | apply Kept.foldS | simp -zeta only [↓Kept.mk_iff] | (extract_lets +onlyGivenNames x; first | (refine Kept.cut (P := Kept c0 q0 x) ?_ ?_; rotate_left; (intro _; clear_value x); rotate_left; unfold x; clear x) | clear_value x) | split)

theorem State.writeWord_kept {c0 : Cfg} {q0 : List Instr} (s : State) (a : Nat) (l : List (Option Byte)) (h0 : Kept c0 q0 s) :
    Kept c0 q0 (State.writeWord s a l) := by
  unfold State.writeWord
  repeat' (with_reducible first | assumption | apply State.writeMem_kept | intro _ | apply Kept.ite | apply Kept.foldS | split)

theorem State.cancelBack_kept {c0 : Cfg} {q0 : List Instr} (s : State) (b : Nat) (words : List Nat) (h0 : Kept c0 q0 s) :
    Kept c0 q0 (State.cancelBack s b words) :=
  h0

/-- A register port that keeps the frame. -/
def RegPort.Keeps (rp : RegPort) : Prop :=
  (∀ c q s m o v, Kept c q s → Kept c q (rp.wr s m o v)) ∧ ∀ c q s m o, Kept c q s → Kept c q (rp.rd s m o).2

theorem State.commitBeat_kept {c0 : Cfg} {q0 : List Instr} (s : State) (rp : RegPort) (g : Nat) (bad : List Nat) (hrp : rp.Keeps) (h0 : Kept c0 q0 s) :
    Kept c0 q0 (s.commitBeat rp g bad) := by
  have hw := fun s m o v (h : Kept c0 q0 s) => hrp.1 c0 q0 s m o v h
  unfold State.commitBeat
  repeat' (with_reducible first | assumption | apply hx | apply hw | apply State.remapSettle_kept | apply State.pcCount_kept | apply State.beatDone_kept | apply State.cancelBack_kept | apply State.writeWord_kept | apply State.eccBad_kept | intro _ | apply Kept.ite | apply Kept.foldS | simp -zeta only [↓Kept.mk_iff] | (extract_lets +onlyGivenNames x; first | (refine Kept.cut (P := Kept c0 q0 x) ?_ ?_; rotate_left; (intro _; clear_value x); rotate_left; unfold x; clear x) | (refine Kept.cut (P := ∀ y, Kept c0 q0 y → Kept c0 q0 (x y)) ?_ ?_; rotate_left; (intro hx; clear_value x); rotate_left; unfold x; clear x) | (refine Kept.cut (P := ∀ y a, Kept c0 q0 y → Kept c0 q0 (x y a)) ?_ ?_; rotate_left; (intro hx; clear_value x); rotate_left; unfold x; clear x) | (refine Kept.cut (P := ∀ a y, Kept c0 q0 y → Kept c0 q0 (x a y)) ?_ ?_; rotate_left; (intro hx; clear_value x); rotate_left; unfold x; clear x) | (refine Kept.cut (P := ∀ a, Kept c0 q0 (x a)) ?_ ?_; rotate_left; (intro hx; clear_value x); rotate_left; unfold x; clear x) | (refine Kept.cut (P := ∀ a, Kept c0 q0 (x a).2.2) ?_ ?_; rotate_left; (intro hx; clear_value x); rotate_left; unfold x; clear x) | (refine Kept.cut (P := ∀ a, Kept c0 q0 (x a).2) ?_ ?_; rotate_left; (intro hx; clear_value x); rotate_left; unfold x; clear x) | (refine Kept.cut (P := ∀ a b, Kept c0 q0 (x a b)) ?_ ?_; rotate_left; (intro hx; clear_value x); rotate_left; unfold x; clear x) | (refine Kept.cut (P := ∀ y a b, Kept c0 q0 y → Kept c0 q0 (x y a b)) ?_ ?_; rotate_left; (intro hx; clear_value x); rotate_left; unfold x; clear x) | (refine Kept.cut (P := Kept c0 q0 x.2) ?_ ?_; rotate_left; (intro hx; clear_value x); rotate_left; unfold x; clear x) | (refine Kept.cut (P := Kept c0 q0 x.1) ?_ ?_; rotate_left; (intro hx; clear_value x); rotate_left; unfold x; clear x) | (refine Kept.cut (P := Kept c0 q0 x.2.2) ?_ ?_; rotate_left; (intro hx; clear_value x); rotate_left; unfold x; clear x) | (refine Kept.cut (P := Kept c0 q0 x.2.1) ?_ ?_; rotate_left; (intro hx; clear_value x); rotate_left; unfold x; clear x) | clear_value x) | split)

theorem State.readBeat_kept {c0 : Cfg} {q0 : List Instr} (s : State) (rp : RegPort) (g : Nat) (fixed bad : List Nat) (hrp : rp.Keeps) (h0 : Kept c0 q0 s) :
    Kept c0 q0 (s.readBeat rp g fixed bad) := by
  have key : ∀ (m lo : Nat) (l : List Nat) (r : List Byte × State), Kept c0 q0 r.2 →
      Kept c0 q0 (l.foldl (fun (a : List Byte × State) k =>
        let q := rp.rd a.2 m (lo + 4 * k - regBase); (a.1 ++ leBytes 4 q.1, q.2)) r).2 := by
    intro m lo l
    induction l with
    | nil => exact fun _ h => h
    | cons a l ih => exact fun r h => ih _ (hrp.2 _ _ _ _ _ h)
  unfold State.readBeat
  repeat' (with_reducible first | assumption | apply hx | apply key | apply State.remapSettle_kept | apply State.pcCount_kept | apply State.beatDone_kept | apply State.eccFixed_kept | apply State.eccBad_kept | apply State.markSoft_kept | intro _ | apply Kept.ite | apply Kept.foldS | simp -zeta only [↓Kept.mk_iff] | (extract_lets +onlyGivenNames x; first | (refine Kept.cut (P := Kept c0 q0 x) ?_ ?_; rotate_left; (intro _; clear_value x); rotate_left; unfold x; clear x) | (refine Kept.cut (P := ∀ y, Kept c0 q0 y → Kept c0 q0 (x y)) ?_ ?_; rotate_left; (intro hx; clear_value x); rotate_left; unfold x; clear x) | (refine Kept.cut (P := ∀ y a, Kept c0 q0 y → Kept c0 q0 (x y a)) ?_ ?_; rotate_left; (intro hx; clear_value x); rotate_left; unfold x; clear x) | (refine Kept.cut (P := ∀ a y, Kept c0 q0 y → Kept c0 q0 (x a y)) ?_ ?_; rotate_left; (intro hx; clear_value x); rotate_left; unfold x; clear x) | (refine Kept.cut (P := ∀ a, Kept c0 q0 (x a)) ?_ ?_; rotate_left; (intro hx; clear_value x); rotate_left; unfold x; clear x) | (refine Kept.cut (P := ∀ a, Kept c0 q0 (x a).2.2) ?_ ?_; rotate_left; (intro hx; clear_value x); rotate_left; unfold x; clear x) | (refine Kept.cut (P := ∀ a, Kept c0 q0 (x a).2) ?_ ?_; rotate_left; (intro hx; clear_value x); rotate_left; unfold x; clear x) | (refine Kept.cut (P := ∀ a b, Kept c0 q0 (x a b)) ?_ ?_; rotate_left; (intro hx; clear_value x); rotate_left; unfold x; clear x) | (refine Kept.cut (P := ∀ y a b, Kept c0 q0 y → Kept c0 q0 (x y a b)) ?_ ?_; rotate_left; (intro hx; clear_value x); rotate_left; unfold x; clear x) | (refine Kept.cut (P := Kept c0 q0 x.2) ?_ ?_; rotate_left; (intro hx; clear_value x); rotate_left; unfold x; clear x) | (refine Kept.cut (P := Kept c0 q0 x.1) ?_ ?_; rotate_left; (intro hx; clear_value x); rotate_left; unfold x; clear x) | (refine Kept.cut (P := Kept c0 q0 x.2.2) ?_ ?_; rotate_left; (intro hx; clear_value x); rotate_left; unfold x; clear x) | (refine Kept.cut (P := Kept c0 q0 x.2.1) ?_ ?_; rotate_left; (intro hx; clear_value x); rotate_left; unfold x; clear x) | clear_value x) | split)

theorem State.writeBack_kept {c0 : Cfg} {q0 : List Instr} (s : State) (bank : Nat) (h0 : Kept c0 q0 s) :
    Kept c0 q0 (State.writeBack s bank) := by
  unfold State.writeBack
  repeat' (with_reducible first | assumption | intro _ | apply Kept.ite | apply Kept.foldS | simp -zeta only [↓Kept.mk_iff] | split)

theorem State.burrowErr_kept {c0 : Cfg} {q0 : List Instr} (s : State) (p b resp : Nat) (h0 : Kept c0 q0 s) :
    Kept c0 q0 (State.burrowErr s p b resp) := by
  unfold State.burrowErr
  repeat' (with_reducible first | assumption | apply State.put_kept | apply State.bump_kept | apply State.postLim_kept)

theorem State.burrowDone_kept {c0 : Cfg} {q0 : List Instr} (s : State) (p : Nat) (t : FabTxn) (err : Bool) (h0 : Kept c0 q0 s) :
    Kept c0 q0 (State.burrowDone s p t err) := by
  unfold State.burrowDone
  repeat' (with_reducible first | assumption | apply State.showBurrow_kept | apply State.answer_kept | apply State.burrowPump_kept)

theorem State.burrowRead_kept {c0 : Cfg} {q0 : List Instr} (s : State) (p tag resp : Nat) (h0 : Kept c0 q0 s) :
    Kept c0 q0 (State.burrowRead s p tag resp) := by
  unfold State.burrowRead
  repeat' (with_reducible first | assumption | apply State.bump_kept | apply State.burrowErr_kept | apply State.burrowDone_kept | intro _ | apply Kept.ite | apply Kept.foldS | simp -zeta only [↓Kept.mk_iff] | (extract_lets +onlyGivenNames x; first | (refine Kept.cut (P := Kept c0 q0 x) ?_ ?_; rotate_left; (intro _; clear_value x); rotate_left; unfold x; clear x) | clear_value x) | split)

theorem State.burrowAck_kept {c0 : Cfg} {q0 : List Instr} (s : State) (p tag resp : Nat) (h0 : Kept c0 q0 s) :
    Kept c0 q0 (State.burrowAck s p tag resp) := by
  unfold State.burrowAck
  repeat' (with_reducible first | assumption | apply State.writeWord_kept | apply State.cancelBack_kept | apply State.burrowErr_kept | apply State.burrowDone_kept | intro _ | apply Kept.ite | apply Kept.foldS | split)

theorem State.burrowRewrite_kept {c0 : Cfg} {q0 : List Instr} (s : State) (p : Nat) (h0 : Kept c0 q0 s) :
    Kept c0 q0 (State.burrowRewrite s p) :=
  h0

theorem State.phyReady_kept {c0 : Cfg} {q0 : List Instr} (s : State) (p : Nat) (ready : Bool) (size : Nat) (h0 : Kept c0 q0 s) :
    Kept c0 q0 (State.phyReady s p ready size) := by
  unfold State.phyReady
  repeat' (with_reducible first | assumption | apply State.put_kept | intro _ | apply Kept.ite | apply Kept.foldS | split)

theorem State.fabRefused_kept {c0 : Cfg} {q0 : List Instr} (s : State) (off : Nat) (h0 : Kept c0 q0 s) :
    Kept c0 q0 (State.fabRefused s off) := by
  unfold State.fabRefused
  repeat' (with_reducible first | assumption | apply State.postLim_kept)

theorem State.brwCfgWrite_kept {c0 : Cfg} {q0 : List Instr} (s : State) (src : Src) (p v : Nat) (h0 : Kept c0 q0 s) :
    Kept c0 q0 (State.brwCfgWrite s src p v) := by
  unfold State.brwCfgWrite
  repeat' (with_reducible first | assumption | apply State.put_kept | apply State.paramWriteEff_kept | apply State.fabRefused_kept | intro _ | apply Kept.ite | apply Kept.foldS | simp -zeta only [↓Kept.mk_iff] | split)

theorem State.fillDone_kept {c0 : Cfg} {q0 : List Instr} (s : State) (p : Nat) (h0 : Kept c0 q0 s) :
    Kept c0 q0 (s.fillDone p) := by
  unfold State.fillDone
  split
  · exact h0
  · dsimp only
    split
    · exact h0
    · exact State.put_kept _ _ _ _ ⟨h0.1, h0.2.1, Memory.wf_zero _ _ _ h0.2.2⟩

theorem State.burrowStall_kept {c0 : Cfg} {q0 : List Instr} (s : State) (p : Nat) (h0 : Kept c0 q0 s) :
    Kept c0 q0 (State.burrowStall s p) := by
  unfold State.burrowStall
  repeat' (with_reducible first | assumption | apply State.put_kept | apply State.postLim_kept | intro _ | apply Kept.ite | apply Kept.foldS | simp -zeta only [↓Kept.mk_iff] | (extract_lets +onlyGivenNames x; first | (refine Kept.cut (P := Kept c0 q0 x) ?_ ?_; rotate_left; (intro _; clear_value x); rotate_left; unfold x; clear x) | clear_value x) | split)

theorem State.burrowDownPost_kept {c0 : Cfg} {q0 : List Instr} (s : State) (p : Nat) (h0 : Kept c0 q0 s) :
    Kept c0 q0 (State.burrowDownPost s p) := by
  unfold State.burrowDownPost
  repeat' (with_reducible first | assumption | apply State.postLim_kept | intro _ | apply Kept.ite | apply Kept.foldS | simp -zeta only [↓Kept.mk_iff] | split)

theorem State.scrubRead_kept {c0 : Cfg} {q0 : List Instr} (s : State) (k : Nat) (fixed bad : List Nat) (resp : Nat) (h0 : Kept c0 q0 s) :
    Kept c0 q0 (State.scrubRead s k fixed bad resp) := by
  unfold State.scrubRead
  repeat' (with_reducible first | assumption | apply State.put_kept | apply State.bump_kept | apply State.eccBad_kept | apply State.eccFixed_kept | apply State.burrowErr_kept | intro _ | apply Kept.ite | apply Kept.foldS | simp -zeta only [↓Kept.mk_iff] | (extract_lets +onlyGivenNames x; first | (refine Kept.cut (P := Kept c0 q0 x) ?_ ?_; rotate_left; (intro _; clear_value x); rotate_left; unfold x; clear x) | clear_value x) | split)

theorem State.scrubLate_kept {c0 : Cfg} {q0 : List Instr} (s : State) (k : Nat) (h0 : Kept c0 q0 s) :
    Kept c0 q0 (State.scrubLate s k) := by
  unfold State.scrubLate
  repeat' (with_reducible first | assumption | apply State.postLim_kept | intro _ | apply Kept.ite | apply Kept.foldS | simp -zeta only [↓Kept.mk_iff] | split)

theorem State.abandonFor_kept {c0 : Cfg} {q0 : List Instr} (s : State) (m n : Nat) (h0 : Kept c0 q0 s) :
    Kept c0 q0 (State.abandonFor s m n) := by
  unfold State.abandonFor
  repeat' (with_reducible first | assumption | apply State.hostAbandon_kept | apply State.setEng_kept | apply State.fabricError_kept | intro _ | apply Kept.ite | apply Kept.foldS | split)

theorem State.masterReset_kept {c0 : Cfg} {q0 : List Instr} (s : State) (m : Nat) (ordered : Bool) (h0 : Kept c0 q0 s) :
    Kept c0 q0 (State.masterReset s m ordered) := by
  unfold State.masterReset
  repeat' (with_reducible first | assumption | apply State.setTxns_kept | apply State.showPort_kept | apply State.abandonFor_kept | intro _ | apply Kept.ite | apply Kept.foldS | simp -zeta only [↓Kept.mk_iff] | (extract_lets +onlyGivenNames x; first | (refine Kept.cut (P := Kept c0 q0 x) ?_ ?_; rotate_left; (intro _; clear_value x); rotate_left; unfold x; clear x) | clear_value x) | split)

theorem State.targetReset_kept {c0 : Cfg} {q0 : List Instr} (s : State) (g : Nat) (h0 : Kept c0 q0 s) :
    Kept c0 q0 (State.targetReset s g) := by
  unfold State.targetReset
  repeat' (with_reducible first | assumption | apply State.showBurrow_kept | apply State.answer_kept | intro _ | apply Kept.ite | apply Kept.foldS | simp -zeta only [↓Kept.mk_iff] | split)

theorem State.portReset_kept {c0 : Cfg} {q0 : List Instr} (s : State) (src : Src) (v : Nat) (h0 : Kept c0 q0 s) :
    Kept c0 q0 (State.portReset s src v) := by
  unfold State.portReset
  repeat' (with_reducible first | assumption | apply State.masterReset_kept | apply State.targetReset_kept | intro _ | apply Kept.ite | apply Kept.foldS | split)

theorem State.portResetDone_kept {c0 : Cfg} {q0 : List Instr} (s : State) (target : Bool) (id : Nat) (h0 : Kept c0 q0 s) :
    Kept c0 q0 (State.portResetDone s target id) := by
  unfold State.portResetDone
  repeat' (with_reducible first | assumption | apply State.setEng_kept | apply State.put_kept | apply State.postLim_kept | apply State.showPort_kept | apply State.showBurrow_kept | intro _ | apply Kept.ite | apply Kept.foldS | simp -zeta only [↓Kept.mk_iff] | split)

theorem State.fabricWarm_kept {c0 : Cfg} {q0 : List Instr} (s : State) (h0 : Kept c0 q0 s) :
    Kept c0 q0 (State.fabricWarm s) := by
  unfold State.fabricWarm
  repeat' (with_reducible first | assumption | apply State.put_kept | apply State.masterReset_kept | intro _ | apply Kept.ite | apply Kept.foldS | simp -zeta only [↓Kept.mk_iff] | split)

theorem State.remapWrite_kept {c0 : Cfg} {q0 : List Instr} (s : State) (src : Src) (v : Nat) (h0 : Kept c0 q0 s) :
    Kept c0 q0 (State.remapWrite s src v) := by
  unfold State.remapWrite
  repeat' (with_reducible first | assumption | apply State.remapSettle_kept | intro _ | apply Kept.ite | apply Kept.foldS | simp -zeta only [↓Kept.mk_iff] | split)

theorem State.hoardZeroed_kept {c0 : Cfg} {q0 : List Instr} (s : State) (h0 : Kept c0 q0 s) :
    Kept c0 q0 s.hoardZeroed := by
  unfold State.hoardZeroed
  split
  · exact h0
  · exact ⟨h0.1, h0.2.1, Memory.wf_zero _ _ _ h0.2.2⟩

theorem State.showSpeed_kept {c0 : Cfg} {q0 : List Instr} (s : State) (ch : Nat) (h0 : Kept c0 q0 s) :
    Kept c0 q0 (State.showSpeed s ch) := by
  unfold State.showSpeed
  repeat' (with_reducible first | assumption | apply State.put_kept)

theorem State.speedUpdate_kept {c0 : Cfg} {q0 : List Instr} (s : State) (ch : Nat) (h0 : Kept c0 q0 s) :
    Kept c0 q0 (State.speedUpdate s ch) := by
  unfold State.speedUpdate
  repeat' (with_reducible first | assumption | apply State.setCh_kept | apply State.showSpeed_kept)

theorem State.dirIrq_kept {c0 : Cfg} {q0 : List Instr} (s : State) (ch : Nat) (h0 : Kept c0 q0 s) :
    Kept c0 q0 (State.dirIrq s ch) := by
  unfold State.dirIrq
  repeat' (with_reducible first | assumption | apply State.put_kept | apply State.irqItem_kept | intro _ | apply Kept.ite | apply Kept.foldS | split)

theorem State.dirUpdate_kept {c0 : Cfg} {q0 : List Instr} (s : State) (ch : Nat) (h0 : Kept c0 q0 s) :
    Kept c0 q0 (State.dirUpdate s ch) := by
  unfold State.dirUpdate
  repeat' (with_reducible first | assumption | apply State.put_kept | apply State.postLim_kept | apply State.setCh_kept | apply State.guardCycle_kept | apply State.dirIrq_kept | intro _ | apply Kept.ite | apply Kept.foldS | split)

theorem State.showCnt_kept {c0 : Cfg} {q0 : List Instr} (s : State) (ch : Nat) (h0 : Kept c0 q0 s) :
    Kept c0 q0 (State.showCnt s ch) := by
  unfold State.showCnt
  repeat' (with_reducible first | assumption | apply State.setPair_kept)

theorem State.countStep_kept {c0 : Cfg} {q0 : List Instr} (s : State) (ch : Nat) (d : Int) (h0 : Kept c0 q0 s) :
    Kept c0 q0 (State.countStep s ch d) := by
  unfold State.countStep
  repeat' (with_reducible first | assumption | apply State.put_kept | apply State.postLim_kept | apply State.setCh_kept | apply State.guardCycle_kept | apply State.speedUpdate_kept | apply State.dirUpdate_kept | apply State.showCnt_kept | intro _ | apply Kept.ite | apply Kept.foldS | split)

theorem State.hallMove_kept {c0 : Cfg} {q0 : List Instr} (s : State) (ch code : Nat) (h0 : Kept c0 q0 s) :
    Kept c0 q0 (State.hallMove s ch code) := by
  unfold State.hallMove
  repeat' (with_reducible first | assumption | apply State.bump_kept | apply State.postLim_kept | apply State.setCh_kept | apply State.countStep_kept | intro _ | apply Kept.ite | apply Kept.foldS | simp -zeta only [↓Kept.mk_iff] | (extract_lets +onlyGivenNames x; first | (refine Kept.cut (P := Kept c0 q0 x) ?_ ?_; rotate_left; (intro _; clear_value x); rotate_left; unfold x; clear x) | clear_value x) | split)

theorem State.indexLatch_kept {c0 : Cfg} {q0 : List Instr} (s : State) (ch : Nat) (h0 : Kept c0 q0 s) :
    Kept c0 q0 (State.indexLatch s ch) := by
  unfold State.indexLatch
  repeat' (with_reducible first | assumption | apply State.put_kept | apply State.setPair_kept | apply State.postLim_kept | apply State.setCh_kept | intro _ | apply Kept.ite | apply Kept.foldS | simp -zeta only [↓Kept.mk_iff] | (extract_lets +onlyGivenNames x; first | (refine Kept.cut (P := Kept c0 q0 x) ?_ ?_; rotate_left; (intro _; clear_value x); rotate_left; unfold x; clear x) | clear_value x) | split)

theorem State.inputEdge_kept {c0 : Cfg} {q0 : List Instr} (s : State) (ch : Nat) (i : Fin 3) (h0 : Kept c0 q0 s) :
    Kept c0 q0 (State.inputEdge s ch i) := by
  unfold State.inputEdge
  repeat' (with_reducible first | assumption | apply State.bump_kept | apply State.postLim_kept | apply State.setCh_kept | intro _ | apply Kept.ite | apply Kept.foldS | split)

theorem State.acceptLevels_kept {c0 : Cfg} {q0 : List Instr} (s : State) (ch levels : Nat) (h0 : Kept c0 q0 s) :
    Kept c0 q0 (State.acceptLevels s ch levels) := by
  unfold State.acceptLevels
  repeat' (with_reducible first | assumption | apply State.put_kept | apply State.bump_kept | apply State.postLim_kept | apply State.setCh_kept | apply State.countStep_kept | apply State.hallMove_kept | apply State.indexLatch_kept | apply State.inputEdge_kept | intro _ | apply Kept.ite | apply Kept.foldS | split)

theorem State.filterCycle_kept {c0 : Cfg} {q0 : List Instr} (s : State) (ch levels : Nat) (h0 : Kept c0 q0 s) :
    Kept c0 q0 (State.filterCycle s ch levels) := by
  unfold State.filterCycle
  repeat' (with_reducible first | assumption | apply State.setCh_kept | apply State.acceptLevels_kept | intro _ | apply Kept.ite | apply Kept.foldS | simp -zeta only [↓Kept.mk_iff] | split)

theorem State.ssiError_kept {c0 : Cfg} {q0 : List Instr} (s : State) (ch cause : Nat) (h0 : Kept c0 q0 s) :
    Kept c0 q0 (State.ssiError s ch cause) := by
  unfold State.ssiError
  repeat' (with_reducible first | assumption | apply State.bump_kept | apply State.postLim_kept | apply State.setCh_kept)

theorem State.ssiFrame_kept {c0 : Cfg} {q0 : List Instr} (s : State) (ch w : Nat) (notReady stuckHigh : Bool) (h0 : Kept c0 q0 s) :
    Kept c0 q0 (State.ssiFrame s ch w notReady stuckHigh) := by
  unfold State.ssiFrame
  repeat' (with_reducible first | assumption | apply State.postLim_kept | apply State.setCh_kept | apply State.countStep_kept | apply State.ssiError_kept | intro _ | apply Kept.ite | apply Kept.foldS | split)

theorem State.countLoad_kept {c0 : Cfg} {q0 : List Instr} (s : State) (ch v : Nat) (h0 : Kept c0 q0 s) :
    Kept c0 q0 (State.countLoad s ch v) := by
  unfold State.countLoad
  repeat' (with_reducible first | assumption | apply State.postLim_kept | apply State.setCh_kept | apply State.showCnt_kept | intro _ | apply Kept.ite | apply Kept.foldS | split)

theorem State.bypassUpdate_kept {c0 : Cfg} {q0 : List Instr} (s : State) (h0 : Kept c0 q0 s) :
    Kept c0 q0 (State.bypassUpdate s) := by
  unfold State.bypassUpdate
  repeat' (with_reducible first | assumption | apply State.postLim_kept | intro _ | apply Kept.ite | apply Kept.foldS | simp -zeta only [↓Kept.mk_iff] | split)

theorem State.puRefused_kept {c0 : Cfg} {q0 : List Instr} (s : State) (ch off : Nat) (h0 : Kept c0 q0 s) :
    Kept c0 q0 (State.puRefused s ch off) := by
  unfold State.puRefused
  repeat' (with_reducible first | assumption | apply State.postLim_kept)

theorem State.modeChange_kept {c0 : Cfg} {q0 : List Instr} (s : State) (ch old new : Nat) (h0 : Kept c0 q0 s) :
    Kept c0 q0 (State.modeChange s ch old new) := by
  unfold State.modeChange
  repeat' (with_reducible first | assumption | apply State.put_kept | apply State.setCh_kept | intro _ | apply Kept.ite | apply Kept.foldS | split)

theorem State.puCtlWrite_kept {c0 : Cfg} {q0 : List Instr} (s : State) (src : Src) (ch : Nat) (ssi : Bool) (v : Nat) (h0 : Kept c0 q0 s) :
    Kept c0 q0 (State.puCtlWrite s src ch ssi v) := by
  unfold State.puCtlWrite
  repeat' (with_reducible first | assumption | apply State.paramWrite_kept | apply State.bypassUpdate_kept | apply State.puRefused_kept | apply State.modeChange_kept | intro _ | apply Kept.ite | apply Kept.foldS | split)

theorem State.setLost_kept {c0 : Cfg} {q0 : List Instr} (s : State) (ch i : Nat) (b : Bool) (h0 : Kept c0 q0 s) :
    Kept c0 q0 (State.setLost s ch i b) := by
  unfold State.setLost
  repeat' (with_reducible first | assumption | apply State.put_kept | apply State.setCh_kept)

theorem State.startScans_kept {c0 : Cfg} {q0 : List Instr} (s : State) (h0 : Kept c0 q0 s) :
    Kept c0 q0 (State.startScans s) := by
  unfold State.startScans
  repeat' (with_reducible first | assumption | apply State.setCh_kept | intro _ | apply Kept.ite | apply Kept.foldS | simp -zeta only [↓Kept.mk_iff] | split)

theorem State.scanDone_kept {c0 : Cfg} {q0 : List Instr} (s : State) (ch i codes : Nat) (h0 : Kept c0 q0 s) :
    Kept c0 q0 (State.scanDone s ch i codes) := by
  unfold State.scanDone
  repeat' (with_reducible first | assumption | apply State.put_kept | apply State.postLim_kept | apply State.setCh_kept | apply State.setLost_kept | intro _ | apply Kept.ite | apply Kept.foldS | simp -zeta only [↓Kept.mk_iff] | split)

theorem State.cntLoadWrite_kept {c0 : Cfg} {q0 : List Instr} (s : State) (ch hi : Nat) (h0 : Kept c0 q0 s) :
    Kept c0 q0 (State.cntLoadWrite s ch hi) := by
  unfold State.cntLoadWrite
  repeat' (with_reducible first | assumption | apply State.setRegWord_kept | apply State.countLoad_kept | intro _ | apply Kept.ite | apply Kept.foldS | split)

theorem State.advanceTt_kept {c0 : Cfg} {q0 : List Instr} (s : State) (h0 : Kept c0 q0 s) :
    Kept c0 q0 (State.advanceTt s) :=
  h0

theorem State.setRef_kept {c0 : Cfg} {q0 : List Instr} (s : State) (n : Nat) (r : RefSt) (h0 : Kept c0 q0 s) :
    Kept c0 q0 (State.setRef s n r) :=
  h0

theorem State.setQual_kept {c0 : Cfg} {q0 : List Instr} (s : State) (n : Nat) (b : Bool) (h0 : Kept c0 q0 s) :
    Kept c0 q0 (State.setQual s n b) := by
  unfold State.setQual
  repeat' (with_reducible first | assumption | apply State.put_kept)

theorem State.disqualify_kept {c0 : Cfg} {q0 : List Instr} (s : State) (n cause : Nat) (again : Option Nat) (h0 : Kept c0 q0 s) :
    Kept c0 q0 (State.disqualify s n cause again) := by
  unfold State.disqualify
  repeat' (with_reducible first | assumption | apply State.put_kept | apply State.post_kept | apply State.setRef_kept | apply State.setQual_kept | intro _ | apply Kept.ite | apply Kept.foldS | split)

theorem State.measure_kept {c0 : Cfg} {q0 : List Instr} (s : State) (err : Int) (h0 : Kept c0 q0 s) :
    Kept c0 q0 (State.measure s err) := by
  unfold State.measure
  repeat' (with_reducible first | assumption | apply State.put_kept | simp -zeta only [↓Kept.mk_iff])

theorem State.tbEnter_kept {c0 : Cfg} {q0 : List Instr} (s : State) (st a : Nat) (h0 : Kept c0 q0 s) :
    Kept c0 q0 (State.tbEnter s st a) := by
  unfold State.tbEnter
  repeat' (with_reducible first | assumption | apply State.put_kept | apply State.post_kept | simp -zeta only [↓Kept.mk_iff])

theorem State.tbTransition_kept {c0 : Cfg} {q0 : List Instr} (s : State) (h0 : Kept c0 q0 s) :
    Kept c0 q0 (State.tbTransition s) := by
  unfold State.tbTransition
  repeat' (with_reducible first | assumption | apply State.tbEnter_kept | intro _ | apply Kept.ite | apply Kept.foldS | split)

theorem State.jumpTt_kept {c0 : Cfg} {q0 : List Instr} (s : State) (t : Nat) (h0 : Kept c0 q0 s) :
    Kept c0 q0 (State.jumpTt s t) := by
  unfold State.jumpTt
  repeat' (with_reducible first | assumption | apply State.setRef_kept | intro _ | apply Kept.ite | apply Kept.foldS | simp -zeta only [↓Kept.mk_iff] | split)

theorem State.stepTt_kept {c0 : Cfg} {q0 : List Instr} (s : State) (d : Int) (h0 : Kept c0 q0 s) :
    Kept c0 q0 (State.stepTt s d) := by
  unfold State.stepTt
  repeat' (with_reducible first | assumption | apply State.jumpTt_kept | apply State.put_kept | apply State.post_kept | simp -zeta only [↓Kept.mk_iff])

theorem State.slopeNow_kept {c0 : Cfg} {q0 : List Instr} (s : State) (h0 : Kept c0 q0 s) :
    Kept c0 q0 (State.slopeNow s) := by
  unfold State.slopeNow
  repeat' (with_reducible first | assumption | intro _ | apply Kept.ite | apply Kept.foldS | simp -zeta only [↓Kept.mk_iff] | split)

theorem State.rateUpdate_kept {c0 : Cfg} {q0 : List Instr} (s : State) (h0 : Kept c0 q0 s) :
    Kept c0 q0 (State.rateUpdate s) := by
  unfold State.rateUpdate
  repeat' (with_reducible first | assumption | apply State.put_kept | apply State.slopeNow_kept)

theorem State.ref2Check_kept {c0 : Cfg} {q0 : List Instr} (s : State) (h0 : Kept c0 q0 s) :
    Kept c0 q0 (State.ref2Check s) := by
  unfold State.ref2Check
  repeat' (with_reducible first | assumption | apply State.disqualify_kept | intro _ | apply Kept.ite | apply Kept.foldS | simp -zeta only [↓Kept.mk_iff] | split)

theorem State.tbEvaluate_kept {c0 : Cfg} {q0 : List Instr} (s : State) (h0 : Kept c0 q0 s) :
    Kept c0 q0 (State.tbEvaluate s) := by
  unfold State.tbEvaluate
  repeat' (with_reducible first | assumption | apply State.ref2Check_kept | apply State.put_kept | apply State.disqualify_kept | apply State.tbTransition_kept | apply State.stepTt_kept | apply State.rateUpdate_kept | intro _ | apply Kept.ite | apply Kept.foldS | simp -zeta only [↓Kept.mk_iff] | split)

theorem State.exchange_kept {c0 : Cfg} {q0 : List Instr} (s : State) (p t1 t2 t3 t4 : Nat) (h0 : Kept c0 q0 s) :
    Kept c0 q0 (State.exchange s p t1 t2 t3 t4) := by
  unfold State.exchange
  repeat' (with_reducible first | assumption | intro _ | apply Kept.ite | apply Kept.foldS | simp -zeta only [↓Kept.mk_iff] | (extract_lets +onlyGivenNames x; first | (refine Kept.cut (P := Kept c0 q0 x) ?_ ?_; rotate_left; (intro _; clear_value x); rotate_left; unfold x; clear x) | clear_value x) | split)

theorem State.retarget_kept {c0 : Cfg} {q0 : List Instr} (s : State) (old : Int) (h0 : Kept c0 q0 s) :
    Kept c0 q0 (State.retarget s old) := by
  unfold State.retarget
  repeat' (with_reducible first | assumption | intro _ | apply Kept.ite | apply Kept.foldS | simp -zeta only [↓Kept.mk_iff] | split)

theorem State.setTickPhase_kept {c0 : Cfg} {q0 : List Instr} (s : State) (ph : Int) (h0 : Kept c0 q0 s) :
    Kept c0 q0 (State.setTickPhase s ph) := by
  unfold State.setTickPhase
  repeat' (with_reducible first | assumption | apply State.retarget_kept | apply State.put_kept | simp -zeta only [↓Kept.mk_iff])

theorem State.tbCtlChanged_kept {c0 : Cfg} {q0 : List Instr} (s : State) (oldPhase : Int) (old new : Nat) (h0 : Kept c0 q0 s) :
    Kept c0 q0 (State.tbCtlChanged s oldPhase old new) := by
  unfold State.tbCtlChanged
  repeat' (with_reducible first | assumption | apply State.setRef_kept | apply State.retarget_kept | intro _ | apply Kept.ite | apply Kept.foldS | simp -zeta only [↓Kept.mk_iff] | split)

theorem State.broadcastTime_kept {c0 : Cfg} {q0 : List Instr} (s : State) (h0 : Kept c0 q0 s) :
    Kept c0 q0 (State.broadcastTime s) := by
  unfold State.broadcastTime
  repeat' (with_reducible first | assumption | apply hx | apply State.draw_kept | intro _ | apply Kept.ite | apply Kept.foldS | simp -zeta only [↓Kept.mk_iff] | (extract_lets +onlyGivenNames x; first | (refine Kept.cut (P := Kept c0 q0 x) ?_ ?_; rotate_left; (intro _; clear_value x); rotate_left; unfold x; clear x) | (refine Kept.cut (P := ∀ y, Kept c0 q0 y → Kept c0 q0 (x y)) ?_ ?_; rotate_left; (intro hx; clear_value x); rotate_left; unfold x; clear x) | (refine Kept.cut (P := ∀ y a, Kept c0 q0 y → Kept c0 q0 (x y a)) ?_ ?_; rotate_left; (intro hx; clear_value x); rotate_left; unfold x; clear x) | (refine Kept.cut (P := ∀ a y, Kept c0 q0 y → Kept c0 q0 (x a y)) ?_ ?_; rotate_left; (intro hx; clear_value x); rotate_left; unfold x; clear x) | (refine Kept.cut (P := ∀ a, Kept c0 q0 (x a)) ?_ ?_; rotate_left; (intro hx; clear_value x); rotate_left; unfold x; clear x) | (refine Kept.cut (P := ∀ a, Kept c0 q0 (x a).2.2) ?_ ?_; rotate_left; (intro hx; clear_value x); rotate_left; unfold x; clear x) | (refine Kept.cut (P := ∀ a, Kept c0 q0 (x a).2) ?_ ?_; rotate_left; (intro hx; clear_value x); rotate_left; unfold x; clear x) | (refine Kept.cut (P := ∀ a b, Kept c0 q0 (x a b)) ?_ ?_; rotate_left; (intro hx; clear_value x); rotate_left; unfold x; clear x) | (refine Kept.cut (P := ∀ y a b, Kept c0 q0 y → Kept c0 q0 (x y a b)) ?_ ?_; rotate_left; (intro hx; clear_value x); rotate_left; unfold x; clear x) | (refine Kept.cut (P := Kept c0 q0 x.2) ?_ ?_; rotate_left; (intro hx; clear_value x); rotate_left; unfold x; clear x) | (refine Kept.cut (P := Kept c0 q0 x.1) ?_ ?_; rotate_left; (intro hx; clear_value x); rotate_left; unfold x; clear x) | (refine Kept.cut (P := Kept c0 q0 x.2.2) ?_ ?_; rotate_left; (intro hx; clear_value x); rotate_left; unfold x; clear x) | (refine Kept.cut (P := Kept c0 q0 x.2.1) ?_ ?_; rotate_left; (intro hx; clear_value x); rotate_left; unfold x; clear x) | clear_value x) | split)

theorem State.alignFault_kept {c0 : Cfg} {q0 : List Instr} (s : State) (k : FK) (who reason : Nat) (h0 : Kept c0 q0 s) :
    Kept c0 q0 (State.alignFault s k who reason) := by
  unfold State.alignFault
  repeat' (with_reducible first | assumption | apply State.post_kept)

theorem State.filterOutput_kept {c0 : Cfg} {q0 : List Instr} (s : State) (p : Nat) (h0 : Kept c0 q0 s) :
    Kept c0 q0 (State.filterOutput s p) := by
  unfold State.filterOutput
  repeat' (with_reducible first | assumption | apply State.put_kept | apply State.measure_kept | apply State.setTickPhase_kept | apply State.broadcastTime_kept | intro _ | apply Kept.ite | apply Kept.foldS | simp -zeta only [↓Kept.mk_iff] | split)

theorem State.timeMessage_kept {c0 : Cfg} {q0 : List Instr} (s : State) (from_ : Nat) (ph : Int) (tick : Nat) (h0 : Kept c0 q0 s) :
    Kept c0 q0 (State.timeMessage s from_ ph tick) := by
  unfold State.timeMessage
  repeat' (with_reducible first | assumption | apply hx | apply State.alignFault_kept | intro _ | apply Kept.ite | apply Kept.foldS | simp -zeta only [↓Kept.mk_iff] | (extract_lets +onlyGivenNames x; first | (refine Kept.cut (P := Kept c0 q0 x) ?_ ?_; rotate_left; (intro _; clear_value x); rotate_left; unfold x; clear x) | (refine Kept.cut (P := ∀ y, Kept c0 q0 y → Kept c0 q0 (x y)) ?_ ?_; rotate_left; (intro hx; clear_value x); rotate_left; unfold x; clear x) | (refine Kept.cut (P := ∀ y a, Kept c0 q0 y → Kept c0 q0 (x y a)) ?_ ?_; rotate_left; (intro hx; clear_value x); rotate_left; unfold x; clear x) | (refine Kept.cut (P := ∀ a y, Kept c0 q0 y → Kept c0 q0 (x a y)) ?_ ?_; rotate_left; (intro hx; clear_value x); rotate_left; unfold x; clear x) | (refine Kept.cut (P := ∀ a, Kept c0 q0 (x a)) ?_ ?_; rotate_left; (intro hx; clear_value x); rotate_left; unfold x; clear x) | (refine Kept.cut (P := ∀ a, Kept c0 q0 (x a).2.2) ?_ ?_; rotate_left; (intro hx; clear_value x); rotate_left; unfold x; clear x) | (refine Kept.cut (P := ∀ a, Kept c0 q0 (x a).2) ?_ ?_; rotate_left; (intro hx; clear_value x); rotate_left; unfold x; clear x) | (refine Kept.cut (P := ∀ a b, Kept c0 q0 (x a b)) ?_ ?_; rotate_left; (intro hx; clear_value x); rotate_left; unfold x; clear x) | (refine Kept.cut (P := ∀ y a b, Kept c0 q0 y → Kept c0 q0 (x y a b)) ?_ ?_; rotate_left; (intro hx; clear_value x); rotate_left; unfold x; clear x) | (refine Kept.cut (P := Kept c0 q0 x.2) ?_ ?_; rotate_left; (intro hx; clear_value x); rotate_left; unfold x; clear x) | (refine Kept.cut (P := Kept c0 q0 x.1) ?_ ?_; rotate_left; (intro hx; clear_value x); rotate_left; unfold x; clear x) | (refine Kept.cut (P := Kept c0 q0 x.2.2) ?_ ?_; rotate_left; (intro hx; clear_value x); rotate_left; unfold x; clear x) | (refine Kept.cut (P := Kept c0 q0 x.2.1) ?_ ?_; rotate_left; (intro hx; clear_value x); rotate_left; unfold x; clear x) | clear_value x) | split)

theorem State.ttLoad_kept {c0 : Cfg} {q0 : List Instr} (s : State) (hi : Nat) (h0 : Kept c0 q0 s) :
    Kept c0 q0 (State.ttLoad s hi) := by
  unfold State.ttLoad
  repeat' (with_reducible first | assumption | apply hx | apply State.setRegWord_kept | apply State.post_kept | apply State.jumpTt_kept | intro _ | apply Kept.ite | apply Kept.foldS | simp -zeta only [↓Kept.mk_iff] | (extract_lets +onlyGivenNames x; first | (refine Kept.cut (P := Kept c0 q0 x) ?_ ?_; rotate_left; (intro _; clear_value x); rotate_left; unfold x; clear x) | (refine Kept.cut (P := ∀ y, Kept c0 q0 y → Kept c0 q0 (x y)) ?_ ?_; rotate_left; (intro hx; clear_value x); rotate_left; unfold x; clear x) | (refine Kept.cut (P := ∀ y a, Kept c0 q0 y → Kept c0 q0 (x y a)) ?_ ?_; rotate_left; (intro hx; clear_value x); rotate_left; unfold x; clear x) | (refine Kept.cut (P := ∀ a y, Kept c0 q0 y → Kept c0 q0 (x a y)) ?_ ?_; rotate_left; (intro hx; clear_value x); rotate_left; unfold x; clear x) | (refine Kept.cut (P := ∀ a, Kept c0 q0 (x a)) ?_ ?_; rotate_left; (intro hx; clear_value x); rotate_left; unfold x; clear x) | (refine Kept.cut (P := ∀ a, Kept c0 q0 (x a).2.2) ?_ ?_; rotate_left; (intro hx; clear_value x); rotate_left; unfold x; clear x) | (refine Kept.cut (P := ∀ a, Kept c0 q0 (x a).2) ?_ ?_; rotate_left; (intro hx; clear_value x); rotate_left; unfold x; clear x) | (refine Kept.cut (P := ∀ a b, Kept c0 q0 (x a b)) ?_ ?_; rotate_left; (intro hx; clear_value x); rotate_left; unfold x; clear x) | (refine Kept.cut (P := ∀ y a b, Kept c0 q0 y → Kept c0 q0 (x y a b)) ?_ ?_; rotate_left; (intro hx; clear_value x); rotate_left; unfold x; clear x) | (refine Kept.cut (P := Kept c0 q0 x.2) ?_ ?_; rotate_left; (intro hx; clear_value x); rotate_left; unfold x; clear x) | (refine Kept.cut (P := Kept c0 q0 x.1) ?_ ?_; rotate_left; (intro hx; clear_value x); rotate_left; unfold x; clear x) | (refine Kept.cut (P := Kept c0 q0 x.2.2) ?_ ?_; rotate_left; (intro hx; clear_value x); rotate_left; unfold x; clear x) | (refine Kept.cut (P := Kept c0 q0 x.2.1) ?_ ?_; rotate_left; (intro hx; clear_value x); rotate_left; unfold x; clear x) | clear_value x) | split)

theorem NestRun.read_kept {c0 : Cfg} {q0 : List Instr} (x : NestRun) (word : Nat) (a : Int) (n : Nat) (h0 : Kept c0 q0 x.s) :
    Kept c0 q0 (x.read word a n).2.s := by
  unfold NestRun.read
  dsimp only
  repeat' split
  all_goals first | exact h0 | exact State.eccBad_kept _ _ _ h0 | exact State.eccRead_kept _ _ _ _ _ h0

theorem NestRun.readList_kept {c0 : Cfg} {q0 : List Instr} (x : NestRun) (word : Nat) (a : Int) (h0 : Kept c0 q0 x.s) :
    Kept c0 q0 (x.readList word a).2.s := by
  unfold NestRun.readList
  split
  · exact h0
  · dsimp only
    split <;> exact NestRun.read_kept _ _ _ _ h0

theorem NestRun.begin_kept {c0 : Cfg} {q0 : List Instr} (x : NestRun) (h0 : Kept c0 q0 x.s) : Kept c0 q0 x.begin.s := by
  unfold NestRun.begin
  repeat' split
  all_goals exact h0

theorem NestRun.keepAcc_kept {c0 : Cfg} {q0 : List Instr} (x : NestRun) (acc : List (List Nat)) (h0 : Kept c0 q0 x.s) : Kept c0 q0 (x.keepAcc acc).s := h0

theorem NestRun.write_kept {c0 : Cfg} {q0 : List Instr} (x : NestRun) (word : Nat) (a : Int) (n v : Nat) (h0 : Kept c0 q0 x.s) :
    Kept c0 q0 (x.write word a n v).s := by
  unfold NestRun.write
  dsimp only
  repeat' split
  all_goals first
    | exact h0
    | exact State.eccBad_kept _ _ _ h0
    | exact State.writeLe_kept _ _ _ _ (State.eccWrite_kept _ _ _ _ _ h0)

theorem iterate_kept {c0 : Cfg} {q0 : List Instr} {f : Nat → NestRun → NestRun} (hf : ∀ i x, Kept c0 q0 x.s → Kept c0 q0 (f i x).s) (n i : Nat) (x : NestRun)
    (h0 : Kept c0 q0 x.s) : Kept c0 q0 (iterate f n i x).s := by
  induction n generalizing i x with
  | zero => exact h0
  | succ n ih =>
    unfold iterate
    split
    · exact ih _ _ (hf _ _ h0)
    · exact h0

theorem gatherLevel_kept {c0 : Cfg} {q0 : List Instr} (c e list : Nat) (chk : CheckA) (lv : Lev) (rest : List Lev) (oa ob od : Int)
    {inner : Int → Int → Int → NestRun → NestRun} (hi : ∀ a b d x, Kept c0 q0 x.s → Kept c0 q0 (inner a b d x).s) (x : NestRun)
    (h0 : Kept c0 q0 x.s) : Kept c0 q0 (gatherLevel c e list chk lv rest oa ob od inner x).s := by
  unfold gatherLevel
  split
  · exact h0
  · extract_lets +onlyGivenNames base r
    have h1 : Kept c0 q0 r.2.s := NestRun.readList_kept _ _ _ h0
    clear_value r base
    split
    · exact h1
    · extract_lets +onlyGivenNames m
      split
      · exact h1
      · split
        · exact h1
        · refine iterate_kept (fun j y hy => ?_) _ _ _ h1
          extract_lets +onlyGivenNames a
          have h2 : Kept c0 q0 a.2.s := NestRun.readList_kept _ _ _ hy
          clear_value a
          split
          · exact h2
          · split
            · exact h2
            · exact hi _ _ _ _ h2

theorem runNest_kept {c0 : Cfg} {q0 : List Instr} (c e list : Nat) (chk : CheckA) {body : Int → Int → Int → NestRun → NestRun}
    (hb : ∀ a b d x, Kept c0 q0 x.s → Kept c0 q0 (body a b d x).s) (l : List Lev) (oa ob od : Int) (x : NestRun) (h0 : Kept c0 q0 x.s) :
    Kept c0 q0 (runNest c e list chk body l oa ob od x).s := by
  induction l generalizing oa ob od x with
  | nil => exact hb _ _ _ _ h0
  | cons lv rest ih =>
    unfold runNest
    dsimp only
    split
    · exact gatherLevel_kept _ _ _ _ _ _ _ _ _ (fun _ _ _ _ h => ih _ _ _ _ h) _ h0
    · exact iterate_kept (fun _ _ h => ih _ _ _ _ h) _ _ _ h0

theorem copyBody_kept {c0 : Cfg} {q0 : List Instr} (w dw : Nat) (oa ob od : Int) (x : NestRun) (h0 : Kept c0 q0 x.s) :
    Kept c0 q0 (copyBody w dw oa ob od x).s := by
  unfold copyBody
  extract_lets +onlyGivenNames ta td y r
  have hy : Kept c0 q0 y.s := NestRun.begin_kept _ h0
  have hr : Kept c0 q0 r.2.s := by
    simp only [r]
    split
    · exact NestRun.read_kept _ _ _ _ hy
    · exact hy
  clear_value r y
  split
  · exact hr
  · exact NestRun.write_kept _ _ _ _ _ hr

theorem fillBody_kept {c0 : Cfg} {q0 : List Instr} (w dw v : Nat) (oa ob od : Int) (x : NestRun) (h0 : Kept c0 q0 x.s) :
    Kept c0 q0 (fillBody w dw v oa ob od x).s := by
  unfold fillBody
  dsimp only
  split
  · exact NestRun.begin_kept _ h0
  · exact NestRun.write_kept _ _ _ _ _ (NestRun.begin_kept _ h0)

theorem readVec_kept {c0 : Cfg} {q0 : List Instr} (word : Nat) (a : Int) (bytes n : Nat) (x : NestRun) (h0 : Kept c0 q0 x.s) :
    Kept c0 q0 (readVec word a bytes n x).2.s := by
  induction n generalizing a x with
  | zero => exact h0
  | succ n ih => exact ih _ _ (NestRun.read_kept _ _ _ _ h0)

theorem epiRow_kept {c0 : Cfg} {q0 : List Instr} (epi rnd td word : Nat) (a : Int) (l : List Nat) (x : NestRun) (h0 : Kept c0 q0 x.s) :
    Kept c0 q0 (epiRow epi rnd td word a l x).s := by
  induction l generalizing a x with
  | nil => exact h0
  | cons v t ih =>
    unfold epiRow
    split
    · exact h0
    · extract_lets +onlyGivenNames n r
      have h1 : Kept c0 q0 r.2.s := by
        simp only [r]
        split
        · exact NestRun.read_kept _ _ _ _ h0
        · exact h0
      clear_value r
      split
      · exact h1
      · exact ih _ _ (NestRun.write_kept _ _ _ _ _ h1)

theorem epiTile_kept {c0 : Cfg} {q0 : List Instr} (epi rnd td word : Nat) (pitch a : Int) (l : List (List Nat)) (x : NestRun) (h0 : Kept c0 q0 x.s) :
    Kept c0 q0 (epiTile epi rnd td word pitch a l x).s := by
  induction l generalizing a x with
  | nil => exact h0
  | cons r t ih => exact ih _ _ (epiRow_kept _ _ _ _ _ _ _ h0)

theorem reduceStep_kept {c0 : Cfg} {q0 : List Instr} (w dim bw : Nat) (oa ob : Int) (t : TileRun) (h0 : Kept c0 q0 t.x.s) :
    Kept c0 q0 (reduceStep w dim bw oa ob t).x.s :=
  readVec_kept _ _ _ _ _ (readVec_kept _ _ _ _ _ h0)

theorem reduceLoop_kept {c0 : Cfg} {q0 : List Instr} (w dim bw : Nat) (sa sb : Int) (n : Nat) (oa ob : Int) (t : TileRun) (h0 : Kept c0 q0 t.x.s) :
    Kept c0 q0 (reduceLoop w dim bw sa sb n oa ob t).x.s := by
  induction n generalizing oa ob t with
  | zero => exact h0
  | succ n ih =>
    unfold reduceLoop
    split
    · exact ih _ _ _ (reduceStep_kept _ _ _ _ _ _ h0)
    · exact h0

theorem reduceGather_kept {c0 : Cfg} {q0 : List Instr} (c e w dim bw list : Nat) (chk : CheckA) (sb oa : Int) (n j : Nat) (ob : Int) (t : TileRun)
    (h0 : Kept c0 q0 t.x.s) : Kept c0 q0 (reduceGather c e w dim bw list chk sb oa n j ob t).x.s := by
  induction n generalizing j ob t with
  | zero => exact h0
  | succ n ih =>
    have h1 := NestRun.readList_kept t.x list (((list % 2 ^ 40 : Nat) : Int) + ((8 * (j + 1) : Nat) : Int)) h0
    unfold reduceGather
    dsimp only
    split
    · exact h0
    · split
      · exact h1
      · split
        · exact h1
        · exact ih _ _ _ (reduceStep_kept _ _ _ _ _ _ h1)

theorem gatherTile_kept {c0 : Cfg} {q0 : List Instr} (c e w dim bw list : Nat) (chk : CheckA) (oa ob : Int) (t : TileRun) (h0 : Kept c0 q0 t.x.s) :
    Kept c0 q0 (gatherTile c e w dim bw list chk oa ob t).x.s := by
  unfold gatherTile
  split
  · exact h0
  · extract_lets +onlyGivenNames r
    have h1 : Kept c0 q0 r.2.s := NestRun.readList_kept _ _ _ h0
    clear_value r
    split
    · exact h1
    · split
      · exact h1
      · split
        · exact h1
        · exact reduceGather_kept _ _ _ _ _ _ _ _ _ _ _ _ _ h1

theorem reduceTile_kept {c0 : Cfg} {q0 : List Instr} (c e w dim bw list : Nat) (chk : CheckA) (oa ob : Int) (x : NestRun) (h0 : Kept c0 q0 x.s) :
    Kept c0 q0 (reduceTile c e w dim bw list chk oa ob x).x.s := by
  unfold reduceTile
  extract_lets t0
  have h1 : Kept c0 q0 t0.x.s := h0
  clear_value t0
  split
  · exact gatherTile_kept _ _ _ _ _ _ _ _ _ _ h1
  · exact reduceLoop_kept _ _ _ _ _ _ _ _ _ h1

theorem tileBody_kept {c0 : Cfg} {q0 : List Instr} (c e w dim bw dw list : Nat) (chk : CheckA) (oa ob od : Int) (x : NestRun) (h0 : Kept c0 q0 x.s) :
    Kept c0 q0 (tileBody c e w dim bw dw list chk oa ob od x).s := by
  unfold tileBody
  extract_lets +onlyGivenNames y t
  have hy : Kept c0 q0 y.s := NestRun.begin_kept _ h0
  have ht : Kept c0 q0 t.x.s := reduceTile_kept _ _ _ _ _ _ _ _ _ _ hy
  clear_value t y
  split
  · exact hy
  · split
    · exact epiTile_kept _ _ _ _ _ _ _ _ (NestRun.keepAcc_kept _ _ ht)
    · exact ht

theorem State.runCompute_kept {c0 : Cfg} {q0 : List Instr} (s : State) (c e w : Nat) (budget : Option Nat) (h0 : Kept c0 q0 s) : Kept c0 q0 (s.runCompute c e w budget).s := by
  unfold State.runCompute
  dsimp only
  split
  · exact runNest_kept _ _ _ _ (fun _ _ _ _ h => tileBody_kept _ _ _ _ _ _ _ _ _ _ _ _ h) _ _ _ _ _ h0
  · split
    · exact runNest_kept _ _ _ _ (fun _ _ _ _ h => copyBody_kept _ _ _ _ _ _ h) _ _ _ _ _ h0
    · exact runNest_kept _ _ _ _ (fun _ _ _ _ h => fillBody_kept _ _ _ _ _ _ _ h) _ _ _ _ _ h0

theorem State.remoteWrite_kept {c0 : Cfg} {q0 : List Instr} (s : State) (c e : Nat) (h a : Nat) (l : List Byte) (h0 : Kept c0 q0 s) :
    Kept c0 q0 (State.remoteWrite s c e h a l) := by
  unfold State.remoteWrite
  repeat' (with_reducible first | assumption | apply State.setEng_kept | intro _ | apply Kept.ite | apply Kept.foldS | simp -zeta only [↓Kept.mk_iff] | (extract_lets +onlyGivenNames x; first | (refine Kept.cut (P := Kept c0 q0 x) ?_ ?_; rotate_left; (intro _; clear_value x); rotate_left; unfold x; clear x) | clear_value x) | split)

theorem State.askRemote_kept {c0 : Cfg} {q0 : List Instr} (s : State) (c e : Nat) (l : List (Nat × Nat × Nat)) (h0 : Kept c0 q0 s) :
    Kept c0 q0 (State.askRemote s c e l) := by
  unfold State.askRemote
  repeat' (with_reducible first | assumption | apply State.setEng_kept | intro _ | apply Kept.ite | apply Kept.foldS | simp -zeta only [↓Kept.mk_iff] | (extract_lets +onlyGivenNames x; first | (refine Kept.cut (P := Kept c0 q0 x) ?_ ?_; rotate_left; (intro _; clear_value x); rotate_left; unfold x; clear x) | clear_value x) | split)

theorem State.nestRetire_kept {c0 : Cfg} {q0 : List Instr} (s : State) (c e : Nat) (r : Running) (w : Nat) (h0 : Kept c0 q0 s) :
    Kept c0 q0 (State.nestRetire s c e r w) := by
  unfold State.nestRetire
  repeat' (with_reducible first | assumption | apply State.engSignal_kept | apply State.retire_kept | intro _ | apply Kept.ite | apply Kept.foldS | split)

theorem State.nestWork_kept {c0 : Cfg} {q0 : List Instr} (s : State) (c e w iters : Nat) (h0 : Kept c0 q0 s) :
    Kept c0 q0 (State.nestWork s c e w iters) := by
  unfold State.nestWork
  repeat' (with_reducible first | assumption | apply State.pcCount_kept)

theorem State.remoteWrites_kept {c0 : Cfg} {q0 : List Instr} (s : State) (c e : Nat) (x : NestRun) (h0 : Kept c0 q0 s) :
    Kept c0 q0 (State.remoteWrites s c e x) := by
  unfold State.remoteWrites
  repeat' (with_reducible first | assumption | apply State.remoteWrite_kept | intro _ | apply Kept.ite | apply Kept.foldS | simp -zeta only [↓Kept.mk_iff] | split)

theorem State.nestCompute_kept {c0 : Cfg} {q0 : List Instr} (s : State) (c e : Nat) (r : Running) (w : Nat) (h0 : Kept c0 q0 s) :
    Kept c0 q0 (s.nestCompute c e r w) := by
  have h1 := State.runCompute_kept s c e w none h0
  unfold State.nestCompute
  generalize s.runCompute c e w = x at h1 ⊢
  repeat' (with_reducible first | assumption | apply hx | apply State.exception_kept | apply State.askRemote_kept | apply State.eccFault_kept | apply State.nestRetire_kept | apply State.nestWork_kept | apply State.remoteWrite_kept | apply State.remoteWrites_kept | apply State.setEng_kept | apply State.noteIssue_kept | intro _ | apply Kept.ite | apply Kept.foldS | simp -zeta only [↓Kept.mk_iff] | (extract_lets +onlyGivenNames x; first | (refine Kept.cut (P := Kept c0 q0 x) ?_ ?_; rotate_left; (intro _; clear_value x); rotate_left; unfold x; clear x) | (refine Kept.cut (P := ∀ y, Kept c0 q0 y → Kept c0 q0 (x y)) ?_ ?_; rotate_left; (intro hx; clear_value x); rotate_left; unfold x; clear x) | (refine Kept.cut (P := ∀ y a, Kept c0 q0 y → Kept c0 q0 (x y a)) ?_ ?_; rotate_left; (intro hx; clear_value x); rotate_left; unfold x; clear x) | (refine Kept.cut (P := ∀ a y, Kept c0 q0 y → Kept c0 q0 (x a y)) ?_ ?_; rotate_left; (intro hx; clear_value x); rotate_left; unfold x; clear x) | (refine Kept.cut (P := ∀ a, Kept c0 q0 (x a)) ?_ ?_; rotate_left; (intro hx; clear_value x); rotate_left; unfold x; clear x) | (refine Kept.cut (P := ∀ a, Kept c0 q0 (x a).2.2) ?_ ?_; rotate_left; (intro hx; clear_value x); rotate_left; unfold x; clear x) | (refine Kept.cut (P := ∀ a, Kept c0 q0 (x a).2) ?_ ?_; rotate_left; (intro hx; clear_value x); rotate_left; unfold x; clear x) | (refine Kept.cut (P := ∀ a b, Kept c0 q0 (x a b)) ?_ ?_; rotate_left; (intro hx; clear_value x); rotate_left; unfold x; clear x) | (refine Kept.cut (P := ∀ y a b, Kept c0 q0 y → Kept c0 q0 (x y a b)) ?_ ?_; rotate_left; (intro hx; clear_value x); rotate_left; unfold x; clear x) | (refine Kept.cut (P := Kept c0 q0 x.2) ?_ ?_; rotate_left; (intro hx; clear_value x); rotate_left; unfold x; clear x) | (refine Kept.cut (P := Kept c0 q0 x.1) ?_ ?_; rotate_left; (intro hx; clear_value x); rotate_left; unfold x; clear x) | (refine Kept.cut (P := Kept c0 q0 x.2.2) ?_ ?_; rotate_left; (intro hx; clear_value x); rotate_left; unfold x; clear x) | (refine Kept.cut (P := Kept c0 q0 x.2.1) ?_ ?_; rotate_left; (intro hx; clear_value x); rotate_left; unfold x; clear x) | clear_value x) | split)

theorem State.nestAcked_kept {c0 : Cfg} {q0 : List Instr} (s : State) (c e : Nat) (h0 : Kept c0 q0 s) :
    Kept c0 q0 (State.nestAcked s c e) := by
  unfold State.nestAcked
  repeat' (with_reducible first | assumption | apply State.nestRetire_kept | intro _ | apply Kept.ite | apply Kept.foldS | simp -zeta only [↓Kept.mk_iff] | split)

theorem State.nestAbandon_kept {c0 : Cfg} {q0 : List Instr} (s : State) (c e done : Nat) (h0 : Kept c0 q0 s) :
    Kept c0 q0 (State.nestAbandon s c e done) := by
  unfold State.nestAbandon
  have h1 := fun w b => State.runCompute_kept s c e w b h0
  repeat' (with_reducible first | assumption | apply h1 | apply State.remoteWrites_kept | apply State.remoteWrite_kept | apply State.setEng_kept | apply State.nestWork_kept | intro _ | apply Kept.ite | apply Kept.foldS | simp -zeta only [↓Kept.mk_iff] | (extract_lets +onlyGivenNames x; first | (refine Kept.cut (P := Kept c0 q0 x) ?_ ?_; rotate_left; (intro _; clear_value x); rotate_left; unfold x; clear x) | (refine Kept.cut (P := ∀ y, Kept c0 q0 y → Kept c0 q0 (x y)) ?_ ?_; rotate_left; (intro hx; clear_value x); rotate_left; unfold x; clear x) | (refine Kept.cut (P := ∀ y a, Kept c0 q0 y → Kept c0 q0 (x y a)) ?_ ?_; rotate_left; (intro hx; clear_value x); rotate_left; unfold x; clear x) | (refine Kept.cut (P := ∀ a y, Kept c0 q0 y → Kept c0 q0 (x a y)) ?_ ?_; rotate_left; (intro hx; clear_value x); rotate_left; unfold x; clear x) | (refine Kept.cut (P := ∀ a, Kept c0 q0 (x a)) ?_ ?_; rotate_left; (intro hx; clear_value x); rotate_left; unfold x; clear x) | (refine Kept.cut (P := ∀ a, Kept c0 q0 (x a).2.2) ?_ ?_; rotate_left; (intro hx; clear_value x); rotate_left; unfold x; clear x) | (refine Kept.cut (P := ∀ a, Kept c0 q0 (x a).2) ?_ ?_; rotate_left; (intro hx; clear_value x); rotate_left; unfold x; clear x) | (refine Kept.cut (P := ∀ a b, Kept c0 q0 (x a b)) ?_ ?_; rotate_left; (intro hx; clear_value x); rotate_left; unfold x; clear x) | (refine Kept.cut (P := ∀ y a b, Kept c0 q0 y → Kept c0 q0 (x y a b)) ?_ ?_; rotate_left; (intro hx; clear_value x); rotate_left; unfold x; clear x) | (refine Kept.cut (P := Kept c0 q0 x.2) ?_ ?_; rotate_left; (intro hx; clear_value x); rotate_left; unfold x; clear x) | (refine Kept.cut (P := Kept c0 q0 x.1) ?_ ?_; rotate_left; (intro hx; clear_value x); rotate_left; unfold x; clear x) | (refine Kept.cut (P := Kept c0 q0 x.2.2) ?_ ?_; rotate_left; (intro hx; clear_value x); rotate_left; unfold x; clear x) | (refine Kept.cut (P := Kept c0 q0 x.2.1) ?_ ?_; rotate_left; (intro hx; clear_value x); rotate_left; unfold x; clear x) | clear_value x) | split)

theorem State.nestBaseLoad_kept {c0 : Cfg} {q0 : List Instr} (s : State) (c e : Nat) (r : Running) (w : Nat) (h0 : Kept c0 q0 s) :
    Kept c0 q0 (State.nestBaseLoad s c e r w) := by
  unfold State.nestBaseLoad
  repeat' (with_reducible first | assumption | apply State.setEng_kept | apply State.nestRetire_kept | intro _ | apply Kept.ite | apply Kept.foldS | split)

theorem State.nestSignal_kept {c0 : Cfg} {q0 : List Instr} (s : State) (c e : Nat) (r : Running) (w : Nat) (h0 : Kept c0 q0 s) :
    Kept c0 q0 (State.nestSignal s c e r w) := by
  unfold State.nestSignal
  repeat' (with_reducible first | assumption | apply State.engSignal_kept | apply State.nestRetire_kept)

theorem State.nestWait_kept {c0 : Cfg} {q0 : List Instr} (s : State) (c e : Nat) (r : Running) (w : Nat) (h0 : Kept c0 q0 s) :
    Kept c0 q0 (State.nestWait s c e r w) := by
  unfold State.nestWait
  repeat' (with_reducible first | assumption | apply State.setEng_kept | apply State.noteIssue_kept | apply State.nestRetire_kept | intro _ | apply Kept.ite | apply Kept.foldS | split)

theorem State.nestBody_kept {c0 : Cfg} {q0 : List Instr} (s : State) (c e : Nat) (r : Running) (w : Nat) (h0 : Kept c0 q0 s) :
    Kept c0 q0 (State.nestBody s c e r w) := by
  unfold State.nestBody
  repeat' (with_reducible first | assumption | apply State.noteIssue_kept | apply State.nestRetire_kept | apply State.nestCompute_kept | apply State.nestBaseLoad_kept | apply State.nestSignal_kept | apply State.nestWait_kept | intro _ | apply Kept.ite | apply Kept.foldS | split)

theorem State.nestStep_kept {c0 : Cfg} {q0 : List Instr} (s : State) (c e : Nat) (r : Running) (h0 : Kept c0 q0 s) :
    Kept c0 q0 (State.nestStep s c e r) := by
  unfold State.nestStep
  repeat' (with_reducible first | assumption | apply State.fetchBad_kept | apply State.exception_kept | apply State.tagIssue_kept | apply State.nestBody_kept | intro _ | apply Kept.ite | apply Kept.foldS | simp -zeta only [↓Kept.mk_iff] | (extract_lets +onlyGivenNames x; first | (refine Kept.cut (P := Kept c0 q0 x) ?_ ?_; rotate_left; (intro _; clear_value x); rotate_left; unfold x; clear x) | clear_value x) | split)

theorem State.nestIssue_kept {c0 : Cfg} {q0 : List Instr} (s : State) (op c e : Nat) (h0 : Kept c0 q0 s) :
    Kept c0 q0 (State.nestIssue s op c e) := by
  unfold State.nestIssue
  repeat' (with_reducible first | assumption | apply State.nestStep_kept | intro _ | apply Kept.ite | apply Kept.foldS | split)

end Sys2Proof.Machine
end

