-- ==== Sys2Proof/Laws/KeptQuill.lean ====
section
/-! SUPPORT. What every operation keeps (`Kept`): the Quill links and the machine network. -/

namespace Sys2Proof.Machine

theorem State.setQrx_kept {c0 : Cfg} {q0 : List Instr} (s : State) (p : Nat) (x : QRx) (h0 : Kept c0 q0 s) :
    Kept c0 q0 (State.setQrx s p x) :=
  h0

theorem State.setQtx_kept {c0 : Cfg} {q0 : List Instr} (s : State) (p : Nat) (x : QTx) (h0 : Kept c0 q0 s) :
    Kept c0 q0 (State.setQtx s p x) :=
  h0

theorem State.setQg_kept {c0 : Cfg} {q0 : List Instr} (s : State) (i : Nat) (x : QGroup) (h0 : Kept c0 q0 s) :
    Kept c0 q0 (State.setQg s i x) :=
  h0

theorem State.modMember_kept {c0 : Cfg} {q0 : List Instr} (s : State) (i k : Nat) (f : QMember → QMember) (h0 : Kept c0 q0 s) :
    Kept c0 q0 (State.modMember s i k f) := by
  unfold State.modMember
  repeat' (with_reducible first | assumption | apply State.setQg_kept | intro _ | apply Kept.ite | apply Kept.foldS | simp -zeta only [↓Kept.mk_iff] | (extract_lets +onlyGivenNames x; first | (refine Kept.cut (P := Kept c0 q0 x) ?_ ?_; rotate_left; (intro _; clear_value x); rotate_left; unfold x; clear x) | clear_value x) | split)

theorem State.groupCheck_kept {c0 : Cfg} {q0 : List Instr} (s : State) (i : Nat) (h0 : Kept c0 q0 s) :
    Kept c0 q0 (State.groupCheck s i) := by
  unfold State.groupCheck
  repeat' (with_reducible first | assumption | apply State.put_kept | apply State.postLim_kept | apply State.setQg_kept | intro _ | apply Kept.ite | apply Kept.foldS | split)

theorem State.failMember_kept {c0 : Cfg} {q0 : List Instr} (s : State) (i k cause : Nat) (h0 : Kept c0 q0 s) :
    Kept c0 q0 (State.failMember s i k cause) := by
  unfold State.failMember
  repeat' (with_reducible first | assumption | apply State.postLim_kept | apply State.modMember_kept | apply State.groupCheck_kept | intro _ | apply Kept.ite | apply Kept.foldS | split)

theorem State.noteOk_kept {c0 : Cfg} {q0 : List Instr} (s : State) (i k : Nat) (h0 : Kept c0 q0 s) :
    Kept c0 q0 (State.noteOk s i k) := by
  unfold State.noteOk
  repeat' (with_reducible first | assumption | apply State.modMember_kept | intro _ | apply Kept.ite | apply Kept.foldS | split)

theorem State.setDefects_kept {c0 : Cfg} {q0 : List Instr} (s : State) (p raw : Nat) (h0 : Kept c0 q0 s) :
    Kept c0 q0 (State.setDefects s p raw) := by
  unfold State.setDefects
  repeat' (with_reducible first | assumption | apply State.put_kept | apply State.postLim_kept | apply State.setRef_kept | apply State.disqualify_kept | apply State.setQrx_kept | apply State.failMember_kept | intro _ | apply Kept.ite | apply Kept.foldS | split)

theorem State.defect_kept {c0 : Cfg} {q0 : List Instr} (s : State) (p d : Nat) (on : Bool) (h0 : Kept c0 q0 s) :
    Kept c0 q0 (State.defect s p d on) := by
  unfold State.defect
  repeat' (with_reducible first | assumption | apply State.setDefects_kept)

theorem State.quillConfigure_kept {c0 : Cfg} {q0 : List Instr} (s : State) (h0 : Kept c0 q0 s) :
    Kept c0 q0 (State.quillConfigure s) := by
  unfold State.quillConfigure
  repeat' (with_reducible first | assumption | apply State.present_kept | apply State.setQg_kept | intro _ | apply Kept.ite | apply Kept.foldS | split)

theorem State.streamPut_kept {c0 : Cfg} {q0 : List Instr} (s : State) (i : Nat) (m : List Byte) (h0 : Kept c0 q0 s) :
    Kept c0 q0 (State.streamPut s i m) := by
  unfold State.streamPut
  repeat' (with_reducible first | assumption | apply State.setQg_kept)

theorem State.formFrame_kept {c0 : Cfg} {q0 : List Instr} (s : State) (i : Nat) (h0 : Kept c0 q0 s) :
    Kept c0 q0 (State.formFrame s i) := by
  unfold State.formFrame
  repeat' (with_reducible first | assumption | apply State.pcCount_kept | apply State.setQg_kept)

theorem State.frameSearch_kept {c0 : Cfg} {q0 : List Instr} (s : State) (p : Nat) (good : Bool) (h0 : Kept c0 q0 s) :
    Kept c0 q0 (State.frameSearch s p good) := by
  unfold State.frameSearch
  repeat' (with_reducible first | assumption | apply State.put_kept | apply State.bump_kept | apply State.setQrx_kept | apply State.defect_kept | intro _ | apply Kept.ite | apply Kept.foldS | split)

theorem State.sigDefects_kept {c0 : Cfg} {q0 : List Instr} (s : State) (p sig rdi : Nat) (h0 : Kept c0 q0 s) :
    Kept c0 q0 (State.sigDefects s p sig rdi) := by
  unfold State.sigDefects
  repeat' (with_reducible first | assumption | apply State.setQrx_kept | apply State.defect_kept | intro _ | apply Kept.ite | apply Kept.foldS | split)

theorem State.errWindows_kept {c0 : Cfg} {q0 : List Instr} (s : State) (p bad : Nat) (h0 : Kept c0 q0 s) :
    Kept c0 q0 (State.errWindows s p bad) := by
  unfold State.errWindows
  repeat' (with_reducible first | assumption | apply State.setQrx_kept | apply State.defect_kept | intro _ | apply Kept.ite | apply Kept.foldS | split)

theorem State.timCheck_kept {c0 : Cfg} {q0 : List Instr} (s : State) (p : Nat) (h0 : Kept c0 q0 s) :
    Kept c0 q0 (State.timCheck s p) := by
  unfold State.timCheck
  repeat' (with_reducible first | assumption | apply State.defect_kept | intro _ | apply Kept.ite | apply Kept.foldS | split)

theorem State.traceByte_kept {c0 : Cfg} {q0 : List Instr} (s : State) (p mfi : Nat) (b : Byte) (h0 : Kept c0 q0 s) :
    Kept c0 q0 (State.traceByte s p mfi b) := by
  unfold State.traceByte
  repeat' (with_reducible first | assumption | apply State.setRegWord_kept | apply State.postLim_kept | apply State.setQrx_kept | apply State.timCheck_kept | intro _ | apply Kept.ite | apply Kept.foldS | split)

theorem State.tsWord_kept {c0 : Cfg} {q0 : List Instr} (s : State) (p mfi stamp word : Nat) (bipBad crcBad : Bool) (h0 : Kept c0 q0 s) :
    Kept c0 q0 (State.tsWord s p mfi stamp word bipBad crcBad) := by
  unfold State.tsWord
  repeat' (with_reducible first | assumption | apply State.exchange_kept | apply State.setQrx_kept | intro _ | apply Kept.ite | apply Kept.foldS | split)

theorem State.startRequest_kept {c0 : Cfg} {q0 : List Instr} (s : State) (i : Nat) (r : Nat × Bool) (h0 : Kept c0 q0 s) :
    Kept c0 q0 (State.startRequest s i r) := by
  unfold State.startRequest
  repeat' (with_reducible first | assumption | apply State.setQg_kept | intro _ | apply Kept.ite | apply Kept.foldS | split)

theorem State.setLegs_kept {c0 : Cfg} {q0 : List Instr} (s : State) (d : QDetour) (h0 : Kept c0 q0 s) :
    Kept c0 q0 (State.setLegs s d) := by
  unfold State.setLegs
  repeat' (with_reducible first | assumption | apply State.put_kept | apply State.postLim_kept | apply State.setQg_kept | apply State.place_kept | intro _ | apply Kept.ite | apply Kept.foldS | simp -zeta only [↓Kept.mk_iff] | (extract_lets +onlyGivenNames x; first | (refine Kept.cut (P := Kept c0 q0 x) ?_ ?_; rotate_left; (intro _; clear_value x); rotate_left; unfold x; clear x) | clear_value x) | split)

theorem State.legsReady_kept {c0 : Cfg} {q0 : List Instr} (s : State) (h0 : Kept c0 q0 s) :
    Kept c0 q0 (State.legsReady s) := by
  unfold State.legsReady
  repeat' (with_reducible first | assumption | apply State.setLegs_kept | intro _ | apply Kept.ite | apply Kept.foldS | split)

theorem State.changeEnd_kept {c0 : Cfg} {q0 : List Instr} (s : State) (i : Nat) (h0 : Kept c0 q0 s) :
    Kept c0 q0 (State.changeEnd s i) := by
  unfold State.changeEnd
  repeat' (with_reducible first | assumption | apply State.setQg_kept | apply State.groupCheck_kept | apply State.startRequest_kept | apply State.legsReady_kept | intro _ | apply Kept.ite | apply Kept.foldS | split)

theorem State.mapApply_kept {c0 : Cfg} {q0 : List Instr} (s : State) (i : Nat) (h0 : Kept c0 q0 s) :
    Kept c0 q0 (State.mapApply s i) := by
  unfold State.mapApply
  repeat' (with_reducible first | assumption | apply State.postLim_kept | apply State.setQg_kept | apply State.groupCheck_kept | intro _ | apply Kept.ite | apply Kept.foldS | simp -zeta only [↓Kept.mk_iff] | (extract_lets +onlyGivenNames x; first | (refine Kept.cut (P := Kept c0 q0 x) ?_ ?_; rotate_left; (intro _; clear_value x); rotate_left; unfold x; clear x) | clear_value x) | split)

theorem State.announce_kept {c0 : Cfg} {q0 : List Instr} (s : State) (i p amap eff : Nat) (h0 : Kept c0 q0 s) :
    Kept c0 q0 (State.announce s i p amap eff) := by
  unfold State.announce
  repeat' (with_reducible first | assumption | apply State.postLim_kept | apply State.setQg_kept | apply State.mapApply_kept | intro _ | apply Kept.ite | apply Kept.foldS | split)

theorem State.gcWord_kept {c0 : Cfg} {q0 : List Instr} (s : State) (i k w : Nat) (h0 : Kept c0 q0 s) :
    Kept c0 q0 (State.gcWord s i k w) := by
  unfold State.gcWord
  repeat' (with_reducible first | assumption | apply State.setQg_kept | apply State.modMember_kept | apply State.failMember_kept | apply State.noteOk_kept | apply State.changeEnd_kept | apply State.announce_kept | intro _ | apply Kept.ite | apply Kept.foldS | split)

theorem State.shareIn_kept {c0 : Cfg} {q0 : List Instr} (s : State) (i k : Nat) (l : List Byte) (h0 : Kept c0 q0 s) :
    Kept c0 q0 (State.shareIn s i k l) := by
  unfold State.shareIn
  repeat' (with_reducible first | assumption | apply State.setQg_kept | apply State.modMember_kept | apply State.failMember_kept | apply State.idle_kept | intro _ | apply Kept.ite | apply Kept.foldS | split)

theorem State.relayIn_kept {c0 : Cfg} {q0 : List Instr} (s : State) (p slot : Nat) (gc : Option (Nat × Nat)) (l : Option (List Byte)) (h0 : Kept c0 q0 s) :
    Kept c0 q0 (State.relayIn s p slot gc l) := by
  unfold State.relayIn
  repeat' (with_reducible first | assumption | intro _ | apply Kept.ite | apply Kept.foldS | simp -zeta only [↓Kept.mk_iff] | (extract_lets +onlyGivenNames x; first | (refine Kept.cut (P := Kept c0 q0 x) ?_ ?_; rotate_left; (intro _; clear_value x); rotate_left; unfold x; clear x) | clear_value x) | split)

theorem State.slotsIn_kept {c0 : Cfg} {q0 : List Instr} (s : State) (p mfi : Nat) (d : List Byte) (crcOk : Bool) (h0 : Kept c0 q0 s) :
    Kept c0 q0 (State.slotsIn s p mfi d crcOk) := by
  unfold State.slotsIn
  repeat' (with_reducible first | assumption | apply State.setQg_kept | apply State.gcWord_kept | apply State.shareIn_kept | apply State.relayIn_kept | intro _ | apply Kept.ite | apply Kept.foldS | simp -zeta only [↓Kept.mk_iff] | (extract_lets +onlyGivenNames x; first | (refine Kept.cut (P := Kept c0 q0 x) ?_ ?_; rotate_left; (intro _; clear_value x); rotate_left; unfold x; clear x) | clear_value x) | split)

theorem State.mfiIn_kept {c0 : Cfg} {q0 : List Instr} (s : State) (p got : Nat) (h0 : Kept c0 q0 s) :
    Kept c0 q0 (State.mfiIn s p got).2 := by
  unfold State.mfiIn
  repeat' (with_reducible first | assumption | apply State.bump_kept | apply State.postLim_kept | apply State.setQrx_kept | intro _ | apply Kept.ite | apply Kept.foldS | simp -zeta only [↓Kept.mk_iff] | (extract_lets +onlyGivenNames x; first | (refine Kept.cut (P := Kept c0 q0 x) ?_ ?_; rotate_left; (intro _; clear_value x); rotate_left; unfold x; clear x) | clear_value x) | split)

theorem State.ref2Frame_kept {c0 : Cfg} {q0 : List Instr} (s : State) (stamp : Nat) (h0 : Kept c0 q0 s) :
    Kept c0 q0 (State.ref2Frame s stamp) := by
  unfold State.ref2Frame
  repeat' (with_reducible first | assumption | apply State.setRef_kept | apply State.disqualify_kept | intro _ | apply Kept.ite | apply Kept.foldS | simp -zeta only [↓Kept.mk_iff] | split)

theorem State.frameIn_kept {c0 : Cfg} {q0 : List Instr} (s : State) (p stamp : Nat) (f : List Byte) (h0 : Kept c0 q0 s) :
    Kept c0 q0 (State.frameIn s p stamp f) := by
  unfold State.frameIn
  repeat' (with_reducible first | assumption | apply State.laneReady_kept | apply State.ref2Frame_kept | apply State.bump_kept | apply State.pcCount_kept | apply State.setRef_kept | apply State.setQrx_kept | apply State.frameSearch_kept | apply State.sigDefects_kept | apply State.errWindows_kept | apply State.traceByte_kept | apply State.tsWord_kept | apply State.slotsIn_kept | apply State.mfiIn_kept | intro _ | apply Kept.ite | apply Kept.foldS | split)

theorem State.slotOut_kept {c0 : Cfg} {q0 : List Instr} (s : State) (p sl : Nat) (stuff : Bool) (h0 : Kept c0 q0 s) :
    Kept c0 q0 (s.slotOut p sl stuff).2.2 := by
  unfold State.slotOut
  repeat' (with_reducible first | assumption | apply State.formFrame_kept | apply State.modMember_kept | intro _ | apply Kept.ite | apply Kept.foldS | simp -zeta only [↓Kept.mk_iff] | (extract_lets +onlyGivenNames x; first | (refine Kept.cut (P := Kept c0 q0 x) ?_ ?_; rotate_left; (intro _; clear_value x); rotate_left; unfold x; clear x) | clear_value x) | split)

theorem State.frameOut_kept {c0 : Cfg} {q0 : List Instr} (s : State) (p : Nat) (h0 : Kept c0 q0 s) :
    Kept c0 q0 (s.frameOut p) := by
  unfold State.frameOut
  have key : ∀ (b : Bool) (l : List Nat) (r : List (Option (List Byte) × Nat) × State), Kept c0 q0 r.2 →
      Kept c0 q0 (l.foldl (fun (a : List (Option (List Byte) × Nat) × State) sl =>
        let q := a.2.slotOut p sl b; (a.1 ++ [(q.1, q.2.1)], q.2.2)) r).2 := by
    intro b l
    induction l with
    | nil => exact fun _ h => h
    | cons a l ih => exact fun r h => ih _ (State.slotOut_kept _ _ _ _ h)
  repeat' (with_reducible first | assumption | apply hx | apply key | apply State.setQtx_kept | apply State.bump_kept | apply State.post_kept | apply State.postLim_kept | apply State.put_kept | apply State.setQrx_kept | apply State.pcCount_kept | intro _ | apply Kept.ite | apply Kept.foldS | simp -zeta only [↓Kept.mk_iff] | (extract_lets +onlyGivenNames x; first | (refine Kept.cut (P := Kept c0 q0 x) ?_ ?_; rotate_left; (intro _; clear_value x); rotate_left; unfold x; clear x) | (refine Kept.cut (P := ∀ y, Kept c0 q0 y → Kept c0 q0 (x y)) ?_ ?_; rotate_left; (intro hx; clear_value x); rotate_left; unfold x; clear x) | (refine Kept.cut (P := ∀ y a, Kept c0 q0 y → Kept c0 q0 (x y a)) ?_ ?_; rotate_left; (intro hx; clear_value x); rotate_left; unfold x; clear x) | (refine Kept.cut (P := ∀ a y, Kept c0 q0 y → Kept c0 q0 (x a y)) ?_ ?_; rotate_left; (intro hx; clear_value x); rotate_left; unfold x; clear x) | (refine Kept.cut (P := ∀ a, Kept c0 q0 (x a)) ?_ ?_; rotate_left; (intro hx; clear_value x); rotate_left; unfold x; clear x) | (refine Kept.cut (P := ∀ a, Kept c0 q0 (x a).2.2) ?_ ?_; rotate_left; (intro hx; clear_value x); rotate_left; unfold x; clear x) | (refine Kept.cut (P := ∀ a, Kept c0 q0 (x a).2) ?_ ?_; rotate_left; (intro hx; clear_value x); rotate_left; unfold x; clear x) | (refine Kept.cut (P := ∀ a b, Kept c0 q0 (x a b)) ?_ ?_; rotate_left; (intro hx; clear_value x); rotate_left; unfold x; clear x) | (refine Kept.cut (P := ∀ y a b, Kept c0 q0 y → Kept c0 q0 (x y a b)) ?_ ?_; rotate_left; (intro hx; clear_value x); rotate_left; unfold x; clear x) | (refine Kept.cut (P := Kept c0 q0 x.2) ?_ ?_; rotate_left; (intro hx; clear_value x); rotate_left; unfold x; clear x) | (refine Kept.cut (P := Kept c0 q0 x.1) ?_ ?_; rotate_left; (intro hx; clear_value x); rotate_left; unfold x; clear x) | (refine Kept.cut (P := Kept c0 q0 x.2.2) ?_ ?_; rotate_left; (intro hx; clear_value x); rotate_left; unfold x; clear x) | (refine Kept.cut (P := Kept c0 q0 x.2.1) ?_ ?_; rotate_left; (intro hx; clear_value x); rotate_left; unfold x; clear x) | clear_value x) | split)

theorem State.defectTimer_kept {c0 : Cfg} {q0 : List Instr} (s : State) (p d : Nat) (on : Bool) (h0 : Kept c0 q0 s) :
    Kept c0 q0 (State.defectTimer s p d on) := by
  unfold State.defectTimer
  repeat' (with_reducible first | assumption | apply State.defect_kept | intro _ | apply Kept.ite | apply Kept.foldS | split)

theorem State.lockLoss_kept {c0 : Cfg} {q0 : List Instr} (s : State) (p : Nat) (h0 : Kept c0 q0 s) :
    Kept c0 q0 (State.lockLoss s p) := by
  unfold State.lockLoss
  repeat' (with_reducible first | assumption | apply State.defect_kept | intro _ | apply Kept.ite | apply Kept.foldS | split)

theorem State.controlTimeout_kept {c0 : Cfg} {q0 : List Instr} (s : State) (i k : Nat) (h0 : Kept c0 q0 s) :
    Kept c0 q0 (State.controlTimeout s i k) := by
  unfold State.controlTimeout
  repeat' (with_reducible first | assumption | apply State.failMember_kept | intro _ | apply Kept.ite | apply Kept.foldS | split)

theorem State.memberRestore_kept {c0 : Cfg} {q0 : List Instr} (s : State) (i k : Nat) (h0 : Kept c0 q0 s) :
    Kept c0 q0 (State.memberRestore s i k) := by
  unfold State.memberRestore
  repeat' (with_reducible first | assumption | apply State.postLim_kept | apply State.modMember_kept | apply State.groupCheck_kept | intro _ | apply Kept.ite | apply Kept.foldS | split)

theorem State.mapStart_kept {c0 : Cfg} {q0 : List Instr} (s : State) (i : Nat) (h0 : Kept c0 q0 s) :
    Kept c0 q0 (State.mapStart s i) := by
  unfold State.mapStart
  repeat' (with_reducible first | assumption | apply State.setQg_kept | apply State.changeEnd_kept | intro _ | apply Kept.ite | apply Kept.foldS | split)

theorem State.mapLate_kept {c0 : Cfg} {q0 : List Instr} (s : State) (i : Nat) (h0 : Kept c0 q0 s) :
    Kept c0 q0 (State.mapLate s i) := by
  unfold State.mapLate
  repeat' (with_reducible first | assumption | apply State.postLim_kept | apply State.changeEnd_kept | intro _ | apply Kept.ite | apply Kept.foldS | simp -zeta only [↓Kept.mk_iff] | (extract_lets +onlyGivenNames x; first | (refine Kept.cut (P := Kept c0 q0 x) ?_ ?_; rotate_left; (intro _; clear_value x); rotate_left; unfold x; clear x) | clear_value x) | split)

theorem State.streamIn_kept {c0 : Cfg} {q0 : List Instr} (s : State) (i : Nat) (f : List Byte) (lost : Bool) (h0 : Kept c0 q0 s) :
    Kept c0 q0 (State.streamIn s i f lost) := by
  unfold State.streamIn
  repeat' (with_reducible first | assumption | apply State.postLim_kept | apply State.setQg_kept | intro _ | apply Kept.ite | apply Kept.foldS | split)

theorem State.releaseFrame_kept {c0 : Cfg} {q0 : List Instr} (s : State) (i : Nat) (bad : List Nat) (h0 : Kept c0 q0 s) :
    Kept c0 q0 (State.releaseFrame s i bad) := by
  unfold State.releaseFrame
  repeat' (with_reducible first | assumption | apply State.setQg_kept | apply State.streamIn_kept)

theorem State.groupRelease_kept {c0 : Cfg} {q0 : List Instr} (s : State) (i : Nat) (bad : List Nat) (h0 : Kept c0 q0 s) :
    Kept c0 q0 (State.groupRelease s i bad) := by
  unfold State.groupRelease
  repeat' (with_reducible first | assumption | apply State.mapApply_kept | apply State.releaseFrame_kept | intro _ | apply Kept.ite | apply Kept.foldS | split)

theorem State.deskewExpiry_kept {c0 : Cfg} {q0 : List Instr} (s : State) (i : Nat) (bad : List Nat) (h0 : Kept c0 q0 s) :
    Kept c0 q0 (State.deskewExpiry s i bad) := by
  unfold State.deskewExpiry
  repeat' (with_reducible first | assumption | apply State.failMember_kept | apply State.mapApply_kept | apply State.releaseFrame_kept | intro _ | apply Kept.ite | apply Kept.foldS | simp -zeta only [↓Kept.mk_iff] | (extract_lets +onlyGivenNames x; first | (refine Kept.cut (P := Kept c0 q0 x) ?_ ?_; rotate_left; (intro _; clear_value x); rotate_left; unfold x; clear x) | clear_value x) | split)

theorem State.qpRefused_kept {c0 : Cfg} {q0 : List Instr} (s : State) (p off : Nat) (h0 : Kept c0 q0 s) :
    Kept c0 q0 (State.qpRefused s p off) := by
  unfold State.qpRefused
  repeat' (with_reducible first | assumption | apply State.postLim_kept)

theorem State.qpEnable_kept {c0 : Cfg} {q0 : List Instr} (s : State) (p : Nat) (on : Bool) (h0 : Kept c0 q0 s) :
    Kept c0 q0 (State.qpEnable s p on) := by
  unfold State.qpEnable
  repeat' (with_reducible first | assumption | apply State.put_kept | apply State.setQrx_kept | apply State.setQtx_kept | apply State.failMember_kept | apply State.setDefects_kept | apply State.defect_kept | apply State.quillConfigure_kept | intro _ | apply Kept.ite | apply Kept.foldS | split)

theorem State.qpConfig_kept {c0 : Cfg} {q0 : List Instr} (s : State) (src : Src) (p : Nat) (deskew : Bool) (v : Nat) (h0 : Kept c0 q0 s) :
    Kept c0 q0 (State.qpConfig s src p deskew v) := by
  unfold State.qpConfig
  repeat' (with_reducible first | assumption | apply State.put_kept | apply State.paramWrite_kept | apply State.timCheck_kept | apply State.qpRefused_kept | apply State.qpEnable_kept | intro _ | apply Kept.ite | apply Kept.foldS | split)

theorem State.hop_kept {c0 : Cfg} {q0 : List Instr} (s : State) (m : List Byte) (arrive : Option Nat) (h0 : Kept c0 q0 s) :
    Kept c0 q0 (State.hop s m arrive).2 := by
  unfold State.hop
  repeat' (with_reducible first | assumption | apply State.present_kept | apply State.streamPut_kept | intro _ | apply Kept.ite | apply Kept.foldS | simp -zeta only [↓Kept.mk_iff] | (extract_lets +onlyGivenNames x; first | (refine Kept.cut (P := Kept c0 q0 x) ?_ ?_; rotate_left; (intro _; clear_value x); rotate_left; unfold x; clear x) | clear_value x) | split)

theorem State.qSend_kept {c0 : Cfg} {q0 : List Instr} (s : State) (m : List Byte) (h0 : Kept c0 q0 s) :
    Kept c0 q0 (State.qSend s m).2 := by
  unfold State.qSend
  repeat' (with_reducible first | assumption | apply State.hop_kept)

theorem State.qForward_kept {c0 : Cfg} {q0 : List Instr} (s : State) (m : List Byte) (arrive : Nat) (h0 : Kept c0 q0 s) :
    Kept c0 q0 (s.qForward m arrive) := by
  have h1 := State.hop_kept s m (some arrive) h0
  unfold State.qForward
  split
  · next heq => rw [heq] at h1; exact h1
  · next heq =>
    rw [heq] at h1
    repeat' (with_reducible first | assumption | apply State.bump_kept | apply State.qSend_kept | apply State.postLim_kept | intro _ | apply Kept.ite | apply Kept.foldS | simp -zeta only [↓Kept.mk_iff] | (extract_lets +onlyGivenNames x; first | (refine Kept.cut (P := Kept c0 q0 x) ?_ ?_; rotate_left; (intro _; clear_value x); rotate_left; unfold x; clear x) | clear_value x) | split)

theorem State.takeMsg_kept {c0 : Cfg} {q0 : List Instr} {s : State} {i kind : Nat} {m : List Byte} {t : State}
    (ht : s.takeMsg i kind = some (m, t)) (h0 : Kept c0 q0 s) : Kept c0 q0 t := by
  unfold State.takeMsg at ht
  dsimp only at ht
  split at ht
  · split at ht
    · cases ht
      exact State.setQg_kept _ _ _ h0
    · cases ht
  · cases ht

theorem State.onMsg_kept {c0 : Cfg} {q0 : List Instr} (s : State) (i kind : Nat) (f : List Byte → State → State) (hf : ∀ m x, Kept c0 q0 x → Kept c0 q0 (f m x)) (h0 : Kept c0 q0 s) :
    Kept c0 q0 (s.onMsg i kind f) := by
  unfold State.onMsg
  split
  · exact h0
  · next heq => exact Kept.ite (hf _ _ (State.takeMsg_kept heq h0)) (State.qForward_kept _ _ _ (State.takeMsg_kept heq h0))

theorem State.inboundCheck_kept {c0 : Cfg} {q0 : List Instr} (s : State) (i src a n : Nat) (write : Bool) (h0 : Kept c0 q0 s) :
    Kept c0 q0 (State.inboundCheck s i src a n write).2 := by
  unfold State.inboundCheck
  repeat' (with_reducible first | assumption | apply State.postLim_kept | apply State.audDenied_kept | intro _ | apply Kept.ite | apply Kept.foldS | split)

theorem State.inWrite_kept {c0 : Cfg} {q0 : List Instr} (s : State) (i : Nat) (m : List Byte) (err : Bool) (h0 : Kept c0 q0 s) :
    Kept c0 q0 (State.inWrite s i m err) := by
  unfold State.inWrite
  repeat' (with_reducible first | assumption | apply hx | apply State.writeMem_kept | apply State.qSend_kept | apply State.inboundCheck_kept | apply State.reply_kept | intro _ | apply Kept.ite | apply Kept.foldS | simp -zeta only [↓Kept.mk_iff] | (extract_lets +onlyGivenNames x; first | (refine Kept.cut (P := Kept c0 q0 x) ?_ ?_; rotate_left; (intro _; clear_value x); rotate_left; unfold x; clear x) | (refine Kept.cut (P := ∀ y, Kept c0 q0 y → Kept c0 q0 (x y)) ?_ ?_; rotate_left; (intro hx; clear_value x); rotate_left; unfold x; clear x) | (refine Kept.cut (P := ∀ y a, Kept c0 q0 y → Kept c0 q0 (x y a)) ?_ ?_; rotate_left; (intro hx; clear_value x); rotate_left; unfold x; clear x) | (refine Kept.cut (P := ∀ a y, Kept c0 q0 y → Kept c0 q0 (x a y)) ?_ ?_; rotate_left; (intro hx; clear_value x); rotate_left; unfold x; clear x) | (refine Kept.cut (P := ∀ a, Kept c0 q0 (x a)) ?_ ?_; rotate_left; (intro hx; clear_value x); rotate_left; unfold x; clear x) | (refine Kept.cut (P := ∀ a, Kept c0 q0 (x a).2.2) ?_ ?_; rotate_left; (intro hx; clear_value x); rotate_left; unfold x; clear x) | (refine Kept.cut (P := ∀ a, Kept c0 q0 (x a).2) ?_ ?_; rotate_left; (intro hx; clear_value x); rotate_left; unfold x; clear x) | (refine Kept.cut (P := ∀ a b, Kept c0 q0 (x a b)) ?_ ?_; rotate_left; (intro hx; clear_value x); rotate_left; unfold x; clear x) | (refine Kept.cut (P := ∀ y a b, Kept c0 q0 y → Kept c0 q0 (x y a b)) ?_ ?_; rotate_left; (intro hx; clear_value x); rotate_left; unfold x; clear x) | (refine Kept.cut (P := Kept c0 q0 x.2) ?_ ?_; rotate_left; (intro hx; clear_value x); rotate_left; unfold x; clear x) | (refine Kept.cut (P := Kept c0 q0 x.1) ?_ ?_; rotate_left; (intro hx; clear_value x); rotate_left; unfold x; clear x) | (refine Kept.cut (P := Kept c0 q0 x.2.2) ?_ ?_; rotate_left; (intro hx; clear_value x); rotate_left; unfold x; clear x) | (refine Kept.cut (P := Kept c0 q0 x.2.1) ?_ ?_; rotate_left; (intro hx; clear_value x); rotate_left; unfold x; clear x) | clear_value x) | split)

theorem State.inRead_kept {c0 : Cfg} {q0 : List Instr} (s : State) (i : Nat) (m : List Byte) (err : Bool) (h0 : Kept c0 q0 s) :
    Kept c0 q0 (s.inRead i m err) := by
  have h1 := fun n => State.inboundCheck_kept s i (qSrc m) (qAddr m) n false h0
  unfold State.inRead
  dsimp only
  repeat' split
  all_goals exact State.qSend_kept _ _ (h1 _)

theorem State.remoteEnd_kept {c0 : Cfg} {q0 : List Instr} (s : State) (q : RemoteReq) (result : Nat) (bytes : List Byte) (h0 : Kept c0 q0 s) :
    Kept c0 q0 (State.remoteEnd s q result bytes) := by
  unfold State.remoteEnd
  repeat' (with_reducible first | assumption | apply State.nestAcked_kept | apply State.setEng_kept | apply State.fabricError_kept | apply State.answer_kept | intro _ | apply Kept.ite | apply Kept.foldS | split)

theorem State.outNoRoute_kept {c0 : Cfg} {q0 : List Instr} (s : State) (q : RemoteReq) (h0 : Kept c0 q0 s) :
    Kept c0 q0 (State.outNoRoute s q) := by
  unfold State.outNoRoute
  repeat' (with_reducible first | assumption | apply State.post_kept)

theorem State.remoteFail_kept {c0 : Cfg} {q0 : List Instr} (s : State) (q : RemoteReq) (result : Nat) (h0 : Kept c0 q0 s) :
    Kept c0 q0 (State.remoteFail s q result) := by
  unfold State.remoteFail
  repeat' (with_reducible first | assumption | apply State.remoteEnd_kept | apply State.outNoRoute_kept | intro _ | apply Kept.ite | apply Kept.foldS | split)

theorem State.remoteMsg_kept {c0 : Cfg} {q0 : List Instr} (s : State) (q : RemoteReq) (tid : Nat) (h0 : Kept c0 q0 s) :
    Kept c0 q0 (State.remoteMsg s q tid).2 := by
  unfold State.remoteMsg
  repeat' (with_reducible first | assumption | apply State.draw_kept | intro _ | apply Kept.ite | apply Kept.foldS | split)

theorem State.remoteSend_kept {c0 : Cfg} {q0 : List Instr} (s : State) (h0 : Kept c0 q0 s) :
    Kept c0 q0 (State.remoteSend s) := by
  unfold State.remoteSend
  repeat' (with_reducible first | assumption | apply hx | apply State.qSend_kept | apply State.remoteFail_kept | apply State.remoteMsg_kept | intro _ | apply Kept.ite | apply Kept.foldS | simp -zeta only [↓Kept.mk_iff] | (extract_lets +onlyGivenNames x; first | (refine Kept.cut (P := Kept c0 q0 x) ?_ ?_; rotate_left; (intro _; clear_value x); rotate_left; unfold x; clear x) | (refine Kept.cut (P := ∀ y, Kept c0 q0 y → Kept c0 q0 (x y)) ?_ ?_; rotate_left; (intro hx; clear_value x); rotate_left; unfold x; clear x) | (refine Kept.cut (P := ∀ y a, Kept c0 q0 y → Kept c0 q0 (x y a)) ?_ ?_; rotate_left; (intro hx; clear_value x); rotate_left; unfold x; clear x) | (refine Kept.cut (P := ∀ a y, Kept c0 q0 y → Kept c0 q0 (x a y)) ?_ ?_; rotate_left; (intro hx; clear_value x); rotate_left; unfold x; clear x) | (refine Kept.cut (P := ∀ a, Kept c0 q0 (x a)) ?_ ?_; rotate_left; (intro hx; clear_value x); rotate_left; unfold x; clear x) | (refine Kept.cut (P := ∀ a, Kept c0 q0 (x a).2.2) ?_ ?_; rotate_left; (intro hx; clear_value x); rotate_left; unfold x; clear x) | (refine Kept.cut (P := ∀ a, Kept c0 q0 (x a).2) ?_ ?_; rotate_left; (intro hx; clear_value x); rotate_left; unfold x; clear x) | (refine Kept.cut (P := ∀ a b, Kept c0 q0 (x a b)) ?_ ?_; rotate_left; (intro hx; clear_value x); rotate_left; unfold x; clear x) | (refine Kept.cut (P := ∀ y a b, Kept c0 q0 y → Kept c0 q0 (x y a b)) ?_ ?_; rotate_left; (intro hx; clear_value x); rotate_left; unfold x; clear x) | (refine Kept.cut (P := Kept c0 q0 x.2) ?_ ?_; rotate_left; (intro hx; clear_value x); rotate_left; unfold x; clear x) | (refine Kept.cut (P := Kept c0 q0 x.1) ?_ ?_; rotate_left; (intro hx; clear_value x); rotate_left; unfold x; clear x) | (refine Kept.cut (P := Kept c0 q0 x.2.2) ?_ ?_; rotate_left; (intro hx; clear_value x); rotate_left; unfold x; clear x) | (refine Kept.cut (P := Kept c0 q0 x.2.1) ?_ ?_; rotate_left; (intro hx; clear_value x); rotate_left; unfold x; clear x) | clear_value x) | split)

theorem State.freeTidNow_kept {c0 : Cfg} {q0 : List Instr} (s : State) (t : Nat) (h0 : Kept c0 q0 s) :
    Kept c0 q0 (State.freeTidNow s t) :=
  h0

theorem State.timeoutPost_kept {c0 : Cfg} {q0 : List Instr} (s : State) (q : RemoteReq) (tid cause : Nat) (h0 : Kept c0 q0 s) :
    Kept c0 q0 (State.timeoutPost s q tid cause) := by
  unfold State.timeoutPost
  repeat' (with_reducible first | assumption | apply State.bump_kept | apply State.postLim_kept)

theorem State.tidTimeout_kept {c0 : Cfg} {q0 : List Instr} (s : State) (h0 : Kept c0 q0 s) :
    Kept c0 q0 (State.tidTimeout s) := by
  unfold State.tidTimeout
  repeat' (with_reducible first | assumption | apply State.remoteEnd_kept | apply State.timeoutPost_kept | intro _ | apply Kept.ite | apply Kept.foldS | simp -zeta only [↓Kept.mk_iff] | split)

theorem State.remoteTimeout_kept {c0 : Cfg} {q0 : List Instr} (s : State) (t : Nat) (h0 : Kept c0 q0 s) :
    Kept c0 q0 (State.remoteTimeout s t) := by
  unfold State.remoteTimeout
  repeat' (with_reducible first | assumption | apply State.remoteEnd_kept | apply State.freeTidNow_kept | apply State.timeoutPost_kept | intro _ | apply Kept.ite | apply Kept.foldS | split)

theorem State.response_kept {c0 : Cfg} {q0 : List Instr} (s : State) (m : List Byte) (kinds : List Nat) (result : Nat) (bytes : List Byte) (h0 : Kept c0 q0 s) :
    Kept c0 q0 (State.response s m kinds result bytes) := by
  unfold State.response
  repeat' (with_reducible first | assumption | apply State.remoteEnd_kept | apply State.freeTidNow_kept | intro _ | apply Kept.ite | apply Kept.foldS | split)

theorem State.quillWarm_kept {c0 : Cfg} {q0 : List Instr} (s : State) (h0 : Kept c0 q0 s) :
    Kept c0 q0 (State.quillWarm s) := by
  unfold State.quillWarm
  repeat' (with_reducible first | assumption | apply State.remoteFail_kept | apply State.freeTidNow_kept | intro _ | apply Kept.ite | apply Kept.foldS | simp -zeta only [↓Kept.mk_iff] | split)

theorem State.ackWord_kept {c0 : Cfg} {q0 : List Instr} (s : State) (i : Nat) (h0 : Kept c0 q0 s) :
    Kept c0 q0 (State.ackWord s i) := by
  unfold State.ackWord
  repeat' (with_reducible first | assumption | apply State.setQg_kept | intro _ | apply Kept.ite | apply Kept.foldS | simp -zeta only [↓Kept.mk_iff] | (extract_lets +onlyGivenNames x; first | (refine Kept.cut (P := Kept c0 q0 x) ?_ ?_; rotate_left; (intro _; clear_value x); rotate_left; unfold x; clear x) | clear_value x) | split)

theorem State.resendWord_kept {c0 : Cfg} {q0 : List Instr} (s : State) (i : Nat) (h0 : Kept c0 q0 s) :
    Kept c0 q0 (State.resendWord s i) := by
  unfold State.resendWord
  repeat' (with_reducible first | assumption | apply State.bump_kept | apply State.pcCount_kept | apply State.setQg_kept | intro _ | apply Kept.ite | apply Kept.foldS | simp -zeta only [↓Kept.mk_iff] | (extract_lets +onlyGivenNames x; first | (refine Kept.cut (P := Kept c0 q0 x) ?_ ?_; rotate_left; (intro _; clear_value x); rotate_left; unfold x; clear x) | clear_value x) | split)

theorem State.resendTimeout_kept {c0 : Cfg} {q0 : List Instr} (s : State) (i : Nat) (h0 : Kept c0 q0 s) :
    Kept c0 q0 (State.resendTimeout s i) := by
  unfold State.resendTimeout
  repeat' (with_reducible first | assumption | apply State.bump_kept | apply State.pcCount_kept | apply State.setQg_kept | intro _ | apply Kept.ite | apply Kept.foldS | split)

theorem State.inSignal_kept {c0 : Cfg} {q0 : List Instr} (s : State) (m : List Byte) (h0 : Kept c0 q0 s) :
    Kept c0 q0 (State.inSignal s m) := by
  unfold State.inSignal
  repeat' (with_reducible first | assumption | apply State.applySignal_kept)

theorem State.inActPost_kept {c0 : Cfg} {q0 : List Instr} (s : State) (m : List Byte) (h0 : Kept c0 q0 s) :
    Kept c0 q0 (State.inActPost s m) := by
  unfold State.inActPost
  repeat' (with_reducible first | assumption | apply State.submitPost_kept | apply State.qSend_kept)

theorem State.inUndeliverable_kept {c0 : Cfg} {q0 : List Instr} (s : State) (m : List Byte) (h0 : Kept c0 q0 s) :
    Kept c0 q0 (State.inUndeliverable s m) := by
  unfold State.inUndeliverable
  repeat' (with_reducible first | assumption | apply State.post_kept | apply State.remoteEnd_kept | apply State.freeTidNow_kept | intro _ | apply Kept.ite | apply Kept.foldS | split)

theorem State.sendTime_kept {c0 : Cfg} {q0 : List Instr} (s : State) (h0 : Kept c0 q0 s) :
    Kept c0 q0 (State.sendTime s) := by
  unfold State.sendTime
  repeat' (with_reducible first | assumption | apply State.present_kept | apply State.qSend_kept | intro _ | apply Kept.ite | apply Kept.foldS | simp -zeta only [↓Kept.mk_iff] | split)

theorem State.detSend_kept {c0 : Cfg} {q0 : List Instr} (s : State) (op i j init dim : Nat) (h0 : Kept c0 q0 s) :
    Kept c0 q0 (State.detSend s op i j init dim) := by
  unfold State.detSend
  repeat' (with_reducible first | assumption | apply State.streamPut_kept)

theorem State.detCommit_kept {c0 : Cfg} {q0 : List Instr} (s : State) (d : QDetour) (h0 : Kept c0 q0 s) :
    Kept c0 q0 (State.detCommit s d) := by
  unfold State.detCommit
  repeat' (with_reducible first | assumption | apply State.put_kept | apply State.setQg_kept | intro _ | apply Kept.ite | apply Kept.foldS | simp -zeta only [↓Kept.mk_iff] | split)

theorem State.detTry_kept {c0 : Cfg} {q0 : List Instr} (s : State) (i : Nat) (l : List Nat) (h0 : Kept c0 q0 s) :
    Kept c0 q0 (s.detTry i l) := by
  induction l generalizing s with
  | nil =>
    unfold State.detTry
    repeat' (with_reducible first | assumption | apply State.postLim_kept | apply State.setQg_kept | intro _ | apply Kept.ite | apply Kept.foldS | simp -zeta only [↓Kept.mk_iff] | (extract_lets +onlyGivenNames x; first | (refine Kept.cut (P := Kept c0 q0 x) ?_ ?_; rotate_left; (intro _; clear_value x); rotate_left; unfold x; clear x) | clear_value x) | split)
  | cons j t ih =>
    unfold State.detTry
    repeat' (with_reducible first | assumption | apply ih | apply State.detSend_kept | intro _ | apply Kept.ite | apply Kept.foldS | simp -zeta only [↓Kept.mk_iff] | (extract_lets +onlyGivenNames x; first | (refine Kept.cut (P := Kept c0 q0 x) ?_ ?_; rotate_left; (intro _; clear_value x); rotate_left; unfold x; clear x) | clear_value x) | split)

theorem State.detEnd_kept {c0 : Cfg} {q0 : List Instr} (s : State) (d : QDetour) (h0 : Kept c0 q0 s) :
    Kept c0 q0 (State.detEnd s d) := by
  unfold State.detEnd
  repeat' (with_reducible first | assumption | apply State.put_kept | apply State.postLim_kept | apply State.setQg_kept | apply State.place_kept | intro _ | apply Kept.ite | apply Kept.foldS | simp -zeta only [↓Kept.mk_iff] | split)

theorem State.detReq_kept {c0 : Cfg} {q0 : List Instr} (s : State) (i j init : Nat) (h0 : Kept c0 q0 s) :
    Kept c0 q0 (State.detReq s i j init) := by
  unfold State.detReq
  repeat' (with_reducible first | assumption | apply State.detSend_kept | apply State.detCommit_kept | apply State.place_kept | intro _ | apply Kept.ite | apply Kept.foldS | simp -zeta only [↓Kept.mk_iff] | split)

theorem State.detGrant_kept {c0 : Cfg} {q0 : List Instr} (s : State) (i j init : Nat) (h0 : Kept c0 q0 s) :
    Kept c0 q0 (State.detGrant s i j init) := by
  unfold State.detGrant
  repeat' (with_reducible first | assumption | apply State.detSend_kept | apply State.detCommit_kept | apply State.place_kept | intro _ | apply Kept.ite | apply Kept.foldS | split)

theorem State.detRefuse_kept {c0 : Cfg} {q0 : List Instr} (s : State) (i j init : Nat) (h0 : Kept c0 q0 s) :
    Kept c0 q0 (State.detRefuse s i j init) := by
  unfold State.detRefuse
  repeat' (with_reducible first | assumption | apply State.detSend_kept | apply State.detTry_kept | apply State.place_kept | intro _ | apply Kept.ite | apply Kept.foldS | simp -zeta only [↓Kept.mk_iff] | split)

theorem State.detEndMsg_kept {c0 : Cfg} {q0 : List Instr} (s : State) (i j init : Nat) (h0 : Kept c0 q0 s) :
    Kept c0 q0 (State.detEndMsg s i j init) := by
  unfold State.detEndMsg
  repeat' (with_reducible first | assumption | apply State.detSend_kept | apply State.detEnd_kept | apply State.place_kept | intro _ | apply Kept.ite | apply Kept.foldS | split)

theorem State.planHold_kept {c0 : Cfg} {q0 : List Instr} (s : State) (i : Nat) (h0 : Kept c0 q0 s) :
    Kept c0 q0 (State.planHold s i) := by
  unfold State.planHold
  repeat' (with_reducible first | assumption | apply State.present_kept | apply State.detSend_kept | apply State.detTry_kept | apply State.detEnd_kept | intro _ | apply Kept.ite | apply Kept.foldS | split)

theorem State.restoreHold_kept {c0 : Cfg} {q0 : List Instr} (s : State) (i : Nat) (h0 : Kept c0 q0 s) :
    Kept c0 q0 (State.restoreHold s i) := by
  unfold State.restoreHold
  repeat' (with_reducible first | assumption | apply State.detSend_kept | apply State.detEnd_kept | apply State.place_kept | intro _ | apply Kept.ite | apply Kept.foldS | split)

theorem State.bcastDown_kept {c0 : Cfg} {q0 : List Instr} (s : State) (c : Nat) (m : List Byte) (k : Nat) (h0 : Kept c0 q0 s) :
    Kept c0 q0 (s.bcastDown c m k) := by
  induction k generalizing s c with
  | zero => exact h0
  | succ k ih =>
    unfold State.bcastDown
    repeat' (with_reducible first | assumption | apply ih | apply State.streamPut_kept | intro _ | apply Kept.ite | apply Kept.foldS | simp -zeta only [↓Kept.mk_iff] | (extract_lets +onlyGivenNames x; first | (refine Kept.cut (P := Kept c0 q0 x) ?_ ?_; rotate_left; (intro _; clear_value x); rotate_left; unfold x; clear x) | clear_value x) | split)

theorem State.distPump_kept {c0 : Cfg} {q0 : List Instr} (s : State) (n : Nat) (h0 : Kept c0 q0 s) :
    Kept c0 q0 (s.distPump n) := by
  induction n generalizing s with
  | zero => exact h0
  | succ n ih =>
    unfold State.distPump
    repeat' (with_reducible first | assumption | apply ih | apply State.bcastDown_kept | intro _ | apply Kept.ite | apply Kept.foldS | simp -zeta only [↓Kept.mk_iff] | (extract_lets +onlyGivenNames x; first | (refine Kept.cut (P := Kept c0 q0 x) ?_ ?_; rotate_left; (intro _; clear_value x); rotate_left; unfold x; clear x) | clear_value x) | split)

theorem State.distStart_kept {c0 : Cfg} {q0 : List Instr} (s : State) (d : QDist) (h0 : Kept c0 q0 s) :
    Kept c0 q0 (State.distStart s d) := by
  unfold State.distStart
  repeat' (with_reducible first | assumption | apply State.put_kept | apply State.distPump_kept | simp -zeta only [↓Kept.mk_iff])

theorem State.distEnd_kept {c0 : Cfg} {q0 : List Instr} (s : State) (d : QDist) (state : Nat) (h0 : Kept c0 q0 s) :
    Kept c0 q0 (State.distEnd s d state) := by
  unfold State.distEnd
  repeat' (with_reducible first | assumption | apply State.postLim_kept | apply State.distStart_kept | intro _ | apply Kept.ite | apply Kept.foldS | simp -zeta only [↓Kept.mk_iff] | (extract_lets +onlyGivenNames x; first | (refine Kept.cut (P := Kept c0 q0 x) ?_ ?_; rotate_left; (intro _; clear_value x); rotate_left; unfold x; clear x) | clear_value x) | split)

theorem State.distResult_kept {c0 : Cfg} {q0 : List Instr} (s : State) (r : Nat) (h0 : Kept c0 q0 s) :
    Kept c0 q0 (State.distResult s r) := by
  unfold State.distResult
  repeat' (with_reducible first | assumption | apply State.put_kept)

theorem State.distCmd_kept {c0 : Cfg} {q0 : List Instr} (s : State) (src dst len id : Nat) (rack : Bool) (h0 : Kept c0 q0 s) :
    Kept c0 q0 (State.distCmd s src dst len id rack) := by
  unfold State.distCmd
  repeat' (with_reducible first | assumption | apply State.distStart_kept | apply State.distResult_kept | intro _ | apply Kept.ite | apply Kept.foldS | simp -zeta only [↓Kept.mk_iff] | split)

theorem State.distReport_kept {c0 : Cfg} {q0 : List Instr} (s : State) (chip id status : Nat) (h0 : Kept c0 q0 s) :
    Kept c0 q0 (State.distReport s chip id status) := by
  unfold State.distReport
  repeat' (with_reducible first | assumption | apply State.put_kept | apply State.distEnd_kept | intro _ | apply Kept.ite | apply Kept.foldS | simp -zeta only [↓Kept.mk_iff] | split)

theorem State.distTimeout_kept {c0 : Cfg} {q0 : List Instr} (s : State) (h0 : Kept c0 q0 s) :
    Kept c0 q0 (State.distTimeout s) := by
  unfold State.distTimeout
  repeat' (with_reducible first | assumption | apply State.distEnd_kept | intro _ | apply Kept.ite | apply Kept.foldS | split)

theorem State.distDone_kept {c0 : Cfg} {q0 : List Instr} (s : State) (root id status : Nat) (h0 : Kept c0 q0 s) :
    Kept c0 q0 (State.distDone s root id status) := by
  unfold State.distDone
  repeat' (with_reducible first | assumption | apply State.qSend_kept)

theorem State.inBcast_kept {c0 : Cfg} {q0 : List Instr} (s : State) (m : List Byte) (len : Nat) (h0 : Kept c0 q0 s) :
    Kept c0 q0 (State.inBcast s m len) := by
  unfold State.inBcast
  repeat' (with_reducible first | assumption | apply State.writeMem_kept | apply State.audDenied_kept | apply State.bcastDown_kept | apply State.distDone_kept | intro _ | apply Kept.ite | apply Kept.foldS | simp -zeta only [↓Kept.mk_iff] | split)

theorem State.memberCmd_kept {c0 : Cfg} {q0 : List Instr} (s : State) (v : Nat) (h0 : Kept c0 q0 s) :
    Kept c0 q0 (State.memberCmd s v) := by
  unfold State.memberCmd
  repeat' (with_reducible first | assumption | apply State.put_kept | apply State.setQg_kept | apply State.startRequest_kept | intro _ | apply Kept.ite | apply Kept.foldS | split)

theorem State.qmIdWrite_kept {c0 : Cfg} {q0 : List Instr} (s : State) (src : Src) (w : Option Nat) (v : Nat) (h0 : Kept c0 q0 s) :
    Kept c0 q0 (State.qmIdWrite s src w v) := by
  unfold State.qmIdWrite
  repeat' (with_reducible first | assumption | apply State.postLim_kept | apply State.paramWriteEff_kept | apply State.paramWrite_kept | intro _ | apply Kept.ite | apply Kept.foldS | split)

theorem State.onDetour_kept {c0 : Cfg} {q0 : List Instr} (s : State) (dim op : Nat) (f : State → Nat → Nat → Nat → State) (hf : ∀ f0 f1 f2 f3, Kept c0 q0 f0 → Kept c0 q0 (f f0 f1 f2 f3)) (h0 : Kept c0 q0 s) :
    Kept c0 q0 (State.onDetour s dim op f) := by
  unfold State.onDetour
  repeat' (with_reducible first | assumption | apply State.onMsg_kept | apply hf | intro _ | apply Kept.ite | apply Kept.foldS | split)

end Sys2Proof.Machine
end

