-- ==== Sys2Proof/Laws/KeptInput.lean ====
section
/-! SUPPORT. What every operation keeps (`Kept`): camera input, environment, counters, rings and decoders. -/

namespace Sys2Proof.Machine

theorem State.setPipe_kept {c0 : Cfg} {q0 : List Instr} (s : State) (p : Nat) (x : Pipe) (h0 : Kept c0 q0 s) :
    Kept c0 q0 (State.setPipe s p x) :=
  h0

theorem State.phySend_kept {c0 : Cfg} {q0 : List Instr} (s : State) (lane : Nat) (r : PhyReq) (h0 : Kept c0 q0 s) :
    Kept c0 q0 (State.phySend s lane r) :=
  h0

theorem State.showProd_kept {c0 : Cfg} {q0 : List Instr} (s : State) (p : Nat) (h0 : Kept c0 q0 s) :
    Kept c0 q0 (State.showProd s p) := by
  unfold State.showProd
  repeat' (with_reducible first | assumption | apply State.put_kept)

theorem State.stripPeriod_kept {c0 : Cfg} {q0 : List Instr} (s : State) (x : Pipe) (h0 : Kept c0 q0 s) :
    Kept c0 q0 (s.stripPeriod x).2 := by
  unfold State.stripPeriod
  repeat' (with_reducible first | assumption | apply State.draw_kept | intro _ | apply Kept.ite | apply Kept.foldS | split)

theorem State.emitStrip_kept {c0 : Cfg} {q0 : List Instr} (s : State) (p : Nat) (h0 : Kept c0 q0 s) :
    Kept c0 q0 (State.emitStrip s p) := by
  unfold State.emitStrip
  repeat' (with_reducible first | assumption | apply State.postLim_kept | apply State.draw_kept | apply State.setPipe_kept | apply State.showProd_kept | apply State.stripPeriod_kept | intro _ | apply Kept.ite | apply Kept.foldS | split)

theorem State.startStrip_kept {c0 : Cfg} {q0 : List Instr} (s : State) (p : Nat) (h0 : Kept c0 q0 s) :
    Kept c0 q0 (State.startStrip s p) := by
  unfold State.startStrip
  repeat' (with_reducible first | assumption | apply State.put_kept | apply State.bump_kept | apply State.postLim_kept | apply State.pcCount_kept | apply State.setPipe_kept | intro _ | apply Kept.ite | apply Kept.foldS | split)

theorem State.fillSlot_kept {c0 : Cfg} {q0 : List Instr} (s : State) (p : Nat) (sl : Slot) (h0 : Kept c0 q0 s) :
    Kept c0 q0 (State.fillSlot s p sl) := by
  unfold State.fillSlot
  repeat' (with_reducible first | assumption | apply State.setPipe_kept | apply State.emitStrip_kept | apply State.startStrip_kept | intro _ | apply Kept.ite | apply Kept.foldS | split)

theorem State.replaceLine_kept {c0 : Cfg} {q0 : List Instr} (s : State) (p : Nat) (bytes : Option (List Byte)) (h0 : Kept c0 q0 s) :
    Kept c0 q0 (State.replaceLine s p bytes) := by
  unfold State.replaceLine
  repeat' (with_reducible first | assumption | apply State.bump_kept | apply State.pcCount_kept | apply State.fillSlot_kept | intro _ | apply Kept.ite | apply Kept.foldS | split)

theorem State.replaceLines_kept {c0 : Cfg} {q0 : List Instr} (n p : Nat) (s : State) (h0 : Kept c0 q0 s) :
    Kept c0 q0 (State.replaceLines n p s) := by
  induction n generalizing s with
  | zero => exact h0
  | succ n ih => exact ih _ (State.replaceLine_kept _ _ _ h0)

theorem State.closeStrip_kept {c0 : Cfg} {q0 : List Instr} (s : State) (p : Nat) (h0 : Kept c0 q0 s) :
    Kept c0 q0 (State.closeStrip s p) := by
  unfold State.closeStrip
  repeat' (with_reducible first | assumption | apply State.replaceLines_kept | intro _ | apply Kept.ite | apply Kept.foldS | split)

theorem State.acceptLine_kept {c0 : Cfg} {q0 : List Instr} (s : State) (p : Nat) (bytes : List Byte) (tt : Nat) (cnt : Option Nat) (h0 : Kept c0 q0 s) :
    Kept c0 q0 (State.acceptLine s p bytes tt cnt) := by
  unfold State.acceptLine
  repeat' (with_reducible first | assumption | apply State.put_kept | apply State.postLim_kept | apply State.pcCount_kept | apply State.setPipe_kept | apply State.fillSlot_kept | intro _ | apply Kept.ite | apply Kept.foldS | split)

theorem State.occupy_kept {c0 : Cfg} {q0 : List Instr} (s : State) (p : Nat) (h0 : Kept c0 q0 s) :
    Kept c0 q0 (State.occupy s p) := by
  unfold State.occupy
  repeat' (with_reducible first | assumption | apply State.setPipe_kept | intro _ | apply Kept.ite | apply Kept.foldS | simp -zeta only [↓Kept.mk_iff] | split)

theorem State.overrateLine_kept {c0 : Cfg} {q0 : List Instr} (s : State) (p : Nat) (h0 : Kept c0 q0 s) :
    Kept c0 q0 (State.overrateLine s p) := by
  unfold State.overrateLine
  repeat' (with_reducible first | assumption | apply State.replaceLine_kept | apply State.postLim_kept | intro _ | apply Kept.ite | apply Kept.foldS | simp -zeta only [↓Kept.mk_iff] | split)

theorem State.finishLine_kept {c0 : Cfg} {q0 : List Instr} (s : State) (p : Nat) (h0 : Kept c0 q0 s) :
    Kept c0 q0 (State.finishLine s p) := by
  unfold State.finishLine
  repeat' (with_reducible first | assumption | apply State.occupy_kept | apply State.overrateLine_kept | apply State.setPipe_kept | apply State.replaceLine_kept | apply State.acceptLine_kept | intro _ | apply Kept.ite | apply Kept.foldS | simp -zeta only [↓Kept.mk_iff] | (extract_lets +onlyGivenNames x; first | (refine Kept.cut (P := Kept c0 q0 x) ?_ ?_; rotate_left; (intro _; clear_value x); rotate_left; unfold x; clear x) | clear_value x) | split)

theorem State.cxpItem_kept {c0 : Cfg} {q0 : List Instr} (s : State) (p : Nat) (it : CxpItem) (h0 : Kept c0 q0 s) :
    Kept c0 q0 (State.cxpItem s p it) := by
  unfold State.cxpItem
  repeat' (with_reducible first | assumption | apply State.postLim_kept | apply State.setPipe_kept | apply State.replaceLines_kept | apply State.finishLine_kept | intro _ | apply Kept.ite | apply Kept.foldS | simp -zeta only [↓Kept.mk_iff] | (extract_lets +onlyGivenNames x; first | (refine Kept.cut (P := Kept c0 q0 x) ?_ ?_; rotate_left; (intro _; clear_value x); rotate_left; unfold x; clear x) | clear_value x) | split)

theorem State.packetEnd_kept {c0 : Cfg} {q0 : List Instr} (s : State) (p : Nat) (h0 : Kept c0 q0 s) :
    Kept c0 q0 (State.packetEnd s p) := by
  unfold State.packetEnd
  repeat' (with_reducible first | assumption | apply State.finishLine_kept | intro _ | apply Kept.ite | apply Kept.foldS | simp -zeta only [↓Kept.mk_iff] | (extract_lets +onlyGivenNames x; first | (refine Kept.cut (P := Kept c0 q0 x) ?_ ?_; rotate_left; (intro _; clear_value x); rotate_left; unfold x; clear x) | clear_value x) | split)

theorem State.drainDeskew_kept {c0 : Cfg} {q0 : List Instr} (n p k : Nat) (s : State) (h0 : Kept c0 q0 s) :
    Kept c0 q0 (State.drainDeskew n p k s) := by
  induction n generalizing s with
  | zero => exact h0
  | succ n ih =>
    unfold State.drainDeskew
    repeat' (with_reducible first | assumption | apply ih | apply State.packetEnd_kept | apply State.cxpItem_kept | apply State.setPipe_kept | intro _ | apply Kept.ite | apply Kept.foldS | simp -zeta only [↓Kept.mk_iff] | (extract_lets +onlyGivenNames x; first | (refine Kept.cut (P := Kept c0 q0 x) ?_ ?_; rotate_left; (intro _; clear_value x); rotate_left; unfold x; clear x) | clear_value x) | split)

theorem State.groupDown_kept {c0 : Cfg} {q0 : List Instr} (s : State) (p : Nat) (h0 : Kept c0 q0 s) :
    Kept c0 q0 (State.groupDown s p) := by
  unfold State.groupDown
  repeat' (with_reducible first | assumption | apply State.put_kept | apply State.setPipe_kept | apply State.finishLine_kept | intro _ | apply Kept.ite | apply Kept.foldS | split)

theorem State.showSkew_kept {c0 : Cfg} {q0 : List Instr} (s : State) (p : Nat) (h0 : Kept c0 q0 s) :
    Kept c0 q0 (State.showSkew s p) := by
  unfold State.showSkew
  repeat' (with_reducible first | assumption | apply State.put_kept | apply State.setPipe_kept)

theorem State.streamPacket_kept {c0 : Cfg} {q0 : List Instr} (s : State) (p lane tag : Nat) (items : List CxpItem) (h0 : Kept c0 q0 s) :
    Kept c0 q0 (State.streamPacket s p lane tag items) := by
  unfold State.streamPacket
  repeat' (with_reducible first | assumption | apply State.put_kept | apply State.postLim_kept | apply State.setPipe_kept | apply State.drainDeskew_kept | apply State.groupDown_kept | apply State.showSkew_kept | intro _ | apply Kept.ite | apply Kept.foldS | split)

theorem State.tellSlot_kept {c0 : Cfg} {q0 : List Instr} (s : State) (n : Nat) (st : StripIn) (h0 : Kept c0 q0 s) :
    Kept c0 q0 (State.tellSlot s n st) := by
  unfold State.tellSlot
  repeat' (with_reducible first | assumption | apply State.put_kept | intro _ | apply Kept.ite | apply Kept.foldS | simp -zeta only [↓Kept.mk_iff] | split)

theorem State.calSwap_kept {c0 : Cfg} {q0 : List Instr} (s : State) (src : Src) (p v : Nat) (h0 : Kept c0 q0 s) :
    Kept c0 q0 (State.calSwap s src p v) := by
  unfold State.calSwap
  repeat' (with_reducible first | assumption | apply State.hostAbandon_kept | apply State.postLim_kept | apply State.jrnEntry_kept | apply State.setPipe_kept | intro _ | apply Kept.ite | apply Kept.foldS | split)

theorem State.pipeStop_kept {c0 : Cfg} {q0 : List Instr} (s : State) (p : Nat) (h0 : Kept c0 q0 s) :
    Kept c0 q0 (State.pipeStop s p) := by
  unfold State.pipeStop
  repeat' (with_reducible first | assumption | apply State.setRegWord_kept | apply State.setPipe_kept)

theorem State.camEnable_kept {c0 : Cfg} {q0 : List Instr} (s : State) (p old new : Nat) (h0 : Kept c0 q0 s) :
    Kept c0 q0 (State.camEnable s p old new) := by
  unfold State.camEnable
  repeat' (with_reducible first | assumption | apply State.pipeStop_kept | intro _ | apply Kept.ite | apply Kept.foldS | split)

theorem State.ctrlBase_kept {c0 : Cfg} {q0 : List Instr} (s : State) (r : RegSpec) (p v : Nat) (h0 : Kept c0 q0 s) :
    Kept c0 q0 (State.ctrlBase s r p v) := by
  unfold State.ctrlBase
  repeat' (with_reducible first | assumption | apply State.setRegWord_kept | intro _ | apply Kept.ite | apply Kept.foldS | simp -zeta only [↓Kept.mk_iff] | split)

theorem State.sendSpeed_kept {c0 : Cfg} {q0 : List Instr} (s : State) (w : Nat) (h0 : Kept c0 q0 s) :
    Kept c0 q0 (State.sendSpeed s w) := by
  unfold State.sendSpeed
  repeat' (with_reducible first | assumption | apply State.phySend_kept | intro _ | apply Kept.ite | apply Kept.foldS | split)

theorem State.camWrite_kept {c0 : Cfg} {q0 : List Instr} (s : State) (src : Src) (p : Nat) (r : CamReg) (v : Nat) (h0 : Kept c0 q0 s) :
    Kept c0 q0 (State.camWrite s src p r v) := by
  unfold State.camWrite
  repeat' (with_reducible first | assumption | apply State.hostAbandon_kept | apply State.setPipe_kept | apply State.setRegWord_kept | apply State.postLim_kept | apply State.jrnRefused_kept | apply State.paramWriteEff_kept | apply State.camEnable_kept | apply State.sendSpeed_kept | apply State.ringCfg_kept | intro _ | apply Kept.ite | apply Kept.foldS | simp -zeta only [↓Kept.mk_iff] | (extract_lets +onlyGivenNames x; first | (refine Kept.cut (P := Kept c0 q0 x) ?_ ?_; rotate_left; (intro _; clear_value x); rotate_left; unfold x; clear x) | clear_value x) | split)

theorem State.setEc_kept {c0 : Cfg} {q0 : List Instr} (s : State) (c : Nat) (x : EnvCore) (h0 : Kept c0 q0 s) :
    Kept c0 q0 (State.setEc s c x) :=
  h0

theorem State.setMon_kept {c0 : Cfg} {q0 : List Instr} (s : State) (m : Nat) (x : EnvMon) (h0 : Kept c0 q0 s) :
    Kept c0 q0 (State.setMon s m x) :=
  h0

theorem State.setFan_kept {c0 : Cfg} {q0 : List Instr} (s : State) (f : Nat) (x : EnvFan) (h0 : Kept c0 q0 s) :
    Kept c0 q0 (State.setFan s f x) :=
  h0

theorem State.setV_kept {c0 : Cfg} {q0 : List Instr} (s : State) (c v : Nat) (h0 : Kept c0 q0 s) :
    Kept c0 q0 (State.setV s c v) := by
  unfold State.setV
  repeat' (with_reducible first | assumption | apply State.put_kept | apply State.setEc_kept | intro _ | apply Kept.ite | apply Kept.foldS | split)

theorem State.request_kept {c0 : Cfg} {q0 : List Instr} (s : State) (c code : Nat) (h0 : Kept c0 q0 s) :
    Kept c0 q0 (State.request s c code) := by
  unfold State.request
  repeat' (with_reducible first | assumption | apply State.stepTt_kept | apply State.setEc_kept)

theorem State.dvfs_kept {c0 : Cfg} {q0 : List Instr} (s : State) (c : Nat) (h0 : Kept c0 q0 s) :
    Kept c0 q0 (State.dvfs s c) := by
  unfold State.dvfs
  repeat' (with_reducible first | assumption | apply State.put_kept | apply State.setEc_kept | apply State.setV_kept | apply State.request_kept | intro _ | apply Kept.ite | apply Kept.foldS | split)

theorem State.freqStep_kept {c0 : Cfg} {q0 : List Instr} (s : State) (c : Nat) (h0 : Kept c0 q0 s) :
    Kept c0 q0 (State.freqStep s c) := by
  unfold State.freqStep
  repeat' (with_reducible first | assumption | apply State.stepTt_kept | apply State.setEc_kept | apply State.setV_kept | apply State.request_kept | intro _ | apply Kept.ite | apply Kept.foldS | split)

theorem State.freqRequest_kept {c0 : Cfg} {q0 : List Instr} (s : State) (c : Nat) (h0 : Kept c0 q0 s) :
    Kept c0 q0 (State.freqRequest s c) := by
  unfold State.freqRequest
  repeat' (with_reducible first | assumption | apply State.setEc_kept | intro _ | apply Kept.ite | apply Kept.foldS | simp -zeta only [↓Kept.mk_iff] | (extract_lets +onlyGivenNames x; first | (refine Kept.cut (P := Kept c0 q0 x) ?_ ?_; rotate_left; (intro _; clear_value x); rotate_left; unfold x; clear x) | clear_value x) | split)

theorem State.clockAck_kept {c0 : Cfg} {q0 : List Instr} (s : State) (c : Nat) (h0 : Kept c0 q0 s) :
    Kept c0 q0 (State.clockAck s c) := by
  unfold State.clockAck
  repeat' (with_reducible first | assumption | apply State.noteFreq_kept | apply State.put_kept | apply State.setEc_kept | intro _ | apply Kept.ite | apply Kept.foldS | split)

theorem State.clockTimeout_kept {c0 : Cfg} {q0 : List Instr} (s : State) (c : Nat) (h0 : Kept c0 q0 s) :
    Kept c0 q0 (State.clockTimeout s c) := by
  unfold State.clockTimeout
  repeat' (with_reducible first | assumption | apply State.put_kept | apply State.bump_kept | apply State.postLim_kept | apply State.setEc_kept | intro _ | apply Kept.ite | apply Kept.foldS | split)

theorem State.cpmSample_kept {c0 : Cfg} {q0 : List Instr} (s : State) (c : Nat) (l : List Nat) (h0 : Kept c0 q0 s) :
    Kept c0 q0 (State.cpmSample s c l) := by
  unfold State.cpmSample
  repeat' (with_reducible first | assumption | apply State.put_kept | apply State.bump_kept | apply State.postLim_kept | apply State.setEc_kept | apply State.setV_kept | intro _ | apply Kept.ite | apply Kept.foldS | split)

theorem State.cpmCalibrate_kept {c0 : Cfg} {q0 : List Instr} (s : State) (c : Nat) (l : List Int) (h0 : Kept c0 q0 s) :
    Kept c0 q0 (State.cpmCalibrate s c l) := by
  unfold State.cpmCalibrate
  repeat' (with_reducible first | assumption | apply State.postLim_kept | apply State.setEc_kept | apply State.setV_kept | intro _ | apply Kept.ite | apply Kept.foldS | split)

theorem State.setLane_kept {c0 : Cfg} {q0 : List Instr} (s : State) (n : Nat) (x : TuneLane) (h0 : Kept c0 q0 s) :
    Kept c0 q0 (State.setLane s n x) :=
  h0

theorem State.writeCode_kept {c0 : Cfg} {q0 : List Instr} (s : State) (n : Nat) (thr : Bool) (code : Nat) (h0 : Kept c0 q0 s) :
    Kept c0 q0 (State.writeCode s n thr code) := by
  unfold State.writeCode
  repeat' (with_reducible first | assumption | apply State.phySend_kept)

theorem State.readEye_kept {c0 : Cfg} {q0 : List Instr} (s : State) (n : Nat) (h0 : Kept c0 q0 s) :
    Kept c0 q0 (State.readEye s n) := by
  unfold State.readEye
  repeat' (with_reducible first | assumption | apply State.phySend_kept | intro _ | apply Kept.ite | apply Kept.foldS | split)

theorem State.stageDone_kept {c0 : Cfg} {q0 : List Instr} (s : State) (n : Nat) (t : Trial) (avg : Option Nat) (h0 : Kept c0 q0 s) :
    Kept c0 q0 (State.stageDone s n t avg) := by
  unfold State.stageDone
  repeat' (with_reducible first | assumption | apply State.setLane_kept | apply State.writeCode_kept | intro _ | apply Kept.ite | apply Kept.foldS | split)

theorem State.startTrial_kept {c0 : Cfg} {q0 : List Instr} (s : State) (n : Nat) (h0 : Kept c0 q0 s) :
    Kept c0 q0 (State.startTrial s n) := by
  unfold State.startTrial
  repeat' (with_reducible first | assumption | apply State.setLane_kept | apply State.readEye_kept | intro _ | apply Kept.ite | apply Kept.foldS | split)

theorem State.dwellEnd_kept {c0 : Cfg} {q0 : List Instr} (s : State) (n : Nat) (spoiled : Bool) (h0 : Kept c0 q0 s) :
    Kept c0 q0 (State.dwellEnd s n spoiled) := by
  unfold State.dwellEnd
  repeat' (with_reducible first | assumption | apply State.setLane_kept | apply State.writeCode_kept | apply State.readEye_kept | apply State.stageDone_kept | intro _ | apply Kept.ite | apply Kept.foldS | simp -zeta only [↓Kept.mk_iff] | (extract_lets +onlyGivenNames x; first | (refine Kept.cut (P := Kept c0 q0 x) ?_ ?_; rotate_left; (intro _; clear_value x); rotate_left; unfold x; clear x) | clear_value x) | split)

theorem State.phyAck_kept {c0 : Cfg} {q0 : List Instr} (s : State) (n data : Nat) (h0 : Kept c0 q0 s) :
    Kept c0 q0 (State.phyAck s n data) := by
  unfold State.phyAck
  repeat' (with_reducible first | assumption | apply State.setLane_kept | apply State.stageDone_kept | intro _ | apply Kept.ite | apply Kept.foldS | simp -zeta only [↓Kept.mk_iff] | (extract_lets +onlyGivenNames x; first | (refine Kept.cut (P := Kept c0 q0 x) ?_ ?_; rotate_left; (intro _; clear_value x); rotate_left; unfold x; clear x) | clear_value x) | split)

theorem State.phyTimeout_kept {c0 : Cfg} {q0 : List Instr} (s : State) (n : Nat) (h0 : Kept c0 q0 s) :
    Kept c0 q0 (State.phyTimeout s n) := by
  unfold State.phyTimeout
  repeat' (with_reducible first | assumption | apply State.bump_kept | apply State.postLim_kept | apply State.setLane_kept | intro _ | apply Kept.ite | apply Kept.foldS | simp -zeta only [↓Kept.mk_iff] | (extract_lets +onlyGivenNames x; first | (refine Kept.cut (P := Kept c0 q0 x) ?_ ?_; rotate_left; (intro _; clear_value x); rotate_left; unfold x; clear x) | clear_value x) | split)

theorem State.serdesReset_kept {c0 : Cfg} {q0 : List Instr} (s : State) (n : Nat) (h0 : Kept c0 q0 s) :
    Kept c0 q0 (State.serdesReset s n) := by
  unfold State.serdesReset
  repeat' (with_reducible first | assumption | apply State.setLane_kept)

theorem State.kickFan_kept {c0 : Cfg} {q0 : List Instr} (s : State) (f : Nat) (h0 : Kept c0 q0 s) :
    Kept c0 q0 (State.kickFan s f) := by
  unfold State.kickFan
  repeat' (with_reducible first | assumption | apply State.put_kept | apply State.setFan_kept)

theorem State.showFan_kept {c0 : Cfg} {q0 : List Instr} (s : State) (f : Nat) (h0 : Kept c0 q0 s) :
    Kept c0 q0 (State.showFan s f) := by
  unfold State.showFan
  repeat' (with_reducible first | assumption | apply State.put_kept | apply State.kickFan_kept | intro _ | apply Kept.ite | apply Kept.foldS | split)

theorem State.showFans_kept {c0 : Cfg} {q0 : List Instr} (s : State) (h0 : Kept c0 q0 s) :
    Kept c0 q0 (State.showFans s) := by
  unfold State.showFans
  repeat' (with_reducible first | assumption | apply State.showFan_kept | intro _ | apply Kept.ite | apply Kept.foldS | split)

theorem State.fanEnable_kept {c0 : Cfg} {q0 : List Instr} (s : State) (f : Nat) (on : Bool) (h0 : Kept c0 q0 s) :
    Kept c0 q0 (State.fanEnable s f on) := by
  unfold State.fanEnable
  repeat' (with_reducible first | assumption | apply State.put_kept | apply State.setFan_kept | apply State.kickFan_kept | apply State.showFans_kept | intro _ | apply Kept.ite | apply Kept.foldS | split)

theorem State.kickTimeout_kept {c0 : Cfg} {q0 : List Instr} (s : State) (f : Nat) (h0 : Kept c0 q0 s) :
    Kept c0 q0 (State.kickTimeout s f) := by
  unfold State.kickTimeout
  repeat' (with_reducible first | assumption | apply State.put_kept | apply State.bump_kept | apply State.postLim_kept | apply State.setFan_kept | apply State.kickFan_kept | apply State.showFans_kept | intro _ | apply Kept.ite | apply Kept.foldS | split)

theorem State.rpmUpdate_kept {c0 : Cfg} {q0 : List Instr} (s : State) (f period : Nat) (h0 : Kept c0 q0 s) :
    Kept c0 q0 (State.rpmUpdate s f period) := by
  unfold State.rpmUpdate
  repeat' (with_reducible first | assumption | apply State.put_kept | apply State.setFan_kept | apply State.showFan_kept | intro _ | apply Kept.ite | apply Kept.foldS | split)

theorem State.tachTimeout_kept {c0 : Cfg} {q0 : List Instr} (s : State) (f : Nat) (h0 : Kept c0 q0 s) :
    Kept c0 q0 (State.tachTimeout s f) := by
  unfold State.tachTimeout
  repeat' (with_reducible first | assumption | apply State.put_kept | apply State.postLim_kept | apply State.showFans_kept | intro _ | apply Kept.ite | apply Kept.foldS | split)

theorem State.tachRestored_kept {c0 : Cfg} {q0 : List Instr} (s : State) (f : Nat) (h0 : Kept c0 q0 s) :
    Kept c0 q0 (State.tachRestored s f) := by
  unfold State.tachRestored
  repeat' (with_reducible first | assumption | apply State.put_kept | apply State.postLim_kept | apply State.showFans_kept | intro _ | apply Kept.ite | apply Kept.foldS | split)

theorem State.thermalRead_kept {c0 : Cfg} {q0 : List Instr} (s : State) (k : Nat) (t : Option Int) (h0 : Kept c0 q0 s) :
    Kept c0 q0 (State.thermalRead s k t) := by
  unfold State.thermalRead
  repeat' (with_reducible first | assumption | apply State.put_kept | apply State.postLim_kept | apply State.setEc_kept | apply State.showFans_kept | intro _ | apply Kept.ite | apply Kept.foldS | simp -zeta only [↓Kept.mk_iff] | split)

theorem State.ceilingStep_kept {c0 : Cfg} {q0 : List Instr} (s : State) (c : Nat) (h0 : Kept c0 q0 s) :
    Kept c0 q0 (State.ceilingStep s c) := by
  unfold State.ceilingStep
  repeat' (with_reducible first | assumption | apply State.put_kept | apply State.postLim_kept | apply State.setEc_kept | intro _ | apply Kept.ite | apply Kept.foldS | split)

theorem State.monBit_kept {c0 : Cfg} {q0 : List Instr} (s : State) (f : Fld) (m : Nat) (on : Bool) (h0 : Kept c0 q0 s) :
    Kept c0 q0 (State.monBit s f m on) := by
  unfold State.monBit
  repeat' (with_reducible first | assumption | apply State.put_kept)

theorem State.supplyStop_kept {c0 : Cfg} {q0 : List Instr} (s : State) (h0 : Kept c0 q0 s) :
    Kept c0 q0 (State.supplyStop s) := by
  unfold State.supplyStop
  repeat' (with_reducible first | assumption | apply State.actStop_kept | apply State.bypassUpdate_kept | intro _ | apply Kept.ite | apply Kept.foldS | simp -zeta only [↓Kept.mk_iff] | (extract_lets +onlyGivenNames x; first | (refine Kept.cut (P := Kept c0 q0 x) ?_ ?_; rotate_left; (intro _; clear_value x); rotate_left; unfold x; clear x) | clear_value x) | split)

theorem State.vmonSample_kept {c0 : Cfg} {q0 : List Instr} (s : State) (m v : Nat) (h0 : Kept c0 q0 s) :
    Kept c0 q0 (State.vmonSample s m v) := by
  unfold State.vmonSample
  repeat' (with_reducible first | assumption | apply State.put_kept | apply State.bump_kept | apply State.postLim_kept | apply State.setMon_kept | apply State.monBit_kept | apply State.supplyStop_kept | intro _ | apply Kept.ite | apply Kept.foldS | split)

theorem State.supplyBack_kept {c0 : Cfg} {q0 : List Instr} (s : State) (h0 : Kept c0 q0 s) :
    Kept c0 q0 (State.supplyBack s) := by
  unfold State.supplyBack
  repeat' (with_reducible first | assumption | apply State.bypassUpdate_kept | intro _ | apply Kept.ite | apply Kept.foldS | simp -zeta only [↓Kept.mk_iff] | (extract_lets +onlyGivenNames x; first | (refine Kept.cut (P := Kept c0 q0 x) ?_ ?_; rotate_left; (intro _; clear_value x); rotate_left; unfold x; clear x) | clear_value x) | split)

theorem State.supplyClear_kept {c0 : Cfg} {q0 : List Instr} (s : State) (m : Nat) (h0 : Kept c0 q0 s) :
    Kept c0 q0 (State.supplyClear s m) := by
  unfold State.supplyClear
  repeat' (with_reducible first | assumption | apply State.postLim_kept | apply State.monBit_kept | apply State.supplyBack_kept | intro _ | apply Kept.ite | apply Kept.foldS | split)

theorem State.emWrite_kept {c0 : Cfg} {q0 : List Instr} (s : State) (src : Src) (r : RegSpec) (ix : List Nat) (v : Nat) (h0 : Kept c0 q0 s) :
    Kept c0 q0 (State.emWrite s src r ix v) := by
  unfold State.emWrite
  repeat' (with_reducible first | assumption | apply State.postLim_kept | apply State.paramWriteEff_kept | apply State.setV_kept | apply State.showFans_kept | apply State.fanEnable_kept | intro _ | apply Kept.ite | apply Kept.foldS | split)

theorem State.unitAgree_kept {c0 : Cfg} {q0 : List Instr} (s : State) (u : Nat) (reported : Bool) (h0 : Kept c0 q0 s) :
    Kept c0 q0 (State.unitAgree s u reported) := by
  unfold State.unitAgree
  repeat' (with_reducible first | assumption | apply State.post_kept | intro _ | apply Kept.ite | apply Kept.foldS | simp -zeta only [↓Kept.mk_iff] | split)

theorem State.unitsUpdate_kept {c0 : Cfg} {q0 : List Instr} (s : State) (h0 : Kept c0 q0 s) :
    Kept c0 q0 (State.unitsUpdate s) := by
  unfold State.unitsUpdate
  repeat' (with_reducible first | assumption | apply State.unitAgree_kept | intro _ | apply Kept.ite | apply Kept.foldS | simp -zeta only [↓Kept.mk_iff] | split)

theorem State.unitReport_kept {c0 : Cfg} {q0 : List Instr} (s : State) (u : Nat) (h0 : Kept c0 q0 s) :
    Kept c0 q0 (State.unitReport s u) := by
  unfold State.unitReport
  repeat' (with_reducible first | assumption | apply State.post_kept | intro _ | apply Kept.ite | apply Kept.foldS | simp -zeta only [↓Kept.mk_iff] | split)

theorem State.unitTimeout_kept {c0 : Cfg} {q0 : List Instr} (s : State) (u : Nat) (h0 : Kept c0 q0 s) :
    Kept c0 q0 (State.unitTimeout s u) := by
  unfold State.unitTimeout
  repeat' (with_reducible first | assumption | apply State.unitsUpdate_kept | apply State.unitReport_kept)

theorem State.pcRefused_kept {c0 : Cfg} {q0 : List Instr} (s : State) (off : Nat) (h0 : Kept c0 q0 s) :
    Kept c0 q0 (State.pcRefused s off) := by
  unfold State.pcRefused
  repeat' (with_reducible first | assumption | apply State.postLim_kept)

theorem State.selWrite_kept {c0 : Cfg} {q0 : List Instr} (s : State) (src : Src) (off v : Nat) (h0 : Kept c0 q0 s) :
    Kept c0 q0 (State.selWrite s src off v) := by
  unfold State.selWrite
  repeat' (with_reducible first | assumption | apply State.setRaw_kept | apply State.hostAbandon_kept | apply State.pcRefused_kept | intro _ | apply Kept.ite | apply Kept.foldS | split)

theorem State.pcClear_kept {c0 : Cfg} {q0 : List Instr} (s : State) (src : Src) (h0 : Kept c0 q0 s) :
    Kept c0 q0 (State.pcClear s src) := by
  unfold State.pcClear
  repeat' (with_reducible first | assumption | apply State.put_kept | apply State.hostAbandon_kept | intro _ | apply Kept.ite | apply Kept.foldS | simp -zeta only [↓Kept.mk_iff] | split)

theorem State.snapSkip_kept {c0 : Cfg} {q0 : List Instr} (s : State) (t n cause : Nat) (h0 : Kept c0 q0 s) :
    Kept c0 q0 (State.snapSkip s t n cause) := by
  unfold State.snapSkip
  repeat' (with_reducible first | assumption | apply State.bump_kept | apply State.postLim_kept | intro _ | apply Kept.ite | apply Kept.foldS | simp -zeta only [↓Kept.mk_iff] | split)

theorem State.snapNow_kept {c0 : Cfg} {q0 : List Instr} (s : State) (h0 : Kept c0 q0 s) :
    Kept c0 q0 (State.snapNow s) :=
  h0

theorem State.snapLatch_kept {c0 : Cfg} {q0 : List Instr} (s : State) (h0 : Kept c0 q0 s) :
    Kept c0 q0 (State.snapLatch s) :=
  h0

theorem State.snapBusy_kept {c0 : Cfg} {q0 : List Instr} (s : State) (t : Nat) (h0 : Kept c0 q0 s) :
    Kept c0 q0 (State.snapBusy s t) :=
  h0

theorem State.snapshot_kept {c0 : Cfg} {q0 : List Instr} (s : State) (h0 : Kept c0 q0 s) :
    Kept c0 q0 s.snapshot := by
  unfold State.snapshot
  split
  · exact h0
  · repeat' (with_reducible first | assumption | apply State.snapSkip_kept | apply State.writeMem_kept | apply State.snapBusy_kept | apply State.snapLatch_kept | apply State.snapNow_kept | apply State.put_kept | apply State.postLim_kept | apply State.bump_kept | intro _ | apply Kept.ite | apply Kept.foldS | simp -zeta only [↓Kept.mk_iff] | (extract_lets +onlyGivenNames x; first | (refine Kept.cut (P := Kept c0 q0 x) ?_ ?_; rotate_left; (intro _; clear_value x); rotate_left; unfold x; clear x) | clear_value x) | split)

theorem State.pcWriteError_kept {c0 : Cfg} {q0 : List Instr} (s : State) (a : Nat) (h0 : Kept c0 q0 s) :
    Kept c0 q0 (State.pcWriteError s a) := by
  unfold State.pcWriteError
  repeat' (with_reducible first | assumption | apply State.bump_kept | apply State.postLim_kept)

theorem State.snapWritten_kept {c0 : Cfg} {q0 : List Instr} (s : State) (err : Bool) (h0 : Kept c0 q0 s) :
    Kept c0 q0 (State.snapWritten s err) := by
  unfold State.snapWritten
  repeat' (with_reducible first | assumption | apply State.put_kept | apply State.writeMem_kept | apply State.pcWriteError_kept | intro _ | apply Kept.ite | apply Kept.foldS | simp -zeta only [↓Kept.mk_iff] | split)

theorem State.draws_kept {c0 : Cfg} {q0 : List Instr} (s : State) (n : Nat) (h0 : Kept c0 q0 s) :
    Kept c0 q0 (s.draws n).2 := by
  induction n generalizing s with
  | zero => exact h0
  | succ n ih => exact ih _ (State.draw_kept _ _ h0)

theorem State.sampleWrite_kept {c0 : Cfg} {q0 : List Instr} (s : State) (c e : Nat) (err : Bool) (h0 : Kept c0 q0 s) :
    Kept c0 q0 (State.sampleWrite s c e err) := by
  unfold State.sampleWrite
  repeat' (with_reducible first | assumption | apply hx | apply State.put_kept | apply State.bump_kept | apply State.writeMem_kept | apply State.postLim_kept | apply State.pcWriteError_kept | apply State.draws_kept | intro _ | apply Kept.ite | apply Kept.foldS | simp -zeta only [↓Kept.mk_iff] | (extract_lets +onlyGivenNames x; first | (refine Kept.cut (P := Kept c0 q0 x) ?_ ?_; rotate_left; (intro _; clear_value x); rotate_left; unfold x; clear x) | (refine Kept.cut (P := ∀ y, Kept c0 q0 y → Kept c0 q0 (x y)) ?_ ?_; rotate_left; (intro hx; clear_value x); rotate_left; unfold x; clear x) | (refine Kept.cut (P := ∀ y a, Kept c0 q0 y → Kept c0 q0 (x y a)) ?_ ?_; rotate_left; (intro hx; clear_value x); rotate_left; unfold x; clear x) | (refine Kept.cut (P := ∀ a y, Kept c0 q0 y → Kept c0 q0 (x a y)) ?_ ?_; rotate_left; (intro hx; clear_value x); rotate_left; unfold x; clear x) | (refine Kept.cut (P := ∀ a, Kept c0 q0 (x a)) ?_ ?_; rotate_left; (intro hx; clear_value x); rotate_left; unfold x; clear x) | (refine Kept.cut (P := ∀ a, Kept c0 q0 (x a).2.2) ?_ ?_; rotate_left; (intro hx; clear_value x); rotate_left; unfold x; clear x) | (refine Kept.cut (P := ∀ a, Kept c0 q0 (x a).2) ?_ ?_; rotate_left; (intro hx; clear_value x); rotate_left; unfold x; clear x) | (refine Kept.cut (P := ∀ a b, Kept c0 q0 (x a b)) ?_ ?_; rotate_left; (intro hx; clear_value x); rotate_left; unfold x; clear x) | (refine Kept.cut (P := ∀ y a b, Kept c0 q0 y → Kept c0 q0 (x y a b)) ?_ ?_; rotate_left; (intro hx; clear_value x); rotate_left; unfold x; clear x) | (refine Kept.cut (P := Kept c0 q0 x.2) ?_ ?_; rotate_left; (intro hx; clear_value x); rotate_left; unfold x; clear x) | (refine Kept.cut (P := Kept c0 q0 x.1) ?_ ?_; rotate_left; (intro hx; clear_value x); rotate_left; unfold x; clear x) | (refine Kept.cut (P := Kept c0 q0 x.2.2) ?_ ?_; rotate_left; (intro hx; clear_value x); rotate_left; unfold x; clear x) | (refine Kept.cut (P := Kept c0 q0 x.2.1) ?_ ?_; rotate_left; (intro hx; clear_value x); rotate_left; unfold x; clear x) | clear_value x) | split)

theorem State.captureOvf_kept {c0 : Cfg} {q0 : List Instr} (s : State) (c e : Nat) (h0 : Kept c0 q0 s) :
    Kept c0 q0 (State.captureOvf s c e) := by
  unfold State.captureOvf
  repeat' (with_reducible first | assumption | apply State.setRaw_kept | apply State.freeze_kept | intro _ | apply Kept.ite | apply Kept.foldS | simp -zeta only [↓Kept.mk_iff] | (extract_lets +onlyGivenNames x; first | (refine Kept.cut (P := Kept c0 q0 x) ?_ ?_; rotate_left; (intro _; clear_value x); rotate_left; unfold x; clear x) | clear_value x) | split)

theorem State.bankCtlWrite_kept {c0 : Cfg} {q0 : List Instr} (s : State) (off v : Nat) (h0 : Kept c0 q0 s) :
    Kept c0 q0 (State.bankCtlWrite s off v) := by
  unfold State.bankCtlWrite
  repeat' (with_reducible first | assumption | apply State.put_kept | apply State.setRaw_kept | intro _ | apply Kept.ite | apply Kept.foldS | split)

theorem State.cntWrite_kept {c0 : Cfg} {q0 : List Instr} (s : State) (off v : Nat) (h0 : Kept c0 q0 s) :
    Kept c0 q0 (State.cntWrite s off v) := by
  unfold State.cntWrite
  repeat' (with_reducible first | assumption | apply State.setRaw_kept | intro _ | apply Kept.ite | apply Kept.foldS | split)

theorem State.pcRingWrite_kept {c0 : Cfg} {q0 : List Instr} (s : State) (snap base : Bool) (v : Nat) (h0 : Kept c0 q0 s) :
    Kept c0 q0 (State.pcRingWrite s snap base v) := by
  unfold State.pcRingWrite
  repeat' (with_reducible first | assumption | apply State.setRegWord_kept | apply State.pcRefused_kept | intro _ | apply Kept.ite | apply Kept.foldS | split)

theorem State.readAt_kept {c0 : Cfg} {q0 : List Instr} (s : State) (off : Nat) (h0 : Kept c0 q0 s) :
    Kept c0 q0 (State.readAt s off).2 := by
  unfold State.readAt
  repeat' (with_reducible first | assumption | apply State.setRegWord_kept | apply State.put_kept | intro _ | apply Kept.ite | apply Kept.foldS | simp -zeta only [↓Kept.mk_iff] | split)

theorem State.readReg_kept {c0 : Cfg} {q0 : List Instr} (s : State) (src : Src) (off : Nat) (h0 : Kept c0 q0 s) :
    Kept c0 q0 (State.readReg s src off) := by
  unfold State.readReg
  repeat' (with_reducible first | assumption | apply hx | apply State.hostAbandon_kept | apply State.readAt_kept | intro _ | apply Kept.ite | apply Kept.foldS | simp -zeta only [↓Kept.mk_iff] | (extract_lets +onlyGivenNames x; first | (refine Kept.cut (P := Kept c0 q0 x) ?_ ?_; rotate_left; (intro _; clear_value x); rotate_left; unfold x; clear x) | (refine Kept.cut (P := ∀ y, Kept c0 q0 y → Kept c0 q0 (x y)) ?_ ?_; rotate_left; (intro hx; clear_value x); rotate_left; unfold x; clear x) | (refine Kept.cut (P := ∀ y a, Kept c0 q0 y → Kept c0 q0 (x y a)) ?_ ?_; rotate_left; (intro hx; clear_value x); rotate_left; unfold x; clear x) | (refine Kept.cut (P := ∀ a y, Kept c0 q0 y → Kept c0 q0 (x a y)) ?_ ?_; rotate_left; (intro hx; clear_value x); rotate_left; unfold x; clear x) | (refine Kept.cut (P := ∀ a, Kept c0 q0 (x a)) ?_ ?_; rotate_left; (intro hx; clear_value x); rotate_left; unfold x; clear x) | (refine Kept.cut (P := ∀ a, Kept c0 q0 (x a).2.2) ?_ ?_; rotate_left; (intro hx; clear_value x); rotate_left; unfold x; clear x) | (refine Kept.cut (P := ∀ a, Kept c0 q0 (x a).2) ?_ ?_; rotate_left; (intro hx; clear_value x); rotate_left; unfold x; clear x) | (refine Kept.cut (P := ∀ a b, Kept c0 q0 (x a b)) ?_ ?_; rotate_left; (intro hx; clear_value x); rotate_left; unfold x; clear x) | (refine Kept.cut (P := ∀ y a b, Kept c0 q0 y → Kept c0 q0 (x y a b)) ?_ ?_; rotate_left; (intro hx; clear_value x); rotate_left; unfold x; clear x) | (refine Kept.cut (P := Kept c0 q0 x.2) ?_ ?_; rotate_left; (intro hx; clear_value x); rotate_left; unfold x; clear x) | (refine Kept.cut (P := Kept c0 q0 x.1) ?_ ?_; rotate_left; (intro hx; clear_value x); rotate_left; unfold x; clear x) | (refine Kept.cut (P := Kept c0 q0 x.2.2) ?_ ?_; rotate_left; (intro hx; clear_value x); rotate_left; unfold x; clear x) | (refine Kept.cut (P := Kept c0 q0 x.2.1) ?_ ?_; rotate_left; (intro hx; clear_value x); rotate_left; unfold x; clear x) | clear_value x) | split)

theorem flushHeld_kept {c0 : Cfg} {q0 : List Instr} (r n : Nat) (s : State) (h0 : Kept c0 q0 s) :
    Kept c0 q0 (flushHeld r n s) := by
  induction n generalizing s with
  | zero => exact h0
  | succ n ih =>
    unfold flushHeld
    repeat' (with_reducible first | assumption | apply ih | apply State.put_kept | apply State.cqSend_kept | intro _ | apply Kept.ite | apply Kept.foldS | simp -zeta only [↓Kept.mk_iff] | (extract_lets +onlyGivenNames x; first | (refine Kept.cut (P := Kept c0 q0 x) ?_ ?_; rotate_left; (intro _; clear_value x); rotate_left; unfold x; clear x) | clear_value x) | split)

theorem State.flush_kept {c0 : Cfg} {q0 : List Instr} (s : State) (r : Nat) (h0 : Kept c0 q0 s) :
    Kept c0 q0 (State.flush s r) := by
  unfold State.flush
  repeat' (with_reducible first | assumption | apply flushHeld_kept | intro _ | apply Kept.ite | apply Kept.foldS | split)

theorem State.hostEvent_kept {c0 : Cfg} {q0 : List Instr} (s : State) (h0 : Kept c0 q0 s) :
    Kept c0 q0 (State.hostEvent s) := by
  unfold State.hostEvent
  repeat' (with_reducible first | assumption | apply State.put_kept | apply State.bump_kept | intro _ | apply Kept.ite | apply Kept.foldS | simp -zeta only [↓Kept.mk_iff] | split)

theorem State.hostAcked_kept {c0 : Cfg} {q0 : List Instr} (s : State) (w : HostWrite) (h0 : Kept c0 q0 s) :
    Kept c0 q0 (State.hostAcked s w) := by
  unfold State.hostAcked
  repeat' (with_reducible first | assumption | apply State.irqItem_kept | intro _ | apply Kept.ite | apply Kept.foldS | split)

theorem State.masterError_kept {c0 : Cfg} {q0 : List Instr} (s : State) (w : HostWrite) (cause : Nat) (h0 : Kept c0 q0 s) :
    Kept c0 q0 (State.masterError s w cause) := by
  unfold State.masterError
  repeat' (with_reducible first | assumption | apply State.put_kept | apply State.bump_kept | apply State.setPair_kept | apply State.postLim_kept | intro _ | apply Kept.ite | apply Kept.foldS | simp -zeta only [↓Kept.mk_iff] | split)

theorem State.hostAnswer_kept {c0 : Cfg} {q0 : List Instr} (s : State) (err : Bool) (h0 : Kept c0 q0 s) :
    Kept c0 q0 (State.hostAnswer s err) := by
  unfold State.hostAnswer
  repeat' (with_reducible first | assumption | apply State.hostAcked_kept | apply State.masterError_kept | intro _ | apply Kept.ite | apply Kept.foldS | simp -zeta only [↓Kept.mk_iff] | split)

theorem State.hostTimeout_kept {c0 : Cfg} {q0 : List Instr} (s : State) (h0 : Kept c0 q0 s) :
    Kept c0 q0 (State.hostTimeout s) := by
  unfold State.hostTimeout
  repeat' (with_reducible first | assumption | apply State.masterError_kept | intro _ | apply Kept.ite | apply Kept.foldS | simp -zeta only [↓Kept.mk_iff] | split)

theorem State.irqTimeout_kept {c0 : Cfg} {q0 : List Instr} (s : State) (v : Nat) (h0 : Kept c0 q0 s) :
    Kept c0 q0 (State.irqTimeout s v) := by
  unfold State.irqTimeout
  repeat' (with_reducible first | assumption | apply State.put_kept | intro _ | apply Kept.ite | apply Kept.foldS | split)

theorem State.irqClear_kept {c0 : Cfg} {q0 : List Instr} (s : State) (v : Nat) (h0 : Kept c0 q0 s) :
    Kept c0 q0 (State.irqClear s v) := by
  unfold State.irqClear
  repeat' (with_reducible first | assumption | apply State.put_kept | simp -zeta only [↓Kept.mk_iff])

theorem State.hpRefused_kept {c0 : Cfg} {q0 : List Instr} (s : State) (off : Nat) (h0 : Kept c0 q0 s) :
    Kept c0 q0 (State.hpRefused s off) := by
  unfold State.hpRefused
  repeat' (with_reducible first | assumption | apply State.postLim_kept)

theorem State.sqWrite_kept {c0 : Cfg} {q0 : List Instr} (s : State) (r : RegSpec) (ring v : Nat) (ok : Bool) (h0 : Kept c0 q0 s) :
    Kept c0 q0 (State.sqWrite s r ring v ok) := by
  unfold State.sqWrite
  repeat' (with_reducible first | assumption | apply State.setRegWord_kept | apply State.hpRefused_kept | intro _ | apply Kept.ite | apply Kept.foldS | split)

theorem State.ringBase_kept {c0 : Cfg} {q0 : List Instr} (s : State) (lo hi : RegSpec) (ix : List Nat) (en : Bool) (v : Nat) (h0 : Kept c0 q0 s) :
    Kept c0 q0 (State.ringBase s lo hi ix en v) := by
  unfold State.ringBase
  repeat' (with_reducible first | assumption | apply State.setPair_kept | apply State.hpRefused_kept | intro _ | apply Kept.ite | apply Kept.foldS | split)

theorem State.ringCfg_kept {c0 : Cfg} {q0 : List Instr} (s : State) (r : RegSpec) (ix : List Nat) (v : Nat) (h0 : Kept c0 q0 s) :
    Kept c0 q0 (State.ringCfg s r ix v) := by
  unfold State.ringCfg
  repeat' (with_reducible first | assumption | apply State.setRegWord_kept | apply State.hpRefused_kept | intro _ | apply Kept.ite | apply Kept.foldS | split)

theorem State.ringWrite_kept {c0 : Cfg} {q0 : List Instr} (s : State) (src : Src) (reg : RingReg) (ring v : Nat) (h0 : Kept c0 q0 s) :
    Kept c0 q0 (State.ringWrite s src reg ring v) := by
  unfold State.ringWrite
  repeat' (with_reducible first | assumption | apply State.hostAbandon_kept | apply State.sqWrite_kept | apply State.ringBase_kept | apply State.ringCfg_kept | intro _ | apply Kept.ite | apply Kept.foldS | split)

theorem State.setDec_kept {c0 : Cfg} {q0 : List Instr} (s : State) (c : Nat) (d : DecCh) (h0 : Kept c0 q0 s) :
    Kept c0 q0 (State.setDec s c d) :=
  h0

theorem State.decEvent_kept {c0 : Cfg} {q0 : List Instr} (s : State) (code cause c seq : Nat) (fs : List (FK × Nat)) (h0 : Kept c0 q0 s) :
    Kept c0 q0 (State.decEvent s code cause c seq fs) := by
  unfold State.decEvent
  repeat' (with_reducible first | assumption | apply State.postLim_kept)

theorem State.decUse_kept {c0 : Cfg} {q0 : List Instr} (s : State) (c n : Nat) (h0 : Kept c0 q0 s) :
    Kept c0 q0 (State.decUse s c n) := by
  unfold State.decUse
  repeat' (with_reducible first | assumption | apply State.put_kept | apply State.setDec_kept)

theorem State.decPush_kept {c0 : Cfg} {q0 : List Instr} (s : State) (c : Nat) (l : List DecItem) (h0 : Kept c0 q0 s) :
    Kept c0 q0 (State.decPush s c l) := by
  unfold State.decPush
  repeat' (with_reducible first | assumption | apply State.setDec_kept)

theorem State.decReplaced_kept {c0 : Cfg} {q0 : List Instr} (s : State) (c n : Nat) (h0 : Kept c0 q0 s) :
    Kept c0 q0 (State.decReplaced s c n) := by
  unfold State.decReplaced
  repeat' (with_reducible first | assumption | apply State.bump_kept)

theorem State.decLine_kept {c0 : Cfg} {q0 : List Instr} (s : State) (c p : Nat) (bytes : List Byte) (tt : Nat) (cnt : Option Nat) (onTime : Bool) (h0 : Kept c0 q0 s) :
    Kept c0 q0 (State.decLine s c p bytes tt cnt onTime) := by
  unfold State.decLine
  repeat' (with_reducible first | assumption | apply State.replaceLine_kept | apply State.acceptLine_kept | apply State.occupy_kept | apply State.overrateLine_kept | apply State.setDec_kept | intro _ | apply Kept.ite | apply Kept.foldS | simp -zeta only [↓Kept.mk_iff] | split)

theorem State.decDelta_kept {c0 : Cfg} {q0 : List Instr} (s : State) (c tt : Nat) (h0 : Kept c0 q0 s) :
    Kept c0 q0 (State.decDelta s c tt) := by
  unfold State.decDelta
  repeat' (with_reducible first | assumption | apply State.setDec_kept | intro _ | apply Kept.ite | apply Kept.foldS | split)

theorem State.padStrip_kept {c0 : Cfg} {q0 : List Instr} (n p : Nat) (s : State) (h0 : Kept c0 q0 s) :
    Kept c0 q0 (State.padStrip n p s) := by
  induction n generalizing s with
  | zero => exact h0
  | succ n ih =>
    unfold State.padStrip
    repeat' (with_reducible first | assumption | apply ih | apply State.replaceLine_kept | intro _ | apply Kept.ite | apply Kept.foldS | simp -zeta only [↓Kept.mk_iff] | (extract_lets +onlyGivenNames x; first | (refine Kept.cut (P := Kept c0 q0 x) ?_ ?_; rotate_left; (intro _; clear_value x); rotate_left; unfold x; clear x) | clear_value x) | split)

theorem State.decResume_kept {c0 : Cfg} {q0 : List Instr} (s : State) (c p : Nat) (h0 : Kept c0 q0 s) :
    Kept c0 q0 (State.decResume s c p) := by
  unfold State.decResume
  repeat' (with_reducible first | assumption | apply State.postLim_kept | apply State.setPipe_kept | apply State.setDec_kept | intro _ | apply Kept.ite | apply Kept.foldS | split)

theorem State.decItem_kept {c0 : Cfg} {q0 : List Instr} (s : State) (c p : Nat) (it : DecItem) (h0 : Kept c0 q0 s) :
    Kept c0 q0 (State.decItem s c p it) := by
  unfold State.decItem
  repeat' (with_reducible first | assumption | apply State.put_kept | apply State.replaceLine_kept | apply State.closeStrip_kept | apply State.setDec_kept | apply State.decEvent_kept | apply State.decLine_kept | apply State.decDelta_kept | apply State.padStrip_kept | apply State.decResume_kept | intro _ | apply Kept.ite | apply Kept.foldS | split)

theorem State.decFeed_kept {c0 : Cfg} {q0 : List Instr} (n c : Nat) (s : State) (h0 : Kept c0 q0 s) :
    Kept c0 q0 (State.decFeed n c s) := by
  induction n generalizing s with
  | zero => exact h0
  | succ n ih =>
    unfold State.decFeed
    repeat' (with_reducible first | assumption | apply ih | apply State.decItem_kept | apply State.put_kept | apply State.setDec_kept | intro _ | apply Kept.ite | apply Kept.foldS | simp -zeta only [↓Kept.mk_iff] | (extract_lets +onlyGivenNames x; first | (refine Kept.cut (P := Kept c0 q0 x) ?_ ?_; rotate_left; (intro _; clear_value x); rotate_left; unfold x; clear x) | clear_value x) | split)

theorem State.decRun_kept {c0 : Cfg} {q0 : List Instr} (s : State) (c : Nat) (h0 : Kept c0 q0 s) :
    Kept c0 q0 (State.decRun s c) := by
  unfold State.decRun
  repeat' (with_reducible first | assumption | apply State.decFeed_kept)

theorem State.decSkip_kept {c0 : Cfg} {q0 : List Instr} (s : State) (c cause seq n : Nat) (h0 : Kept c0 q0 s) :
    Kept c0 q0 (State.decSkip s c cause seq n) := by
  unfold State.decSkip
  repeat' (with_reducible first | assumption | apply State.bump_kept | apply State.decEvent_kept | apply State.decPush_kept | apply State.decReplaced_kept)

theorem State.decCounts_kept {c0 : Cfg} {q0 : List Instr} (r : RecHdr) (i n : Nat) (s : State) (h0 : Kept c0 q0 s) :
    Kept c0 q0 (State.decCounts r i n s).2 := by
  induction n generalizing i s with
  | zero => exact h0
  | succ n ih =>
    unfold State.decCounts
    apply ih
    repeat' (with_reducible first | assumption | apply hx | apply State.draw_kept | intro _ | apply Kept.ite | apply Kept.foldS | simp -zeta only [↓Kept.mk_iff] | (extract_lets +onlyGivenNames x; first | (refine Kept.cut (P := Kept c0 q0 x) ?_ ?_; rotate_left; (intro _; clear_value x); rotate_left; unfold x; clear x) | (refine Kept.cut (P := ∀ y, Kept c0 q0 y → Kept c0 q0 (x y)) ?_ ?_; rotate_left; (intro hx; clear_value x); rotate_left; unfold x; clear x) | (refine Kept.cut (P := ∀ y a, Kept c0 q0 y → Kept c0 q0 (x y a)) ?_ ?_; rotate_left; (intro hx; clear_value x); rotate_left; unfold x; clear x) | (refine Kept.cut (P := ∀ a y, Kept c0 q0 y → Kept c0 q0 (x a y)) ?_ ?_; rotate_left; (intro hx; clear_value x); rotate_left; unfold x; clear x) | (refine Kept.cut (P := ∀ a, Kept c0 q0 (x a)) ?_ ?_; rotate_left; (intro hx; clear_value x); rotate_left; unfold x; clear x) | (refine Kept.cut (P := ∀ a, Kept c0 q0 (x a).2.2) ?_ ?_; rotate_left; (intro hx; clear_value x); rotate_left; unfold x; clear x) | (refine Kept.cut (P := ∀ a, Kept c0 q0 (x a).2) ?_ ?_; rotate_left; (intro hx; clear_value x); rotate_left; unfold x; clear x) | (refine Kept.cut (P := ∀ a b, Kept c0 q0 (x a b)) ?_ ?_; rotate_left; (intro hx; clear_value x); rotate_left; unfold x; clear x) | (refine Kept.cut (P := ∀ y a b, Kept c0 q0 y → Kept c0 q0 (x y a b)) ?_ ?_; rotate_left; (intro hx; clear_value x); rotate_left; unfold x; clear x) | (refine Kept.cut (P := Kept c0 q0 x.2) ?_ ?_; rotate_left; (intro hx; clear_value x); rotate_left; unfold x; clear x) | (refine Kept.cut (P := Kept c0 q0 x.1) ?_ ?_; rotate_left; (intro hx; clear_value x); rotate_left; unfold x; clear x) | (refine Kept.cut (P := Kept c0 q0 x.2.2) ?_ ?_; rotate_left; (intro hx; clear_value x); rotate_left; unfold x; clear x) | (refine Kept.cut (P := Kept c0 q0 x.2.1) ?_ ?_; rotate_left; (intro hx; clear_value x); rotate_left; unfold x; clear x) | clear_value x) | split)

theorem State.decLines_kept {c0 : Cfg} {q0 : List Instr} (s : State) (c : Nat) (r : RecHdr) (rows : List (List Byte)) (h0 : Kept c0 q0 s) :
    Kept c0 q0 (State.decLines s c r rows) := by
  unfold State.decLines
  repeat' (with_reducible first | assumption | apply State.decPush_kept | apply State.decCounts_kept)

theorem State.decStill_kept {c0 : Cfg} {q0 : List Instr} (s : State) (c : Nat) (r : RecHdr) (payload : List Byte) (j : JHead) (data : List Byte) (h0 : Kept c0 q0 s) :
    Kept c0 q0 (State.decStill s c r payload j data) := by
  unfold State.decStill
  repeat' (with_reducible first | assumption | apply State.writeMem_kept | apply State.decPush_kept | apply State.decLines_kept)

theorem State.decRecord_kept {c0 : Cfg} {q0 : List Instr} (s : State) (c p : Nat) (h0 : Kept c0 q0 s) :
    Kept c0 q0 (s.decRecord c p) := by
  unfold State.decRecord
  extract_lets +onlyGivenNames d r fmt lineBytes early total whole seqBad seqEvent payload base good n drop
  have hs : ∀ y, Kept c0 q0 y → Kept c0 q0 (seqEvent y) := fun _ h => Kept.ite (State.decEvent_kept _ _ _ _ _ _ h) h
  have hg : ∀ y, Kept c0 q0 y → Kept c0 q0 (good y) := fun _ h => State.put_kept _ _ _ _ h
  have hd : ∀ y, Kept c0 q0 y → Kept c0 q0 (drop y) := fun _ h => State.setDec_kept _ _ _ (State.decUse_kept _ _ _ h)
  have hb : ∀ x, Kept c0 q0 (drop (seqEvent (s.setDec c x))) := fun _ => hd _ (hs _ (State.setDec_kept _ _ _ h0))
  clear_value drop
  clear_value good
  clear_value seqEvent
  clear_value base
  clear_value early
  split
  · refine Kept.ite h0 ?_
    extract_lets +onlyGivenNames n k b s1
    have h1 : Kept c0 q0 b := State.setDec_kept _ _ _ h0
    exact hd _ (State.decSkip_kept _ _ _ _ _ (Kept.ite h1 (hs _ h1)))
  · refine Kept.ite h0 ?_
    extract_lets +onlyGivenNames crcBad
    split
    · exact Kept.ite (State.decSkip_kept _ _ _ _ _ (hb _)) (hg _ (State.decLines_kept _ _ _ _ (hb _)))
    · refine Kept.ite (State.decSkip_kept _ _ _ _ _ (hb _)) ?_
      split
      · exact State.decSkip_kept _ _ _ _ _ (hb _)
      · exact hg _ (State.decStill_kept _ _ _ _ _ _ (hb _))
    · exact Kept.ite (State.decSkip_kept _ _ _ _ _ (hb _)) (Kept.ite (hg _ (State.decPush_kept _ _ _ (hb _)))
        (hg _ (State.decPush_kept _ _ _ (State.decReplaced_kept _ _ _ (hb _)))))
    · exact Kept.ite (State.decSkip_kept _ _ _ _ _ (hb _)) (hg _ (State.decPush_kept _ _ _ (hb _)))

theorem State.decResync_kept {c0 : Cfg} {q0 : List Instr} (s : State) (c at_ : Nat) (h0 : Kept c0 q0 s) :
    Kept c0 q0 (State.decResync s c at_) := by
  unfold State.decResync
  repeat' (with_reducible first | assumption | apply State.draw_kept | apply State.setDec_kept | apply State.decEvent_kept | apply State.decUse_kept | apply State.decPush_kept | apply State.decReplaced_kept | intro _ | apply Kept.ite | apply Kept.foldS | split)

theorem State.decRefused_kept {c0 : Cfg} {q0 : List Instr} (s : State) (c off : Nat) (h0 : Kept c0 q0 s) :
    Kept c0 q0 (State.decRefused s c off) := by
  unfold State.decRefused
  repeat' (with_reducible first | assumption | apply State.decEvent_kept)

theorem State.decStop_kept {c0 : Cfg} {q0 : List Instr} (s : State) (c : Nat) (h0 : Kept c0 q0 s) :
    Kept c0 q0 (State.decStop s c) := by
  unfold State.decStop
  repeat' (with_reducible first | assumption | apply State.put_kept | apply State.pipeStop_kept | apply State.setDec_kept | intro _ | apply Kept.ite | apply Kept.foldS | split)

theorem State.decCtlWrite_kept {c0 : Cfg} {q0 : List Instr} (s : State) (src : Src) (c v : Nat) (h0 : Kept c0 q0 s) :
    Kept c0 q0 (State.decCtlWrite s src c v) := by
  unfold State.decCtlWrite
  repeat' (with_reducible first | assumption | apply State.put_kept | apply State.paramWrite_kept | apply State.decRefused_kept | apply State.decStop_kept | intro _ | apply Kept.ite | apply Kept.foldS | split)

theorem State.decWrite_kept {c0 : Cfg} {q0 : List Instr} (s : State) (src : Src) (c : Nat) (r : DecReg) (v : Nat) (h0 : Kept c0 q0 s) :
    Kept c0 q0 (State.decWrite s src c r v) := by
  unfold State.decWrite
  repeat' (with_reducible first | assumption | apply State.hostAbandon_kept | apply State.setRegWord_kept | apply State.pairWrite_kept | apply State.decRefused_kept | apply State.decCtlWrite_kept | intro _ | apply Kept.ite | apply Kept.foldS | split)

theorem State.substWrite_kept {c0 : Cfg} {q0 : List Instr} (s : State) (src : Src) (c hi : Nat) (h0 : Kept c0 q0 s) :
    Kept c0 q0 (State.substWrite s src c hi) := by
  unfold State.substWrite
  repeat' (with_reducible first | assumption | apply State.pairWrite_kept | apply State.setDec_kept | apply State.decRefused_kept | intro _ | apply Kept.ite | apply Kept.foldS | split)

end Sys2Proof.Machine
end

