-- ==== Sys2Proof/Laws/KeptBoot.lean ====
section
/-! SUPPORT. What every operation keeps (`Kept`): register writes, the dictionary, background work, bundles, bring-up. -/

namespace Sys2Proof.Machine

theorem State.plainParam_kept {c0 : Cfg} {q0 : List Instr} (s : State) (src : Src) (r : RegSpec) (ix : List Nat) (v : Nat) (after : State → Nat → Nat → State) (hafter : ∀ after0 after1 after2, Kept c0 q0 after0 → Kept c0 q0 (after after0 after1 after2)) (h0 : Kept c0 q0 s) :
    Kept c0 q0 (State.plainParam s src r ix v after) := by
  unfold State.plainParam
  repeat' (with_reducible first | assumption | apply State.paramWrite_kept | apply hafter | intro _ | apply Kept.ite | apply Kept.foldS | split)

theorem State.tickPhaseWrite_kept {c0 : Cfg} {q0 : List Instr} (s : State) (src : Src) (v : Nat) (h0 : Kept c0 q0 s) :
    Kept c0 q0 (State.tickPhaseWrite s src v) := by
  unfold State.tickPhaseWrite
  repeat' (with_reducible first | assumption | apply State.retarget_kept | apply State.paramWriteEff_kept | intro _ | apply Kept.ite | apply Kept.foldS | simp -zeta only [↓Kept.mk_iff] | split)

theorem State.auParam_kept {c0 : Cfg} {q0 : List Instr} (s : State) (src : Src) (r : RegSpec) (ix : List Nat) (v : Nat) (h0 : Kept c0 q0 s) :
    Kept c0 q0 (State.auParam s src r ix v) := by
  unfold State.auParam
  repeat' (with_reducible first | assumption | apply State.guardCycle_kept | apply State.auRange_kept | apply State.plainParam_kept | intro _ | apply Kept.ite | apply Kept.foldS | split)

theorem State.traceWord_kept {c0 : Cfg} {q0 : List Instr} (s : State) (src : Src) (r : RegSpec) (ix : List Nat) (v : Nat) (h0 : Kept c0 q0 s) :
    Kept c0 q0 (State.traceWord s src r ix v) := by
  unfold State.traceWord
  repeat' (with_reducible first | assumption | apply State.timCheck_kept | apply State.plainParam_kept | intro _ | apply Kept.ite | apply Kept.foldS | split)

theorem State.applyParam_kept {c0 : Cfg} {q0 : List Instr} (s : State) (src : Src) (r : RegSpec) (ix : List Nat) (v : Nat) (pair : Bool) (h0 : Kept c0 q0 s) :
    Kept c0 q0 (State.applyParam s src r ix v pair) := by
  unfold State.applyParam
  repeat' (with_reducible first | assumption | apply State.startScans_kept | apply State.tbCtlChanged_kept | apply State.paramWrite_kept | apply State.pairWrite_kept | apply State.auCtlWrite_kept | apply State.auOutCfgWrite_kept | apply State.showCore_kept | apply State.refreshRanks_kept | apply State.keyLoadWrite_kept | apply State.ringCtlWrite_kept | apply State.rcpRunWrite_kept | apply State.brwCfgWrite_kept | apply State.bypassUpdate_kept | apply State.puCtlWrite_kept | apply State.quillConfigure_kept | apply State.timCheck_kept | apply State.qpConfig_kept | apply State.qmIdWrite_kept | apply State.camWrite_kept | apply State.emWrite_kept | apply State.decWrite_kept | apply State.substWrite_kept | apply State.plainParam_kept | apply State.tickPhaseWrite_kept | apply State.auParam_kept | apply State.traceWord_kept | intro _ | apply Kept.ite | apply Kept.foldS | split)

theorem State.supersede_kept {c0 : Cfg} {q0 : List Instr} (s : State) (off : Nat) (h0 : Kept c0 q0 s) :
    Kept c0 q0 (State.supersede s off) := by
  unfold State.supersede
  repeat' (with_reducible first | assumption | apply State.jrnEntry_kept | intro _ | apply Kept.ite | apply Kept.foldS | simp -zeta only [↓Kept.mk_iff] | (extract_lets +onlyGivenNames x; first | (refine Kept.cut (P := Kept c0 q0 x) ?_ ?_; rotate_left; (intro _; clear_value x); rotate_left; unfold x; clear x) | clear_value x) | split)

theorem State.applyAt_kept {c0 : Cfg} {q0 : List Instr} (s : State) (src : Src) (off v : Nat) (pair : Bool) (h0 : Kept c0 q0 s) :
    Kept c0 q0 (State.applyAt s src off v pair) := by
  unfold State.applyAt
  repeat' (with_reducible first | assumption | apply State.applyParam_kept | intro _ | apply Kept.ite | apply Kept.foldS | split)

theorem State.readBack_kept {c0 : Cfg} {q0 : List Instr} (s : State) (badP badM : Bool) (h0 : Kept c0 q0 s) :
    Kept c0 q0 (State.readBack s badP badM) := by
  unfold State.readBack
  repeat' (with_reducible first | assumption | apply State.jrnCopyFault_kept | intro _ | apply Kept.ite | apply Kept.foldS | split)

theorem State.boundary_kept {c0 : Cfg} {q0 : List Instr} (s : State) (badP badM : Bool) (h0 : Kept c0 q0 s) :
    Kept c0 q0 (State.boundary s badP badM) := by
  unfold State.boundary
  repeat' (with_reducible first | assumption | apply State.unitsUpdate_kept | apply State.supersede_kept | apply State.applyAt_kept | apply State.readBack_kept | intro _ | apply Kept.ite | apply Kept.foldS | simp -zeta only [↓Kept.mk_iff] | split)

theorem State.setShadow_kept {c0 : Cfg} {q0 : List Instr} (s : State) (p : Nat) (f : CalBank → CalBank) (h0 : Kept c0 q0 s) :
    Kept c0 q0 (State.setShadow s p f) := by
  unfold State.setShadow
  repeat' (with_reducible first | assumption | apply State.setPipe_kept)

theorem State.pairApply_kept {c0 : Cfg} {q0 : List Instr} (s : State) (lo hi : RegSpec) (ix : List Nat) (v : Nat) (h0 : Kept c0 q0 s) :
    Kept c0 q0 (State.pairApply s lo hi ix v) := by
  unfold State.pairApply
  repeat' (with_reducible first | assumption | apply State.setRegWord_kept)

theorem State.puIrqEn_kept {c0 : Cfg} {q0 : List Instr} (s : State) (v : Nat) (h0 : Kept c0 q0 s) :
    Kept c0 q0 (State.puIrqEn s v) := by
  unfold State.puIrqEn
  repeat' (with_reducible first | assumption | apply State.put_kept | apply State.irqItem_kept | intro _ | apply Kept.ite | apply Kept.foldS | split)

theorem State.audCmd_kept {c0 : Cfg} {q0 : List Instr} (s : State) (src : Src) (k v : Nat) (h0 : Kept c0 q0 s) :
    Kept c0 q0 (State.audCmd s src k v) := by
  unfold State.audCmd
  repeat' (with_reducible first | assumption | apply State.audOpenCmd_kept | apply State.audSealCmd_kept | apply State.audCloseCmd_kept | intro _ | apply Kept.ite | apply Kept.foldS | split)

theorem State.distWord_kept {c0 : Cfg} {q0 : List Instr} (s : State) (k v : Nat) (h0 : Kept c0 q0 s) :
    Kept c0 q0 (State.distWord s k v) := by
  unfold State.distWord
  repeat' (with_reducible first | assumption | apply State.setRegWord_kept | apply State.distCmd_kept | intro _ | apply Kept.ite | apply Kept.foldS | split)

theorem State.pcWrite_kept {c0 : Cfg} {q0 : List Instr} (s : State) (src : Src) (r : RegSpec) (ix : List Nat) (v : Nat) (h0 : Kept c0 q0 s) :
    Kept c0 q0 (State.pcWrite s src r ix v) := by
  unfold State.pcWrite
  repeat' (with_reducible first | assumption | apply State.setRegWord_kept | apply State.put_kept | apply State.selWrite_kept | apply State.pcClear_kept | apply State.bankCtlWrite_kept | apply State.cntWrite_kept | apply State.pcRingWrite_kept | apply State.pairApply_kept | intro _ | apply Kept.ite | apply Kept.foldS | simp -zeta only [↓Kept.mk_iff] | (extract_lets +onlyGivenNames x; first | (refine Kept.cut (P := Kept c0 q0 x) ?_ ?_; rotate_left; (intro _; clear_value x); rotate_left; unfold x; clear x) | clear_value x) | split)

theorem State.otherWrite_kept {c0 : Cfg} {q0 : List Instr} (s : State) (src : Src) (r : RegSpec) (ix : List Nat) (v : Nat) (h0 : Kept c0 q0 s) :
    Kept c0 q0 (State.otherWrite s src r ix v) := by
  unfold State.otherWrite
  repeat' (with_reducible first | assumption | apply State.ctrlBase_kept | apply State.syncWrite_kept | apply State.setRegWord_kept | apply State.put_kept | apply State.setOut_kept | apply State.auPost_kept | apply State.auMpost_kept | apply State.auCancel_kept | apply State.auCancelOut_kept | apply State.setSync_kept | apply State.cuStart_kept | apply State.cuPause_kept | apply State.cuResume_kept | apply State.doorbell_kept | apply State.dsCancel_kept | apply State.dsCancelJob_kept | apply State.portReset_kept | apply State.remapWrite_kept | apply State.cntLoadWrite_kept | apply State.ttLoad_kept | apply State.memberCmd_kept | apply State.calSwap_kept | apply State.camWrite_kept | apply State.supplyBack_kept | apply State.irqClear_kept | apply State.ringCfg_kept | apply State.ringWrite_kept | apply State.decWrite_kept | apply State.setShadow_kept | apply State.pairApply_kept | apply State.puIrqEn_kept | apply State.audCmd_kept | apply State.distWord_kept | intro _ | apply Kept.ite | apply Kept.foldS | simp -zeta only [↓Kept.mk_iff] | split)

theorem State.regWrite_kept {c0 : Cfg} {q0 : List Instr} (s : State) (src : Src) (off v : Nat) (full : Bool) (h0 : Kept c0 q0 s) :
    Kept c0 q0 (State.regWrite s src off v full) := by
  unfold State.regWrite
  repeat' (with_reducible first | assumption | apply State.hostAbandon_kept | apply State.pcWrite_kept | apply State.otherWrite_kept | intro _ | apply Kept.ite | apply Kept.foldS | simp -zeta only [↓Kept.mk_iff] | (extract_lets +onlyGivenNames x; first | (refine Kept.cut (P := Kept c0 q0 x) ?_ ?_; rotate_left; (intro _; clear_value x); rotate_left; unfold x; clear x) | clear_value x) | split)

theorem State.relocate_kept {c0 : Cfg} {q0 : List Instr} (s : State) (head : Nat) (src : Src) (loc old new : Nat) (h0 : Kept c0 q0 s) :
    Kept c0 q0 (State.relocate s head src loc old new) := by
  unfold State.relocate
  repeat' (with_reducible first | assumption | apply State.setRegWord_kept | intro _ | apply Kept.ite | apply Kept.foldS | simp -zeta only [↓Kept.mk_iff] | split)

theorem State.dictRefuse_kept {c0 : Cfg} {q0 : List Instr} (s : State) (src : Src) (index sub cause old v : Nat) (h0 : Kept c0 q0 s) :
    Kept c0 q0 (State.dictRefuse s src index sub cause old v) := by
  unfold State.dictRefuse
  repeat' (with_reducible first | assumption | apply State.jrnEntry_kept)

theorem State.ownWrite_kept {c0 : Cfg} {q0 : List Instr} (s : State) (src : Src) (index sub : Nat) (e : DEnt) (k i v : Nat) (bytes : List Byte) (h0 : Kept c0 q0 s) :
    Kept c0 q0 (State.ownWrite s src index sub e k i v bytes) := by
  unfold State.ownWrite
  repeat' (with_reducible first | assumption | apply State.jrnEntry_kept | apply State.setKey_kept | apply State.dsCancel_kept | apply State.dsCancelJob_kept | apply State.audCmd_kept | intro _ | apply Kept.ite | apply Kept.foldS | simp -zeta only [↓Kept.mk_iff] | (extract_lets +onlyGivenNames x; first | (refine Kept.cut (P := Kept c0 q0 x) ?_ ?_; rotate_left; (intro _; clear_value x); rotate_left; unfold x; clear x) | clear_value x) | split)

theorem State.dictApply_kept {c0 : Cfg} {q0 : List Instr} (s : State) (src : Src) (index sub : Nat) (e : DEnt) (bytes : List Byte) (h0 : Kept c0 q0 s) :
    Kept c0 q0 (State.dictApply s src index sub e bytes) := by
  unfold State.dictApply
  repeat' (with_reducible first | assumption | apply State.supersede_kept | apply State.applyAt_kept | apply State.otherWrite_kept | apply State.relocate_kept | apply State.ownWrite_kept | intro _ | apply Kept.ite | apply Kept.foldS | simp -zeta only [↓Kept.mk_iff] | split)

theorem State.restoreEntry_kept {c0 : Cfg} {q0 : List Instr} (s : State) (index k : Nat) (h0 : Kept c0 q0 s) :
    Kept c0 q0 (State.restoreEntry s index k) := by
  unfold State.restoreEntry
  repeat' (with_reducible first | assumption | apply State.dictApply_kept | intro _ | apply Kept.ite | apply Kept.foldS | split)

theorem State.storeAbsent_kept {c0 : Cfg} {q0 : List Instr} (s : State) (index : Nat) (h0 : Kept c0 q0 s) :
    Kept c0 q0 (State.storeAbsent s index) := by
  unfold State.storeAbsent
  repeat' (with_reducible first | assumption | apply State.post_kept | intro _ | apply Kept.ite | apply Kept.foldS | split)

theorem State.restoreSubs_kept {c0 : Cfg} {q0 : List Instr} (s : State) (index : Nat) (p : Nat → Bool) (h0 : Kept c0 q0 s) :
    Kept c0 q0 (State.restoreSubs s index p) := by
  unfold State.restoreSubs
  repeat' (with_reducible first | assumption | apply State.restoreEntry_kept | intro _ | apply Kept.ite | apply Kept.foldS | split)

theorem State.restoreObject_kept {c0 : Cfg} {q0 : List Instr} (s : State) (index : Nat) (h0 : Kept c0 q0 s) :
    Kept c0 q0 (State.restoreObject s index) := by
  unfold State.restoreObject
  repeat' (with_reducible first | assumption | apply State.storeAbsent_kept | apply State.restoreSubs_kept)

theorem State.setLog_kept {c0 : Cfg} {q0 : List Instr} (s : State) (l : CkLog) (h0 : Kept c0 q0 s) :
    Kept c0 q0 (State.setLog s l) :=
  h0

theorem State.openSector_kept {c0 : Cfg} {q0 : List Instr} (s : State) (n : Nat) (h0 : Kept c0 q0 s) :
    Kept c0 q0 (s.openSector n) := by
  induction n generalizing s with
  | zero => exact h0
  | succ n ih =>
    unfold State.openSector
    repeat' (with_reducible first | assumption | apply ih | apply State.post_kept | apply State.setLog_kept | intro _ | apply Kept.ite | apply Kept.foldS | simp -zeta only [↓Kept.mk_iff] | (extract_lets +onlyGivenNames x; first | (refine Kept.cut (P := Kept c0 q0 x) ?_ ?_; rotate_left; (intro _; clear_value x); rotate_left; unfold x; clear x) | clear_value x) | split)

theorem State.place_kept {c0 : Cfg} {q0 : List Instr} (s : State) (n : Nat) (acc : List Nat) (k : Nat) (h0 : Kept c0 q0 s) :
    Kept c0 q0 (s.place n acc k).2 := by
  induction k generalizing s n acc with
  | zero => exact h0
  | succ k ih =>
    unfold State.place
    repeat' (with_reducible first | assumption | apply ih | apply State.openSector_kept | apply State.setLog_kept | intro _ | apply Kept.ite | apply Kept.foldS | simp -zeta only [↓Kept.mk_iff] | (extract_lets +onlyGivenNames x; first | (refine Kept.cut (P := Kept c0 q0 x) ?_ ?_; rotate_left; (intro _; clear_value x); rotate_left; unfold x; clear x) | clear_value x) | split)

theorem State.tryRecord_kept {c0 : Cfg} {q0 : List Instr} (s : State) (r : CkRec) (n : Nat) (ok : Bool) (h0 : Kept c0 q0 s) :
    Kept c0 q0 (State.tryRecord s r n ok).2 := by
  unfold State.tryRecord
  repeat' (with_reducible first | assumption | apply State.post_kept | apply State.setLog_kept | apply State.place_kept | intro _ | apply Kept.ite | apply Kept.foldS | split)

theorem State.writeRecord_kept {c0 : Cfg} {q0 : List Instr} (s : State) (kind first count : Nat) (payload : List Byte) (ok1 ok2 : Bool) (h0 : Kept c0 q0 s) :
    Kept c0 q0 (State.writeRecord s kind first count payload ok1 ok2).2 := by
  unfold State.writeRecord
  repeat' (with_reducible first | assumption | apply hx | apply State.tryRecord_kept | intro _ | apply Kept.ite | apply Kept.foldS | simp -zeta only [↓Kept.mk_iff] | (extract_lets +onlyGivenNames x; first | (refine Kept.cut (P := Kept c0 q0 x) ?_ ?_; rotate_left; (intro _; clear_value x); rotate_left; unfold x; clear x) | (refine Kept.cut (P := ∀ y, Kept c0 q0 y → Kept c0 q0 (x y)) ?_ ?_; rotate_left; (intro hx; clear_value x); rotate_left; unfold x; clear x) | (refine Kept.cut (P := ∀ y a, Kept c0 q0 y → Kept c0 q0 (x y a)) ?_ ?_; rotate_left; (intro hx; clear_value x); rotate_left; unfold x; clear x) | (refine Kept.cut (P := ∀ a y, Kept c0 q0 y → Kept c0 q0 (x a y)) ?_ ?_; rotate_left; (intro hx; clear_value x); rotate_left; unfold x; clear x) | (refine Kept.cut (P := ∀ a, Kept c0 q0 (x a)) ?_ ?_; rotate_left; (intro hx; clear_value x); rotate_left; unfold x; clear x) | (refine Kept.cut (P := ∀ a, Kept c0 q0 (x a).2.2) ?_ ?_; rotate_left; (intro hx; clear_value x); rotate_left; unfold x; clear x) | (refine Kept.cut (P := ∀ a, Kept c0 q0 (x a).2) ?_ ?_; rotate_left; (intro hx; clear_value x); rotate_left; unfold x; clear x) | (refine Kept.cut (P := ∀ a b, Kept c0 q0 (x a b)) ?_ ?_; rotate_left; (intro hx; clear_value x); rotate_left; unfold x; clear x) | (refine Kept.cut (P := ∀ y a b, Kept c0 q0 y → Kept c0 q0 (x y a b)) ?_ ?_; rotate_left; (intro hx; clear_value x); rotate_left; unfold x; clear x) | (refine Kept.cut (P := Kept c0 q0 x.2) ?_ ?_; rotate_left; (intro hx; clear_value x); rotate_left; unfold x; clear x) | (refine Kept.cut (P := Kept c0 q0 x.1) ?_ ?_; rotate_left; (intro hx; clear_value x); rotate_left; unfold x; clear x) | (refine Kept.cut (P := Kept c0 q0 x.2.2) ?_ ?_; rotate_left; (intro hx; clear_value x); rotate_left; unfold x; clear x) | (refine Kept.cut (P := Kept c0 q0 x.2.1) ?_ ?_; rotate_left; (intro hx; clear_value x); rotate_left; unfold x; clear x) | clear_value x) | split)

theorem State.wearDone_kept {c0 : Cfg} {q0 : List Instr} (s : State) (w : List Byte) (safe : Bool) (h0 : Kept c0 q0 s) :
    Kept c0 q0 (State.wearDone s w safe) :=
  h0

theorem State.wearWrite_kept {c0 : Cfg} {q0 : List Instr} (s : State) (ok1 ok2 : Bool) (h0 : Kept c0 q0 s) :
    Kept c0 q0 (State.wearWrite s ok1 ok2) := by
  unfold State.wearWrite
  repeat' (with_reducible first | assumption | apply State.post_kept | apply State.writeRecord_kept | apply State.wearDone_kept | intro _ | apply Kept.ite | apply Kept.foldS | split)

theorem State.wearCheckpoint_kept {c0 : Cfg} {q0 : List Instr} (s : State) (ok1 ok2 : Bool) (h0 : Kept c0 q0 s) :
    Kept c0 q0 (State.wearCheckpoint s ok1 ok2) := by
  unfold State.wearCheckpoint
  repeat' (with_reducible first | assumption | apply State.wearWrite_kept | intro _ | apply Kept.ite | apply Kept.foldS | simp -zeta only [↓Kept.mk_iff] | split)

theorem State.journalSaved_kept {c0 : Cfg} {q0 : List Instr} (s : State) (h0 : Kept c0 q0 s) :
    Kept c0 q0 (State.journalSaved s) :=
  h0

theorem State.journalWrite_kept {c0 : Cfg} {q0 : List Instr} (s : State) (ok1 ok2 : Bool) (h0 : Kept c0 q0 s) :
    Kept c0 q0 (State.journalWrite s ok1 ok2) := by
  unfold State.journalWrite
  repeat' (with_reducible first | assumption | apply State.post_kept | apply State.writeRecord_kept | apply State.wearWrite_kept | apply State.journalSaved_kept | intro _ | apply Kept.ite | apply Kept.foldS | simp -zeta only [↓Kept.mk_iff] | split)

theorem State.journalCheckpoint_kept {c0 : Cfg} {q0 : List Instr} (s : State) (ok1 ok2 : Bool) (h0 : Kept c0 q0 s) :
    Kept c0 q0 (State.journalCheckpoint s ok1 ok2) := by
  unfold State.journalCheckpoint
  repeat' (with_reducible first | assumption | apply State.journalWrite_kept | intro _ | apply Kept.ite | apply Kept.foldS | split)

theorem State.sweepRead_kept {c0 : Cfg} {q0 : List Instr} (s : State) (badP badM : Bool) (h0 : Kept c0 q0 s) :
    Kept c0 q0 (State.sweepRead s badP badM) := by
  unfold State.sweepRead
  repeat' (with_reducible first | assumption | apply State.jrnCopyFault_kept | intro _ | apply Kept.ite | apply Kept.foldS | simp -zeta only [↓Kept.mk_iff] | split)

theorem State.sramSweep_kept {c0 : Cfg} {q0 : List Instr} (s : State) (fixed bad : List Nat) (h0 : Kept c0 q0 s) :
    Kept c0 q0 (State.sramSweep s fixed bad) := by
  unfold State.sramSweep
  repeat' (with_reducible first | assumption | apply State.post_kept | intro _ | apply Kept.ite | apply Kept.foldS | simp -zeta only [↓Kept.mk_iff] | split)

theorem freeLanes_kept {c0 : Cfg} {q0 : List Instr} (n : Nat) (s : State) (h0 : Kept c0 q0 s) :
    Kept c0 q0 (freeLanes n s).2 := by
  induction n generalizing s with
  | zero => exact h0
  | succ n ih => exact ih _ (State.draw_kept _ _ h0)

theorem rExec_kept {c0 : Cfg} {q0 : List Instr} (x0 : Engine) (imm w : Nat) (p : Engine × State) (h0 : Kept c0 q0 p.2) :
    Kept c0 q0 (rExec x0 imm w p).2 := by
  unfold rExec
  repeat' (with_reducible first | assumption | apply hx | apply freeLanes_kept | intro _ | apply Kept.ite | apply Kept.foldS | simp -zeta only [↓Kept.mk_iff] | (extract_lets +onlyGivenNames x; first | (refine Kept.cut (P := Kept c0 q0 x) ?_ ?_; rotate_left; (intro _; clear_value x); rotate_left; unfold x; clear x) | (refine Kept.cut (P := ∀ y, Kept c0 q0 y → Kept c0 q0 (x y)) ?_ ?_; rotate_left; (intro hx; clear_value x); rotate_left; unfold x; clear x) | (refine Kept.cut (P := ∀ y a, Kept c0 q0 y → Kept c0 q0 (x y a)) ?_ ?_; rotate_left; (intro hx; clear_value x); rotate_left; unfold x; clear x) | (refine Kept.cut (P := ∀ a y, Kept c0 q0 y → Kept c0 q0 (x a y)) ?_ ?_; rotate_left; (intro hx; clear_value x); rotate_left; unfold x; clear x) | (refine Kept.cut (P := ∀ a, Kept c0 q0 (x a)) ?_ ?_; rotate_left; (intro hx; clear_value x); rotate_left; unfold x; clear x) | (refine Kept.cut (P := ∀ a, Kept c0 q0 (x a).2.2) ?_ ?_; rotate_left; (intro hx; clear_value x); rotate_left; unfold x; clear x) | (refine Kept.cut (P := ∀ a, Kept c0 q0 (x a).2) ?_ ?_; rotate_left; (intro hx; clear_value x); rotate_left; unfold x; clear x) | (refine Kept.cut (P := ∀ a b, Kept c0 q0 (x a b)) ?_ ?_; rotate_left; (intro hx; clear_value x); rotate_left; unfold x; clear x) | (refine Kept.cut (P := ∀ y a b, Kept c0 q0 y → Kept c0 q0 (x y a b)) ?_ ?_; rotate_left; (intro hx; clear_value x); rotate_left; unfold x; clear x) | (refine Kept.cut (P := Kept c0 q0 x.2) ?_ ?_; rotate_left; (intro hx; clear_value x); rotate_left; unfold x; clear x) | (refine Kept.cut (P := Kept c0 q0 x.1) ?_ ?_; rotate_left; (intro hx; clear_value x); rotate_left; unfold x; clear x) | (refine Kept.cut (P := Kept c0 q0 x.2.2) ?_ ?_; rotate_left; (intro hx; clear_value x); rotate_left; unfold x; clear x) | (refine Kept.cut (P := Kept c0 q0 x.2.1) ?_ ?_; rotate_left; (intro hx; clear_value x); rotate_left; unfold x; clear x) | clear_value x) | split)

theorem State.storeLanes_kept {c0 : Cfg} {q0 : List Instr} (s : State) (n a : Nat) (l : List (Bool × Nat)) (h0 : Kept c0 q0 s) :
    Kept c0 q0 (s.storeLanes n a l).1 := by
  induction l generalizing s a with
  | nil => exact h0
  | cons x t ih =>
    unfold State.storeLanes
    repeat' (with_reducible first | assumption | apply ih | apply State.writeLe_kept | intro _ | apply Kept.ite | apply Kept.foldS | simp -zeta only [↓Kept.mk_iff] | (extract_lets +onlyGivenNames x; first | (refine Kept.cut (P := Kept c0 q0 x) ?_ ?_; rotate_left; (intro _; clear_value x); rotate_left; unfold x; clear x) | clear_value x) | split)

theorem State.storePairs_kept {c0 : Cfg} {q0 : List Instr} (s : State) (m k a : Nat) (l : List Nat) (h0 : Kept c0 q0 s) :
    Kept c0 q0 (s.storePairs m k a l).1 := by
  fun_induction State.storePairs s m k a l with
  | case1 s k a v0 v1 t i r u ih => exact ih (by
      show Kept c0 q0 r.1
      simp only [r]
      split
      · exact State.writeLe_kept _ _ _ _ h0
      · exact State.storeLanes_kept _ _ _ _ h0)
  | case2 => exact h0

theorem State.mExec_kept {c0 : Cfg} {q0 : List Instr} (s : State) (c : Nat) (x0 : Engine) (w : Nat) (x : Engine) (h0 : Kept c0 q0 s) :
    Kept c0 q0 (s.mExec c x0 w x).2.1 := by
  unfold State.mExec
  repeat' (with_reducible first | assumption | apply hx | apply State.storePairs_kept | apply State.writeLe_kept | apply State.storeLanes_kept | intro _ | apply Kept.ite | apply Kept.foldS | simp -zeta only [↓Kept.mk_iff] | (extract_lets +onlyGivenNames x; first | (refine Kept.cut (P := Kept c0 q0 x) ?_ ?_; rotate_left; (intro _; clear_value x); rotate_left; unfold x; clear x) | (refine Kept.cut (P := ∀ y, Kept c0 q0 y → Kept c0 q0 (x y)) ?_ ?_; rotate_left; (intro hx; clear_value x); rotate_left; unfold x; clear x) | (refine Kept.cut (P := ∀ y a, Kept c0 q0 y → Kept c0 q0 (x y a)) ?_ ?_; rotate_left; (intro hx; clear_value x); rotate_left; unfold x; clear x) | (refine Kept.cut (P := ∀ a y, Kept c0 q0 y → Kept c0 q0 (x a y)) ?_ ?_; rotate_left; (intro hx; clear_value x); rotate_left; unfold x; clear x) | (refine Kept.cut (P := ∀ a, Kept c0 q0 (x a)) ?_ ?_; rotate_left; (intro hx; clear_value x); rotate_left; unfold x; clear x) | (refine Kept.cut (P := ∀ a, Kept c0 q0 (x a).2.2) ?_ ?_; rotate_left; (intro hx; clear_value x); rotate_left; unfold x; clear x) | (refine Kept.cut (P := ∀ a, Kept c0 q0 (x a).2) ?_ ?_; rotate_left; (intro hx; clear_value x); rotate_left; unfold x; clear x) | (refine Kept.cut (P := ∀ a b, Kept c0 q0 (x a b)) ?_ ?_; rotate_left; (intro hx; clear_value x); rotate_left; unfold x; clear x) | (refine Kept.cut (P := ∀ y a b, Kept c0 q0 y → Kept c0 q0 (x y a b)) ?_ ?_; rotate_left; (intro hx; clear_value x); rotate_left; unfold x; clear x) | (refine Kept.cut (P := Kept c0 q0 x.2) ?_ ?_; rotate_left; (intro hx; clear_value x); rotate_left; unfold x; clear x) | (refine Kept.cut (P := Kept c0 q0 x.1) ?_ ?_; rotate_left; (intro hx; clear_value x); rotate_left; unfold x; clear x) | (refine Kept.cut (P := Kept c0 q0 x.2.2) ?_ ?_; rotate_left; (intro hx; clear_value x); rotate_left; unfold x; clear x) | (refine Kept.cut (P := Kept c0 q0 x.2.1) ?_ ?_; rotate_left; (intro hx; clear_value x); rotate_left; unfold x; clear x) | clear_value x) | split)

theorem State.cSignal_kept {c0 : Cfg} {q0 : List Instr} (s : State) (c e : Nat) (r : Running) (x0 : Engine) (imm w : Nat) (h0 : Kept c0 q0 s) :
    Kept c0 q0 (State.cSignal s c e r x0 imm w) := by
  unfold State.cSignal
  repeat' (with_reducible first | assumption | apply State.engSignal_kept)

theorem aExec_kept {c0 : Cfg} {q0 : List Instr} (e : Nat) (x0 : Engine) (imm : Nat) (w : Option Nat) (p : Engine × State) (h0 : Kept c0 q0 p.2) :
    Kept c0 q0 (aExec e x0 imm w p).2 := by
  unfold aExec
  repeat' (with_reducible first | assumption | apply rExec_kept | intro _ | apply Kept.ite | apply Kept.foldS | split)

theorem State.bundleEcc_kept {c0 : Cfg} {q0 : List Instr} (s : State) (c e : Nat) (r : Running) (h0 : Kept c0 q0 s) :
    Kept c0 q0 (State.bundleEcc s c e r) := by
  unfold State.bundleEcc
  repeat' (with_reducible first | assumption | apply State.eccFault_kept)

theorem State.mEcc_kept {c0 : Cfg} {q0 : List Instr} (s : State) (c e : Nat) (x : Engine) (w : Nat) (h0 : Kept c0 q0 s) :
    Kept c0 q0 (State.mEcc s c e x w) := by
  unfold State.mEcc
  repeat' (with_reducible first | assumption | apply State.eccRead_kept | apply State.eccWrite_kept | intro _ | apply Kept.ite | apply Kept.foldS | simp -zeta only [↓Kept.mk_iff] | split)

theorem State.bundleRun_kept {c0 : Cfg} {q0 : List Instr} (s : State) (c e : Nat) (r : Running) (b : Bundle) (h0 : Kept c0 q0 s) :
    Kept c0 q0 (State.bundleRun s c e r b) := by
  unfold State.bundleRun
  repeat' (with_reducible first | assumption | apply hx | apply State.mExec_kept | apply State.cSignal_kept | apply aExec_kept | apply State.bundleEcc_kept | apply State.mEcc_kept | apply State.setEng_kept | apply State.exception_kept | apply State.retire_kept | apply State.pcCount_kept | intro _ | apply Kept.ite | apply Kept.foldS | simp -zeta only [↓Kept.mk_iff] | (extract_lets +onlyGivenNames x; first | (refine Kept.cut (P := Kept c0 q0 x) ?_ ?_; rotate_left; (intro _; clear_value x); rotate_left; unfold x; clear x) | (refine Kept.cut (P := ∀ y, Kept c0 q0 y → Kept c0 q0 (x y)) ?_ ?_; rotate_left; (intro hx; clear_value x); rotate_left; unfold x; clear x) | (refine Kept.cut (P := ∀ y a, Kept c0 q0 y → Kept c0 q0 (x y a)) ?_ ?_; rotate_left; (intro hx; clear_value x); rotate_left; unfold x; clear x) | (refine Kept.cut (P := ∀ a y, Kept c0 q0 y → Kept c0 q0 (x a y)) ?_ ?_; rotate_left; (intro hx; clear_value x); rotate_left; unfold x; clear x) | (refine Kept.cut (P := ∀ a, Kept c0 q0 (x a)) ?_ ?_; rotate_left; (intro hx; clear_value x); rotate_left; unfold x; clear x) | (refine Kept.cut (P := ∀ a, Kept c0 q0 (x a).2.2) ?_ ?_; rotate_left; (intro hx; clear_value x); rotate_left; unfold x; clear x) | (refine Kept.cut (P := ∀ a, Kept c0 q0 (x a).2) ?_ ?_; rotate_left; (intro hx; clear_value x); rotate_left; unfold x; clear x) | (refine Kept.cut (P := ∀ a b, Kept c0 q0 (x a b)) ?_ ?_; rotate_left; (intro hx; clear_value x); rotate_left; unfold x; clear x) | (refine Kept.cut (P := ∀ y a b, Kept c0 q0 y → Kept c0 q0 (x y a b)) ?_ ?_; rotate_left; (intro hx; clear_value x); rotate_left; unfold x; clear x) | (refine Kept.cut (P := Kept c0 q0 x.2) ?_ ?_; rotate_left; (intro hx; clear_value x); rotate_left; unfold x; clear x) | (refine Kept.cut (P := Kept c0 q0 x.1) ?_ ?_; rotate_left; (intro hx; clear_value x); rotate_left; unfold x; clear x) | (refine Kept.cut (P := Kept c0 q0 x.2.2) ?_ ?_; rotate_left; (intro hx; clear_value x); rotate_left; unfold x; clear x) | (refine Kept.cut (P := Kept c0 q0 x.2.1) ?_ ?_; rotate_left; (intro hx; clear_value x); rotate_left; unfold x; clear x) | clear_value x) | split)

theorem State.emptySlot_kept {c0 : Cfg} {q0 : List Instr} (s : State) (c e : Nat) (b : Bundle) (h0 : Kept c0 q0 s) :
    Kept c0 q0 (State.emptySlot s c e b) := by
  unfold State.emptySlot
  repeat' (with_reducible first | assumption | apply State.setEng_kept | intro _ | apply Kept.ite | apply Kept.foldS | simp -zeta only [↓Kept.mk_iff] | split)

theorem State.bundleStep_kept {c0 : Cfg} {q0 : List Instr} (s : State) (c e : Nat) (r : Running) (held : Bool) (h0 : Kept c0 q0 s) :
    Kept c0 q0 (State.bundleStep s c e r held) := by
  unfold State.bundleStep
  repeat' (with_reducible first | assumption | apply State.emptySlot_kept | apply State.fetchBad_kept | apply State.setEng_kept | apply State.exception_kept | apply State.tagIssue_kept | apply State.noteIssue_kept | apply State.bundleRun_kept | intro _ | apply Kept.ite | apply Kept.foldS | simp -zeta only [↓Kept.mk_iff] | (extract_lets +onlyGivenNames x; first | (refine Kept.cut (P := Kept c0 q0 x) ?_ ?_; rotate_left; (intro _; clear_value x); rotate_left; unfold x; clear x) | clear_value x) | split)

theorem State.bundleIssue_kept {c0 : Cfg} {q0 : List Instr} (s : State) (slot op : Nat) (only : Option Nat) (c e : Nat) (h0 : Kept c0 q0 s) :
    Kept c0 q0 (State.bundleIssue s slot op only c e) := by
  unfold State.bundleIssue
  repeat' (with_reducible first | assumption | apply State.bundleStep_kept | intro _ | apply Kept.ite | apply Kept.foldS | split)

theorem State.bundleEmpty_kept {c0 : Cfg} {q0 : List Instr} (s : State) (c e : Nat) (h0 : Kept c0 q0 s) :
    Kept c0 q0 (State.bundleEmpty s c e) := by
  unfold State.bundleEmpty
  repeat' (with_reducible first | assumption | apply State.bundleStep_kept | intro _ | apply Kept.ite | apply Kept.foldS | split)

theorem State.markBad_kept {c0 : Cfg} {q0 : List Instr} (s : State) (a : Nat) (h0 : Kept c0 q0 s) :
    Kept c0 q0 (State.markBad s a) := by
  unfold State.markBad
  repeat' (with_reducible first | assumption | intro _ | apply Kept.ite | apply Kept.foldS | simp -zeta only [↓Kept.mk_iff] | split)

theorem State.loadBad_kept {c0 : Cfg} {q0 : List Instr} (s : State) (c e back : Nat) (h0 : Kept c0 q0 s) :
    Kept c0 q0 (State.loadBad s c e back) := by
  unfold State.loadBad
  repeat' (with_reducible first | assumption | apply State.bundleStep_kept | apply State.markBad_kept | apply State.eccFault_kept | intro _ | apply Kept.ite | apply Kept.foldS | simp -zeta only [↓Kept.mk_iff] | split)

theorem State.powerOn_kept {c0 : Cfg} {q0 : List Instr} (s : State) (powered por : Bool) (h0 : Kept c0 q0 s) :
    Kept c0 q0 (s.powerOn powered por) := by
  exact ⟨h0.1, h0.2.1, rfl⟩

theorem State.porRelease_kept {c0 : Cfg} {q0 : List Instr} (s : State) (absent : List Nat) (h0 : Kept c0 q0 s) :
    Kept c0 q0 (State.porRelease s absent) := by
  unfold State.porRelease
  repeat' (with_reducible first | assumption | apply State.post_kept | apply State.powerOn_kept | intro _ | apply Kept.ite | apply Kept.foldS | simp -zeta only [↓Kept.mk_iff] | (extract_lets +onlyGivenNames x; first | (refine Kept.cut (P := Kept c0 q0 x) ?_ ?_; rotate_left; (intro _; clear_value x); rotate_left; unfold x; clear x) | clear_value x) | split)

theorem State.setPhase_kept {c0 : Cfg} {q0 : List Instr} (s : State) (p : Nat) (h0 : Kept c0 q0 s) :
    Kept c0 q0 (State.setPhase s p) := by
  unfold State.setPhase
  repeat' (with_reducible first | assumption | apply State.put_kept | apply State.post_kept | intro _ | apply Kept.ite | apply Kept.foldS | simp -zeta only [↓Kept.mk_iff] | (extract_lets +onlyGivenNames x; first | (refine Kept.cut (P := Kept c0 q0 x) ?_ ?_; rotate_left; (intro _; clear_value x); rotate_left; unfold x; clear x) | clear_value x) | split)

theorem State.fwField_kept {c0 : Cfg} {q0 : List Instr} (s : State) (f : Fld) (ix : List Nat) (v : Nat) (h0 : Kept c0 q0 s) :
    Kept c0 q0 (State.fwField s f ix v) := by
  unfold State.fwField
  repeat' (with_reducible first | assumption | apply State.applyAt_kept)

theorem State.resetJobs_kept {c0 : Cfg} {q0 : List Instr} (s : State) (h0 : Kept c0 q0 s) :
    Kept c0 q0 (State.resetJobs s) :=
  h0

theorem State.resetCipher_kept {c0 : Cfg} {q0 : List Instr} (s : State) (h0 : Kept c0 q0 s) :
    Kept c0 q0 (State.resetCipher s) := by
  unfold State.resetCipher
  repeat' (with_reducible first | assumption | apply State.zeroMem_kept | intro _ | apply Kept.ite | apply Kept.foldS | simp -zeta only [↓Kept.mk_iff] | (extract_lets +onlyGivenNames x; first | (refine Kept.cut (P := Kept c0 q0 x) ?_ ?_; rotate_left; (intro _; clear_value x); rotate_left; unfold x; clear x) | clear_value x) | split)

theorem State.resetPlane_kept {c0 : Cfg} {q0 : List Instr} (s : State) (h0 : Kept c0 q0 s) :
    Kept c0 q0 (State.resetPlane s) := by
  unfold State.resetPlane
  repeat' (with_reducible first | assumption | apply State.setPipe_kept | apply State.put_kept | apply State.pipeStop_kept | apply State.decStop_kept | intro _ | apply Kept.ite | apply Kept.foldS | simp -zeta only [↓Kept.mk_iff] | (extract_lets +onlyGivenNames x; first | (refine Kept.cut (P := Kept c0 q0 x) ?_ ?_; rotate_left; (intro _; clear_value x); rotate_left; unfold x; clear x) | clear_value x) | split)

theorem State.resetMgmt_kept {c0 : Cfg} {q0 : List Instr} (s : State) (h0 : Kept c0 q0 s) :
    Kept c0 q0 (State.resetMgmt s) :=
  h0

theorem State.warmStart_kept {c0 : Cfg} {q0 : List Instr} (s : State) (cut : Bool) (h0 : Kept c0 q0 s) :
    Kept c0 q0 (State.warmStart s cut) := by
  unfold State.warmStart
  repeat' (with_reducible first | assumption | apply State.keepRegs_kept | apply State.put_kept | apply State.resetMgmt_kept | intro _ | apply Kept.ite | apply Kept.foldS | simp -zeta only [↓Kept.mk_iff] | (extract_lets +onlyGivenNames x; first | (refine Kept.cut (P := Kept c0 q0 x) ?_ ?_; rotate_left; (intro _; clear_value x); rotate_left; unfold x; clear x) | clear_value x) | split)

theorem State.warmAssert_kept {c0 : Cfg} {q0 : List Instr} (s : State) (h0 : Kept c0 q0 s) :
    Kept c0 q0 (State.warmAssert s) := by
  unfold State.warmAssert
  repeat' (with_reducible first | assumption | apply State.put_kept | apply State.actStop_kept | apply State.audReset_kept | apply State.resetParts_kept | apply State.fabricWarm_kept | apply State.bypassUpdate_kept | apply State.quillWarm_kept | apply State.resetJobs_kept | apply State.resetCipher_kept | apply State.resetPlane_kept | apply State.warmStart_kept | intro _ | apply Kept.ite | apply Kept.foldS | simp -zeta only [↓Kept.mk_iff] | split)

theorem State.warmRelease_kept {c0 : Cfg} {q0 : List Instr} (s : State) (h0 : Kept c0 q0 s) :
    Kept c0 q0 (State.warmRelease s) := by
  unfold State.warmRelease
  repeat' (with_reducible first | assumption | apply State.setPhase_kept | intro _ | apply Kept.ite | apply Kept.foldS | simp -zeta only [↓Kept.mk_iff] | split)

theorem State.imageRejected_kept {c0 : Cfg} {q0 : List Instr} (s : State) (b : Bool) (cause : Nat) (h0 : Kept c0 q0 s) :
    Kept c0 q0 (State.imageRejected s b cause) := by
  unfold State.imageRejected
  repeat' (with_reducible first | assumption | apply State.put_kept | apply State.post_kept | apply State.cuFailed_kept | apply State.cuRefused_kept | intro _ | apply Kept.ite | apply Kept.foldS | split)

theorem State.deviceKey_kept {c0 : Cfg} {q0 : List Instr} (s : State) (h0 : Kept c0 q0 s) :
    Kept c0 q0 (State.deviceKey s) := by
  unfold State.deviceKey
  repeat' (with_reducible first | assumption | apply State.put_kept | apply State.post_kept | intro _ | apply Kept.ite | apply Kept.foldS | simp -zeta only [↓Kept.mk_iff] | split)

theorem State.startImage_kept {c0 : Cfg} {q0 : List Instr} (s : State) (b fallback : Bool) (h0 : Kept c0 q0 s) :
    Kept c0 q0 (State.startImage s b fallback) := by
  unfold State.startImage
  repeat' (with_reducible first | assumption | apply State.setRegWord_kept | apply State.put_kept | apply State.writeMem_kept | apply State.remapWrite_kept | simp -zeta only [↓Kept.mk_iff])

theorem State.romWork_kept {c0 : Cfg} {q0 : List Instr} (s : State) (h0 : Kept c0 q0 s) :
    Kept c0 q0 (State.romWork s).2 := by
  unfold State.romWork
  repeat' (with_reducible first | assumption | apply State.put_kept | apply State.imageRejected_kept | apply State.deviceKey_kept | apply State.startImage_kept | intro _ | apply Kept.ite | apply Kept.foldS | simp -zeta only [↓Kept.mk_iff] | (extract_lets +onlyGivenNames x; first | (refine Kept.cut (P := Kept c0 q0 x) ?_ ?_; rotate_left; (intro _; clear_value x); rotate_left; unfold x; clear x) | clear_value x) | split)

theorem State.restoreKeys_kept {c0 : Cfg} {q0 : List Instr} (s : State) (h0 : Kept c0 q0 s) :
    Kept c0 q0 (State.restoreKeys s) := by
  unfold State.restoreKeys
  repeat' (with_reducible first | assumption | apply State.post_kept | apply State.putKey_kept | intro _ | apply Kept.ite | apply Kept.foldS | simp -zeta only [↓Kept.mk_iff] | split)

theorem State.restoreLog_kept {c0 : Cfg} {q0 : List Instr} (s : State) (h0 : Kept c0 q0 s) :
    Kept c0 q0 (State.restoreLog s) := by
  unfold State.restoreLog
  repeat' (with_reducible first | assumption | apply State.put_kept | apply State.post_kept | intro _ | apply Kept.ite | apply Kept.foldS | simp -zeta only [↓Kept.mk_iff] | (extract_lets +onlyGivenNames x; first | (refine Kept.cut (P := Kept c0 q0 x) ?_ ?_; rotate_left; (intro _; clear_value x); rotate_left; unfold x; clear x) | clear_value x) | split)

theorem State.workManagement_kept {c0 : Cfg} {q0 : List Instr} (s : State) (h0 : Kept c0 q0 s) :
    Kept c0 q0 (State.workManagement s) := by
  unfold State.workManagement
  repeat' (with_reducible first | assumption | apply State.post_kept | apply State.storeAbsent_kept | apply State.restoreSubs_kept | apply State.restoreKeys_kept | apply State.restoreLog_kept | intro _ | apply Kept.ite | apply Kept.foldS | simp -zeta only [↓Kept.mk_iff] | split)

theorem State.workMemory_kept {c0 : Cfg} {q0 : List Instr} (s : State) (h0 : Kept c0 q0 s) :
    Kept c0 q0 (State.workMemory s) := by
  unfold State.workMemory
  repeat' (with_reducible first | assumption | apply State.brwCfgWrite_kept | intro _ | apply Kept.ite | apply Kept.foldS | split)

theorem State.loadInstall_kept {c0 : Cfg} {q0 : List Instr} (s : State) (h0 : Kept c0 q0 s) :
    Kept c0 q0 (State.loadInstall s) := by
  unfold State.loadInstall
  repeat' (with_reducible first | assumption | apply State.post_kept | apply State.present_kept | apply State.applyAt_kept | intro _ | apply Kept.ite | apply Kept.foldS | simp -zeta only [↓Kept.mk_iff] | (extract_lets +onlyGivenNames x; first | (refine Kept.cut (P := Kept c0 q0 x) ?_ ?_; rotate_left; (intro _; clear_value x); rotate_left; unfold x; clear x) | clear_value x) | split)

theorem State.setupPort_kept {c0 : Cfg} {q0 : List Instr} (s : State) (p : Nat) (h0 : Kept c0 q0 s) :
    Kept c0 q0 (State.setupPort s p) := by
  unfold State.setupPort
  repeat' (with_reducible first | assumption | apply State.present_kept | apply State.applyAt_kept | apply State.storeAbsent_kept | apply State.restoreSubs_kept | apply State.fwField_kept | intro _ | apply Kept.ite | apply Kept.foldS | split)

theorem State.workTimebase_kept {c0 : Cfg} {q0 : List Instr} (s : State) (h0 : Kept c0 q0 s) :
    Kept c0 q0 (State.workTimebase s) := by
  unfold State.workTimebase
  repeat' (with_reducible first | assumption | apply State.restoreObject_kept | apply State.loadInstall_kept | apply State.setupPort_kept | intro _ | apply Kept.ite | apply Kept.foldS | split)

theorem State.workLinks_kept {c0 : Cfg} {q0 : List Instr} (s : State) (h0 : Kept c0 q0 s) :
    Kept c0 q0 (State.workLinks s) := by
  unfold State.workLinks
  repeat' (with_reducible first | assumption | apply State.fwField_kept | apply State.loadInstall_kept | apply State.setupPort_kept | intro _ | apply Kept.ite | apply Kept.foldS | simp -zeta only [↓Kept.mk_iff] | split)

theorem State.workPosition_kept {c0 : Cfg} {q0 : List Instr} (s : State) (h0 : Kept c0 q0 s) :
    Kept c0 q0 (State.workPosition s) := by
  unfold State.workPosition
  repeat' (with_reducible first | assumption | apply State.restoreObject_kept | apply State.fwField_kept | intro _ | apply Kept.ite | apply Kept.foldS | split)

theorem State.workCores_kept {c0 : Cfg} {q0 : List Instr} (s : State) (h0 : Kept c0 q0 s) :
    Kept c0 q0 (State.workCores s) := by
  unfold State.workCores
  repeat' (with_reducible first | assumption | apply State.applyAt_kept | apply State.restoreSubs_kept | intro _ | apply Kept.ite | apply Kept.foldS | split)

theorem State.workScheduler_kept {c0 : Cfg} {q0 : List Instr} (s : State) (h0 : Kept c0 q0 s) :
    Kept c0 q0 (State.workScheduler s) := by
  unfold State.workScheduler
  repeat' (with_reducible first | assumption | apply State.showLoaded_kept | apply State.storeAbsent_kept | apply State.restoreSubs_kept | apply State.restoreObject_kept | apply State.fwField_kept | intro _ | apply Kept.ite | apply Kept.foldS | split)

theorem State.workCameras_kept {c0 : Cfg} {q0 : List Instr} (s : State) (h0 : Kept c0 q0 s) :
    Kept c0 q0 (State.workCameras s) := by
  unfold State.workCameras
  repeat' (with_reducible first | assumption | apply State.restoreObject_kept | intro _ | apply Kept.ite | apply Kept.foldS | split)

theorem State.restoreWear_kept {c0 : Cfg} {q0 : List Instr} (s : State) (h0 : Kept c0 q0 s) :
    Kept c0 q0 (State.restoreWear s) := by
  unfold State.restoreWear
  repeat' (with_reducible first | assumption | apply State.setRegWord_kept | apply State.setPair_kept | intro _ | apply Kept.ite | apply Kept.foldS | simp -zeta only [↓Kept.mk_iff] | (extract_lets +onlyGivenNames x; first | (refine Kept.cut (P := Kept c0 q0 x) ?_ ?_; rotate_left; (intro _; clear_value x); rotate_left; unfold x; clear x) | clear_value x) | split)

theorem State.workActuation_kept {c0 : Cfg} {q0 : List Instr} (s : State) (h0 : Kept c0 q0 s) :
    Kept c0 q0 (State.workActuation s) := by
  unfold State.workActuation
  repeat' (with_reducible first | assumption | apply State.restoreObject_kept | apply State.fwField_kept | apply State.restoreWear_kept | intro _ | apply Kept.ite | apply Kept.foldS | split)

theorem State.workControl_kept {c0 : Cfg} {q0 : List Instr} (s : State) (h0 : Kept c0 q0 s) :
    Kept c0 q0 (State.workControl s) := by
  unfold State.workControl
  repeat' (with_reducible first | assumption | apply State.completion_kept | apply State.reportResetDiscards_kept | intro _ | apply Kept.ite | apply Kept.foldS | simp -zeta only [↓Kept.mk_iff] | split)

theorem State.phaseWork_kept {c0 : Cfg} {q0 : List Instr} (s : State) (p : Nat) (h0 : Kept c0 q0 s) :
    Kept c0 q0 (State.phaseWork s p) := by
  unfold State.phaseWork
  repeat' (with_reducible first | assumption | apply State.workManagement_kept | apply State.workMemory_kept | apply State.workTimebase_kept | apply State.workLinks_kept | apply State.workPosition_kept | apply State.workCores_kept | apply State.workScheduler_kept | apply State.workCameras_kept | apply State.workActuation_kept | intro _ | apply Kept.ite | apply Kept.foldS | split)

theorem State.startStop_kept {c0 : Cfg} {q0 : List Instr} (s : State) (h0 : Kept c0 q0 s) :
    Kept c0 q0 (State.startStop s) := by
  unfold State.startStop
  repeat' (with_reducible first | assumption | apply State.post_kept | apply State.setPhase_kept | apply State.fwField_kept | intro _ | apply Kept.ite | apply Kept.foldS | simp -zeta only [↓Kept.mk_iff] | split)

theorem State.closeAudits_kept {c0 : Cfg} {q0 : List Instr} (s : State) (h0 : Kept c0 q0 s) :
    Kept c0 q0 (State.closeAudits s) := by
  unfold State.closeAudits
  repeat' (with_reducible first | assumption | apply State.audCloseCmd_kept | intro _ | apply Kept.ite | apply Kept.foldS | split)

theorem State.stopBlocks_kept {c0 : Cfg} {q0 : List Instr} (s : State) (h0 : Kept c0 q0 s) :
    Kept c0 q0 (State.stopBlocks s) := by
  unfold State.stopBlocks
  repeat' (with_reducible first | assumption | apply State.fwField_kept | apply State.closeAudits_kept | intro _ | apply Kept.ite | apply Kept.foldS | simp -zeta only [↓Kept.mk_iff] | split)

theorem State.enterStopped_kept {c0 : Cfg} {q0 : List Instr} (s : State) (ok1 ok2 : Bool) (h0 : Kept c0 q0 s) :
    Kept c0 q0 (State.enterStopped s ok1 ok2) := by
  unfold State.enterStopped
  repeat' (with_reducible first | assumption | apply State.post_kept | apply State.wearWrite_kept | apply State.journalWrite_kept | apply State.setPhase_kept | apply State.fwField_kept | intro _ | apply Kept.ite | apply Kept.foldS | simp -zeta only [↓Kept.mk_iff] | (extract_lets +onlyGivenNames x; first | (refine Kept.cut (P := Kept c0 q0 x) ?_ ?_; rotate_left; (intro _; clear_value x); rotate_left; unfold x; clear x) | clear_value x) | split)

theorem State.drainStep_kept {c0 : Cfg} {q0 : List Instr} (s : State) (ok1 ok2 : Bool) (h0 : Kept c0 q0 s) :
    Kept c0 q0 (State.drainStep s ok1 ok2) := by
  unfold State.drainStep
  repeat' (with_reducible first | assumption | apply State.closeAudits_kept | apply State.stopBlocks_kept | apply State.enterStopped_kept | intro _ | apply Kept.ite | apply Kept.foldS | split)

theorem State.drainLimit_kept {c0 : Cfg} {q0 : List Instr} (s : State) (h0 : Kept c0 q0 s) :
    Kept c0 q0 (State.drainLimit s) := by
  unfold State.drainLimit
  repeat' (with_reducible first | assumption | apply State.auCancel_kept | apply State.resetParts_kept | apply State.stopBlocks_kept | intro _ | apply Kept.ite | apply Kept.foldS | simp -zeta only [↓Kept.mk_iff] | split)

theorem State.beginPhase_kept {c0 : Cfg} {q0 : List Instr} (s : State) (p : Nat) (h0 : Kept c0 q0 s) :
    Kept c0 q0 (State.beginPhase s p) := by
  unfold State.beginPhase
  repeat' (with_reducible first | assumption | apply State.setPhase_kept | apply State.phaseWork_kept | intro _ | apply Kept.ite | apply Kept.foldS | simp -zeta only [↓Kept.mk_iff] | split)

theorem State.endPhase_kept {c0 : Cfg} {q0 : List Instr} (s : State) (p : Nat) (h0 : Kept c0 q0 s) :
    Kept c0 q0 (State.endPhase s p) := by
  unfold State.endPhase
  repeat' (with_reducible first | assumption | apply State.workControl_kept | apply State.startStop_kept | apply State.beginPhase_kept | intro _ | apply Kept.ite | apply Kept.foldS | simp -zeta only [↓Kept.mk_iff] | split)

theorem State.phaseStep_kept {c0 : Cfg} {q0 : List Instr} (s : State) (h0 : Kept c0 q0 s) :
    Kept c0 q0 (State.phaseStep s) := by
  unfold State.phaseStep
  repeat' (with_reducible first | assumption | apply State.setPhase_kept | apply State.romWork_kept | apply State.workMemory_kept | apply State.endPhase_kept | intro _ | apply Kept.ite | apply Kept.foldS | split)

theorem State.waitExpired_kept {c0 : Cfg} {q0 : List Instr} (s : State) (h0 : Kept c0 q0 s) :
    Kept c0 q0 (State.waitExpired s) := by
  unfold State.waitExpired
  repeat' (with_reducible first | assumption | apply State.post_kept | apply State.phaseStep_kept | intro _ | apply Kept.ite | apply Kept.foldS | simp -zeta only [↓Kept.mk_iff] | (extract_lets +onlyGivenNames x; first | (refine Kept.cut (P := Kept c0 q0 x) ?_ ?_; rotate_left; (intro _; clear_value x); rotate_left; unfold x; clear x) | clear_value x) | split)

theorem State.romRestart_kept {c0 : Cfg} {q0 : List Instr} (s : State) (h0 : Kept c0 q0 s) :
    Kept c0 q0 (State.romRestart s) := by
  unfold State.romRestart
  repeat' (with_reducible first | assumption | apply State.setPhase_kept)

theorem State.lifeJournal_kept {c0 : Cfg} {q0 : List Instr} (s : State) (src : Src) (status cause v : Nat) (h0 : Kept c0 q0 s) :
    Kept c0 q0 (State.lifeJournal s src status cause v) := by
  unfold State.lifeJournal
  repeat' (with_reducible first | assumption | apply State.jrnEntry_kept)

theorem State.lifeResult_kept {c0 : Cfg} {q0 : List Instr} (s : State) (r : Nat) (h0 : Kept c0 q0 s) :
    Kept c0 q0 (State.lifeResult s r) := by
  unfold State.lifeResult
  repeat' (with_reducible first | assumption | apply State.put_kept)

theorem State.lifeWarm_kept {c0 : Cfg} {q0 : List Instr} (s : State) (src : Src) (h0 : Kept c0 q0 s) :
    Kept c0 q0 (State.lifeWarm s src) := by
  unfold State.lifeWarm
  repeat' (with_reducible first | assumption | apply State.hostAbandon_kept | apply State.warmAssert_kept | apply State.lifeJournal_kept | apply State.lifeResult_kept | intro _ | apply Kept.ite | apply Kept.foldS | split)

theorem State.lifeStop_kept {c0 : Cfg} {q0 : List Instr} (s : State) (src : Src) (h0 : Kept c0 q0 s) :
    Kept c0 q0 (State.lifeStop s src) := by
  unfold State.lifeStop
  repeat' (with_reducible first | assumption | apply State.hostAbandon_kept | apply State.startStop_kept | apply State.lifeJournal_kept | apply State.lifeResult_kept | intro _ | apply Kept.ite | apply Kept.foldS | simp -zeta only [↓Kept.mk_iff] | split)

theorem State.lifeWrite_kept {c0 : Cfg} {q0 : List Instr} (s : State) (src : Src) (v : Nat) (h0 : Kept c0 q0 s) :
    Kept c0 q0 (State.lifeWrite s src v) := by
  unfold State.lifeWrite
  repeat' (with_reducible first | assumption | apply State.hostAbandon_kept | apply State.lifeJournal_kept | apply State.lifeResult_kept | apply State.lifeWarm_kept | apply State.lifeStop_kept | intro _ | apply Kept.ite | apply Kept.foldS | split)

theorem State.resetPosition_kept {c0 : Cfg} {q0 : List Instr} (s : State) (h0 : Kept c0 q0 s) :
    Kept c0 q0 (State.resetPosition s) := by
  unfold State.resetPosition
  repeat' (with_reducible first | assumption | apply State.startScans_kept | intro _ | apply Kept.ite | apply Kept.foldS | simp -zeta only [↓Kept.mk_iff] | split)

theorem State.resetFabric_kept {c0 : Cfg} {q0 : List Instr} (s : State) (h0 : Kept c0 q0 s) :
    Kept c0 q0 (State.resetFabric s) := h0

theorem State.resetCore_kept {c0 : Cfg} {q0 : List Instr} (s : State) (c : Nat) (h0 : Kept c0 q0 s) :
    Kept c0 q0 (State.resetCore s c) := by
  unfold State.resetCore
  repeat' (with_reducible first | assumption | apply State.setCore_kept | apply State.modJob_kept | intro _ | apply Kept.ite | apply Kept.foldS | simp -zeta only [↓Kept.mk_iff] | split)

theorem State.resetIsland_kept {c0 : Cfg} {q0 : List Instr} (s : State) (i : Nat) (h0 : Kept c0 q0 s) :
    Kept c0 q0 (State.resetIsland s i) := by
  unfold State.resetIsland
  repeat' (with_reducible first | assumption | apply State.setPipe_kept | apply State.keepRegs_kept | apply State.setQrx_kept | apply State.setQtx_kept | apply State.resetPosition_kept | apply State.resetFabric_kept | apply State.resetCore_kept | intro _ | apply Kept.ite | apply Kept.foldS | simp -zeta only [↓Kept.mk_iff] | split)

theorem State.clockLoss_kept {c0 : Cfg} {q0 : List Instr} (s : State) (i : Nat) (h0 : Kept c0 q0 s) :
    Kept c0 q0 (State.clockLoss s i) := by
  unfold State.clockLoss
  repeat' (with_reducible first | assumption | apply hx | apply State.actStop_kept | apply State.post_kept | apply State.bypassUpdate_kept | apply State.resetCore_kept | apply State.resetIsland_kept | intro _ | apply Kept.ite | apply Kept.foldS | simp -zeta only [↓Kept.mk_iff] | (extract_lets +onlyGivenNames x; first | (refine Kept.cut (P := Kept c0 q0 x) ?_ ?_; rotate_left; (intro _; clear_value x); rotate_left; unfold x; clear x) | (refine Kept.cut (P := ∀ y, Kept c0 q0 y → Kept c0 q0 (x y)) ?_ ?_; rotate_left; (intro hx; clear_value x); rotate_left; unfold x; clear x) | (refine Kept.cut (P := ∀ y a, Kept c0 q0 y → Kept c0 q0 (x y a)) ?_ ?_; rotate_left; (intro hx; clear_value x); rotate_left; unfold x; clear x) | (refine Kept.cut (P := ∀ a y, Kept c0 q0 y → Kept c0 q0 (x a y)) ?_ ?_; rotate_left; (intro hx; clear_value x); rotate_left; unfold x; clear x) | (refine Kept.cut (P := ∀ a, Kept c0 q0 (x a)) ?_ ?_; rotate_left; (intro hx; clear_value x); rotate_left; unfold x; clear x) | (refine Kept.cut (P := ∀ a, Kept c0 q0 (x a).2.2) ?_ ?_; rotate_left; (intro hx; clear_value x); rotate_left; unfold x; clear x) | (refine Kept.cut (P := ∀ a, Kept c0 q0 (x a).2) ?_ ?_; rotate_left; (intro hx; clear_value x); rotate_left; unfold x; clear x) | (refine Kept.cut (P := ∀ a b, Kept c0 q0 (x a b)) ?_ ?_; rotate_left; (intro hx; clear_value x); rotate_left; unfold x; clear x) | (refine Kept.cut (P := ∀ y a b, Kept c0 q0 y → Kept c0 q0 (x y a b)) ?_ ?_; rotate_left; (intro hx; clear_value x); rotate_left; unfold x; clear x) | (refine Kept.cut (P := Kept c0 q0 x.2) ?_ ?_; rotate_left; (intro hx; clear_value x); rotate_left; unfold x; clear x) | (refine Kept.cut (P := Kept c0 q0 x.1) ?_ ?_; rotate_left; (intro hx; clear_value x); rotate_left; unfold x; clear x) | (refine Kept.cut (P := Kept c0 q0 x.2.2) ?_ ?_; rotate_left; (intro hx; clear_value x); rotate_left; unfold x; clear x) | (refine Kept.cut (P := Kept c0 q0 x.2.1) ?_ ?_; rotate_left; (intro hx; clear_value x); rotate_left; unfold x; clear x) | clear_value x) | split)

theorem State.clockReturn_kept {c0 : Cfg} {q0 : List Instr} (s : State) (i : Nat) (h0 : Kept c0 q0 s) :
    Kept c0 q0 (State.clockReturn s i) := by
  unfold State.clockReturn
  repeat' (with_reducible first | assumption | apply State.resetIsland_kept | apply State.setCore_kept | apply State.bypassUpdate_kept | apply State.setQrx_kept | apply State.setQtx_kept | apply State.setPipe_kept | apply State.resetPosition_kept | intro _ | apply Kept.ite | apply Kept.foldS | simp -zeta only [↓Kept.mk_iff] | split)

theorem State.portWrite_kept {c0 : Cfg} {q0 : List Instr} (s : State) (src : Src) (off v : Nat) (full : Bool) (h0 : Kept c0 q0 s) :
    Kept c0 q0 (State.portWrite s src off v full) := by
  unfold State.portWrite
  repeat' (with_reducible first | assumption | apply State.regWrite_kept | apply State.lifeWrite_kept | intro _ | apply Kept.ite | apply Kept.foldS | split)

theorem regPort_keeps : regPort.Keeps := by
  constructor
  · intro c q s m o v h
    unfold regPort
    dsimp only
    repeat' split
    all_goals first | exact State.portWrite_kept _ _ _ _ _ h | exact h
  · intro c q s m o h
    unfold regPort
    dsimp only
    split
    · split
      · exact State.hostAbandon_kept _ h
      · exact State.readAt_kept _ _ h
    · exact h

end Sys2Proof.Machine
end

