-- ==== Sys2Proof/Laws/KeptHost.lean ====
section
/-! SUPPORT. What every operation keeps (`Kept`): EtherCAT, the nest engines and an idle step. -/

namespace Sys2Proof.Machine

theorem State.fillSm1_kept {c0 : Cfg} {q0 : List Instr} (s : State) (h0 : Kept c0 q0 s) :
    Kept c0 q0 (State.fillSm1 s) := by
  unfold State.fillSm1
  repeat' (with_reducible first | assumption | intro _ | apply Kept.ite | apply Kept.foldS | simp -zeta only [↓Kept.mk_iff] | split)

theorem State.putReply_kept {c0 : Cfg} {q0 : List Instr} (s : State) (r : Resp) (h0 : Kept c0 q0 s) :
    Kept c0 q0 (State.putReply s r) := by
  unfold State.putReply
  repeat' (with_reducible first | assumption | apply State.fillSm1_kept | intro _ | apply Kept.ite | apply Kept.foldS | simp -zeta only [↓Kept.mk_iff] | (extract_lets +onlyGivenNames x; first | (refine Kept.cut (P := Kept c0 q0 x) ?_ ?_; rotate_left; (intro _; clear_value x); rotate_left; unfold x; clear x) | clear_value x) | split)

theorem State.reply_kept {c0 : Cfg} {q0 : List Instr} (s : State) (r : Resp) (h0 : Kept c0 q0 s) :
    Kept c0 q0 (State.reply s r) := by
  unfold State.reply
  repeat' (with_reducible first | assumption | apply State.putReply_kept | simp -zeta only [↓Kept.mk_iff])

theorem State.placeAgain_kept {c0 : Cfg} {q0 : List Instr} (s : State) (h0 : Kept c0 q0 s) :
    Kept c0 q0 (State.placeAgain s) := by
  unfold State.placeAgain
  repeat' (with_reducible first | assumption | intro _ | apply Kept.ite | apply Kept.foldS | simp -zeta only [↓Kept.mk_iff] | (extract_lets +onlyGivenNames x; first | (refine Kept.cut (P := Kept c0 q0 x) ?_ ?_; rotate_left; (intro _; clear_value x); rotate_left; unfold x; clear x) | clear_value x) | split)

theorem State.mailRequest_kept {c0 : Cfg} {q0 : List Instr} (s : State) (cnt : Nat) (run : State → State) (hrun : ∀ run0, Kept c0 q0 run0 → Kept c0 q0 (run run0)) (h0 : Kept c0 q0 s) :
    Kept c0 q0 (State.mailRequest s cnt run) := by
  unfold State.mailRequest
  repeat' (with_reducible first | assumption | apply State.placeAgain_kept | apply hrun | intro _ | apply Kept.ite | apply Kept.foldS | simp -zeta only [↓Kept.mk_iff] | split)

theorem State.sendEmcy_kept {c0 : Cfg} {q0 : List Instr} (s : State) (h0 : Kept c0 q0 s) :
    Kept c0 q0 (State.sendEmcy s) := by
  unfold State.sendEmcy
  repeat' (with_reducible first | assumption | apply State.post_kept | apply State.putReply_kept | intro _ | apply Kept.ite | apply Kept.foldS | simp -zeta only [↓Kept.mk_iff] | split)

theorem State.foeEnd_kept {c0 : Cfg} {q0 : List Instr} (s : State) (ending : Nat) (h0 : Kept c0 q0 s) :
    Kept c0 q0 (State.foeEnd s ending) := by
  unfold State.foeEnd
  repeat' (with_reducible first | assumption | apply State.post_kept | intro _ | apply Kept.ite | apply Kept.foldS | simp -zeta only [↓Kept.mk_iff] | split)

theorem State.alEnter_kept {c0 : Cfg} {q0 : List Instr} (s : State) (al code : Nat) (err : Bool) (h0 : Kept c0 q0 s) :
    Kept c0 q0 (State.alEnter s al code err) := by
  unfold State.alEnter
  repeat' (with_reducible first | assumption | apply State.post_kept | apply State.foeEnd_kept | intro _ | apply Kept.ite | apply Kept.foldS | simp -zeta only [↓Kept.mk_iff] | split)

theorem State.alRefuse_kept {c0 : Cfg} {q0 : List Instr} (s : State) (code : Nat) (h0 : Kept c0 q0 s) :
    Kept c0 q0 (State.alRefuse s code) :=
  h0

theorem State.alControl_kept {c0 : Cfg} {q0 : List Instr} (s : State) (v : Nat) (h0 : Kept c0 q0 s) :
    Kept c0 q0 (State.alControl s v) := by
  unfold State.alControl
  repeat' (with_reducible first | assumption | apply State.alEnter_kept | apply State.alRefuse_kept | intro _ | apply Kept.ite | apply Kept.foldS | split)

theorem State.sm2Expiry_kept {c0 : Cfg} {q0 : List Instr} (s : State) (h0 : Kept c0 q0 s) :
    Kept c0 q0 (State.sm2Expiry s) := by
  unfold State.sm2Expiry
  repeat' (with_reducible first | assumption | apply State.post_kept | apply State.alEnter_kept | intro _ | apply Kept.ite | apply Kept.foldS | split)

theorem State.wdService_kept {c0 : Cfg} {q0 : List Instr} (s : State) (h0 : Kept c0 q0 s) :
    Kept c0 q0 (State.wdService s) := by
  unfold State.wdService
  repeat' (with_reducible first | assumption | intro _ | apply Kept.ite | apply Kept.foldS | simp -zeta only [↓Kept.mk_iff] | split)

theorem State.wdExpiry_kept {c0 : Cfg} {q0 : List Instr} (s : State) (h0 : Kept c0 q0 s) :
    Kept c0 q0 (State.wdExpiry s) := by
  unfold State.wdExpiry
  repeat' (with_reducible first | assumption | apply State.post_kept | apply State.alEnter_kept | intro _ | apply Kept.ite | apply Kept.foldS | simp -zeta only [↓Kept.mk_iff] | split)

theorem State.ecatLink_kept {c0 : Cfg} {q0 : List Instr} (s : State) (port : Nat) (up : Bool) (h0 : Kept c0 q0 s) :
    Kept c0 q0 (State.ecatLink s port up) := by
  unfold State.ecatLink
  repeat' (with_reducible first | assumption | apply State.post_kept | intro _ | apply Kept.ite | apply Kept.foldS | simp -zeta only [↓Kept.mk_iff] | split)

theorem State.mailOut_kept {c0 : Cfg} {q0 : List Instr} (s : State) (l : List Byte) (h0 : Kept c0 q0 s) :
    Kept c0 q0 (State.mailOut s l) := by
  unfold State.mailOut
  repeat' (with_reducible first | assumption | apply State.putReply_kept | intro _ | apply Kept.ite | apply Kept.foldS | simp -zeta only [↓Kept.mk_iff] | split)

theorem State.mailIn_kept {c0 : Cfg} {q0 : List Instr} (s : State) (h0 : Kept c0 q0 s) :
    Kept c0 q0 (State.mailIn s) := by
  unfold State.mailIn
  repeat' (with_reducible first | assumption | apply State.fillSm1_kept | apply State.sendEmcy_kept | intro _ | apply Kept.ite | apply Kept.foldS | simp -zeta only [↓Kept.mk_iff] | (extract_lets +onlyGivenNames x; first | (refine Kept.cut (P := Kept c0 q0 x) ?_ ?_; rotate_left; (intro _; clear_value x); rotate_left; unfold x; clear x) | clear_value x) | split)

theorem State.ecatAccess_kept {c0 : Cfg} {q0 : List Instr} (s : State) (a : EcatAccess) (h0 : Kept c0 q0 s) :
    Kept c0 q0 (State.ecatAccess s a) := by
  unfold State.ecatAccess
  repeat' (with_reducible first | assumption | apply State.mailOut_kept | apply State.mailIn_kept | intro _ | apply Kept.ite | apply Kept.foldS | simp -zeta only [↓Kept.mk_iff] | split)

theorem State.ecatFrame_kept {c0 : Cfg} {q0 : List Instr} (s : State) (l : List EcatAccess) (h0 : Kept c0 q0 s) :
    Kept c0 q0 (State.ecatFrame s l) := by
  unfold State.ecatFrame
  repeat' (with_reducible first | assumption | apply State.ecatAccess_kept | intro _ | apply Kept.ite | apply Kept.foldS | split)

theorem State.pdoAssembly_kept {c0 : Cfg} {q0 : List Instr} (s : State) (h0 : Kept c0 q0 s) :
    Kept c0 q0 (State.pdoAssembly s) := by
  unfold State.pdoAssembly
  repeat' (with_reducible first | assumption | apply State.unitsUpdate_kept | apply State.sendEmcy_kept | intro _ | apply Kept.ite | apply Kept.foldS | simp -zeta only [↓Kept.mk_iff] | split)

theorem State.rxPdo_kept {c0 : Cfg} {q0 : List Instr} (s : State) (h0 : Kept c0 q0 s) :
    Kept c0 q0 (State.rxPdo s) := by
  unfold State.rxPdo
  repeat' (with_reducible first | assumption | intro _ | apply Kept.ite | apply Kept.foldS | simp -zeta only [↓Kept.mk_iff] | (extract_lets +onlyGivenNames x; first | (refine Kept.cut (P := Kept c0 q0 x) ?_ ?_; rotate_left; (intro _; clear_value x); rotate_left; unfold x; clear x) | clear_value x) | split)

theorem State.dropSeg_kept {c0 : Cfg} {q0 : List Instr} (s : State) (h0 : Kept c0 q0 s) :
    Kept c0 q0 (State.dropSeg s) :=
  h0

theorem State.sdoUpload_kept {c0 : Cfg} {q0 : List Instr} (s : State) (index sub : Nat) (ca : Bool) (h0 : Kept c0 q0 s) :
    Kept c0 q0 (State.sdoUpload s index sub ca) := by
  unfold State.sdoUpload
  repeat' (with_reducible first | assumption | apply State.reply_kept | apply State.dropSeg_kept | intro _ | apply Kept.ite | apply Kept.foldS | simp -zeta only [↓Kept.mk_iff] | (extract_lets +onlyGivenNames x; first | (refine Kept.cut (P := Kept c0 q0 x) ?_ ?_; rotate_left; (intro _; clear_value x); rotate_left; unfold x; clear x) | clear_value x) | split)

theorem State.sdoRefuse_kept {c0 : Cfg} {q0 : List Instr} (s : State) (index cause : Nat) (x : Nat × DEnt × List Byte) (h0 : Kept c0 q0 s) :
    Kept c0 q0 (State.sdoRefuse s index cause x) := by
  unfold State.sdoRefuse
  repeat' (with_reducible first | assumption | apply State.dictRefuse_kept | intro _ | apply Kept.ite | apply Kept.foldS | split)

theorem State.applyPieces_kept {c0 : Cfg} {q0 : List Instr} (s : State) (index : Nat) (l : List (Nat × DEnt × List Byte)) (h0 : Kept c0 q0 s) :
    Kept c0 q0 (s.applyPieces index l).1 := by
  induction l generalizing s with
  | nil => exact h0
  | cons x t ih =>
    unfold State.applyPieces
    repeat' (with_reducible first | assumption | apply ih | apply State.dictApply_kept | intro _ | apply Kept.ite | apply Kept.foldS | simp -zeta only [↓Kept.mk_iff] | (extract_lets +onlyGivenNames x; first | (refine Kept.cut (P := Kept c0 q0 x) ?_ ?_; rotate_left; (intro _; clear_value x); rotate_left; unfold x; clear x) | clear_value x) | split)

theorem State.sdoLife_kept {c0 : Cfg} {q0 : List Instr} (s : State) (l : List Byte) (ok : Resp) (h0 : Kept c0 q0 s) :
    Kept c0 q0 (State.sdoLife s l ok) := by
  unfold State.sdoLife
  repeat' (with_reducible first | assumption | apply State.lifeWarm_kept | apply State.lifeStop_kept | apply State.lifeWrite_kept | apply State.reply_kept | intro _ | apply Kept.ite | apply Kept.foldS | simp -zeta only [↓Kept.mk_iff] | (extract_lets +onlyGivenNames x; first | (refine Kept.cut (P := Kept c0 q0 x) ?_ ?_; rotate_left; (intro _; clear_value x); rotate_left; unfold x; clear x) | clear_value x) | split)

theorem State.sdoApply_kept {c0 : Cfg} {q0 : List Instr} (s : State) (index sub : Nat) (ca : Bool) (l : List Byte) (ok : Resp) (h0 : Kept c0 q0 s) :
    Kept c0 q0 (State.sdoApply s index sub ca l ok) := by
  unfold State.sdoApply
  repeat' (with_reducible first | assumption | apply State.reply_kept | apply State.sdoRefuse_kept | apply State.applyPieces_kept | apply State.sdoLife_kept | intro _ | apply Kept.ite | apply Kept.foldS | split)

theorem State.sdoDownload_kept {c0 : Cfg} {q0 : List Instr} (s : State) (index sub : Nat) (ca : Bool) (size : Option Nat) (l : List Byte) (h0 : Kept c0 q0 s) :
    Kept c0 q0 (State.sdoDownload s index sub ca size l) := by
  unfold State.sdoDownload
  repeat' (with_reducible first | assumption | apply State.reply_kept | apply State.dropSeg_kept | apply State.sdoApply_kept | intro _ | apply Kept.ite | apply Kept.foldS | simp -zeta only [↓Kept.mk_iff] | split)

theorem State.segAbort_kept {c0 : Cfg} {q0 : List Instr} (s : State) (x : SegXfer) (c : Nat) (h0 : Kept c0 q0 s) :
    Kept c0 q0 (State.segAbort s x c) := by
  unfold State.segAbort
  repeat' (with_reducible first | assumption | apply State.reply_kept | apply State.dropSeg_kept)

theorem State.sdoSegment_kept {c0 : Cfg} {q0 : List Instr} (s : State) (toggle last : Bool) (l : List Byte) (h0 : Kept c0 q0 s) :
    Kept c0 q0 (State.sdoSegment s toggle last l) := by
  unfold State.sdoSegment
  repeat' (with_reducible first | assumption | apply State.reply_kept | apply State.dropSeg_kept | apply State.sdoApply_kept | apply State.segAbort_kept | intro _ | apply Kept.ite | apply Kept.foldS | simp -zeta only [↓Kept.mk_iff] | split)

theorem State.segTimeout_kept {c0 : Cfg} {q0 : List Instr} (s : State) (h0 : Kept c0 q0 s) :
    Kept c0 q0 (State.segTimeout s) := by
  unfold State.segTimeout
  repeat' (with_reducible first | assumption | apply State.putReply_kept | apply State.dropSeg_kept | intro _ | apply Kept.ite | apply Kept.foldS | split)

theorem State.sdoInfo_kept {c0 : Cfg} {q0 : List Instr} (s : State) (q : InfoReq) (h0 : Kept c0 q0 s) :
    Kept c0 q0 (State.sdoInfo s q) := by
  unfold State.sdoInfo
  repeat' (with_reducible first | assumption | apply State.reply_kept | apply State.dropSeg_kept | intro _ | apply Kept.ite | apply Kept.foldS | split)

theorem State.foeOpen_kept {c0 : Cfg} {q0 : List Instr} (s : State) (f : FoeFile) (read : Bool) (l : List Byte) (h0 : Kept c0 q0 s) :
    Kept c0 q0 (State.foeOpen s f read l) :=
  h0

theorem State.foeFail_kept {c0 : Cfg} {q0 : List Instr} (s : State) (c : Nat) (h0 : Kept c0 q0 s) :
    Kept c0 q0 (State.foeFail s c) := by
  unfold State.foeFail
  repeat' (with_reducible first | assumption | apply State.reply_kept | apply State.foeEnd_kept)

theorem State.setImage_kept {c0 : Cfg} {q0 : List Instr} (s : State) (b : Bool) (l : List Byte) (h0 : Kept c0 q0 s) :
    Kept c0 q0 (State.setImage s b l) :=
  h0

theorem State.setDirectory_kept {c0 : Cfg} {q0 : List Instr} (s : State) (b : Bool) (h0 : Kept c0 q0 s) :
    Kept c0 q0 (State.setDirectory s b) :=
  h0

theorem State.setParams_kept {c0 : Cfg} {q0 : List Instr} (s : State) (l : List Param) (bytes : List Byte) (h0 : Kept c0 q0 s) :
    Kept c0 q0 (s.setParams l bytes) := by
  exact ⟨h0.1, h0.2.1, h0.2.2⟩

theorem State.foeFlashFault_kept {c0 : Cfg} {q0 : List Instr} (s : State) (offset : Nat) (h0 : Kept c0 q0 s) :
    Kept c0 q0 (State.foeFlashFault s offset) := by
  unfold State.foeFlashFault
  repeat' (with_reducible first | assumption | apply State.post_kept | apply State.foeFail_kept)

theorem State.fwFinish_kept {c0 : Cfg} {q0 : List Instr} (s : State) (l : List Byte) (n : Nat) (flashOk : Bool) (h0 : Kept c0 q0 s) :
    Kept c0 q0 (State.fwFinish s l n flashOk) := by
  unfold State.fwFinish
  repeat' (with_reducible first | assumption | apply State.cuFailed_kept | apply State.cuRefused_kept | apply State.romRestart_kept | apply State.reply_kept | apply State.foeEnd_kept | apply State.foeFail_kept | apply State.setImage_kept | apply State.setDirectory_kept | apply State.foeFlashFault_kept | intro _ | apply Kept.ite | apply Kept.foldS | split)

theorem State.parFinish_kept {c0 : Cfg} {q0 : List Instr} (s : State) (l : List Byte) (n : Nat) (ps : Option (List Param)) (flashOk : Bool) (h0 : Kept c0 q0 s) :
    Kept c0 q0 (State.parFinish s l n ps flashOk) := by
  unfold State.parFinish
  repeat' (with_reducible first | assumption | apply State.jrnEntry_kept | apply State.reply_kept | apply State.foeEnd_kept | apply State.foeFail_kept | apply State.setParams_kept | apply State.foeFlashFault_kept | intro _ | apply Kept.ite | apply Kept.foldS | split)

theorem State.foeData_kept {c0 : Cfg} {q0 : List Instr} (s : State) (l : List Byte) (last : Bool) (ps : Option (List Param)) (flashOk : Bool) (h0 : Kept c0 q0 s) :
    Kept c0 q0 (State.foeData s l last ps flashOk) := by
  unfold State.foeData
  repeat' (with_reducible first | assumption | apply NestRun.read_kept | apply State.reply_kept | apply State.foeFail_kept | apply State.setImage_kept | apply State.fwFinish_kept | apply State.parFinish_kept | intro _ | apply Kept.ite | apply Kept.foldS | simp -zeta only [↓Kept.mk_iff] | split)

theorem State.foeWrite_kept {c0 : Cfg} {q0 : List Instr} (s : State) (step : FoeStep) (flashOk : Bool) (h0 : Kept c0 q0 s) :
    Kept c0 q0 (State.foeWrite s step flashOk) := by
  unfold State.foeWrite
  repeat' (with_reducible first | assumption | apply State.reply_kept | apply State.foeOpen_kept | apply State.foeData_kept | intro _ | apply Kept.ite | apply Kept.foldS | split)

theorem State.foeSend_kept {c0 : Cfg} {q0 : List Instr} (s : State) (x : FoeXfer) (h0 : Kept c0 q0 s) :
    Kept c0 q0 (State.foeSend s x) := by
  unfold State.foeSend
  repeat' (with_reducible first | assumption | apply State.reply_kept | apply State.foeData_kept | simp -zeta only [↓Kept.mk_iff])

theorem State.foeAcked_kept {c0 : Cfg} {q0 : List Instr} (s : State) (h0 : Kept c0 q0 s) :
    Kept c0 q0 (State.foeAcked s) := by
  unfold State.foeAcked
  repeat' (with_reducible first | assumption | apply NestRun.read_kept | apply State.reply_kept | apply State.foeEnd_kept | apply State.foeSend_kept | intro _ | apply Kept.ite | apply Kept.foldS | split)

theorem State.foeRead_kept {c0 : Cfg} {q0 : List Instr} (s : State) (step : FoeStep) (h0 : Kept c0 q0 s) :
    Kept c0 q0 (State.foeRead s step) := by
  unfold State.foeRead
  repeat' (with_reducible first | assumption | apply State.reply_kept | apply State.foeSend_kept | apply State.foeAcked_kept | intro _ | apply Kept.ite | apply Kept.foldS | split)

theorem State.waitSatisfied_kept {c0 : Cfg} {q0 : List Instr} (s : State) (c e : Nat) (h0 : Kept c0 q0 s) :
    Kept c0 q0 (State.waitSatisfied s c e) := by
  unfold State.waitSatisfied
  repeat' (with_reducible first | assumption | apply State.setEng_kept | apply State.startSegment_kept | apply State.bundleStep_kept | apply State.nestRetire_kept | intro _ | apply Kept.ite | apply Kept.foldS | split)

theorem State.idle_kept {c0 : Cfg} {q0 : List Instr} (s : State) (h0 : Kept c0 q0 s) :
    Kept c0 q0 (State.idle s) := by
  unfold State.idle
  repeat' (with_reducible first | assumption | apply State.guardCycle_kept | apply State.stallTick_kept | apply State.advanceTt_kept | intro _ | apply Kept.ite | apply Kept.foldS | split)

end Sys2Proof.Machine
end

