-- ==== Sys2Proof/Laws/KeptExec.lean ====
section
/-! SUPPORT. What every command keeps: the configuration, the queue and the canonical form of memory. -/

namespace Sys2Proof.Machine

theorem execPorAssert_kept {c0 : Cfg} {q0 : List Instr} {s u : State}  (h0 : Kept c0 q0 s)
    (ht : execPorAssert s = .next u) : Kept c0 q0 u := by
  obtain rfl : _ = u := Host.Outcome.next.inj ht
  exact State.powerOn_kept _ _ _ h0

theorem execPorRelease_kept {c0 : Cfg} {q0 : List Instr} {s u : State} (absent : List Nat) (h0 : Kept c0 q0 s)
    (ht : execPorRelease absent s = .next u) : Kept c0 q0 u := by
  obtain rfl : _ = u := Host.Outcome.next.inj ht
  exact State.porRelease_kept _ _ h0

theorem execWarmRstAssert_kept {c0 : Cfg} {q0 : List Instr} {s u : State}  (h0 : Kept c0 q0 s)
    (ht : execWarmRstAssert s = .next u) : Kept c0 q0 u := by
  obtain rfl : _ = u := Host.Outcome.next.inj ht
  exact State.warmAssert_kept _ h0

theorem execWarmRstRelease_kept {c0 : Cfg} {q0 : List Instr} {s u : State}  (h0 : Kept c0 q0 s)
    (ht : execWarmRstRelease s = .next u) : Kept c0 q0 u := by
  obtain rfl : _ = u := Host.Outcome.next.inj ht
  exact State.warmRelease_kept _ h0

theorem execPowerLoss_kept {c0 : Cfg} {q0 : List Instr} {s u : State}  (h0 : Kept c0 q0 s)
    (ht : execPowerLoss s = .next u) : Kept c0 q0 u := by
  obtain rfl : _ = u := Host.Outcome.next.inj ht
  exact State.powerOn_kept _ _ _ h0

theorem execIslandClockLoss_kept {c0 : Cfg} {q0 : List Instr} {s u : State} (island : Nat) (h0 : Kept c0 q0 s)
    (ht : execIslandClockLoss island s = .next u) : Kept c0 q0 u := by
  obtain rfl : _ = u := Host.Outcome.next.inj ht
  exact State.clockLoss_kept _ _ h0

theorem execIslandClockReturn_kept {c0 : Cfg} {q0 : List Instr} {s u : State} (island : Nat) (h0 : Kept c0 q0 s)
    (ht : execIslandClockReturn island s = .next u) : Kept c0 q0 u := by
  obtain rfl : _ = u := Host.Outcome.next.inj ht
  exact State.clockReturn_kept _ _ h0

theorem execLaneSerdesReset_kept {c0 : Cfg} {q0 : List Instr} {s u : State} (lane : Nat) (h0 : Kept c0 q0 s)
    (ht : execLaneSerdesReset lane s = .next u) : Kept c0 q0 u := by
  obtain rfl : _ = u := Host.Outcome.next.inj ht
  exact State.serdesReset_kept _ _ h0

theorem execPhyTuneAck_kept {c0 : Cfg} {q0 : List Instr} {s u : State} (lane data : Nat) (h0 : Kept c0 q0 s)
    (ht : execPhyTuneAck lane data s = .next u) : Kept c0 q0 u := by
  obtain rfl : _ = u := Host.Outcome.next.inj ht
  exact State.phyAck_kept _ _ _ h0

theorem execPhyTuneTimeout_kept {c0 : Cfg} {q0 : List Instr} {s u : State} (lane : Nat) (h0 : Kept c0 q0 s)
    (ht : execPhyTuneTimeout lane s = .next u) : Kept c0 q0 u := by
  obtain rfl : _ = u := Host.Outcome.next.inj ht
  exact State.phyTimeout_kept _ _ h0

theorem execClockGenAck_kept {c0 : Cfg} {q0 : List Instr} {s u : State} (c : Nat) (h0 : Kept c0 q0 s)
    (ht : execClockGenAck c s = .next u) : Kept c0 q0 u := by
  obtain rfl : _ = u := Host.Outcome.next.inj ht
  exact State.clockAck_kept _ _ h0

theorem execClockGenTimeout_kept {c0 : Cfg} {q0 : List Instr} {s u : State} (c : Nat) (h0 : Kept c0 q0 s)
    (ht : execClockGenTimeout c s = .next u) : Kept c0 q0 u := by
  obtain rfl : _ = u := Host.Outcome.next.inj ht
  exact State.clockTimeout_kept _ _ h0

theorem execRegisterWrite_kept {c0 : Cfg} {q0 : List Instr} {s u : State} (src : Src) (off v : Nat) (full : Bool) (h0 : Kept c0 q0 s)
    (ht : execRegisterWrite src off v full s = .next u) : Kept c0 q0 u := by
  obtain rfl : _ = u := Host.Outcome.next.inj ht
  exact State.portWrite_kept _ _ _ _ _ h0

theorem execJournalledParameterApply_kept {c0 : Cfg} {q0 : List Instr} {s u : State} (badPrimary badMirror : Bool) (h0 : Kept c0 q0 s)
    (ht : execJournalledParameterApply badPrimary badMirror s = .next u) : Kept c0 q0 u := by
  obtain rfl : _ = u := Host.Outcome.next.inj ht
  exact State.boundary_kept _ _ _ h0

theorem execPairLoRead_kept {c0 : Cfg} {q0 : List Instr} {s u : State} (src : Src) (off : Nat) (h0 : Kept c0 q0 s)
    (ht : execPairLoRead src off s = .next u) : Kept c0 q0 u := by
  obtain rfl : _ = u := Host.Outcome.next.inj ht
  exact State.readReg_kept _ _ _ h0

theorem execPairHiWrite_kept {c0 : Cfg} {q0 : List Instr} {s u : State} (src : Src) (off v : Nat) (h0 : Kept c0 q0 s)
    (ht : execPairHiWrite src off v s = .next u) : Kept c0 q0 u := by
  obtain rfl : _ = u := Host.Outcome.next.inj ht
  exact State.portWrite_kept _ _ _ _ _ h0

theorem execRcRegisterRead_kept {c0 : Cfg} {q0 : List Instr} {s u : State} (src : Src) (off : Nat) (h0 : Kept c0 q0 s)
    (ht : execRcRegisterRead src off s = .next u) : Kept c0 q0 u := by
  obtain rfl : _ = u := Host.Outcome.next.inj ht
  exact State.readReg_kept _ _ _ h0

theorem execW1cRegisterWrite_kept {c0 : Cfg} {q0 : List Instr} {s u : State} (src : Src) (off v : Nat) (h0 : Kept c0 q0 s)
    (ht : execW1cRegisterWrite src off v s = .next u) : Kept c0 q0 u := by
  obtain rfl : _ = u := Host.Outcome.next.inj ht
  exact State.portWrite_kept _ _ _ _ _ h0

theorem execTtLoad_kept {c0 : Cfg} {q0 : List Instr} {s u : State} (hi : Nat) (h0 : Kept c0 q0 s)
    (ht : execTtLoad hi s = .next u) : Kept c0 q0 u := by
  obtain rfl : _ = u := Host.Outcome.next.inj ht
  exact State.ttLoad_kept _ _ h0

theorem execRefTick_kept {c0 : Cfg} {q0 : List Instr} {s u : State} (n periods : Nat) (h0 : Kept c0 q0 s)
    (ht : execRefTick n periods s = .next u) : Kept c0 q0 u := by
  obtain rfl : _ = u := Host.Outcome.next.inj ht
  repeat' (with_reducible first | assumption | apply State.setRef_kept | apply State.disqualify_kept | apply State.measure_kept | intro _ | apply Kept.ite | apply Kept.foldS | simp -zeta only [↓Kept.mk_iff] | split)

theorem execRefStopTimeout_kept {c0 : Cfg} {q0 : List Instr} {s u : State} (n : Nat) (h0 : Kept c0 q0 s)
    (ht : execRefStopTimeout n s = .next u) : Kept c0 q0 u := by
  obtain rfl : _ = u := Host.Outcome.next.inj ht
  repeat' (with_reducible first | assumption | apply State.disqualify_kept | intro _ | apply Kept.ite | apply Kept.foldS | simp -zeta only [↓Kept.mk_iff] | split)

theorem execRefRateCheck_kept {c0 : Cfg} {q0 : List Instr} {s u : State} (n : Nat) (offset : Int) (h0 : Kept c0 q0 s)
    (ht : execRefRateCheck n offset s = .next u) : Kept c0 q0 u := by
  obtain rfl : _ = u := Host.Outcome.next.inj ht
  repeat' (with_reducible first | assumption | apply State.setRef_kept | apply State.disqualify_kept | intro _ | apply Kept.ite | apply Kept.foldS | simp -zeta only [↓Kept.mk_iff] | split)

theorem execRefQualifyTimeout_kept {c0 : Cfg} {q0 : List Instr} {s u : State} (n : Nat) (h0 : Kept c0 q0 s)
    (ht : execRefQualifyTimeout n s = .next u) : Kept c0 q0 u := by
  obtain rfl : _ = u := Host.Outcome.next.inj ht
  repeat' (with_reducible first | assumption | apply State.post_kept | apply State.setQual_kept | intro _ | apply Kept.ite | apply Kept.foldS | simp -zeta only [↓Kept.mk_iff] | split)

theorem execTbStateEvaluation_kept {c0 : Cfg} {q0 : List Instr} {s u : State}  (h0 : Kept c0 q0 s)
    (ht : execTbStateEvaluation s = .next u) : Kept c0 q0 u := by
  obtain rfl : _ = u := Host.Outcome.next.inj ht
  exact State.tbEvaluate_kept _ h0

theorem execTbHoldLimitExceeded_kept {c0 : Cfg} {q0 : List Instr} {s u : State}  (h0 : Kept c0 q0 s)
    (ht : execTbHoldLimitExceeded s = .next u) : Kept c0 q0 u := by
  obtain rfl : _ = u := Host.Outcome.next.inj ht
  repeat' (with_reducible first | assumption | apply State.put_kept | apply State.post_kept | apply State.tbEnter_kept | intro _ | apply Kept.ite | apply Kept.foldS | simp -zeta only [↓Kept.mk_iff] | split)

theorem execAlignFilterOutput_kept {c0 : Cfg} {q0 : List Instr} {s u : State} (port : Nat) (h0 : Kept c0 q0 s)
    (ht : execAlignFilterOutput port s = .next u) : Kept c0 q0 u := by
  obtain rfl : _ = u := Host.Outcome.next.inj ht
  repeat' (with_reducible first | assumption | apply State.filterOutput_kept | intro _ | apply Kept.ite | apply Kept.foldS | simp -zeta only [↓Kept.mk_iff] | split)

theorem execAlignExchangesDiscarded_kept {c0 : Cfg} {q0 : List Instr} {s u : State}  (h0 : Kept c0 q0 s)
    (ht : execAlignExchangesDiscarded s = .next u) : Kept c0 q0 u := by
  obtain rfl : _ = u := Host.Outcome.next.inj ht
  repeat' (with_reducible first | assumption | apply State.alignFault_kept | apply State.defect_kept | intro _ | apply Kept.ite | apply Kept.foldS | simp -zeta only [↓Kept.mk_iff] | split)

theorem execTickPhaseAdopt_kept {c0 : Cfg} {q0 : List Instr} {s u : State}  (h0 : Kept c0 q0 s)
    (ht : execTickPhaseAdopt s = .next u) : Kept c0 q0 u := by
  obtain rfl : _ = u := Host.Outcome.next.inj ht
  repeat' (with_reducible first | assumption | apply State.stepTt_kept | apply State.setTickPhase_kept | apply State.alignFault_kept | intro _ | apply Kept.ite | apply Kept.foldS | simp -zeta only [↓Kept.mk_iff] | split)

theorem execOscFail_kept {c0 : Cfg} {q0 : List Instr} {s u : State}  (h0 : Kept c0 q0 s)
    (ht : execOscFail s = .next u) : Kept c0 q0 u := by
  obtain rfl : _ = u := Host.Outcome.next.inj ht
  repeat' (with_reducible first | assumption | apply State.put_kept | apply State.post_kept | apply State.tbEnter_kept | intro _ | apply Kept.ite | apply Kept.foldS | simp -zeta only [↓Kept.mk_iff] | split)

theorem execOscRecovered_kept {c0 : Cfg} {q0 : List Instr} {s u : State}  (h0 : Kept c0 q0 s)
    (ht : execOscRecovered s = .next u) : Kept c0 q0 u := by
  obtain rfl : _ = u := Host.Outcome.next.inj ht
  repeat' (with_reducible first | assumption | apply State.put_kept | apply State.setRef_kept | intro _ | apply Kept.ite | apply Kept.foldS | simp -zeta only [↓Kept.mk_iff] | split)

theorem execTdcCalibration_kept {c0 : Cfg} {q0 : List Instr} {s u : State} (ps : Nat) (h0 : Kept c0 q0 s)
    (ht : execTdcCalibration ps s = .next u) : Kept c0 q0 u := by
  obtain rfl : _ = u := Host.Outcome.next.inj ht
  repeat' (with_reducible first | assumption | intro _ | apply Kept.ite | apply Kept.foldS | simp -zeta only [↓Kept.mk_iff] | split)

theorem execEncoderEdgeAccepted_kept {c0 : Cfg} {q0 : List Instr} {s u : State} (ch : Nat) (x : HeldLevels) (h0 : Kept c0 q0 s)
    (ht : execEncoderEdgeAccepted ch x s = .next u) : Kept c0 q0 u := by
  obtain rfl : _ = u := Host.Outcome.next.inj ht
  repeat' (with_reducible first | assumption | apply State.filterCycle_kept | intro _ | apply Kept.ite | apply Kept.foldS | simp -zeta only [↓Kept.mk_iff] | split)

theorem execSsiFrameStart_kept {c0 : Cfg} {q0 : List Instr} {s u : State} (ch : Nat) (h0 : Kept c0 q0 s)
    (ht : execSsiFrameStart ch s = .next u) : Kept c0 q0 u := by
  obtain rfl : _ = u := Host.Outcome.next.inj ht
  repeat' (with_reducible first | assumption | apply State.setCh_kept | intro _ | apply Kept.ite | apply Kept.foldS | simp -zeta only [↓Kept.mk_iff] | split)

theorem execSsiFrameComplete_kept {c0 : Cfg} {q0 : List Instr} {s u : State} (ch : Nat) (ready : Bool) (clocked recovery : Nat) (h0 : Kept c0 q0 s)
    (ht : execSsiFrameComplete ch ready clocked recovery s = .next u) : Kept c0 q0 u := by
  obtain rfl : _ = u := Host.Outcome.next.inj ht
  repeat' (with_reducible first | assumption | apply State.ssiFrame_kept | intro _ | apply Kept.ite | apply Kept.foldS | simp -zeta only [↓Kept.mk_iff] | split)

theorem execSpeedEstimateUpdate_kept {c0 : Cfg} {q0 : List Instr} {s u : State} (ch : Nat) (h0 : Kept c0 q0 s)
    (ht : execSpeedEstimateUpdate ch s = .next u) : Kept c0 q0 u := by
  obtain rfl : _ = u := Host.Outcome.next.inj ht
  repeat' (with_reducible first | assumption | apply State.setCh_kept | apply State.guardCycle_kept | apply State.speedUpdate_kept | intro _ | apply Kept.ite | apply Kept.foldS | simp -zeta only [↓Kept.mk_iff] | split)

theorem execStandstillTimeout_kept {c0 : Cfg} {q0 : List Instr} {s u : State} (ch : Nat) (h0 : Kept c0 q0 s)
    (ht : execStandstillTimeout ch s = .next u) : Kept c0 q0 u := by
  obtain rfl : _ = u := Host.Outcome.next.inj ht
  repeat' (with_reducible first | assumption | apply State.put_kept | apply State.postLim_kept | apply State.holdPredictions_kept | intro _ | apply Kept.ite | apply Kept.foldS | simp -zeta only [↓Kept.mk_iff] | split)

theorem execCountLoad_kept {c0 : Cfg} {q0 : List Instr} {s u : State} (ch hi : Nat) (h0 : Kept c0 q0 s)
    (ht : execCountLoad ch hi s = .next u) : Kept c0 q0 u := by
  obtain rfl : _ = u := Host.Outcome.next.inj ht
  exact State.cntLoadWrite_kept _ _ _ h0

theorem execPuChCtlWrite_kept {c0 : Cfg} {q0 : List Instr} {s u : State} (src : Src) (ch : Nat) (ssi : Bool) (v : Nat) (h0 : Kept c0 q0 s)
    (ht : execPuChCtlWrite src ch ssi v s = .next u) : Kept c0 q0 u := by
  obtain rfl : _ = u := Host.Outcome.next.inj ht
  exact State.puCtlWrite_kept _ _ _ _ _ h0

theorem execPuIdxLoRead_kept {c0 : Cfg} {q0 : List Instr} {s u : State} (ch : Nat) (h0 : Kept c0 q0 s)
    (ht : execPuIdxLoRead ch s = .next u) : Kept c0 q0 u := by
  obtain rfl : _ = u := Host.Outcome.next.inj ht
  repeat' (with_reducible first | assumption | apply State.put_kept | intro _ | apply Kept.ite | apply Kept.foldS | simp -zeta only [↓Kept.mk_iff] | split)

theorem execPuStatusRead_kept {c0 : Cfg} {q0 : List Instr} {s u : State} (ch : Nat) (h0 : Kept c0 q0 s)
    (ht : execPuStatusRead ch s = .next u) : Kept c0 q0 u := by
  obtain rfl : _ = u := Host.Outcome.next.inj ht
  repeat' (with_reducible first | assumption | apply State.put_kept | intro _ | apply Kept.ite | apply Kept.foldS | simp -zeta only [↓Kept.mk_iff] | split)

theorem execThresholdScanComplete_kept {c0 : Cfg} {q0 : List Instr} {s u : State} (ch input low high : Nat) (h0 : Kept c0 q0 s)
    (ht : execThresholdScanComplete ch input low high s = .next u) : Kept c0 q0 u := by
  obtain rfl : _ = u := Host.Outcome.next.inj ht
  repeat' (with_reducible first | assumption | apply State.scanDone_kept | intro _ | apply Kept.ite | apply Kept.foldS | simp -zeta only [↓Kept.mk_iff] | split)

theorem execCxpStreamPacket_kept {c0 : Cfg} {q0 : List Instr} {s u : State} (lane tag stream : Nat) (crcOk : Bool) (items : List CxpItem) (h0 : Kept c0 q0 s)
    (ht : execCxpStreamPacket lane tag stream crcOk items s = .next u) : Kept c0 q0 u := by
  obtain rfl : _ = u := Host.Outcome.next.inj ht
  repeat' (with_reducible first | assumption | apply State.laneReady_kept | apply State.put_kept | apply State.postLim_kept | apply State.streamPacket_kept | intro _ | apply Kept.ite | apply Kept.foldS | simp -zeta only [↓Kept.mk_iff] | split)

theorem execCxpLaneLockLoss_kept {c0 : Cfg} {q0 : List Instr} {s u : State} (lane : Nat) (h0 : Kept c0 q0 s)
    (ht : execCxpLaneLockLoss lane s = .next u) : Kept c0 q0 u := by
  obtain rfl : _ = u := Host.Outcome.next.inj ht
  repeat' (with_reducible first | assumption | apply State.put_kept | apply State.postLim_kept | apply State.groupDown_kept | intro _ | apply Kept.ite | apply Kept.foldS | simp -zeta only [↓Kept.mk_iff] | split)

theorem execCxpControlPacketRx_kept {c0 : Cfg} {q0 : List Instr} {s u : State} (lane : Nat) (kind : CxpCtrl) (ptype : Nat) (crcOk : Bool) (bytes : List Byte) (h0 : Kept c0 q0 s)
    (ht : execCxpControlPacketRx lane kind ptype crcOk bytes s = .next u) : Kept c0 q0 u := by
  obtain rfl : _ = u := Host.Outcome.next.inj ht
  repeat' (with_reducible first | assumption | apply State.put_kept | apply State.writeMem_kept | apply State.postLim_kept | intro _ | apply Kept.ite | apply Kept.foldS | simp -zeta only [↓Kept.mk_iff] | split)

theorem execCxCtrlTxSend_kept {c0 : Cfg} {q0 : List Instr} {s u : State} (cam : Nat) (h0 : Kept c0 q0 s)
    (ht : execCxCtrlTxSend cam s = .next u) : Kept c0 q0 u := by
  obtain rfl : _ = u := Host.Outcome.next.inj ht
  repeat' (with_reducible first | assumption | apply State.put_kept | apply State.setPipe_kept | intro _ | apply Kept.ite | apply Kept.foldS | simp -zeta only [↓Kept.mk_iff] | split)

theorem execStripWritesAcknowledged_kept {c0 : Cfg} {q0 : List Instr} {s u : State} (p : Nat) (h0 : Kept c0 q0 s)
    (ht : execStripWritesAcknowledged p s = .next u) : Kept c0 q0 u := by
  obtain rfl : _ = u := Host.Outcome.next.inj ht
  repeat' (with_reducible first | assumption | apply State.writeMem_kept | apply State.pcCount_kept | apply State.setPipe_kept | apply State.showProd_kept | apply State.tellSlot_kept | intro _ | apply Kept.ite | apply Kept.foldS | simp -zeta only [↓Kept.mk_iff] | split)

theorem execPipelineStallTimeout_kept {c0 : Cfg} {q0 : List Instr} {s u : State} (p : Nat) (h0 : Kept c0 q0 s)
    (ht : execPipelineStallTimeout p s = .next u) : Kept c0 q0 u := by
  obtain rfl : _ = u := Host.Outcome.next.inj ht
  repeat' (with_reducible first | assumption | apply State.put_kept | apply State.postLim_kept | apply State.setPipe_kept | apply State.closeStrip_kept | intro _ | apply Kept.ite | apply Kept.foldS | simp -zeta only [↓Kept.mk_iff] | split)

theorem execCalBankSwap_kept {c0 : Cfg} {q0 : List Instr} {s u : State} (src : Src) (p v : Nat) (h0 : Kept c0 q0 s)
    (ht : execCalBankSwap src p v s = .next u) : Kept c0 q0 u := by
  obtain rfl : _ = u := Host.Outcome.next.inj ht
  exact State.calSwap_kept _ _ _ _ h0

theorem execCameraConfigWrite_kept {c0 : Cfg} {q0 : List Instr} {s u : State} (src : Src) (p : Nat) (r : CamReg) (v : Nat) (h0 : Kept c0 q0 s)
    (ht : execCameraConfigWrite src p r v s = .next u) : Kept c0 q0 u := by
  obtain rfl : _ = u := Host.Outcome.next.inj ht
  exact State.camWrite_kept _ _ _ _ _ h0

theorem execDecConfigWrite_kept {c0 : Cfg} {q0 : List Instr} {s u : State} (src : Src) (c : Nat) (r : DecReg) (v : Nat) (h0 : Kept c0 q0 s)
    (ht : execDecConfigWrite src c r v s = .next u) : Kept c0 q0 u := by
  obtain rfl : _ = u := Host.Outcome.next.inj ht
  exact State.decWrite_kept _ _ _ _ _ h0

theorem execDecSubstWrite_kept {c0 : Cfg} {q0 : List Instr} {s u : State} (src : Src) (c hi : Nat) (h0 : Kept c0 q0 s)
    (ht : execDecSubstWrite src c hi s = .next u) : Kept c0 q0 u := by
  obtain rfl : _ = u := Host.Outcome.next.inj ht
  exact State.substWrite_kept _ _ _ _ h0

theorem execDecDescriptorFetch_kept {c0 : Cfg} {q0 : List Instr} {s u : State} (c : Nat) (h0 : Kept c0 q0 s)
    (ht : execDecDescriptorFetch c s = .next u) : Kept c0 q0 u := by
  obtain rfl : _ = u := Host.Outcome.next.inj ht
  repeat' (with_reducible first | assumption | apply State.bump_kept | apply State.setDec_kept | apply State.decEvent_kept | apply State.decUse_kept | intro _ | apply Kept.ite | apply Kept.foldS | simp -zeta only [↓Kept.mk_iff] | split)

theorem execDecFileHeader_kept {c0 : Cfg} {q0 : List Instr} {s u : State} (c : Nat) (h0 : Kept c0 q0 s)
    (ht : execDecFileHeader c s = .next u) : Kept c0 q0 u := by
  obtain rfl : _ = u := Host.Outcome.next.inj ht
  repeat' (with_reducible first | assumption | apply State.put_kept | apply State.setDec_kept | apply State.decEvent_kept | apply State.decUse_kept | intro _ | apply Kept.ite | apply Kept.foldS | simp -zeta only [↓Kept.mk_iff] | (extract_lets +onlyGivenNames x; first | (refine Kept.cut (P := Kept c0 q0 x) ?_ ?_; rotate_left; (intro _; clear_value x); rotate_left; unfold x; clear x) | clear_value x) | split)

theorem execDecRecord_kept {c0 : Cfg} {q0 : List Instr} {s u : State} (c : Nat) (h0 : Kept c0 q0 s)
    (ht : execDecRecord c s = .next u) : Kept c0 q0 u := by
  obtain rfl : _ = u := Host.Outcome.next.inj ht
  repeat' (with_reducible first | assumption | apply State.setDec_kept | apply State.decUse_kept | apply State.decRun_kept | apply State.decRecord_kept | apply State.decResync_kept | intro _ | apply Kept.ite | apply Kept.foldS | simp -zeta only [↓Kept.mk_iff] | split)

theorem execDecPacedLineEntry_kept {c0 : Cfg} {q0 : List Instr} {s u : State} (c : Nat) (h0 : Kept c0 q0 s)
    (ht : execDecPacedLineEntry c s = .next u) : Kept c0 q0 u := by
  obtain rfl : _ = u := Host.Outcome.next.inj ht
  repeat' (with_reducible first | assumption | apply State.decRun_kept | intro _ | apply Kept.ite | apply Kept.foldS | simp -zeta only [↓Kept.mk_iff] | split)

theorem execDecRingSpaceResume_kept {c0 : Cfg} {q0 : List Instr} {s u : State} (c : Nat) (h0 : Kept c0 q0 s)
    (ht : execDecRingSpaceResume c s = .next u) : Kept c0 q0 u := by
  obtain rfl : _ = u := Host.Outcome.next.inj ht
  repeat' (with_reducible first | assumption | apply State.decRun_kept | intro _ | apply Kept.ite | apply Kept.foldS | simp -zeta only [↓Kept.mk_iff] | split)

theorem execSegmentStart_kept {c0 : Cfg} {q0 : List Instr} {s u : State} (c e : Nat) (h0 : Kept c0 q0 s)
    (ht : execSegmentStart c e s = .next u) : Kept c0 q0 u := by
  obtain rfl : _ = u := Host.Outcome.next.inj ht
  exact State.startSegment_kept _ _ _ h0

theorem execSegmentEnd_kept {c0 : Cfg} {q0 : List Instr} {s u : State} (c e : Nat) (h0 : Kept c0 q0 s)
    (ht : execSegmentEnd c e s = .next u) : Kept c0 q0 u := by
  obtain rfl : _ = u := Host.Outcome.next.inj ht
  exact State.endSegment_kept _ _ _ h0

theorem execSegmentComplete_kept {c0 : Cfg} {q0 : List Instr} {s u : State} (c e : Nat) (h0 : Kept c0 q0 s)
    (ht : execSegmentComplete c e s = .next u) : Kept c0 q0 u := by
  obtain rfl : _ = u := Host.Outcome.next.inj ht
  exact State.completeSegment_kept _ _ _ h0

theorem execSyncSignalApply_kept {c0 : Cfg} {q0 : List Instr} {s u : State} (k : Nat) (h0 : Kept c0 q0 s)
    (ht : execSyncSignalApply k s = .next u) : Kept c0 q0 u := by
  obtain rfl : _ = u := Host.Outcome.next.inj ht
  exact State.takeSignal_kept _ _ h0

theorem execWaitSatisfied_kept {c0 : Cfg} {q0 : List Instr} {s u : State} (c e : Nat) (h0 : Kept c0 q0 s)
    (ht : execWaitSatisfied c e s = .next u) : Kept c0 q0 u := by
  obtain rfl : _ = u := Host.Outcome.next.inj ht
  exact State.waitSatisfied_kept _ _ _ h0

theorem execSegmentWatchdogExpiry_kept {c0 : Cfg} {q0 : List Instr} {s u : State} (c e : Nat) (x : WatchFound) (h0 : Kept c0 q0 s)
    (ht : execSegmentWatchdogExpiry c e x s = .next u) : Kept c0 q0 u := by
  obtain rfl : _ = u := Host.Outcome.next.inj ht
  repeat' (with_reducible first | assumption | apply State.nestAbandon_kept | apply State.watchdog_kept | intro _ | apply Kept.ite | apply Kept.foldS | simp -zeta only [↓Kept.mk_iff] | split)

theorem execStallWatchExpiry_kept {c0 : Cfg} {q0 : List Instr} {s u : State} (t : Nat) (h0 : Kept c0 q0 s)
    (ht : execStallWatchExpiry t s = .next u) : Kept c0 q0 u := by
  obtain rfl : _ = u := Host.Outcome.next.inj ht
  repeat' (with_reducible first | assumption | apply State.freeze_kept | intro _ | apply Kept.ite | apply Kept.foldS | simp -zeta only [↓Kept.mk_iff] | split)

theorem execEngineFabricError_kept {c0 : Cfg} {q0 : List Instr} {s u : State} (c e : Nat) (h0 : Kept c0 q0 s)
    (ht : execEngineFabricError c e s = .next u) : Kept c0 q0 u := by
  obtain rfl : _ = u := Host.Outcome.next.inj ht
  exact State.fabricError_kept _ _ _ _ h0

theorem execNop_kept {c0 : Cfg} {q0 : List Instr} {s u : State} (c e : Nat) (h0 : Kept c0 q0 s)
    (ht : execNop c e s = .next u) : Kept c0 q0 u := by
  obtain rfl : _ = u := Host.Outcome.next.inj ht
  exact State.nestIssue_kept _ _ _ _ h0

theorem execEndInstr_kept {c0 : Cfg} {q0 : List Instr} {s u : State} (c e : Nat) (h0 : Kept c0 q0 s)
    (ht : execEndInstr c e s = .next u) : Kept c0 q0 u := by
  obtain rfl : _ = u := Host.Outcome.next.inj ht
  exact State.nestIssue_kept _ _ _ _ h0

theorem execBase_kept {c0 : Cfg} {q0 : List Instr} {s u : State} (c e : Nat) (h0 : Kept c0 q0 s)
    (ht : execBase c e s = .next u) : Kept c0 q0 u := by
  obtain rfl : _ = u := Host.Outcome.next.inj ht
  exact State.nestIssue_kept _ _ _ _ h0

theorem execSignal_kept {c0 : Cfg} {q0 : List Instr} {s u : State} (c e : Nat) (h0 : Kept c0 q0 s)
    (ht : execSignal c e s = .next u) : Kept c0 q0 u := by
  obtain rfl : _ = u := Host.Outcome.next.inj ht
  exact State.nestIssue_kept _ _ _ _ h0

theorem execWait_kept {c0 : Cfg} {q0 : List Instr} {s u : State} (c e : Nat) (h0 : Kept c0 q0 s)
    (ht : execWait c e s = .next u) : Kept c0 q0 u := by
  obtain rfl : _ = u := Host.Outcome.next.inj ht
  exact State.nestIssue_kept _ _ _ _ h0

theorem execMma_kept {c0 : Cfg} {q0 : List Instr} {s u : State} (c e : Nat) (h0 : Kept c0 q0 s)
    (ht : execMma c e s = .next u) : Kept c0 q0 u := by
  obtain rfl : _ = u := Host.Outcome.next.inj ht
  exact State.nestIssue_kept _ _ _ _ h0

theorem execCopy_kept {c0 : Cfg} {q0 : List Instr} {s u : State} (c e : Nat) (h0 : Kept c0 q0 s)
    (ht : execCopy c e s = .next u) : Kept c0 q0 u := by
  obtain rfl : _ = u := Host.Outcome.next.inj ht
  exact State.nestIssue_kept _ _ _ _ h0

theorem execFill_kept {c0 : Cfg} {q0 : List Instr} {s u : State} (c e : Nat) (h0 : Kept c0 q0 s)
    (ht : execFill c e s = .next u) : Kept c0 q0 u := by
  obtain rfl : _ = u := Host.Outcome.next.inj ht
  exact State.nestIssue_kept _ _ _ _ h0

theorem execEmptyBundle_kept {c0 : Cfg} {q0 : List Instr} {s u : State} (c e : Nat) (h0 : Kept c0 q0 s)
    (ht : execEmptyBundle c e s = .next u) : Kept c0 q0 u := by
  obtain rfl : _ = u := Host.Outcome.next.inj ht
  exact State.bundleEmpty_kept _ _ _ h0

theorem execVld_kept {c0 : Cfg} {q0 : List Instr} {s u : State} (c e : Nat) (h0 : Kept c0 q0 s)
    (ht : execVld c e s = .next u) : Kept c0 q0 u := by
  obtain rfl : _ = u := Host.Outcome.next.inj ht
  exact State.bundleIssue_kept _ _ _ _ _ _ h0

theorem execVst_kept {c0 : Cfg} {q0 : List Instr} {s u : State} (c e : Nat) (h0 : Kept c0 q0 s)
    (ht : execVst c e s = .next u) : Kept c0 q0 u := by
  obtain rfl : _ = u := Host.Outcome.next.inj ht
  exact State.bundleIssue_kept _ _ _ _ _ _ h0

theorem execVldb_kept {c0 : Cfg} {q0 : List Instr} {s u : State} (c e : Nat) (h0 : Kept c0 q0 s)
    (ht : execVldb c e s = .next u) : Kept c0 q0 u := by
  obtain rfl : _ = u := Host.Outcome.next.inj ht
  exact State.bundleIssue_kept _ _ _ _ _ _ h0

theorem execSld_kept {c0 : Cfg} {q0 : List Instr} {s u : State} (c e : Nat) (h0 : Kept c0 q0 s)
    (ht : execSld c e s = .next u) : Kept c0 q0 u := by
  obtain rfl : _ = u := Host.Outcome.next.inj ht
  exact State.bundleIssue_kept _ _ _ _ _ _ h0

theorem execSst_kept {c0 : Cfg} {q0 : List Instr} {s u : State} (c e : Nat) (h0 : Kept c0 q0 s)
    (ht : execSst c e s = .next u) : Kept c0 q0 u := by
  obtain rfl : _ = u := Host.Outcome.next.inj ht
  exact State.bundleIssue_kept _ _ _ _ _ _ h0

theorem execRld_kept {c0 : Cfg} {q0 : List Instr} {s u : State} (c e : Nat) (h0 : Kept c0 q0 s)
    (ht : execRld c e s = .next u) : Kept c0 q0 u := by
  obtain rfl : _ = u := Host.Outcome.next.inj ht
  exact State.bundleIssue_kept _ _ _ _ _ _ h0

theorem execRst_kept {c0 : Cfg} {q0 : List Instr} {s u : State} (c e : Nat) (h0 : Kept c0 q0 s)
    (ht : execRst c e s = .next u) : Kept c0 q0 u := by
  obtain rfl : _ = u := Host.Outcome.next.inj ht
  exact State.bundleIssue_kept _ _ _ _ _ _ h0

theorem execLdmod_kept {c0 : Cfg} {q0 : List Instr} {s u : State} (c e : Nat) (h0 : Kept c0 q0 s)
    (ht : execLdmod c e s = .next u) : Kept c0 q0 u := by
  obtain rfl : _ = u := Host.Outcome.next.inj ht
  exact State.bundleIssue_kept _ _ _ _ _ _ h0

theorem execVadd_kept {c0 : Cfg} {q0 : List Instr} {s u : State} (c e : Nat) (h0 : Kept c0 q0 s)
    (ht : execVadd c e s = .next u) : Kept c0 q0 u := by
  obtain rfl : _ = u := Host.Outcome.next.inj ht
  exact State.bundleIssue_kept _ _ _ _ _ _ h0

theorem execVsub_kept {c0 : Cfg} {q0 : List Instr} {s u : State} (c e : Nat) (h0 : Kept c0 q0 s)
    (ht : execVsub c e s = .next u) : Kept c0 q0 u := by
  obtain rfl : _ = u := Host.Outcome.next.inj ht
  exact State.bundleIssue_kept _ _ _ _ _ _ h0

theorem execVmul_kept {c0 : Cfg} {q0 : List Instr} {s u : State} (c e : Nat) (h0 : Kept c0 q0 s)
    (ht : execVmul c e s = .next u) : Kept c0 q0 u := by
  obtain rfl : _ = u := Host.Outcome.next.inj ht
  exact State.bundleIssue_kept _ _ _ _ _ _ h0

theorem execVfma_kept {c0 : Cfg} {q0 : List Instr} {s u : State} (c e : Nat) (h0 : Kept c0 q0 s)
    (ht : execVfma c e s = .next u) : Kept c0 q0 u := by
  obtain rfl : _ = u := Host.Outcome.next.inj ht
  exact State.bundleIssue_kept _ _ _ _ _ _ h0

theorem execVmax_kept {c0 : Cfg} {q0 : List Instr} {s u : State} (c e : Nat) (h0 : Kept c0 q0 s)
    (ht : execVmax c e s = .next u) : Kept c0 q0 u := by
  obtain rfl : _ = u := Host.Outcome.next.inj ht
  exact State.bundleIssue_kept _ _ _ _ _ _ h0

theorem execVmin_kept {c0 : Cfg} {q0 : List Instr} {s u : State} (c e : Nat) (h0 : Kept c0 q0 s)
    (ht : execVmin c e s = .next u) : Kept c0 q0 u := by
  obtain rfl : _ = u := Host.Outcome.next.inj ht
  exact State.bundleIssue_kept _ _ _ _ _ _ h0

theorem execVand_kept {c0 : Cfg} {q0 : List Instr} {s u : State} (c e : Nat) (h0 : Kept c0 q0 s)
    (ht : execVand c e s = .next u) : Kept c0 q0 u := by
  obtain rfl : _ = u := Host.Outcome.next.inj ht
  exact State.bundleIssue_kept _ _ _ _ _ _ h0

theorem execVor_kept {c0 : Cfg} {q0 : List Instr} {s u : State} (c e : Nat) (h0 : Kept c0 q0 s)
    (ht : execVor c e s = .next u) : Kept c0 q0 u := by
  obtain rfl : _ = u := Host.Outcome.next.inj ht
  exact State.bundleIssue_kept _ _ _ _ _ _ h0

theorem execVxor_kept {c0 : Cfg} {q0 : List Instr} {s u : State} (c e : Nat) (h0 : Kept c0 q0 s)
    (ht : execVxor c e s = .next u) : Kept c0 q0 u := by
  obtain rfl : _ = u := Host.Outcome.next.inj ht
  exact State.bundleIssue_kept _ _ _ _ _ _ h0

theorem execVshl_kept {c0 : Cfg} {q0 : List Instr} {s u : State} (c e : Nat) (h0 : Kept c0 q0 s)
    (ht : execVshl c e s = .next u) : Kept c0 q0 u := by
  obtain rfl : _ = u := Host.Outcome.next.inj ht
  exact State.bundleIssue_kept _ _ _ _ _ _ h0

theorem execVshr_kept {c0 : Cfg} {q0 : List Instr} {s u : State} (c e : Nat) (h0 : Kept c0 q0 s)
    (ht : execVshr c e s = .next u) : Kept c0 q0 u := by
  obtain rfl : _ = u := Host.Outcome.next.inj ht
  exact State.bundleIssue_kept _ _ _ _ _ _ h0

theorem execVcmplt_kept {c0 : Cfg} {q0 : List Instr} {s u : State} (c e : Nat) (h0 : Kept c0 q0 s)
    (ht : execVcmplt c e s = .next u) : Kept c0 q0 u := by
  obtain rfl : _ = u := Host.Outcome.next.inj ht
  exact State.bundleIssue_kept _ _ _ _ _ _ h0

theorem execVcmple_kept {c0 : Cfg} {q0 : List Instr} {s u : State} (c e : Nat) (h0 : Kept c0 q0 s)
    (ht : execVcmple c e s = .next u) : Kept c0 q0 u := by
  obtain rfl : _ = u := Host.Outcome.next.inj ht
  exact State.bundleIssue_kept _ _ _ _ _ _ h0

theorem execVcmpeq_kept {c0 : Cfg} {q0 : List Instr} {s u : State} (c e : Nat) (h0 : Kept c0 q0 s)
    (ht : execVcmpeq c e s = .next u) : Kept c0 q0 u := by
  obtain rfl : _ = u := Host.Outcome.next.inj ht
  exact State.bundleIssue_kept _ _ _ _ _ _ h0

theorem execVsel_kept {c0 : Cfg} {q0 : List Instr} {s u : State} (c e : Nat) (h0 : Kept c0 q0 s)
    (ht : execVsel c e s = .next u) : Kept c0 q0 u := by
  obtain rfl : _ = u := Host.Outcome.next.inj ht
  exact State.bundleIssue_kept _ _ _ _ _ _ h0

theorem execVcvt_kept {c0 : Cfg} {q0 : List Instr} {s u : State} (c e : Nat) (h0 : Kept c0 q0 s)
    (ht : execVcvt c e s = .next u) : Kept c0 q0 u := by
  obtain rfl : _ = u := Host.Outcome.next.inj ht
  exact State.bundleIssue_kept _ _ _ _ _ _ h0

theorem execVexp_kept {c0 : Cfg} {q0 : List Instr} {s u : State} (c e : Nat) (h0 : Kept c0 q0 s)
    (ht : execVexp c e s = .next u) : Kept c0 q0 u := by
  obtain rfl : _ = u := Host.Outcome.next.inj ht
  exact State.bundleIssue_kept _ _ _ _ _ _ h0

theorem execVrcp_kept {c0 : Cfg} {q0 : List Instr} {s u : State} (c e : Nat) (h0 : Kept c0 q0 s)
    (ht : execVrcp c e s = .next u) : Kept c0 q0 u := by
  obtain rfl : _ = u := Host.Outcome.next.inj ht
  exact State.bundleIssue_kept _ _ _ _ _ _ h0

theorem execVrsqrt_kept {c0 : Cfg} {q0 : List Instr} {s u : State} (c e : Nat) (h0 : Kept c0 q0 s)
    (ht : execVrsqrt c e s = .next u) : Kept c0 q0 u := by
  obtain rfl : _ = u := Host.Outcome.next.inj ht
  exact State.bundleIssue_kept _ _ _ _ _ _ h0

theorem execVred_kept {c0 : Cfg} {q0 : List Instr} {s u : State} (c e : Nat) (h0 : Kept c0 q0 s)
    (ht : execVred c e s = .next u) : Kept c0 q0 u := by
  obtain rfl : _ = u := Host.Outcome.next.inj ht
  exact State.bundleIssue_kept _ _ _ _ _ _ h0

theorem execVperm_kept {c0 : Cfg} {q0 : List Instr} {s u : State} (c e : Nat) (h0 : Kept c0 q0 s)
    (ht : execVperm c e s = .next u) : Kept c0 q0 u := by
  obtain rfl : _ = u := Host.Outcome.next.inj ht
  exact State.bundleIssue_kept _ _ _ _ _ _ h0

theorem execVbcast_kept {c0 : Cfg} {q0 : List Instr} {s u : State} (c e : Nat) (h0 : Kept c0 q0 s)
    (ht : execVbcast c e s = .next u) : Kept c0 q0 u := by
  obtain rfl : _ = u := Host.Outcome.next.inj ht
  exact State.bundleIssue_kept _ _ _ _ _ _ h0

theorem execVmov_kept {c0 : Cfg} {q0 : List Instr} {s u : State} (c e : Nat) (h0 : Kept c0 q0 s)
    (ht : execVmov c e s = .next u) : Kept c0 q0 u := by
  obtain rfl : _ = u := Host.Outcome.next.inj ht
  exact State.bundleIssue_kept _ _ _ _ _ _ h0

theorem execRadd_kept {c0 : Cfg} {q0 : List Instr} {s u : State} (c e : Nat) (h0 : Kept c0 q0 s)
    (ht : execRadd c e s = .next u) : Kept c0 q0 u := by
  obtain rfl : _ = u := Host.Outcome.next.inj ht
  exact State.bundleIssue_kept _ _ _ _ _ _ h0

theorem execRsub_kept {c0 : Cfg} {q0 : List Instr} {s u : State} (c e : Nat) (h0 : Kept c0 q0 s)
    (ht : execRsub c e s = .next u) : Kept c0 q0 u := by
  obtain rfl : _ = u := Host.Outcome.next.inj ht
  exact State.bundleIssue_kept _ _ _ _ _ _ h0

theorem execRmul_kept {c0 : Cfg} {q0 : List Instr} {s u : State} (c e : Nat) (h0 : Kept c0 q0 s)
    (ht : execRmul c e s = .next u) : Kept c0 q0 u := by
  obtain rfl : _ = u := Host.Outcome.next.inj ht
  exact State.bundleIssue_kept _ _ _ _ _ _ h0

theorem execRmac_kept {c0 : Cfg} {q0 : List Instr} {s u : State} (c e : Nat) (h0 : Kept c0 q0 s)
    (ht : execRmac c e s = .next u) : Kept c0 q0 u := by
  obtain rfl : _ = u := Host.Outcome.next.inj ht
  exact State.bundleIssue_kept _ _ _ _ _ _ h0

theorem execRneg_kept {c0 : Cfg} {q0 : List Instr} {s u : State} (c e : Nat) (h0 : Kept c0 q0 s)
    (ht : execRneg c e s = .next u) : Kept c0 q0 u := by
  obtain rfl : _ = u := Host.Outcome.next.inj ht
  exact State.bundleIssue_kept _ _ _ _ _ _ h0

theorem execRbfly_kept {c0 : Cfg} {q0 : List Instr} {s u : State} (c e : Nat) (h0 : Kept c0 q0 s)
    (ht : execRbfly c e s = .next u) : Kept c0 q0 u := by
  obtain rfl : _ = u := Host.Outcome.next.inj ht
  exact State.bundleIssue_kept _ _ _ _ _ _ h0

theorem execRbflyi_kept {c0 : Cfg} {q0 : List Instr} {s u : State} (c e : Nat) (h0 : Kept c0 q0 s)
    (ht : execRbflyi c e s = .next u) : Kept c0 q0 u := by
  obtain rfl : _ = u := Host.Outcome.next.inj ht
  exact State.bundleIssue_kept _ _ _ _ _ _ h0

theorem execRxch_kept {c0 : Cfg} {q0 : List Instr} {s u : State} (c e : Nat) (h0 : Kept c0 q0 s)
    (ht : execRxch c e s = .next u) : Kept c0 q0 u := by
  obtain rfl : _ = u := Host.Outcome.next.inj ht
  exact State.bundleIssue_kept _ _ _ _ _ _ h0

theorem execRaddw_kept {c0 : Cfg} {q0 : List Instr} {s u : State} (c e : Nat) (h0 : Kept c0 q0 s)
    (ht : execRaddw c e s = .next u) : Kept c0 q0 u := by
  obtain rfl : _ = u := Host.Outcome.next.inj ht
  exact State.bundleIssue_kept _ _ _ _ _ _ h0

theorem execRsubw_kept {c0 : Cfg} {q0 : List Instr} {s u : State} (c e : Nat) (h0 : Kept c0 q0 s)
    (ht : execRsubw c e s = .next u) : Kept c0 q0 u := by
  obtain rfl : _ = u := Host.Outcome.next.inj ht
  exact State.bundleIssue_kept _ _ _ _ _ _ h0

theorem execRmulw_kept {c0 : Cfg} {q0 : List Instr} {s u : State} (c e : Nat) (h0 : Kept c0 q0 s)
    (ht : execRmulw c e s = .next u) : Kept c0 q0 u := by
  obtain rfl : _ = u := Host.Outcome.next.inj ht
  exact State.bundleIssue_kept _ _ _ _ _ _ h0

theorem execRmov_kept {c0 : Cfg} {q0 : List Instr} {s u : State} (c e : Nat) (h0 : Kept c0 q0 s)
    (ht : execRmov c e s = .next u) : Kept c0 q0 u := by
  obtain rfl : _ = u := Host.Outcome.next.inj ht
  exact State.bundleIssue_kept _ _ _ _ _ _ h0

theorem execRbcast_kept {c0 : Cfg} {q0 : List Instr} {s u : State} (c e : Nat) (h0 : Kept c0 q0 s)
    (ht : execRbcast c e s = .next u) : Kept c0 q0 u := by
  obtain rfl : _ = u := Host.Outcome.next.inj ht
  exact State.bundleIssue_kept _ _ _ _ _ _ h0

theorem execRmod_kept {c0 : Cfg} {q0 : List Instr} {s u : State} (c e : Nat) (h0 : Kept c0 q0 s)
    (ht : execRmod c e s = .next u) : Kept c0 q0 u := by
  obtain rfl : _ = u := Host.Outcome.next.inj ht
  exact State.bundleIssue_kept _ _ _ _ _ _ h0

theorem execSmov_kept {c0 : Cfg} {q0 : List Instr} {s u : State} (c e : Nat) (h0 : Kept c0 q0 s)
    (ht : execSmov c e s = .next u) : Kept c0 q0 u := by
  obtain rfl : _ = u := Host.Outcome.next.inj ht
  exact State.bundleIssue_kept _ _ _ _ _ _ h0

theorem execSshl_kept {c0 : Cfg} {q0 : List Instr} {s u : State} (c e : Nat) (h0 : Kept c0 q0 s)
    (ht : execSshl c e s = .next u) : Kept c0 q0 u := by
  obtain rfl : _ = u := Host.Outcome.next.inj ht
  exact State.bundleIssue_kept _ _ _ _ _ _ h0

theorem execSadd_kept {c0 : Cfg} {q0 : List Instr} {s u : State} (c e : Nat) (h0 : Kept c0 q0 s)
    (ht : execSadd c e s = .next u) : Kept c0 q0 u := by
  obtain rfl : _ = u := Host.Outcome.next.inj ht
  exact State.bundleIssue_kept _ _ _ _ _ _ h0

theorem execSaddi_kept {c0 : Cfg} {q0 : List Instr} {s u : State} (c e : Nat) (h0 : Kept c0 q0 s)
    (ht : execSaddi c e s = .next u) : Kept c0 q0 u := by
  obtain rfl : _ = u := Host.Outcome.next.inj ht
  exact State.bundleIssue_kept _ _ _ _ _ _ h0

theorem execSmul_kept {c0 : Cfg} {q0 : List Instr} {s u : State} (c e : Nat) (h0 : Kept c0 q0 s)
    (ht : execSmul c e s = .next u) : Kept c0 q0 u := by
  obtain rfl : _ = u := Host.Outcome.next.inj ht
  exact State.bundleIssue_kept _ _ _ _ _ _ h0

theorem execSget_kept {c0 : Cfg} {q0 : List Instr} {s u : State} (c e : Nat) (h0 : Kept c0 q0 s)
    (ht : execSget c e s = .next u) : Kept c0 q0 u := by
  obtain rfl : _ = u := Host.Outcome.next.inj ht
  exact State.bundleIssue_kept _ _ _ _ _ _ h0

theorem execSput_kept {c0 : Cfg} {q0 : List Instr} {s u : State} (c e : Nat) (h0 : Kept c0 q0 s)
    (ht : execSput c e s = .next u) : Kept c0 q0 u := by
  obtain rfl : _ = u := Host.Outcome.next.inj ht
  exact State.bundleIssue_kept _ _ _ _ _ _ h0

theorem execMset_kept {c0 : Cfg} {q0 : List Instr} {s u : State} (c e : Nat) (h0 : Kept c0 q0 s)
    (ht : execMset c e s = .next u) : Kept c0 q0 u := by
  obtain rfl : _ = u := Host.Outcome.next.inj ht
  exact State.bundleIssue_kept _ _ _ _ _ _ h0

theorem execMget_kept {c0 : Cfg} {q0 : List Instr} {s u : State} (c e : Nat) (h0 : Kept c0 q0 s)
    (ht : execMget c e s = .next u) : Kept c0 q0 u := by
  obtain rfl : _ = u := Host.Outcome.next.inj ht
  exact State.bundleIssue_kept _ _ _ _ _ _ h0

theorem execMand_kept {c0 : Cfg} {q0 : List Instr} {s u : State} (c e : Nat) (h0 : Kept c0 q0 s)
    (ht : execMand c e s = .next u) : Kept c0 q0 u := by
  obtain rfl : _ = u := Host.Outcome.next.inj ht
  exact State.bundleIssue_kept _ _ _ _ _ _ h0

theorem execMor_kept {c0 : Cfg} {q0 : List Instr} {s u : State} (c e : Nat) (h0 : Kept c0 q0 s)
    (ht : execMor c e s = .next u) : Kept c0 q0 u := by
  obtain rfl : _ = u := Host.Outcome.next.inj ht
  exact State.bundleIssue_kept _ _ _ _ _ _ h0

theorem execMandn_kept {c0 : Cfg} {q0 : List Instr} {s u : State} (c e : Nat) (h0 : Kept c0 q0 s)
    (ht : execMandn c e s = .next u) : Kept c0 q0 u := by
  obtain rfl : _ = u := Host.Outcome.next.inj ht
  exact State.bundleIssue_kept _ _ _ _ _ _ h0

theorem execJmp_kept {c0 : Cfg} {q0 : List Instr} {s u : State} (c e : Nat) (h0 : Kept c0 q0 s)
    (ht : execJmp c e s = .next u) : Kept c0 q0 u := by
  obtain rfl : _ = u := Host.Outcome.next.inj ht
  exact State.bundleIssue_kept _ _ _ _ _ _ h0

theorem execBrz_kept {c0 : Cfg} {q0 : List Instr} {s u : State} (c e : Nat) (h0 : Kept c0 q0 s)
    (ht : execBrz c e s = .next u) : Kept c0 q0 u := by
  obtain rfl : _ = u := Host.Outcome.next.inj ht
  exact State.bundleIssue_kept _ _ _ _ _ _ h0

theorem execBrnz_kept {c0 : Cfg} {q0 : List Instr} {s u : State} (c e : Nat) (h0 : Kept c0 q0 s)
    (ht : execBrnz c e s = .next u) : Kept c0 q0 u := by
  obtain rfl : _ = u := Host.Outcome.next.inj ht
  exact State.bundleIssue_kept _ _ _ _ _ _ h0

theorem execLoopInstr_kept {c0 : Cfg} {q0 : List Instr} {s u : State} (c e : Nat) (h0 : Kept c0 q0 s)
    (ht : execLoopInstr c e s = .next u) : Kept c0 q0 u := by
  obtain rfl : _ = u := Host.Outcome.next.inj ht
  exact State.bundleIssue_kept _ _ _ _ _ _ h0

theorem execBundleSignal_kept {c0 : Cfg} {q0 : List Instr} {s u : State} (c e : Nat) (h0 : Kept c0 q0 s)
    (ht : execBundleSignal c e s = .next u) : Kept c0 q0 u := by
  obtain rfl : _ = u := Host.Outcome.next.inj ht
  exact State.bundleIssue_kept _ _ _ _ _ _ h0

theorem execBundleWait_kept {c0 : Cfg} {q0 : List Instr} {s u : State} (c e : Nat) (h0 : Kept c0 q0 s)
    (ht : execBundleWait c e s = .next u) : Kept c0 q0 u := by
  obtain rfl : _ = u := Host.Outcome.next.inj ht
  exact State.bundleIssue_kept _ _ _ _ _ _ h0

theorem execLoadDataUncorrectable_kept {c0 : Cfg} {q0 : List Instr} {s u : State} (c : Nat) (x : IssuedLoad) (h0 : Kept c0 q0 s)
    (ht : execLoadDataUncorrectable c x s = .next u) : Kept c0 q0 u := by
  obtain rfl : _ = u := Host.Outcome.next.inj ht
  repeat' (with_reducible first | assumption | apply State.loadBad_kept | intro _ | apply Kept.ite | apply Kept.foldS | simp -zeta only [↓Kept.mk_iff] | split)

theorem execDoorbell_kept {c0 : Cfg} {q0 : List Instr} {s u : State} (r v : Nat) (h0 : Kept c0 q0 s)
    (ht : execDoorbell r v s = .next u) : Kept c0 q0 u := by
  obtain rfl : _ = u := Host.Outcome.next.inj ht
  exact State.doorbell_kept _ _ _ h0

theorem execGroupAdmission_kept {c0 : Cfg} {q0 : List Instr} {s u : State} (r : Nat) (readErr : Bool) (h0 : Kept c0 q0 s)
    (ht : execGroupAdmission r readErr s = .next u) : Kept c0 q0 u := by
  obtain rfl : _ = u := Host.Outcome.next.inj ht
  exact State.admission_kept _ _ _ h0

theorem execExec_kept {c0 : Cfg} {q0 : List Instr} {s u : State} (r : Nat) (readErr : Bool) (h0 : Kept c0 q0 s)
    (ht : execExec r readErr s = .next u) : Kept c0 q0 u := by
  obtain rfl : _ = u := Host.Outcome.next.inj ht
  exact State.execEntry_kept _ _ _ h0

theorem execImageLoad_kept {c0 : Cfg} {q0 : List Instr} {s u : State} (r : Nat) (h0 : Kept c0 q0 s)
    (ht : execImageLoad r s = .next u) : Kept c0 q0 u := by
  obtain rfl : _ = u := Host.Outcome.next.inj ht
  exact State.imageLoad_kept _ _ h0

theorem execRecipeLoad_kept {c0 : Cfg} {q0 : List Instr} {s u : State} (r : Nat) (d : RecipeDesc) (h0 : Kept c0 q0 s)
    (ht : execRecipeLoad r d s = .next u) : Kept c0 q0 u := by
  obtain rfl : _ = u := Host.Outcome.next.inj ht
  exact State.recipeLoad_kept _ _ _ h0

theorem execRecipeUnload_kept {c0 : Cfg} {q0 : List Instr} {s u : State} (r : Nat) (h0 : Kept c0 q0 s)
    (ht : execRecipeUnload r s = .next u) : Kept c0 q0 u := by
  obtain rfl : _ = u := Host.Outcome.next.inj ht
  exact State.recipeUnload_kept _ _ h0

theorem execDescriptorPost_kept {c0 : Cfg} {q0 : List Instr} {s u : State} (t : Nat) (h0 : Kept c0 q0 s)
    (ht : execDescriptorPost t s = .next u) : Kept c0 q0 u := by
  obtain rfl : _ = u := Host.Outcome.next.inj ht
  exact State.postDesc_kept _ _ h0

theorem execRankRefresh_kept {c0 : Cfg} {q0 : List Instr} {s u : State}  (h0 : Kept c0 q0 s)
    (ht : execRankRefresh s = .next u) : Kept c0 q0 u := by
  obtain rfl : _ = u := Host.Outcome.next.inj ht
  repeat' (with_reducible first | assumption | apply State.pcCount_kept | apply State.refreshRanks_kept)

theorem execDeadlineRecompute_kept {c0 : Cfg} {q0 : List Instr} {s u : State}  (h0 : Kept c0 q0 s)
    (ht : execDeadlineRecompute s = .next u) : Kept c0 q0 u := by
  obtain rfl : _ = u := Host.Outcome.next.inj ht
  repeat' (with_reducible first | assumption | apply State.recompute_kept | intro _ | apply Kept.ite | apply Kept.foldS | simp -zeta only [↓Kept.mk_iff] | split)

theorem execDeadlineExpiry_kept {c0 : Cfg} {q0 : List Instr} {s u : State} (t : Nat) (h0 : Kept c0 q0 s)
    (ht : execDeadlineExpiry t s = .next u) : Kept c0 q0 u := by
  obtain rfl : _ = u := Host.Outcome.next.inj ht
  repeat' (with_reducible first | assumption | apply State.expireJob_kept | apply State.recompute_kept)

theorem execBeStarveTimeout_kept {c0 : Cfg} {q0 : List Instr} {s u : State} (r : Nat) (h0 : Kept c0 q0 s)
    (ht : execBeStarveTimeout r s = .next u) : Kept c0 q0 u := by
  obtain rfl : _ = u := Host.Outcome.next.inj ht
  exact State.starveCheck_kept _ _ h0

theorem execGroupCompletion_kept {c0 : Cfg} {q0 : List Instr} {s u : State}  (h0 : Kept c0 q0 s)
    (ht : execGroupCompletion s = .next u) : Kept c0 q0 u := by
  obtain rfl : _ = u := Host.Outcome.next.inj ht
  exact State.groupCompletion_kept _ h0

theorem execDsCancel_kept {c0 : Cfg} {q0 : List Instr} {s u : State} (src : Src) (ring index : Nat) (all : Bool) (h0 : Kept c0 q0 s)
    (ht : execDsCancel src ring index all s = .next u) : Kept c0 q0 u := by
  obtain rfl : _ = u := Host.Outcome.next.inj ht
  exact State.dsCancel_kept _ _ _ _ _ h0

theorem execDsCancelJob_kept {c0 : Cfg} {q0 : List Instr} {s u : State} (src : Src) (job : Nat) (h0 : Kept c0 q0 s)
    (ht : execDsCancelJob src job s = .next u) : Kept c0 q0 u := by
  obtain rfl : _ = u := Host.Outcome.next.inj ht
  exact State.dsCancelJob_kept _ _ _ h0

theorem execFrozenCancelTimeout_kept {c0 : Cfg} {q0 : List Instr} {s u : State} (t : Nat) (h0 : Kept c0 q0 s)
    (ht : execFrozenCancelTimeout t s = .next u) : Kept c0 q0 u := by
  obtain rfl : _ = u := Host.Outcome.next.inj ht
  repeat' (with_reducible first | assumption | apply State.dsCancelJob_kept | intro _ | apply Kept.ite | apply Kept.foldS | simp -zeta only [↓Kept.mk_iff] | split)

theorem execDsRingCtlWrite_kept {c0 : Cfg} {q0 : List Instr} {s u : State} (src : Src) (r v : Nat) (h0 : Kept c0 q0 s)
    (ht : execDsRingCtlWrite src r v s = .next u) : Kept c0 q0 u := by
  obtain rfl : _ = u := Host.Outcome.next.inj ht
  exact State.ringCtlWrite_kept _ _ _ _ h0

theorem execRcpRunWrite_kept {c0 : Cfg} {q0 : List Instr} {s u : State} (src : Src) (n v : Nat) (h0 : Kept c0 q0 s)
    (ht : execRcpRunWrite src n v s = .next u) : Kept c0 q0 u := by
  obtain rfl : _ = u := Host.Outcome.next.inj ht
  exact State.rcpRunWrite_kept _ _ _ _ h0

theorem execStepTrigger_kept {c0 : Cfg} {q0 : List Instr} {s u : State} (n : Nat) (h0 : Kept c0 q0 s)
    (ht : execStepTrigger n s = .next u) : Kept c0 q0 u := by
  obtain rfl : _ = u := Host.Outcome.next.inj ht
  exact State.stepTrigger_kept _ _ h0

theorem execMarksApply_kept {c0 : Cfg} {q0 : List Instr} {s u : State} (n : Nat) (ctx : List Nat) (h0 : Kept c0 q0 s)
    (ht : execMarksApply n ctx s = .next u) : Kept c0 q0 u := by
  obtain rfl : _ = u := Host.Outcome.next.inj ht
  exact State.marksApply_kept _ _ _ h0

theorem execMarkBatchReceived_kept {c0 : Cfg} {q0 : List Instr} {s u : State} (n : Nat) (b : MarkBatch) (ctx : List Nat) (h0 : Kept c0 q0 s)
    (ht : execMarkBatchReceived n b ctx s = .next u) : Kept c0 q0 u := by
  obtain rfl : _ = u := Host.Outcome.next.inj ht
  exact State.markBatch_kept _ _ _ _ h0

theorem execMarkWaitTimeout_kept {c0 : Cfg} {q0 : List Instr} {s u : State} (n : Nat) (ctx : List Nat) (h0 : Kept c0 q0 s)
    (ht : execMarkWaitTimeout n ctx s = .next u) : Kept c0 q0 u := by
  obtain rfl : _ = u := Host.Outcome.next.inj ht
  exact State.markTimeout_kept _ _ _ h0

theorem execInferGroupEnd_kept {c0 : Cfg} {q0 : List Instr} {s u : State} (n : Nat) (h0 : Kept c0 q0 s)
    (ht : execInferGroupEnd n s = .next u) : Kept c0 q0 u := by
  obtain rfl : _ = u := Host.Outcome.next.inj ht
  exact State.inferEnd_kept _ _ h0

theorem execVerdictWordWrite_kept {c0 : Cfg} {q0 : List Instr} {s u : State} (n i w : Nat) (h0 : Kept c0 q0 s)
    (ht : execVerdictWordWrite n i w s = .next u) : Kept c0 q0 u := by
  obtain rfl : _ = u := Host.Outcome.next.inj ht
  exact State.verdictWrite_kept _ _ _ _ h0

theorem execPartDeadlineExpiry_kept {c0 : Cfg} {q0 : List Instr} {s u : State} (n ordinal : Nat) (h0 : Kept c0 q0 s)
    (ht : execPartDeadlineExpiry n ordinal s = .next u) : Kept c0 q0 u := by
  obtain rfl : _ = u := Host.Outcome.next.inj ht
  exact State.partDeadlineExpiry_kept _ _ _ h0

theorem execAuPostSubmit_kept {c0 : Cfg} {q0 : List Instr} {s u : State} (w7 : Nat) (h0 : Kept c0 q0 s)
    (ht : execAuPostSubmit w7 s = .next u) : Kept c0 q0 u := by
  obtain rfl : _ = u := Host.Outcome.next.inj ht
  exact State.auPost_kept _ _ h0

theorem execAuMpostSubmit_kept {c0 : Cfg} {q0 : List Instr} {s u : State} (w7 : Nat) (h0 : Kept c0 q0 s)
    (ht : execAuMpostSubmit w7 s = .next u) : Kept c0 q0 u := by
  obtain rfl : _ = u := Host.Outcome.next.inj ht
  exact State.auMpost_kept _ _ h0

theorem execCountTriggerFire_kept {c0 : Cfg} {q0 : List Instr} {s u : State} (i : Nat) (h0 : Kept c0 q0 s)
    (ht : execCountTriggerFire i s = .next u) : Kept c0 q0 u := by
  obtain rfl : _ = u := Host.Outcome.next.inj ht
  repeat' (with_reducible first | assumption | apply State.post_kept | apply State.fireEntry_kept | intro _ | apply Kept.ite | apply Kept.foldS | simp -zeta only [↓Kept.mk_iff] | split)

theorem execPredictionTriggerFire_kept {c0 : Cfg} {q0 : List Instr} {s u : State} (i : Nat) (h0 : Kept c0 q0 s)
    (ht : execPredictionTriggerFire i s = .next u) : Kept c0 q0 u := by
  obtain rfl : _ = u := Host.Outcome.next.inj ht
  repeat' (with_reducible first | assumption | apply State.post_kept | apply State.guardCycle_kept | apply State.fireEntry_kept | intro _ | apply Kept.ite | apply Kept.foldS | simp -zeta only [↓Kept.mk_iff] | (extract_lets +onlyGivenNames x; first | (refine Kept.cut (P := Kept c0 q0 x) ?_ ?_; rotate_left; (intro _; clear_value x); rotate_left; unfold x; clear x) | clear_value x) | split)

theorem execTtTriggerFire_kept {c0 : Cfg} {q0 : List Instr} {s u : State} (i : Nat) (h0 : Kept c0 q0 s)
    (ht : execTtTriggerFire i s = .next u) : Kept c0 q0 u := by
  obtain rfl : _ = u := Host.Outcome.next.inj ht
  repeat' (with_reducible first | assumption | apply State.post_kept | apply State.fireEntry_kept | intro _ | apply Kept.ite | apply Kept.foldS | simp -zeta only [↓Kept.mk_iff] | split)

theorem execPulseEnd_kept {c0 : Cfg} {q0 : List Instr} {s u : State} (i : Nat) (h0 : Kept c0 q0 s)
    (ht : execPulseEnd i s = .next u) : Kept c0 q0 u := by
  obtain rfl : _ = u := Host.Outcome.next.inj ht
  repeat' (with_reducible first | assumption | apply State.endPulse_kept | intro _ | apply Kept.ite | apply Kept.foldS | simp -zeta only [↓Kept.mk_iff] | split)

theorem execPulseTruncated_kept {c0 : Cfg} {q0 : List Instr} {s u : State} (i : Nat) (h0 : Kept c0 q0 s)
    (ht : execPulseTruncated i s = .next u) : Kept c0 q0 u := by
  obtain rfl : _ = u := Host.Outcome.next.inj ht
  repeat' (with_reducible first | assumption | apply State.post_kept | apply State.postLim_kept | apply State.endPulse_kept | intro _ | apply Kept.ite | apply Kept.foldS | simp -zeta only [↓Kept.mk_iff] | split)

theorem execMinGapExpiry_kept {c0 : Cfg} {q0 : List Instr} {s u : State} (o : Nat) (h0 : Kept c0 q0 s)
    (ht : execMinGapExpiry o s = .next u) : Kept c0 q0 u := by
  obtain rfl : _ = u := Host.Outcome.next.inj ht
  repeat' (with_reducible first | assumption | apply State.outIdle_kept | intro _ | apply Kept.ite | apply Kept.foldS | simp -zeta only [↓Kept.mk_iff] | split)

theorem execAuCancel_kept {c0 : Cfg} {q0 : List Instr} {s u : State} (entry : Nat) (all : Bool) (h0 : Kept c0 q0 s)
    (ht : execAuCancel entry all s = .next u) : Kept c0 q0 u := by
  obtain rfl : _ = u := Host.Outcome.next.inj ht
  exact State.auCancel_kept _ _ _ h0

theorem execAuCancelOut_kept {c0 : Cfg} {q0 : List Instr} {s u : State} (o : Nat) (h0 : Kept c0 q0 s)
    (ht : execAuCancelOut o s = .next u) : Kept c0 q0 u := by
  obtain rfl : _ = u := Host.Outcome.next.inj ht
  exact State.auCancelOut_kept _ _ h0

theorem execEntryExpire_kept {c0 : Cfg} {q0 : List Instr} {s u : State} (i : Nat) (h0 : Kept c0 q0 s)
    (ht : execEntryExpire i s = .next u) : Kept c0 q0 u := by
  obtain rfl : _ = u := Host.Outcome.next.inj ht
  repeat' (with_reducible first | assumption | apply State.post_kept | apply State.setTable_kept | apply State.discardEvent_kept | intro _ | apply Kept.ite | apply Kept.foldS | simp -zeta only [↓Kept.mk_iff] | split)

theorem execAuCtlWrite_kept {c0 : Cfg} {q0 : List Instr} {s u : State} (src : Src) (v : Nat) (h0 : Kept c0 q0 s)
    (ht : execAuCtlWrite src v s = .next u) : Kept c0 q0 u := by
  obtain rfl : _ = u := Host.Outcome.next.inj ht
  exact State.auCtlWrite_kept _ _ _ h0

theorem execAuOutCfgWrite_kept {c0 : Cfg} {q0 : List Instr} {s u : State} (src : Src) (o v : Nat) (h0 : Kept c0 q0 s)
    (ht : execAuOutCfgWrite src o v s = .next u) : Kept c0 q0 u := by
  obtain rfl : _ = u := Host.Outcome.next.inj ht
  exact State.auOutCfgWrite_kept _ _ _ _ h0

theorem execFabricTransaction_kept {c0 : Cfg} {q0 : List Instr} {s u : State} (mst : Nat) (write : Bool) (word len eng : Nat) (data : List (Option Byte)) (h0 : Kept c0 q0 s)
    (ht : execFabricTransaction mst write word len eng data s = .next u) : Kept c0 q0 u := by
  obtain rfl : _ = u := Host.Outcome.next.inj ht
  repeat' (with_reducible first | assumption | apply State.present_kept | intro _ | apply Kept.ite | apply Kept.foldS | simp -zeta only [↓Kept.mk_iff] | split)

theorem execWriteAcknowledgement_kept {c0 : Cfg} {q0 : List Instr} {s u : State} (target : Nat) (bad : List Nat) (h0 : Kept c0 q0 s)
    (ht : execWriteAcknowledgement target bad s = .next u) : Kept c0 q0 u := by
  obtain rfl : _ = u := Host.Outcome.next.inj ht
  exact State.commitBeat_kept _ _ _ _ regPort_keeps h0

theorem execReadResponse_kept {c0 : Cfg} {q0 : List Instr} {s u : State} (target : Nat) (fixed bad : List Nat) (h0 : Kept c0 q0 s)
    (ht : execReadResponse target fixed bad s = .next u) : Kept c0 q0 u := by
  obtain rfl : _ = u := Host.Outcome.next.inj ht
  exact State.readBeat_kept _ _ _ _ _ regPort_keeps h0

theorem execHoardEccWriteback_kept {c0 : Cfg} {q0 : List Instr} {s u : State} (bank : Nat) (h0 : Kept c0 q0 s)
    (ht : execHoardEccWriteback bank s = .next u) : Kept c0 q0 u := by
  obtain rfl : _ = u := Host.Outcome.next.inj ht
  exact State.writeBack_kept _ _ h0

theorem execBurrowReadData_kept {c0 : Cfg} {q0 : List Instr} {s u : State} (p tag resp : Nat) (h0 : Kept c0 q0 s)
    (ht : execBurrowReadData p tag resp s = .next u) : Kept c0 q0 u := by
  obtain rfl : _ = u := Host.Outcome.next.inj ht
  exact State.burrowRead_kept _ _ _ _ h0

theorem execBurrowWriteAck_kept {c0 : Cfg} {q0 : List Instr} {s u : State} (p tag resp : Nat) (h0 : Kept c0 q0 s)
    (ht : execBurrowWriteAck p tag resp s = .next u) : Kept c0 q0 u := by
  obtain rfl : _ = u := Host.Outcome.next.inj ht
  exact State.burrowAck_kept _ _ _ _ h0

theorem execBurrowCorrectedRewrite_kept {c0 : Cfg} {q0 : List Instr} {s u : State} (p : Nat) (h0 : Kept c0 q0 s)
    (ht : execBurrowCorrectedRewrite p s = .next u) : Kept c0 q0 u := by
  obtain rfl : _ = u := Host.Outcome.next.inj ht
  exact State.burrowRewrite_kept _ _ h0

theorem execBurrowPhyReady_kept {c0 : Cfg} {q0 : List Instr} {s u : State} (p : Nat) (ready : Bool) (size : Nat) (h0 : Kept c0 q0 s)
    (ht : execBurrowPhyReady p ready size s = .next u) : Kept c0 q0 u := by
  obtain rfl : _ = u := Host.Outcome.next.inj ht
  exact State.phyReady_kept _ _ _ _ h0

theorem execFbBrwCfgWrite_kept {c0 : Cfg} {q0 : List Instr} {s u : State} (src : Src) (p v : Nat) (h0 : Kept c0 q0 s)
    (ht : execFbBrwCfgWrite src p v s = .next u) : Kept c0 q0 u := by
  obtain rfl : _ = u := Host.Outcome.next.inj ht
  exact State.brwCfgWrite_kept _ _ _ _ h0

theorem execBurrowFillDone_kept {c0 : Cfg} {q0 : List Instr} {s u : State} (p : Nat) (h0 : Kept c0 q0 s)
    (ht : execBurrowFillDone p s = .next u) : Kept c0 q0 u := by
  obtain rfl : _ = u := Host.Outcome.next.inj ht
  exact State.fillDone_kept _ _ h0

theorem execScrubRead_kept {c0 : Cfg} {q0 : List Instr} {s u : State} (k : Nat) (fixed bad : List Nat) (resp : Nat) (h0 : Kept c0 q0 s)
    (ht : execScrubRead k fixed bad resp s = .next u) : Kept c0 q0 u := by
  obtain rfl : _ = u := Host.Outcome.next.inj ht
  exact State.scrubRead_kept _ _ _ _ _ h0

theorem execScrubBehind_kept {c0 : Cfg} {q0 : List Instr} {s u : State} (k : Nat) (h0 : Kept c0 q0 s)
    (ht : execScrubBehind k s = .next u) : Kept c0 q0 u := by
  obtain rfl : _ = u := Host.Outcome.next.inj ht
  exact State.scrubLate_kept _ _ h0

theorem execPortReset_kept {c0 : Cfg} {q0 : List Instr} {s u : State} (src : Src) (v : Nat) (h0 : Kept c0 q0 s)
    (ht : execPortReset src v s = .next u) : Kept c0 q0 u := by
  obtain rfl : _ = u := Host.Outcome.next.inj ht
  exact State.portReset_kept _ _ _ h0

theorem execPortResetDone_kept {c0 : Cfg} {q0 : List Instr} {s u : State} (target : Bool) (id : Nat) (h0 : Kept c0 q0 s)
    (ht : execPortResetDone target id s = .next u) : Kept c0 q0 u := by
  obtain rfl : _ = u := Host.Outcome.next.inj ht
  exact State.portResetDone_kept _ _ _ h0

theorem execBurrowStallTimeout_kept {c0 : Cfg} {q0 : List Instr} {s u : State} (p : Nat) (h0 : Kept c0 q0 s)
    (ht : execBurrowStallTimeout p s = .next u) : Kept c0 q0 u := by
  obtain rfl : _ = u := Host.Outcome.next.inj ht
  exact State.burrowStall_kept _ _ h0

theorem execBurrowRecoveryTimeout_kept {c0 : Cfg} {q0 : List Instr} {s u : State} (p : Nat) (h0 : Kept c0 q0 s)
    (ht : execBurrowRecoveryTimeout p s = .next u) : Kept c0 q0 u := by
  obtain rfl : _ = u := Host.Outcome.next.inj ht
  exact State.burrowDownPost_kept _ _ h0

theorem execRemapWrite_kept {c0 : Cfg} {q0 : List Instr} {s u : State} (src : Src) (v : Nat) (h0 : Kept c0 q0 s)
    (ht : execRemapWrite src v s = .next u) : Kept c0 q0 u := by
  obtain rfl : _ = u := Host.Outcome.next.inj ht
  exact State.remapWrite_kept _ _ _ h0

theorem execHoardZeroDone_kept {c0 : Cfg} {q0 : List Instr} {s u : State}  (h0 : Kept c0 q0 s)
    (ht : execHoardZeroDone s = .next u) : Kept c0 q0 u := by
  obtain rfl : _ = u := Host.Outcome.next.inj ht
  exact State.hoardZeroed_kept _ h0

theorem execQuillFrameReceived_kept {c0 : Cfg} {q0 : List Instr} {s u : State} (p stamp : Nat) (frame : List Byte) (h0 : Kept c0 q0 s)
    (ht : execQuillFrameReceived p stamp frame s = .next u) : Kept c0 q0 u := by
  obtain rfl : _ = u := Host.Outcome.next.inj ht
  exact State.frameIn_kept _ _ _ _ h0

theorem execQuillFrameTransmit_kept {c0 : Cfg} {q0 : List Instr} {s u : State} (p : Nat) (h0 : Kept c0 q0 s)
    (ht : execQuillFrameTransmit p s = .next u) : Kept c0 q0 u := by
  obtain rfl : _ = u := Host.Outcome.next.inj ht
  repeat' (with_reducible first | assumption | apply State.frameOut_kept | apply State.sendTime_kept | apply State.distPump_kept | intro _ | apply Kept.ite | apply Kept.foldS | simp -zeta only [↓Kept.mk_iff] | split)

theorem execQpDefectTimer_kept {c0 : Cfg} {q0 : List Instr} {s u : State} (p d : Nat) (on : Bool) (h0 : Kept c0 q0 s)
    (ht : execQpDefectTimer p d on s = .next u) : Kept c0 q0 u := by
  obtain rfl : _ = u := Host.Outcome.next.inj ht
  exact State.defectTimer_kept _ _ _ _ h0

theorem execMemberControlTimeout_kept {c0 : Cfg} {q0 : List Instr} {s u : State} (i k : Nat) (h0 : Kept c0 q0 s)
    (ht : execMemberControlTimeout i k s = .next u) : Kept c0 q0 u := by
  obtain rfl : _ = u := Host.Outcome.next.inj ht
  exact State.controlTimeout_kept _ _ _ h0

theorem execMemberRestore_kept {c0 : Cfg} {q0 : List Instr} {s u : State} (i k : Nat) (h0 : Kept c0 q0 s)
    (ht : execMemberRestore i k s = .next u) : Kept c0 q0 u := by
  obtain rfl : _ = u := Host.Outcome.next.inj ht
  exact State.memberRestore_kept _ _ _ h0

theorem execMapChangeStart_kept {c0 : Cfg} {q0 : List Instr} {s u : State} (i : Nat) (h0 : Kept c0 q0 s)
    (ht : execMapChangeStart i s = .next u) : Kept c0 q0 u := by
  obtain rfl : _ = u := Host.Outcome.next.inj ht
  exact State.mapStart_kept _ _ h0

theorem execMapApply_kept {c0 : Cfg} {q0 : List Instr} {s u : State} (i : Nat) (h0 : Kept c0 q0 s)
    (ht : execMapApply i s = .next u) : Kept c0 q0 u := by
  obtain rfl : _ = u := Host.Outcome.next.inj ht
  exact State.mapApply_kept _ _ h0

theorem execMapChangeLate_kept {c0 : Cfg} {q0 : List Instr} {s u : State} (i : Nat) (h0 : Kept c0 q0 s)
    (ht : execMapChangeLate i s = .next u) : Kept c0 q0 u := by
  obtain rfl : _ = u := Host.Outcome.next.inj ht
  exact State.mapLate_kept _ _ h0

theorem execGroupFrameRelease_kept {c0 : Cfg} {q0 : List Instr} {s u : State} (i : Nat) (bad : List Nat) (h0 : Kept c0 q0 s)
    (ht : execGroupFrameRelease i bad s = .next u) : Kept c0 q0 u := by
  obtain rfl : _ = u := Host.Outcome.next.inj ht
  exact State.groupRelease_kept _ _ _ h0

theorem execDeskewDelayExpiry_kept {c0 : Cfg} {q0 : List Instr} {s u : State} (i : Nat) (bad : List Nat) (h0 : Kept c0 q0 s)
    (ht : execDeskewDelayExpiry i bad s = .next u) : Kept c0 q0 u := by
  obtain rfl : _ = u := Host.Outcome.next.inj ht
  exact State.deskewExpiry_kept _ _ _ h0

theorem execQpConfigWrite_kept {c0 : Cfg} {q0 : List Instr} {s u : State} (src : Src) (p : Nat) (deskew : Bool) (v : Nat) (h0 : Kept c0 q0 s)
    (ht : execQpConfigWrite src p deskew v s = .next u) : Kept c0 q0 u := by
  obtain rfl : _ = u := Host.Outcome.next.inj ht
  exact State.qpConfig_kept _ _ _ _ _ h0

theorem execAck_kept {c0 : Cfg} {q0 : List Instr} {s u : State} (i : Nat) (h0 : Kept c0 q0 s)
    (ht : execAck i s = .next u) : Kept c0 q0 u := by
  obtain rfl : _ = u := Host.Outcome.next.inj ht
  exact State.ackWord_kept _ _ h0

theorem execResend_kept {c0 : Cfg} {q0 : List Instr} {s u : State} (i : Nat) (h0 : Kept c0 q0 s)
    (ht : execResend i s = .next u) : Kept c0 q0 u := by
  obtain rfl : _ = u := Host.Outcome.next.inj ht
  exact State.resendWord_kept _ _ h0

theorem execResendTimeout_kept {c0 : Cfg} {q0 : List Instr} {s u : State} (i : Nat) (h0 : Kept c0 q0 s)
    (ht : execResendTimeout i s = .next u) : Kept c0 q0 u := by
  obtain rfl : _ = u := Host.Outcome.next.inj ht
  exact State.resendTimeout_kept _ _ h0

theorem execRemoteAccessSend_kept {c0 : Cfg} {q0 : List Instr} {s u : State}  (h0 : Kept c0 q0 s)
    (ht : execRemoteAccessSend s = .next u) : Kept c0 q0 u := by
  obtain rfl : _ = u := Host.Outcome.next.inj ht
  exact State.remoteSend_kept _ h0

theorem execTidWaitTimeout_kept {c0 : Cfg} {q0 : List Instr} {s u : State}  (h0 : Kept c0 q0 s)
    (ht : execTidWaitTimeout s = .next u) : Kept c0 q0 u := by
  obtain rfl : _ = u := Host.Outcome.next.inj ht
  exact State.tidTimeout_kept _ h0

theorem execRemoteTimeout_kept {c0 : Cfg} {q0 : List Instr} {s u : State} (tid : Nat) (h0 : Kept c0 q0 s)
    (ht : execRemoteTimeout tid s = .next u) : Kept c0 q0 u := by
  obtain rfl : _ = u := Host.Outcome.next.inj ht
  exact State.remoteTimeout_kept _ _ h0

theorem execWrite_kept {c0 : Cfg} {q0 : List Instr} {s u : State} (i : Nat) (err : Bool) (h0 : Kept c0 q0 s)
    (ht : execWrite i err s = .next u) : Kept c0 q0 u := by
  obtain rfl : _ = u := Host.Outcome.next.inj ht
  repeat' (with_reducible first | assumption | apply State.onMsg_kept | apply State.inWrite_kept | intro _ | apply Kept.ite | apply Kept.foldS | simp -zeta only [↓Kept.mk_iff] | split)

theorem execWriteAck_kept {c0 : Cfg} {q0 : List Instr} {s u : State} (i : Nat) (h0 : Kept c0 q0 s)
    (ht : execWriteAck i s = .next u) : Kept c0 q0 u := by
  obtain rfl : _ = u := Host.Outcome.next.inj ht
  repeat' (with_reducible first | assumption | apply State.onMsg_kept | apply State.response_kept | intro _ | apply Kept.ite | apply Kept.foldS | simp -zeta only [↓Kept.mk_iff] | split)

theorem execReadReq_kept {c0 : Cfg} {q0 : List Instr} {s u : State} (i : Nat) (err : Bool) (h0 : Kept c0 q0 s)
    (ht : execReadReq i err s = .next u) : Kept c0 q0 u := by
  obtain rfl : _ = u := Host.Outcome.next.inj ht
  repeat' (with_reducible first | assumption | apply State.onMsg_kept | apply State.inRead_kept | intro _ | apply Kept.ite | apply Kept.foldS | simp -zeta only [↓Kept.mk_iff] | split)

theorem execReadResp_kept {c0 : Cfg} {q0 : List Instr} {s u : State} (i : Nat) (h0 : Kept c0 q0 s)
    (ht : execReadResp i s = .next u) : Kept c0 q0 u := by
  obtain rfl : _ = u := Host.Outcome.next.inj ht
  repeat' (with_reducible first | assumption | apply State.onMsg_kept | apply State.response_kept | intro _ | apply Kept.ite | apply Kept.foldS | simp -zeta only [↓Kept.mk_iff] | split)

theorem execQuillSignal_kept {c0 : Cfg} {q0 : List Instr} {s u : State} (i : Nat) (h0 : Kept c0 q0 s)
    (ht : execQuillSignal i s = .next u) : Kept c0 q0 u := by
  obtain rfl : _ = u := Host.Outcome.next.inj ht
  repeat' (with_reducible first | assumption | apply State.onMsg_kept | apply State.inSignal_kept | intro _ | apply Kept.ite | apply Kept.foldS | simp -zeta only [↓Kept.mk_iff] | split)

theorem execActPost_kept {c0 : Cfg} {q0 : List Instr} {s u : State} (i : Nat) (h0 : Kept c0 q0 s)
    (ht : execActPost i s = .next u) : Kept c0 q0 u := by
  obtain rfl : _ = u := Host.Outcome.next.inj ht
  repeat' (with_reducible first | assumption | apply State.onMsg_kept | apply State.inActPost_kept | intro _ | apply Kept.ite | apply Kept.foldS | simp -zeta only [↓Kept.mk_iff] | split)

theorem execActStatus_kept {c0 : Cfg} {q0 : List Instr} {s u : State} (i : Nat) (h0 : Kept c0 q0 s)
    (ht : execActStatus i s = .next u) : Kept c0 q0 u := by
  obtain rfl : _ = u := Host.Outcome.next.inj ht
  repeat' (with_reducible first | assumption | apply State.onMsg_kept | apply State.response_kept | intro _ | apply Kept.ite | apply Kept.foldS | simp -zeta only [↓Kept.mk_iff] | split)

theorem execBcast_kept {c0 : Cfg} {q0 : List Instr} {s u : State} (i len : Nat) (h0 : Kept c0 q0 s)
    (ht : execBcast i len s = .next u) : Kept c0 q0 u := by
  obtain rfl : _ = u := Host.Outcome.next.inj ht
  split
  · next heq => exact State.inBcast_kept _ _ _ (State.takeMsg_kept heq h0)
  · exact h0

theorem execUndeliverable_kept {c0 : Cfg} {q0 : List Instr} {s u : State} (i : Nat) (h0 : Kept c0 q0 s)
    (ht : execUndeliverable i s = .next u) : Kept c0 q0 u := by
  obtain rfl : _ = u := Host.Outcome.next.inj ht
  repeat' (with_reducible first | assumption | apply State.onMsg_kept | apply State.inUndeliverable_kept | intro _ | apply Kept.ite | apply Kept.foldS | simp -zeta only [↓Kept.mk_iff] | split)

theorem execDetourReq_kept {c0 : Cfg} {q0 : List Instr} {s u : State} (dim : Nat) (h0 : Kept c0 q0 s)
    (ht : execDetourReq dim s = .next u) : Kept c0 q0 u := by
  obtain rfl : _ = u := Host.Outcome.next.inj ht
  repeat' (with_reducible first | assumption | apply State.detReq_kept | apply State.onDetour_kept)

theorem execDetourGrant_kept {c0 : Cfg} {q0 : List Instr} {s u : State} (dim : Nat) (h0 : Kept c0 q0 s)
    (ht : execDetourGrant dim s = .next u) : Kept c0 q0 u := by
  obtain rfl : _ = u := Host.Outcome.next.inj ht
  repeat' (with_reducible first | assumption | apply State.detGrant_kept | apply State.onDetour_kept)

theorem execDetourRefuse_kept {c0 : Cfg} {q0 : List Instr} {s u : State} (dim : Nat) (h0 : Kept c0 q0 s)
    (ht : execDetourRefuse dim s = .next u) : Kept c0 q0 u := by
  obtain rfl : _ = u := Host.Outcome.next.inj ht
  repeat' (with_reducible first | assumption | apply State.detRefuse_kept | apply State.onDetour_kept)

theorem execDetourEnd_kept {c0 : Cfg} {q0 : List Instr} {s u : State} (dim : Nat) (h0 : Kept c0 q0 s)
    (ht : execDetourEnd dim s = .next u) : Kept c0 q0 u := by
  obtain rfl : _ = u := Host.Outcome.next.inj ht
  repeat' (with_reducible first | assumption | apply State.detEndMsg_kept | apply State.onDetour_kept)

theorem execTime_kept {c0 : Cfg} {q0 : List Instr} {s u : State} (i : Nat) (phase : Int) (tick : Nat) (h0 : Kept c0 q0 s)
    (ht : execTime i phase tick s = .next u) : Kept c0 q0 u := by
  obtain rfl : _ = u := Host.Outcome.next.inj ht
  repeat' (with_reducible first | assumption | apply State.timeMessage_kept | apply State.onMsg_kept | intro _ | apply Kept.ite | apply Kept.foldS | simp -zeta only [↓Kept.mk_iff] | split)

theorem execDistDone_kept {c0 : Cfg} {q0 : List Instr} {s u : State} (i id status : Nat) (h0 : Kept c0 q0 s)
    (ht : execDistDone i id status s = .next u) : Kept c0 q0 u := by
  obtain rfl : _ = u := Host.Outcome.next.inj ht
  repeat' (with_reducible first | assumption | apply State.onMsg_kept | apply State.distReport_kept | intro _ | apply Kept.ite | apply Kept.foldS | simp -zeta only [↓Kept.mk_iff] | split)

theorem execReservedMessage_kept {c0 : Cfg} {q0 : List Instr} {s u : State} (i : Nat) (h0 : Kept c0 q0 s)
    (ht : execReservedMessage i s = .next u) : Kept c0 q0 u := by
  obtain rfl : _ = u := Host.Outcome.next.inj ht
  repeat' (with_reducible first | assumption | apply State.setQg_kept | intro _ | apply Kept.ite | apply Kept.foldS | simp -zeta only [↓Kept.mk_iff] | (extract_lets +onlyGivenNames x; first | (refine Kept.cut (P := Kept c0 q0 x) ?_ ?_; rotate_left; (intro _; clear_value x); rotate_left; unfold x; clear x) | clear_value x) | split)

theorem execDetourPlanHoldExpiry_kept {c0 : Cfg} {q0 : List Instr} {s u : State} (i : Nat) (h0 : Kept c0 q0 s)
    (ht : execDetourPlanHoldExpiry i s = .next u) : Kept c0 q0 u := by
  obtain rfl : _ = u := Host.Outcome.next.inj ht
  exact State.planHold_kept _ _ h0

theorem execDirectRestoreHoldExpiry_kept {c0 : Cfg} {q0 : List Instr} {s u : State} (i : Nat) (h0 : Kept c0 q0 s)
    (ht : execDirectRestoreHoldExpiry i s = .next u) : Kept c0 q0 u := by
  obtain rfl : _ = u := Host.Outcome.next.inj ht
  exact State.restoreHold_kept _ _ h0

theorem execQmDistCmd_kept {c0 : Cfg} {q0 : List Instr} {s u : State} (src dst len id : Nat) (rack : Bool) (h0 : Kept c0 q0 s)
    (ht : execQmDistCmd src dst len id rack s = .next u) : Kept c0 q0 u := by
  obtain rfl : _ = u := Host.Outcome.next.inj ht
  exact State.distCmd_kept _ _ _ _ _ _ h0

theorem execDistTimeout_kept {c0 : Cfg} {q0 : List Instr} {s u : State}  (h0 : Kept c0 q0 s)
    (ht : execDistTimeout s = .next u) : Kept c0 q0 u := by
  obtain rfl : _ = u := Host.Outcome.next.inj ht
  exact State.distTimeout_kept _ h0

theorem execQmMemberCmd_kept {c0 : Cfg} {q0 : List Instr} {s u : State} (v : Nat) (h0 : Kept c0 q0 s)
    (ht : execQmMemberCmd v s = .next u) : Kept c0 q0 u := by
  obtain rfl : _ = u := Host.Outcome.next.inj ht
  exact State.memberCmd_kept _ _ h0

theorem execQmIdWrite_kept {c0 : Cfg} {q0 : List Instr} {s u : State} (src : Src) (w : Option Nat) (v : Nat) (h0 : Kept c0 q0 s)
    (ht : execQmIdWrite src w v s = .next u) : Kept c0 q0 u := by
  obtain rfl : _ = u := Host.Outcome.next.inj ht
  exact State.qmIdWrite_kept _ _ _ _ h0

theorem execAuditOpen_kept {c0 : Cfg} {q0 : List Instr} {s u : State} (src : Src) (k : Nat) (h0 : Kept c0 q0 s)
    (ht : execAuditOpen src k s = .next u) : Kept c0 q0 u := by
  obtain rfl : _ = u := Host.Outcome.next.inj ht
  exact State.audOpenCmd_kept _ _ _ h0

theorem execAuditOpenComplete_kept {c0 : Cfg} {q0 : List Instr} {s u : State} (k : Nat) (err : Bool) (h0 : Kept c0 q0 s)
    (ht : execAuditOpenComplete k err s = .next u) : Kept c0 q0 u := by
  obtain rfl : _ = u := Host.Outcome.next.inj ht
  exact State.audOpenDone_kept _ _ _ h0

theorem execAuditSeal_kept {c0 : Cfg} {q0 : List Instr} {s u : State} (src : Src) (k : Nat) (flashOk : Bool) (h0 : Kept c0 q0 s)
    (ht : execAuditSeal src k flashOk s = .next u) : Kept c0 q0 u := by
  obtain rfl : _ = u := Host.Outcome.next.inj ht
  exact State.audSealCmd_kept _ _ _ _ h0

theorem execAuditSealComplete_kept {c0 : Cfg} {q0 : List Instr} {s u : State} (k : Nat) (err : Bool) (h0 : Kept c0 q0 s)
    (ht : execAuditSealComplete k err s = .next u) : Kept c0 q0 u := by
  obtain rfl : _ = u := Host.Outcome.next.inj ht
  exact State.audSealDone_kept _ _ _ h0

theorem execAuditClose_kept {c0 : Cfg} {q0 : List Instr} {s u : State} (src : Src) (k : Nat) (h0 : Kept c0 q0 s)
    (ht : execAuditClose src k s = .next u) : Kept c0 q0 u := by
  obtain rfl : _ = u := Host.Outcome.next.inj ht
  exact State.audCloseCmd_kept _ _ _ h0

theorem execAuditCloseComplete_kept {c0 : Cfg} {q0 : List Instr} {s u : State} (k : Nat) (h0 : Kept c0 q0 s)
    (ht : execAuditCloseComplete k s = .next u) : Kept c0 q0 u := by
  obtain rfl : _ = u := Host.Outcome.next.inj ht
  exact State.audCloseDone_kept _ _ h0

theorem execGcmEncrypt_kept {c0 : Cfg} {q0 : List Instr} {s u : State} (src : Src) (slot : Nat) (wrap fwkey : Bool) (rsvd : Nat) (h0 : Kept c0 q0 s)
    (ht : execGcmEncrypt src slot wrap fwkey rsvd s = .next u) : Kept c0 q0 u := by
  obtain rfl : _ = u := Host.Outcome.next.inj ht
  exact State.cuStart_kept _ _ _ h0

theorem execGcmDecrypt_kept {c0 : Cfg} {q0 : List Instr} {s u : State} (src : Src) (slot : Nat) (wrap fwkey : Bool) (rsvd : Nat) (h0 : Kept c0 q0 s)
    (ht : execGcmDecrypt src slot wrap fwkey rsvd s = .next u) : Kept c0 q0 u := by
  obtain rfl : _ = u := Host.Outcome.next.inj ht
  exact State.cuStart_kept _ _ _ h0

theorem execCmacGenerate_kept {c0 : Cfg} {q0 : List Instr} {s u : State} (src : Src) (slot : Nat) (wrap fwkey : Bool) (rsvd : Nat) (h0 : Kept c0 q0 s)
    (ht : execCmacGenerate src slot wrap fwkey rsvd s = .next u) : Kept c0 q0 u := by
  obtain rfl : _ = u := Host.Outcome.next.inj ht
  exact State.cuStart_kept _ _ _ h0

theorem execCmacVerify_kept {c0 : Cfg} {q0 : List Instr} {s u : State} (src : Src) (slot : Nat) (wrap fwkey : Bool) (rsvd : Nat) (h0 : Kept c0 q0 s)
    (ht : execCmacVerify src slot wrap fwkey rsvd s = .next u) : Kept c0 q0 u := by
  obtain rfl : _ = u := Host.Outcome.next.inj ht
  exact State.cuStart_kept _ _ _ h0

theorem execContextSave_kept {c0 : Cfg} {q0 : List Instr} {s u : State} (src : Src) (slot : Nat) (wrap fwkey : Bool) (rsvd : Nat) (h0 : Kept c0 q0 s)
    (ht : execContextSave src slot wrap fwkey rsvd s = .next u) : Kept c0 q0 u := by
  obtain rfl : _ = u := Host.Outcome.next.inj ht
  exact State.cuStart_kept _ _ _ h0

theorem execContextRestore_kept {c0 : Cfg} {q0 : List Instr} {s u : State} (src : Src) (slot : Nat) (wrap fwkey : Bool) (rsvd : Nat) (h0 : Kept c0 q0 s)
    (ht : execContextRestore src slot wrap fwkey rsvd s = .next u) : Kept c0 q0 u := by
  obtain rfl : _ = u := Host.Outcome.next.inj ht
  exact State.cuStart_kept _ _ _ h0

theorem execCipherOpComplete_kept {c0 : Cfg} {q0 : List Instr} {s u : State} (err : Bool) (h0 : Kept c0 q0 s)
    (ht : execCipherOpComplete err s = .next u) : Kept c0 q0 u := by
  obtain rfl : _ = u := Host.Outcome.next.inj ht
  repeat' (with_reducible first | assumption | apply State.cuFinish_kept | intro _ | apply Kept.ite | apply Kept.foldS | simp -zeta only [↓Kept.mk_iff] | split)

theorem execCipherQuantumExpiry_kept {c0 : Cfg} {q0 : List Instr} {s u : State} (n : Nat) (h0 : Kept c0 q0 s)
    (ht : execCipherQuantumExpiry n s = .next u) : Kept c0 q0 u := by
  obtain rfl : _ = u := Host.Outcome.next.inj ht
  exact State.cuQuantum_kept _ _ h0

theorem execCipherSuspend_kept {c0 : Cfg} {q0 : List Instr} {s u : State} (n : Nat) (h0 : Kept c0 q0 s)
    (ht : execCipherSuspend n s = .next u) : Kept c0 q0 u := by
  obtain rfl : _ = u := Host.Outcome.next.inj ht
  exact State.cuPause_kept _ _ _ h0

theorem execCipherResume_kept {c0 : Cfg} {q0 : List Instr} {s u : State}  (h0 : Kept c0 q0 s)
    (ht : execCipherResume s = .next u) : Kept c0 q0 u := by
  obtain rfl : _ = u := Host.Outcome.next.inj ht
  exact State.cuResume_kept _ h0

theorem execKeyLoad_kept {c0 : Cfg} {q0 : List Instr} {s u : State} (src : Src) (v : Nat) (h0 : Kept c0 q0 s)
    (ht : execKeyLoad src v s = .next u) : Kept c0 q0 u := by
  obtain rfl : _ = u := Host.Outcome.next.inj ht
  exact State.keyLoadWrite_kept _ _ _ h0

theorem execKeyClear_kept {c0 : Cfg} {q0 : List Instr} {s u : State} (src : Src) (v : Nat) (h0 : Kept c0 q0 s)
    (ht : execKeyClear src v s = .next u) : Kept c0 q0 u := by
  obtain rfl : _ = u := Host.Outcome.next.inj ht
  exact State.keyLoadWrite_kept _ _ _ h0

theorem execCipherSelftestDone_kept {c0 : Cfg} {q0 : List Instr} {s u : State} (fail : Option Nat) (h0 : Kept c0 q0 s)
    (ht : execCipherSelftestDone fail s = .next u) : Kept c0 q0 u := by
  obtain rfl : _ = u := Host.Outcome.next.inj ht
  repeat' (with_reducible first | assumption | apply State.post_kept | intro _ | apply Kept.ite | apply Kept.foldS | simp -zeta only [↓Kept.mk_iff] | split)

theorem execDvfsEvaluation_kept {c0 : Cfg} {q0 : List Instr} {s u : State} (c : Nat) (h0 : Kept c0 q0 s)
    (ht : execDvfsEvaluation c s = .next u) : Kept c0 q0 u := by
  obtain rfl : _ = u := Host.Outcome.next.inj ht
  exact State.dvfs_kept _ _ h0

theorem execFrequencyStep_kept {c0 : Cfg} {q0 : List Instr} {s u : State} (c : Nat) (h0 : Kept c0 q0 s)
    (ht : execFrequencyStep c s = .next u) : Kept c0 q0 u := by
  obtain rfl : _ = u := Host.Outcome.next.inj ht
  exact State.freqStep_kept _ _ h0

theorem execFrequencyRequest_kept {c0 : Cfg} {q0 : List Instr} {s u : State} (c : Nat) (h0 : Kept c0 q0 s)
    (ht : execFrequencyRequest c s = .next u) : Kept c0 q0 u := by
  obtain rfl : _ = u := Host.Outcome.next.inj ht
  exact State.freqRequest_kept _ _ h0

theorem execCpmSample_kept {c0 : Cfg} {q0 : List Instr} {s u : State} (c : Nat) (readings : List Nat) (h0 : Kept c0 q0 s)
    (ht : execCpmSample c readings s = .next u) : Kept c0 q0 u := by
  obtain rfl : _ = u := Host.Outcome.next.inj ht
  exact State.cpmSample_kept _ _ _ h0

theorem execCpmCalibration_kept {c0 : Cfg} {q0 : List Instr} {s u : State} (c : Nat) (readings : List Int) (h0 : Kept c0 q0 s)
    (ht : execCpmCalibration c readings s = .next u) : Kept c0 q0 u := by
  obtain rfl : _ = u := Host.Outcome.next.inj ht
  exact State.cpmCalibrate_kept _ _ _ h0

theorem execTuningTrial_kept {c0 : Cfg} {q0 : List Instr} {s u : State} (lane : Nat) (h0 : Kept c0 q0 s)
    (ht : execTuningTrial lane s = .next u) : Kept c0 q0 u := by
  obtain rfl : _ = u := Host.Outcome.next.inj ht
  exact State.startTrial_kept _ _ h0

theorem execTrialDwellEnd_kept {c0 : Cfg} {q0 : List Instr} {s u : State} (lane : Nat) (spoiled : Bool) (h0 : Kept c0 q0 s)
    (ht : execTrialDwellEnd lane spoiled s = .next u) : Kept c0 q0 u := by
  obtain rfl : _ = u := Host.Outcome.next.inj ht
  exact State.dwellEnd_kept _ _ _ h0

theorem execThermalRead_kept {c0 : Cfg} {q0 : List Instr} {s u : State} (site : Nat) (temp : Option Int) (h0 : Kept c0 q0 s)
    (ht : execThermalRead site temp s = .next u) : Kept c0 q0 u := by
  obtain rfl : _ = u := Host.Outcome.next.inj ht
  exact State.thermalRead_kept _ _ _ h0

theorem execCeilingStep_kept {c0 : Cfg} {q0 : List Instr} {s u : State} (c : Nat) (h0 : Kept c0 q0 s)
    (ht : execCeilingStep c s = .next u) : Kept c0 q0 u := by
  obtain rfl : _ = u := Host.Outcome.next.inj ht
  exact State.ceilingStep_kept _ _ h0

theorem execVmonSample_kept {c0 : Cfg} {q0 : List Instr} {s u : State} (m v : Nat) (h0 : Kept c0 q0 s)
    (ht : execVmonSample m v s = .next u) : Kept c0 q0 u := by
  obtain rfl : _ = u := Host.Outcome.next.inj ht
  exact State.vmonSample_kept _ _ _ h0

theorem execSupplyFaultClear_kept {c0 : Cfg} {q0 : List Instr} {s u : State} (m : Nat) (h0 : Kept c0 q0 s)
    (ht : execSupplyFaultClear m s = .next u) : Kept c0 q0 u := by
  obtain rfl : _ = u := Host.Outcome.next.inj ht
  exact State.supplyClear_kept _ _ h0

theorem execFanKickTimeout_kept {c0 : Cfg} {q0 : List Instr} {s u : State} (f : Nat) (h0 : Kept c0 q0 s)
    (ht : execFanKickTimeout f s = .next u) : Kept c0 q0 u := by
  obtain rfl : _ = u := Host.Outcome.next.inj ht
  exact State.kickTimeout_kept _ _ h0

theorem execFanRpmUpdate_kept {c0 : Cfg} {q0 : List Instr} {s u : State} (f period : Nat) (h0 : Kept c0 q0 s)
    (ht : execFanRpmUpdate f period s = .next u) : Kept c0 q0 u := by
  obtain rfl : _ = u := Host.Outcome.next.inj ht
  exact State.rpmUpdate_kept _ _ _ h0

theorem execFanTachTimeout_kept {c0 : Cfg} {q0 : List Instr} {s u : State} (f : Nat) (h0 : Kept c0 q0 s)
    (ht : execFanTachTimeout f s = .next u) : Kept c0 q0 u := by
  obtain rfl : _ = u := Host.Outcome.next.inj ht
  exact State.tachTimeout_kept _ _ h0

theorem execFanTachRestored_kept {c0 : Cfg} {q0 : List Instr} {s u : State} (f : Nat) (h0 : Kept c0 q0 s)
    (ht : execFanTachRestored f s = .next u) : Kept c0 q0 u := by
  obtain rfl : _ = u := Host.Outcome.next.inj ht
  exact State.tachRestored_kept _ _ h0

theorem execBringupPhaseDone_kept {c0 : Cfg} {q0 : List Instr} {s u : State}  (h0 : Kept c0 q0 s)
    (ht : execBringupPhaseDone s = .next u) : Kept c0 q0 u := by
  obtain rfl : _ = u := Host.Outcome.next.inj ht
  exact State.phaseStep_kept _ h0

theorem execBringupWaitExpired_kept {c0 : Cfg} {q0 : List Instr} {s u : State}  (h0 : Kept c0 q0 s)
    (ht : execBringupWaitExpired s = .next u) : Kept c0 q0 u := by
  obtain rfl : _ = u := Host.Outcome.next.inj ht
  exact State.waitExpired_kept _ h0

theorem execLifecycleWarmReset_kept {c0 : Cfg} {q0 : List Instr} {s u : State} (src : Src) (h0 : Kept c0 q0 s)
    (ht : execLifecycleWarmReset src s = .next u) : Kept c0 q0 u := by
  obtain rfl : _ = u := Host.Outcome.next.inj ht
  exact State.lifeWarm_kept _ _ h0

theorem execLifecycleShutdown_kept {c0 : Cfg} {q0 : List Instr} {s u : State} (src : Src) (h0 : Kept c0 q0 s)
    (ht : execLifecycleShutdown src s = .next u) : Kept c0 q0 u := by
  obtain rfl : _ = u := Host.Outcome.next.inj ht
  exact State.lifeStop_kept _ _ h0

theorem execDrainComplete_kept {c0 : Cfg} {q0 : List Instr} {s u : State} (ok1 ok2 : Bool) (h0 : Kept c0 q0 s)
    (ht : execDrainComplete ok1 ok2 s = .next u) : Kept c0 q0 u := by
  obtain rfl : _ = u := Host.Outcome.next.inj ht
  exact State.drainStep_kept _ _ _ h0

theorem execDrainTimeout_kept {c0 : Cfg} {q0 : List Instr} {s u : State}  (h0 : Kept c0 q0 s)
    (ht : execDrainTimeout s = .next u) : Kept c0 q0 u := by
  obtain rfl : _ = u := Host.Outcome.next.inj ht
  exact State.drainLimit_kept _ h0

theorem execEcatFrame_kept {c0 : Cfg} {q0 : List Instr} {s u : State} (accesses : List EcatAccess) (h0 : Kept c0 q0 s)
    (ht : execEcatFrame accesses s = .next u) : Kept c0 q0 u := by
  obtain rfl : _ = u := Host.Outcome.next.inj ht
  exact State.ecatFrame_kept _ _ h0

theorem execAlControlRequest_kept {c0 : Cfg} {q0 : List Instr} {s u : State} (v : Nat) (h0 : Kept c0 q0 s)
    (ht : execAlControlRequest v s = .next u) : Kept c0 q0 u := by
  obtain rfl : _ = u := Host.Outcome.next.inj ht
  exact State.alControl_kept _ _ h0

theorem execSdoUpload_kept {c0 : Cfg} {q0 : List Instr} {s u : State} (cnt index sub : Nat) (ca : Bool) (h0 : Kept c0 q0 s)
    (ht : execSdoUpload cnt index sub ca s = .next u) : Kept c0 q0 u := by
  obtain rfl : _ = u := Host.Outcome.next.inj ht
  repeat' (with_reducible first | assumption | apply State.mailRequest_kept | apply State.sdoUpload_kept | intro _ | apply Kept.ite | apply Kept.foldS | simp -zeta only [↓Kept.mk_iff] | split)

theorem execSdoDownload_kept {c0 : Cfg} {q0 : List Instr} {s u : State} (cnt index sub : Nat) (ca : Bool) (size : Option Nat) (data : List Byte) (h0 : Kept c0 q0 s)
    (ht : execSdoDownload cnt index sub ca size data s = .next u) : Kept c0 q0 u := by
  obtain rfl : _ = u := Host.Outcome.next.inj ht
  repeat' (with_reducible first | assumption | apply State.mailRequest_kept | apply State.sdoDownload_kept | intro _ | apply Kept.ite | apply Kept.foldS | simp -zeta only [↓Kept.mk_iff] | split)

theorem execSdoSegment_kept {c0 : Cfg} {q0 : List Instr} {s u : State} (cnt : Nat) (toggle last : Bool) (data : List Byte) (h0 : Kept c0 q0 s)
    (ht : execSdoSegment cnt toggle last data s = .next u) : Kept c0 q0 u := by
  obtain rfl : _ = u := Host.Outcome.next.inj ht
  repeat' (with_reducible first | assumption | apply State.mailRequest_kept | apply State.sdoSegment_kept | intro _ | apply Kept.ite | apply Kept.foldS | simp -zeta only [↓Kept.mk_iff] | split)

theorem execSdoInformation_kept {c0 : Cfg} {q0 : List Instr} {s u : State} (cnt : Nat) (req : InfoReq) (h0 : Kept c0 q0 s)
    (ht : execSdoInformation cnt req s = .next u) : Kept c0 q0 u := by
  obtain rfl : _ = u := Host.Outcome.next.inj ht
  repeat' (with_reducible first | assumption | apply State.mailRequest_kept | apply State.sdoInfo_kept | intro _ | apply Kept.ite | apply Kept.foldS | simp -zeta only [↓Kept.mk_iff] | split)

theorem execSdoSegmentTimeout_kept {c0 : Cfg} {q0 : List Instr} {s u : State}  (h0 : Kept c0 q0 s)
    (ht : execSdoSegmentTimeout s = .next u) : Kept c0 q0 u := by
  obtain rfl : _ = u := Host.Outcome.next.inj ht
  exact State.segTimeout_kept _ h0

theorem execMailboxRepeat_kept {c0 : Cfg} {q0 : List Instr} {s u : State}  (h0 : Kept c0 q0 s)
    (ht : execMailboxRepeat s = .next u) : Kept c0 q0 u := by
  obtain rfl : _ = u := Host.Outcome.next.inj ht
  repeat' (with_reducible first | assumption | apply State.placeAgain_kept | intro _ | apply Kept.ite | apply Kept.foldS | simp -zeta only [↓Kept.mk_iff] | (extract_lets +onlyGivenNames x; first | (refine Kept.cut (P := Kept c0 q0 x) ?_ ?_; rotate_left; (intro _; clear_value x); rotate_left; unfold x; clear x) | clear_value x) | split)

theorem execFoeWrite_kept {c0 : Cfg} {q0 : List Instr} {s u : State} (cnt : Nat) (step : FoeStep) (flashOk : Bool) (h0 : Kept c0 q0 s)
    (ht : execFoeWrite cnt step flashOk s = .next u) : Kept c0 q0 u := by
  obtain rfl : _ = u := Host.Outcome.next.inj ht
  repeat' (with_reducible first | assumption | apply State.mailRequest_kept | apply State.foeWrite_kept | intro _ | apply Kept.ite | apply Kept.foldS | simp -zeta only [↓Kept.mk_iff] | split)

theorem execFoeRead_kept {c0 : Cfg} {q0 : List Instr} {s u : State} (cnt : Nat) (step : FoeStep) (h0 : Kept c0 q0 s)
    (ht : execFoeRead cnt step s = .next u) : Kept c0 q0 u := by
  obtain rfl : _ = u := Host.Outcome.next.inj ht
  repeat' (with_reducible first | assumption | apply State.mailRequest_kept | apply State.foeRead_kept | intro _ | apply Kept.ite | apply Kept.foldS | simp -zeta only [↓Kept.mk_iff] | split)

theorem execRxpdoReceived_kept {c0 : Cfg} {q0 : List Instr} {s u : State}  (h0 : Kept c0 q0 s)
    (ht : execRxpdoReceived s = .next u) : Kept c0 q0 u := by
  obtain rfl : _ = u := Host.Outcome.next.inj ht
  exact State.rxPdo_kept _ h0

theorem execPdoAssembly_kept {c0 : Cfg} {q0 : List Instr} {s u : State}  (h0 : Kept c0 q0 s)
    (ht : execPdoAssembly s = .next u) : Kept c0 q0 u := by
  obtain rfl : _ = u := Host.Outcome.next.inj ht
  exact State.pdoAssembly_kept _ h0

theorem execSm2WatchdogExpiry_kept {c0 : Cfg} {q0 : List Instr} {s u : State}  (h0 : Kept c0 q0 s)
    (ht : execSm2WatchdogExpiry s = .next u) : Kept c0 q0 u := by
  obtain rfl : _ = u := Host.Outcome.next.inj ht
  exact State.sm2Expiry_kept _ h0

theorem execUnitMismatchTimeout_kept {c0 : Cfg} {q0 : List Instr} {s u : State} (unit : Nat) (h0 : Kept c0 q0 s)
    (ht : execUnitMismatchTimeout unit s = .next u) : Kept c0 q0 u := by
  obtain rfl : _ = u := Host.Outcome.next.inj ht
  exact State.unitTimeout_kept _ _ h0

theorem execMgmtWatchdogService_kept {c0 : Cfg} {q0 : List Instr} {s u : State}  (h0 : Kept c0 q0 s)
    (ht : execMgmtWatchdogService s = .next u) : Kept c0 q0 u := by
  obtain rfl : _ = u := Host.Outcome.next.inj ht
  exact State.wdService_kept _ h0

theorem execMgmtWatchdogExpiry_kept {c0 : Cfg} {q0 : List Instr} {s u : State}  (h0 : Kept c0 q0 s)
    (ht : execMgmtWatchdogExpiry s = .next u) : Kept c0 q0 u := by
  obtain rfl : _ = u := Host.Outcome.next.inj ht
  exact State.wdExpiry_kept _ h0

theorem execEcatLinkChange_kept {c0 : Cfg} {q0 : List Instr} {s u : State} (port : Nat) (up : Bool) (h0 : Kept c0 q0 s)
    (ht : execEcatLinkChange port up s = .next u) : Kept c0 q0 u := by
  obtain rfl : _ = u := Host.Outcome.next.inj ht
  exact State.ecatLink_kept _ _ _ h0

theorem execHpJrnReadWrite_kept {c0 : Cfg} {q0 : List Instr} {s u : State} (v : Nat) (h0 : Kept c0 q0 s)
    (ht : execHpJrnReadWrite v s = .next u) : Kept c0 q0 u := by
  obtain rfl : _ = u := Host.Outcome.next.inj ht
  exact State.portWrite_kept _ _ _ _ _ h0

theorem execHeldRecordFlush_kept {c0 : Cfg} {q0 : List Instr} {s u : State} (ring : Nat) (h0 : Kept c0 q0 s)
    (ht : execHeldRecordFlush ring s = .next u) : Kept c0 q0 u := by
  obtain rfl : _ = u := Host.Outcome.next.inj ht
  exact State.flush_kept _ _ h0

theorem execHostEventWrite_kept {c0 : Cfg} {q0 : List Instr} {s u : State}  (h0 : Kept c0 q0 s)
    (ht : execHostEventWrite s = .next u) : Kept c0 q0 u := by
  obtain rfl : _ = u := Host.Outcome.next.inj ht
  exact State.hostEvent_kept _ h0

theorem execIrqModerationTimeout_kept {c0 : Cfg} {q0 : List Instr} {s u : State} (vec : Nat) (h0 : Kept c0 q0 s)
    (ht : execIrqModerationTimeout vec s = .next u) : Kept c0 q0 u := by
  obtain rfl : _ = u := Host.Outcome.next.inj ht
  exact State.irqTimeout_kept _ _ h0

theorem execHostWriteResponse_kept {c0 : Cfg} {q0 : List Instr} {s u : State} (err : Bool) (h0 : Kept c0 q0 s)
    (ht : execHostWriteResponse err s = .next u) : Kept c0 q0 u := by
  obtain rfl : _ = u := Host.Outcome.next.inj ht
  exact State.hostAnswer_kept _ _ h0

theorem execHostWriteTimeout_kept {c0 : Cfg} {q0 : List Instr} {s u : State}  (h0 : Kept c0 q0 s)
    (ht : execHostWriteTimeout s = .next u) : Kept c0 q0 u := by
  obtain rfl : _ = u := Host.Outcome.next.inj ht
  exact State.hostTimeout_kept _ h0

theorem execHpRingConfigWrite_kept {c0 : Cfg} {q0 : List Instr} {s u : State} (src : Src) (reg : RingReg) (ring v : Nat) (h0 : Kept c0 q0 s)
    (ht : execHpRingConfigWrite src reg ring v s = .next u) : Kept c0 q0 u := by
  obtain rfl : _ = u := Host.Outcome.next.inj ht
  exact State.ringWrite_kept _ _ _ _ _ h0

theorem execSnapshotInstant_kept {c0 : Cfg} {q0 : List Instr} {s u : State}  (h0 : Kept c0 q0 s)
    (ht : execSnapshotInstant s = .next u) : Kept c0 q0 u := by
  obtain rfl : _ = u := Host.Outcome.next.inj ht
  exact State.snapshot_kept _ h0

theorem execSnapshotRecordWritten_kept {c0 : Cfg} {q0 : List Instr} {s u : State} (err : Bool) (h0 : Kept c0 q0 s)
    (ht : execSnapshotRecordWritten err s = .next u) : Kept c0 q0 u := by
  obtain rfl : _ = u := Host.Outcome.next.inj ht
  exact State.snapWritten_kept _ _ h0

theorem execTagSampleWrite_kept {c0 : Cfg} {q0 : List Instr} {s u : State} (c e : Nat) (err : Bool) (h0 : Kept c0 q0 s)
    (ht : execTagSampleWrite c e err s = .next u) : Kept c0 q0 u := by
  obtain rfl : _ = u := Host.Outcome.next.inj ht
  exact State.sampleWrite_kept _ _ _ _ h0

theorem execOverflowCapture_kept {c0 : Cfg} {q0 : List Instr} {s u : State} (c e : Nat) (h0 : Kept c0 q0 s)
    (ht : execOverflowCapture c e s = .next u) : Kept c0 q0 u := by
  obtain rfl : _ = u := Host.Outcome.next.inj ht
  exact State.captureOvf_kept _ _ _ h0

theorem execPcSelWrite_kept {c0 : Cfg} {q0 : List Instr} {s u : State} (src : Src) (off v : Nat) (h0 : Kept c0 q0 s)
    (ht : execPcSelWrite src off v s = .next u) : Kept c0 q0 u := by
  obtain rfl : _ = u := Host.Outcome.next.inj ht
  exact State.selWrite_kept _ _ _ _ h0

theorem execPcClear_kept {c0 : Cfg} {q0 : List Instr} {s u : State} (src : Src) (h0 : Kept c0 q0 s)
    (ht : execPcClear src s = .next u) : Kept c0 q0 u := by
  obtain rfl : _ = u := Host.Outcome.next.inj ht
  exact State.pcClear_kept _ _ h0

theorem execJournalCheckpoint_kept {c0 : Cfg} {q0 : List Instr} {s u : State} (ok1 ok2 : Bool) (h0 : Kept c0 q0 s)
    (ht : execJournalCheckpoint ok1 ok2 s = .next u) : Kept c0 q0 u := by
  obtain rfl : _ = u := Host.Outcome.next.inj ht
  exact State.journalCheckpoint_kept _ _ _ h0

theorem execWearCheckpoint_kept {c0 : Cfg} {q0 : List Instr} {s u : State} (ok1 ok2 : Bool) (h0 : Kept c0 q0 s)
    (ht : execWearCheckpoint ok1 ok2 s = .next u) : Kept c0 q0 u := by
  obtain rfl : _ = u := Host.Outcome.next.inj ht
  repeat' (with_reducible first | assumption | apply State.wearCheckpoint_kept | intro _ | apply Kept.ite | apply Kept.foldS | simp -zeta only [↓Kept.mk_iff] | split)

theorem execSramSweep_kept {c0 : Cfg} {q0 : List Instr} {s u : State} (fixed bad : List Nat) (h0 : Kept c0 q0 s)
    (ht : execSramSweep fixed bad s = .next u) : Kept c0 q0 u := by
  obtain rfl : _ = u := Host.Outcome.next.inj ht
  exact State.sramSweep_kept _ _ _ h0

theorem execJournalSweepRead_kept {c0 : Cfg} {q0 : List Instr} {s u : State} (badP badM : Bool) (h0 : Kept c0 q0 s)
    (ht : execJournalSweepRead badP badM s = .next u) : Kept c0 q0 u := by
  obtain rfl : _ = u := Host.Outcome.next.inj ht
  exact State.sweepRead_kept _ _ _ h0

theorem execQuillReceiveLockLoss_kept {c0 : Cfg} {q0 : List Instr} {s u : State} (p : Nat) (h0 : Kept c0 q0 s)
    (ht : execQuillReceiveLockLoss p s = .next u) : Kept c0 q0 u := by
  obtain rfl : _ = u := Host.Outcome.next.inj ht
  exact State.lockLoss_kept _ _ h0

theorem execRefClockPeriodGlitch_kept {c0 : Cfg} {q0 : List Instr} {s u : State} (n : Nat) (h0 : Kept c0 q0 s)
    (ht : execRefClockPeriodGlitch n s = .next u) : Kept c0 q0 u := by
  obtain rfl : _ = u := Host.Outcome.next.inj ht
  repeat' (with_reducible first | assumption | apply State.disqualify_kept | intro _ | apply Kept.ite | apply Kept.foldS | simp -zeta only [↓Kept.mk_iff] | split)

/-- Every command keeps the configuration, the queue and the canonical form of memory. -/
theorem exec_kept {c0 : Cfg} {q0 : List Instr} (i : Instr) (s u : State) (h0 : Kept c0 q0 s) (hu : exec i s = .next u) :
    Kept c0 q0 u := by
  cases i with
  | porAssert => exact execPorAssert_kept h0 hu
  | porRelease a0 => exact execPorRelease_kept _ h0 hu
  | warmRstAssert => exact execWarmRstAssert_kept h0 hu
  | warmRstRelease => exact execWarmRstRelease_kept h0 hu
  | powerLoss => exact execPowerLoss_kept h0 hu
  | islandClockLoss a0 => exact execIslandClockLoss_kept _ h0 hu
  | islandClockReturn a0 => exact execIslandClockReturn_kept _ h0 hu
  | laneSerdesReset a0 => exact execLaneSerdesReset_kept _ h0 hu
  | phyTuneAck a0 a1 => exact execPhyTuneAck_kept _ _ h0 hu
  | phyTuneTimeout a0 => exact execPhyTuneTimeout_kept _ h0 hu
  | clockGenAck a0 => exact execClockGenAck_kept _ h0 hu
  | clockGenTimeout a0 => exact execClockGenTimeout_kept _ h0 hu
  | registerWrite a0 a1 a2 a3 => exact execRegisterWrite_kept _ _ _ _ h0 hu
  | journalledParameterApply a0 a1 => exact execJournalledParameterApply_kept _ _ h0 hu
  | pairLoRead a0 a1 => exact execPairLoRead_kept _ _ h0 hu
  | pairHiWrite a0 a1 a2 => exact execPairHiWrite_kept _ _ _ h0 hu
  | rcRegisterRead a0 a1 => exact execRcRegisterRead_kept _ _ h0 hu
  | w1cRegisterWrite a0 a1 a2 => exact execW1cRegisterWrite_kept _ _ _ h0 hu
  | ttLoad a0 => exact execTtLoad_kept _ h0 hu
  | refTick a0 a1 => exact execRefTick_kept _ _ h0 hu
  | refStopTimeout a0 => exact execRefStopTimeout_kept _ h0 hu
  | refRateCheck a0 a1 => exact execRefRateCheck_kept _ _ h0 hu
  | refQualifyTimeout a0 => exact execRefQualifyTimeout_kept _ h0 hu
  | tbStateEvaluation => exact execTbStateEvaluation_kept h0 hu
  | tbHoldLimitExceeded => exact execTbHoldLimitExceeded_kept h0 hu
  | alignFilterOutput a0 => exact execAlignFilterOutput_kept _ h0 hu
  | alignExchangesDiscarded => exact execAlignExchangesDiscarded_kept h0 hu
  | tickPhaseAdopt => exact execTickPhaseAdopt_kept h0 hu
  | oscFail => exact execOscFail_kept h0 hu
  | oscRecovered => exact execOscRecovered_kept h0 hu
  | tdcCalibration a0 => exact execTdcCalibration_kept _ h0 hu
  | encoderEdgeAccepted a0 a1 => exact execEncoderEdgeAccepted_kept _ _ h0 hu
  | ssiFrameStart a0 => exact execSsiFrameStart_kept _ h0 hu
  | ssiFrameComplete a0 a1 a2 a3 => exact execSsiFrameComplete_kept _ _ _ _ h0 hu
  | speedEstimateUpdate a0 => exact execSpeedEstimateUpdate_kept _ h0 hu
  | standstillTimeout a0 => exact execStandstillTimeout_kept _ h0 hu
  | countLoad a0 a1 => exact execCountLoad_kept _ _ h0 hu
  | puChCtlWrite a0 a1 a2 a3 => exact execPuChCtlWrite_kept _ _ _ _ h0 hu
  | puIdxLoRead a0 => exact execPuIdxLoRead_kept _ h0 hu
  | puStatusRead a0 => exact execPuStatusRead_kept _ h0 hu
  | thresholdScanComplete a0 a1 a2 a3 => exact execThresholdScanComplete_kept _ _ _ _ h0 hu
  | cxpStreamPacket a0 a1 a2 a3 a4 => exact execCxpStreamPacket_kept _ _ _ _ _ h0 hu
  | cxpLaneLockLoss a0 => exact execCxpLaneLockLoss_kept _ h0 hu
  | cxpControlPacketRx a0 a1 a2 a3 a4 => exact execCxpControlPacketRx_kept _ _ _ _ _ h0 hu
  | cxCtrlTxSend a0 => exact execCxCtrlTxSend_kept _ h0 hu
  | stripWritesAcknowledged a0 => exact execStripWritesAcknowledged_kept _ h0 hu
  | pipelineStallTimeout a0 => exact execPipelineStallTimeout_kept _ h0 hu
  | calBankSwap a0 a1 a2 => exact execCalBankSwap_kept _ _ _ h0 hu
  | cameraConfigWrite a0 a1 a2 a3 => exact execCameraConfigWrite_kept _ _ _ _ h0 hu
  | decConfigWrite a0 a1 a2 a3 => exact execDecConfigWrite_kept _ _ _ _ h0 hu
  | decSubstWrite a0 a1 a2 => exact execDecSubstWrite_kept _ _ _ h0 hu
  | decDescriptorFetch a0 => exact execDecDescriptorFetch_kept _ h0 hu
  | decFileHeader a0 => exact execDecFileHeader_kept _ h0 hu
  | decRecord a0 => exact execDecRecord_kept _ h0 hu
  | decPacedLineEntry a0 => exact execDecPacedLineEntry_kept _ h0 hu
  | decRingSpaceResume a0 => exact execDecRingSpaceResume_kept _ h0 hu
  | segmentStart a0 a1 => exact execSegmentStart_kept _ _ h0 hu
  | segmentEnd a0 a1 => exact execSegmentEnd_kept _ _ h0 hu
  | segmentComplete a0 a1 => exact execSegmentComplete_kept _ _ h0 hu
  | syncSignalApply a0 => exact execSyncSignalApply_kept _ h0 hu
  | waitSatisfied a0 a1 => exact execWaitSatisfied_kept _ _ h0 hu
  | segmentWatchdogExpiry a0 a1 a2 => exact execSegmentWatchdogExpiry_kept _ _ _ h0 hu
  | stallWatchExpiry a0 => exact execStallWatchExpiry_kept _ h0 hu
  | engineFabricError a0 a1 => exact execEngineFabricError_kept _ _ h0 hu
  | nop a0 a1 => exact execNop_kept _ _ h0 hu
  | endInstr a0 a1 => exact execEndInstr_kept _ _ h0 hu
  | base a0 a1 => exact execBase_kept _ _ h0 hu
  | signal a0 a1 => exact execSignal_kept _ _ h0 hu
  | wait a0 a1 => exact execWait_kept _ _ h0 hu
  | mma a0 a1 => exact execMma_kept _ _ h0 hu
  | copy a0 a1 => exact execCopy_kept _ _ h0 hu
  | fill a0 a1 => exact execFill_kept _ _ h0 hu
  | emptyBundle a0 a1 => exact execEmptyBundle_kept _ _ h0 hu
  | vld a0 a1 => exact execVld_kept _ _ h0 hu
  | vst a0 a1 => exact execVst_kept _ _ h0 hu
  | vldb a0 a1 => exact execVldb_kept _ _ h0 hu
  | sld a0 a1 => exact execSld_kept _ _ h0 hu
  | sst a0 a1 => exact execSst_kept _ _ h0 hu
  | rld a0 a1 => exact execRld_kept _ _ h0 hu
  | rst a0 a1 => exact execRst_kept _ _ h0 hu
  | ldmod a0 a1 => exact execLdmod_kept _ _ h0 hu
  | vadd a0 a1 => exact execVadd_kept _ _ h0 hu
  | vsub a0 a1 => exact execVsub_kept _ _ h0 hu
  | vmul a0 a1 => exact execVmul_kept _ _ h0 hu
  | vfma a0 a1 => exact execVfma_kept _ _ h0 hu
  | vmax a0 a1 => exact execVmax_kept _ _ h0 hu
  | vmin a0 a1 => exact execVmin_kept _ _ h0 hu
  | vand a0 a1 => exact execVand_kept _ _ h0 hu
  | vor a0 a1 => exact execVor_kept _ _ h0 hu
  | vxor a0 a1 => exact execVxor_kept _ _ h0 hu
  | vshl a0 a1 => exact execVshl_kept _ _ h0 hu
  | vshr a0 a1 => exact execVshr_kept _ _ h0 hu
  | vcmplt a0 a1 => exact execVcmplt_kept _ _ h0 hu
  | vcmple a0 a1 => exact execVcmple_kept _ _ h0 hu
  | vcmpeq a0 a1 => exact execVcmpeq_kept _ _ h0 hu
  | vsel a0 a1 => exact execVsel_kept _ _ h0 hu
  | vcvt a0 a1 => exact execVcvt_kept _ _ h0 hu
  | vexp a0 a1 => exact execVexp_kept _ _ h0 hu
  | vrcp a0 a1 => exact execVrcp_kept _ _ h0 hu
  | vrsqrt a0 a1 => exact execVrsqrt_kept _ _ h0 hu
  | vred a0 a1 => exact execVred_kept _ _ h0 hu
  | vperm a0 a1 => exact execVperm_kept _ _ h0 hu
  | vbcast a0 a1 => exact execVbcast_kept _ _ h0 hu
  | vmov a0 a1 => exact execVmov_kept _ _ h0 hu
  | radd a0 a1 => exact execRadd_kept _ _ h0 hu
  | rsub a0 a1 => exact execRsub_kept _ _ h0 hu
  | rmul a0 a1 => exact execRmul_kept _ _ h0 hu
  | rmac a0 a1 => exact execRmac_kept _ _ h0 hu
  | rneg a0 a1 => exact execRneg_kept _ _ h0 hu
  | rbfly a0 a1 => exact execRbfly_kept _ _ h0 hu
  | rbflyi a0 a1 => exact execRbflyi_kept _ _ h0 hu
  | rxch a0 a1 => exact execRxch_kept _ _ h0 hu
  | raddw a0 a1 => exact execRaddw_kept _ _ h0 hu
  | rsubw a0 a1 => exact execRsubw_kept _ _ h0 hu
  | rmulw a0 a1 => exact execRmulw_kept _ _ h0 hu
  | rmov a0 a1 => exact execRmov_kept _ _ h0 hu
  | rbcast a0 a1 => exact execRbcast_kept _ _ h0 hu
  | rmod a0 a1 => exact execRmod_kept _ _ h0 hu
  | smov a0 a1 => exact execSmov_kept _ _ h0 hu
  | sshl a0 a1 => exact execSshl_kept _ _ h0 hu
  | sadd a0 a1 => exact execSadd_kept _ _ h0 hu
  | saddi a0 a1 => exact execSaddi_kept _ _ h0 hu
  | smul a0 a1 => exact execSmul_kept _ _ h0 hu
  | sget a0 a1 => exact execSget_kept _ _ h0 hu
  | sput a0 a1 => exact execSput_kept _ _ h0 hu
  | mset a0 a1 => exact execMset_kept _ _ h0 hu
  | mget a0 a1 => exact execMget_kept _ _ h0 hu
  | mand a0 a1 => exact execMand_kept _ _ h0 hu
  | mor a0 a1 => exact execMor_kept _ _ h0 hu
  | mandn a0 a1 => exact execMandn_kept _ _ h0 hu
  | jmp a0 a1 => exact execJmp_kept _ _ h0 hu
  | brz a0 a1 => exact execBrz_kept _ _ h0 hu
  | brnz a0 a1 => exact execBrnz_kept _ _ h0 hu
  | loopInstr a0 a1 => exact execLoopInstr_kept _ _ h0 hu
  | bundleSignal a0 a1 => exact execBundleSignal_kept _ _ h0 hu
  | bundleWait a0 a1 => exact execBundleWait_kept _ _ h0 hu
  | loadDataUncorrectable a0 a1 => exact execLoadDataUncorrectable_kept _ _ h0 hu
  | doorbell a0 a1 => exact execDoorbell_kept _ _ h0 hu
  | groupAdmission a0 a1 => exact execGroupAdmission_kept _ _ h0 hu
  | exec a0 a1 => exact execExec_kept _ _ h0 hu
  | imageLoad a0 => exact execImageLoad_kept _ h0 hu
  | recipeLoad a0 a1 => exact execRecipeLoad_kept _ _ h0 hu
  | recipeUnload a0 => exact execRecipeUnload_kept _ h0 hu
  | descriptorPost a0 => exact execDescriptorPost_kept _ h0 hu
  | rankRefresh => exact execRankRefresh_kept h0 hu
  | deadlineRecompute => exact execDeadlineRecompute_kept h0 hu
  | deadlineExpiry a0 => exact execDeadlineExpiry_kept _ h0 hu
  | beStarveTimeout a0 => exact execBeStarveTimeout_kept _ h0 hu
  | groupCompletion => exact execGroupCompletion_kept h0 hu
  | dsCancel a0 a1 a2 a3 => exact execDsCancel_kept _ _ _ _ h0 hu
  | dsCancelJob a0 a1 => exact execDsCancelJob_kept _ _ h0 hu
  | frozenCancelTimeout a0 => exact execFrozenCancelTimeout_kept _ h0 hu
  | dsRingCtlWrite a0 a1 a2 => exact execDsRingCtlWrite_kept _ _ _ h0 hu
  | rcpRunWrite a0 a1 a2 => exact execRcpRunWrite_kept _ _ _ h0 hu
  | stepTrigger a0 => exact execStepTrigger_kept _ h0 hu
  | marksApply a0 a1 => exact execMarksApply_kept _ _ h0 hu
  | markBatchReceived a0 a1 a2 => exact execMarkBatchReceived_kept _ _ _ h0 hu
  | markWaitTimeout a0 a1 => exact execMarkWaitTimeout_kept _ _ h0 hu
  | inferGroupEnd a0 => exact execInferGroupEnd_kept _ h0 hu
  | verdictWordWrite a0 a1 a2 => exact execVerdictWordWrite_kept _ _ _ h0 hu
  | partDeadlineExpiry a0 a1 => exact execPartDeadlineExpiry_kept _ _ h0 hu
  | auPostSubmit a0 => exact execAuPostSubmit_kept _ h0 hu
  | auMpostSubmit a0 => exact execAuMpostSubmit_kept _ h0 hu
  | countTriggerFire a0 => exact execCountTriggerFire_kept _ h0 hu
  | predictionTriggerFire a0 => exact execPredictionTriggerFire_kept _ h0 hu
  | ttTriggerFire a0 => exact execTtTriggerFire_kept _ h0 hu
  | pulseEnd a0 => exact execPulseEnd_kept _ h0 hu
  | pulseTruncated a0 => exact execPulseTruncated_kept _ h0 hu
  | minGapExpiry a0 => exact execMinGapExpiry_kept _ h0 hu
  | auCancel a0 a1 => exact execAuCancel_kept _ _ h0 hu
  | auCancelOut a0 => exact execAuCancelOut_kept _ h0 hu
  | entryExpire a0 => exact execEntryExpire_kept _ h0 hu
  | auCtlWrite a0 a1 => exact execAuCtlWrite_kept _ _ h0 hu
  | auOutCfgWrite a0 a1 a2 => exact execAuOutCfgWrite_kept _ _ _ h0 hu
  | fabricTransaction a0 a1 a2 a3 a4 a5 => exact execFabricTransaction_kept _ _ _ _ _ _ h0 hu
  | writeAcknowledgement a0 a1 => exact execWriteAcknowledgement_kept _ _ h0 hu
  | readResponse a0 a1 a2 => exact execReadResponse_kept _ _ _ h0 hu
  | hoardEccWriteback a0 => exact execHoardEccWriteback_kept _ h0 hu
  | burrowReadData a0 a1 a2 => exact execBurrowReadData_kept _ _ _ h0 hu
  | burrowWriteAck a0 a1 a2 => exact execBurrowWriteAck_kept _ _ _ h0 hu
  | burrowCorrectedRewrite a0 => exact execBurrowCorrectedRewrite_kept _ h0 hu
  | burrowPhyReady a0 a1 a2 => exact execBurrowPhyReady_kept _ _ _ h0 hu
  | fbBrwCfgWrite a0 a1 a2 => exact execFbBrwCfgWrite_kept _ _ _ h0 hu
  | burrowFillDone a0 => exact execBurrowFillDone_kept _ h0 hu
  | scrubRead a0 a1 a2 a3 => exact execScrubRead_kept _ _ _ _ h0 hu
  | scrubBehind a0 => exact execScrubBehind_kept _ h0 hu
  | portReset a0 a1 => exact execPortReset_kept _ _ h0 hu
  | portResetDone a0 a1 => exact execPortResetDone_kept _ _ h0 hu
  | burrowStallTimeout a0 => exact execBurrowStallTimeout_kept _ h0 hu
  | burrowRecoveryTimeout a0 => exact execBurrowRecoveryTimeout_kept _ h0 hu
  | remapWrite a0 a1 => exact execRemapWrite_kept _ _ h0 hu
  | hoardZeroDone => exact execHoardZeroDone_kept h0 hu
  | quillFrameReceived a0 a1 a2 => exact execQuillFrameReceived_kept _ _ _ h0 hu
  | quillFrameTransmit a0 => exact execQuillFrameTransmit_kept _ h0 hu
  | qpDefectTimer a0 a1 a2 => exact execQpDefectTimer_kept _ _ _ h0 hu
  | memberControlTimeout a0 a1 => exact execMemberControlTimeout_kept _ _ h0 hu
  | memberRestore a0 a1 => exact execMemberRestore_kept _ _ h0 hu
  | mapChangeStart a0 => exact execMapChangeStart_kept _ h0 hu
  | mapApply a0 => exact execMapApply_kept _ h0 hu
  | mapChangeLate a0 => exact execMapChangeLate_kept _ h0 hu
  | groupFrameRelease a0 a1 => exact execGroupFrameRelease_kept _ _ h0 hu
  | deskewDelayExpiry a0 a1 => exact execDeskewDelayExpiry_kept _ _ h0 hu
  | qpConfigWrite a0 a1 a2 a3 => exact execQpConfigWrite_kept _ _ _ _ h0 hu
  | ack a0 => exact execAck_kept _ h0 hu
  | resend a0 => exact execResend_kept _ h0 hu
  | resendTimeout a0 => exact execResendTimeout_kept _ h0 hu
  | remoteAccessSend => exact execRemoteAccessSend_kept h0 hu
  | tidWaitTimeout => exact execTidWaitTimeout_kept h0 hu
  | remoteTimeout a0 => exact execRemoteTimeout_kept _ h0 hu
  | write a0 a1 => exact execWrite_kept _ _ h0 hu
  | writeAck a0 => exact execWriteAck_kept _ h0 hu
  | readReq a0 a1 => exact execReadReq_kept _ _ h0 hu
  | readResp a0 => exact execReadResp_kept _ h0 hu
  | quillSignal a0 => exact execQuillSignal_kept _ h0 hu
  | actPost a0 => exact execActPost_kept _ h0 hu
  | actStatus a0 => exact execActStatus_kept _ h0 hu
  | bcast a0 a1 => exact execBcast_kept _ _ h0 hu
  | undeliverable a0 => exact execUndeliverable_kept _ h0 hu
  | detourReq a0 => exact execDetourReq_kept _ h0 hu
  | detourGrant a0 => exact execDetourGrant_kept _ h0 hu
  | detourRefuse a0 => exact execDetourRefuse_kept _ h0 hu
  | detourEnd a0 => exact execDetourEnd_kept _ h0 hu
  | time a0 a1 a2 => exact execTime_kept _ _ _ h0 hu
  | distDone a0 a1 a2 => exact execDistDone_kept _ _ _ h0 hu
  | reservedMessage a0 => exact execReservedMessage_kept _ h0 hu
  | detourPlanHoldExpiry a0 => exact execDetourPlanHoldExpiry_kept _ h0 hu
  | directRestoreHoldExpiry a0 => exact execDirectRestoreHoldExpiry_kept _ h0 hu
  | qmDistCmd a0 a1 a2 a3 a4 => exact execQmDistCmd_kept _ _ _ _ _ h0 hu
  | distTimeout => exact execDistTimeout_kept h0 hu
  | qmMemberCmd a0 => exact execQmMemberCmd_kept _ h0 hu
  | qmIdWrite a0 a1 a2 => exact execQmIdWrite_kept _ _ _ h0 hu
  | auditOpen a0 a1 => exact execAuditOpen_kept _ _ h0 hu
  | auditOpenComplete a0 a1 => exact execAuditOpenComplete_kept _ _ h0 hu
  | auditSeal a0 a1 a2 => exact execAuditSeal_kept _ _ _ h0 hu
  | auditSealComplete a0 a1 => exact execAuditSealComplete_kept _ _ h0 hu
  | auditClose a0 a1 => exact execAuditClose_kept _ _ h0 hu
  | auditCloseComplete a0 => exact execAuditCloseComplete_kept _ h0 hu
  | gcmEncrypt a0 a1 a2 a3 a4 => exact execGcmEncrypt_kept _ _ _ _ _ h0 hu
  | gcmDecrypt a0 a1 a2 a3 a4 => exact execGcmDecrypt_kept _ _ _ _ _ h0 hu
  | cmacGenerate a0 a1 a2 a3 a4 => exact execCmacGenerate_kept _ _ _ _ _ h0 hu
  | cmacVerify a0 a1 a2 a3 a4 => exact execCmacVerify_kept _ _ _ _ _ h0 hu
  | contextSave a0 a1 a2 a3 a4 => exact execContextSave_kept _ _ _ _ _ h0 hu
  | contextRestore a0 a1 a2 a3 a4 => exact execContextRestore_kept _ _ _ _ _ h0 hu
  | cipherOpComplete a0 => exact execCipherOpComplete_kept _ h0 hu
  | cipherQuantumExpiry a0 => exact execCipherQuantumExpiry_kept _ h0 hu
  | cipherSuspend a0 => exact execCipherSuspend_kept _ h0 hu
  | cipherResume => exact execCipherResume_kept h0 hu
  | keyLoad a0 a1 => exact execKeyLoad_kept _ _ h0 hu
  | keyClear a0 a1 => exact execKeyClear_kept _ _ h0 hu
  | cipherSelftestDone a0 => exact execCipherSelftestDone_kept _ h0 hu
  | dvfsEvaluation a0 => exact execDvfsEvaluation_kept _ h0 hu
  | frequencyStep a0 => exact execFrequencyStep_kept _ h0 hu
  | frequencyRequest a0 => exact execFrequencyRequest_kept _ h0 hu
  | cpmSample a0 a1 => exact execCpmSample_kept _ _ h0 hu
  | cpmCalibration a0 a1 => exact execCpmCalibration_kept _ _ h0 hu
  | tuningTrial a0 => exact execTuningTrial_kept _ h0 hu
  | trialDwellEnd a0 a1 => exact execTrialDwellEnd_kept _ _ h0 hu
  | thermalRead a0 a1 => exact execThermalRead_kept _ _ h0 hu
  | ceilingStep a0 => exact execCeilingStep_kept _ h0 hu
  | vmonSample a0 a1 => exact execVmonSample_kept _ _ h0 hu
  | supplyFaultClear a0 => exact execSupplyFaultClear_kept _ h0 hu
  | fanKickTimeout a0 => exact execFanKickTimeout_kept _ h0 hu
  | fanRpmUpdate a0 a1 => exact execFanRpmUpdate_kept _ _ h0 hu
  | fanTachTimeout a0 => exact execFanTachTimeout_kept _ h0 hu
  | fanTachRestored a0 => exact execFanTachRestored_kept _ h0 hu
  | bringupPhaseDone => exact execBringupPhaseDone_kept h0 hu
  | bringupWaitExpired => exact execBringupWaitExpired_kept h0 hu
  | lifecycleWarmReset a0 => exact execLifecycleWarmReset_kept _ h0 hu
  | lifecycleShutdown a0 => exact execLifecycleShutdown_kept _ h0 hu
  | drainComplete a0 a1 => exact execDrainComplete_kept _ _ h0 hu
  | drainTimeout => exact execDrainTimeout_kept h0 hu
  | ecatFrame a0 => exact execEcatFrame_kept _ h0 hu
  | alControlRequest a0 => exact execAlControlRequest_kept _ h0 hu
  | sdoUpload a0 a1 a2 a3 => exact execSdoUpload_kept _ _ _ _ h0 hu
  | sdoDownload a0 a1 a2 a3 a4 a5 => exact execSdoDownload_kept _ _ _ _ _ _ h0 hu
  | sdoSegment a0 a1 a2 a3 => exact execSdoSegment_kept _ _ _ _ h0 hu
  | sdoInformation a0 a1 => exact execSdoInformation_kept _ _ h0 hu
  | sdoSegmentTimeout => exact execSdoSegmentTimeout_kept h0 hu
  | mailboxRepeat => exact execMailboxRepeat_kept h0 hu
  | foeWrite a0 a1 a2 => exact execFoeWrite_kept _ _ _ h0 hu
  | foeRead a0 a1 => exact execFoeRead_kept _ _ h0 hu
  | rxpdoReceived => exact execRxpdoReceived_kept h0 hu
  | pdoAssembly => exact execPdoAssembly_kept h0 hu
  | sm2WatchdogExpiry => exact execSm2WatchdogExpiry_kept h0 hu
  | unitMismatchTimeout a0 => exact execUnitMismatchTimeout_kept _ h0 hu
  | mgmtWatchdogService => exact execMgmtWatchdogService_kept h0 hu
  | mgmtWatchdogExpiry => exact execMgmtWatchdogExpiry_kept h0 hu
  | ecatLinkChange a0 a1 => exact execEcatLinkChange_kept _ _ h0 hu
  | hpJrnReadWrite a0 => exact execHpJrnReadWrite_kept _ h0 hu
  | heldRecordFlush a0 => exact execHeldRecordFlush_kept _ h0 hu
  | hostEventWrite => exact execHostEventWrite_kept h0 hu
  | irqModerationTimeout a0 => exact execIrqModerationTimeout_kept _ h0 hu
  | hostWriteResponse a0 => exact execHostWriteResponse_kept _ h0 hu
  | hostWriteTimeout => exact execHostWriteTimeout_kept h0 hu
  | hpRingConfigWrite a0 a1 a2 a3 => exact execHpRingConfigWrite_kept _ _ _ _ h0 hu
  | snapshotInstant => exact execSnapshotInstant_kept h0 hu
  | snapshotRecordWritten a0 => exact execSnapshotRecordWritten_kept _ h0 hu
  | tagSampleWrite a0 a1 a2 => exact execTagSampleWrite_kept _ _ _ h0 hu
  | overflowCapture a0 a1 => exact execOverflowCapture_kept _ _ h0 hu
  | pcSelWrite a0 a1 a2 => exact execPcSelWrite_kept _ _ _ h0 hu
  | pcClear a0 => exact execPcClear_kept _ h0 hu
  | journalCheckpoint a0 a1 => exact execJournalCheckpoint_kept _ _ h0 hu
  | wearCheckpoint a0 a1 => exact execWearCheckpoint_kept _ _ h0 hu
  | sramSweep a0 a1 => exact execSramSweep_kept _ _ h0 hu
  | journalSweepRead a0 a1 => exact execJournalSweepRead_kept _ _ h0 hu
  | quillReceiveLockLoss a0 => exact execQuillReceiveLockLoss_kept _ h0 hu
  | refClockPeriodGlitch a0 => exact execRefClockPeriodGlitch_kept _ h0 hu

end Sys2Proof.Machine
end

