-- ==== Sys2Proof/WellFormed.lean ====
section
/-! DEFINITION. Which commands are well formed: operands in the width of the words they stand for and below the counts of
the widest configuration (Table 2-2). -/

namespace Sys2Proof

/-- A number below a bound. -/
def below (n bound : Nat) : Bool := decide (n < bound)

/-- A register offset lies on a word (R543). -/
def aligned (off : Nat) : Bool := off % 4 == 0

/-- FoE writes no register. -/
def srcOk (s : Src) : Bool := s != .foe

/-- A command is well formed. -/
def Instr.wf (i : Instr) : Bool :=
  match i with
  | .porAssert => true
  | .porRelease _ => true
  | .warmRstAssert => true
  | .warmRstRelease => true
  | .powerLoss => true
  | .islandClockLoss island => below island 55
  | .islandClockReturn island => below island 55
  | .laneSerdesReset lane => below lane 140
  | .phyTuneAck lane _ => below lane 140
  | .phyTuneTimeout lane => below lane 140
  | .clockGenAck core => below core 32
  | .clockGenTimeout core => below core 32
  | .registerWrite src off v _ => srcOk src && below off (2 ^ 24) && aligned off && below v (2 ^ 32)
  | .journalledParameterApply _ _ => true
  | .pairLoRead src off => srcOk src && below off (2 ^ 24) && aligned off
  | .pairHiWrite src off v => srcOk src && below off (2 ^ 24) && aligned off && below v (2 ^ 32)
  | .rcRegisterRead src off => srcOk src && below off (2 ^ 24) && aligned off
  | .w1cRegisterWrite src off v => srcOk src && below off (2 ^ 24) && aligned off && below v (2 ^ 32)
  | .ttLoad hi => below hi (2 ^ 32)
  | .refTick _ _ => true
  | .refStopTimeout _ => true
  | .refRateCheck _ _ => true
  | .refQualifyTimeout _ => true
  | .tbStateEvaluation => true
  | .tbHoldLimitExceeded => true
  | .alignFilterOutput port => below port 12
  | .alignExchangesDiscarded => true
  | .tickPhaseAdopt => true
  | .oscFail => true
  | .oscRecovered => true
  | .tdcCalibration _ => true
  | .encoderEdgeAccepted ch x => below ch 8 && below x.levels 8
  | .ssiFrameStart ch => below ch 8
  | .ssiFrameComplete ch _ _ _ => below ch 8
  | .speedEstimateUpdate ch => below ch 8
  | .standstillTimeout ch => below ch 8
  | .countLoad ch hi => below ch 8 && below hi (2 ^ 32)
  | .puChCtlWrite src ch _ v => srcOk src && below ch 8 && below v (2 ^ 32)
  | .puIdxLoRead ch => below ch 8
  | .puStatusRead ch => below ch 8
  | .thresholdScanComplete ch input low high => below ch 8 && below input 3 && below low (2 ^ 32) && below high (2 ^ 32)
  | .cxpStreamPacket lane _ _ _ _ => below lane 64
  | .cxpLaneLockLoss lane => below lane 64
  | .cxpControlPacketRx lane _ ptype _ _ => below lane 64 && below ptype 256
  | .cxCtrlTxSend cam => below cam 32
  | .stripWritesAcknowledged pipe => below pipe 32
  | .pipelineStallTimeout pipe => below pipe 32
  | .calBankSwap src pipe v => srcOk src && below pipe 32 && below v (2 ^ 32)
  | .cameraConfigWrite src pipe _ v => srcOk src && below pipe 32 && below v (2 ^ 32)
  | .decConfigWrite src ch _ v => srcOk src && below ch 4 && below v (2 ^ 32)
  | .decSubstWrite src ch hi => srcOk src && below ch 4 && below hi (2 ^ 32)
  | .decDescriptorFetch ch => below ch 4
  | .decFileHeader ch => below ch 4
  | .decRecord ch => below ch 4
  | .decPacedLineEntry ch => below ch 4
  | .decRingSpaceResume ch => below ch 4
  | .segmentStart core eng => below core 32 && below eng 5
  | .segmentEnd core eng => below core 32 && below eng 5
  | .segmentComplete core eng => below core 32 && below eng 5
  | .syncSignalApply _ => true
  | .waitSatisfied core eng => below core 32 && below eng 5
  | .segmentWatchdogExpiry core eng _ => below core 32 && below eng 5
  | .stallWatchExpiry job => below job 4096
  | .engineFabricError core eng => below core 32 && below eng 5
  | .nop core eng => below core 32 && below eng 5
  | .endInstr core eng => below core 32 && below eng 5
  | .base core eng => below core 32 && below eng 5
  | .signal core eng => below core 32 && below eng 5
  | .wait core eng => below core 32 && below eng 5
  | .mma core eng => below core 32 && below eng 5
  | .copy core eng => below core 32 && below eng 5
  | .fill core eng => below core 32 && below eng 5
  | .emptyBundle core eng => below core 32 && below eng 5
  | .vld core eng => below core 32 && below eng 5
  | .vst core eng => below core 32 && below eng 5
  | .vldb core eng => below core 32 && below eng 5
  | .sld core eng => below core 32 && below eng 5
  | .sst core eng => below core 32 && below eng 5
  | .rld core eng => below core 32 && below eng 5
  | .rst core eng => below core 32 && below eng 5
  | .ldmod core eng => below core 32 && below eng 5
  | .vadd core eng => below core 32 && below eng 5
  | .vsub core eng => below core 32 && below eng 5
  | .vmul core eng => below core 32 && below eng 5
  | .vfma core eng => below core 32 && below eng 5
  | .vmax core eng => below core 32 && below eng 5
  | .vmin core eng => below core 32 && below eng 5
  | .vand core eng => below core 32 && below eng 5
  | .vor core eng => below core 32 && below eng 5
  | .vxor core eng => below core 32 && below eng 5
  | .vshl core eng => below core 32 && below eng 5
  | .vshr core eng => below core 32 && below eng 5
  | .vcmplt core eng => below core 32 && below eng 5
  | .vcmple core eng => below core 32 && below eng 5
  | .vcmpeq core eng => below core 32 && below eng 5
  | .vsel core eng => below core 32 && below eng 5
  | .vcvt core eng => below core 32 && below eng 5
  | .vexp core eng => below core 32 && below eng 5
  | .vrcp core eng => below core 32 && below eng 5
  | .vrsqrt core eng => below core 32 && below eng 5
  | .vred core eng => below core 32 && below eng 5
  | .vperm core eng => below core 32 && below eng 5
  | .vbcast core eng => below core 32 && below eng 5
  | .vmov core eng => below core 32 && below eng 5
  | .radd core eng => below core 32 && below eng 5
  | .rsub core eng => below core 32 && below eng 5
  | .rmul core eng => below core 32 && below eng 5
  | .rmac core eng => below core 32 && below eng 5
  | .rneg core eng => below core 32 && below eng 5
  | .rbfly core eng => below core 32 && below eng 5
  | .rbflyi core eng => below core 32 && below eng 5
  | .rxch core eng => below core 32 && below eng 5
  | .raddw core eng => below core 32 && below eng 5
  | .rsubw core eng => below core 32 && below eng 5
  | .rmulw core eng => below core 32 && below eng 5
  | .rmov core eng => below core 32 && below eng 5
  | .rbcast core eng => below core 32 && below eng 5
  | .rmod core eng => below core 32 && below eng 5
  | .smov core eng => below core 32 && below eng 5
  | .sshl core eng => below core 32 && below eng 5
  | .sadd core eng => below core 32 && below eng 5
  | .saddi core eng => below core 32 && below eng 5
  | .smul core eng => below core 32 && below eng 5
  | .sget core eng => below core 32 && below eng 5
  | .sput core eng => below core 32 && below eng 5
  | .mset core eng => below core 32 && below eng 5
  | .mget core eng => below core 32 && below eng 5
  | .mand core eng => below core 32 && below eng 5
  | .mor core eng => below core 32 && below eng 5
  | .mandn core eng => below core 32 && below eng 5
  | .jmp core eng => below core 32 && below eng 5
  | .brz core eng => below core 32 && below eng 5
  | .brnz core eng => below core 32 && below eng 5
  | .loopInstr core eng => below core 32 && below eng 5
  | .bundleSignal core eng => below core 32 && below eng 5
  | .bundleWait core eng => below core 32 && below eng 5
  | .loadDataUncorrectable core x => below core 32 && below x.eng 5 && below x.back 64
  | .doorbell ring v => below ring 256 && below v (2 ^ 32)
  | .groupAdmission ring _ => below ring 256
  | .exec ring _ => below ring 256
  | .imageLoad ring => below ring 256
  | .recipeLoad ring _ => below ring 256
  | .recipeUnload ring => below ring 256
  | .descriptorPost job => below job 4096
  | .rankRefresh => true
  | .deadlineRecompute => true
  | .deadlineExpiry job => below job 4096
  | .beStarveTimeout ring => below ring 256
  | .groupCompletion => true
  | .dsCancel src ring index _ => srcOk src && below ring 256 && below index 65536
  | .dsCancelJob src job => srcOk src && below job 4096
  | .frozenCancelTimeout job => below job 4096
  | .dsRingCtlWrite src ring v => srcOk src && below ring 256 && below v (2 ^ 32)
  | .rcpRunWrite src slot v => srcOk src && below slot 16 && below v (2 ^ 32)
  | .stepTrigger slot => below slot 16
  | .marksApply slot _ => below slot 16
  | .markBatchReceived slot _ _ => below slot 16
  | .markWaitTimeout slot _ => below slot 16
  | .inferGroupEnd slot => below slot 16
  | .verdictWordWrite slot _ _ => below slot 16
  | .partDeadlineExpiry slot ordinal => below slot 16 && below ordinal (2 ^ 64)
  | .auPostSubmit w7 => below w7 (2 ^ 32)
  | .auMpostSubmit w7 => below w7 (2 ^ 32)
  | .countTriggerFire entry => below entry 4096
  | .predictionTriggerFire entry => below entry 4096
  | .ttTriggerFire entry => below entry 4096
  | .pulseEnd entry => below entry 4096
  | .pulseTruncated entry => below entry 4096
  | .minGapExpiry out => below out 64
  | .auCancel entry _ => below entry 4096
  | .auCancelOut out => below out 64
  | .entryExpire entry => below entry 4096
  | .auCtlWrite src v => srcOk src && below v (2 ^ 32)
  | .auOutCfgWrite src out v => srcOk src && below out 64 && below v (2 ^ 32)
  | .fabricTransaction _ _ _ _ eng _ => below eng 5
  | .writeAcknowledgement _ _ => true
  | .readResponse _ _ _ => true
  | .hoardEccWriteback _ => true
  | .burrowReadData port _ _ => below port 8
  | .burrowWriteAck port _ _ => below port 8
  | .burrowCorrectedRewrite port => below port 8
  | .burrowPhyReady port _ _ => below port 8
  | .fbBrwCfgWrite src port val => srcOk src && below port 8 && below val (2 ^ 32)
  | .burrowFillDone port => below port 8
  | .scrubRead _ _ _ _ => true
  | .scrubBehind _ => true
  | .portReset src val => srcOk src && below val (2 ^ 32)
  | .portResetDone _ _ => true
  | .burrowStallTimeout port => below port 8
  | .burrowRecoveryTimeout port => below port 8
  | .remapWrite src val => srcOk src && below val (2 ^ 32)
  | .hoardZeroDone => true
  | .quillFrameReceived port _ frame => below port 12 && frame.length == 3000
  | .quillFrameTransmit port => below port 12
  | .qpDefectTimer port _ _ => below port 12
  | .memberControlTimeout dim sq => below dim 12 && below sq 24
  | .memberRestore dim sq => below dim 12 && below sq 24
  | .mapChangeStart dim => below dim 12
  | .mapApply dim => below dim 12
  | .mapChangeLate dim => below dim 12
  | .groupFrameRelease dim _ => below dim 12
  | .deskewDelayExpiry dim _ => below dim 12
  | .qpConfigWrite src port _ val => srcOk src && below port 12 && below val (2 ^ 32)
  | .ack dim => below dim 12
  | .resend dim => below dim 12
  | .resendTimeout dim => below dim 12
  | .remoteAccessSend => true
  | .tidWaitTimeout => true
  | .remoteTimeout tid => below tid 65536
  | .write dim _ => below dim 12
  | .writeAck dim => below dim 12
  | .readReq dim _ => below dim 12
  | .readResp dim => below dim 12
  | .quillSignal dim => below dim 12
  | .actPost dim => below dim 12
  | .actStatus dim => below dim 12
  | .bcast dim _ => below dim 12
  | .undeliverable dim => below dim 12
  | .detourReq dim => below dim 12
  | .detourGrant dim => below dim 12
  | .detourRefuse dim => below dim 12
  | .detourEnd dim => below dim 12
  | .time dim _ _ => below dim 12
  | .distDone dim _ _ => below dim 12
  | .reservedMessage dim => below dim 12
  | .detourPlanHoldExpiry dim => below dim 12
  | .directRestoreHoldExpiry dim => below dim 12
  | .qmDistCmd _ _ _ _ _ => true
  | .distTimeout => true
  | .qmMemberCmd val => below val (2 ^ 32)
  | .qmIdWrite src _ val => srcOk src && below val (2 ^ 32)
  | .auditOpen src ctx => srcOk src && below ctx 4
  | .auditOpenComplete ctx _ => below ctx 4
  | .auditSeal src ctx _ => srcOk src && below ctx 4
  | .auditSealComplete ctx _ => below ctx 4
  | .auditClose src ctx => srcOk src && below ctx 4
  | .auditCloseComplete ctx => below ctx 4
  | .gcmEncrypt src slot _ _ _ => srcOk src && below slot 16
  | .gcmDecrypt src slot _ _ _ => srcOk src && below slot 16
  | .cmacGenerate src slot _ _ _ => srcOk src && below slot 16
  | .cmacVerify src slot _ _ _ => srcOk src && below slot 16
  | .contextSave src slot _ _ _ => srcOk src && below slot 16
  | .contextRestore src slot _ _ _ => srcOk src && below slot 16
  | .cipherOpComplete _ => true
  | .cipherQuantumExpiry _ => true
  | .cipherSuspend _ => true
  | .cipherResume => true
  | .keyLoad src v => srcOk src && below v (2 ^ 32)
  | .keyClear src v => srcOk src && below v (2 ^ 32)
  | .cipherSelftestDone _ => true
  | .dvfsEvaluation core => below core 32
  | .frequencyStep core => below core 32
  | .frequencyRequest core => below core 32
  | .cpmSample core _ => below core 32
  | .cpmCalibration core _ => below core 32
  | .tuningTrial lane => below lane 140
  | .trialDwellEnd lane _ => below lane 140
  | .thermalRead site _ => below site 16
  | .ceilingStep core => below core 32
  | .vmonSample monitor val => below monitor 8 && below val (2 ^ 32)
  | .supplyFaultClear monitor => below monitor 8
  | .fanKickTimeout fan => below fan 4
  | .fanRpmUpdate fan _ => below fan 4
  | .fanTachTimeout fan => below fan 4
  | .fanTachRestored fan => below fan 4
  | .bringupPhaseDone => true
  | .bringupWaitExpired => true
  | .lifecycleWarmReset src => srcOk src
  | .lifecycleShutdown src => srcOk src
  | .drainComplete _ _ => true
  | .drainTimeout => true
  | .ecatFrame _ => true
  | .alControlRequest v => below v (2 ^ 32)
  | .sdoUpload cnt index sub _ => below cnt 8 && below index 65536 && below sub 256
  | .sdoDownload cnt index sub _ _ _ => below cnt 8 && below index 65536 && below sub 256
  | .sdoSegment cnt _ _ _ => below cnt 8
  | .sdoInformation cnt _ => below cnt 8
  | .sdoSegmentTimeout => true
  | .mailboxRepeat => true
  | .foeWrite cnt _ _ => below cnt 8
  | .foeRead cnt _ => below cnt 8
  | .rxpdoReceived => true
  | .pdoAssembly => true
  | .sm2WatchdogExpiry => true
  | .unitMismatchTimeout unit => below unit 116
  | .mgmtWatchdogService => true
  | .mgmtWatchdogExpiry => true
  | .ecatLinkChange port _ => below port 2
  | .hpJrnReadWrite v => below v (2 ^ 32)
  | .heldRecordFlush ring => below ring 256
  | .hostEventWrite => true
  | .irqModerationTimeout vec => below vec 32
  | .hostWriteResponse _ => true
  | .hostWriteTimeout => true
  | .hpRingConfigWrite src _ ring v => srcOk src && below ring 256 && below v (2 ^ 32)
  | .snapshotInstant => true
  | .snapshotRecordWritten _ => true
  | .tagSampleWrite core eng _ => below core 32 && below eng 5
  | .overflowCapture core eng => below core 32 && below eng 5
  | .pcSelWrite src off v => srcOk src && below off (2 ^ 24) && aligned off && below v (2 ^ 32)
  | .pcClear src => srcOk src
  | .journalCheckpoint _ _ => true
  | .wearCheckpoint _ _ => true
  | .sramSweep _ _ => true
  | .journalSweepRead _ _ => true
  | .quillReceiveLockLoss port => below port 12
  | .refClockPeriodGlitch _ => true

end Sys2Proof
end

