-- ==== Sys2Proof/Tests/Slice0.lean ====
section
/-! SUPPORT. Witnesses: for each statement with hypotheses, concrete states and operands that meet them, clause by clause; and small
tests of well-formedness, decoding and worked figures of the spec. -/

open Sys2Proof Sys2Proof.Machine

namespace Sys2Proof.Tests

set_option Elab.async false

/-! ### Small states -/

/-- The machine right after reset. -/
def cold : State := State.reset

/-- A state at TT `n`, `n` ns after the release of POR_N. -/
def onTt (n : Nat) (s : State) : State := { s with tt := n, tb := { s.tb with cycles := n * 2 / 5 } }

/-- A state in bring-up phase `p`. -/
def inPhase (p : Nat) (s : State) : State := s.put R.HP_BOOT_STATUS_phase [] p

/-- READY, with every phase done, 100 s after reset. -/
def up : State := onTt 100000000000 { inPhase 12 cold with phaseDone := 12 }

/-! ### Witnesses: for each statement, states and operands that meet the hypotheses of its clauses -/

theorem witness_PowerOnResetLeavesResetState : ({ cold with por := true } : State).por = true := by decide

theorem witness_WarmResetClearsAndKeeps :
    cold.phase = 1
    ∧ (up.por = false ∧ up.warm = false ∧ up.phase ≠ 1 ∧ up.phase ≠ 15 ∧ up.hostShut .host = false)
    ∧ (let s : State := { up with warm := true }; s.por = false ∧ s.warm = true) := by decide

theorem witness_IslandWithoutClockIsHeld :
    (cold.por = false ∧ islandExists cold.cfg 53 = true ∧ 53 ∉ cold.heldIsl)
    ∧ (let s : State := { cold with heldIsl := [0, 53] }; s.por = false ∧ 0 ∈ s.heldIsl ∧ 53 ∈ s.heldIsl)
    ∧ (∀ i ∈ [0, 52, 53], islandExists cold.cfg i = true ∧ i ∉ cold.heldIsl)
    ∧ ({ cold with heldIsl := [52] } : State).por = false
    ∧ regIsland cold.cfg (R.DS_SCHED_CTL.addr []) = 52 ∧ regIsland cold.cfg (R.AU_CTL.addr []) = 53
    ∧ regIsland cold.cfg (R.CR_CORE_CTL.addr [31]) = 31 ∧ R.CR_CORE_CTL.off ≠ R.CR_CORE_STATUS.off
    ∧ isBankCtl R.CR_CORE_CTL = false := by decide +kernel

theorem witness_BringUpPhaseAdvances :
    (cold.por = false ∧ cold.warm = false ∧ cold.phase = 1 ∧ cold.cu.test = 0)
    ∧ (let s := inPhase 11 cold; s.phase = 11 ∧ s.boot.stop = 0)
    ∧ (let s := (inPhase 5 cold).puts [(R.TB_CTL_mode, [], 1)]
       2 ≤ s.phase ∧ s.phase ≤ 11 ∧ s.phase ≠ 3 ∧ s.phaseHolds s.phase = false)
    ∧ (let s := onTt 2000000000 ((inPhase 5 cold).puts [(R.TB_CTL_mode, [], 1)])
       s.phase = 5 ∧ s.boot.expired = false ∧ s.boot.stop = 0 ∧ s.boot.phaseTt + 2000000000 ≤ s.tt ∧ s.phaseHolds s.phase = false)
    ∧ (let q : Install := { tag := 1, d := 0, chip := 0, present := [1] }
       let s := onTt 1000000000 { inPhase 6 cold with boot := { cold.boot with flash := { cold.boot.flash with install := some q } } }
       let s := s.puts [(R.QM_ID_dim, [], 1), (R.QM_PRESENT_present, [0], 3)]
       s.phase = 6 ∧ s.boot.phaseTt + 1000000000 ≤ s.tt ∧ s.boot.expired = false ∧ s.phaseHolds s.phase = false) := by
  decide +kernel

theorem witness_OrderlyShutdownStops :
    (let s : State := { inPhase 11 cold with phaseDone := 4 }
     s.hostShut .host = false ∧ s.boot.stop = 0 ∧ 2 ≤ s.phase ∧ s.phase ≤ 11)
    ∧ (up.hostShut .sdo = false ∧ up.boot.stop = 0 ∧ up.phase = 12)
    ∧ (let s : State := { inPhase 13 up with boot := { up.boot with stop := 2 } }
       s.hostShut .fw = false ∧ s.boot.stop ≠ 0 ∧ s.phase = 13 ∧ s.boot.stop = 2
         ∧ s.boot.stopTt + s.boot.drain * 1000000000 ≤ s.tt)
    ∧ (let s : State := { inPhase 13 up with boot := { up.boot with stop := 2 },
                                             au := { up.au with outs := up.au.outs.set 0 { up.out 0 with active := true } } }
       s.phase = 13 ∧ s.boot.stop = 2 ∧ s.drained = false)
    ∧ (let s : State := { inPhase 13 up with boot := { up.boot with stop := 3 } }
       s.phase = 13 ∧ s.boot.stop = 3 ∧ s.ds.jobs = Tbl.empty ∧ s.ds.loads = Tbl.empty ∧ ∀ k < 4, s.audState k = audIdle) := by
  decide +kernel

/-- Core 0 with a segment on its tensor engine. -/
def busyCore : State :=
  let d : Desc := { job := 0, qos := 0, lc := false, last := false, hasWait := false, waitStatic := false, waitCtr := 0, waitVal := 0,
                    codeAddr := 0x100000000, codeLen := 256, winBase := 0, winSize := 16, batchAddr := 0, segId := 0, rank := 192,
                    order := 0 }
  let r : Running := { desc := d, start := 0, issue := none, pc := 0, wait := none, ended := false, below := false, hung := false,
                       sent := none }
  up.setEng 0 0 { Engine.init with run := some r }

theorem witness_VoltageLoopFollowsSlack :
    (up.mem.wf = true ∧ up.cfg.valid = true ∧ 0 < up.cfg.cores ∧ 0 ∉ up.heldIsl)
    ∧ (let s := (up.puts [(R.EM_CTL_dvfs_en, [], 1), (R.EM_CPM_CFG_margin, [], 20), (R.EM_CORE_STATE_v_code, [0], 100),
          (R.EM_VRANGE_v_max_code, [], 200), (R.EM_VRANGE_v_min_code, [], 50)]).setEc 0 { EnvCore.init with samples := [19, 30] }
       s.flag R.EM_CTL_dvfs_en = true ∧ (s.ec 0).evalTt + 10000 ≤ s.tt ∧ s.noCpm 0 = false ∧ (s.ec 0).samples = [19, 30]
         ∧ [30].foldl min 19 < s.get R.EM_CPM_CFG_margin ∧ s.vCode 0 < s.get R.EM_VRANGE_v_max_code
         ∧ s.get R.EM_VRANGE_v_min_code ≤ s.vCode 0 + 1)
    ∧ (let s := busyCore.puts [(R.EM_CPM_CFG_emerg, [], 10)]
       s.islandRuns 0 = true ∧ slackOf (s.ec 0).excl [12, 10, 11, 13] = some 10 ∧ s.get R.EM_CPM_CFG_emerg ≤ 10)
    ∧ (let s := busyCore.puts [(R.EM_CPM_CFG_emerg, [], 10), (R.EM_CTL_dvfs_en, [], 1)]
       s.islandRuns 0 = true ∧ slackOf (s.ec 0).excl [12, 9, 11, 13] = some 9 ∧ 9 < s.get R.EM_CPM_CFG_emerg
         ∧ s.flag R.EM_CTL_dvfs_en = true)
    ∧ (∃ x ∈ [(-1 : Int), 256, 255, 300], 0 ≤ x ∧ x ≤ 255)
    ∧ ((∀ x ∈ [(-1 : Int), 256, 300, -7], x < 0 ∨ 255 < x) ∧ up.noCpm 0 = false
        ∧ up.get R.EM_VRANGE_v_min_code ≤ up.get R.EM_VRANGE_v_max_code) := by decide +kernel

theorem witness_FrequencyStepsByOneCode :
    (let s := up.puts [(R.EM_CTL_dvfs_en, [], 1), (R.EM_CORE_STATE_f_code, [0], 60), (R.EM_CORE_TGT_tgt_code, [0], 40)]
     s.flag R.EM_CTL_dvfs_en = true ∧ 0 ∉ s.heldIsl ∧ (s.ec 0).req = none ∧ (s.ec 0).settle = none ∧ (s.ec 0).stepTt = none
       ∧ s.goalCode 0 < s.fCode 0)
    ∧ (let s := up.puts [(R.EM_CTL_dvfs_en, [], 1), (R.EM_CORE_STATE_f_code, [0], 30), (R.EM_CORE_TGT_tgt_code, [0], 40),
          (R.EM_CORE_TGT_ceil_code, [0], 68), (R.EM_CORE_TGT_lim_code, [0], 68)]
       s.fCode 0 < s.goalCode 0 ∧ s.flag R.EM_CORE_STATE_vlimited [0] = false)
    ∧ (let s := up.puts [(R.EM_CTL_dvfs_en, [], 1), (R.EM_CORE_STATE_f_code, [0], 24), (R.EM_CORE_TGT_tgt_code, [0], 24),
          (R.EM_CORE_TGT_floor_code, [0], 24)]
       s.fCode 0 = s.goalCode 0)
    ∧ (let s := up.setEc 0 { EnvCore.init with settle := some 5 }; (s.ec 0).settle = some 5 ∧ 5 ≤ s.tt)
    ∧ (let s := up.setEc 0 { EnvCore.init with req := some (48, 7) }; (s.ec 0).req = some (48, 7) ∧ 7 + 50000 ≤ s.tt) := by
  decide +kernel

theorem witness_LaneTuningTrials :
    (let s := up.puts [(R.EM_CTL_tune_en, [], 1), (R.QP_CTL_en, [0], 1), (R.QP_STATUS_defects, [0], 0),
        (R.QP_TUNE_MAP_eq_addr, [0], 1), (R.QP_TUNE_MAP_eye_addr, [0], 2)]
     let x := s.lane 128
     s.flag R.EM_CTL_tune_en = true ∧ s.laneUp 128 = true ∧ x.stopped = false ∧ x.down = false ∧ x.trial = none ∧ (s.tuneMap 128).1 ≠ 0xFF
       ∧ (s.tuneMap 128).2.1 ≠ 0xFF ∧ x.thrTurn = false ∧ x.next ≤ s.tt ∧ x.retry = none ∧ x.reqs = [])
    ∧ (let tr : Trial := { thr := false, c := 3, stage := 2, reads := [], avg := [some 1, some 2], dwell := some 9, spoiled := false }
       let r : PhyReq := { fn := .eye, write := false, addr := 2, data := 0 }
       let s := up.setLane 0 { TuneLane.init with trial := some tr, reqs := [r] }
       let u := up.setLane 0 { TuneLane.init with trial := some tr }
       (s.lane 0).reqs = [r] ∧ (s.lane 0).trial = some tr ∧ r.write = false ∧ tr.reads.length < 3
         ∧ (u.lane 0).trial = some tr ∧ (u.lane 0).reqs = [] ∧ tr.stage ≠ 0 ∧ tr.dwell = some 9 ∧ 9 ≤ u.tt ∧ tr.stage = 2
         ∧ tr.avg.length = 2 ∧ tr.thr = false)
    ∧ (let r : PhyReq := { fn := .eq, write := true, addr := 1, data := 4 }
       let s := up.setLane 0 { TuneLane.init with reqs := [r] }
       (s.lane 0).reqs = [r] ∧ (s.lane 0).trial = none) := by decide +kernel

theorem witness_ThermalCeilings :
    (let s := up.puts [(R.EM_THERM_CFG_t_warn, [], 100), (R.EM_THERM_CFG_t_crit, [], 110)]
     s.sitePresent 0 = true ∧ (-640 : Int) ≤ 1600 ∧ (1600 : Int) ≤ 2400 ∧ (1600 : Int) ≤ 16 * (s.get R.EM_THERM_CFG_t_warn : Int)
       ∧ (1600 : Int) ≤ 16 * (s.get R.EM_THERM_CFG_t_crit : Int) ∧ s.flag R.EM_THERM_failed [0] = false
       ∧ 16 * (s.get R.EM_THERM_CFG_t_crit : Int) < 2400)
    ∧ (let s : State := { up with cfg := { up.cfg with cores := 4 } }; s.cfg.valid = true ∧ s.sitePresent 1 = false)
    ∧ (let s := up.puts [(R.EM_THERM_valid, [0], 1), (R.EM_THERM_temp, [0], 1600), (R.EM_THERM_CFG_t_throttle, [], 95),
          (R.EM_CORE_TGT_ceil_code, [0], 68)]
       s.env.crit = false ∧ s.governing 0 = some (1600, 0) ∧ 16 * (s.get R.EM_THERM_CFG_t_throttle : Int) < 1600
         ∧ max 24 (s.get R.EM_CORE_TGT_floor_code [0]) < s.get R.EM_CORE_TGT_ceil_code [0] ∧ (s.ec 0).ceilTt = none)
    ∧ (let s := up.puts [(R.EM_THERM_valid, [0], 1), (R.EM_THERM_temp, [0], 800), (R.EM_THERM_CFG_t_throttle, [], 95),
          (R.EM_CORE_TGT_ceil_code, [0], 64)]
       s.governing 0 = some (800, 0) ∧ (800 : Int) < 16 * s.get R.EM_THERM_CFG_t_throttle - 80
         ∧ s.get R.EM_CORE_TGT_ceil_code [0] < 68)
    ∧ (let s := up.puts [(R.EM_THERM_valid, [0], 1), (R.EM_THERM_temp, [0], 1520), (R.EM_THERM_CFG_t_throttle, [], 95)]
       s.governing 0 = some (1520, 0) ∧ 16 * (s.get R.EM_THERM_CFG_t_throttle : Int) - 80 ≤ 1520
         ∧ (1520 : Int) ≤ 16 * s.get R.EM_THERM_CFG_t_throttle) := by decide +kernel

theorem witness_SupplyFaultLatchesAndClears :
    (let s := up.puts [(R.EM_VMON_CFG_en, [4], 1), (R.EM_VMON_CFG_nominal, [4], 100)]
     s.flag R.EM_VMON_CFG_en [4] = true ∧ 20 * ((105 : Int) - s.get R.EM_VMON_CFG_nominal [4]).natAbs ≤ s.get R.EM_VMON_CFG_nominal [4])
    ∧ (let s := (up.puts [(R.EM_VMON_CFG_en, [7], 1), (R.EM_VMON_CFG_nominal, [7], 100)]).setMon 7 { EnvMon.init with faultN := 9 }
       s.get R.EM_VMON_CFG_nominal [7] < 10 * ((89 : Int) - s.get R.EM_VMON_CFG_nominal [7]).natAbs ∧ (s.mon 7).faultN = 9
         ∧ bit (s.get R.EM_VMON_STATUS_fault) 7 = false)
    ∧ (let s := (up.puts [(R.EM_VMON_STATUS_fault, [], 16)]).setMon 4 { EnvMon.init with inTt := some 1 }
       bit (s.get R.EM_VMON_STATUS_fault) 4 = true ∧ (s.mon 4).inTt = some 1 ∧ 1 + 1000000000 ≤ s.tt) := by decide +kernel

theorem witness_FansKickRunAndFault :
    (let s := (up.puts [(R.EM_FAN_STATUS_state, [3], 1), (R.EM_FAN_STATUS_retries, [3], 2)]).setFan 3 { EnvFan.init with kick := some 9 }
     s.get R.EM_FAN_STATUS_state [3] = 1 ∧ (s.fan 3).kick = some 9 ∧ 9 ≤ s.tt ∧ s.get R.EM_FAN_STATUS_retries [3] < 3)
    ∧ (let s := up.puts [(R.EM_FAN_STATUS_state, [0], 1), (R.EM_FAN_STATUS_retries, [0], 3)]
       s.get R.EM_FAN_STATUS_state [0] = 1 ∧ s.get R.EM_FAN_STATUS_retries [0] = 3)
    ∧ (let s := (up.puts [(R.EM_FAN_STATUS_state, [0], 1)]).setFan 0 { EnvFan.init with pause := some 9 }
       s.get R.EM_FAN_STATUS_state [0] = 1 ∧ (s.fan 0).kick = none ∧ (s.fan 0).pause = some 9 ∧ 9 ≤ s.tt)
    ∧ (let s := up.puts [(R.EM_FAN_STATUS_state, [0], 2), (R.EM_FAN_STATUS_duty, [0], 100)]
       s.get R.EM_FAN_STATUS_state [0] = 2 ∧ s.get R.EM_FAN_STATUS_duty [0] ≠ 0 ∧ s.flag R.EM_FAN_STATUS_tach_lost [0] = false
         ∧ (s.fan 0).edge + 2000000000 ≤ s.tt)
    ∧ (let s := (up.puts [(R.EM_FAN_STATUS_tach_lost, [0], 1)]).setFan 0 { EnvFan.init with good := some 0 }
       s.flag R.EM_FAN_STATUS_tach_lost [0] = true ∧ (s.fan 0).good = some 0 ∧ 0 + 10000000000 ≤ s.tt) := by decide +kernel

theorem witness_RegisterWritesFollowTheirAccess :
    (cold.hostShut .host = true ∧ cold.hostShut .fw = false ∧ findReg cold.cfg 0xFFFFFC = none)
    ∧ (let s : State := { up with heldIsl := [53] }
       s.hostShut .host = false ∧ findReg s.cfg R.TB_QUAL.off = some (R.TB_QUAL, []) ∧ s.regHeld R.TB_QUAL.off = true)
    ∧ (findReg up.cfg R.CU_OP_TAG_HI.off = some (R.CU_OP_TAG_HI, []) ∧ up.regHeld R.CU_OP_TAG_HI.off = false
        ∧ writable R.CU_OP_TAG_HI = true ∧ mgmtOnly R.HP_IRQ_STATUS.off = false)
    ∧ (findReg up.cfg R.CU_OP_TAG_LO.off = some (R.CU_OP_TAG_LO, []) ∧ (hiOf R.CU_OP_TAG_LO).isSome = true)
    ∧ (hiOf R.TB_QUAL = none ∧ R.TB_QUAL.journalled = true ∧ up.regHeld R.TB_QUAL.off = false ∧ writable R.TB_QUAL = true)
    ∧ findReg up.cfg R.HP_IRQ_STATUS.off = some (R.HP_IRQ_STATUS, []) ∧ findReg up.cfg R.PU_IRQ.off = some (R.PU_IRQ, [])
    ∧ findReg up.cfg (R.HP_IRQ_MOD.addr [31]) = some (R.HP_IRQ_MOD, [31]) := by decide +kernel

theorem witness_RegisterWritesFollowTheirAccess_own :
    (findReg up.cfg (R.CX_CTRL_TX.addr [1]) = some (R.CX_CTRL_TX, [1]) ∧ up.regHeld (R.CX_CTRL_TX.addr [1]) = false
        ∧ writable R.CX_CTRL_TX = true ∧ hiOf R.CX_CTRL_TX = none ∧ R.CX_CTRL_TX.journalled = false
        ∧ mgmtOnly (R.CX_CTRL_TX.addr [1]) = false)
    ∧ (findReg up.cfg (R.CR_SYNC.addr [2, 255]) = some (R.CR_SYNC, [2, 255]) ∧ writable R.CR_SYNC = true
        ∧ hiOf R.CR_SYNC = none ∧ up.flag R.CR_CORE_CTL_en [2] = false
        ∧ (up.puts [(R.CR_CORE_CTL_en, [2], 1)]).flag R.CR_CORE_CTL_en [2] = true) := by
  decide +kernel

theorem witness_ParametersApplyAtTheBoundary :
    (up.mem.wf = true ∧ up.cfg.valid = true ∧ up.get R.HP_JRN_STATUS_copy = 0 ∧ up.jrn.pend = [])
    ∧ (let h : ParamWrite := { off := R.TB_QUAL.off, val := 7, src := .host }
       let d : ParamWrite := { off := R.TB_QUAL.off, val := 9, src := .sdo }
       h.src = .host ∧ d.src ≠ .host ∧ h.off = d.off ∧ findReg up.cfg h.off = some (R.TB_QUAL, []) ∧ up.regHeld h.off = false
        ∧ R.TB_QUAL ∈ [R.TB_QUAL, R.TB_HOLD_LIMIT, R.PU_HYST, R.PU_IDX_CHK, R.DS_STARVE, R.FB_ARB, R.QP_BER, R.QM_TIMERS, R.QM_BUF]
        ∧ up.hostShut .host = false
        ∧ up.gate .host h.off (up.regWord R.TB_QUAL) (fieldsWrite (up.regWord R.TB_QUAL) 7 R.TB_QUAL.fields) = none
        ∧ up.hostShut .sdo = false
        ∧ up.gate .sdo h.off (up.regWord R.TB_QUAL) (fieldsWrite (up.regWord R.TB_QUAL) 9 R.TB_QUAL.fields) = none)
    ∧ (let s : State := { up with mgmtHalted := true }
       s.gate .host R.TB_QUAL.off (s.regWord R.TB_QUAL) (fieldsWrite (s.regWord R.TB_QUAL) 7 R.TB_QUAL.fields) = some causeHalted) := by
  decide +kernel

theorem witness_RegisterReadsLatchAndClear :
    (cold.hostShut .host = true ∧ R.HP_BOOT_STATUS.off < R.TB_QUAL.off)
    ∧ (cold.hostShut .fw = false ∧ findReg cold.cfg R.TB_TT_LO.off = some (R.TB_TT_LO, []) ∧ cold.regHeld R.TB_TT_LO.off = false
        ∧ hiOf R.TB_TT_LO = some R.TB_TT_HI ∧ R.TB_TT_LO.off ≠ R.PU_IDX_LO.off ∧ (loOf R.TB_TT_HI).isSome = true)
    ∧ (loOf R.HP_ERR = none ∧ hiOf R.HP_ERR = none ∧ R.HP_ERR.off ≠ R.PU_STATUS.off ∧ (∃ f ∈ R.HP_ERR.fields, f.acc = .rc)
        ∧ findReg cold.cfg R.HP_ERR.off = some (R.HP_ERR, []))
    ∧ (loOf R.TB_QUAL = none ∧ hiOf R.TB_QUAL = none ∧ ∀ f ∈ R.TB_QUAL.fields, f.acc ≠ .rc)
    ∧ (let s : State := { cold with heldIsl := [53] }; s.regHeld R.TB_QUAL.off = true)
    ∧ findReg cold.cfg 0xFFFFFC = none := by decide +kernel

theorem witness_ReferencesAreCheckedAndQualify :
    ((up.ref 0).lastTick = none ∧ up.activeRef ≠ 0)
    ∧ (let s := up.puts [(R.TB_STATUS_active, [], 1), (R.TB_STATUS_state, [], 2)]
       (s.ref 1).lastTick = none ∧ s.activeRef = 1 ∧ s.tbSt = 2)
    ∧ (let s := up.setRef 0 { RefSt.init with lastTick := some 5 }
       (s.ref 0).lastTick ≠ none ∧ 9999 ≠ (if s.flag R.TB_CTL_ref0_25m then 25000 else 10000))
    ∧ (up.flag R.TB_STATUS_osc_fail = false ∧ 200000000 < (200000001 : Int).natAbs ∧ (-200000000 : Int).natAbs ≤ 200000000)
    ∧ (let s := up.setRef 0 { RefSt.init with clean := some 0 }
       s.refPresent 0 = true ∧ s.refQual 0 = false ∧ s.flag R.TB_STATUS_osc_fail = false ∧ (s.ref 0).clean = some 0
         ∧ 0 + s.get R.TB_QUAL_qual * 1000000 ≤ s.up) := by decide +kernel

theorem witness_TimebaseStatesFollowTheTable :
    (let s := up.puts [(R.TB_STATUS_state, [], 1), (R.QP_STATUS_defects, [0], 0)]
     s.refPresent 2 = true ∧ s.ref2Defect = false ∧ s.get R.TB_CTL_mode = 0 ∧ s.tbSt ≠ 0 ∧ s.tbSt ≠ 4)
    ∧ (let s := up.puts [(R.QP_STATUS_defects, [0], 0), (R.TB_STATUS_osc_fail, [], 1)]
       s.refPresent 2 = true ∧ s.ref2Defect = false ∧ s.get R.TB_CTL_mode = 0 ∧ s.tbSt = 0
         ∧ s.flag R.TB_STATUS_osc_fail = true)
    ∧ (let s := up.puts [(R.TB_CTL_mode, [], 2), (R.TB_CTL_manual_ref, [], 1), (R.TB_STATUS_qualified, [], 2)]
       s.get R.TB_CTL_mode ≠ 0 ∧ s.selectRef = some 1 ∧ s.tbSt = 0)
    ∧ (let s := up.puts [(R.TB_CTL_mode, [], 2), (R.TB_CTL_manual_ref, [], 1), (R.TB_STATUS_qualified, [], 2),
          (R.TB_STATUS_state, [], 1), (R.TB_STATUS_active, [], 0)]
       s.selectRef = some 1 ∧ s.tbSt = 1 ∧ 1 ≠ s.activeRef)
    ∧ (let s := up.puts [(R.TB_CTL_mode, [], 2), (R.TB_CTL_manual_ref, [], 1), (R.TB_STATUS_qualified, [], 2),
          (R.TB_STATUS_state, [], 1), (R.TB_STATUS_active, [], 1)]
       let u : State := { s with tb := { s.tb with lockStreak := 64 } }
       s.selectRef = some 1 ∧ s.tbSt = 1 ∧ 1 = s.activeRef ∧ s.tb.lockStreak < 64 ∧ u.selectRef = some 1 ∧ u.tbSt = 1
         ∧ 64 ≤ u.tb.lockStreak)
    ∧ (let s := up.puts [(R.TB_CTL_mode, [], 2), (R.TB_CTL_manual_ref, [], 1), (R.TB_STATUS_qualified, [], 2),
          (R.TB_STATUS_state, [], 2), (R.TB_STATUS_active, [], 1)]
       let u : State := { s with tb := { s.tb with outStreak := 4 } }
       let v : State := { s with tb := { s.tb with err := 10001 } }
       s.selectRef = some s.activeRef ∧ s.tbSt = 2 ∧ s.tb.outStreak < 4 ∧ s.tb.err.natAbs ≤ 10000 ∧ s.tt / 1000000 ≠ s.tb.slopeMs
         ∧ u.tbSt = 2 ∧ 4 ≤ u.tb.outStreak ∧ 10000 < v.tb.err.natAbs ∧ v.mayStep = true ∧ v.tbSt = 2)
    ∧ (let s := up.puts [(R.TB_CTL_mode, [], 1), (R.TB_STATUS_state, [], 1)]
       let u : State := { s with tb := { s.tb with lockedNs := 1000000000 } }
       s.selectRef = none ∧ s.tbSt = 1 ∧ s.tb.lockedNs < 1000000000 ∧ u.selectRef = none ∧ 1000000000 ≤ u.tb.lockedNs)
    ∧ (let s := up.puts [(R.TB_CTL_mode, [], 1), (R.TB_STATUS_state, [], 3), (R.TB_STATUS_osc_fail, [], 1)]
       s.selectRef = none ∧ s.tbSt = 3 ∧ s.flag R.TB_STATUS_osc_fail = true)
    ∧ (let s := up.puts [(R.TB_CTL_mode, [], 1)]; s.selectRef = none ∧ s.tbSt = 0 ∧ s.flag R.TB_STATUS_osc_fail = false)
    ∧ (let s := up.puts [(R.TB_CTL_mode, [], 1), (R.TB_STATUS_state, [], 4)]
       let u : State := { s with tb := { s.tb with lostFromFree := true } }
       u.selectRef = none ∧ u.tbSt = 4 ∧ u.tb.lostFromFree = true ∧ u.flag R.TB_STATUS_osc_fail = false
         ∧ u.get R.TB_STATUS_qualified = 0) := by decide +kernel

theorem witness_HoldoverOscillatorAndLoad :
    (let s := up.puts [(R.TB_STATUS_state, [], 3)]
     let u : State := { s with tb := { s.tb with hold := some (0, 100000) } }
     u.tbSt = 3 ∧ u.get R.TB_HOLD_LIMIT_limit * 2000000000000000000 < u.holdScaled)
    ∧ (up.flag R.TB_STATUS_osc_fail = false ∧ up.tbSt = 0 ∧ up.mayStep = true ∧ 53 ∉ up.heldIsl)
    ∧ (let s := up.puts [(R.TB_STATUS_state, [], 4)]; s.flag R.TB_STATUS_osc_fail = false ∧ s.tbSt = 4 ∧ s.tbSt ≠ 0)
    ∧ (let s := up.puts [(R.TB_STATUS_osc_fail, [], 1)]; s.flag R.TB_STATUS_osc_fail = true) := by decide +kernel

theorem witness_AlignmentSetsTheTickPhase :
    (let s := up.puts [(R.TB_CTL_ref2_port, [], 3), (R.TB_STATUS_active, [], 2), (R.TB_STATUS_state, [], 2)]
     let u : State := { s with tb := { s.tb with exch := s.tb.exch.set 3 (List.replicate 16 4) } }
     3 < u.cfg.quillPorts ∧ 16 ≤ (u.tb.exch.get 3 []).length ∧ u.flag R.TB_CTL_rack_lead = false ∧ u.get R.TB_CTL_ref2_port = 3
       ∧ u.activeRef = 2 ∧ u.tbSt = 2)
    ∧ (let s := up.puts [(R.TB_CTL_rack_lead, [], 1), (R.TB_CTL_align_en, [], 1), (R.TB_CTL_align_port, [], 3)]
       let u : State := { s with tb := { s.tb with exch := s.tb.exch.set 3 (List.replicate 16 18) } }
       16 ≤ (u.tb.exch.get 3 []).length ∧ u.flag R.TB_CTL_rack_lead = true ∧ u.flag R.TB_CTL_align_en = true
         ∧ u.get R.TB_CTL_align_port = 3 ∧ u.get R.TB_CTL_ref2_port ≠ 3 ∧ 8 < (u.theta 3).natAbs ∧ u.tb.lastUpdate = none
         ∧ u.tb.exchTt.get 3 0 + 16000000 ≤ u.up
         ∧ (u.puts [(R.QP_STATUS_defects, [3], 0)]).alignDefect = false
         ∧ (u.puts [(R.QP_STATUS_defects, [3], 1)]).alignDefect = true)
    ∧ (let s := up.puts [(R.TB_CTL_rack_lead, [], 1), (R.TB_CTL_align_en, [], 1), (R.TB_CTL_align_port, [], 0),
          (R.QP_STATUS_defects, [0], 4)]
       0 < s.cfg.quillPorts ∧ s.alignDefect = true)
    ∧ (let s := up.puts [(R.TB_CTL_rack_lead, [], 1), (R.TB_CTL_align_en, [], 1), (R.TB_CTL_align_port, [], 15)]
       s.cfg.quillPorts ≤ s.get R.TB_CTL_align_port ∧ s.tb.exchTt.get 15 0 + 16000000 ≤ s.up)
    ∧ (up.puts [(R.TB_CTL_rack_lead, [], 1)]).timeRoot = true
    ∧ (let s := (onTt 15999999 up).puts [(R.TB_CTL_rack_lead, [], 1), (R.TB_CTL_align_en, [], 1), (R.QP_STATUS_defects, [0], 0)]
       0 < s.cfg.quillPorts ∧ s.alignDefect = false ∧ s.up < s.tb.exchTt.get 0 0 + 16000000)
    ∧ (up.tb.adopt = none ∧ up.timeRoot = false)
    ∧ (let x : TickAdopt := { phase := 499999, tick := 100000500000, lead := 2 }
       let y : TickAdopt := { phase := -500000, tick := 100000500001, lead := 2 }
       ((x.tick : Int) - (up.tt : Int)).natAbs ≤ 500000 ∧ 500000 < ((y.tick : Int) - (up.tt : Int)).natAbs ∧ up.mayStep = true
         ∧ -500000 ≤ y.phase ∧ x.phase ≤ 499999) := by decide +kernel

/-- Channel 0 in quadrature, every input low. -/
def quad : State := (up.puts [(R.PU_CH_CTL_mode, [0], 1)]).setCh 0 { PuCh.init with lvl := #v[some false, some false, some false] }

theorem witness_EncoderEdgesCount :
    (quad.mem.wf = true ∧ quad.cfg.valid = true ∧ 0 < quad.cfg.posChannels ∧ quad.puClocked = true
      ∧ (quad.ch 0).lvl = #v[some false, some false, some false] ∧ (∀ x ∈ (quad.ch 0).edge.toList, x = none)
      ∧ (quad.ch 0).seen = #v[false, false, false] ∧ quad.get R.PU_CH_CTL_mode [0] = 1 ∧ quad.get R.PU_CH_CTL_filt [0] + 1 ≤ 8
      ∧ 0 ≤ quad.get R.PU_CH_CTL_filt [0])
    ∧ (let s := quad.setCh 0 { quad.ch 0 with edge := #v[some 39999999990, none, none] }
       ∀ x ∈ (s.ch 0).edge.toList, x = none ∨ x = some 39999999990 ∧ 39999999990 + 10 ≤ s.tb.cycles)
    ∧ (let s := quad.puts [(R.PU_CH_CTL_idx_en, [0], 1)]
       s.flag R.PU_CH_CTL_idx_en [0] = true ∧ s.flag R.PU_CH_CTL_idx_gate [0] = false ∧ (s.ch 0).cnt < 2 ^ 48)
    ∧ (let s := (up.puts [(R.PU_CH_CTL_mode, [0], 2)]).setCh 0
          { PuCh.init with lvl := #v[some false, some false, some true], hallRef := some 1 }
       s.get R.PU_CH_CTL_mode [0] = 2 ∧ (s.ch 0).hallRef = some 1) := by decide +kernel

/-- Channel 0 in SSI mode, 12 bits, 8 cycles a clock, its frame and 1 µs of recovery over. -/
def ssi (p : PuCh) : State :=
  (up.puts [(R.PU_CH_CTL_mode, [0], 3), (R.PU_CH_CTL_ssi_bits, [0], 12), (R.PU_CH_CTL_ssi_div, [0], 3), (R.PU_SSI_ssi_recovery, [0], 1),
    (R.PU_SSI_ssi_maxstep, [0], 5)]).setCh 0 { p with ssiBusy := true, ssiStart := some 0 }

theorem witness_SsiFramesSpeedAndStandstill :
    (let s := up.puts [(R.PU_CH_CTL_mode, [0], 3), (R.PU_STATUS_standstill, [0], 0), (R.PU_HYST_speed_tau, [0], 1)]
     s.puClocked = true ∧ s.get R.PU_CH_CTL_mode [0] = 3 ∧ (s.ch 0).ssiStart = none ∧ s.flag R.PU_STATUS_standstill [0] = false
       ∧ (s.ch 0).still + s.get R.PU_STILL_still [0] * 1000000 ≤ s.up ∧ (s.ch 0).speedTick + 10000 ≤ s.up
       ∧ 1 ≤ s.get R.PU_HYST_speed_tau [0])
    ∧ (let s := (up.puts [(R.PU_CH_CTL_mode, [0], 3), (R.PU_SSI_ssi_period, [0], 100)]).setCh 0
          { PuCh.init with ssiStart := some 39999999999, speedTick := 99999990001 }
       (s.ch 0).ssiStart = some 39999999999 ∧ s.tb.cycles < 39999999999 + s.get R.PU_SSI_ssi_period [0] * 400
         ∧ s.up < (s.ch 0).speedTick + 10000)
    ∧ (let s := ssi { PuCh.init with ssiRef := some 4095 }
       let d := fun w : Nat => signedOf 12 (w + 2 ^ 12 - 4095)
       s.ssiOver 0 = true ∧ (s.ch 0).ssiRef = some 4095 ∧ (s.ch 0).ssiErr < 3 ∧ s.flag R.PU_CH_CTL_ssi_gray [0] = false
         ∧ (∀ x ∈ [(2 ^ 76, 4), (2 ^ 76 + 2 ^ 92, 5)], s.ssiWord 0 (s.ssiLine 0 x.1 0) = x.2 ∧ s.ssiStuck 0 (s.ssiLine 0 x.1 0) = false)
         ∧ (d 4).natAbs ≤ s.get R.PU_SSI_ssi_maxstep [0] ∧ d 4 ≠ 0 ∧ s.get R.PU_SSI_ssi_maxstep [0] < (d 5).natAbs
         ∧ s.ssiStuck 0 (s.ssiLine 0 0 (2 ^ 400 - 1)) = true)
    ∧ (let s := ssi { PuCh.init with ssiRef := some 1, ssiErr := 3 }; s.ssiOver 0 = true ∧ 3 ≤ (s.ch 0).ssiErr)
    ∧ (let s := (onTt 1000 up).puts [(R.PU_STILL_still, [0], 1), (R.PU_STATUS_standstill, [0], 0)]
       s.up < (s.ch 0).still + s.get R.PU_STILL_still [0] * 1000000 ∧ s.flag R.PU_STATUS_standstill [0] = false) := by
  decide +kernel

/-- A count entry of channel 0 waits. -/
def cntEntry : AuEntry :=
  { post := 1, state := .armed, source := 1, chip := 0, acc := 0, fwd := true, anchor := none, start := 0, stop := 0, minOn := 0,
    maxOn := 0, gap := 0, cut := false, base := 0 }

theorem witness_CountLoadsControlAndThresholds :
    (up.puClocked = true ∧ up.deadlineOn 0 = false ∧ up.cntPending 0 = false ∧ up.get R.PU_CH_CTL_mode [0] = 0
      ∧ up.hostShut .host = false
      ∧ up.gate .host (R.PU_CH_CTL.addr [0]) (up.regWord R.PU_CH_CTL [0]) (fieldsWrite (up.regWord R.PU_CH_CTL [0]) 1 R.PU_CH_CTL.fields)
          = none
      ∧ bits (fieldsWrite (up.regWord R.PU_CH_CTL [0]) 1 R.PU_CH_CTL.fields) 1 0 = 1)
    ∧ (let s := quad
       let new := fieldsWrite (s.regWord R.PU_CH_CTL [0]) 5 R.PU_CH_CTL.fields
       s.get R.PU_CH_CTL_mode [0] ≠ 0 ∧ s.regWord R.PU_CH_CTL [0] ≠ new ∧ bits (s.regWord R.PU_CH_CTL [0]) 31 2 ≠ bits new 31 2)
    ∧ (let s : State := { up with au := { up.au with table := up.au.table.set 0 cntEntry } }; s.cntPending 0 = true)
    ∧ (let s := (up.puts [(R.PU_GLOBAL_thr_loop, [], 1)]).setCh 0 { PuCh.init with toggle := #v[some 100000000000, none, none] }
       s.flag R.PU_GLOBAL_thr_loop = true ∧ s.toggled 0 0 = true ∧ s.toggled 0 1 = false ∧ bit (s.ch 0).lost 1 = false
         ∧ vget (s.ch 0).scan 0 + 6400000 ≤ s.up ∧ vget (s.ch 0).scan 1 + 6400000 ≤ s.up
         ∧ (let h := toggledCodes (scanCodes (2 ^ 10) 1); h.1 + 8 ≤ h.2) ∧ (let h := toggledCodes (scanCodes (2 ^ 10) 0); h.2 < h.1 + 8)) := by
  decide +kernel

/-- Camera 0 on lane 0 is enabled, for lines of two pixels of one byte. -/
def cam : State := up.puts [(R.CX_CAM_CTL_en, [0], 1), (R.PP_CTL_width, [0], 2), (R.PP_RING_CFG_ring_len, [0], 4), (R.PP_CTL_pos_ch, [0], 15)]

theorem witness_CameraLinesBecomeStrips :
    (cam.mem.wf = true ∧ cam.cfg.valid = true ∧ cam.laneCam 0 = some 0 ∧ 1 ≠ cam.get R.CX_CAM_CTL_stream_id [0]
      ∧ cam.get R.CX_CAM_CTL_conns [0] = 0 ∧ (cam.pipe 0).buf = [] ∧ (cam.pipe 0).nextTag = none
      ∧ cam.flag R.CX_CAM_STATUS_group_up [0] = false ∧ cam.get R.CX_CAM_STATUS_lock [0] = 0 ∧ (cam.pipe 0).delivered = 0
      ∧ (cam.pipe 0).cur = none ∧ bit (cam.get R.CX_CAM_STATUS_lock [0]) (0 - cam.get R.CX_CAM_CTL_base_lane [0]) = false)
    ∧ (let s := cam.puts [(R.CX_CAM_STATUS_group_up, [0], 1), (R.CX_CAM_STATUS_lock, [0], 1)]
       s.flag R.CX_CAM_STATUS_group_up [0] = true ∧ s.flag R.CX_CAM_STATUS_stalled [0] = false ∧ (s.pipe 0).img = none
         ∧ (s.pipe 0).busy ≤ s.up ∧ (s.pipe 0).slots.length < 15 ∧ (s.pipe 0).slots = [] ∧ (s.pipe 0).swap = false
         ∧ s.ringFull 0 = false ∧ 0 < s.get R.PP_CTL_width [0]
         ∧ [1#8, 2#8].length = s.get R.PP_CTL_width [0] * fmtBytes (s.get R.PP_CTL_fmt [0])
         ∧ bit (s.get R.CX_CAM_STATUS_lock [0]) 0 = true ∧ s.laneCam 0 = some 0)
    ∧ (let i : StripIn := { pipe := 0, seq := 0, addr := hoardBase, ttFirst := 0, ttLast := 0, cntFirst := 0, cntLast := 0, replaced := 0,
                            lost := 0, resumed := false, prodTt := 0 }
       let o : StripOut := { bytes := [1#8], strip := i }
       let s := cam.setPipe 0 { Pipe.init with out := [o] }
       (s.pipe 0).out = [o] ∧ o.strip.pipe = 0)
    ∧ (let s := (cam.puts [(R.PP_STALL_stall_us, [0], 100)]).setPipe 0 { Pipe.init with lastAcc := some 1 }
       let l : Slot := { bytes := [1#8, 2#8], tt := 1, cnt := none, replaced := false }
       let u := s.setPipe 0 { Pipe.init with lastAcc := some 1, slots := [l] }
       s.pipeOn 0 = true ∧ s.flag R.CX_CAM_STATUS_stalled [0] = false ∧ s.decBound 0 = none ∧ (s.pipe 0).lastAcc = some 1
         ∧ 1 + s.get R.PP_STALL_stall_us [0] * 1000 ≤ s.up ∧ (s.pipe 0).slots = [] ∧ (u.pipe 0).slots ≠ []
         ∧ (u.pipe 0).slots.length < 16)
    ∧ (let s := (onTt 2 cam).setPipe 0 { Pipe.init with lastAcc := some 1 }; s.up < 1 + s.get R.PP_STALL_stall_us [0] * 1000) := by
  decide +kernel

theorem witness_CameraControlBanksAndConfiguration :
    (cam.ctrlCam 0 = some 0 ∧ cam.ctrlOn 0 = true ∧ 0 = cam.get R.CX_CAM_CTL_base_lane [0]
      ∧ (cam.get R.CX_CTRL_IDX_rx_prod [0] + 1) % 256 ≠ cam.get R.CX_CTRL_IDX_rx_cons [0]
      ∧ cam.pipeOn 0 = true ∧ cam.decBound 0 = none ∧ cam.get R.CX_CTRL_IDX_tx_cons [0] = cam.get R.CX_CTRL_IDX_tx_prod [0])
    ∧ (let s := cam.puts [(R.CX_CTRL_IDX_rx_prod, [0], 255), (R.CX_CTRL_IDX_tx_prod, [0], 1)]
       (s.get R.CX_CTRL_IDX_rx_prod [0] + 1) % 256 = s.get R.CX_CTRL_IDX_rx_cons [0]
         ∧ s.get R.CX_CTRL_IDX_tx_cons [0] ≠ s.get R.CX_CTRL_IDX_tx_prod [0])
    ∧ cam.regHeld (R.PP_CAL_SWAP.addr [0]) = false ∧ cam.regHeld (R.PP_CTL.addr [0]) = false
    ∧ cam.regHeld (R.CX_CAM_CTL.addr [0]) = false ∧ (cam.pipe 0).bank1.check (cam.get R.PP_STAMP_out_width [0]) = none
    ∧ (let s := cam.puts [(R.PP_STAMP_out_width, [0], 100)]
       (s.pipe 0).bank1.check (s.get R.PP_STAMP_out_width [0]) = some (2, 1))
    ∧ (let old := cam.regWord R.PP_CTL [0]
       let new := fieldsWrite old (camEff .ppCtl old (old + 2 ^ 21)) R.PP_CTL.fields
       cam.hostShut .host = false ∧ cam.gate .host (R.PP_CTL.addr [0]) old new = none ∧ cam.flag R.CX_CAM_CTL_en [0] = true
         ∧ new ≠ old)
    ∧ (let old := up.regWord R.PP_CTL [0]
       let new := fieldsWrite old (camEff .ppCtl old (old + 2 ^ 21)) R.PP_CTL.fields
       up.flag R.CX_CAM_CTL_en [0] = false ∧ up.camCheck 0 .ppCtl old new = none ∧ up.gate .host (R.PP_CTL.addr [0]) old new = none)
    ∧ (let old := cam.regWord R.CX_CAM_CTL [0]
       cam.gate .host (R.CX_CAM_CTL.addr [0]) old (old - 1) = none ∧ fieldsWrite old (old - 1) R.CX_CAM_CTL.fields = old - 1) := by
  decide +kernel

/-- A record header of a sett stream. -/
def recordHeader (kind lines len seq crc : Nat) : List Byte :=
  let h := leBytes 4 0x5E77A1C3 ++ leBytes 1 kind ++ leBytes 1 0 ++ leBytes 2 lines ++ leBytes 4 len ++ leBytes 4 seq ++ leBytes 8 5
    ++ leBytes 16 0 ++ leBytes 4 crc
  h ++ leBytes 4 (crc32 h)

/-- A file header for lines of two pixels of one byte. -/
def fileHeader (width : Nat) : List Byte :=
  let h := leBytes 4 0x53455454 ++ leBytes 2 1 ++ leBytes 2 64 ++ leBytes 4 0 ++ leBytes 1 0 ++ leBytes 1 0 ++ leBytes 2 width
    ++ leBytes 4 1000 ++ leBytes 40 0
  h ++ leBytes 4 (crc32 h)

/-- Decoder channel 0 drives pipeline 0 and is in state `n`, with `d`. -/
def decAt (n : Nat) (d : DecCh) : State := (cam.puts [(R.PP_DEC_CTL_en, [0], 1), (R.PP_DEC_STATUS_state, [0], n)]).setDec 0 d

theorem witness_DecoderFeedsThePipeline :
    (let s := (decAt 2 DecCh.init).puts [(R.PP_DEC_IDX_src_prod, [0], 1)]
     let t := s.writeMem hoardBase (leBytes 8 (hoardBase + 4096) ++ leBytes 4 8)
     s.decOn 0 = true ∧ (s.get R.PP_DEC_IDX_src_cons [0] + (s.dec 0).ends.length) % 4096 ≠ s.get R.PP_DEC_IDX_src_prod [0]
       ∧ s.inHoardOrBurrow (s.readLe hoardBase 8 % 2 ^ 40) (s.readLe (hoardBase + 8) 4) = false ∧ (s.dec 0).ends = []
       ∧ t.inHoardOrBurrow (t.readLe hoardBase 8 % 2 ^ 40) (t.readLe (hoardBase + 8) 4) = true ∧ 0 < t.readLe (hoardBase + 8) 4
       ∧ (decAt 2 DecCh.init).get R.PP_DEC_IDX_src_cons [0] = (decAt 2 DecCh.init).get R.PP_DEC_IDX_src_prod [0])
    ∧ (let s := decAt 1 { DecCh.init with buf := fileHeader 2 ++ [0#8], ends := [65] }
       (s.dec 0).refused = false ∧ s.decState 0 = 1 ∧ 64 ≤ (s.dec 0).buf.length
         ∧ fileHeaderBad ((s.dec 0).buf.take 64) (s.get R.PP_CTL_fmt [0]) (s.get R.PP_CTL_width [0]) = none ∧ (s.dec 0).ends = [65])
    ∧ fileHeaderBad (fileHeader 3) (cam.get R.PP_CTL_fmt [0]) (cam.get R.PP_CTL_width [0]) = some 6
    ∧ (let pay : List Byte := [7#8, 9#8, 0#8, 0#8, 0#8, 0#8, 0#8, 0#8]
       let d := { DecCh.init with buf := recordHeader 1 1 2 0 (crc32 (pay.take 2)) ++ pay, width := 2 }
       let s := decAt 2 d
       let r := recHdr d.buf
       s.decState 0 = 2 ∧ d.queue = [] ∧ d.skip = 0 ∧ hdrValid d.buf = true ∧ d.searching = false ∧ r.kind = 1 ∧ r.reserved = false
         ∧ r.lines = 1 ∧ r.len = s.get R.PP_CTL_width [0] * fmtBytes (s.get R.PP_CTL_fmt [0]) ∧ d.expTt.getD 0 ≤ r.tt
         ∧ r.seq = d.nextSeq ∧ 48 + r.padded ≤ d.buf.length ∧ crc32 ((d.buf.drop 48).take r.len) = r.crc
         ∧ s.flag R.PP_DEC_CTL_pace [0] = false ∧ s.flag R.CX_CAM_STATUS_stalled [0] = false ∧ (s.pipe 0).slots = []
         ∧ (s.pipe 0).swap = false ∧ s.ringFull 0 = false ∧ s.flag R.PP_DEC_CTL_stamp_rec [0] = false ∧ d.resume = none
         ∧ (s.pipe 0).busy ≤ s.up ∧ d.fmt = s.get R.PP_CTL_fmt [0] ∧ d.width = s.get R.PP_CTL_width [0]
         ∧ (recHdr (recordHeader 4 1 2 0 0)).kind = 4 ∧ hdrValid (recordHeader 4 1 2 0 0) = true)
    ∧ (let s := (decAt 2 { DecCh.init with queue := [.line [1#8, 2#8] 100 none], delta := some 100000000000 }).puts
          [(R.PP_DEC_CTL_pace, [0], 1)]
       let t := s.setDec 0 { s.dec 0 with delta := some 99999999900 }
       s.flag R.PP_DEC_CTL_pace [0] = true ∧ s.tt < s.decDue 0 100 ∧ t.decDue 0 100 ≤ t.tt ∧ t.lineFits 0 [1#8, 2#8] = true)
    ∧ (let s := decAt 3 { DecCh.init with queue := [.line [1#8, 2#8] 100 none] }
       let t := (s.puts [(R.PP_RING_CFG_ring_len, [0], 2)]).setPipe 0 { Pipe.init with used := [0, 1], seq := 2 }
       s.flag R.PP_DEC_CTL_pace [0] = false ∧ s.decState 0 = 3 ∧ s.ringFull 0 = false ∧ s.lineFits 0 [1#8, 2#8] = true ∧ (t.pipe 0).slots = [] ∧ t.ringFull 0 = true) := by
  decide +kernel

theorem witness_DecoderConfiguration :
    (let s := decAt 2 DecCh.init; s.flag R.PP_DEC_CTL_en [0] = true ∧ 16 ≠ s.regWord R.PP_DEC_SRC [0])
    ∧ (up.flag R.PP_DEC_CTL_en [3] = false ∧ up.hostShut .sdo = false ∧ up.regHeld (R.PP_DEC_SRC.addr [3]) = false)
    ∧ (let old := up.regWord R.PP_DEC_CTL [1]
       let new := fieldsWrite old (old + 1) R.PP_DEC_CTL.fields
       up.hostShut .host = false ∧ up.gate .host (R.PP_DEC_CTL.addr [1]) old new = none ∧ bit old 0 = false ∧ bit new 0 = true
         ∧ ∀ k < 4, up.flag R.PP_DEC_CTL_en [k] = false)
    ∧ (let s := decAt 2 DecCh.init
       let old := s.regWord R.PP_DEC_CTL [1]
       let new := fieldsWrite old (old + 1) R.PP_DEC_CTL.fields
       bit new 0 = true ∧ s.flag R.PP_DEC_CTL_en [0] = true ∧ s.get R.PP_DEC_CTL_pipe [0] = bits new 5 1)
    ∧ (let s := decAt 2 DecCh.init
       let old := s.regWord R.PP_DEC_CTL [0]
       let new := fieldsWrite old (old - 1) R.PP_DEC_CTL.fields
       bit old 0 = true ∧ bit new 0 = false ∧ old / 2 = new / 2 ∧ s.gate .host (R.PP_DEC_CTL.addr [0]) old new = none)
    ∧ (let s := decAt 2 DecCh.init
       up.gate .host (R.PP_DEC_WORK_HI.addr [0]) (up.regWord R.PP_DEC_WORK_HI [0])
           (fieldsWrite (up.regWord R.PP_DEC_WORK_HI [0]) 2 R.PP_DEC_WORK_HI.fields) = none
         ∧ up.flag R.PP_DEC_CTL_en [0] = false ∧ s.flag R.PP_DEC_CTL_en [0] = true
         ∧ 2 * 2 ^ 32 ≠ s.pair R.PP_DEC_WORK_LO R.PP_DEC_WORK_HI [0]
         ∧ s.substLines 0 hoardBase = none) := by decide +kernel

/-- A group of ring 0 that starts one segment of core 0. -/
def group0 : Group :=
  let g : ProgSeg := { engine := 0, core := 0, qos := 0, hasWait := false, waitStatic := false, waitCtr := 0, waitVal := 0,
                       codeAddr := hoardBase + 4096, codeLen := 64 }
  { ring := 0, index := 0, op := 1, dlKind := 0, ringWork := false, dlCh := 0, win16 := 1, demand := 1, dlTt := 0, dlCnt := 0, cores := 1,
    segTable := hoardBase, segCount := 1, userTag := 7, batchAddr := hoardBase, src := 0, len := 0, keySlot := 0, rcpSlot := 0,
    bad := false, step := none, segs := [g] }

/-- A job of that group with its one segment in flight. -/
def job0 : Job :=
  { group := group0, lc := false, seq := 0, adm := 0, deadline := none, fwd := true, expired := false, started := true, todo := [],
    inFlight := 1, busy := 0, fault := 0, frozen := false, frozenTt := 0, cancelled := false, dropped := false, unconv := [],
    stall := none }

/-- A descriptor of job 1. -/
def desc0 : Desc :=
  { job := 1, qos := 0, lc := false, last := false, hasWait := false, waitStatic := false, waitCtr := 0, waitVal := 0,
    codeAddr := hoardBase + 4096, codeLen := 64, winBase := 0, winSize := 16, batchAddr := hoardBase, segId := 0, rank := 192, order := 0 }

/-- Its segment, running since 1 µs ago. -/
def run0 : Running :=
  { desc := desc0, start := 99999999000, issue := none, pc := 0, wait := none, ended := false, below := false, hung := false,
    sent := none }

/-- Core 0 in work with job 1 admitted, and `x` on its engine `e`. -/
def withEng (e : Nat) (x : Engine) : State :=
  let s : State := { up with ds := { up.ds with jobs := up.ds.jobs.set 1 job0 } }
  (s.puts [(R.CR_CORE_CTL_en, [0], 1)]).setEng 0 e x

theorem witness_SegmentsStartEndAndComplete :
    (let s := withEng 0 { Engine.init with queue := [desc0, { desc0 with job := 2, rank := 193, order := 1 }] }
     s.coreRuns 0 = true ∧ s.flag R.CR_CORE_CTL_drain [0] = false ∧ (s.eng 0 0).stopped = false ∧ (s.eng 0 0).run = none
       ∧ (s.eng 0 0).queue.filter (s.entryReady 0 0) = [desc0] ∧ s.ds.jobs.get? desc0.job = some job0)
    ∧ (withEng 0 Engine.init).coreRuns 0 = true
    ∧ (let s := withEng 4 { Engine.init with run := some run0 }
       (s.eng 0 4).run = some run0 ∧ run0.ended = false ∧ run0.pc < run0.desc.codeLen ∧ 4 < s.cfg.engines)
    ∧ (let r := { run0 with pc := 64 }
       let s := withEng 0 { Engine.init with run := some r }
       (s.eng 0 0).run = some r ∧ r.desc.codeLen ≤ r.pc ∧ s.ds.jobs.get? r.desc.job = some job0)
    ∧ (let s := withEng 0 { Engine.init with ending := [(desc0, 3)], outW := [3, 4] }
       let t := withEng 0 { Engine.init with ending := [(desc0, 3)], outW := [2] }
       (s.eng 0 0).ending = [(desc0, 3)] ∧ (∀ w ∈ (s.eng 0 0).outW, 3 ≤ w) ∧ (∃ w ∈ (t.eng 0 0).outW, w < 3)
         ∧ s.ds.jobs.get? desc0.job = some job0 ∧ s.jobExpired job0 = false ∧ job0.todo = [] ∧ job0.inFlight = 1 ∧ job0.fault = 0
         ∧ job0.cancelled = false ∧ job0.dropped = false ∧ job0.expired = false ∧ job0.lost = 0)
    ∧ 1 < ({ job0 with inFlight := 2 } : Job).inFlight := by decide +kernel

theorem witness_SignalsWaitsAndWatches :
    (let g : Signal := { core := 0, ctr := 200, n := 1, job := none, fromCore := 0, fromEng := 0, after := 1, chip := none }
     let s0 := withEng 0 { Engine.init with outW := [0] }
     let s1 := withEng 0 { Engine.init with outW := [1] }
     let k : Core := { s1.core 0 with statics := (Tbl.empty : Tbl Nat).set 200 0 }
     let s : State := { s0 with signals := [g] }
     let t : State := { s1.setCore 0 k with signals := [g] }
     let u : State := { s1 with signals := [{ g with chip := some 3 }], cfg := { s1.cfg with quillPorts := 0 } }
     s.signals[0]? = some g ∧ s.signalDue g = false ∧ t.signalDue g = true ∧ t.coreRuns g.core = true ∧ t.signalHome g = none
       ∧ (t.core 0).win.vals = [] ∧ u.cfg.quillPorts = 0 ∧ (u.core 0).win.vals = [] ∧ u.cfg.valid = true ∧ u.signalDue { g with chip := some 3 } = true)
    ∧ (let r := { run0 with wait := some (5, 1) }
       let s := withEng 0 { Engine.init with run := some r }
       let t := (s.setSync 0 5 1).writeMem (hoardBase + 4096) [4#8]
       (s.eng 0 0).stopped = false ∧ (s.eng 0 0).run = some r ∧ r.wait = some (5, 1) ∧ waitMet (s.sync 0 5) 1 = false
         ∧ waitMet (t.sync 0 5) 1 = true ∧ t.fetchCode r 64 % 256 = 0x04)
    ∧ (let r := { run0 with start := 99999980000 }
       let s := withEng 0 { Engine.init with run := some r }
       let j := { job0 with cancelled := true, cancelTt := s.tt }
     let t : State := { s with ds := { s.ds with jobs := s.ds.jobs.set 1 j } }
     (s.eng 0 0).run = some r ∧ r.ended = false ∧ r.issue.getD r.start + 20000 ≤ s.tt ∧ s.fab.soft = []
         ∧ t.ds.jobs.get? r.desc.job = some j ∧ j.cancelled = true ∧ j.cancelTt = t.tt ∧ job0.cancelled = false ∧ job0.fault = 0
         ∧ s.tt < run0.issue.getD run0.start + 20000 ∧ s.ds.jobs.get? r.desc.job = some job0)
    ∧ (let d := { desc0 with hasWait := true, waitCtr := 3, waitVal := 1 }
       let s := withEng 0 { Engine.init with queue := [d] }
       let j := { job0 with stall := some 1 }
       let t : State := { s with ds := { s.ds with jobs := s.ds.jobs.set 1 j } }
       t.ds.jobs.get? 1 = some j ∧ t.stalled 1 = true ∧ j.frozen = false ∧ 1 + 65536 ≤ t.tt
         ∧ (onTt 65536 t).tt < 1 + 65536)
    ∧ (let s := withEng 1 { Engine.init with run := some run0 }; (s.eng 0 1).run = some run0) := by decide +kernel

/-- Engine `e` of core 0 about to issue the nest-form instruction `w` with slots `l`. -/
def nestAt (e w : Nat) (l : List (Nat × Nat)) : State :=
  (withEng e { Engine.init with run := some run0, sreg := ⟨l⟩ }).writeMem (hoardBase + 4096) (leBytes 64 w)

/-- A compute instruction of one level: opcode, count, offsets, types and bases of A, B and D, stride of A and D in bytes. -/
def nestWord (op cnt ta tb td ba bb bd sa sd : Nat) : Nat :=
  op + 2 ^ 12 + ta * 2 ^ 24 + tb * 2 ^ 28 + td * 2 ^ 32 + ba * 2 ^ 48 + bb * 2 ^ 52 + bd * 2 ^ 56
    + (cnt - 1 + sa * 2 ^ 16 + sa * 2 ^ 32 + sd * 2 ^ 48) * 2 ^ 128

/-- What NestIssues asks, as a Bool. -/
def nestIssues (s : State) (c e : Nat) (r : Running) (w : Nat) : Bool :=
  decide (e ≤ 2 ∧ s.canIssue c e = some r ∧ r.pc + 64 ≤ r.desc.codeLen ∧ s.badIn (r.desc.codeAddr + r.pc) 64 = false
    ∧ w = s.fetchCode r 64 ∧ nestDecode e w r.desc.winSize = none)

theorem nestIssues_sound {s : State} {c e w : Nat} {r : Running} (h : nestIssues s c e r w = true) : s.NestIssues c e r w := by
  simpa [nestIssues, State.NestIssues] using h

theorem witness_NestControlInstructions :
    nestIssues (nestAt 0 0x100 []) 0 0 run0 0x100 = true ∧ nestIssues (nestAt 1 0x01 []) 0 1 run0 0x01 = true
    ∧ (let w := 0x02 + 1 * 2 ^ 13 + 3 * 2 ^ 9 + (2 ^ 61 + 64) * 2 ^ 64
       nestIssues (nestAt 2 w []) 0 2 run0 w = true ∧ bits (bits w 127 64) 62 61 = 1)
    ∧ (let w := 0x03 + 2 ^ 9 + 200 * 2 ^ 24 + 2 ^ 32
       nestIssues (nestAt 0 w []) 0 0 run0 w = true ∧ bit w 10 = false ∧ bit w 11 = false)
    ∧ (let w := 0x03 + 2 ^ 9 + 2 ^ 10 + 31 * 2 ^ 12 + 200 * 2 ^ 24 + 2 ^ 32
       nestIssues (nestAt 0 w []) 0 0 run0 w = true ∧ bit w 10 = true ∧ bit w 11 = false ∧ bit w 9 = true)
    ∧ (let w := 0x03 + 2 ^ 9 + 2 ^ 11 + 200 * 2 ^ 24 + 2 ^ 32 + 5 * 2 ^ 48
       nestIssues (nestAt 0 w []) 0 0 run0 w = true ∧ bit w 11 = true ∧ bits w 59 48 ≠ (nestAt 0 w []).chipNo)
    ∧ (let w := 0x04 + 15 * 2 ^ 24
       let v := 0x04 + 15 * 2 ^ 24 + 2 ^ 32
       nestIssues (nestAt 0 w []) 0 0 run0 w = true ∧ waitMet ((nestAt 0 w []).sync 0 15) (bits w 63 32) = true
         ∧ nestIssues (nestAt 0 v []) 0 0 run0 v = true ∧ waitMet ((nestAt 0 v []).sync 0 15) (bits v 63 32) = false) := by
  decide +kernel

theorem witness_NestComputeInstructions :
    (let w := nestWord 0x21 3 3 3 3 1 2 3 4 4
     let s := nestAt 2 w [(1, scratchBase), (2, 7), (3, hoardBase + 8192)]
     nestIssues s 0 2 run0 w = true ∧ (s.eng 0 2).asked = [] ∧ s.fab.soft = [] ∧ s.badWords = [] ∧ s.heldIsl = [] ∧ s.fab.trst = Tbl.empty
       ∧ s.remoteChip (hoardBase + 8192) = none ∧ nestLev w = 1 ∧ bit w 11 = false ∧ s.checkCompute 0 2 w = none
       ∧ tyBytes (nestType w 2) ≤ (nestStride w 0 2).natAbs ∧ w % 256 = 0x21)
    ∧ (let w := nestWord 0x20 3 3 0 3 1 2 3 4 4
       let s := nestAt 1 w [(1, hoardBase), (2, 0), (3, scratchBase)]
       nestIssues s 0 1 run0 w = true ∧ s.checkCompute 0 1 w = none ∧ w % 256 = 0x20 ∧ s.remoteChip hoardBase = none
         ∧ ∀ i < 3, ∀ k < 3, hoardBase + 4 * i + 4 ≤ scratchBase + 4 * k ∨ scratchBase + 4 * k + 4 ≤ hoardBase + 4 * i)
    ∧ (let w := nestWord 0x10 2 0 0 3 1 2 3 32 128
       let s := nestAt 0 w [(1, scratchBase), (2, scratchBase + 1024), (3, scratchBase + 8192)]
       nestIssues s 0 0 run0 w = true ∧ s.checkCompute 0 0 w = none ∧ nestType w 2 = 3 ∧ bits w 127 126 = 0
         ∧ (4 * s.cfg.macDim : Int) ≤ nestStride w 0 2 ∧ w % 256 = 0x10) := by decide +kernel

/-- A fill of one element: here it writes at once; to another chip it sends its write and waits. -/
theorem witness_NestComputeInstructions_sends : ∀ x ∈ [(hoardBase + 8192, true), (2 ^ 63 + 5 * 2 ^ 40 + hoardBase, false)],
    let w := nestWord 0x21 1 3 3 3 1 2 3 4 4
    let s := nestAt 2 w [(1, scratchBase), (2, 7), (3, x.1)]
    let u := s.atIssue 0 2 w
    let y := u.runCompute 0 2 w
    nestIssues s 0 2 run0 w = true ∧ u.checkCompute 0 2 w = none ∧ y.need = [] ∧ y.exc = none ∧ y.ecc = none
      ∧ y.writes.isEmpty = x.2 := by decide +kernel

/-- Engine `e` of core 0 about to issue a bundle with header `h` and syllables `l`; registers as `x` has them; a modulus and its
Barrett constant at the start of scratch. -/
def bundleAt (e h : Nat) (l : List Nat) (x : Engine) : State :=
  let q := 2 ^ 31 + 1
  ((withEng e { x with run := some run0 }).writeMem (hoardBase + 4096) (leBytes 4 h ++ l.flatMap (leBytes 4))).writeMem scratchBase
    (leBytes 8 q ++ leBytes 16 (2 ^ 120 / q))

/-- What Issues asks, as a Bool. -/
def issues (s : State) (c e : Nat) (r : Running) (b : Bundle) : Bool :=
  decide (s.canIssue c e = some r ∧ s.fetchBundle r = .inr b ∧ b.decode e r.desc.winSize = none)
  && b.c.all (fun w => w % 256 != 0x19 || waitMet (s.sync c (cWait r (s.eng c e) w).1) (cWait r (s.eng c e) w).2)
  && decide (s.bundleCheck c e (s.eng c e) r b = none)
  && (b.m.isNone || decide (s.fab.soft = []))
  && b.m.all (fun w => (s.mExec c (s.eng c e) w (s.eng c e)).2.2 == (none, none))

theorem issues_sound {s : State} {c e : Nat} {r : Running} {b : Bundle} (h : issues s c e r b = true) : s.Issues c e r b := by
  simp only [issues, Bool.and_eq_true, decide_eq_true_eq] at h
  obtain ⟨⟨⟨⟨⟨h1, h2, h3⟩, h4⟩, h5⟩, h7⟩, h6⟩ := h
  refine ⟨h1, h2, h3, fun w hw ho => ?_, h5, fun hm => ?_, fun w hw => ?_⟩
  · simpa [hw, ho] using h4
  · cases hb : b.m <;> simp_all
  · simpa [hw] using h6

/-- A ring engine with modulus slot 0 loaded. -/
def ringEng : Engine := { Engine.init with modq := ⟨[(0, (2 ^ 31 + 1, 2 ^ 120 / (2 ^ 31 + 1)))]⟩, vreg := ⟨[(2, List.replicate 16 5)]⟩ }

/-- The state and bundle for one syllable of `syllableRows`: the slot's word has its opcode, destination 1, sources 2 and 3. -/
def rowBundle (e slot op : Nat) : State × Bundle :=
  let w := if slot = 0 then op + 2 ^ 8 else if slot = 1 then op + 2 ^ 8 + 2 * 2 ^ 13 + 3 * 2 ^ 18 else op + 2 ^ 8 + 2 ^ 20
  let m := if slot = 0 then 1 else if slot = 1 then 2 else 8
  let h := m + 2 ^ 16
  (bundleAt e h [w] (if e = 4 then ringEng else Engine.init),
   { hdr := h, m := if slot = 0 then some w else none, x := if slot = 1 then some w else none, y := none,
     c := if slot = 3 then some w else none })

/-- Every row of the table that names a syllable has a bundle that holds it alone and issues. -/
theorem witness_BundlesRetire_ve : ∀ x ∈ (syllableRows 0 3).map (fun x => (x.2.1, x.2.2)),
    let y := rowBundle 3 x.1 x.2
    issues y.1 0 3 run0 y.2 = true ∧ y.2.has x.1 x.2 = true := by decide +kernel

theorem witness_BundlesRetire_re : ∀ x ∈ (syllableRows 0 4).map (fun x => (x.2.1, x.2.2)),
    (8 ≤ x.2 ∧ x.2 ≤ 0x0C ∧ x.1 = 3) ∨
      (let y := rowBundle 4 x.1 x.2
       issues y.1 0 4 run0 y.2 = true ∧ y.2.has x.1 x.2 = true) := by decide +kernel

theorem witness_BundlesRetire_empty :
    issues (bundleAt 3 0 [] Engine.init) 0 3 run0 { hdr := 0, m := none, x := none, y := none, c := none } = true := by
  decide +kernel

theorem witness_BundleMemorySyllables :
    (∀ op ∈ [0x01, 0x02, 0x03, 0x04, 0x05],
      let y := rowBundle 3 0 op
      issues y.1 0 3 run0 y.2 = true ∧ y.2.m.isSome = true ∧ y.1.badWords = [] ∧ ((y.1.eng 0 3).v 1).length = 64)
    ∧ (∀ op ∈ [0x04, 0x05, 0x11, 0x12, 0x16],
      let y := rowBundle 4 0 op
      issues y.1 0 4 run0 y.2 = true ∧ ((y.1.eng 0 4).r 1).length = 16)
    ∧ ({ Engine.init with loads := [(4, scratchBase)] } : Engine).loads[0]? = some (4, scratchBase)
    ∧ mLoad (0x01 + 2 ^ 8) = true ∧ scratchBase / 8 * 8 + 8 ≤ run0.desc.codeAddr + run0.pc := by decide +kernel

theorem witness_VectorArithmetic :
    (∀ op ∈ List.range' 1 0x17, ∀ ty < 3,
      let w := op + 2 ^ 8 + 2 ^ 16 + ty * 2 ^ 29
      issues (bundleAt 3 2 [w] Engine.init) 0 3 run0 { hdr := 2, m := none, x := some w, y := none, c := none } = true
        ∧ bits w 30 29 = ty)
    ∧ (Engine.init.v 1).length = 64 := by decide +kernel

theorem witness_RingArithmetic :
    (∀ op ∈ List.range' 1 0x0E,
      let w := op + 2 ^ 8 + 2 * 2 ^ 13 + 3 * 2 ^ 18
      issues (bundleAt 4 2 [w] ringEng) 0 4 run0 { hdr := 2, m := none, x := some w, y := none, c := none } = true
        ∧ bits w 17 13 ≠ bits w 22 18 ∧ (ringEng.modq.get? (bits w 28 23)).isSome = true)
    ∧ (let w := 0x08 + 2 ^ 8 + 2 * 2 ^ 13 + 2 * 2 ^ 18
       issues (bundleAt 4 2 [w] ringEng) 0 4 run0 { hdr := 2, m := none, x := some w, y := none, c := none } = true
        ∧ bits w 17 13 = bits w 22 18 ∧ (ringEng.r 2).length = 16) := by decide +kernel

theorem witness_BundleControlSyllables :
    (∀ op ∈ [1, 2, 3, 4, 5, 6, 7, 8, 9, 10, 11, 12, 0x10, 0x11, 0x12, 0x13, 0x18, 0x19],
      let y := rowBundle 3 3 op
      issues y.1 0 3 run0 y.2 = true ∧ y.2.c.isSome = true ∧ bit y.2.hdr 4 = false)
    ∧ (∀ x ∈ [2 ^ 29 + 2 ^ 28, 2 ^ 30 + 2 ^ 28],
      let w := 0x18 + 2 * 2 ^ 16 + 2 ^ 20 + x
      let e := { Engine.init with sreg := (⟨[(2, 9)]⟩ : Tbl Nat) }
      issues (bundleAt 3 (8 + 2 ^ 16) [w] e) 0 3 run0 { hdr := 8 + 2 ^ 16, m := none, x := none, y := none, c := some w } = true)
    ∧ (let w := 0x19 + 2 * 2 ^ 12 + 2 ^ 20
       let e := { Engine.init with sreg := (⟨[(2, 9)]⟩ : Tbl Nat) }
       let s := bundleAt 3 8 [w] e
       s.canIssue 0 3 = some run0 ∧ s.fetchBundle run0 = .inr { hdr := 8, m := none, x := none, y := none, c := some w }
        ∧ ({ hdr := 8, m := none, x := none, y := none, c := some w } : Bundle).decode 3 16 = none
        ∧ waitMet (s.sync 0 (0 + bits w 27 20)) ((s.eng 0 3).s (bits w 15 12) % 2 ^ 32) = false) := by decide +kernel

/-- A ring 0 that serves entries, with `v` at its head and `x` as the segment record after it. -/
def ringAt (v x : Nat) : State :=
  let s := (withEng 0 Engine.init).puts
    [(R.DS_SCHED_CTL_en, [], 1), (R.DS_RING_CTL_en, [0], 1), (R.HP_SQ_CFG_log2_len, [0], 6), (R.HP_SQ_DB_prod, [0], 1)]
  let s : State := { s with ds := { s.ds with seq := 1 } }
  (s.writeMem hoardBase (leBytes 128 v)).writeMem (hoardBase + 1024) (leBytes 32 x)

/-- An exec entry for core 0 with a window of 16 counters, and its one segment. -/
def execEntry0 : Nat := 1 + 2 ^ 24 + 2 ^ 32 + 2 ^ 192 + 2 ^ 224 + (hoardBase + 1024) * 2 ^ 256
def segRec0 : Nat := (hoardBase + 4096) * 2 ^ 64 + 64 * 2 ^ 104
def seg0 : ProgSeg :=
  { engine := 0, core := 0, qos := 0, hasWait := false, waitStatic := false, waitCtr := 0, waitVal := 0, codeAddr := hoardBase + 4096,
    codeLen := 64 }

theorem witness_DoorbellsAdmissionAndPosting :
    (let s := ringAt execEntry0 segRec0
     s.hostShut .host = false ∧ s.isStepRing 0 = false ∧ 0 < s.cfg.submitRings
       ∧ s.islandHeld 52 = false
       ∧ (s.puts [(R.HP_SQ_HEAD_head, [0], 1)]).get R.HP_SQ_DB_prod [0] = 1)
    ∧ (let s := ringAt execEntry0 segRec0
       let g := s.entryAt 0 0 false
       s.flag R.DS_SCHED_CTL_en = true ∧ s.flag R.DS_RING_CTL_en [0] = true ∧ s.ds.loads.get? 0 = none
         ∧ s.get R.HP_SQ_HEAD_head [0] ≠ s.get R.HP_SQ_DB_prod [0] ∧ (0, 0) ∉ s.ds.skips
         ∧ s.admissionCheck g = none ∧ g.op = 1 ∧ s.hasRoom g = true
         ∧ s.mustYield g (s.ringMode 0 != 0, (s.admDeadline g).getD 0, g.cores, g.win16) = false
         ∧ s.ds.jobs.vals.all (fun j => j.seq < s.ds.seq)
         ∧ g.segs ≠ [] ∧ s.coreRuns 0 = true ∧ (s.eng 0 0).queue.length + s.get R.DS_SCHED_CTL_lc_reserve < 64
         ∧ 1 ≤ s.get R.DS_SCHED_CTL_seg_ahead)
    ∧ (let s := ringAt (execEntry0 + 6) segRec0
       s.admissionCheck (s.entryAt 0 0 false) = some stMalformed)
    ∧ (let s := ringAt execEntry0 (segRec0 + 2 ^ 14)
       s.admissionCheck (s.entryAt 0 0 false) = some stMalformed)
    ∧ (let s := ringAt (execEntry0 + 4 * 2 ^ 8) segRec0
       let t := s.puts [(R.DS_RING_CTL_mode, [0], 1)]
       t.admissionCheck (t.entryAt 0 0 false) ≠ none)
    ∧ (let s := ringAt (2 + (hoardBase + 2 ^ 20) * 2 ^ 448 + 4096 * 2 ^ 512) 0
       s.admissionCheck (s.entryAt 0 0 false) = none ∧ (s.entryAt 0 0 false).op = 2)
    ∧ (let s := ringAt execEntry0 segRec0
       let w : Window := { job := 1, base := 0, size := 192, closing := false }
       let t := s.setCore 0 { s.core 0 with win := ⟨[(0, w)]⟩ }
       t.admissionCheck (t.entryAt 0 0 false) = none ∧ t.hasRoom (t.entryAt 0 0 false) = false)
    ∧ (let s := ringAt execEntry0 segRec0
       let j := { job0 with todo := [(0, seg0)], inFlight := 0 }
       s.mayPost 1 j seg0 = true) := by decide +kernel

/-- `withEng` with job 1 as `j`. -/
def withJob (j : Job) : State :=
  let s := withEng 0 Engine.init
  { s with ds := { s.ds with jobs := ⟨[(1, j)]⟩ } }

/-- An LC job of ring 3 with an encoder deadline on channel 0. -/
def encJob : Job := { job0 with lc := true, fwd := true, group := { group0 with ring := 3, dlKind := 2, dlCnt := 500 } }

/-- A completed group of ring 3. -/
def done3 : Done :=
  { group := encJob.group, job := 1, admitted := true, adm := 5, deadline := some 9, busy := 3, status := 1, cause := 0, tt := 8 }

/-- A completion ring 3 of 16 records in use. -/
def cqOn (tail : Nat) (s : State) : State :=
  s.puts [(R.HP_CQ_CFG_log2_len, [3], 4), (R.HP_CQ_CFG_en, [3], 1), (R.HP_CQ_TAIL_tail, [3], tail), (R.HP_CQ_TAIL_phase, [3], 1)]

theorem witness_RanksDeadlinesAndRecords :
    (withJob encJob).ds.jobs.keys.Nodup
    ∧ (let s := (withJob encJob).puts [(R.DS_RING_CTL_mode, [3], 2), (R.PU_CH_CTL_mode, [0], 1), (R.PU_STATUS_standstill, [0], 0)]
       let t := s.puts [(R.PU_STATUS_standstill, [0], 1)]
       let u := s.puts [(R.PU_CH_CTL_mode, [0], 0)]
       s.ds.jobs.cells = [(1, encJob)] ∧ s.encDeadline encJob.group = true ∧ s.unconvertible encJob = some 4
         ∧ t.unconvertible encJob = some 1 ∧ u.unconvertible encJob = some 2
         ∧ (s.setCh 0 { s.ch 0 with speed := -1 }).unconvertible encJob = some 3 ∧ 4 ∉ encJob.unconv)
    ∧ (let j := { job0 with deadline := some 50, inFlight := 0 }
       let s := withJob j
       s.ds.jobs.get? 1 = some j ∧ s.encDeadline j.group = false ∧ 50 ≤ s.tt ∧ (onTt 49 s).tt < 50 ∧ j.expired = false
         ∧ j.cancelled = false ∧ s.flag R.DS_RING_CTL_miss_policy [0] = false ∧ j.fault = 0
         ∧ (s.puts [(R.DS_RING_CTL_miss_policy, [0], 1)]).flag R.DS_RING_CTL_miss_policy [0] = true)
    ∧ (let s := withJob job0
       let t : State := { s with ds := { s.ds with starve := ⟨[(0, (5, false))]⟩ } }
       t.ds.starve.get? 0 = some (5, false) ∧ 0 ∈ t.beRings ∧ 5 + t.get R.DS_STARVE_starve_ms * 1000000 ≤ t.tt
         ∧ (onTt 100 t).tt < 5 + t.get R.DS_STARVE_starve_ms * 1000000)
    ∧ up.ds.dones = []
    ∧ (let s : State := { up with ds := { up.ds with dones := [done3] } }
       let full : State := { s with host := { s.host with held := List.replicate 512 { ring := 3, bytes := [] } } }
       done3.group.ring < s.cfg.submitRings ∧ (cqOn 5 s).flag R.HP_CQ_CFG_en [3] = true ∧ (cqOn 5 s).cqFull 3 = false
         ∧ (cqOn 15 s).cqFull 3 = true ∧ (cqOn 5 s).host.held = [] ∧ s.flag R.HP_CQ_CFG_en [3] = false
         ∧ s.host.held.length < 512 ∧ 512 ≤ full.host.held.length
         ∧ ((cqOn 15 s).puts [(R.HP_CQ_HEAD_head, [3], 7)]).cqFull 3 = false) := by decide +kernel

/-- A load of ring 2 of an image of `n` bytes at the start of the Hoard + 1 MiB, or of what op `op` says. -/
def loadGroup (op len : Nat) : Group := { group0 with ring := 2, op := op, src := hoardBase + 2 ^ 20, len := len }

theorem witness_CancelsAndRingControl :
    (up.hostShut .host = false ∧ up.ds.jobs.get? 1 = none ∧ (withJob job0).ds.jobs.get? 1 = some job0 ∧ job0.started = true)
    ∧ (let j := { job0 with started := false }
       (withJob j).ds.jobs.get? 1 = some j ∧ j.cancelled = false ∧ j.frozen = false)
    ∧ (let j := { job0 with started := false, frozen := true, frozenTt := 7 }
       let s := withJob j
       let t : State := { s with ds := { s.ds with frozenMs := 20 } }
       t.ds.jobs.get? 1 = some j ∧ t.ds.frozenMs ≠ 0 ∧ 7 + 20 * 1000000 ≤ t.tt ∧ (onTt 20000006 t).tt < 7 + 20 * 1000000)
    ∧ (let s := withJob job0
       s.waitingEntries 0 = [] ∧ s.ds.jobs.cells.filter (fun x => x.2.group.ring = 0 ∧ (true = true ∨ x.2.group.index = 9)) = [(1, job0)]
         ∧ s.ds.jobs.cells.filter (fun x => x.2.group.ring = 4 ∧ (false = true ∨ x.2.group.index = 9)) = [])
    ∧ (let s := withJob job0
       let g := loadGroup 2 152
       let t : State := { s with ds := { s.ds with loads := ⟨[(2, (g, 5))]⟩ } }
       t.waitingEntries 2 = [] ∧ t.ds.jobs.cells.filter (fun x => x.2.group.ring = 2) = [] ∧ t.ds.loads.get? 2 = some (g, 5)
         ∧ t.ds.loads.get? 0 = none ∧ t.islandHeld 52 = false)
    ∧ (let s := withJob job0
       s.hostShut .fw = false ∧ s.regHeld (R.DS_RING_CTL.addr [0]) = false ∧ s.get R.HP_SQ_BASE_base [0] < s.cfg.hoardBytes ∧ s.gate .fw (R.DS_RING_CTL.addr [0]) (s.regWord R.DS_RING_CTL [0])
           (fieldsWrite (s.regWord R.DS_RING_CTL [0]) 0x7D002 R.DS_RING_CTL.fields) = none ∧ s.ringBusy 0 = true
         ∧ (let old := s.regWord R.DS_RING_CTL [0]
            let new := fieldsWrite old 0x7D002 R.DS_RING_CTL.fields
            (bits old 3 1 ≠ bits new 3 1 ∨ bits old 31 12 ≠ bits new 31 12) ∧ bit old 0 = bit new 0)
         ∧ s.ringBusy 4 = false ∧ s.isStepRing 4 = false) := by decide +kernel

/-- An image with one variant and one section that copies 16 bytes, without its CMAC; kind 1 a model, 2 a recipe. -/
def image0 (kind : Nat) : List Byte :=
  let n := 136
  leBytes 64 (0x4D495857 + 2 ^ 32 + kind * 2 ^ 48 + 2 ^ 56 + n * 2 ^ 64 + 64 * 2 ^ 96)
    ++ leBytes 32 (32 + 32 * 2 ^ 8 + 1024 * 2 ^ 16 + 96 * 2 ^ 32 + 8 * 2 ^ 40 + 16 * 2 ^ 48 + 900 * 2 ^ 64 + 2 ^ 80 + 96 * 2 ^ 96
        + (if kind = 2 then 0 else 0xFFFF) * 2 ^ 128)
    ++ leBytes 24 (hoardBase + 2 ^ 21 + 16 * 2 ^ 64 + 120 * 2 ^ 96) ++ leBytes 16 0x123456789ABCDEF

/-- Where the image lies, and a machine that loads `l`, with no CMAC after it. -/
def imgAt : Nat := hoardBase + 2 ^ 20
def loading (op : Nat) (l : List Byte) : State :=
  let s : State := { up with cu := { up.cu with test := 1, keys := ⟨[(0, List.replicate 16 7)]⟩ },
                             ds := { up.ds with loads := ⟨[(2, (loadGroup op 152, 5))]⟩ } }
  (s.puts [(R.CU_KEY_INFO_valid, [0], 1), (R.CU_KEY_INFO_use, [0], 1), (R.DS_RING_CTL_mode, [9], 2)]).writeMem imgAt l

/-- The same with its CMAC after it. -/
def loadingMac (op : Nat) (l : List Byte) : State :=
  (loading op l).writeMem (imgAt + 136) (cmac ((loading op l).slotKey 0) ((loading op l).readMem imgAt 136))

theorem readList_below (m : Memory) (a x n : Nat) (l : List Byte) (h : x + n ≤ a) : (m.writeList a l).readList x n = m.readList x n := by
  induction n generalizing x with
  | zero => rfl
  | succ n ih => rw [Memory.readList, Memory.readList, ih _ (by omega), Memory.read_writeList_other _ _ _ _ (by omega)]

theorem readList_written (m : Memory) (a : Nat) (l : List Byte) (h : m.wf = true) : (m.writeList a l).readList a l.length = l := by
  induction l generalizing m a with
  | nil => rfl
  | cons b t ih =>
    rw [List.length_cons, Memory.readList, Memory.writeList, ih _ _ (Memory.wf_write _ _ _ h),
      Memory.read_writeList_other _ _ _ _ (by omega), Memory.read_write_same _ _ _ h]

theorem cmac_length (k l : List Byte) : (cmac k l).length = 16 := by
  have g : ∀ n x, (leBytes n x).length = n := fun n => by
    induction n with
    | zero => intro x; rfl
    | succ n ih => intro x; simp [leBytes, ih]
  have h : ∀ n x, (beBytes n x).length = n := fun n x => by simp [beBytes, g]
  simp [cmac, topBytes, h]

/-- What a load asks of memory and of the rest, but for the CMAC. -/
def imgFacts (s : State) (a kind : Nat) : Bool :=
  decide (s.cuUnready = none ∧ s.keyFor 0 0 = true ∧ s.cuRangeOk false a 152 = true ∧ s.badWords = [] ∧ s.mem.wf = true
    ∧ s.region (a + 136) = .hoard ∧ s.readLe (a + 7) 1 = 1 ∧ s.readLe (a + 12) 4 = 64 ∧ s.imgHeaderOk a 136 kind = true
    ∧ s.tagMatches (a + 64) = true ∧ s.variantOk (a + 64) 136 kind = true ∧ s.readLe (a + 74) 2 = 1
    ∧ s.readLe (a + 76) 4 = 96 ∧ (s.sectionAt (a + 96) 136).ok = true ∧ s.destsOk [s.sectionAt (a + 96) 136] = true)

theorem image_loads (s : State) (a kind : Nat) (m : List Byte) (ha : 0x80000 ≤ a) (h : imgFacts s a kind = true) (hm : m.length = 16)
    (hc : cmac (s.slotKey 0) (s.readMem a 136) = m) :
    let t := s.writeMem (a + 136) m
    t.imageCheck a 152 0 = none ∧ t.imgHeaderOk a 136 kind = true ∧ t.findVariant a = some (a + 64)
      ∧ t.variantOk (a + 64) 136 kind = true ∧ t.readLe (a + 74) 2 = 1 ∧ t.readLe (a + 76) 4 = 96
      ∧ (t.sectionAt (a + 96) 136).ok = true ∧ t.destsOk [t.sectionAt (a + 96) 136] = true := by
  simp only [imgFacts, decide_eq_true_eq] at h
  obtain ⟨h1, h2, h3, h4, h5, h6, h7, h8, h9, h10, h11, h12, h13, h14, h15⟩ := h
  intro t
  have ht : t = { s with mem := s.mem.writeList (a + 136) m, badWords := [] } := by
    have hk : s.memKey (a + 136) = a + 136 := if_neg (fun h => absurd h.1 (by omega))
    simp [t, State.writeMem, h6, h4, hk]
  have hk : ∀ x, a ≤ x → s.memKey x = x := fun x hx =>
    if_neg (fun h => absurd h.1 (by omega))
  have hr : ∀ x n, a ≤ x → x + n ≤ a + 136 → t.readMem x n = s.readMem x n := fun x n hx hn => by
    rw [State.readMem, State.readMem, ht]
    show (s.mem.writeList (a + 136) m).readList (s.memKey x) n = _
    rw [hk x hx, readList_below _ _ _ _ _ hn]
  have hl : ∀ x n, a ≤ x → x + n ≤ a + 136 → t.readLe x n = s.readLe x n := fun x n hx hn => by
    rw [State.readLe, State.readLe, hr x n hx hn]
  have hcfg : t.cfg = s.cfg := by rw [ht]
  have l0 : ∀ o n, o + n ≤ 136 → t.readLe (a + o) n = s.readLe (a + o) n := fun o n ho =>
    hl _ _ (by omega) (by omega)
  have l64 : ∀ o n, o + n ≤ 72 → t.readLe (a + 64 + o) n = s.readLe (a + 64 + o) n := fun o n ho =>
    hl _ _ (by omega) (by omega)
  have l96 : ∀ o n, o + n ≤ 40 → t.readLe (a + 96 + o) n = s.readLe (a + 96 + o) n := fun o n ho =>
    hl _ _ (by omega) (by omega)
  clear_value t
  have hs : t.sectionAt (a + 96) 136 = s.sectionAt (a + 96) 136 := by
    simp only [State.sectionAt, l96 0 8 (by omega), l96 8 4 (by omega), l96 12 4 (by omega), l96 16 1 (by omega), l96 17 7 (by omega)]
  have htag : t.tagMatches (a + 64) = true := by
    rw [← h10]
    simp only [State.tagMatches, l0 64 1 (by omega), l64 1 1 (by omega), l64 2 2 (by omega), l64 4 1 (by omega), l64 5 1 (by omega), l64 6 1 (by omega), hcfg]
  refine ⟨?_, ?_, ?_, ?_, ?_, ?_, ?_, ?_⟩
  · have hb : t.badIn a 152 = false := by simp [State.badIn, ht]
    have e1 : t.cuUnready = none := by rw [← h1, ht]; rfl
    have e2 : t.keyFor 0 0 = true := by rw [← h2, ht]; rfl
    have e3 : t.cuRangeOk false a 152 = true := by rw [← h3, ht]; rfl
    have e4 : t.slotKey 0 = s.slotKey 0 := by rw [ht]; rfl
    have e5 : t.readMem (a + 136) 16 = m := by
      rw [State.readMem, ht]
      show (s.mem.writeList (a + 136) m).readList (s.memKey (a + 136)) 16 = m
      rw [hk _ (by omega), ← hm, readList_written _ _ _ h5]
    have e6 : t.readMem a 136 = s.readMem a 136 := hr _ _ (by omega) (by omega)
    simp [State.imageCheck, e1, e2, e3, hb, e4, e5, e6, hc]
  · rw [← h9]
    simp only [State.imgHeaderOk, l0 0 4 (by omega), l0 4 2 (by omega), l0 6 1 (by omega), l0 7 1 (by omega), l0 8 4 (by omega), l0 12 4 (by omega),
      l0 16 48 (by omega)]
  · simp only [State.findVariant, l0 7 1 (by omega), l0 12 4 (by omega), h7, h8]
    simp [List.range_succ, htag]
  · rw [← h11]
    simp only [State.variantOk, l64 7 1 (by omega), l64 8 2 (by omega), l64 10 2 (by omega), l64 12 4 (by omega), l64 18 14 (by omega), l64 16 2 (by omega)]
  · rw [l0 74 2 (by omega), h12]
  · rw [l0 76 4 (by omega), h13]
  · rw [hs, h14]
  · rw [hs, ← h15, ht]; rfl

theorem image_facts :
    imgFacts (loading 2 (image0 1)) imgAt 1 = true ∧ imgFacts (loading 3 (image0 2)) imgAt 2 = true := by decide +kernel

theorem witness_LoadsPlaceAndRegister_image :
    let s := loadingMac 2 (image0 1)
    s.ds.loads.get? 2 = some (loadGroup 2 152, 5) ∧ s.imageCheck imgAt 152 0 = none ∧ s.imgHeaderOk imgAt 136 1 = true
      ∧ s.findVariant imgAt = some (imgAt + 64) ∧ s.variantOk (imgAt + 64) 136 1 = true ∧ s.readLe (imgAt + 74) 2 = 1
      ∧ (s.sectionAt (imgAt + s.readLe (imgAt + 76) 4) 136).ok = true
      ∧ s.destsOk [s.sectionAt (imgAt + s.readLe (imgAt + 76) 4) 136] = true ∧ 0x80000 ≤ imgAt := by
  obtain ⟨h1, h2, h3, h4, h5, h6, h7, h8⟩ := image_loads _ _ _ _ (by decide) image_facts.1 (cmac_length _ _) rfl
  refine ⟨by rw [loadingMac, State.writeMem_ds]; rfl, h1, h2, h3, h4, h5, ?_, ?_, by decide⟩
  · rw [loadingMac, h6]; exact h7
  · rw [loadingMac, h6]; exact h8

theorem witness_LoadsPlaceAndRegister_refusals :
    ({ loading 2 (image0 1) with cu := { up.cu with test := 0 } } : State).imageCheck imgAt 152 0 = some cuNotReady
    ∧ (loadingMac 3 (image0 2)).imageCheck imgAt 152 0 = none ∧ (loading 3 (image0 2)).imgHeaderOk imgAt 136 1 = false := by
  refine ⟨by decide +kernel, (image_loads _ _ _ _ (by decide) image_facts.2 (cmac_length _ _) rfl).1, by decide +kernel⟩

/-- A recipe of one pipeline and one part slot on step ring 9. -/
def recipe0 : RecipeDesc :=
  { owner := 0, peers := [], pipes := 1, posCh := 0, stepRing := 9, partRing := 8, maxParts := 2, slotBase := hoardBase + 2 ^ 22,
    slotStride := 4096, kvBytes := 256, evBytes := 256, tokStrip := 4, maxTokens := 256, ctxMax := 0, ctxChunk := 16, ctxBudget := 0,
    ctxRequired := false, ctxRing := hoardBase, ctxWin := 0, actOut := none, holdOut := none, trailing := true, actOfs := 100, widthPart := false,
    actWidth := 10, margin := 0, defaultEject := false, tolLines := 10, tolStrips := 2, stepDlPct := 100, stepWaitUs := 100,
    markWaitUs := 100, evCore := 1, evCtr := 200, statics := [], win16 := 1, demandDetect := 1, demandInfer := 1, detect := [],
    infer := [], evidence := [], decide := [] }

/-- Placing sections changes memory and nothing that a recipe is checked against. -/
theorem place_only (a : Nat) (l : List Section) (s : State) :
    ∃ m b, s.placeSections a l = { s with mem := m, badWords := b } := by
  induction l generalizing s with
  | nil => exact ⟨s.mem, s.badWords, rfl⟩
  | cons x l ih =>
    have h : ∃ m b, (if x.zero then s.zeroMem x.dest x.len else s.writeMem x.dest (s.readMem (a + x.ofs) x.len))
        = { s with mem := m, badWords := b } := by
      unfold State.zeroMem State.writeMem
      split <;> split <;> exact ⟨_, _, rfl⟩
    obtain ⟨m, b, h⟩ := h
    obtain ⟨m', b', h'⟩ := ih { s with mem := m, badWords := b }
    exact ⟨m', b', (congrArg (fun s => State.placeSections s a l) h).trans h'⟩

theorem write_only (s : State) (a : Nat) (l : List Byte) : ∃ m b, s.writeMem a l = { s with mem := m, badWords := b } := by
  unfold State.writeMem
  split <;> exact ⟨_, _, rfl⟩

theorem mem_only (s : State) (m : Memory) (b : List Nat) (d : RecipeDesc) :
    ({ s with mem := m, badWords := b } : State).recipeCheck d = s.recipeCheck d
      ∧ ({ s with mem := m, badWords := b } : State).ds = s.ds ∧ ({ s with mem := m, badWords := b } : State).rslot 0 = s.rslot 0 :=
  ⟨rfl, rfl, rfl⟩

theorem recipe_facts :
    let s := loading 3 (image0 2)
    s.ds.loads.get? 2 = some (loadGroup 3 152, 5) ∧ (s.rslot 0).recipe = none ∧ stOk = 0 ∧ s.recipeCheck recipe0 = none
      ∧ s.recipeCheck { recipe0 with maxParts := 0 } = some stMalformed := by decide +kernel

theorem recipe_loads (s u : State) (a : Nat) (g : Group) (m0 : Memory) (b0 : List Nat) (hw : s = { u with mem := m0, badWords := b0 })
    (e : g.src % 2 ^ 40 = a) (n : g.len = 152) (k : g.keySlot = 0)
    (h : s.imageCheck a 152 0 = none ∧ s.imgHeaderOk a 136 2 = true ∧ s.findVariant a = some (a + 64)
      ∧ s.variantOk (a + 64) 136 2 = true ∧ s.readLe (a + 74) 2 = 1 ∧ s.readLe (a + 76) 4 = 96
      ∧ (s.sectionAt (a + 96) 136).ok = true ∧ s.destsOk [s.sectionAt (a + 96) 136] = true) :
    s.ds = u.ds ∧ s.rslot 0 = u.rslot 0 ∧ (s.loadImage g 2).2.1 = stOk ∧ ∀ d, (s.loadImage g 2).1.recipeCheck d = u.recipeCheck d := by
  obtain ⟨h1, h2, h3, h4, h5, h6, h7, h8⟩ := h
  have hl : ∃ l k x, s.loadImage g 2 = (s.placeSections a l, stOk, x, k) := by
    refine ⟨[s.sectionAt (a + 96) 136], s.readLe (a + 64 + 8) 2, [s.sectionAt (a + 96) 136].map (fun x => (x.dest, x.len)), ?_⟩
    unfold State.loadImage
    simp only [e, n, k]
    rw [h1]
    simp only [show (152 - 16 : Nat) = 136 from rfl]
    rw [h2, h3]
    simp only [h4, h5, h6, Nat.add_assoc]
    simp [List.range_succ, h7, h8]
  obtain ⟨l, k, x, hl⟩ := hl
  obtain ⟨m, b, hp⟩ := place_only a l s
  rw [hl]
  dsimp only
  refine ⟨by rw [hw], by rw [hw]; rfl, rfl, fun d => ?_⟩
  rw [hp, (mem_only s m b _).1, hw, (mem_only _ m0 b0 _).1]

theorem witness_LoadsPlaceAndRegister_recipe :
    let s := loadingMac 3 (image0 2)
    s.ds.loads.get? 2 = some (loadGroup 3 152, 5) ∧ (s.rslot 0).recipe = none ∧ (s.loadImage (loadGroup 3 152) 2).2.1 = 0
      ∧ (s.loadImage (loadGroup 3 152) 2).1.recipeCheck recipe0 = none
      ∧ (s.loadImage (loadGroup 3 152) 2).1.recipeCheck { recipe0 with maxParts := 0 } = some stMalformed := by
  obtain ⟨m, b, hw⟩ := write_only (loading 3 (image0 2)) (imgAt + 136)
    (cmac ((loading 3 (image0 2)).slotKey 0) ((loading 3 (image0 2)).readMem imgAt 136))
  obtain ⟨h1, h2, h3, h4⟩ := recipe_loads _ _ imgAt (loadGroup 3 152) m b hw (by decide) rfl rfl
    (image_loads _ _ _ _ (by decide) image_facts.2 (cmac_length _ _) rfl)
  obtain ⟨f1, f2, f3, f4, f5⟩ := recipe_facts
  unfold loadingMac
  exact ⟨by rw [h1, f1], by rw [h2, f2], h3.trans f3, by rw [h4, f4], by rw [h4, f5]⟩

theorem witness_LoadsPlaceAndRegister_unload :
    (let s : State := { loading 4 [] with rcp := ⟨[(0, { RcpSlot.init with recipe := some recipe0 })]⟩ }
     (s.rslot 0).recipe.isSome = true ∧ s.flag R.DS_RCP_CTL_run [0] = false ∧ (s.rslot 0).parts = []
       ∧ ((loading 4 []).rslot 0).recipe = none ∧ (s.puts [(R.DS_RCP_CTL_run, [0], 1)]).flag R.DS_RCP_CTL_run [0] = true) := by
  decide +kernel

/-- A strip of pipeline `p`, produced at TT 99 999 000 000. -/
def stripOf (p : Nat) : StripIn :=
  { pipe := p, seq := 4, addr := 0, ttFirst := 99998000000, ttLast := 99999000000, cntFirst := 100, cntLast := 115, replaced := 0,
    lost := 0, resumed := false, prodTt := 99999000000 }

/-- An active part in slot 0, opened 2 ms ago. -/
def part0 : Part := { newPart 7 3 (99998000000, 100) 0 0 0 0 255 with slot := some 0, gen := 5, fresh := false }

/-- Recipe slot 0 with `d`, as `r` has it. -/
def rcpAt (d : RecipeDesc) (r : RcpSlot) : State := { up with rcp := ⟨[(0, { r with recipe := some d })]⟩ }

/-- The recipe of two pipelines, and that of a peer. -/
def recipe2 : RecipeDesc := { recipe0 with pipes := 3 }
def peerRecipe : RecipeDesc := { recipe0 with owner := 1, peers := [0] }
def run1 (s : State) : State := s.puts [(R.DS_RCP_CTL_run, [0], 1)]

theorem readList_append (m : Memory) (a n k : Nat) : m.readList a (n + k) = m.readList a n ++ m.readList (a + n) k := by
  induction n generalizing a with
  | zero => simp [Memory.readList]
  | succ n ih =>
    rw [show n + 1 + k = (n + k) + 1 by omega, Memory.readList, Memory.readList, ih, List.cons_append]
    congr 3; omega

theorem leBytes_length (n x : Nat) : (leBytes n x).length = n := by
  induction n generalizing x with
  | zero => rfl
  | succ n ih => simp [leBytes, ih]

theorem leVal_leBytes (n x : Nat) (h : x < 256 ^ n) : leVal (leBytes n x) = x := by
  induction n generalizing x with
  | zero => simp at h; subst h; rfl
  | succ n ih =>
    have := ih (x / 256) (by rw [Nat.pow_succ] at h; omega)
    simp only [leBytes, leVal, this, BitVec.toNat_ofNat]
    omega

theorem readList_length (m : Memory) (x n : Nat) : (m.readList x n).length = n := by
  induction n generalizing x with
  | zero => rfl
  | succ n ih => simp [Memory.readList, ih]

theorem two_lists (a : Nat) (l k : List Byte) :
    ∃ m : Memory, m.wf = true ∧ m.readList a l.length = l ∧ m.readList (a + l.length) k.length = k := by
  refine ⟨(⟨[]⟩ : Memory).writeList a (l ++ k), Memory.wf_writeList _ _ _ rfl, ?_⟩
  have h := readList_written ⟨[]⟩ a (l ++ k) rfl
  rw [List.length_append, readList_append] at h
  exact List.append_inj h (readList_length _ _ _)

/-- Any one mark word can be the mark list of a step. -/
theorem one_mark (s : State) (n k w : Nat) (hw : w < 256 ^ 16) (hr : s.flag R.FB_REMAP_remap = false) :
    ∃ m : Memory, m.wf = true ∧ ({ s with mem := m } : State).readMarks n k = [w] := by
  obtain ⟨m, hm, h1, h2⟩ := two_lists (bufOf n k + areaOf n k 0) (leBytes 4 1) (leBytes 16 w)
  rw [leBytes_length] at h1 h2
  rw [leBytes_length] at h2
  refine ⟨m, hm, ?_⟩
  generalize ht : ({ s with mem := m } : State) = t
  have hf : t.flag R.FB_REMAP_remap = false := by rw [← hr, ← ht]; rfl
  have hmem : t.mem = m := by rw [← ht]
  have hk : ∀ x, t.memKey x = x := fun x => if_neg (fun h => by rw [hf] at h; exact absurd h.2 (by decide))
  have r4 : t.readLe (bufOf n k + areaOf n k 0) 4 = 1 := by
    rw [State.readLe, State.readMem, hk, hmem, h1, leVal_leBytes 4 1 (by decide)]
  have r16 : t.readLe (bufOf n k + areaOf n k 0 + 4) 16 = w := by
    rw [State.readLe, State.readMem, hk, hmem, h2, leVal_leBytes 16 w hw]
  have e : min 256 1 = 1 := rfl
  simp only [State.readMarks, r4, e, List.range_one, List.map_cons, List.map_nil, Nat.mul_zero, Nat.add_zero, r16]

theorem witness_StepsTriggerAndMarksApply_run :
    (let s := rcpAt recipe0 RcpSlot.init
     s.hostShut .fw = false ∧ s.regHeld (R.DS_RCP_CTL.addr [0]) = false ∧ s.flag R.DS_RCP_STATUS_loaded [0] = false
       ∧ (s.puts [(R.DS_RCP_STATUS_loaded, [0], 1)]).flag R.DS_RCP_STATUS_loaded [0] = true ∧ s.gate .fw (R.DS_RCP_CTL.addr [0]) (s.regWord R.DS_RCP_CTL [0])
         (fieldsWrite (s.regWord R.DS_RCP_CTL [0]) 1 R.DS_RCP_CTL.fields) = none ∧ bit (fieldsWrite 0 1 R.DS_RCP_CTL.fields) 0 = true
       ∧ (s.rslot 0).recipe.isSome = true ∧ (s.rslot 1).recipe = none)
    ∧ (let r := { RcpSlot.init with recipe := some recipe0, strips := [stripOf 0] }
       let s := run1 (rcpAt recipe0 r)
       s.rcp.get? 0 = some r ∧ (rcpAt recipe0 r).stepDue 0 r recipe0 = false ∧ s.flag R.DS_RCP_CTL_run [0] = true ∧ r.phase = .idle
         ∧ r.strips = [stripOf 0] ∧ pipesOf recipe0 = [(stripOf 0).pipe] ∧ s.ownsRecipe recipe0 = true ∧ s.ownsRecipe peerRecipe = false)
    ∧ (pipesOf recipe2 = [(stripOf 0).pipe, 1] ∧ up.tt < (stripOf 0).prodTt + 100000000 ∧ (stripOf 0).prodTt + recipe2.stepWaitUs * 1000 ≤ up.tt)
    ∧ (let r := { RcpSlot.init with recipe := some recipe0, phase := .detect, ended := some 0, k := 6, taken := [stripOf 0] }
       let s := run1 (rcpAt recipe0 r)
       s.rcp.get? 0 = some r ∧ s.flag R.FB_REMAP_remap = false ∧ s.readMarks 0 6 = []) := by decide +kernel

theorem witness_StepsTriggerAndMarksApply_marks :
    (∃ m : Memory, m.wf = true ∧ ({ run1 (rcpAt recipe0 RcpSlot.init) with mem := m } : State).readMarks 0 6 = [1 + 9 * 2 ^ 8])
    ∧ (let w := 1 + 9 * 2 ^ 8
       w % 4 = 1 ∧ bits w 7 2 = 0 ∧ bits w 31 28 = 0 ∧ bits w 127 80 = 0 ∧ bit recipe0.pipes (bits w 39 32) = true
         ∧ bit recipe0.pipes (bits w 47 40) = true ∧ 0 < recipe0.maxParts)
    ∧ (part0.stage = .active ∧ part0.handle = bits (1 + 7 * 2 ^ 8) 23 8 ∧ part0.handle ≠ 9 ∧ bit recipe0.pipes (bits (1 + 2 ^ 32) 39 32) = false) :=
  ⟨one_mark _ _ _ _ (by decide) (by decide +kernel), by decide, by decide⟩

theorem witness_StepsTriggerAndMarksApply_peer :
    (let b : MarkBatch := { step := 6, marks := [] }
     let r := { RcpSlot.init with recipe := some peerRecipe, phase := .marks, k := 6, tk := 99999900000 }
     let s := rcpAt peerRecipe r
     s.rcp.get? 0 = some r ∧ s.ownsRecipe peerRecipe = false ∧ b.step = r.k ∧ r.batches = [] ∧ r.tk + peerRecipe.markWaitUs * 1000 ≤ s.tt
       ∧ (onTt 99999900001 s).tt < r.tk + peerRecipe.markWaitUs * 1000 ∧ r.k < ({ b with step := 7 } : MarkBatch).step
       ∧ ({ b with step := 5 } : MarkBatch).step < r.k ∧ 5 ∈ ({ r with lateSteps := [5] } : RcpSlot).lateSteps) := by decide +kernel

theorem witness_PartsAreDecidedAndRecorded :
    (let r := { RcpSlot.init with recipe := some recipe0, phase := .infer, ended := some 1, taken := [stripOf 0] }
     let s := run1 (rcpAt recipe0 r)
     s.rcp.get? 0 = some r ∧ r.dropped = false ∧ r.lateSteps = [] ∧ s.flag R.DS_RCP_CTL_run [0] = true ∧ r.parts = []
       ∧ (rcpAt recipe0 RcpSlot.init).rcp.get? 0 ≠ none ∧ RcpSlot.init.phase ≠ .infer)
    ∧ (let p := { part0 with stage := .closing, close := some (99999000000, 110) }
       let r := { RcpSlot.init with recipe := some recipe0, phase := .infer, ended := some 1, parts := [p] }
       let s := run1 (rcpAt recipe0 r)
       s.rcp.get? 0 = some r ∧ p.owed = none ∧ p.slot.isSome = true ∧ p.replaced ≤ recipe0.tolLines ∧ p.inputFailed = false
         ∧ p.overlength = false ∧ recipe0.ctxRequired = false ∧ p.word = none ∧ s.ownsRecipe recipe0 = true
         ∧ s.flag R.HP_CQ_CFG_en [recipe0.partRing] = false ∧ s.host.held.length < 512)
    ∧ (let p := { part0 with stage := .deciding, close := some (99999000000, 2 ^ 20) }
       let r := { RcpSlot.init with recipe := some recipe0, parts := [p] }
       let s := rcpAt recipe0 r
       s.rcp.get? 0 = some r ∧ 0x80000 ≤ recipe0.slotBase ∧ 0 < recipe0.maxParts ∧ p.slot = some 0 ∧ s.partExpired recipe0 p = false
         ∧ (let w := 5 * 2 ^ 32
            w < 2 ^ 64 ∧ w / 2 ^ 32 = p.gen ∧ w % 8 = 0 ∧ (5 * 2 ^ 32 + 2) % 8 ≠ 0 ∧ (5 * 2 ^ 32 + 2) % 8 ≠ 1 ∧ (5 * 2 ^ 32 + 2) % 8 ≠ 5)
         ∧ recipe0.peers = [] ∧ recipe0.defaultEject = false)
    ∧ (let p := { part0 with stage := .closing, close := some (5, 100) }
       let d := { recipe0 with posCh := 15 }
       let r := { RcpSlot.init with recipe := some d, parts := [p], strips := [stripOf 0] }
       let s := rcpAt d r
       s.rcp.get? 0 = some r ∧ (∀ x ∈ r.strips, x.pipe < 32) ∧ s.flag R.DS_RCP_CTL_run [0] = false ∧ r.phase = .idle ∧ s.partExpired d p = true ∧ p.owed = none ∧ p.slot.isSome = true ∧ s.ownsRecipe d = true ∧ p.word = none
         ∧ p.inDecide = false ∧ p.late = false) := by decide +kernel

/-- What Takes asks, as a Bool. -/
def takes (s : State) (src : Src) (r : RegSpec) (ix : List Nat) (v : Nat) : Bool :=
  decide (s.hostShut src = false ∧ s.regHeld (r.addr ix) = false
    ∧ s.gate src (r.addr ix) (s.regWord r ix) (fieldsWrite (s.regWord r ix) v r.fields) = none)

theorem takes_sound {s : State} {src : Src} {r : RegSpec} {ix : List Nat} {v : Nat} (h : takes s src r ix v = true) : s.Takes src r ix v := by
  simpa [takes, State.Takes] using h

/-- The actuation unit on, with output 3 and channel 0 on and `p` written into words 0 to 6 of AU_POST. -/
def auOn (p : Nat) : State :=
  let s := up.puts [(R.AU_CTL_en, [], 1), (R.AU_OUT_CFG_en, [3], 1), (R.PU_CH_CTL_mode, [0], 1), (R.PU_STATUS_standstill, [0], 0)]
  (List.range 7).foldl (fun s k => s.setRegWord R.AU_POST [k] (p / 2 ^ (32 * k) % 2 ^ 32)) s

/-- The post that AU_POST spells. -/
def posted (s : State) : Nat := (List.range 7).foldl (fun a k => a + s.regWord R.AU_POST [k] * 2 ^ (32 * k)) 0 + 0 * 2 ^ 224

/-- An entry that waits for `p`. -/
def entryOf (p : Nat) : AuEntry :=
  { post := p, state := .armed, source := 1, chip := 0, acc := 99999000000, fwd := true, anchor := none, start := 0, base := 0, stop := 0, minOn := 0,
    maxOn := 0, gap := 0, cut := false }

/-- `auOn` with entry 7 as `e`. -/
def withEntry (e : AuEntry) : State :=
  let s := auOn 0
  { s with au := { s.au with table := ⟨[(7, e)]⟩ } }

def countPost : Nat := mkPost 1 false false 0 3 50 500 9
def timePost (tt : Nat) : Nat := mkPost 2 false false 0 3 50 tt 9

theorem witness_PostsAndTriggersFire_posts :
    (up.hostShut .host = false ∧ up.flag R.AU_CTL_en = false ∧ up.islandHeld 53 = false
      ∧ ({ up with heldIsl := [53] } : State).islandHeld 53 = true ∧ ({ up with heldIsl := [53] } : State).hostShut .host = false)
    ∧ (let s := auOn countPost
       let p := posted s
       p = countPost ∧ s.flag R.AU_CTL_en = true ∧ postBad s p = false ∧ s.flag R.AU_OUT_CFG_en [3] = true ∧ postOut p = 3 ∧ s.chOn 0 = true
         ∧ 0 < ahead true (postTrig p) (s.ch 0).cnt ∧ s.au.table.lowestFree s.cfg.eventTable = some 0 ∧ s.flag R.AU_GUARD_en [0] = false
         ∧ (let t := s.puts [(R.AU_GUARD_en, [0], 1), (R.AU_GUARD_guard_cnt, [0], 1000)]
            t.flag R.AU_GUARD_en [0] = true ∧ ahead true (postTrig p) (t.ch 0).cnt ≤ t.get R.AU_GUARD_guard_cnt [0])
         ∧ (s.puts [(R.PU_CH_CTL_mode, [0], 0)]).chOn 0 = false ∧ (s.puts [(R.AU_OUT_CFG_en, [3], 0)]).flag R.AU_OUT_CFG_en [3] = false)
    ∧ (let s := auOn 3
       s.flag R.AU_CTL_en = true ∧ postBad s (posted s) = true)
    ∧ (let s := auOn (timePost 99999990000)
       let p := posted s
       postBad s p = false ∧ postKind p = 2 ∧ postTrig p ≤ s.tt ∧ postNoLate p = false ∧ s.tt < postTrig p + min (max (postWidth p * 1000) (s.get R.AU_OUT_CFG_min_on_us [3] * 1000)) (s.get R.AU_OUT_CFG_max_on [3] * 10000000)
         ∧ s.tt - postTrig p ≤ (s.puts [(R.AU_OUT_LATE_late_us, [3], 20)]).get R.AU_OUT_LATE_late_us [3] * 1000
         ∧ s.get R.AU_WEAR_WARN_warn [3] = 0 ∧ (onTt 99999980000 s).tt < postTrig p)
    ∧ (let s := auOn (timePost 50)
       postTrig (posted s) + max (postWidth (posted s) * 1000) (s.get R.AU_OUT_CFG_min_on_us [3] * 1000) ≤ s.tt)
    ∧ ({ cells := (List.range 64).map (fun i => (i, 0)) } : Tbl Nat).lowestFree 64 = none := by decide +kernel

theorem witness_PostsAndTriggersFire_triggers :
    (let s := withEntry (entryOf countPost)
     let t := s.setCh 0 { s.ch 0 with cnt := 500 }
     s.au.table.get? 7 = some (entryOf countPost) ∧ (entryOf countPost).isPending = true ∧ postKind countPost = 1
       ∧ ¬ entryAhead s (entryOf countPost) ≤ 0 ∧ entryAhead t (entryOf countPost) ≤ 0 ∧ s.flag R.AU_GUARD_en [0] = false
       ∧ s.au.table.get? 8 = none)
    ∧ (let e := entryOf (timePost 50)
       e.isPending = true ∧ postKind e.post = 2 ∧ postTrig e.post ≤ up.tt ∧ ¬ postTrig (timePost 100000000001) ≤ up.tt)
    ∧ (let a : Anchor := { c := 490, t := 99999000000, v := 20 * 2 ^ 32, adv := 0, tol := 1, spd := 5 }
       let e := { entryOf countPost with state := .disagreeing, anchor := some a }
       let s0 := (withEntry e).puts [(R.AU_GUARD_en, [0], 1)]
       let s := s0.setCh 0 { s0.ch 0 with speed := 20 * 2 ^ 32 }
       e.anchor = some a ∧ s.flag R.AU_GUARD_en [0] = true ∧ a.v = (s.ch 0).speed ∧ s.flag R.PU_STATUS_standstill [0] = false
         ∧ s.approachMatches e = true ∧ 0 < entryAhead s e ∧ predAhead e a s.tt ≤ 0 ∧ ¬ predAhead e a 99999000000 ≤ 0) := by
  decide +kernel

/-- A pulse of entry 7 that runs, and its output. -/
def firing : AuEntry :=
  { entryOf (timePost 50) with state := .firing, start := 99990000000, base := 99990000000, stop := 99995000000, minOn := 1000, maxOn := 9000000 }
def pulsing (e : AuEntry) : State :=
  let s := withEntry e
  s.setOut 3 { s.out 3 with active := true, onTt := 99990000000 }

theorem witness_PulsesEndAndCancels_pulses :
    (let s := pulsing firing
     s.au.table.get? 7 = some firing ∧ firing.isPending = false ∧ s.pulseOver firing = true ∧ firing.gap = 0
       ∧ s.au.table.cells = [(7, firing)] ∧ (s.out 3).active = true ∧ firing.base + firing.maxOn ≤ s.tt ∧ s.islandHeld 53 = false
       ∧ firing.start + firing.minOn ≤ s.tt ∧ (onTt 99990000500 s).tt < firing.start + firing.minOn
       ∧ (onTt 99990000500 s).pulseOver firing = false ∧ s.au.table.get? 8 = none)
    ∧ (let s := pulsing firing
       let t : State := { s with au := { s.au with table := ⟨[(7, firing), (9, firing)]⟩ } }
       ∃ x ∈ t.au.table.cells, x.1 ≠ 7 ∧ x.2.state = .firing ∧ postOut x.2.post = 3)
    ∧ (let e := { entryOf countPost with acc := 5 }
       let s := (withEntry e).puts [(R.AU_CTL_expire_s, [], 60)]
       e.isPending = true ∧ s.get R.AU_CTL_expire_s * 1000000000 ≠ 0 ∧ e.acc + s.get R.AU_CTL_expire_s * 1000000000 < s.tt
         ∧ s.au.table.cells ≠ [] ∧ (s.au.table.vals.all (·.isPending)) = true ∧ s.au.table.keys.Nodup
         ∧ s.tt ≤ 99999000000 + s.get R.AU_CTL_expire_s * 1000000000)
    ∧ (let s0 := auOn 0
       let s := s0.setOut 3 { s0.out 3 with active := true, bridge := some 99990000000, gap := 500 }
       (s.out 3).bridge = some 99990000000 ∧ 99990000000 + (s.out 3).gap ≤ s.tt ∧ (onTt 99990000100 s).tt < 99990000000 + (s.out 3).gap
         ∧ (s.out 4).bridge = none) := by decide +kernel

theorem witness_PulsesEndAndCancels_writes :
    (let f := fun s v => fieldsWrite (s.regWord R.AU_CTL []) v R.AU_CTL.fields
     takes up .host R.AU_CTL [] 1 = true ∧ bit (up.regWord R.AU_CTL []) 0 = false ∧ bit (f up 1) 0 = true
       ∧ takes (auOn 0) .host R.AU_CTL [] 0 = true ∧ bit ((auOn 0).regWord R.AU_CTL []) 0 = true ∧ bit (f (auOn 0) 0) 0 = false
       ∧ bit (f (auOn 0) 1) 0 = true)
    ∧ (let s := auOn 0
       let f := fun v => fieldsWrite (s.regWord R.AU_OUT_CFG [3]) v R.AU_OUT_CFG.fields
       takes s .fw R.AU_OUT_CFG [3] 0 = true ∧ bit (s.regWord R.AU_OUT_CFG [3]) 0 = true ∧ bit (f 0) 0 = false ∧ s.au.table.keys.Nodup
         ∧ 3 < s.cfg.actOutputs ∧ takes s .fw R.AU_OUT_CFG [4] 1 = true ∧ bit (s.regWord R.AU_OUT_CFG [4]) 0 = false) := by decide +kernel

/-- A transaction of master 0x2C on the block at the start of the Hoard. -/
def txn0 (a : Nat) (write : Bool) : FabTxn :=
  { n := 5, mst := 0x2C, write := write, addr := a, len := 4, chip := none, data := if write then List.replicate 4 (some 7#8) else [],
    qos := 0, tt := 99999999000, left := [a / 64], got := Tbl.empty, err := false, tag := none, sent := 0, hung := false, waits := false,
    dead := false, remap := false }

/-- `up` with the Hoard zeroed and `l` in the fabric. -/
def fabOn (l : List FabTxn) : State := { up with fab := { up.fab with txns := l, ready := true } }

theorem witness_FabricTransactionsComplete_accesses :
    (let s := fabOn []
     s.islandHeld 52 = false ∧ s.masterExists 0x3F = false ∧ s.masterExists 0x2C = true ∧ txnShape hoardBase 4 = true ∧ s.fab.mrst.get? 0x2C = none ∧ bit hoardBase 63 = false
       ∧ (blocksOf hoardBase 4).all (fun b => s.blockTarget b != 0x7F && (s.fab.trst.get? (s.blockTarget b)).isNone && !s.scratchHeld b) = true
       ∧ guardedMaster 0x2C = false ∧ hoardBase < burrowBase ∧ s.fab.remap = none ∧ (blocksOf 0x90000000 4).any (fun b => s.blockTarget b == 0x7F) = true)
    ∧ (let s : State := { fabOn [] with cfg := { Cfg.r32 with quillPorts := 0 } }
       s.cfg.valid = true ∧ bit (2 ^ 63 + 2 ^ 40) 63 = true ∧ bits (2 ^ 63 + 2 ^ 40) 51 40 ≠ s.chipNo ∧ s.masterExists 0x2C = true)
    ∧ (let y := { txn0 0x90000000 false with hung := true }
       y.samePort 0x2C true = true ∧ y.hung = true)
    ∧ (let s := fabOn []
       let t : State := { s with aud := { s.aud with ctx := s.aud.ctx.set 1 { AudCtx.empty with hdr := leBytes 64 (4096 * 2 ^ 352), region := hoardBase } } }
       let u := t.puts [(R.RG_AUD_STATUS_state, [1], 2)]
       guardedMaster 0x28 = true ∧ u.masterExists 0x28 = true ∧ u.audGuard hoardBase 4 = some 1)
    ∧ (let s : State := { fabOn [] with heldIsl := [0] }
       s.scratchHeld (scratchBase / 64) = true ∧ s.blockTarget (scratchBase / 64) ≠ 0x7F ∧ s.audGuard scratchBase 4 = none) := by
  decide +kernel

theorem witness_FabricTransactionsComplete_beats :
    (let x := txn0 (hoardBase + 4) true
     let s := fabOn [x]
     s.granted 0x22 = some (x, hoardBase / 64) ∧ s.granted 0x23 = none ∧ x.left = [hoardBase / 64] ∧ x.dead = false ∧ x.err = false
       ∧ s.fab.remap = none ∧ 0x22 ≠ tgtReg ∧ 0x80000 ≤ 64 * (hoardBase / 64) ∧ s.badWords = []
       ∧ partialWords (x.blockData (hoardBase / 64)) = [0] ∧ s.region (64 * (hoardBase / 64) + 8 * 0) = .hoard)
    ∧ (let x := txn0 (hoardBase + 4) false
       let s := fabOn [x]
       s.granted 0x22 = some (x, hoardBase / 64) ∧ x.got = Tbl.empty ∧ s.fab.soft = [] ∧ s.badWords = [] ∧ 64 * (hoardBase / 64) + 8 * 0 < min (x.addr + x.len) (64 * (hoardBase / 64) + 64)
         ∧ max x.addr (64 * (hoardBase / 64)) < 64 * (hoardBase / 64) + 8 * 0 + 8)
    ∧ (let x := txn0 (scratchBase + 4) false
       let s := fabOn [x]
       s.granted (s.blockTarget (scratchBase / 64)) = some (x, scratchBase / 64) ∧ s.region (64 * (scratchBase / 64)) = .scratch 0)
    ∧ (let x := txn0 (regBase + 4) false
       let s := fabOn [x]
       s.granted tgtReg = some (x, regBase / 64) ∧ x.mst = 0x2C ∧ x.addr = regBase + (x.addr - regBase) ∧ x.len = 4 ∧ x.addr % 4 = 0
         ∧ 64 * (regBase / 64) ≤ x.addr ∧ x.addr < 64 * (regBase / 64) + 64) := by decide +kernel

theorem witness_FabricTransactionsComplete_rest :
    (let s := fabOn []
     let x := s.fab.scrub.get 0 { pos := 0, start := 0, behind := false }
     let n := s.cfg.hoardBytes / 64
     s.islandHeld 52 = false ∧ s.fab.soft = [] ∧ s.fab.ready = true ∧ x.start + x.pos * (s.get R.FB_SCRUB_hoard_s * 1000000000) / n ≤ s.tt ∧ s.badWords = [] ∧ x.pos + 1 < n
       ∧ up.fab.ready = false ∧ x.behind = false)
    ∧ (let s : State := { fabOn [] with fab := { (fabOn []).fab with scrub := ⟨[(0, { pos := 96 * 16384 - 1, start := 0, behind := false })]⟩ } }
       let x := s.fab.scrub.get 0 { pos := 0, start := 0, behind := false }
       let t := onTt (200000 * 1000000000) s
       s.cfg.hoardBytes / 64 ≤ x.pos + 1 ∧ x.start + x.pos * (t.get R.FB_SCRUB_hoard_s * 1000000000) / (t.cfg.hoardBytes / 64) ≤ t.tt
         ∧ x.start + 2 * (t.get R.FB_SCRUB_hoard_s * 1000000000) ≤ t.tt ∧ (onTt 0 s).tt < x.start + 2 * (t.get R.FB_SCRUB_hoard_s * 1000000000))
    ∧ (let x := txn0 16 false
       let s := fabOn [x]
       s.fab.txns = [x] ∧ x.left.any (fun b => s.blockTarget b == tgtBoot) = true ∧ x.remap = false ∧ x.waits = false ∧ x.hung = false
         ∧ x.chip = none)
    ∧ (up.fab.ready = false ∧ ({ up with por := false } : State).por = false ∧ up.cfg.hoardMib * 256 ≤ up.tt ∧ cold.tt < cold.cfg.hoardMib * 256) := by
  decide +kernel

/-- Burrow port 2 open with 4 GiB, PHY ready, and `l` in the fabric. -/
def brwOn (l : List FabTxn) : State :=
  (fabOn l).puts [(R.FB_BRW_STATUS_phy_ready, [2], 1), (R.FB_BRW_STATUS_size_in, [2], 8), (R.FB_BRW_CFG_size, [2], 4), (R.FB_BRW_CFG_open, [2], 1)]

def brwTxn (write : Bool) : FabTxn := { txn0 (burrowBase * 3 + 128) write with tag := some 9, sent := 99990000000 }

theorem witness_BurrowPortsAndPortResets_data :
    (let x := brwTxn false
     let s := brwOn [x]
     s.tagged 2 9 false = some x ∧ s.tagged 2 9 true = none ∧ s.tagged 2 8 false = none ∧ x.dead = false ∧ x.write = false ∧ 2 < s.cfg.burrowPorts)
    ∧ (let x := brwTxn true
       let s := brwOn [x]
       s.tagged 2 9 true = some x ∧ x.left = [(burrowBase * 3 + 128) / 64] ∧ 0x80000 ≤ 64 * ((burrowBase * 3 + 128) / 64)
         ∧ x.left.any (fun b => s.blockTarget b == tgtBurrow 2) = true ∧ x.sent + 65536 ≤ s.tt
         ∧ s.flag R.FB_BRW_STATUS_stalled [2] = false ∧ (onTt 99990000001 s).tt < x.sent + 65536)
    ∧ (let s := (fabOn []).puts [(R.FB_BRW_STATUS_phy_ready, [2], 1), (R.FB_BRW_STATUS_size_in, [2], 8)]
       let f := fun v => fieldsWrite (s.regWord R.FB_BRW_CFG [2]) v R.FB_BRW_CFG.fields
       takes s .fw R.FB_BRW_CFG [2] 260 = true ∧ bit (s.regWord R.FB_BRW_CFG [2]) 8 = false ∧ bit (f 260) 8 = true ∧ bits (f 260) 6 0 = 4
         ∧ s.flag R.FB_BRW_STATUS_init_busy [2] = false ∧ takes s .fw R.FB_BRW_CFG [2] 516 = true ∧ bit (f 516) 8 = false
         ∧ bits (f 516) 6 0 ≠ 0 ∧ takes up .fw R.FB_BRW_CFG [2] 260 = true ∧ up.flag R.FB_BRW_STATUS_phy_ready [2] = false)
    ∧ (let s := brwOn []
       let t : State := { s with fab := { s.fab with fill := ⟨[(2, 5)]⟩ } }
       t.fab.fill.get? 2 = some 5 ∧ 5 + t.get R.FB_BRW_CFG_size [2] * 2 ^ 30 / 64 ≤ t.tt ∧ (onTt 6 t).tt < 5 + t.get R.FB_BRW_CFG_size [2] * 2 ^ 30 / 64
         ∧ s.fab.fill.get? 2 = none) := by decide +kernel

theorem witness_BurrowPortsAndPortResets_resets :
    (let r : PortRst := { count := 1, ordered := false, tt := 5, down := false }
     let s : State := { fabOn [] with fab := { (fabOn []).fab with trst := ⟨[(0x64, r)]⟩, mrst := ⟨[(0x2C, r)]⟩ } }
     s.fab.trst.get? (tgtBurrow 2) = some r ∧ s.flag R.FB_BRW_STATUS_phy_ready [2] = false ∧ r.tt + 100000000 ≤ s.tt
       ∧ s.fab.mrst.get? 0x2C = some r ∧ s.fab.txns = [] ∧ 0 < r.count ∧ s.fab.trst.get? 0x22 = none ∧ s.fab.mrst.get? 0x20 = none
       ∧ s.remote = [])
    ∧ (let x := txn0 hoardBase false
       let s := fabOn [x]
       let t : State := { s with fab := { s.fab with mrst := ⟨[(0x2C, { count := 1, ordered := false, tt := 5, down := false })]⟩ } }
       bit (2 ^ 31 + 0x2C) 31 = true ∧ bit (2 ^ 31 + 0x2C) 7 = false ∧ bits (2 ^ 31 + 0x2C) 6 0 = 0x2C ∧ s.masterExists 0x2C = true ∧ x.mst = 0x2C
         ∧ s.fab.mrst.get? 0x2C = none ∧ bits (2 ^ 31 + 2 ^ 7 + 0x22) 6 0 = 0x22 ∧ s.targetExists 0x22 = true ∧ 0x22 ≠ tgtQuill
         ∧ s.fab.trst.get? 0x22 = none ∧ x.left.any (fun b => s.blockTarget b == 0x22) = true ∧ t.fab.txns.any (fun x => x.mst == 0x2C) = true)
    ∧ (let r : PortRst := { count := 1, ordered := false, tt := 5, down := false }
       let s : State := { fabOn [] with fab := { (fabOn []).fab with trst := ⟨[(0x22, r)]⟩ } }
       s.fab.trst.get? 0x22 = some r ∧ 0x22 < 0x62) := by decide +kernel

/-- Port 4 in use with its receiver in state `fsm`, and the rest of its receiver as `x`. -/
def portOn (fsm : Nat) (x : QRx) : State :=
  (up.puts [(R.QP_CTL_en, [4], 1), (R.QP_STATUS_fsm, [4], fsm)]).setQrx 4 x

/-- A frame that begins with `l`. -/
def frameOf (l : List Byte) : List Byte := l ++ List.replicate (3000 - l.length) 0#8

theorem witness_QuillFramesAndDefects_receive :
    ((frameOf faw).length = 3000 ∧ (frameOf faw).take 4 = faw ∧ (frameOf []).length = 3000 ∧ (frameOf []).take 4 ≠ faw)
    ∧ (∀ n ∈ ([1, 2, 3] : List Nat), (portOn n QRx.init).qpOn 4 = true ∧ (portOn n QRx.init).get R.QP_STATUS_fsm [4] = n)
    ∧ (QRx.init.cnt < 2 ∧ 3 ≤ ({ QRx.init with cnt := 3 } : QRx).cnt ∧ up.qpOn 4 = false ∧ 4 < up.cfg.quillPorts)
    ∧ (let s := portOn 3 { QRx.init with parity := some 7 }
       (s.qrx 4).parity = some 7) := by decide +kernel

theorem witness_QuillFramesAndDefects_defects :
    (let m := { QMember.init 4 2 with txq := [(9, List.replicate 123 5#8)] }
     let s := (portOn 3 QRx.init).setQg 4 { QGroup.init with members := ⟨[(0, m)]⟩ }
     s.quill.relays.cells = [] ∧ s.memberAt 4 2 = some (4, 0, m) ∧ (s.qg 4).members.get? 0 = some m ∧ s.stuffs (s.qtx 4) = false
       ∧ s.flag R.QP_CTL_ais_force [4] = false ∧ (List.replicate 123 5#8).length = 123)
    ∧ ((portOn 3 QRx.init).qpOn 4 = true ∧ QRx.init.raw = 0)
    ∧ (let x := { QRx.init with raw := 1, oofTt := none }
       bit x.raw 0 = true ∧ x.raw = 1 ∧ (portOn 3 x).get R.QP_STATUS_fsm [4] = 3)
    ∧ (let x := { QRx.init with raw := 2, oofTt := some 5 }
       x.oofTt = some 5 ∧ 5 + 256000 ≤ (portOn 1 x).tt ∧ (onTt 6 (portOn 1 x)).tt < 5 + 256000 ∧ bit x.raw 2 = false
         ∧ bit ({ x with raw := 6 } : QRx).raw 2 = true) := by decide +kernel

theorem witness_QuillFramesAndDefects_writes :
    (let s := portOn 3 QRx.init
     takes s .fw R.QP_DESKEW [4] 65536 = true ∧ s.regWord R.QP_DESKEW [4] ≠ fieldsWrite (s.regWord R.QP_DESKEW [4]) 65536 R.QP_DESKEW.fields
       ∧ takes up .fw R.QP_DESKEW [4] 65536 = true ∧ takes up .fw R.QP_CTL [4] 1 = true ∧ bit (up.regWord R.QP_CTL [4]) 0 = false
       ∧ bit (fieldsWrite (up.regWord R.QP_CTL [4]) 1 R.QP_CTL.fields) 0 = true ∧ up.get R.QP_DESKEW_base [4] % 65536 = 0
       ∧ up.get R.QP_DESKEW_base [4] + 768 * 1024 ≤ up.cfg.hoardBytes ∧ takes s .fw R.QP_CTL [4] 0 = true
       ∧ bit (s.regWord R.QP_CTL [4]) 0 = true ∧ bit (fieldsWrite (s.regWord R.QP_CTL [4]) 0 R.QP_CTL.fields) 0 = false
       ∧ ¬ (up.puts [(R.QP_DESKEW_base, [4], 96 * 2 ^ 20 - 65536)]).get R.QP_DESKEW_base [4] + 768 * 1024 ≤ up.cfg.hoardBytes) := by decide +kernel

/-- Group 2 as `g`. -/
def withGroup (g : QGroup) : State := (up.puts [(R.QM_CTL_en, [], 1)]).setQg 2 g

theorem witness_MembersMapsAndGroupFrames_members :
    (let m := { QMember.init 4 2 with gcTt := some 5, healthy := true }
     let s := withGroup { QGroup.init with members := ⟨[(3, m)]⟩ }
     (s.qg 2).members.get? 3 = some m ∧ 5 + 96000 < s.tt ∧ ¬ 5 + 96000 < (onTt 6 s).tt ∧ (s.qg 2).members.get? 4 = none
       ∧ (s.qg 2).change = none ∧ (s.qg 2).rxPend = none ∧ (s.qg 2).desired = (s.qg 2).txMap ∧ (s.qg 2).drop = 0)
    ∧ (let m := { QMember.init 4 2 with gcTt := some 99999999000, okTt := some 5, gfnOk := true }
       let s := (portOn 3 QRx.init).setQg 2 { QGroup.init with members := ⟨[(3, m)]⟩, farOk := 8 }
       m.healthy = false ∧ s.memberOk m = true ∧ 5 + s.get R.QP_GRP_CFG_restore_ms * 1000000 ≤ s.tt)
    ∧ (let m := { QMember.init 4 2 with healthy := true }
       let g : QGroup := { QGroup.init with members := ⟨[(3, m)]⟩, farOk := 8 }
       g.change = none ∧ g.desired ≠ g.txMap)
    ∧ (let g := { QGroup.init with rxPend := some (7, 9), rxNext := 9 }
       g.rxPend = some (7, 9) ∧ g.rxNext = 9 ∧ ({ g with rxNext := 8 } : QGroup).rxNext ≠ 9)
    ∧ (let c : QChange := { d := 1, eff := 2, rs := false, age := 9000 }
       let s := withGroup { QGroup.init with change := some c }
       (s.qg 2).change = some c ∧ 2 * s.get R.QP_GRP_CFG_lead ≤ c.age ∧ ({ c with age := 0 } : QChange).age < 2 * s.get R.QP_GRP_CFG_lead) := by
  decide +kernel

theorem witness_MembersMapsAndGroupFrames_frames :
    (let share : List Byte := leBytes 123 7
     let g := { QGroup.init with rxMap := 4, e := 7, arr := ⟨[(0, (0, ⟨[(2, (5, share))]⟩))]⟩ }
     let f := (bitIndices 24 g.rxMap).flatMap (fun k => ((g.shares g.rxNext).get k (0, List.replicate 123 0#8)).2)
     bitIndices 24 g.rxMap = [2] ∧ ((g.shares g.rxNext).get? 2).isSome = true ∧ f.length = 123 ∧ leVal (f.take 4) = g.e ∧ g.rxPend = none
       ∧ (leVal (f.take 4) + 2 ^ 32 - 6) % 2 ^ 32 = 1)
    ∧ (streamLen 256 [] ((leBytes 123 7).drop 4) = 0 ∧ 0 < streamLen 256 [] ((leBytes 123 (7 + 5 * 2 ^ 32)).drop 4))
    ∧ (let g := { QGroup.init with rxMap := 12, arr := ⟨[(0, (0, ⟨[(2, (5, leBytes 123 7))]⟩))]⟩ }
       earliest (g.shares g.rxNext) (fun k => bit g.rxMap k) = some 5 ∧ (g.shares g.rxNext).get? 3 = none
         ∧ 5 + up.get R.QP_GRP_CFG_dd_max * 1000 ≤ up.tt) := by decide +kernel

/-- Chip 0 of a machine of eight: dimensions 0 to 2 up, and group 2 as `g`. -/
def netWith (g : QGroup) : State :=
  let s := up.puts [(R.QM_CTL_en, [], 1), (R.QM_ID_dim, [], 3), (R.QM_PRESENT_present, [0], 0xFF)]
  ((s.setQg 0 { QGroup.init with up := true }).setQg 1 { QGroup.init with up := true }).setQg 2 { g with up := true }

/-- The same with `m` the oldest message received over dimension 2. -/
def got (m : List Byte) : State := netWith { QGroup.init with inbox := [m] }

/-- A remote access of core 0's engine 0, or of master `mst`. -/
def req (kind mst chip : Nat) : RemoteReq :=
  { kind := kind, chip := chip, addr := hoardBase, len := 4, bytes := [1, 2, 3, 4], mst := mst, eng := 0, id := 6, core := 1, ctr := 200, n := 1,
    tt := 99999999000 }

theorem witness_StreamsAndRemoteAccesses_streams :
    (let g := { QGroup.init with ackIn := some (1, 8, 4), acked := 5, sent := 10, buf := List.replicate 10 0#8 }
     let n := (8 + 2 ^ 32 - g.acked % 2 ^ 32) % 2 ^ 32
     g.ackIn = some (1, 8, 4) ∧ 0 < n ∧ n ≤ g.sent ∧ g.msgs = [] ∧ ({ g with sent := 2 } : QGroup).sent < n ∧ QGroup.init.ackIn = none)
    ∧ (let g := { QGroup.init with ackIn := some (2, 8, 4), acked := 5, sent := 10 }
       let n := (8 + 2 ^ 32 - g.acked % 2 ^ 32) % 2 ^ 32
       g.ackIn = some (2, 8, 4) ∧ n < g.sent ∧ ({ g with sent := 3 } : QGroup).sent ≤ n)
    ∧ (let s := netWith { QGroup.init with sent := 3, advTt := 5 }
       (s.qg 2).sent ≠ 0 ∧ (s.qg 2).advTt + s.get R.QM_TIMERS_rto_us * 1000 ≤ s.tt ∧ ¬ (s.qg 2).advTt + s.get R.QM_TIMERS_rto_us * 1000 ≤ (onTt 6 s).tt)
    ∧ (let s : State := { netWith QGroup.init with remote := [req 0 0x2C 5] }
       let o : QOut := { req := { req 0 0x2C 5 with addr := hoardBase + 2 }, tt := 5 }
       let t : State := { s with quill := { s.quill with tids := ⟨[(9, o)]⟩ } }
       s.remote = [req 0 0x2C 5] ∧ s.noHop (req 0 0x2C 5) = false ∧ s.route 5 0 none = some (0, 0) ∧ s.quill.tids.get? s.quill.tidNext = none
         ∧ s.quill.freed.get? s.quill.tidNext = none ∧ s.quill.tids.vals = [] ∧ o.req.mst = (req 0 0x2C 5).mst
         ∧ o.req.sameBlock (req 0 0x2C 5) = true ∧ (req 2 0x2C 5).kind = 2 ∧ t.quill.tids.get? 9 = some o ∧ t.quill.tids.get? 8 = none
         ∧ 5 + t.get R.QM_TIMERS_e2e_ms * 1000000 ≤ t.tt ∧ (onTt 6 t).tt < 5 + t.get R.QM_TIMERS_e2e_ms * 1000000
         ∧ (req 0 0x2C 5).mst < 0x30 ∧ 0x20 ≤ (req 0 0x2C 5).mst ∧ s.tt < (req 0 0x2C 5).tt + s.get R.QM_TIMERS_e2e_ms * 1000000
         ∧ (req 0 0x2C 5).tt + s.get R.QM_TIMERS_e2e_ms * 1000000 ≤ 10 * s.tt)
    ∧ (let s : State := { up with remote := [req 2 0 5] }
       s.noHop (req 2 0 5) = true ∧ s.noHop (req 0 0 5) = true ∧ (req 0 0 5).mst < 0x20 ∧ (req 0 0 5).eng ≠ 1 ∧ (req 0 0 5).eng ≠ 2) := by
  decide +kernel

/-- No tid is free when each is held. -/
theorem no_tid (s : State) (h : ∀ t < 65536, (s.quill.tids.get? t).isSome = true) : ∀ n t, t < 65536 → s.freeTid n t = none := by
  intro n
  induction n with
  | zero => intro t _; rfl
  | succ n ih =>
    intro t ht
    have := h t ht
    simp only [State.freeTid]
    cases hg : s.quill.tids.get? t with
    | none => simp [hg] at this
    | some v => simpa using ih _ (Nat.mod_lt _ (by omega))

theorem listed {α : Type} (l : List (Nat × α)) (k : Nat) (v : α) (h : (k, v) ∈ l) : (lookupCells l k).isSome = true := by
  induction l with
  | nil => simp at h
  | cons c l ih =>
    obtain ⟨a, b⟩ := c
    simp only [lookupCells]
    split
    · rfl
    · next hne =>
      refine ih ?_
      rcases List.mem_cons.mp h with h | h
      · exact absurd (congrArg Prod.fst h).symm hne
      · exact h

/-- A table that holds every tid below `n`, and a machine whose every tid is held. -/
def tidsTo (n : Nat) : Tbl QOut := ⟨(List.range n).map (fun t => (t, ({ req := req 0 0x2C 5, tt := 5 } : QOut)))⟩
def noTids (x : Tbl QOut) (s : State) : State := { s with quill := { s.quill with tids := x, tidNext := 0 } }

theorem tidsTo_holds (n t : Nat) (h : t < n) : ((tidsTo n).get? t).isSome = true :=
  listed _ t { req := req 0 0x2C 5, tt := 5 } (List.mem_map.mpr ⟨t, List.mem_range.mpr h, rfl⟩)

theorem witness_StreamsAndRemoteAccesses_noTid (s : State) (x : Tbl QOut) (h : x = tidsTo 65536) :
    (noTids x s).freeTid 65536 (noTids x s).quill.tidNext = none := by
  refine no_tid (noTids x s) (fun t ht => ?_) _ _ (by show 0 < 65536; decide)
  show (x.get? t).isSome = true
  rw [h]
  exact tidsTo_holds _ _ ht

theorem witness_StreamsAndRemoteAccesses_through :
    (let m := qMsg mkWrite 1 4 9 hoardBase 0 [1, 2]
     let s := got m
     (s.qg 2).inbox = [m] ∧ s.flag R.QM_CTL_en = true ∧ qDst m ≠ s.chipNo ∧ qKind m = 1 ∧ s.route (qDst m) (bits (qHdr m) 5 4) (some 2) = some (0, 0)
       ∧ bits (qHdr m) 11 8 + 1 ≤ s.qd + 4 ∧ qKind m ≠ 3 ∧ qKind m < 13)
    ∧ (let m := qMsg mkWrite 1 4 9 hoardBase 0 [1, 2]
       let s := (got m).setQg 0 QGroup.init
       let t := s.setQg 1 QGroup.init
       t.route (qDst m) (bits (qHdr m) 5 4) (some 2) = none ∧ qSrc m ≠ t.chipNo ∧ t.route (qSrc m) 0 none = some (2, 0))
    ∧ 13 ≤ qKind (qMsg 13 0 4 9 0 0 []) ∧ (netWith QGroup.init).flag R.QM_CTL_en = true ∧ ((netWith QGroup.init).qg 2).inbox = [] := by
  decide +kernel

theorem witness_StreamsAndRemoteAccesses_inbound :
    (let m := qMsg mkWrite 0 4 9 hoardBase 0 [1, 2]
     let s := got m
     qDst m = s.chipNo ∧ qKind m = 1 ∧ s.route (qSrc m) 0 none = some (2, 0) ∧ s.inboundOk (qAddr m) (qPayload m).length = true
       ∧ s.audGuard (qAddr m) (qPayload m).length = none ∧ s.fab.mrst.get? 0x2B = none ∧ s.badMerge (qAddr m) (qPayload m).length = false
       ∧ s.mem.wf = true ∧ s.inboundOk 0 2 = false ∧ ({ s with badWords := [hoardBase / 8] } : State).badMerge (qAddr m) 2 = true)
    ∧ (let m := qMsg mkReadReq 0 4 9 hoardBase 3 []
       let s := got m
       qDst m = s.chipNo ∧ qKind m = 3 ∧ s.inboundOk (qAddr m) (qArg m % 4096 + 1) = true ∧ s.audGuard (qAddr m) 4 = none
         ∧ s.badIn (qAddr m) 4 = false ∧ ({ s with badWords := [hoardBase / 8] } : State).badIn (qAddr m) 4 = true)
    ∧ (let m := qMsg mkActPost 0 4 9 0 0 (leBytes 32 (timePost 50))
       let s := got m
       let u := (s.setQg 2 { s.qg 2 with inbox := [] }).submitPost 3 (qSrc m) (leVal (qPayload m))
       qDst m = s.chipNo ∧ qKind m = 6 ∧ u.2.2.route (qSrc m) 0 none = some (2, 0) ∧ s.flag R.AU_CTL_en = false)
    ∧ (let m := qMsg mkSignal 0 4 0 (200 * 2 ^ 8) 1 []
       let s := (got m).puts [(R.CR_CORE_CTL_en, [0], 1)]
       let t := s.setCore 0 { s.core 0 with statics := (s.core 0).statics.set 200 0 }
       let sig : Signal := { core := 0, ctr := 200, n := 1, job := none, fromCore := 0xFF, fromEng := 0, after := 0, chip := none }
       qDst m = s.chipNo ∧ qKind m = 5 ∧ bits (qHdr m) 68 64 = 0 ∧ bits (qHdr m) 79 72 = 200 ∧ t.coreRuns 0 = true ∧ t.signalHome sig = none
         ∧ (got m).coreRuns 0 = false ∧ (got m).wroteNow sig = false
         ∧ ((got m).setCore 0 { (got m).core 0 with wrote := ⟨[(200, (got m).tt)]⟩ }).wroteNow sig = true)
    ∧ (let m := qMsg mkUndeliverable 0 4 9 0 5 []
       qDst m = (got m).chipNo ∧ qKind m = 9 ∧ qArg m % 16 = 5 ∧ (got m).route (qSrc m) 0 none = some (2, 0)) := by
  decide +kernel

theorem witness_StreamsAndRemoteAccesses_responses :
    (∀ x ∈ ([(2, 0, 0x2C, mkWriteAck), (4, 1, 0x2C, mkReadResp), (7, 3, 0x2C, mkActStatus)] : List (Nat × Nat × Nat × Nat)),
      let m := qMsg x.2.2.2 0 4 9 0 0 []
      let s := got m
      let o : QOut := { req := { req x.2.1 x.2.2.1 4 with id := 5 }, tt := 99999999000 }
      let t : State := { s with quill := { s.quill with tids := ⟨[(9, o)]⟩ }, fab := { s.fab with txns := [{ txn0 hoardBase false with chip := some 4, n := 5 }] } }
      qKind m = x.1 ∧ qDst m = s.chipNo ∧ qArg m % 4 = 0 ∧ s.quill.tids.get? (qTid m) = none ∧ t.quill.tids.get? (qTid m) = some o
        ∧ o.req.chip = qSrc m ∧ s.tt < o.tt + s.get R.QM_TIMERS_e2e_ms * 1000000 ∧ 0x20 ≤ o.req.mst ∧ s.route (qSrc m) 0 none = some (2, 0))
    ∧ (let m := qMsg mkUndeliverable 0 4 9 0 1 []
       let o : QOut := { req := req 0 0 4, tt := 99999999000 }
       qKind m = 9 ∧ qArg m % 16 ≠ 5 ∧ (qArg m % 16 = 3 ↔ o.req.kind = 1) ∧ (qArg m % 16 = 6 ↔ o.req.kind = 3)
         ∧ (qArg m % 16 = 1 ↔ (o.req.kind ≠ 1 ∧ o.req.kind ≠ 3)))
    ∧ (let m := qMsg mkReadResp 0 4 9 0 0 [1, 2, 3, 4]
       let o : QOut := { req := req 1 0 4, tt := 99999999000 }
       let e : Engine := { Engine.init with asked := [(4, hoardBase, 4)] }
       qKind m = 4 ∧ o.req.mst < 0x20 ∧ o.req.kind = 1 ∧ (o.req.chip, o.req.addr, o.req.len) ∈ e.asked) := by decide +kernel

/-- A DETOUR message to this chip: operation, failed dimension, j, initiator. -/
def detMsg (op fi j c : Nat) : List Byte := qMsg mkDetour 0 4 0 0 (op + fi * 2 ^ 2 + j * 2 ^ 6 + c * 2 ^ 10) []

/-- `got m` with `l` as its detours. -/
def gotDet (m : List Byte) (l : List QDetour) : State :=
  let s := got m
  { s with quill := { s.quill with detours := l } }

def det (i j chip place stage : Nat) : QDetour := { i := i, j := j, chip := chip, place := place, stage := stage }

theorem witness_DetoursAndDistributions_detours :
    (let m := detMsg 0 1 0 3
     let s := got m
     (s.qg 2).inbox = [m] ∧ s.flag R.QM_CTL_en = true ∧ qDst m = s.chipNo ∧ qKind m = 10 ∧ qArg m % 4 = 0 ∧ bits (qArg m) 5 2 = 1
       ∧ bits (qArg m) 9 6 = 0 ∧ bits (qArg m) 21 10 = 3 ∧ s.detFree (det 1 0 3 2 0) = true ∧ 0 ^^^ 3 = 2 ^ 1 ^^^ 2 ^ 0
       ∧ (s.puts [(R.QM_DIM_STATUS_lending, [0], 1)]).detFree (det 1 0 3 2 0) = false ∧ s.detFree (det 1 0 2 3 0) = true
       ∧ 0 ≠ 2 ∧ 0 ^^^ 2 ≠ 2 ^ 0 ∧ 0 ^^^ 2 ≠ 2 ^ 1 ^^^ 2 ^ 0)
    ∧ (let m := detMsg 1 1 0 0
       let s := gotDet m [det 1 0 0 0 0]
       qArg m % 4 = 1 ∧ s.detFind 1 0 = some (det 1 0 0 0 0) ∧ (got m).detFind 1 0 = none ∧ (det 1 0 0 0 0).stage = 0)
    ∧ (let m := detMsg 2 1 0 0
       let s := gotDet m [det 1 0 0 0 0]
       qArg m % 4 = 2 ∧ s.detFind 1 0 = some (det 1 0 0 0 0) ∧ 2 < s.qd ∧ 0 < 2 ∧ 2 ≠ 1 ∧ s.detFree (det 1 2 0 0 0) = true
         ∧ (List.range 2).all (fun k => k == 0 || k == 1) = true
         ∧ (let t := s.puts [(R.QM_DIM_STATUS_lending, [2], 1)]
            (List.range t.qd).all (fun k => k == 0 || k == 1 || !t.detFree (det 1 k 0 0 0)) = true))
    ∧ (let m := detMsg 2 1 0 3
       let s := gotDet m [det 1 0 3 2 0]
       s.detFind 1 3 = some (det 1 0 3 2 0) ∧ (det 1 0 3 2 0).place ≠ 0)
    ∧ (let m := detMsg 3 1 0 3
       let s := gotDet m [det 1 0 3 2 1]
       qArg m % 4 = 3 ∧ s.detFind 1 3 = some (det 1 0 3 2 1) ∧ (det 1 0 3 2 1).stage < 2 ∧ (got m).detFind 1 3 = none
         ∧ (det 1 0 0 0 1).place = 0)
    ∧ (let g := { QGroup.init with downTt := some 5, directTt := some 5 }
       let s := netWith g
       let d := det 2 0 0 0 2
       let t : State := { s with quill := { s.quill with detours := [d] } }
       5 + s.get R.QM_TIMERS_plan_hold_ms * 1000000 ≤ s.tt ∧ 2 < s.qd ∧ bit s.chipNo 2 = false ∧ s.present? (s.chipNo ^^^ 2 ^ 2) = true
         ∧ s.detFind 2 0 = none ∧ s.detFree (det 2 0 0 0 0) = true ∧ t.detFind 2 0 = some d ∧ (det 2 0 0 0 1).stage ≠ 2
         ∧ (det 2 0 0 0 1).lends.all (fun k => s.usable k) = true ∧ ¬ 5 + s.get R.QM_TIMERS_plan_hold_ms * 1000000 ≤ (onTt 6 s).tt
         ∧ (let u := (s.puts [(R.QM_DIM_STATUS_lending, [0], 1), (R.QM_DIM_STATUS_lending, [1], 1)])
            (List.range u.qd).all (fun k => k == 2 || !u.detFree (det 2 k 0 0 0)) = true)) := by decide +kernel

/-- A distribution of 8 KiB at its root, with one chip's report. -/
def dist0 : QDist := { id := 7, src := hoardBase, dst := hoardBase + 2 ^ 20, len := 8192, rack := false, next := 2, reports := [3], tt := 99999000000 }

theorem witness_DetoursAndDistributions_distributions :
    (let m := qMsg mkTime 0 4 0 0 0 []
     let s := got m
     qKind m = 11 ∧ s.tb.lead = none ∧ ({ s.tb with lead := some 9 } : TbState).lead = some 9 ∧ qSrc m < 9 ∧ 2 < qSrc m)
    ∧ (let m := qMsg mkDistDone 0 4 0 0 0 []
       let s := got m
       let t : State := { s with quill := { s.quill with running := some dist0 } }
       qKind m = 12 ∧ s.quill.running = none ∧ t.quill.running = some dist0 ∧ qSrc m ∉ dist0.reports
         ∧ (t.scopeChips t.chipNo false).any (fun x => !(dist0.reports ++ [qSrc m]).contains x) = true
         ∧ (t.scopeChips t.chipNo false).all (fun x => ([1, 2, 3, 5, 6, 7] ++ [qSrc m]).contains x) = true ∧ t.quill.waiting = none)
    ∧ (let m := qMsg mkBcast 4 4 (7 * 2 ^ 8) (hoardBase + 2 ^ 20) 0 [1, 2]
       let s := got m
       let y : QRecv := { root := 5, id := 1, dst := hoardBase + 2 ^ 20, len := 8192, held := [0], refused := false }
       (s.qg 2).inbox = [m] ∧ qKind m = 8 ∧ s.chipNo ^^^ qDst m ≠ 0 ∧ s.quill.recv = [] ∧ s.inboundOk (qAddr m - 4096 * (qArg m % 2 ^ 16)) 8192 = true
         ∧ s.inboundOk (qAddr m) (qPayload m).length = true ∧ s.audGuard (qAddr m) (qPayload m).length = none ∧ s.inboundOk (qAddr m) 0 = false
         ∧ y.refused = false ∧ (y.len + 4095) / 4096 ≠ y.held.length ∧ overlaps y.dst y.len (qAddr m) 8192 = true
         ∧ topBit (s.scopeDims false) (s.chipNo ^^^ qDst m) = 2 ∧ topBit (s.scopeDims false) (s.chipNo ^^^ 2) = 1
         ∧ topBit (s.scopeDims false) (s.chipNo ^^^ 1) = 0 ∧ s.present? (s.chipNo ^^^ 1) = true ∧ s.route (s.chipNo ^^^ 1) 0 none = some (0, 0))
    ∧ (let s := netWith QGroup.init
       let t : State := { s with quill := { s.quill with running := some dist0 } }
       s.islandHeld 52 = false ∧ s.cfg.quillPorts ≠ 0 ∧ s.inboundOk hoardBase 8192 = true ∧ s.flag R.QM_CTL_en = true ∧ s.quill.running = none ∧ (List.range s.qd).all (fun k => (s.qg k).msgs.isEmpty) = true
         ∧ t.quill.running.isSome = true ∧ t.quill.waiting = none ∧ t.tt < dist0.tt + t.get R.QM_DIST_TIME_dist_s * 1000000000
         ∧ dist0.tt + t.get R.QM_DIST_TIME_dist_s * 1000000000 ≤ 10000 * t.tt) := by decide +kernel

theorem witness_DetoursAndDistributions_writes :
    (let v := 2 + 5 * 2 ^ 4 + 2 ^ 9 + 2 ^ 31
     let s := netWith QGroup.init
     s.islandHeld 52 = false ∧ ({ s with heldIsl := [52] } : State).islandHeld 52 = true ∧ bits v 3 0 = 2 ∧ bits v 8 4 = 5 ∧ bit v 9 = true ∧ bit v 31 = true ∧ 2 < s.qd ∧ (s.qg 2).reqWait = none ∧ (s.qg 2).req = none ∧ (s.qg 2).change = none)
    ∧ ((up.cfg.quillPorts ≠ 0 ∧ up.flag R.QM_CTL_en = false ∧ takes up .fw R.QM_ID [] 0x2005 = true ∧ ¬ up.cfg.quillPorts < bits 0x2005 15 12)
       ∧ takes (netWith QGroup.init) .fw R.QM_PRESENT [3] 7 = true ∧ up.cfg.quillPorts < bits 0xD005 15 12) := by decide +kernel

/-- A package header: mode 1, one party, CMAC, key slot 0, a body of 16 bytes, a region of 4 KiB, a result of 16 bytes. -/
def auditHdr : List Byte :=
  leBytes 64 (0x7A5E11D0 + 2 ^ 32 + 2 ^ 40 + 2 ^ 48 + 16 * 2 ^ 96 + 77 * 2 ^ 128 + 4096 * 2 ^ 352 + 16 * 2 ^ 480)

/-- The cipher unit ready and key slot 0 filled for audits; context 1 points at that package, whose tag is missing. -/
def auditing (state : Nat) : State :=
  let x : AudCtx := { AudCtx.empty with hdr := auditHdr, pkg := hoardBase + 2 ^ 20, region := hoardBase + 2 ^ 21, out := hoardBase + 2 ^ 22 }
  let s : State := { up with cu := { up.cu with test := 1, keys := ⟨[(0, List.replicate 16 7)]⟩, audit := [1], turn := some 1 },
                             aud := { up.aud with ctx := if state = 0 then Tbl.empty else ⟨[(1, x)]⟩, restored := true } }
  let s := s.puts [(R.CU_KEY_INFO_valid, [0], 1), (R.CU_KEY_INFO_use, [0], 2), (R.RG_AUD_STATUS_state, [1], state)]
  let s := ((s.setRegWord R.RG_AUD_PKG_LO [1] (2 ^ 20)).setRegWord R.RG_AUD_PKG_HI [1] 2).setRegWord R.RG_AUD_REGION_LO [1] (2 ^ 21)
  let s := ((s.setRegWord R.RG_AUD_REGION_HI [1] 2).setRegWord R.RG_AUD_OUT_LO [1] (2 ^ 22)).setRegWord R.RG_AUD_OUT_HI [1] 2
  s.writeMem (hoardBase + 2 ^ 20) auditHdr

theorem witness_AuditContextsOpenSealAndClose_open :
    (let s := auditing 0
     let y := s.audOpenCtx .fw 1
     s.islandHeld 52 = false ∧ s.audState 1 = 0 ∧ y.hdr = s.readMem (s.ctxAddr R.RG_AUD_PKG_LO R.RG_AUD_PKG_HI 1) 64 ∧ s.audOpenCheck 1 y = none
       ∧ up.audOpenCheck 1 (up.audOpenCtx .fw 1) ≠ none ∧ (auditing 2).audState 1 ≠ 0)
    ∧ (let s := auditing 1
       let x := s.audCtx 1
       s.audState 1 = 1 ∧ s.cu.turn = some 1 ∧ s.cu.audit.head? = some 1 ∧ s.cu.test = 1 ∧ x.gcm = false ∧ s.keyFor x.keySlot 1 = true
         ∧ s.badIn x.pkg (80 + x.bodyLen) = false ∧ s.badMerge x.region x.bodyLen = false ∧ x.bodyLen = 16 ∧ x.pkg = hoardBase + 2 ^ 20
         ∧ (s.puts [(R.CU_KEY_INFO_use, [0], 1)]).keyFor x.keySlot 1 = false
         ∧ ({ s with badWords := [(hoardBase + 2 ^ 20) / 8] } : State).badIn x.pkg 96 = true) := by decide +kernel

/-- Sixteen bytes written after everything that is read give the tag that they are, and leave what lies before them. -/
theorem tag_placed (s : State) (a : Nat) (c : List Byte) (ha : 0x80000 ≤ a) (hr : s.region a ≠ .bootRom) (hm : s.mem.wf = true)
    (hc : c.length = 16) :
    (s.writeMem a c).readMem a 16 = c ∧ ∀ x n, 0x80000 ≤ x → x + n ≤ a → (s.writeMem a c).readMem x n = s.readMem x n := by
  have hk : ∀ x, 0x80000 ≤ x → s.memKey x = x := fun x hx => if_neg (fun h => absurd h.1 (by omega))
  have ht : (s.writeMem a c).mem = s.mem.writeList a c := by simp [State.writeMem, hr, hk a ha]
  have hq : ∀ x, (s.writeMem a c).memKey x = s.memKey x := fun x => by
    simp [State.memKey, State.flag, State.get, State.regWord]
  constructor
  · rw [State.readMem, hq, hk a ha, ht, ← hc, readList_written _ _ _ hm]
  · intro x n hx hn
    rw [State.readMem, State.readMem, hq, hk x hx, ht, readList_below _ _ _ _ _ hn]

theorem other_tag (c : List Byte) : ∃ d : List Byte, d.length = 16 ∧ d ≠ c := by
  by_cases h : c = List.replicate 16 0#8
  · exact ⟨List.replicate 16 1#8, by decide, by rw [h]; decide⟩
  · exact ⟨List.replicate 16 0#8, by decide, fun e => h e.symm⟩

theorem audit_facts :
    (auditing 1).region (hoardBase + 2 ^ 20 + 80) ≠ .bootRom ∧ (auditing 1).mem.wf = true := by decide +kernel

/-- Of the package above, some tag agrees with its CMAC and some does not. -/
theorem witness_AuditContextsOpenSealAndClose_tag :
    let s := fun c => (auditing 1).writeMem (hoardBase + 2 ^ 20 + 80) c
    let body := fun c => (s c).readMem (hoardBase + 2 ^ 20 + 64) 16
    let tag := fun c => (s c).readMem (hoardBase + 2 ^ 20 + 80) 16
    (∃ c, cmac ((s c).slotKey 0) (auditHdr ++ body c) = tag c) ∧ ∃ c, cmac ((s c).slotKey 0) (auditHdr ++ body c) ≠ tag c := by
  intro s body tag
  have key : ∀ c, (s c).slotKey 0 = (auditing 1).slotKey 0 := fun c => by
    simp only [s, State.slotKey, State.writeMem_cu]
  have h : ∀ c : List Byte, c.length = 16 → tag c = c ∧ body c = (auditing 1).readMem (hoardBase + 2 ^ 20 + 64) 16 := fun c hc => by
    obtain ⟨h1, h2⟩ := tag_placed (auditing 1) (hoardBase + 2 ^ 20 + 80) c (by decide) audit_facts.1 audit_facts.2 hc
    exact ⟨h1, h2 _ _ (by decide) (by decide)⟩
  let c := cmac ((auditing 1).slotKey 0) (auditHdr ++ (auditing 1).readMem (hoardBase + 2 ^ 20 + 64) 16)
  obtain ⟨d, hd, hne⟩ := other_tag c
  refine ⟨⟨c, ?_⟩, d, ?_⟩
  · rw [key, (h c (cmac_length _ _)).1, (h c (cmac_length _ _)).2]
  · rw [key, (h d hd).1, (h d hd).2]
    exact fun e => hne e.symm

theorem witness_AuditContextsOpenSealAndClose_seal_close :
    (let s := auditing 2
     let x := s.audCtx 1
     let out := s.ctxAddr R.RG_AUD_OUT_LO R.RG_AUD_OUT_HI 1
     s.audState 1 = 2 ∧ s.keyFor x.keySlot 1 = true ∧ s.inHoardOrBurrow out (80 + hdrField x.hdr 60 4) = true ∧ s.aud.restored = true
       ∧ up.inHoardOrBurrow 0 80 = false ∧ up.aud.restored = false)
    ∧ (let s := auditing 3
       let x := s.audCtx 1
       s.audState 1 = 3 ∧ s.cu.turn = some 1 ∧ s.cu.audit.head? = some 1 ∧ s.keyFor x.keySlot 1 = true
         ∧ s.badIn (x.region + hdrField x.hdr 56 4) (hdrField x.hdr 60 4) = false ∧ s.badMerge x.out (80 + hdrField x.hdr 60 4) = false)
    ∧ (auditing 5).audState 1 = 5 ∧ (auditing 4).audState 1 = 4 := by decide +kernel

/-- The cipher unit ready, key slot 0 filled for general use, CU_OP_DST and CU_OP_TAG in the Hoard, and `o` on the firmware port. -/
def cipherOn (o : Option CuOp) : State :=
  let s : State := { up with cu := { up.cu with test := 1, keys := ⟨[(0, List.replicate 16 7)]⟩, fw := o, turn := if o.isSome then some 0 else none } }
  let s := s.puts [(R.CU_KEY_INFO_valid, [0], 1), (R.CU_KEY_INFO_use, [0], 4), (R.CU_OP_LEN_len, [], 16)]
  let s := ((s.setRegWord R.CU_OP_DST_LO [] (2 ^ 20)).setRegWord R.CU_OP_DST_HI [] 2).setRegWord R.CU_OP_TAG_HI [] 2
  ((s.setRegWord R.CU_OP_SRC_HI [] 2).setRegWord R.CU_OP_AAD_HI [] 2).setRegWord R.CU_OP_TAG_LO [] (2 ^ 21)

/-- An operation of no bytes. -/
def cuOp0 (op : Nat) : CuOp :=
  { op := op, slot := 0, fwkey := false, gen := 0, src := hoardBase, dst := hoardBase + 2 ^ 20, aad := hoardBase, tag := hoardBase + 2 ^ 21,
    len := 0, aadLen := 0, acc := 0, ctr := 0, ek := 0, aadDone := 0, done := 0, part := [], suspended := false, restored := false, bad := false }

theorem witness_CipherOperationsAndKeys_start :
    (up.cu.test = 0 ∧ ({ up.cu with test := 2 } : CuState).test = 2)
    ∧ (∀ n ∈ ([1, 2, 3, 4] : List Nat),
      let s := cipherOn none
      let v := n + 0 % 16 * 2 ^ 3 + b2n false * 2 ^ 7 + b2n false * 2 ^ 8 + 0 % 2 ^ 22 * 2 ^ 9 + 2 ^ 31
      s.cu.test = 1 ∧ s.cu.fw = none ∧ s.cuCheck v (s.cuOpOf v) = none)
    ∧ (let s := cipherOn none
       let v := 3 + 1 * 2 ^ 3 + 2 ^ 31
       s.cuCheck v (s.cuOpOf v) = some cuKey)
    ∧ (cipherOn (some (cuOp0 3))).cu.fw = some (cuOp0 3) := by decide +kernel

theorem witness_CipherOperationsAndKeys_contexts :
    (let o := { cuOp0 3 with suspended := true, len := 32, done := 16, acc := 9 }
     let s := cipherOn (some o)
     let dst := s.cuAddr R.CU_OP_DST_LO R.CU_OP_DST_HI
     s.cu.fw = some o ∧ s.cu.test = 1 ∧ s.cuRangeOk true dst 96 = true ∧ s.badMerge dst 96 = false ∧ s.cu.devBad = false
       ∧ up.cuRangeOk true (up.cuAddr R.CU_OP_DST_LO R.CU_OP_DST_HI + 2 ^ 39) 96 = false ∧ s.cuRangeOk true dst 128 = true
       ∧ s.cuRangeOk true o.src o.len = true ∧ s.cuRangeOk true o.tag 16 = true ∧ up.cuRangeOk true (2 ^ 39) 16 = false)
    ∧ (let s := cipherOn none
       let from_ := s.cuAddr R.CU_OP_SRC_LO R.CU_OP_SRC_HI
       let t := s.writeMem from_ (cuOp0 3).context
       s.cuRangeOk true from_ 96 = true ∧ s.badIn from_ 96 = false ∧ s.readContext true from_ = none
         ∧ s.readContext false from_ = some (s.readMem from_ 96) ∧ s.contextOk (s.readMem from_ 96) = false
         ∧ t.contextOk (t.readMem from_ 96) = true) := by decide +kernel

theorem witness_CipherOperationsAndKeys_end :
    (∀ n ∈ ([1, 2, 3, 4] : List Nat),
      let s := cipherOn (some (cuOp0 n))
      let o := cuOp0 n
      s.cu.turn = some 0 ∧ s.cu.fw = some o ∧ 1 ≤ o.op ∧ o.op ≤ 4 ∧ (s.cuAdvance o o.blocks).2 = o ∧ (s.cuAdvance o o.blocks).1.badWords = []
        ∧ o.acc = 0 ∧ o.done = 0 ∧ o.part = [] ∧ o.len ≤ 16 ∧ o.bad = false ∧ s.badWords = [])
    ∧ (let o := { cuOp0 3 with bad := true }
       let s := cipherOn (some o)
       (s.cuAdvance o o.blocks).2.bad = true)
    ∧ (let s := cipherOn (some (cuOp0 3))
       let t : State := { s with cu := { s.cu with audit := [1] } }
       let w : State := { t with cu := { t.cu with turn := some 1 } }
       s.cu.audit = [] ∧ t.cu.turn = some 0 ∧ t.cu.audit ≠ [] ∧ w.cu.turn = some 1 ∧ w.cuFwWaits = true ∧ (cuOp0 3).suspended = false) := by
  decide +kernel

theorem cipher_facts :
    (cipherOn (some (cuOp0 4))).region (hoardBase + 2 ^ 21) ≠ .bootRom ∧ (cipherOn (some (cuOp0 4))).mem.wf = true := by decide +kernel

/-- A tag in memory may agree with that of the operation or not. -/
theorem witness_CipherOperationsAndKeys_verify :
    let s := fun c => (cipherOn (some (cuOp0 4))).writeMem (hoardBase + 2 ^ 21) c
    (∃ c, (s c).readMem (cuOp0 4).tag 16 = (s c).cuTag (cuOp0 4)) ∧ ∃ c, (s c).readMem (cuOp0 4).tag 16 ≠ (s c).cuTag (cuOp0 4) := by
  intro s
  have tag : ∀ c, (s c).cuTag (cuOp0 4) = (cipherOn (some (cuOp0 4))).cuTag (cuOp0 4) := fun c => by
    simp [s, State.cuTag, cuOp0, State.cuInput, State.readMem, Memory.readList, State.opKey, State.slotKey]
  have h : ∀ c : List Byte, c.length = 16 → (s c).readMem (cuOp0 4).tag 16 = c := fun c hc =>
    (tag_placed (cipherOn (some (cuOp0 4))) (hoardBase + 2 ^ 21) c (by decide) cipher_facts.1 cipher_facts.2 hc).1
  have hn : ((cipherOn (some (cuOp0 4))).cuTag (cuOp0 4)).length = 16 := by
    simp [State.cuTag, cuOp0, topBytes, beBytes, leBytes_length]
  obtain ⟨d, hd, hne⟩ := other_tag ((cipherOn (some (cuOp0 4))).cuTag (cuOp0 4))
  refine ⟨⟨_, by rw [h _ hn, tag]⟩, d, ?_⟩
  rw [h d hd, tag]
  exact hne

theorem witness_CipherOperationsAndKeys_keys :
    (let s := cipherOn none
     let v := 2 ^ 31 + 1 + 2 * 2 ^ 5
     bit v 31 = true ∧ v % 16 = 1 ∧ s.cu.test = 1 ∧ s.cu.fw = none ∧ s.cu.audit.head? = none ∧ up.cu.test ≠ 1)
    ∧ ((cipherOn (some (cuOp0 3))).cu.fw = some (cuOp0 3) ∧ (cuOp0 3).fwkey = false ∧ (cuOp0 3).slot = 0)
    ∧ (({ up with por := false } : State).cu.test = 0 ∧ ({ up with por := false } : State).por = false) := by decide +kernel

/-- READY with the ESC in `al`. -/
def bus (al : Nat) : State :=
  let s : State := { up with por := false }
  { s with ecat := { s.ecat with al := al } }

def withFoe (x : Option FoeXfer) (s : State) : State := { s with ecat := { s.ecat with foe := x } }
def withSeg (x : Option SegXfer) (s : State) : State := { s with ecat := { s.ecat with seg := x } }
/-- An SDO of four bytes in segments, and an FoE transfer with nothing received or left to send. -/
def sdoSeg (upload : Bool) : SegXfer :=
  { upload := upload, index := 0x2100, sub := 1, ca := false, toggle := false, size := 4, data := [0, 0], tt := 5 }
def foe0 (f : FoeFile) (rd : Bool) : FoeXfer := { file := f, read := rd, data := [], packet := 1, final := false }

theorem witness_MailboxRequestsAndFiles_requests :
    (bus 1).mailOn = false
    ∧ (let s : State := { bus 2 with ecat := { (bus 2).ecat with lastCnt := 3, stored := some (.foeAck 0, 1) } }
       s.mailOn = true ∧ 3 % 8 ≠ 0 ∧ 3 % 8 = s.ecat.lastCnt ∧ s.ecat.stored.isSome = true)
    ∧ (∀ cnt ∈ [0, 3], (bus 2).mailOn = true ∧ (bus 2).ecat.stored = none)
    ∧ ((bus 2).escOn = true ∧ (bus 1).ecat.al = 1 ∧ (bus 2).ecat.al ≠ 1) := by decide +kernel

theorem witness_MailboxRequestsAndFiles_uploads :
    (let s := inPhase 5 (bus 2)
     s.earlyShut 0x2100 = true ∧ s.earlyShut 0x2000 = false ∧ s.limited = true)
    ∧ (let s := bus 2
       let u := s.taken 0 none
       s.earlyShut 0x2100 = false ∧ dictTop s.cfg 0x4000 = none ∧ (dictTop s.cfg 0x2100).isSome = true ∧ dictEnt s.cfg 0x2100 0xFF = none
         ∧ (dictEnt s.cfg 0x2900 1).any (fun e => decide (e.acc = .wo)) = true
         ∧ (dictEnt s.cfg 0x2100 1).any (fun e => decide (e.acc ≠ .wo ∧ s.notHeld e = false ∧ (u.sdoRead 0x2100 1 e).length ≤ 240)) = true
         ∧ (u.sdoValue 0x2100 0 true).toOption.any (fun v => decide (v.length ≤ 240)) = true
         ∧ (u.sdoValue 0x2300 1 true).toOption.any (fun v => decide (240 < v.length)) = true) := by decide +kernel

/-- A refused value: TB_TICK_PHASE is at most 499,999. -/
def badPhase : List Byte := leBytes 4 500000

theorem witness_MailboxRequestsAndFiles_downloads :
    (let s := bus 2
     let u := s.taken 0 none
     s.limited = false ∧ ¬ (0x2100 = 0x2000) ∧ (u.sdoPieces 0x2100 20 false [0]).toOption = none ∧ (u.sdoPieces 0x2100 0 true [0]).toOption = none
       ∧ (match u.sdoPieces 0x2100 7 false badPhase with
          | .ok [x] => (match u.pieceFault 0x2100 x with | some f => f.2 == abRange && isJournalled 0x2100 x.2.1 | none => false)
          | _ => false) = true
       ∧ (match u.sdoPieces 0x2100 7 false (leBytes 4 499999) with
          | .ok [x] => (u.pieceFault 0x2100 x).isNone && (u.applyPieces 0x2100 [x]).2
          | _ => false) = true
       ∧ (match u.sdoPieces 0x3000 1 false [0, 0] with | .ok _ => 0 | .error c => c) = abReadOnly
       ∧ leVal (leBytes 2 0x0FF0) ||| 0x0FFE = 0x0FFE ∧ s.get R.HP_JRN_STATUS_copy = 0
       ∧ leVal (leBytes 4 0x53544F50) = 0x53544F50 ∧ leVal (leBytes 4 0x5741524D) = 0x5741524D)
    ∧ (let s := bus 2
       s.boot.stop = 0 ∧ 2 ≤ s.phase ∧ ¬ 12 < s.phase ∧ (inPhase 1 s).phase < 2) := by decide +kernel

theorem witness_MailboxRequestsAndFiles_segments :
    (let s := withSeg (some (sdoSeg true)) (bus 2)
     s.mailOn = true ∧ s.ecat.stored = none ∧ s.ecat.seg = some (sdoSeg true) ∧ (sdoSeg true).upload = true ∧ (sdoSeg true).data.length ≤ 247
       ∧ ({ sdoSeg true with data := List.replicate 248 0 } : SegXfer).data.length = 248
       ∧ (sdoSeg true).tt + 1000000000 ≤ s.tt ∧ (onTt 1000000004 s).tt < (sdoSeg true).tt + 1000000000 ∧ (bus 2).ecat.seg = none)
    ∧ (let x := sdoSeg false
       x.upload = false ∧ x.size < (x.data ++ [1, 2, 3]).length ∧ (x.data ++ [1]).length ≠ x.size ∧ (x.data ++ [1, 2]).length = x.size
         ∧ (x.data ++ [1]).length ≤ x.size) := by decide +kernel

theorem witness_MailboxRequestsAndFiles_information :
    (let s := bus 2
     dictTop s.cfg 0x4000 = none ∧ (dictTop s.cfg 0x2100).isSome = true ∧ dictSingle 0x2100 = none ∧ (dictSingle 0x1000).isSome = true
       ∧ (dictTop s.cfg 0x1000).isSome = true ∧ dictEnt s.cfg 0x2100 0xFF = none ∧ (dictEnt s.cfg 0x2100 1).isSome = true) := by decide +kernel

theorem witness_MailboxRequestsAndFiles_foe :
    (let s := bus 2
     s.ecat.foe = none ∧ (withFoe (some (foe0 .params true)) s).ecat.foe.isSome = true ∧ s.ecat.al ≠ 3 ∧ s.alUp = true ∧ (bus 3).alUp = false
       ∧ s.foeRefusal .params false = none ∧ (bus 3).foeRefusal .fw false = none ∧ s.foeRefusal .params true = none
       ∧ s.foeRefusal .journal true = none)
    ∧ (∀ rd ∈ [true, false], (withFoe (some (foe0 .params rd)) (bus 2)).ecat.foe = some (foe0 .params rd) ∧ (foe0 .params rd).read = rd)
    ∧ (({ foe0 .params true with final := true } : FoeXfer).final = true ∧ (foe0 .params true).final = false)
    ∧ (let s := bus 3
       ((foe0 .params false).data ++ [1]).length ≤ 131072 ∧ (bus 2).phase = 12 ∧ s.phase ≠ 15 ∧ s.imageCause [] = some 2
         ∧ ((foe0 .fw false).data ++ [1]).length ≤ 229376 ∧ s.boot.flash.ok = true) := by decide +kernel

/-- A file may pass the largest size. -/
theorem witness_MailboxRequestsAndFiles_foeLong : 229376 < ((foe0 .fw false).data ++ List.replicate 229377 0#8).length := by
  rw [show (foe0 .fw false).data = [] from rfl, List.nil_append, List.length_replicate]
  decide

/-- An image of a header alone, with its tag. -/
def imgHead : List Byte := leBytes 4 0x53574650 ++ List.replicate 60 0
def img0 : List Byte := imgHead ++ cmac fwKeyBytes imgHead

theorem img0_facts :
    imgHead.length = 64 ∧ leVal (imgHead.take 4) = 0x53574650 ∧ leVal ((imgHead.drop 14).take 50) = 0
      ∧ leVal ((imgHead.drop 8).take 4) = 0 ∧ leVal ((imgHead.drop 12).take 2) = 0 := by decide

theorem head_bytes (h c : List Byte) (hh : h.length = 64) (hc : c.length = 16) :
    flashBytes (h ++ c) 64 = h ∧ flashBytes (h ++ c) 80 = h ++ c := by
  constructor
  · simp [flashBytes, hh, hc]
  · have : (h ++ c).length = 80 := by simp [hh, hc]
    simp [flashBytes, hh, hc, List.take_of_length_le]

theorem image_passes (s : State) (h : List Byte) (hh : h.length = 64) (h0 : leVal (h.take 4) = 0x53574650)
    (h1 : leVal ((h.drop 14).take 50) = 0) (h2 : leVal ((h.drop 8).take 4) = 0) (h3 : leVal ((h.drop 12).take 2) = 0)
    (hf : s.boot.flash.ok = true) (hs : 16777216 ≤ s.boot.flash.size) (ht : s.cu.test ≠ 2) :
    s.imageCause (h ++ cmac fwKeyBytes h) = none := by
  obtain ⟨e1, e2⟩ := head_bytes h _ hh (cmac_length fwKeyBytes h)
  have hs' : ¬ s.boot.flash.size < 16777216 := by omega
  have e3 : (h ++ cmac fwKeyBytes h).take 64 = h := by rw [List.take_append_of_le_length (by omega), List.take_of_length_le (by omega)]
  have e4 : (h ++ cmac fwKeyBytes h).drop 64 = cmac fwKeyBytes h := by rw [← hh]; exact List.drop_left
  simp [State.imageCause, e1, e2, e3, e4, h0, h1, h2, h3, hf, hs', ht]

theorem witness_MailboxRequestsAndFiles_image : (bus 3).imageCause img0 = none := by
  obtain ⟨h, h0, h1, h2, h3⟩ := img0_facts
  exact image_passes (bus 3) imgHead h h0 h1 h2 h3 (by decide +kernel) (by decide +kernel) (by decide +kernel)

/-- The same with the port forwarding. -/
def port (al : Nat) : State := { bus al with ecatHold := true }
def withEcat (f : EcatState → EcatState) (s : State) : State := { s with ecat := f s.ecat }

theorem sound_up : up.mem.wf = true ∧ up.cfg.valid = true := by decide +kernel

theorem witness_EcatStatesImagesAndUnits_frames :
    ((port 2).escOn = true ∧ (port 2).ecatHold = true ∧ (inPhase 1 { bus 2 with ecatHold := false }).ecatHold = false)
    ∧ ((port 1).ecat.al = 1 ∧ (port 2).ecat.sm0 = none ∧ (withEcat (fun e => { e with sm0 := some [] }) (port 2)).ecat.sm0.isSome = true)
    ∧ (mailFault (leBytes 2 1 ++ [0, 0, 0, 3, 9]) = none ∧ mailFault [] = some 0x0005 ∧ mailFault [0, 0, 0, 0, 0, 5] = some 0x0002
      ∧ (port 2).mailOn = true ∧ ({ port 2 with mgmtHalted := true } : State).mailOn = false)
    ∧ ((port 4).ecat.al = 4 ∧ [1, 2, 3, 4].length = 4 ∧ (port 8).ecat.al = 8 ∧ (port 2).ecat.al ≠ 4 ∧ (port 2).ecat.al ≠ 8)
    ∧ (let s := withEcat (fun e => { e with replies := [(.foeAck 0, 1)] }) (port 2)
       s.ecat.replies = [(.foeAck 0, 1)] ∧ (port 2).ecat.replies = [] ∧ (port 2).ev.emcyQ = [])
    ∧ (let e : Event := { code := E.PDO_WATCHDOG, tt := 5, detail := 0 }
       let s : State := { port 2 with ev := { up.ev with emcyQ := [e] } }
       s.ev.emcyQ = [e] ∧ s.mailOn = true ∧ s.alUp = true ∧ s.fwRuns = true ∧ s.ev.emcyDropped = 0 ∧ s.ecat.replies = [] ∧ s.mem.wf = true
         ∧ s.cfg.valid = true) := by decide +kernel

theorem witness_EcatStatesImagesAndUnits_states :
    (let s := withEcat (fun e => { e with alErr := true }) (port 2)
     s.ecat.alErr = true ∧ bit 4 4 = false ∧ 4 % 16 ≠ 1 ∧ bit (4 + 16) 4 = true)
    ∧ (5 ∉ [1, 2, 3, 4, 8] ∧ (port 1).ecat.alErr = false ∧ 8 ∉ alNext (port 1).ecat.al ∧ (4 ∈ alNext (port 2).ecat.al)
      ∧ (inPhase 5 (port 2)).phase ≤ 11 ∧ (inPhase 13 (port 2)).phase = 13 ∧ (inPhase 15 (port 1)).phase = 15 ∧ 2 ∈ alNext (port 1).ecat.al
      ∧ 3 ∈ alNext (port 1).ecat.al ∧ (inPhase 13 (port 1)).phase ≠ 12 ∧ 8 ∈ alNext (port 4).ecat.al ∧ (port 4).phase = 12)
    ∧ (let s := withEcat (fun e => { e with sm2 := 5 }) (port 4)
       let t := withEcat (fun e => { e with sm2 := 4, sm3 := 47 }) (port 4)
       let u := withEcat (fun e => { e with sm2 := 4, sm3 := 48 }) (port 4)
       s.ecat.sm2 ≠ 4 ∧ t.ecat.sm2 = 4 ∧ t.ecat.sm3 ≠ 48 ∧ u.alRefusal 8 = none ∧ u.ecat.foe = none ∧ (port 2).alRefusal 1 = none
         ∧ (port 2).alRefusal 2 = none ∧ (port 2).ecat.al = 2) := by decide +kernel

theorem witness_EcatStatesImagesAndUnits_images :
    (let s := withEcat (fun e => { e with out := [1, 2, 3, 4] }) (port 4)
     s.fwRuns = true ∧ s.mgmtHalted = false ∧ s.ecat.out.length = 4 ∧ s.ecat.al = 4 ∧ (inPhase 1 s).fwRuns = false)
    ∧ (let s := withEcat (fun e => { e with imageMs := some 100000 }) (port 4)
       s.ecat.imageMs = some (s.tt / 1000000) ∧ (port 4).ecat.imageMs ≠ some ((port 4).tt / 1000000) ∧ (port 4).unitsUpdate.ev.emcyQ = [])
    ∧ (let s := (port 4).put R.AU_CTL_en [] 1
       let t := withEcat (fun e => { e with units := ⟨[(9, (5, false))]⟩ }) s
       9 < unitCount ∧ (port 4).unitMismatch 9 = false ∧ s.unitMismatch 9 = true ∧ s.ecat.units.get? 9 = none ∧ s.tt < s.tt + 1000000000
         ∧ t.unitMismatch 9 = true ∧ t.ecat.units.get? 9 = some (5, false) ∧ 5 + 1000000000 ≤ t.tt)
    ∧ (let s := port 4
       s.fwRuns = true ∧ s.boot.sramBad = false ∧ s.ecat.wdTt + 100000000 ≤ s.tt ∧ (onTt 5 s).tt < s.ecat.wdTt + 100000000 ∧ s.ecat.al ≠ 8
         ∧ (port 8).ecat.al = 8 ∧ ({ s with boot := { s.boot with sramBad := true } } : State).boot.sramBad = true)
    ∧ ((port 4).ecat.link0 = false ∧ (port 4).ecat.link1 = false ∧ (port 4).escOn = true)
    ∧ (cold.hostShut .host = true ∧ up.hostShut .host = false ∧ up.heldIsl.contains 54 = false ∧ 5 < 2 ^ 32) := by decide +kernel

/-- Completion ring 1 and the event ring enabled, 16 entries each, with interrupts of vectors 3 and 4. -/
def rings : State :=
  { up.puts [(R.HP_CQ_CFG_log2_len, [1], 4), (R.HP_CQ_CFG_en, [1], 1), (R.HP_CQ_CFG_vector, [1], 3), (R.HP_CQ_CFG_irq_en, [1], 1),
             (R.HP_EVQ_CFG_log2_len, [], 4), (R.HP_EVQ_CFG_en, [], 1), (R.HP_EVQ_CFG_irq_en, [], 1), (R.HP_IRQ_MAP_evq_vec, [], 4),
             (R.HP_IRQ_MOD_count, [3], 2), (R.HP_IRQ_MOD_time_us, [3], 7)] with por := false }

def rec1 : CRec := { ring := 1, bytes := List.replicate 64 0 }
def ev1 : Event := { code := E.PDO_WATCHDOG, tt := 5, detail := 0 }
def hw (i : HostItem) (tt : Nat) : HostWrite := { item := i, addr := 64, bytes := [], tt := tt }
def withHost (h : HostPort) (s : State) : State := { s with host := h }
def held1 : HostPort := { up.host with held := [rec1] }

theorem witness_HostRingsAndCheckpoints_records :
    rings.mem.wf = true ∧ rings.cfg.valid = true
    ∧ (up.cfg.submitRings ≤ 256 ∧ up.flag R.HP_CQ_CFG_en [1] = false ∧ (rings.puts [(R.HP_CQ_TAIL_tail, [1], 15)]).cqFull 1 = true ∧ rings.host.held = [])
    ∧ (let s := withHost held1 rings
       let len := 2 ^ s.get R.HP_CQ_CFG_log2_len [1]
       let t := s.puts [(R.HP_CQ_TAIL_tail, [1], 15), (R.HP_CQ_HEAD_head, [1], 3)]
       1 < s.cfg.submitRings ∧ s.flag R.HP_CQ_CFG_en [1] = true ∧ s.cqFull 1 = false ∧ s.host.held.length ≤ 512
         ∧ s.host.held.filter (fun h => h.ring = 1) = [rec1] ∧ s.get R.HP_CQ_TAIL_tail [1] + 1 < len ∧ t.cqFull 1 = false
         ∧ len ≤ t.get R.HP_CQ_TAIL_tail [1] + 1)
    ∧ (let s : State := { rings with ev := { up.ev with hostq := [ev1] } }
       let t := s.puts [(R.HP_EVQ_TAIL_tail, [], 15), (R.HP_EVQ_HEAD_head, [], 3)]
       up.ev.hostq = [] ∧ s.ev.hostq = [ev1] ∧ s.controlDone = true ∧ s.flag R.HP_EVQ_CFG_en = true ∧ s.evqFull = false
         ∧ (s.puts [(R.HP_EVQ_TAIL_tail, [], 15)]).evqFull = true ∧ t.evqFull = false
         ∧ 2 ^ t.get R.HP_EVQ_CFG_log2_len ≤ t.get R.HP_EVQ_TAIL_tail + 1 ∧ s.get R.HP_EVQ_TAIL_tail + 1 < 2 ^ s.get R.HP_EVQ_CFG_log2_len) := by
  decide +kernel

theorem witness_HostRingsAndCheckpoints_answers :
    up.host.writes = []
    ∧ (∀ i ∈ [HostItem.record 1, .event],
      let s := withHost { up.host with writes := [hw i 5], vec := ⟨[(3, [5])]⟩ } rings
      let off := withHost { up.host with writes := [hw i 5] } up
      let irq := fun s : State => match i with | .record r => s.flag R.HP_CQ_CFG_irq_en [r] | .event => s.flag R.HP_EVQ_CFG_irq_en
      s.host.writes = [hw i 5] ∧ irq s = true ∧ irq off = false ∧ (hw i 5).tt + 1000000 ≤ s.tt ∧ (onTt 1000004 s).tt < (hw i 5).tt + 1000000
        ∧ (hw i 5).item = i)
    ∧ (let n := fun s : State => (s.host.vec.get 3 [] ++ [s.tt]).length
       let s := withHost { up.host with vec := ⟨[(3, [5])]⟩ } rings
       s.get R.HP_IRQ_MOD_count [3] ≤ n s ∧ s.get R.HP_IRQ_MOD_time_us [3] ≠ 0 ∧ n rings < rings.get R.HP_IRQ_MOD_count [3]
         ∧ up.get R.HP_IRQ_MOD_time_us [4] = 0
         ∧ s.host.vec.get 3 [] = [5] ∧ 5 + 1000 * s.get R.HP_IRQ_MOD_time_us [3] ≤ s.tt ∧ rings.host.vec.get 3 [] = []) := by decide +kernel

theorem witness_HostRingsAndCheckpoints_registers :
    (cold.hostShut .host = true ∧ up.islandHeld 52 = false ∧ ({ up with heldIsl := [52] } : State).islandHeld 52 = true
      ∧ ({ up with heldIsl := [52] } : State).hostShut .fw = false ∧ up.hostShut .host = false ∧ up.hostShut .fw = false ∧ 1 < up.cfg.submitRings)
    ∧ ((up.puts [(R.DS_RING_CTL_en, [1], 1)]).flag R.DS_RING_CTL_en [1] = true ∧ up.flag R.DS_RING_CTL_en [1] = false)
    ∧ (let base := fun (s : State) (v : Nat) => s.loHeld.get (R.HP_CQ_BASE_LO.addr [1]) (s.regWord R.HP_CQ_BASE_LO [1]) + v % 2 ^ 32 * 2 ^ 32
       let base2 := fun (s : State) (v : Nat) => s.loHeld.get (R.HP_EVQ_BASE_LO.addr []) (s.regWord R.HP_EVQ_BASE_LO []) + v % 2 ^ 32 * 2 ^ 32
       base rings 1 ≠ rings.pair R.HP_CQ_BASE_LO R.HP_CQ_BASE_HI [1] ∧ base rings 0 = rings.pair R.HP_CQ_BASE_LO R.HP_CQ_BASE_HI [1]
         ∧ base2 rings 1 ≠ rings.pair R.HP_EVQ_BASE_LO R.HP_EVQ_BASE_HI ∧ base2 rings 0 = rings.pair R.HP_EVQ_BASE_LO R.HP_EVQ_BASE_HI
         ∧ up.flag R.HP_CQ_CFG_en [1] = false)
    ∧ (bits 3 4 0 < 4 ∧ 16 < bits 17 4 0 ∧ ¬ (bits 4 4 0 < 4 ∨ 16 < bits 4 4 0) ∧ ¬ (bits 16 4 0 < 4 ∨ 16 < bits 16 4 0)
      ∧ rings.get R.HP_CQ_CFG_log2_len [1] = 4 ∧ rings.get R.HP_EVQ_CFG_log2_len = 4 ∧ 4 ≠ bits 16 4 0) := by decide +kernel

/-- One journal entry, not yet in a checkpoint. -/
def jent : JEntry :=
  { seq := 0, tt := 5, source := 1, status := 0, cause := 0, long := false, command := false, loc := 0, old := 0, new := 1, detail := 0 }

def unsaved1 : State :=
  let s := up.puts [(R.HP_JRN_HEAD_seq, [], 1)]
  { s with por := false, jrn := { s.jrn with primary := ⟨[(0, jent)]⟩, mirror := ⟨[(0, jent)]⟩ } }

/-- The same with the log `n` sectors long. -/
def logOf (n : Nat) (s : State) : State :=
  { s with boot := { s.boot with flash := { s.boot.flash with size := 0xE0000 + 4096 * n } } }

theorem witness_HostRingsAndCheckpoints_checkpoints :
    (up.fwRuns = false ∨ up.journalDue = false)
    ∧ (let s := logOf 63 unsaved1
       let t := logOf 64 unsaved1
       s.fwRuns = true ∧ s.mgmtHalted = false ∧ s.journalDue = true ∧ s.usableSectors < 64 ∧ s.unsaved = [jent] ∧ t.journalDue = true
         ∧ 64 ≤ t.usableSectors ∧ t.wearAhead ((68 + 32 * t.unsaved.length) / 4080 + 3) = false ∧ s.mem.wf = true ∧ s.cfg.valid = true)
    ∧ (let s := onTt 700000000000 unsaved1
       let t : State := { s with boot := { s.boot with wear := s.wearBytes } }
       s.fwRuns = true ∧ s.mgmtHalted = false ∧ s.boot.wearTt + 600000000000 ≤ s.tt ∧ s.wearBytes ≠ s.boot.wear ∧ s.usableSectors ≠ 0
         ∧ (logOf 0 s).usableSectors = 0 ∧ t.wearBytes = t.boot.wear ∧ up.tt < up.boot.wearTt + 600000000000) := by decide +kernel

theorem witness_HostRingsAndCheckpoints_sweeps :
    ((onTt 5 unsaved1).tt < unsaved1.boot.sramTt + 1000000000 ∧ unsaved1.fwRuns = true ∧ unsaved1.boot.sramTt + 1000000000 ≤ unsaved1.tt)
    ∧ (unsaved1.jrn.primary.get? unsaved1.jrn.sweep = some jent ∧ unsaved1.get R.HP_JRN_STATUS_copy = 0)
    ∧ (let s := unsaved1.puts [(R.HP_JRN_STATUS_copy, [], 2)]
       s.jrn.mirror.get? s.jrn.sweep = some jent ∧ s.get R.HP_JRN_STATUS_copy = 2) := by decide +kernel

/-- READY at TT `tt`, with a snapshot period of 100 ms, and the last instant taken at `last`. -/
def snap (last tt : Nat) : State :=
  let s := onTt tt (up.puts [(R.PC_SNAP_CTL_period_ms, [], 100), (R.PC_SNAP_CFG_log2_len, [], 2)])
  { s with pc := { s.pc with lastInst := last } }
def pcEn (s : State) : State := s.puts [(R.PC_SNAP_CFG_en, [], 1), (R.PC_SMP_CFG_en, [], 1)]
def pcBusy (s : State) : State := { s with pc := { s.pc with busy := some (5, 0, 0) } }
def snapFull (s : State) : Prop :=
  2 ^ s.get R.PC_SNAP_CFG_log2_len ≤ (s.get R.PC_SNAP_PROD_prod + 2 ^ 16 - s.get R.PC_SNAP_CONS_cons) % 2 ^ 16
def snapAt (s : State) : State := (s.puts [(R.PC_SNAP_CTL_at_arm, [], 1), (R.PC_SNAP_CTL_period_ms, [], 0)]).setRegWord R.PC_SNAP_AT_LO [] 1000

theorem witness_SnapshotsSamplesAndSelectors_instants :
    (let p := 1000000 * (snap 0 0).get R.PC_SNAP_CTL_period_ms
     p = 100000000 ∧ (snap 0 0).flag R.PC_SNAP_CTL_at_arm = false ∧ (snap 5 9).tt / p - 5 / p = 0 ∧ (snap 99999999 100000000).tt / p - 99999999 / p = 1
       ∧ (snap 99999999 300000000).tt / p - 99999999 / p = 3)
    ∧ ((pcBusy (snap 99999999 100000000)).pc.busy.isSome = true ∧ (snap 0 0).pc.busy = none ∧ (snap 0 0).flag R.PC_SNAP_CFG_en = false
      ∧ (snap 0 0).mem.wf = true ∧ (snap 0 0).cfg.valid = true)
    ∧ (let s := pcEn (snap 99999999 100000000)
       let t := s.puts [(R.PC_SNAP_PROD_prod, [], 4)]
       s.flag R.PC_SNAP_CFG_en = true ∧ ¬ snapFull s ∧ snapFull t ∧ t.flag R.PC_SNAP_CFG_overwrite = false
         ∧ (t.puts [(R.PC_SNAP_CFG_overwrite, [], 1)]).flag R.PC_SNAP_CFG_overwrite = true)
    ∧ (let s := snapAt (snap 999 1001)
       let at_ := s.pair R.PC_SNAP_AT_LO R.PC_SNAP_AT_HI
       s.flag R.PC_SNAP_CTL_at_arm = true ∧ s.pc.lastInst < at_ ∧ at_ ≤ s.tt ∧ s.get R.PC_SNAP_CTL_period_ms = 0) := by
  unfold snapFull; decide +kernel

theorem witness_SnapshotsSamplesAndSelectors_records :
    (snap 0 0).pc.busy = none ∧ (pcBusy (snap 0 0)).pc.busy = some (5, 0, 0) ∧ (snap 0 0).pc.tag.get? 0 = none
    ∧ (let s := pcEn up
       let t : State := { s with pc := { s.pc with tag := ⟨[(0, [1, 2, 3, 4, 5, 6, 7])]⟩ } }
       let u := t.puts [(R.PC_SMP_PROD_prod, [], 2 ^ t.get R.PC_SMP_CFG_log2_len)]
       let ring := fun s : State => 2 ^ s.get R.PC_SMP_CFG_log2_len ≤ (s.get R.PC_SMP_PROD_prod + 2 ^ 16 - s.get R.PC_SMP_CONS_cons) % 2 ^ 16
       t.pc.tag.get? 0 = some [1, 2, 3, 4, 5, 6, 7] ∧ up.flag R.PC_SMP_CFG_en = false ∧ t.flag R.PC_SMP_CFG_en = true ∧ ring u ∧ ¬ ring t) := by
  decide +kernel

theorem witness_SnapshotsSamplesAndSelectors_overflow :
    (let s := up.setEng 0 0 { Engine.init with run := some run0 }
     let t : State := { s with pc := { s.pc with capture := ⟨[(pcEngBank 0 0, true)]⟩ } }
     t.pc.capture.get? (pcEngBank 0 0) = some true ∧ (t.eng 0 0).run = some run0 ∧ s.pc.capture.get? (pcEngBank 0 0) = none)
    ∧ cold.hostShut .host = true
    ∧ (let b : Bank := { kind := .engine, base := pcEngBank 0 0, count := 8, isl := 0 }
       up.hostShut .host = false ∧ b ∈ up.bankList ∧ 0 < b.count ∧ b.isl ∉ up.heldIsl ∧ b.isl ∈ ({ up with heldIsl := [0] } : State).heldIsl
         ∧ (b.kind.codes.1 < bits 8 7 0 ∧ bits 8 7 0 < 0x10) ∧ b.kind.codes.2 < bits 0x112 7 0 ∧ bits 0x300 9 8 = 3
         ∧ (bits 0x10 9 8 = 0 ∧ 0x10 ≤ bits 0x10 7 0) ∧ (bits 0x101 9 8 = 1 ∧ bits 0x101 7 0 < 0x10)
         ∧ (bits 1 9 8 = 0 ∧ ¬ (b.kind.codes.1 < bits 1 7 0) ∧ bits 1 7 0 < 0x10)
         ∧ (bits 0x111 9 8 = 1 ∧ ¬ b.kind.codes.2 < bits 0x111 7 0 ∧ ¬ bits 0x111 7 0 < 0x10)) := by decide +kernel

theorem witness_TtLoadAppliesOnlyInFreeRun :
    (up.islandHeld 53 = false ∧ ({ up with heldIsl := [53] } : State).islandHeld 53 = true ∧ up.get R.TB_STATUS_state = 0 ∧ up.rcp.vals = [] ∧ up.au.table.vals = [])
    ∧ (up.puts [(R.TB_STATUS_state, [], 2)]).get R.TB_STATUS_state ≠ 0 := by decide +kernel

theorem witness_Sm2WatchdogEntersSafeop :
    (port 8).por = false ∧ (port 8).warm = false ∧ (port 8).ecat.al = 8 ∧ (port 8).ecat.sm2Tt + 100000000 ≤ (port 8).tt ∧ (port 4).ecat.al ≠ 8 := by
  decide +kernel

theorem witness_IdleStepIsAPositionCycle :
    up.pending = [] ∧ ({ up with por := true } : State).por = true ∧ ({ up with por := false } : State).por = false ∧ 53 ∉ up.heldIsl
      ∧ 53 ∈ ({ up with heldIsl := [53] } : State).heldIsl ∧ up.get R.TB_RATE_rate = 0 ∧ up.ttFrac = 0
      ∧ (onTt 998 up).tb.cycles % 400 = 399 ∧ up.tb.cycles % 400 ≠ 399 ∧ up.tb.qref = 0
      ∧ signedOf 32 ((up.puts [(R.TB_RATE_rate, [], 2000)]).get R.TB_RATE_rate) = 2000 := by decide +kernel

theorem witness_StepKeepsSound :
    (up.mem.wf = true ∧ up.cfg.valid = true) ∧ step { up with pending := [.snapshotInstant] } = .next up.snapshot := ⟨sound_up, rfl⟩

/-! ### Well-formed commands, and decoding -/

/-- One ill-formed command for each check: a bound, a word, an offset's alignment, a source, a frame's length. -/
theorem test_wf_refuses :
    (Instr.islandClockLoss 55).wf = false ∧ (Instr.laneSerdesReset 140).wf = false ∧ (Instr.clockGenAck 32).wf = false
      ∧ (Instr.mma 0 5).wf = false ∧ (Instr.mma 32 0).wf = false ∧ (Instr.countLoad 8 0).wf = false ∧ (Instr.countLoad 0 (2 ^ 32)).wf = false
      ∧ (Instr.registerWrite .host 0x10 (2 ^ 32) true).wf = false ∧ (Instr.registerWrite .host 0x11 0 true).wf = false
      ∧ (Instr.registerWrite .host (2 ^ 24) 0 true).wf = false ∧ (Instr.registerWrite .foe 0x10 0 true).wf = false
      ∧ (Instr.cxpLaneLockLoss 64).wf = false ∧ (Instr.cxpControlPacketRx 0 .ack 256 true []).wf = false ∧ (Instr.cxCtrlTxSend 32).wf = false
      ∧ (Instr.decRecord 4).wf = false ∧ (Instr.stallWatchExpiry 4096).wf = false ∧ (Instr.doorbell 256 0).wf = false
      ∧ (Instr.dsCancel .host 0 65536 true).wf = false ∧ (Instr.stepTrigger 16).wf = false ∧ (Instr.partDeadlineExpiry 0 (2 ^ 64)).wf = false
      ∧ (Instr.minGapExpiry 64).wf = false ∧ (Instr.pulseEnd 4096).wf = false ∧ (Instr.burrowFillDone 8).wf = false
      ∧ (Instr.quillFrameReceived 0 0 []).wf = false ∧ (Instr.ack 12).wf = false ∧ (Instr.memberRestore 0 24).wf = false
      ∧ (Instr.remoteTimeout 65536).wf = false ∧ (Instr.auditClose .host 4).wf = false ∧ (Instr.thermalRead 16 none).wf = false
      ∧ (Instr.supplyFaultClear 8).wf = false ∧ (Instr.fanKickTimeout 4).wf = false ∧ (Instr.sdoUpload 8 0 0 false).wf = false
      ∧ (Instr.sdoUpload 0 65536 0 false).wf = false ∧ (Instr.sdoUpload 0 0 256 false).wf = false
      ∧ (Instr.unitMismatchTimeout 116).wf = false ∧ (Instr.ecatLinkChange 2 true).wf = false ∧ (Instr.irqModerationTimeout 32).wf = false := by
  decide

/-- The same commands with their operands in range are well formed. -/
theorem test_wf_accepts :
    (Instr.islandClockLoss 54).wf = true ∧ (Instr.mma 31 4).wf = true ∧ (Instr.registerWrite .host 0x10 0 true).wf = true
      ∧ (Instr.countLoad 7 (2 ^ 32 - 1)).wf = true ∧ (Instr.remoteTimeout 65535).wf = true ∧ (Instr.irqModerationTimeout 31).wf = true := by
  decide

/-- The table gives no row any bits, so no word spells a command, and the queue is left as it is. -/
theorem test_no_word_decodes (s : State) (n w : Nat) : decodeTableWord n w = none ∧ s.withFetchWord n w = s := ⟨rfl, rfl⟩

/-! ### Worked figures of the spec -/

/-- Chapter 2's example: what a Tetia-R32 chip of RTL release 1.3 reads. -/
theorem test_configuration_registers :
    cold.peek R.HP_CFG0.off = 0x102060E0 ∧ cold.peek R.HP_CFG1.off = 0x0084088C ∧ cold.peek R.HP_CFG2.off = 0x00100100
      ∧ cold.peek R.HP_CFG3.off = 0x01031000 := by decide +kernel

/-- The example of R582: POSITION_DISAGREE of channel 0 with e = −3, and bytes 5 to 7 of the emergency for unit 14. -/
theorem test_event_details :
    mkDetail none [(.ix, 0), sval (-3), (.en, 2)] = 0xFFFFFFFD * 2 ^ 32 + 2 * 2 ^ 64
      ∧ leBytes 3 (mkDetail none [(.ix, 14), (.en, 2), (.en, 5)] % 2 ^ 24) = [0x0E, 0, 2] := by decide

/-- A command that waits is executed first: its outcome is that of exec, and the queue holds the rest. -/
theorem test_step_takes_the_front :
    step { up with pending := [.hostEventWrite, .snapshotInstant] } = exec .hostEventWrite { up with pending := [.snapshotInstant] } := rfl

end Sys2Proof.Tests
end

section
/-! The laws of resets and of register accesses (chapters 0, 2, 3, 19 and 22), and the statements of that family. -/

namespace Sys2Proof.Machine

/-! ### The reset state -/

/-- Settles O60: memory lists nothing, so it is canonical, and Tetia-R32 meets every bound of Table 2-2. -/
theorem resetIsSound : Obligations.ResetIsSound := by
  unfold Obligations.ResetIsSound State.Sound
  decide

/-! ### Power-on reset -/

theorem State.powerOn_regWord (s : State) (powered por : Bool) (r : RegSpec) (ix : List Nat) :
    (s.powerOn powered por).regWord r ix = resetWord s.cfg r ix := rfl

theorem State.powerOn_phase (s : State) (powered por : Bool) : (s.powerOn powered por).phase = 1 := by
  rw [State.phase, State.get, State.powerOn_regWord]
  rfl

theorem State.powerOn_freshFrom (s : State) (powered por : Bool) : FreshFrom s (s.powerOn powered por) :=
  ⟨fun r ix _ => s.powerOn_regWord powered por r ix, rfl, s.powerOn_phase powered por, rfl, rfl, rfl, rfl, rfl, rfl, rfl,
    rfl, rfl, rfl, rfl, fun _ _ => rfl, rfl, rfl, rfl, rfl, rfl, rfl, rfl, rfl⟩

/-- The count of held events that an event may raise lies beside the phase in HP_BOOT_STATUS. -/
theorem State.post_phase (s : State) (code : Nat) (inst : Option Nat) (fs : List (FK × Nat)) :
    (s.post code inst fs).phase = s.phase := by
  unfold State.post
  dsimp only
  split
  · rfl
  · exact State.get_put_field _ R.HP_BOOT_STATUS_held R.HP_BOOT_STATUS_phase [] _ rfl (by decide) (by decide) (by decide)
      (by decide)

theorem State.post_sync (s : State) (code : Nat) (inst : Option Nat) (fs : List (FK × Nat)) (c n : Nat) :
    (s.post code inst fs).sync c n = s.sync c n := by
  simp [State.sync, State.core]

theorem FreshFrom.tt_eq {s t : State} (h : FreshFrom s t) : t.tt = 0 := h.2.1

theorem FreshFrom.post {s t : State} (h : FreshFrom s t) (code : Nat) (inst : Option Nat) (fs : List (FK × Nat)) :
    FreshFrom s (t.post code inst fs) := by
  obtain ⟨hregs, hrest⟩ := h
  refine ⟨fun r ix hb => ?_, by simpa [State.post_phase, State.post_sync] using hrest⟩
  rw [← hregs r ix hb]
  exact State.regWord_congr (State.post_cfg ..) r ix (State.post_get?_other _ _ _ _ _ hb)

/-- What the release of POR_N posts for one held island (R49). -/
def State.postAbsent (i : Nat) (s : State) : State := s.post E.ISLAND_CLOCK_ABSENT none [(.ix, i)]

theorem State.postAbsent_mgmt {t : State} (ht : t.tt = 0) (i : Nat) :
    (t.postAbsent i).ev.mgmt = t.ev.mgmt ++ [absentEvent 0 i] := by
  rw [State.postAbsent, State.post_mgmt, ht]
  rfl

/-- Naming the held islands adds one event each, in order, and leaves the rest of the machine as reset has left it. -/
theorem foldS_postAbsent {s t : State} (h : FreshFrom s t) (l : List Nat) :
    FreshFrom s (foldS l State.postAbsent t)
      ∧ (foldS l State.postAbsent t).por = t.por ∧ (foldS l State.postAbsent t).powered = t.powered
      ∧ (foldS l State.postAbsent t).heldIsl = t.heldIsl
      ∧ (foldS l State.postAbsent t).ev.mgmt = t.ev.mgmt ++ l.map (absentEvent 0) := by
  induction l generalizing t with
  | nil => exact ⟨h, rfl, rfl, rfl, (List.append_nil _).symm⟩
  | cons i l ih =>
    have hi : FreshFrom s (t.postAbsent i) := h.post ..
    obtain ⟨hfresh, hpor, hpow, hheld, hmgmt⟩ := ih hi
    refine ⟨hfresh, hpor.trans (State.post_por ..), hpow.trans (State.post_powered ..),
      hheld.trans (State.post_heldIsl ..), hmgmt.trans ?_⟩
    rw [State.postAbsent_mgmt h.tt_eq, List.append_assoc]
    rfl

theorem State.porRelease_eq {s : State} (hp : s.por = true) (absent : List Nat) :
    s.porRelease absent = foldS (absent.filter (islandExists s.cfg)) State.postAbsent
      { s.powerOn true false with heldIsl := absent.filter (islandExists s.cfg) } := by
  simp only [State.porRelease, hp]
  rfl

/-- Settles O1: assertion and loss of power leave the reset state as it is built; release adds the events of the held
islands to it, by induction on their list. -/
theorem powerOnResetLeavesResetState : Obligations.PowerOnResetLeavesResetState := by
  unfold Obligations.PowerOnResetLeavesResetState
  intro s
  refine ⟨⟨_, rfl, s.powerOn_freshFrom _ _, rfl, rfl, rfl, rfl⟩, ⟨_, rfl, s.powerOn_freshFrom _ _, rfl, rfl, rfl, rfl⟩,
    fun absent hp => ⟨s.porRelease absent, rfl, ?_⟩⟩
  have hfresh : FreshFrom s { s.powerOn true false with heldIsl := absent.filter (islandExists s.cfg) } :=
    s.powerOn_freshFrom true false
  obtain ⟨hf, hpor, hpow, hheld, hmgmt⟩ := foldS_postAbsent hfresh (absent.filter (islandExists s.cfg))
  rw [State.porRelease_eq hp]
  exact ⟨hf, hpor, hpow, hheld, by rw [hmgmt, hheld]; rfl⟩

/-! ### The register at an offset -/

theorem dimOff_of_dimIndex {c : Cfg} {ds : List (Count × Nat)} {rel : Nat} {ix : List Nat} (h : dimIndex c ds rel = some ix) :
    dimOff ds ix = rel := by
  induction ds generalizing rel ix with
  | nil =>
    simp only [dimIndex, Option.ite_none_right_eq_some] at h
    exact h.1.symm
  | cons d ds ih =>
    simp only [dimIndex, Option.ite_none_right_eq_some, Option.map_eq_some_iff] at h
    obtain ⟨-, is, his, rfl⟩ := h
    rw [dimOff, ih his, Nat.div_add_mod']

theorem RegSpec.addr_of_match? {r : RegSpec} {c : Cfg} {off : Nat} {ix : List Nat} (h : r.match? c off = some ix) :
    r.addr ix = off := by
  simp only [RegSpec.match?, Option.ite_none_right_eq_some] at h
  rw [RegSpec.addr, dimOff_of_dimIndex h.2, Nat.add_sub_cancel' h.1]

/-- What an offset names is a register of the map, and its own offset is that one. -/
theorem findReg_spec {c : Cfg} {off : Nat} {r : RegSpec} {ix : List Nat} (h : findReg c off = some (r, ix)) :
    r ∈ R.all ∧ r.addr ix = off := by
  obtain ⟨q, hq, hm⟩ := List.mem_filterMap.mp (List.mem_of_mem_head? h)
  simp only [Option.map_eq_some_iff, Option.filter_eq_some_iff] at hm
  obtain ⟨iy, ⟨hmatch, -⟩, heq⟩ := hm
  cases heq
  exact ⟨hq, RegSpec.addr_of_match? hmatch⟩

/-- No _LO register of a pair is the _HI register of another, has a field that a read clears, or is PU_STATUS. -/
theorem lo_only_latches : ∀ r ∈ R.all, (hiOf r).isSome = true →
    loOf r = none ∧ r.fields.any (fun f => f.acc == .rc) = false ∧ r.off ≠ R.PU_STATUS.off := by
  decide +kernel

theorem off_ne_PU_IDX_LO_of_hiOf {r : RegSpec} (h : hiOf r = none) : r.off ≠ R.PU_IDX_LO.off := by
  intro he
  rw [hiOf, he] at h
  exact absurd h (by decide)

/-! ### Refused host accesses -/

theorem State.hostAbandon_frame (s : State) :
    s.hostAbandon = { s with regs := s.hostAbandon.regs, ev := s.hostAbandon.ev } := by
  apply State.eq_of <;> simp [State.hostAbandon]

theorem State.hostAbandon_fieldsSet (s : State) :
    FieldsSet s s.hostAbandon [(R.HP_ERR_abandoned, [], satTo 65535 (s.get R.HP_ERR_abandoned + 1))] :=
  ((FieldsSet.nil rfl).put rfl R.HP_ERR_abandoned [] _ (by decide)).postLim _ _ _ _

/-! ### Register reads -/

theorem exec_read {src : Src} {off : Nat} {c : Instr} (hc : c ∈ [Instr.pairLoRead src off, .rcRegisterRead src off])
    (s : State) : exec c s = .next (s.readReg src off) := by
  simp only [List.mem_cons, List.not_mem_nil, or_false] at hc
  obtain rfl | rfl := hc <;> rfl

theorem State.readReg_shut {s : State} {src : Src} {off : Nat} (hs : s.hostShut src = true) (ho : R.HP_BOOT_STATUS.off < off) :
    s.readReg src off = { s.hostAbandon with rdata := 2 ^ 32 - 1 } := by
  have he : earlyRead off = false := decide_eq_false (Nat.not_le.mpr ho)
  simp [State.readReg, hs, he]

theorem State.readReg_open {s : State} {src : Src} {off : Nat} (hs : s.hostShut src = false ∨ off ≤ R.HP_BOOT_STATUS.off)
    (ha : off % 4 = 0) : s.readReg src off = { (s.readAt off).2 with rdata := (s.readAt off).1 } := by
  have he : (s.hostShut src && !earlyRead off) = false := by
    obtain h | h := hs
    · rw [h, Bool.false_and]
    · rw [earlyRead, decide_eq_true h, Bool.not_true, Bool.and_false]
  rw [State.readReg, he, Nat.div_mul_cancel (Nat.dvd_of_mod_eq_zero ha)]
  rfl

theorem State.readAt_none {s : State} {off : Nat} (hf : findReg s.cfg off = none) : s.readAt off = (0, s) := by
  simp only [State.readAt, hf]

section
variable {s : State} {off : Nat} {r : RegSpec} {ix : List Nat} (hf : findReg s.cfg off = some (r, ix))
include hf

theorem State.readAt_held (hh : s.regHeld off = true) : s.readAt off = (s.viewHeld r ix, s) := by
  simp only [State.readAt, hf, hh, if_true]

theorem State.readAt_hi (hh : s.regHeld off = false) (hl : (loOf r).isSome = true) :
    s.readAt off = (s.hiLatch.get off 0, s) := by
  simp [State.readAt, hf, hh, hl]

theorem State.readAt_lo (hh : s.regHeld off = false) {h : RegSpec} (hl : hiOf r = some h) (hi : r.off ≠ R.PU_IDX_LO.off) :
    s.readAt off = (s.view r ix, { s with hiLatch := s.hiLatch.set (h.addr ix) (s.view h ix) }) := by
  obtain ⟨hlo, hrc, hst⟩ := lo_only_latches r (findReg_spec hf).1 (by rw [hl]; rfl)
  simp [State.readAt, hf, hh, hlo, hl, hi, hst, hrc]

/-- A register outside the pairs: only its rc fields change. -/
theorem State.readAt_single (hh : s.regHeld off = false) (hlo : loOf r = none) (hhi : hiOf r = none)
    (hst : r.off ≠ R.PU_STATUS.off) : s.readAt off = (s.view r ix,
      if r.fields.any (fun f => f.acc == .rc) then s.setRegWord r ix (clearedWord (s.regWord r ix) r.fields) else s) := by
  simp [State.readAt, hf, hh, hlo, hhi, hst, off_ne_PU_IDX_LO_of_hiOf hhi]

end

theorem State.view_live {s : State} {r : RegSpec} {ix : List Nat} (h : s.regHeld (r.addr ix) = false) :
    s.view r ix = readableWord (s.viewLive r ix) r.fields := by
  simp [State.view, h]

theorem readableWord_full (w a b c : Nat) : readableWord w [⟨31, 0, .ro, a, b, c⟩] = w % 2 ^ 32 := by
  simp [readableWord, bits]

/-- Both words of TB_TT lie in the position island. -/
theorem State.regHeld_ttHi (s : State) (ix : List Nat) : s.regHeld (R.TB_TT_HI.addr ix) = s.regHeld (R.TB_TT_LO.addr ix) := by
  have hlo : R.TB_TT_LO.addr ix = 0x020010 := by cases ix <;> rfl
  have hhi : R.TB_TT_HI.addr ix = 0x020014 := by cases ix <;> rfl
  simp [State.regHeld, regIsland, hlo, hhi]

theorem State.view_ttLo {s : State} {ix : List Nat} (h : s.regHeld (R.TB_TT_LO.addr ix) = false) :
    s.view R.TB_TT_LO ix = s.tt % 2 ^ 32 := by
  have hlive : s.viewLive R.TB_TT_LO ix = s.tt % 2 ^ 32 := rfl
  rw [State.view_live h, hlive, R.TB_TT_LO, readableWord_full, Nat.mod_mod]

theorem State.view_ttHi {s : State} {ix : List Nat} (h : s.regHeld (R.TB_TT_LO.addr ix) = false) :
    s.view R.TB_TT_HI ix = s.tt / 2 ^ 32 % 2 ^ 32 := by
  have hlive : s.viewLive R.TB_TT_HI ix = s.tt / 2 ^ 32 := rfl
  rw [State.view_live ((s.regHeld_ttHi ix).trans h), hlive, R.TB_TT_HI, readableWord_full]

/-- Settles O14, case by case along the branches of a read: refused, no register, held, _HI, _LO, and a word of its own. -/
theorem registerReadsLatchAndClear : Obligations.RegisterReadsLatchAndClear := by
  unfold Obligations.RegisterReadsLatchAndClear
  intro s src off halign c hc
  refine ⟨fun hshut hearly => ⟨_, exec_read hc s, ?_⟩, fun hopen => ?_⟩
  · rw [State.readReg_shut hshut hearly]
    refine ⟨rfl, ?_, s.hostAbandon_fieldsSet.congr rfl⟩
    rw [s.hostAbandon_frame]
  have hexec : exec c s = .next { (s.readAt off).2 with rdata := (s.readAt off).1 } := by
    rw [exec_read hc, State.readReg_open hopen halign]
  refine ⟨fun hnone => ⟨_, hexec, by rw [State.readAt_none hnone]⟩, fun r ix hfind =>
    ⟨fun hheld => ⟨_, hexec, by rw [State.readAt_held hfind hheld]⟩, fun hheld => ⟨?hi, ?lo, ?clear, ?plain, ?tt⟩⟩⟩
  case hi =>
    intro hlo
    exact ⟨_, hexec, by rw [State.readAt_hi hfind hheld hlo]⟩
  case lo =>
    intro h hhi hidx
    exact ⟨_, hexec, by rw [State.readAt_lo hfind hheld hhi hidx]⟩
  case clear =>
    intro hlo hhi hst hrc
    have hany : r.fields.any (fun f => f.acc == .rc) = true := by simpa using hrc
    refine ⟨_, hexec, ?_⟩
    rw [State.readAt_single hfind hheld hlo hhi hst, if_pos hany]
    exact ⟨rfl, rfl, State.regWord_setRegWord_same .., fun o ho => Tbl.get?_set_other _ _ _ _ (by simpa using ho)⟩
  case plain =>
    intro hlo hhi hst hrc
    have hany : ¬ r.fields.any (fun f => f.acc == .rc) = true := by simpa using hrc
    exact ⟨_, hexec, by rw [State.readAt_single hfind hheld hlo hhi hst, if_neg hany]⟩
  case tt =>
    rintro rfl
    have hlive : s.regHeld (R.TB_TT_LO.addr ix) = false := by rw [(findReg_spec hfind).2, hheld]
    have haddr : R.TB_TT_HI.addr ix = R.TB_TT_HI.off := by cases ix <;> rfl
    refine ⟨_, hexec, ?_⟩
    rw [State.readAt_lo hfind hheld (h := R.TB_TT_HI) rfl (by decide), State.view_ttLo hlive, State.view_ttHi hlive, haddr]
    exact ⟨rfl, Tbl.get_set_same ..⟩

/-! ### Register writes -/

/-- Reset with 161 camera pipelines, which R38 does not deliver: the block of the last begins at 0x300000, where the model
takes every write for one to the performance counters. -/
def State.manyPipes : State := State.cold { Cfg.r32 with camPipes := 161 } Flash.blank 0 []

theorem State.manyPipes_findReg :
    findReg State.manyPipes.cfg (R.CX_CTRL_TX.addr [160]) = some (R.CX_CTRL_TX, [160]) := by
  decide +kernel

/-- 1 is no place that R130 allows for a control ring, yet the write is taken. -/
theorem State.manyPipes_write :
    (State.manyPipes.portWrite .fw (R.CX_CTRL_TX.addr [160]) 1 true).regWord R.CX_CTRL_TX [160] = 1 := by
  decide +kernel

/-- Refutes O12: the statement speaks of every state, with any configuration. Where there are 161 camera pipelines, a base
that is not 1,024-byte aligned is taken by CX_CTRL_TX[160], because its offset is one of the counters' space. The
configuration is not a valid one (R38), and the statement does not ask for a valid one. -/
theorem not_registerWritesFollowTheirAccess : ¬ Obligations.RegisterWritesFollowTheirAccess := by
  unfold Obligations.RegisterWritesFollowTheirAccess
  intro h
  obtain ⟨-, hfull⟩ := h State.manyPipes .fw (R.CX_CTRL_TX.addr [160]) 1 (by decide) (by decide) (by decide)
  obtain ⟨-, -, hreg⟩ := hfull (.registerWrite .fw (R.CX_CTRL_TX.addr [160]) 1 true) (by simp)
  obtain ⟨-, htaken⟩ := hreg _ _ rfl State.manyPipes_findReg
  obtain ⟨-, -, -, -, hbase, -⟩ := htaken (by decide) (by decide) (by decide)
  obtain ⟨t, ht, -, -, hword⟩ := hbase (by simp)
  obtain rfl : State.manyPipes.portWrite .fw (R.CX_CTRL_TX.addr [160]) 1 true = t := Host.Outcome.next.inj ht
  rw [State.manyPipes_write] at hword
  exact absurd hword (by decide +kernel)

end Sys2Proof.Machine
end

section
/-! The laws of the management-cycle boundary: the journal, the plain parameters, and the statement about both (chapters 2, 19
and 20). -/

namespace Sys2Proof.Machine

/-! ### Registers and fields -/

theorem bits_lt (x hi lo : Nat) : bits x hi lo < 2 ^ (hi + 1 - lo) := Nat.mod_lt _ (Nat.two_pow_pos _)

theorem State.get_lt (s : State) (f : Fld) (ix : List Nat) : s.get f ix < 2 ^ (f.hi + 1 - f.lo) := bits_lt ..

theorem State.get_congr {s t : State} (hc : t.cfg = s.cfg) (f : Fld) (ix : List Nat)
    (hr : t.regs.get? (f.reg.addr ix) = s.regs.get? (f.reg.addr ix)) : t.get f ix = s.get f ix := by
  rw [State.get, State.get, State.regWord_congr hc f.reg ix hr]

theorem State.bump_eq (s : State) (f : Fld) (ix : List Nat) (n : Nat) :
    s.bump f ix n = s.put f ix (satTo (2 ^ (f.hi + 1 - f.lo) - 1) (s.get f ix + n)) := rfl

theorem SameRegs.trans {s t u : State} {l m : List Nat} (h : SameRegs s t l) (k : SameRegs t u m) : SameRegs s u (l ++ m) := by
  intro o ho
  obtain ⟨hl, hm⟩ := not_or.mp (fun h => ho (List.mem_append.mpr h))
  exact (k o hm).trans (h o hl)

theorem SameRegs.mono {s t : State} {l m : List Nat} (h : SameRegs s t l) (hs : l ⊆ m) : SameRegs s t m :=
  fun o ho => h o (fun hl => ho (hs hl))

theorem State.setRegWord_sameRegs (s : State) (r : RegSpec) (ix : List Nat) (v : Nat) :
    SameRegs s (s.setRegWord r ix v) [r.addr ix] :=
  fun _ ho => Tbl.get?_set_other _ _ _ _ (List.ne_of_not_mem_cons ho)

theorem State.put_sameRegs (s : State) (f : Fld) (ix : List Nat) (v : Nat) : SameRegs s (s.put f ix v) [f.reg.addr ix] :=
  s.setRegWord_sameRegs f.reg ix _

/-! ### Plain parameters -/

/-- Parameters that only take their word when they are applied. -/
def plainParams : List RegSpec :=
  [R.TB_QUAL, R.TB_HOLD_LIMIT, R.PU_HYST, R.PU_IDX_CHK, R.DS_STARVE, R.FB_ARB, R.QP_BER, R.QM_TIMERS, R.QM_BUF]

/-- Fields in rising order from bit `lo`, none overlapping another or passing bit 31. -/
def packed : Nat → List FieldSpec → Bool
  | lo, [] => decide (lo ≤ 32)
  | lo, f :: fs => decide (lo ≤ f.lo ∧ f.lo ≤ f.hi) && packed (f.hi + 1) fs

theorem fieldWrite_lt (old new : Nat) (f : FieldSpec) : fieldWrite old new f < 2 ^ (f.hi + 1 - f.lo) := by
  have ho := bits_lt old f.hi f.lo
  have hn := bits_lt new f.hi f.lo
  unfold fieldWrite
  dsimp only
  split
  · exact ho
  · exact ho
  · exact Nat.two_pow_pos _
  · exact Nat.lt_of_le_of_lt (Nat.sub_le ..) ho
  · split
    · exact hn
    · exact ho

theorem fieldsWrite_add_le {lo : Nat} {fs : List FieldSpec} (h : packed lo fs = true) (old new : Nat) :
    fieldsWrite old new fs + 2 ^ lo ≤ 2 ^ 32 := by
  induction fs generalizing lo with
  | nil =>
    rw [fieldsWrite, Nat.zero_add]
    exact Nat.pow_le_pow_right (by decide) (of_decide_eq_true h)
  | cons f fs ih =>
    simp only [packed, Bool.and_eq_true, decide_eq_true_eq] at h
    obtain ⟨⟨hlo, hf⟩, hfs⟩ := h
    have hrest := ih hfs
    have hbase : 2 ^ lo ≤ 2 ^ f.lo := Nat.pow_le_pow_right (by decide) hlo
    have hfield : (fieldWrite old new f + 1) * 2 ^ f.lo ≤ 2 ^ (f.hi + 1) := by
      calc (fieldWrite old new f + 1) * 2 ^ f.lo
          ≤ 2 ^ (f.hi + 1 - f.lo) * 2 ^ f.lo := Nat.mul_le_mul_right _ (fieldWrite_lt old new f)
        _ = 2 ^ (f.hi + 1) := by rw [← Nat.pow_add, Nat.sub_add_cancel (by omega)]
    rw [fieldsWrite]
    rw [Nat.add_mul] at hfield
    omega

theorem plainParams_packed : ∀ r ∈ plainParams, packed 0 r.fields = true := by decide

theorem plainParams_fieldsWrite_lt {r : RegSpec} (hr : r ∈ plainParams) (old new : Nat) :
    fieldsWrite old new r.fields < 2 ^ 32 :=
  fieldsWrite_add_le (plainParams_packed r hr) old new

/-- No plain parameter lies in the host port's block. -/
theorem plainParams_addr {r : RegSpec} (hr : r ∈ plainParams) (ix : List Nat) : 0x020000 ≤ r.addr ix := by
  have hoff : ∀ r ∈ plainParams, 0x020000 ≤ r.off := by decide
  exact Nat.le_add_right_of_le (hoff r hr)

theorem plainParams_ne {r : RegSpec} (hr : r ∈ plainParams) (ix : List Nat) {o : Nat} (ho : o < 0x020000) : o ≠ r.addr ix :=
  Nat.ne_of_lt (Nat.lt_of_lt_of_le ho (plainParams_addr hr ix))

theorem plainParams_not_low {r : RegSpec} (hr : r ∈ plainParams) (ix : List Nat) {l : List Nat}
    (hl : ∀ o ∈ l, o < 0x020000) : r.addr ix ∉ l :=
  fun h => plainParams_ne hr ix (hl _ h) rfl

/-- A field of the host port's block stays as a plain parameter is set. -/
theorem State.get_setRegWord_plain {s : State} {r : RegSpec} (hr : r ∈ plainParams) (ix : List Nat) (v : Nat) (f : Fld)
    (hf : f.reg.addr [] < 0x020000) : (s.setRegWord r ix v).get f = s.get f := by
  rw [State.get, State.get, State.regWord_setRegWord_other _ _ _ _ _ _ (plainParams_ne hr ix hf)]

/-- None of the offsets that have an answer of their own is a plain parameter's. -/
theorem State.applyParam_plain {s : State} {r : RegSpec} {ix : List Nat} (hr : r ∈ plainParams)
    (hh : s.regHeld (r.addr ix) = false) (src : Src) (v : Nat) (pair : Bool) :
    s.applyParam src r ix v pair = s.plainParam src r ix v (fun s _ _ => s) := by
  simp only [plainParams, List.mem_cons, List.not_mem_nil, or_false] at hr
  obtain rfl | rfl | rfl | rfl | rfl | rfl | rfl | rfl | rfl := hr <;>
    (rw [State.applyParam, hh]; rfl)

/-! ### Journal entries while both copies are in use -/

/-- The entry that a parameter write by `src` leaves when it is the next of `s` to be journalled (Table 20-7a). -/
def State.paramEntry (s : State) (src : Src) (status cause off old new : Nat) : JEntry :=
  { seq := s.get R.HP_JRN_HEAD_seq, tt := s.tt, source := srcNum src, status := status, cause := cause, long := false,
    command := false, loc := off, old := old, new := new, detail := 0 }

/-- Both copies of the journal with one entry more. -/
def Journal.enter (j : Journal) (e : JEntry) : Journal :=
  { j with primary := j.primary.set (e.seq % 16384) e, mirror := j.mirror.set (e.seq % 16384) e }

/-- `u` is `s` with one entry more in both copies of the journal and with other registers, among them the next place of the
sequence. -/
structure EntryMade (s u : State) (e : JEntry) : Prop where
  frame : u = { s with regs := u.regs, jrn := u.jrn }
  jrn : u.jrn = s.jrn.enter e
  seq : u.get R.HP_JRN_HEAD_seq = (e.seq + 1) % 2 ^ 32

theorem EntryMade.cfg {s u : State} {e : JEntry} (h : EntryMade s u e) : u.cfg = s.cfg := by
  rw [h.frame]

theorem EntryMade.pend {s u : State} {e : JEntry} (h : EntryMade s u e) : u.jrn.pend = s.jrn.pend := by
  rw [h.jrn]
  rfl

section
variable {s : State} (hcopy : s.get R.HP_JRN_STATUS_copy = 0)
include hcopy

theorem State.jrnEntry_both (src : Src) (status cause off old new : Nat) :
    s.jrnEntry (srcNum src) status cause off old new
      = ({ s with jrn := s.jrn.enter (s.paramEntry src status cause off old new) } : State).put R.HP_JRN_HEAD_seq []
          ((s.get R.HP_JRN_HEAD_seq + 1) % 2 ^ 32) := by
  simp only [State.jrnEntry, hcopy]
  rfl

theorem State.jrnEntry_made (src : Src) (status cause off old new : Nat) :
    EntryMade s (s.jrnEntry (srcNum src) status cause off old new) (s.paramEntry src status cause off old new) := by
  rw [State.jrnEntry_both hcopy]
  refine ⟨rfl, rfl, ?_⟩
  rw [State.get_put_same _ _ _ _ (by decide) (by decide)]
  exact Nat.mod_mod ..

theorem State.jrnEntry_sameRegs (src : Src) (status cause off old new : Nat) :
    SameRegs s (s.jrnEntry (srcNum src) status cause off old new) [R.HP_JRN_HEAD.off] := by
  intro o ho
  rw [State.jrnEntry_both hcopy, State.put_get?_other _ _ _ _ _ (List.ne_of_not_mem_cons ho)]

/-- A change of registers before the entry is made, which leaves its place in the sequence. -/
theorem State.jrnEntry_made_after {s₀ : State} (hs : s = { s₀ with regs := s.regs })
    (hseq : s.get R.HP_JRN_HEAD_seq = s₀.get R.HP_JRN_HEAD_seq) (src : Src) (status cause off old new : Nat) :
    EntryMade s₀ (s.jrnEntry (srcNum src) status cause off old new) (s₀.paramEntry src status cause off old new) := by
  have htt : s.tt = s₀.tt := by rw [hs]
  have he : s.paramEntry src status cause off old new = s₀.paramEntry src status cause off old new := by
    simp only [State.paramEntry, hseq, htt]
  obtain ⟨hframe, hjrn, hnext⟩ := State.jrnEntry_made hcopy src status cause off old new
  rw [he] at hjrn hnext
  exact ⟨by rw [hframe, hs], by rw [hjrn, hs], hnext⟩

end

/-- The entry made last is the one that the read-back looks at. -/
theorem EntryMade.lastEntry {s u : State} {e : JEntry} (h : EntryMade s u e) (he : e.seq < 2 ^ 32) : u.lastEntry = some e := by
  have hseq : (u.get R.HP_JRN_HEAD_seq + 2 ^ 32 - 1) % 2 ^ 32 = e.seq := by
    rw [h.seq]
    omega
  rw [State.lastEntry, hseq]
  simp [h.jrn, Journal.enter]

theorem EntryMade.seq_ne {s u : State} {e : JEntry} (h : EntryMade s u e) : u.get R.HP_JRN_HEAD_seq ≠ e.seq := by
  rw [h.seq]
  omega

theorem EntryMade.journalled {s u : State} {src : Src} {status cause off old new : Nat}
    (h : EntryMade s u (s.paramEntry src status cause off old new)) : Journalled s u src status cause off old new := by
  intro _
  refine ⟨s.paramEntry src status cause off old new, ?_, ?_, rfl, rfl, rfl, rfl, rfl, rfl, rfl, rfl⟩ <;>
    rw [h.jrn] <;> exact Tbl.get?_set_same ..

/-- A later entry at another place leaves it journalled. -/
theorem Journalled.enter {s t u : State} {src : Src} {status cause off old new : Nat} {e : JEntry} {l : List ParamWrite}
    (h : Journalled s t src status cause off old new) (hu : u.jrn = Journal.enter { t.jrn with pend := l } e)
    (he : s.get R.HP_JRN_HEAD_seq % 16384 ≠ e.seq % 16384) : Journalled s u src status cause off old new := by
  intro hcopy
  obtain ⟨x, hprimary, hmirror, hx⟩ := h hcopy
  refine ⟨x, ?_, ?_, hx⟩ <;> rw [hu, Journal.enter, Tbl.get?_set_other _ _ _ _ he] <;> assumption

theorem Journalled.congr {s t u : State} {src : Src} {status cause off old new : Nat}
    (h : Journalled s t src status cause off old new) (hj : u.jrn = t.jrn) :
    Journalled s u src status cause off old new := by
  unfold Journalled
  rw [hj]
  exact h

/-! ### A plain parameter that is applied or refused -/

/-- What decides whether a write reaches its block: the configuration, the held islands, the phases and the word before. -/
theorem State.Takes.congr {s t : State} {src : Src} {r : RegSpec} {ix : List Nat} {v : Nat} (h : s.Takes src r ix v)
    (hc : t.cfg = s.cfg) (hi : t.heldIsl = s.heldIsl) (hd : t.phaseDone = s.phaseDone) (hm : t.mgmtHalted = s.mgmtHalted)
    (hp : t.phase = s.phase) (hw : t.regWord r ix = s.regWord r ix) : t.Takes src r ix v := by
  unfold State.Takes State.hostShut State.controlDone State.regHeld State.gate at h ⊢
  rw [hc, hi, hd, hm, hp, hw]
  exact h

/-- A journal entry made before a write is no reason to refuse it. -/
theorem State.Takes.of_head {s t : State} {src : Src} {r : RegSpec} {ix : List Nat} {v : Nat} (h : s.Takes src r ix v)
    (hr : r ∈ plainParams) (ht : t = { s with regs := t.regs, jrn := t.jrn }) (hregs : SameRegs s t [R.HP_JRN_HEAD.off]) :
    t.Takes src r ix v := by
  have hcfg : t.cfg = s.cfg := by rw [ht]
  exact h.congr hcfg (by rw [ht]) (by rw [ht]) (by rw [ht]) (State.get_congr hcfg _ [] (hregs _ (by decide)))
    (State.regWord_congr hcfg r ix (hregs _ (plainParams_not_low hr ix (by decide))))

/-- `u` is `s` after a write of `v` by `src` to the plain parameter `r` was applied and journalled. -/
structure Applied (s u : State) (src : Src) (r : RegSpec) (ix : List Nat) (v : Nat) : Prop where
  word : u.regWord r ix = fieldsWrite (s.regWord r ix) v r.fields
  regs : SameRegs s u [r.addr ix, R.HP_JRN_HEAD.off]
  entry : EntryMade s u (s.paramEntry src 0 (if anyOutOfRange v r.fields then 1 else 0) (r.addr ix) (s.regWord r ix) v)

/-- A field of the host port's block other than the place in the journal. -/
theorem Applied.get {s u : State} {src : Src} {r : RegSpec} {ix : List Nat} {v : Nat} (h : Applied s u src r ix v)
    (hr : r ∈ plainParams) (f : Fld) (hlow : f.reg.addr [] < 0x020000) (hf : f.reg.addr [] ≠ R.HP_JRN_HEAD.off) :
    u.get f = s.get f :=
  State.get_congr h.entry.cfg f [] (h.regs _ (by simpa [hf] using plainParams_ne hr ix hlow))

section
variable {s : State} {src : Src} {off v : Nat} {r : RegSpec} {ix : List Nat} (hf : findReg s.cfg off = some (r, ix))
  (hr : r ∈ plainParams)
include hf hr

theorem State.applyAt_plain (hh : s.regHeld (r.addr ix) = false) (pair : Bool) :
    s.applyAt src off v pair = s.plainParam src r ix v (fun s _ _ => s) := by
  rw [State.applyAt, hf]
  exact State.applyParam_plain hr hh src v pair

theorem State.applyAt_takes (ht : s.Takes src r ix v) (pair : Bool) : s.applyAt src off v pair =
    (s.setRegWord r ix (fieldsWrite (s.regWord r ix) v r.fields)).jrnApplied src
      (if anyOutOfRange v r.fields then causeRange else 0) (r.addr ix) (s.regWord r ix) v := by
  obtain ⟨hshut, hheld, hgate⟩ := ht
  rw [State.applyAt_plain hf hr hheld]
  simp [State.plainParam, State.paramWrite, State.paramWriteEff, hshut, hheld, hgate]

theorem State.applyAt_refused {cause : Nat} (hs : s.hostShut src = false) (hh : s.regHeld (r.addr ix) = false)
    (hg : s.gate src (r.addr ix) (s.regWord r ix) (fieldsWrite (s.regWord r ix) v r.fields) = some cause) (pair : Bool) :
    s.applyAt src off v pair = s.gateRefuse src cause (r.addr ix) (s.regWord r ix) v := by
  rw [State.applyAt_plain hf hr hh]
  simp [State.plainParam, State.paramWrite, State.paramWriteEff, hs, hh, hg]

theorem State.applyAt_applied (hcopy : s.get R.HP_JRN_STATUS_copy = 0) (ht : s.Takes src r ix v) (pair : Bool) :
    Applied s (s.applyAt src off v pair) src r ix v := by
  rw [State.applyAt_takes hf hr ht]
  have hset := s.setRegWord_sameRegs r ix (fieldsWrite (s.regWord r ix) v r.fields)
  have hword := s.regWord_setRegWord_same r ix (fieldsWrite (s.regWord r ix) v r.fields)
  rw [Nat.mod_eq_of_lt (plainParams_fieldsWrite_lt hr ..)] at hword
  have hc := (State.get_setRegWord_plain (s := s) hr ix (fieldsWrite (s.regWord r ix) v r.fields) R.HP_JRN_STATUS_copy
    (by decide)).trans hcopy
  have hmade := State.jrnEntry_made_after hc rfl
    (State.get_setRegWord_plain (s := s) hr ix _ R.HP_JRN_HEAD_seq (by decide)) src 0
    (if anyOutOfRange v r.fields then causeRange else 0) (r.addr ix) (s.regWord r ix) v
  have hjrn := State.jrnEntry_sameRegs hc src 0 (if anyOutOfRange v r.fields then causeRange else 0) (r.addr ix)
    (s.regWord r ix) v
  have hkept := State.regWord_congr (s := s.setRegWord r ix _) hmade.cfg r ix
    (hjrn _ (plainParams_not_low hr ix (by decide)))
  exact ⟨hkept.trans hword, hset.trans hjrn, hmade⟩

end

/-- A refusal by the gate is journalled, and counted where the management plane is halted. -/
theorem State.gateRefuse_made {s : State} (hcopy : s.get R.HP_JRN_STATUS_copy = 0) (src : Src) (cause off old v : Nat) :
    EntryMade s (s.gateRefuse src cause off old v) (s.paramEntry src 2 cause off old v)
      ∧ SameRegs s (s.gateRefuse src cause off old v) [R.HP_JRN_STATUS.off, R.HP_JRN_HEAD.off] := by
  by_cases hhalted : cause = causeHalted
  · have hc : (s.bump R.HP_JRN_STATUS_halted_refused).get R.HP_JRN_STATUS_copy = 0 := by
      rw [State.bump_eq, State.get_put_field _ R.HP_JRN_STATUS_halted_refused R.HP_JRN_STATUS_copy _ _ rfl (by decide) (by decide)
        (by decide) (by decide),
        hcopy]
    have hseq : (s.bump R.HP_JRN_STATUS_halted_refused).get R.HP_JRN_HEAD_seq = s.get R.HP_JRN_HEAD_seq := by
      rw [State.bump_eq, State.get_put_other _ _ _ _ _ _ (by decide)]
    have hregs : SameRegs s (s.bump R.HP_JRN_STATUS_halted_refused) [R.HP_JRN_STATUS.off] := s.put_sameRegs _ _ _
    rw [State.gateRefuse, if_pos hhalted]
    exact ⟨State.jrnEntry_made_after hc rfl hseq .., hregs.trans (State.jrnEntry_sameRegs hc _ _ _ _ _ _)⟩
  · rw [State.gateRefuse, if_neg hhalted]
    exact ⟨State.jrnEntry_made hcopy .., (State.jrnEntry_sameRegs hcopy _ _ _ _ _ _).mono (by simp)⟩

/-! ### The units are judged -/

/-- `t` is `s` after units were judged: beside the mismatches only events, and the count of those held for the host, differ. -/
structure Judged (s t : State) : Prop where
  frame : t = { s with regs := t.regs, ecat := t.ecat, ev := t.ev }
  regs : SameRegs s t [R.HP_BOOT_STATUS.off]
  posts : ∃ l, t.ev.mgmt = s.ev.mgmt ++ l

theorem Judged.refl (s : State) : Judged s s := ⟨rfl, fun _ _ => rfl, [], (List.append_nil _).symm⟩

theorem Judged.trans {s t u : State} (h : Judged s t) (k : Judged t u) : Judged s u := by
  obtain ⟨l, hl⟩ := h.posts
  obtain ⟨m, hm⟩ := k.posts
  refine ⟨?_, (h.regs.trans k.regs).mono (by simp), l ++ m, by rw [hm, hl, List.append_assoc]⟩
  rw [k.frame, h.frame]

theorem State.ecat_judged (s : State) (e : EcatState) : Judged s { s with ecat := e } :=
  ⟨rfl, fun _ _ => rfl, [], (List.append_nil _).symm⟩

theorem State.post_judged (s : State) (code : Nat) (inst : Option Nat) (fs : List (FK × Nat)) :
    Judged s (s.post code inst fs) := by
  refine ⟨?_, fun o ho => s.post_get?_other _ _ _ _ (List.ne_of_not_mem_cons ho), _, s.post_mgmt ..⟩
  apply State.eq_of <;> simp

theorem State.unitAgree_judged (s : State) (u : Nat) (reported : Bool) : Judged s (s.unitAgree u reported) := by
  cases reported
  · exact s.ecat_judged _
  · exact (s.ecat_judged _).trans (State.post_judged ..)

theorem State.unitsUpdate_judged (s : State) : Judged s s.unitsUpdate := by
  refine List.foldlRecOn _ _ (Judged.refl s) fun t ht u _ => ht.trans ?_
  dsimp only
  split
  · exact t.ecat_judged _
  · exact t.unitAgree_judged ..
  · exact Judged.refl t

theorem Judged.jrn {s t : State} (h : Judged s t) : t.jrn = s.jrn := by rw [h.frame]

theorem Judged.cfg {s t : State} (h : Judged s t) : t.cfg = s.cfg := by rw [h.frame]

theorem Judged.get {s t : State} (h : Judged s t) (f : Fld) (hf : f.reg.addr [] ≠ R.HP_BOOT_STATUS.off) : t.get f = s.get f :=
  State.get_congr h.cfg f [] (h.regs _ (by simpa using hf))

theorem Judged.regWord {s t : State} (h : Judged s t) {r : RegSpec} (hr : r ∈ plainParams) (ix : List Nat) :
    t.regWord r ix = s.regWord r ix :=
  State.regWord_congr h.cfg r ix (h.regs _ (plainParams_not_low hr ix (by decide)))

/-! ### The boundary -/

theorem State.readBack_good (s : State) : s.readBack false false = s := by
  unfold State.readBack
  split <;> rfl

/-- `s` with other writes waiting for the boundary. -/
def State.withPend (s : State) (l : List ParamWrite) : State := { s with jrn := { s.jrn with pend := l } }

theorem State.boundary_idle {s : State} (hp : s.jrn.pend = []) : s.boundary false false = s.unitsUpdate := by
  simp [State.boundary, hp]

theorem State.boundary_host {s : State} {h : ParamWrite} {rest : List ParamWrite} (hh : h.src = .host)
    (hrest : ∀ x ∈ rest, x.src = .host) (hp : s.jrn.pend = h :: rest) :
    s.boundary false false = ((s.withPend rest).applyAt .host h.off h.val true).unitsUpdate := by
  have hnone : rest.find? (fun w => !w.src == .host) = none := by simpa using hrest
  simp [State.boundary, hp, hh, State.readBack_good, State.withPend, hnone]

/-- `hs`: the host's write is journalled and no longer waits. -/
theorem State.boundary_overtaken {s : State} {h d : ParamWrite} (hh : h.src = .host) (hd : d.src ≠ .host)
    (hoff : h.off = d.off) (hp : s.jrn.pend = [h, d]) (hs : (s.supersede d.off).jrn.pend = [d]) :
    s.boundary false false = (((s.supersede d.off).withPend []).applyAt d.src d.off d.val true).unitsUpdate := by
  simp [State.boundary, hp, hh, hd, hoff, State.readBack_good, State.withPend, hs]

theorem State.supersede_one {s : State} {h d : ParamWrite} {r : RegSpec} {ix : List Nat} (hh : h.src = .host)
    (hd : d.src ≠ .host) (hoff : h.off = d.off) (hp : s.jrn.pend = [h, d]) (hf : findReg s.cfg d.off = some (r, ix)) :
    s.supersede d.off = (s.withPend [d]).jrnEntry (srcNum .host) 1 0 d.off (s.regWord r ix) h.val := by
  have hword : s.regWord r ix = (s.withPend [d]).regWord r ix := rfl
  rw [hword]
  simp [State.supersede, hp, hh, hd, hoff, hf, State.withPend, foldS]

theorem State.boundary_dict {s : State} {d : ParamWrite} (hd : d.src ≠ .host) (hp : s.jrn.pend = [d])
    (hne : ((s.withPend []).applyAt d.src d.off d.val true).get R.HP_JRN_HEAD_seq ≠ s.get R.HP_JRN_HEAD_seq) :
    s.boundary true false = (((s.withPend []).applyAt d.src d.off d.val true).readBack true false).unitsUpdate := by
  unfold State.withPend at hne ⊢
  simp [State.boundary, hp, hd, hne]

/-! ### A copy that fails its read-back -/

/-- `t` is `s` with other words in the host port's block. -/
def LowRegsOnly (s t : State) : Prop :=
  t = { s with regs := t.regs } ∧ ∀ o, 0x020000 ≤ o → t.regs.get? o = s.regs.get? o

theorem LowRegsOnly.setRegWord {s t : State} (h : LowRegsOnly s t) {r : RegSpec} {ix : List Nat} (v : Nat)
    (hr : r.addr ix < 0x020000) : LowRegsOnly s (t.setRegWord r ix v) := by
  obtain ⟨hframe, hregs⟩ := h
  refine ⟨?_, fun o ho => (Tbl.get?_set_other _ _ _ _ (Nat.ne_of_gt (Nat.lt_of_lt_of_le hr ho))).trans (hregs o ho)⟩
  rw [hframe]
  rfl

theorem State.jrnFaultRegs_lowRegsOnly (s : State) (e : JEntry) : LowRegsOnly s (s.jrnFaultRegs e) := by
  have haddr : ∀ k ∈ List.range 8, R.HP_JRN_FAULT.addr [k] < 0x020000 := by decide
  refine LowRegsOnly.setRegWord (List.foldlRecOn _ _ ⟨rfl, fun _ _ => rfl⟩ fun t ht k hk => ?_) _ (by decide)
  exact ht.setRegWord _ (haddr k hk)

/-- The primary failed: the mirror alone is in use, and JOURNAL_FAULT says so (R503). -/
theorem State.readBack_badPrimary {s : State} {e : JEntry} (hl : s.lastEntry = some e)
    (hcopy : s.get R.HP_JRN_STATUS_copy = 0) :
    (s.readBack true false).get R.HP_JRN_STATUS_copy = 2
      ∧ (∀ {r}, r ∈ plainParams → ∀ ix, (s.readBack true false).regWord r ix = s.regWord r ix)
      ∧ Posted s (s.readBack true false) E.JOURNAL_FAULT none [(.en, 1), (.val, e.seq)] := by
  have heq : s.readBack true false =
      ((s.jrnFaultRegs e).post E.JOURNAL_FAULT none [(.en, 1), (.val, e.seq)]).put R.HP_JRN_STATUS_copy [] 2 := by
    simp [State.readBack, hl, State.jrnCopyFault, hcopy]
  obtain ⟨hframe, hregs⟩ := s.jrnFaultRegs_lowRegsOnly e
  rw [heq]
  generalize s.jrnFaultRegs e = w at hframe hregs ⊢
  have hcfg : w.cfg = s.cfg := by rw [hframe]
  refine ⟨State.get_put_same _ _ _ _ (by decide) (by decide), fun {r} hr ix => ?_, ?_⟩
  · rw [State.put, State.regWord_setRegWord_other _ _ _ _ _ _ (plainParams_ne hr ix (by decide)).symm]
    refine State.regWord_congr ((State.post_cfg ..).trans hcfg) r ix ?_
    rw [State.post_get?_other _ _ _ _ _ (plainParams_ne hr ix (by decide)).symm, hregs _ (plainParams_addr hr ix)]
  · exact Posted.of_post (by rw [hframe]) (by rw [hframe]) ..

/-! ### What the boundary does -/

theorem exec_journalledParameterApply (badP badM : Bool) (s : State) :
    exec (.journalledParameterApply badP badM) s = .next (s.boundary badP badM) := rfl

theorem State.boundary_idle_frame {s : State} (hp : s.jrn.pend = []) :
    let t := s.boundary false false
    t = { s with regs := t.regs, ecat := t.ecat, ev := t.ev } ∧ SameRegs s t [R.HP_BOOT_STATUS.off] := by
  rw [State.boundary_idle hp]
  exact ⟨s.unitsUpdate_judged.frame, s.unitsUpdate_judged.regs⟩

section
variable {s : State} {h : ParamWrite} {r : RegSpec} {ix : List Nat} (hcopy : s.get R.HP_JRN_STATUS_copy = 0)
  (hf : findReg s.cfg h.off = some (r, ix)) (hr : r ∈ plainParams) (hh : h.src = .host)
include hcopy hf hr hh

/-- The oldest host write reaches its block. -/
theorem State.boundary_host_applied {rest : List ParamWrite} (hrest : ∀ x ∈ rest, x.src = .host)
    (hp : s.jrn.pend = h :: rest) (ht : s.Takes .host r ix h.val) :
    let t := s.boundary false false
    t.jrn.pend = rest ∧ t.regWord r ix = fieldsWrite (s.regWord r ix) h.val r.fields
      ∧ SameRegs s t [h.off, R.HP_JRN_HEAD.off, R.HP_BOOT_STATUS.off] ∧ t.tt = s.tt ∧ t.mem = s.mem
      ∧ Journalled s t .host 0 (if anyOutOfRange h.val r.fields then 1 else 0) h.off (s.regWord r ix) h.val := by
  obtain ⟨-, haddr⟩ := findReg_spec hf
  rw [State.boundary_host hh hrest hp]
  have happ := State.applyAt_applied (s := s.withPend rest) hf hr hcopy ht true
  have hj := State.unitsUpdate_judged ((s.withPend rest).applyAt .host h.off h.val true)
  generalize (s.withPend rest).applyAt .host h.off h.val true = u at happ hj ⊢
  rw [← haddr]
  dsimp only
  refine ⟨?_, (hj.regWord hr ix).trans happ.word, happ.regs.trans hj.regs, ?_, ?_, ?_⟩
  · rw [hj.jrn, happ.entry.pend]
    rfl
  · rw [hj.frame, happ.entry.frame]
    rfl
  · rw [hj.frame, happ.entry.frame]
    rfl
  · exact happ.entry.journalled.congr hj.jrn

/-- The oldest host write is refused before its block sees it. -/
theorem State.boundary_host_refused {rest : List ParamWrite} (hrest : ∀ x ∈ rest, x.src = .host)
    (hp : s.jrn.pend = h :: rest) (hheld : s.regHeld h.off = false) {cause : Nat} (hshut : s.hostShut .host = false)
    (hg : s.gate .host h.off (s.regWord r ix) (fieldsWrite (s.regWord r ix) h.val r.fields) = some cause) :
    let t := s.boundary false false
    t.jrn.pend = rest ∧ SameRegs s t [R.HP_JRN_HEAD.off, R.HP_JRN_STATUS.off, R.HP_BOOT_STATUS.off]
      ∧ Journalled s t .host 2 cause h.off (s.regWord r ix) h.val := by
  obtain ⟨-, haddr⟩ := findReg_spec hf
  rw [← haddr] at hheld hg
  have hrefused : (s.withPend rest).applyAt .host h.off h.val true
      = (s.withPend rest).gateRefuse .host cause (r.addr ix) (s.regWord r ix) h.val :=
    State.applyAt_refused (s := s.withPend rest) hf hr hshut hheld hg true
  rw [State.boundary_host hh hrest hp, hrefused, ← haddr]
  obtain ⟨hmade, hregs⟩ := State.gateRefuse_made (s := s.withPend rest) hcopy .host cause (r.addr ix) (s.regWord r ix) h.val
  have hj := State.unitsUpdate_judged ((s.withPend rest).gateRefuse .host cause (r.addr ix) (s.regWord r ix) h.val)
  refine ⟨?_, (hregs.trans hj.regs).mono (by simp), hmade.journalled.congr hj.jrn⟩
  rw [hj.jrn, hmade.pend]
  rfl

/-- The dictionary's write of the same parameter is applied, and the host's is journalled as superseded. -/
theorem State.boundary_superseded {d : ParamWrite} (hd : d.src ≠ .host) (hoff : h.off = d.off)
    (hp : s.jrn.pend = [h, d]) (ht : s.Takes d.src r ix d.val) :
    let t := s.boundary false false
    t.jrn.pend = [] ∧ t.regWord r ix = fieldsWrite (s.regWord r ix) d.val r.fields
      ∧ SameRegs s t [h.off, R.HP_JRN_HEAD.off, R.HP_BOOT_STATUS.off]
      ∧ Journalled s t .host 1 0 h.off (s.regWord r ix) h.val := by
  rw [hoff] at hf ⊢
  obtain ⟨-, haddr⟩ := findReg_spec hf
  have hone := State.supersede_one hh hd hoff hp hf
  have hmade := State.jrnEntry_made (s := s.withPend [d]) hcopy .host 1 0 d.off (s.regWord r ix) h.val
  have hhead : SameRegs s _ [R.HP_JRN_HEAD.off] :=
    State.jrnEntry_sameRegs (s := s.withPend [d]) hcopy .host 1 0 d.off (s.regWord r ix) h.val
  rw [← hone] at hmade hhead
  rw [State.boundary_overtaken hh hd hoff hp hmade.pend]
  generalize s.supersede d.off = m at hmade hhead ⊢
  have hcfg : m.cfg = s.cfg := hmade.cfg
  have hmcopy : (m.withPend []).get R.HP_JRN_STATUS_copy = 0 :=
    (State.get_congr hcfg _ [] (hhead _ (by decide))).trans hcopy
  have hword : m.regWord r ix = s.regWord r ix := State.regWord_congr hcfg r ix (hhead _ (plainParams_not_low hr ix (by decide)))
  have htakes : m.Takes d.src r ix d.val := ht.of_head hr hmade.frame hhead
  have happ := State.applyAt_applied (s := m.withPend []) (by rwa [← hcfg] at hf) hr hmcopy htakes true
  have hj := State.unitsUpdate_judged ((m.withPend []).applyAt d.src d.off d.val true)
  generalize (m.withPend []).applyAt d.src d.off d.val true = u at happ hj ⊢
  have hseq : s.get R.HP_JRN_HEAD_seq % 16384 ≠ m.get R.HP_JRN_HEAD_seq % 16384 := by
    rw [hmade.seq]
    change s.get R.HP_JRN_HEAD_seq % 16384 ≠ (s.get R.HP_JRN_HEAD_seq + 1) % 2 ^ 32 % 16384
    omega
  rw [← haddr] at hmade ⊢
  refine ⟨?_, ?_, ?_, ?_⟩
  · rw [hj.jrn, happ.entry.pend]
    rfl
  · rw [← hword]
    exact (hj.regWord hr ix).trans happ.word
  · exact (hhead.trans (happ.regs.trans hj.regs)).mono (by simp)
  · exact (hmade.journalled.enter (l := []) happ.entry.jrn hseq).congr hj.jrn

end

/-- The entry of the dictionary's write fails its read-back in the primary. -/
theorem State.boundary_badPrimary {s : State} {d : ParamWrite} {r : RegSpec} {ix : List Nat}
    (hcopy : s.get R.HP_JRN_STATUS_copy = 0) (hf : findReg s.cfg d.off = some (r, ix)) (hr : r ∈ plainParams)
    (hd : d.src ≠ .host) (hp : s.jrn.pend = [d]) (ht : s.Takes d.src r ix d.val) :
    let t := s.boundary true false
    t.get R.HP_JRN_STATUS_copy = 2 ∧ t.regWord r ix = fieldsWrite (s.regWord r ix) d.val r.fields
      ∧ PostedFirst s t E.JOURNAL_FAULT none [(.en, 1), (.val, s.get R.HP_JRN_HEAD_seq)] := by
  have happ := State.applyAt_applied (s := s.withPend []) hf hr hcopy ht true
  rw [State.boundary_dict hd hp happ.entry.seq_ne]
  generalize (s.withPend []).applyAt d.src d.off d.val true = u at happ ⊢
  have hucopy : u.get R.HP_JRN_STATUS_copy = 0 := (happ.get hr _ (by decide) (by decide)).trans hcopy
  obtain ⟨hmirror, hword, hposted⟩ := State.readBack_badPrimary (happ.entry.lastEntry (s.get_lt ..)) hucopy
  have hj := State.unitsUpdate_judged (u.readBack true false)
  obtain ⟨l, hl⟩ := hj.posts
  refine ⟨(hj.get _ (by decide)).trans hmirror, ?_, l, ?_⟩
  · exact (hj.regWord hr ix).trans ((hword hr ix).trans happ.word)
  · rw [hl, hposted, happ.entry.frame, List.append_assoc]
    rfl

/-- Settles O13: the boundary applies, refuses or supersedes by way of one journal entry each, and judging the units afterwards
only posts events. -/
theorem parametersApplyAtTheBoundary : Obligations.ParametersApplyAtTheBoundary := by
  unfold Obligations.ParametersApplyAtTheBoundary
  intro s _ hcopy
  refine ⟨fun hp => ⟨_, exec_journalledParameterApply .., State.boundary_idle_frame hp⟩, ?_⟩
  intro h d rest r ix hh hd hoff _ _ hf hheld hr
  refine ⟨fun hrest hp => ⟨fun ht => ?applied, fun cause hshut hg => ?refused⟩, fun hp ht => ?superseded, fun hp ht => ?fault⟩
  case applied =>
    exact ⟨_, exec_journalledParameterApply .., State.boundary_host_applied hcopy hf hr hh hrest hp ht⟩
  case refused =>
    exact ⟨_, exec_journalledParameterApply .., State.boundary_host_refused hcopy hf hr hh hrest hp hheld hshut hg⟩
  case superseded =>
    exact ⟨_, exec_journalledParameterApply .., State.boundary_superseded hcopy hf hr hh hd hoff hp ht⟩
  case fault =>
    exact ⟨_, exec_journalledParameterApply .., State.boundary_badPrimary hcopy (hoff ▸ hf) hr hd hp ht⟩

end Sys2Proof.Machine
end
